-- ==== Sys2Proof/Word.lean ====
section
/-! DEFINITION. The data words of the block and their plainest arithmetic. -/

namespace Sys2Proof

/-- One byte of memory, SRAM, packet or image data. -/
abbrev Byte := BitVec 8

/-- Saturating increment of a counter of `w` bits: it stops at its maximum. -/
def satAdd (w n k : Nat) : Nat := min (2 ^ w - 1) (n + k)

end Sys2Proof
end

