-- ==== Sys2Proof/Machine/Packet.lean ====
section
/-! DEFINITION. Packets of the arbitrated plane (R131, R134, R138) and who makes an access (R5). These are the data
that commands and the state carry. -/

namespace Sys2Proof

/-- Who accesses a register or issues a command (R5): the host, Miomus, or the software of one core for a context. -/
inductive Who where
  | host
  | miomus
  | core (st ctx : Nat)
  deriving DecidableEq, Repr

/-- Privileged requesters are the host and Miomus (R5). -/
def Who.priv : Who → Bool
  | .host => true
  | .miomus => true
  | .core _ _ => false

/-- An arbitrated-plane packet: the header of R131, the extension's 32 bytes (empty when `ext` is 0), the payload and
its poison, one bit for each 64 B of payload (R134, R135). `ans` names the operation an answer
answers, `ref` the requester's own record of the request, `sref` its copy of a packet absorbed at a dead port, and `refs` the
records of the posted writes that a WCNT covers; none is a wire field: a requester knows them by tag. -/
structure Packet where
  vc : Nat := 0
  herdMode : Bool := false
  ack : Bool := false
  op : Nat := 0
  dst : Nat := 0
  src : Nat := 0
  ctx : Nat := 0
  gen : Nat := 0
  hops : Nat := 0
  hopPtr : Nat := 0
  hop : Nat := 0
  tag : Nat := 0
  len : Nat := 0
  addr : Nat := 0
  aux : Nat := 0
  status : Nat := 0
  byRouter : Bool := false
  retry : Bool := false
  ext : List Byte := []
  data : List Byte := []
  pois : Nat := 0
  ans : Nat := 0
  ref : Nat := 0
  sref : Nat := 0
  refs : List Nat := []
  deriving DecidableEq, Repr

/-- A symbol of a codeword that its receiver finds damaged (R379): which codeword of the unit, which of its symbols, and the
difference. -/
structure Err where
  word : Nat
  sym : Nat
  flip : Byte
  deriving DecidableEq, Repr

/-- Damage to what arrives on an input lane in a slot: to its tag lane (codeword 0) and payload (codeword 1) (R104, R125). -/
structure LaneErr where
  unit : Nat
  port : Nat
  lane : Nat
  errs : List Err
  deriving DecidableEq, Repr

/-- Damage to a row of plate memory read in a slot (R125, R396): unit of the plate, output port (63: combine entries), row,
and the symbols of its two codewords. -/
structure RowErr where
  unit : Nat
  port : Nat
  row : Nat
  errs : List Err
  deriving DecidableEq, Repr

/-- An entry of a configuration table that is read uncorrectable (R380): a route or herd root of a unit, a herd entry of a
router, a window of a station or memory port, a group, a pool table or a ring of a station. -/
inductive TblEntry where
  | route (bank unit dst : Nat)
  | root (bank unit herd : Nat)
  | herd (bank unit herd : Nat)
  | window (unit n : Nat)
  | group (n : Nat)
  | pool (st n : Nat)
  | ring (st n : Nat)
  deriving DecidableEq, Repr

/-- Bits `lo` to `lo + w - 1` of a number. -/
def bits (n lo w : Nat) : Nat := (n / 2 ^ lo) % 2 ^ w

/-- Bit `i` of a number. -/
def bit (n i : Nat) : Bool := (n / 2 ^ i) % 2 == 1

/-- A number with bit `i` set to `b`. -/
def setBit (n i : Nat) (b : Bool) : Nat := n - (if bit n i then 2 ^ i else 0) + (if b then 2 ^ i else 0)

/-- Parity of the low `w` bits (R144, R278). -/
def parity (n : Nat) : Nat → Bool
  | 0 => false
  | w + 1 => xor (bit n w) (parity n w)

/-- Number of ones among the low `w` bits. -/
def popc (n : Nat) : Nat → Nat
  | 0 => 0
  | w + 1 => (if bit n w then 1 else 0) + popc n w

/-- Little-endian number of a list of bytes (R12). -/
def ofLE : List Byte → Nat
  | [] => 0
  | b :: bs => b.toNat + 256 * ofLE bs

/-- `n` bytes of a number, least significant first (R12). -/
def toLE : Nat → Nat → List Byte
  | 0, _ => []
  | n + 1, v => BitVec.ofNat 8 v :: toLE n (v / 256)

/-- The little-endian field of `n` bytes at byte offset `off`. -/
def le (bs : List Byte) (off n : Nat) : Nat := ofLE ((bs.drop off).take n)

/-- Exactly `n` bytes: cut, or padded with zeros. -/
def fit (n : Nat) (bs : List Byte) : List Byte := bs.take n ++ List.replicate (n - bs.length) 0

/-- Write `d` over `bs` at offset `off`. -/
def patch (bs : List Byte) (off : Nat) (d : List Byte) : List Byte :=
  bs.take off ++ d ++ bs.drop (off + d.length)

/-- Whole length of a packet in bytes (R131). -/
def Packet.size (p : Packet) : Nat := 32 + (if p.ext = [] then 0 else 32) + p.len

/-- Hop entry `j` (R131). -/
def Packet.hopAt (p : Packet) (j : Nat) : Nat := bits p.hop (6 * j) 6

/-- The packet with hop entry `j` holding `v`. -/
def Packet.setHop (p : Packet) (j v : Nat) : Packet :=
  { p with hop := p.hop - p.hopAt j * 2 ^ (6 * j) + v % 64 * 2 ^ (6 * j) }

/-- A hop list as the 42-bit field (R131). -/
def hopList : List Nat → Nat
  | [] => 0
  | h :: t => h % 64 + 64 * hopList t

/-- Any part of the payload is poisoned. -/
def Packet.bad (p : Packet) : Bool := p.pois != 0

/-- The packet poisoned over its whole length (R140). -/
def Packet.poisonAll (p : Packet) : Packet := { p with pois := 2 ^ (max 1 ((p.len + 63) / 64)) - 1 }

/-- Bytes before a packet's payload. -/
def Packet.headLen (p : Packet) : Nat := p.size - p.len

/-- The packet with the payload chunks that bytes `off` to `off + n - 1` touch poisoned. -/
def Packet.poisonAt (p : Packet) (off n : Nat) : Packet :=
  if off + n ≤ p.headLen then p else
  let a := (off - p.headLen) / 64
  let b := (off + n - 1 - p.headLen) / 64
  { p with pois := (List.range (b + 1 - a)).foldl (fun m i => setBit m (a + i) true) p.pois }

/-- The network of a VC: 0 REQ, 1 RSP, 2 SNP, 3 DAT (R128). -/
def netOf (vc : Nat) : Nat :=
  if vc ≤ 2 then 0 else if vc ≤ 4 then 1 else if vc = 5 then 2 else 3

/-- The VCs of a network, in ascending code (R128). -/
def vcsOf (net : Nat) : List Nat :=
  match net with
  | 0 => [0, 1, 2]
  | 1 => [3, 4]
  | 2 => [5]
  | _ => [6, 7, 8, 9]

/-- The greatest packet length of a VC in bytes (R133). -/
def vcLimit (vc : Nat) : Nat :=
  if vc ≤ 5 then 64 else if vc = 8 then 8256 else 4160

/-- Precedence of a status code: the smaller number wins (R19). Codes the device never returns come last. -/
def statusPrec (s : Nat) : Nat :=
  match s with
  | 0x0A => 1 | 0x0E => 2 | 0x0D => 3 | 0x11 => 4 | 0x04 => 5 | 0x05 => 6 | 0x01 => 7 | 0x02 => 8 | 0x12 => 9
  | 0x0B => 10 | 0x09 => 11 | 0x03 => 12 | 0x07 => 13 | 0x08 => 14 | 0x0F => 15 | 0x06 => 16 | 0x10 => 17
  | 0x0C => 18 | 0x00 => 19 | _ => 20

/-- The status of highest precedence in a list; OK when the list is empty (R19). -/
def worst (l : List Nat) : Nat := l.foldl (fun a b => if statusPrec b < statusPrec a then b else a) 0

/-- The first condition that holds decides (R19): the highest-precedence status among those whose condition is true. -/
def firstOf (l : List (Bool × Nat)) : Nat := worst ((l.filter (fun c => c.1)).map (fun c => c.2))

def OK : Nat := 0x00
def NOCREDIT : Nat := 0x01
def BUSY : Nat := 0x02
def TIMEOUT : Nat := 0x03
def FENCED : Nat := 0x04
def DEAD_TARGET : Nat := 0x05
def POISON : Nat := 0x06
def STALE_GEN : Nat := 0x07
def MISMATCH : Nat := 0x08
def NOHERD : Nat := 0x09
def BADOP : Nat := 0x0A
def ABORTED : Nat := 0x0B
def DROPPED : Nat := 0x0C
def NOPLATE : Nat := 0x0D
def DENIED : Nat := 0x0E
def UNCORRECTABLE : Nat := 0x0F
def SHORT : Nat := 0x10
def NOROUTE : Nat := 0x11
def ALREADY : Nat := 0x12

/-- The operation is an answer: it expects none. -/
def isAnswer (op : Nat) : Bool := op == 0x03 || op == 0x0B || op == 0x0E || op == 0x60 || op == 0x09 || op == 0x58 || op == 0x59

end Sys2Proof
end

