-- ==== Sys2Proof/Syntax.lean ====
section
/-! DEFINITION. The commands of the block: one constructor for each row of spec/opcode_table.json. Operands name the
unit an event happens at and carry what comes from outside the block (packets of the host, requests of a core, frames,
timing words, pins, results of proof). What a command needs from inside the block it finds in the state. -/

namespace Sys2Proof

/-- A memory request presented on the core port (R286). `data` is what its data beats carry, in address order from `addr`,
and bit j of `be` is the byte enable of byte j of it. -/
structure CoreReq where
  op : Nat
  addr : Nat
  len : Nat := 64
  aop : Nat := 0
  posted : Bool := false
  tag : Nat := 0
  ctx : Nat := 0
  be : Nat := 2 ^ 256 - 1
  data : List Byte := []
  deriving DecidableEq, Repr

/-- What the governor's monitor finds for one microsecond (R474): the draw, in mW, and whether the q or the duty in force
differs from the governor's request. -/
structure Draws where
  measured : Nat
  differs : Bool
  deriving DecidableEq, Repr

/-- The failing part that Miomus finds at a location (R385, R394 to R396): a signal lane of a bond lane group (bond port,
direction, group, lane), a bond port that lost its group, a lane group of an edge port, a row of 8 entries of a plate
buffer (plate unit, port, row, whether of the staged buffer), a physical station or its core, a CR or RR, or the whole part
that the location names: a tine, beam, memory port, edge port, package unit. -/
inductive FailedPart where
  | bondLane (bond dir grp lane : Nat)
  | bondPort (bond : Nat)
  | edgeLane (ep : Nat)
  | plateRow (unit port row : Nat) (staged : Bool)
  | station (n : Nat)
  | router (u : Nat)
  | baseLink (tine port : Nat)
  | whole
  deriving DecidableEq, Repr

/-- A failure that proof finds (R443, R446): step, location (R381), detail, full herd stamp, and the part. A bond or edge
lane's number stands in `detail`. -/
structure ProofRec where
  step : Nat
  loc : Nat
  detail : Nat
  stamp : Nat
  part : FailedPart
  deriving DecidableEq, Repr

/-- The commands. -/
inductive Instr where
  | porstNAssert
  | porstNRelease
  | pwrgdInFall
  | hrstNAssert (lowFc : Nat)
  | hrstNRelease
  | fabricClockLock
  | pdGoodRise (site : Nat)
  | pdGoodTimeout (site : Nat)
  | proofEnd (recs : List ProofRec) (ptime : Nat)
  | sleepRequest (site : Nat)
  | sleepSave (site : Nat)
  | wakeRequest (site : Nat)
  | bondRetrainEnd (site : Nat)
  | trstNAssert
  | kdbgUpdate (dr : Nat)
  | ctailWrite (q val : Nat) (who : Who)
  | commandFetch (q : Nat)
  | hostPacket (p : Packet)
  | identify (q slot : Nat)
  | proofReport (q slot : Nat)
  | patchLoad (q slot : Nat)
  | herdLockEdge (q slot : Nat)
  | herdLockFreeRun (q slot : Nat)
  | herdStatus (q slot : Nat)
  | plateLoad (q slot : Nat)
  | plateLoadAcked (q slot : Nat)
  | plateLoadTimeout (q slot : Nat)
  | plateArm (q slot : Nat)
  | plateAbort (q slot : Nat)
  | pauseSet (q slot : Nat)
  | routeWrite (q slot : Nat)
  | routeCommit (q slot : Nat)
  | ctxCreate (q slot : Nat)
  | ctxFence (q slot : Nat)
  | ctxReset (q slot : Nat)
  | ctxDestroy (q slot : Nat)
  | stationFenceCtx (q slot : Nat)
  | stationFenceAll (q slot : Nat)
  | stationUnfenceCtx (q slot : Nat)
  | stationUnfenceAll (q slot : Nat)
  | spareMapCore (q slot : Nat)
  | spareMapDie (q slot : Nat)
  | spareMapBeam (q slot : Nat)
  | funcReinitF1 (q slot : Nat)
  | funcReinitF2 (q slot : Nat)
  | funcReinitF3 (q slot : Nat)
  | funcReinitF4 (q slot : Nat)
  | funcReinitF5 (q slot : Nat)
  | funcReinitF6 (q slot : Nat)
  | blockReset (q slot : Nat)
  | counterRead (q slot : Nat)
  | histoRead (q slot : Nat)
  | traceArm (q slot : Nat)
  | faultRead (q slot : Nat)
  | faultClear (q slot : Nat)
  | circuitTable (q slot : Nat)
  | groupDefine (q slot : Nat)
  | herdDefine (q slot : Nat)
  | timingWordReceive (ep : Nat)
  | lossWindowExpiry
  | acquireTimeout
  | refPortChange
  | decisionFc (throt : Bool)
  | periodBoundary
  | laneDrainEnd
  | slot (lanes : List LaneErr) (rows : List RowErr) (tables : List TblEntry)
  | streamTimeLimit (st stream : Nat)
  | arbiterDraw (unit port net : Nat) (errs : List Err)
  | quotaWindowStart (unit port net : Nat)
  | watchdogBite (unit port net vc : Nat)
  | packetRoute (router port vc : Nat) (errs : List Err)
  | herdRoute (router port vc : Nat)
  | creditWordReceive (unit port cvc cnt : Nat) (errs : List Err)
  | commitEffect
  | generationSweepEnd
  | drainLate
  | staleGenAnswer (unit : Nat)
  | staleHoldTimeout (unit tag : Nat)
  | cmpReceive (unit : Nat)
  | folio (unit port : Nat)
  | descriptorFetch (st : Nat)
  | streamDescriptor (st entry : Nat)
  | sendDescriptor (st entry : Nat)
  | readDescriptor (st entry : Nat)
  | writeDescriptor (st entry : Nat)
  | fenceDescriptor (st entry : Nat)
  | bagDescriptor (st entry : Nat)
  | collDescriptor (st entry : Nat)
  | countDescriptor (st entry : Nat)
  | nopDescriptor (st entry : Nat)
  | bagSlotAllocate (st entry : Nat)
  | directSend (st chan addr blen ctx : Nat) (inHandler : Bool)
  | sendUnblock (st : Nat)
  | sendWithdraw (st : Nat)
  | sendStallTimeout (st chan : Nat)
  | messageReceive (st : Nat)
  | inMemMessageWritten (st ring : Nat)
  | inMemPopData (st ring : Nat)
  | creditReceive (st : Nat)
  | cresyncReceive (st : Nat)
  | ringPop (st ring npop : Nat) (who : Who)
  | creditReturnTimer (st ring slot : Nat)
  | ringEnable (st ring : Nat) (who : Who)
  | ringDisable (st ring : Nat) (who : Who)
  | channelEnable (st chan : Nat) (who : Who)
  | channelDisable (st chan : Nat) (who : Who)
  | dispatchOffer (st : Nat)
  | dispatchTake (st : Nat)
  | coreMemoryRequest (st : Nat) (r : CoreReq)
  | coreFence (st tag scope ctx : Nat)
  | requestTimeout (st tag : Nat)
  | read (unit : Nat)
  | write (unit : Nat)
  | cwrite (unit : Nat)
  | atomic (unit : Nat)
  | rdS (port : Nat)
  | rdE (port : Nat)
  | upgrade (port : Nat)
  | wb (port : Nat)
  | evict (port : Nat)
  | snpInv (st : Nat)
  | snpDown (st : Nat)
  | snpFlush (st : Nat)
  | coreSnoopAnswer (st id state : Nat) (dirty : Bool) (data : List Byte)
  | sack (port : Nat)
  | sdata (port : Nat)
  | snoopTimeout (slice key : Nat)
  | rdata (unit : Nat)
  | ldata (st : Nat)
  | adata (st : Nat)
  | wcnt (unit : Nat)
  | wcntTimer (unit src : Nat)
  | ccinc (st : Nat)
  | memoryReadResponse (port tag unc : Nat)
  | memoryWriteAck (port tag : Nat)
  | directoryWalkEnd (slice : Nat)
  | reduce (tine : Nat)
  | barrier (tine : Nat)
  | count (tine : Nat)
  | lingerExpiry (tine key : Nat)
  | result (st : Nat)
  | earlySlotExpiry (st slot : Nat)
  | collTimeLimit (st entry : Nat)
  | poolRead (port : Nat)
  | poolPart (region : Nat)
  | poolLingerExpiry (unit key : Nat)
  | poolPartFold (st : Nat)
  | bagTimeLimit (st slot : Nat)
  | mergeRow (tine : Nat)
  | mergeWindowExpiry (tine key : Nat)
  | mergeAnswer (tine : Nat)
  | nearMemoryAccumulate (port : Nat)
  | laneLockGain (ep lane : Nat)
  | laneLockLoss (ep lane : Nat)
  | oeReadyChange (ep : Nat) (level : Bool)
  | blockHeaderReceive (ep : Nat) (rx : List (List (List Nat)))
  | frameBoundary (ep : Nat)
  | dataFrame (ep : Nat)
  | edgePacketSend (ep : Nat)
  | edgePacketReceive (ep : Nat)
  | ackPacket (ep : Nat)
  | ackTimer (ep peer : Nat)
  | rtoExpiry (ep peer psn : Nat)
  | proxyAnswer (ep : Nat)
  | proxyExpiry (ep proxy : Nat)
  | pathSuspendEnd (ep path : Nat)
  | shapingRelease (ep : Nat)
  | circFrame (ep : Nat)
  | circuitSpanBegin (ep : Nat)
  | circuitOpen (ep : Nat)
  | circuitClose (ep : Nat)
  | spineSlotMessage (ep : Nat)
  | redxResult (ep : Nat)
  | coalesceTimerExpiry (src : Nat)
  | irqClaim (target : Nat)
  | irqDone (st num : Nat)
  | endOfInterrupt (target orig reg num : Nat)
  | irqSet (st mask : Nat)
  | sharedIrqSet (ctrl mask : Nat)
  | faultEntry (cls loc : Nat) (present : Bool)
  | quietTimerExpiry
  | escalation (loc : Nat) (part : FailedPart)
  | bondSteerSwitch
  | stotToggle
  | injFatal
  | injCorr (src : Nat)
  | injUncorr (src : Nat)
  | stickyClearWrite (grp mask : Nat)
  | drainEnd (ctx : Nat)
  | drainForcedEnd (ctx : Nat)
  | removalEnd (ctx : Nat)
  | quarantineEnd (ctx : Nat)
  | heartbeat
  | heartbeatTimeout
  | engineWatchdogBite (cls index : Nat)
  | replaySearchStart
  | replayWindowExpiry
  | blockStart
  | targetStep
  | govMonitor (d : Draws)
  | packageReadRequest (addr : Nat)
  | stationReadRequest (st addr dq : Nat)
  | counterSweep
  | traceStop (buf : Nat)
  | ecfgWrite (addr val : Nat) (who : Who)
  | ticketWeightWrite (addr val : Nat) (who : Who)
  | laneMapWrite (ep val : Nat) (who : Who)
  | poolTableValidate (st entry : Nat) (who : Who)
  | pkgNumWrite (val : Nat) (who : Who)
  | khrdTimeLoRead (who : Who)
  | counterLowWordRead (addr : Nat) (who : Who)
  | rcFieldRead (addr : Nat) (who : Who)
  | registerWrite (addr val : Nat) (who : Who)
  | writePortAccept (st : Nat)
  | descriptorTimeLimit (st entry : Nat)
  | siteProofEnd (site : Nat) (ok : Bool)
  | unbindingEnd (ctx : Nat)
  | edgeLaneTrialEnd (ep : Nat) (ok : Bool)
  | epDepthSample
  deriving DecidableEq, Repr

end Sys2Proof
end

