-- ==== Sys2Proof/WellFormed.lean ====
section
/-! DEFINITION. Which commands are well formed: every operand names something the package can have, and what comes from
outside has the size its interface gives. A command that is not well formed finds nothing under its operands. -/

namespace Sys2Proof

/-- A physical station (R51), a router, a memory port, an edge port, the FMP or the host. -/
def unitOk (u : Nat) : Bool :=
  u < 0x356 || (0x1000 ≤ u && u < 0x1000 + 2244) || (0x2000 ≤ u && u ≤ 0x2081)

/-- A core that accesses is one of a station, for a context (R5). -/
def whoOk (w : Who) : Bool :=
  match w with
  | .core st ctx => st < 2244 && ctx < 4096
  | _ => true

/-- A packet of the host has a VC of R128, a length that fits its data, and an extension of 32 B or none (R131). -/
def packetOk (p : Packet) : Bool :=
  p.vc < 10 && p.op < 256 && p.dst < 4096 && p.ctx < 4096 && p.data.length == p.len && p.len < 2 ^ 14
    && (p.ext.length == 0 || p.ext.length == 32) && p.addr < 2 ^ 64

/-- A failing part is one that the package can have. -/
def partOk (p : FailedPart) : Bool :=
  match p with
  | .bondLane bond dir grp lane => bond < 528 && dir < 2 && grp < 64 && lane < 64
  | .bondPort bond => bond < 528
  | .edgeLane ep => ep < 64
  | .plateRow unit port row _ => unit < 7 * 65536 && port < 64 && row < 256
  | .station n => n < 2244
  | .router u => u < 0x300
  | .baseLink tine port => tine < 32 && 17 ≤ port && port < 41
  | .whole => true

/-- A request on the core port (R286). -/
def reqOk (r : CoreReq) : Bool := r.tag < 256 && r.ctx < 4096 && r.addr < 2 ^ 64 && r.len ≤ 4096

/-- A failure that proof finds names a step of R443, a location of groups 0 to 11 and a part. -/
def recOk (r : ProofRec) : Bool :=
  1 ≤ r.step && r.step ≤ 7 && r.loc < 384 && r.detail < 2 ^ 32 && r.stamp < 2 ^ 64 && partOk r.part

/-- A damaged symbol is one of a codeword's (R377). -/
def errOk (e : Err) : Bool := e.word < 2 && e.sym < 70

/-- Damage of a slot is at an input lane of a port, in its tag lane or its payload. -/
def laneErrOk (l : LaneErr) : Bool := unitOk l.unit && l.port < 64 && l.lane < 16 && l.errs.all errOk

/-- Damage of a plate row is at a row of an output port of a unit of the plate, or at a combine entry. -/
def rowErrOk (r : RowErr) : Bool := r.unit < 7 * 65536 && r.port < 64 && r.row < 256 && r.errs.all errOk

/-- A table entry is one of the tables of R380. -/
def tblOk (t : TblEntry) : Bool :=
  match t with
  | .route bank unit dst => bank < 2 && unitOk unit && dst < 4096
  | .root bank unit herd => bank < 2 && unitOk unit && herd < 4096
  | .herd bank unit herd => bank < 2 && unit < 0x356 && herd < 4096
  | .window unit n => unitOk unit && n < 32
  | .group n => n < 1024
  | .pool st n => st < 2244 && n < 64
  | .ring st n => st < 2244 && n < 256

/-- What the lanes of an edge port bring of a block: on each of five lanes, in each fc, ten symbols of 10 bits or none. -/
def rxOk (rx : List (List (List Nat))) : Bool :=
  rx.length ≤ 2048 && rx.all (fun fc => fc.length ≤ 5
    && fc.all (fun l => (l.length == 0 || l.length == 10) && l.all (fun x => x < 1024)))

/-- The operands of a command are well formed. -/
def commandOk (i : Instr) : Bool :=
  match i with
  | .porstNAssert => true
  | .porstNRelease => true
  | .pwrgdInFall => true
  | .hrstNAssert lowFc => lowFc < 2 ^ 32
  | .hrstNRelease => true
  | .fabricClockLock => true
  | .pdGoodRise site => site < 66
  | .pdGoodTimeout site => site < 66
  | .proofEnd recs ptime => recs.all recOk && ptime < 2 ^ 32
  | .sleepRequest site => site < 66
  | .sleepSave site => site < 66
  | .wakeRequest site => site < 66
  | .bondRetrainEnd site => site < 66
  | .trstNAssert => true
  | .kdbgUpdate dr => dr < 2 ^ 72
  | .ctailWrite q val who => q < 4 && val < 2 ^ 32 && whoOk who
  | .commandFetch q => q < 4
  | .hostPacket p => packetOk p
  | .identify q slot => q < 4 && slot < 128
  | .proofReport q slot => q < 4 && slot < 128
  | .patchLoad q slot => q < 4 && slot < 128
  | .herdLockEdge q slot => q < 4 && slot < 128
  | .herdLockFreeRun q slot => q < 4 && slot < 128
  | .herdStatus q slot => q < 4 && slot < 128
  | .plateLoad q slot => q < 4 && slot < 128
  | .plateLoadAcked q slot => q < 4 && slot < 128
  | .plateLoadTimeout q slot => q < 4 && slot < 128
  | .plateArm q slot => q < 4 && slot < 128
  | .plateAbort q slot => q < 4 && slot < 128
  | .pauseSet q slot => q < 4 && slot < 128
  | .routeWrite q slot => q < 4 && slot < 128
  | .routeCommit q slot => q < 4 && slot < 128
  | .ctxCreate q slot => q < 4 && slot < 128
  | .ctxFence q slot => q < 4 && slot < 128
  | .ctxReset q slot => q < 4 && slot < 128
  | .ctxDestroy q slot => q < 4 && slot < 128
  | .stationFenceCtx q slot => q < 4 && slot < 128
  | .stationFenceAll q slot => q < 4 && slot < 128
  | .stationUnfenceCtx q slot => q < 4 && slot < 128
  | .stationUnfenceAll q slot => q < 4 && slot < 128
  | .spareMapCore q slot => q < 4 && slot < 128
  | .spareMapDie q slot => q < 4 && slot < 128
  | .spareMapBeam q slot => q < 4 && slot < 128
  | .funcReinitF1 q slot => q < 4 && slot < 128
  | .funcReinitF2 q slot => q < 4 && slot < 128
  | .funcReinitF3 q slot => q < 4 && slot < 128
  | .funcReinitF4 q slot => q < 4 && slot < 128
  | .funcReinitF5 q slot => q < 4 && slot < 128
  | .funcReinitF6 q slot => q < 4 && slot < 128
  | .blockReset q slot => q < 4 && slot < 128
  | .counterRead q slot => q < 4 && slot < 128
  | .histoRead q slot => q < 4 && slot < 128
  | .traceArm q slot => q < 4 && slot < 128
  | .faultRead q slot => q < 4 && slot < 128
  | .faultClear q slot => q < 4 && slot < 128
  | .circuitTable q slot => q < 4 && slot < 128
  | .groupDefine q slot => q < 4 && slot < 128
  | .herdDefine q slot => q < 4 && slot < 128
  | .timingWordReceive ep => ep < 64
  | .lossWindowExpiry => true
  | .acquireTimeout => true
  | .refPortChange => true
  | .decisionFc _ => true
  | .periodBoundary => true
  | .laneDrainEnd => true
  | .slot lanes rows tables => lanes.all laneErrOk && rows.all rowErrOk && tables.all tblOk
  | .streamTimeLimit st stream => st < 2244 && stream < 256
  | .arbiterDraw unit port net errs => unitOk unit && port < 64 && net < 4 && errs.all errOk
  | .quotaWindowStart unit port net => unitOk unit && port < 64 && net < 4
  | .watchdogBite unit port net vc => unitOk unit && port < 64 && net < 4 && vc < 10
  | .packetRoute router port vc errs => router < 0x356 && port < 64 && vc < 10 && errs.all errOk
  | .herdRoute router port vc => router < 0x356 && port < 64 && vc < 10
  | .creditWordReceive unit port cvc cnt errs => unitOk unit && port < 64 && cvc < 16 && cnt < 16 && errs.all errOk
  | .commitEffect => true
  | .generationSweepEnd => true
  | .drainLate => true
  | .staleGenAnswer unit => unitOk unit
  | .staleHoldTimeout unit tag => unitOk unit && tag < 65536
  | .cmpReceive unit => unitOk unit
  | .folio unit port => unitOk unit && port < 64
  | .descriptorFetch st => st < 2244
  | .streamDescriptor st entry => st < 2244 && entry < 512
  | .sendDescriptor st entry => st < 2244 && entry < 512
  | .readDescriptor st entry => st < 2244 && entry < 512
  | .writeDescriptor st entry => st < 2244 && entry < 512
  | .fenceDescriptor st entry => st < 2244 && entry < 512
  | .bagDescriptor st entry => st < 2244 && entry < 512
  | .collDescriptor st entry => st < 2244 && entry < 512
  | .countDescriptor st entry => st < 2244 && entry < 512
  | .nopDescriptor st entry => st < 2244 && entry < 512
  | .bagSlotAllocate st entry => st < 2244 && entry < 512
  | .directSend st chan addr blen ctx _ => st < 2244 && chan < 256 && addr < 2 ^ 32 && blen < 8192 && ctx < 4096
  | .sendUnblock st => st < 2244
  | .sendWithdraw st => st < 2244
  | .sendStallTimeout st chan => st < 2244 && chan < 256
  | .messageReceive st => st < 2244
  | .inMemMessageWritten st ring => st < 2244 && ring < 256
  | .inMemPopData st ring => st < 2244 && ring < 256
  | .creditReceive st => st < 2244
  | .cresyncReceive st => st < 2244
  | .ringPop st ring npop who => st < 2244 && ring < 256 && npop < 2 ^ 32 && whoOk who
  | .creditReturnTimer st ring slot => st < 2244 && ring < 256 && slot < 16
  | .ringEnable st ring who => st < 2244 && ring < 256 && whoOk who
  | .ringDisable st ring who => st < 2244 && ring < 256 && whoOk who
  | .channelEnable st chan who => st < 2244 && chan < 256 && whoOk who
  | .channelDisable st chan who => st < 2244 && chan < 256 && whoOk who
  | .dispatchOffer st => st < 2244
  | .dispatchTake st => st < 2244
  | .coreMemoryRequest st r => st < 2244 && reqOk r
  | .coreFence st tag scope ctx => st < 2244 && tag < 256 && scope < 2 && ctx < 4096
  | .requestTimeout st tag => st < 2244 && tag < 256
  | .read unit => unitOk unit
  | .write unit => unitOk unit
  | .cwrite unit => unitOk unit
  | .atomic unit => unitOk unit
  | .rdS port => port < 64
  | .rdE port => port < 64
  | .upgrade port => port < 64
  | .wb port => port < 64
  | .evict port => port < 64
  | .snpInv st => st < 2244
  | .snpDown st => st < 2244
  | .snpFlush st => st < 2244
  | .coreSnoopAnswer st id state _ data => st < 2244 && id < 64 && state < 4 && (data.length == 0 || data.length == 64)
  | .sack port => port < 64
  | .sdata port => port < 64
  | .snoopTimeout slice key => slice < 32 && key / 131072 == slice
  | .rdata unit => unitOk unit
  | .ldata st => st < 2244
  | .adata st => st < 2244
  | .wcnt unit => unitOk unit
  | .wcntTimer unit src => unitOk unit && src < 4096
  | .ccinc st => st < 2244
  | .memoryReadResponse port tag unc => port < 64 && tag < 1024 && unc < 16
  | .memoryWriteAck port tag => port < 64 && tag < 1024
  | .directoryWalkEnd slice => slice < 32
  | .reduce tine => tine < 32
  | .barrier tine => tine < 32
  | .count tine => tine < 32
  | .lingerExpiry tine key => tine < 32 && key / 512 == tine
  | .result st => st < 2244
  | .earlySlotExpiry st slot => st < 2244 && slot < 32
  | .collTimeLimit st entry => st < 2244 && entry < 512
  | .poolRead port => port < 64
  | .poolPart region => region < 132
  | .poolLingerExpiry unit key => unitOk unit && key < 512
  | .poolPartFold st => st < 2244
  | .bagTimeLimit st slot => st < 2244 && slot < 64
  | .mergeRow tine => tine < 32
  | .mergeWindowExpiry tine key => tine < 32 && key < 512
  | .mergeAnswer tine => tine < 32
  | .nearMemoryAccumulate port => port < 64
  | .laneLockGain ep lane => ep < 64 && lane < 6
  | .laneLockLoss ep lane => ep < 64 && lane < 6
  | .oeReadyChange ep _ => ep < 64
  | .blockHeaderReceive ep rx => ep < 64 && rxOk rx
  | .frameBoundary ep => ep < 64
  | .dataFrame ep => ep < 64
  | .edgePacketSend ep => ep < 64
  | .edgePacketReceive ep => ep < 64
  | .ackPacket ep => ep < 64
  | .ackTimer ep peer => ep < 64 && peer < 2 ^ 17
  | .rtoExpiry ep peer psn => ep < 64 && peer < 2 ^ 17 && psn < 2 ^ 24
  | .proxyAnswer ep => ep < 64
  | .proxyExpiry ep proxy => ep < 64 && proxy < 16384
  | .pathSuspendEnd ep path => ep < 64 && path < 64
  | .shapingRelease ep => ep < 64
  | .circFrame ep => ep < 64
  | .circuitSpanBegin ep => ep < 64
  | .circuitOpen ep => ep < 64
  | .circuitClose ep => ep < 64
  | .spineSlotMessage ep => ep < 64
  | .redxResult ep => ep < 64
  | .coalesceTimerExpiry src => src < 2 ^ 18
  | .irqClaim target => (target < 2244 || target == 5000 || target == 5001)
  | .irqDone st num => st < 2244 && num < 32
  | .endOfInterrupt target orig reg num => (target < 2244 || target == 5000 || target == 5001) && orig < 4 && reg < 256 && num < 128
  | .irqSet st mask => st < 2244 && mask < 2 ^ 32
  | .sharedIrqSet ctrl mask => ctrl < 133 && mask < 2 ^ 32
  | .faultEntry cls loc _ => cls < 32 && loc < 384
  | .quietTimerExpiry => true
  | .escalation loc part => loc < 384 && partOk part
  | .bondSteerSwitch => true
  | .stotToggle => true
  | .injFatal => true
  | .injCorr src => src < 384
  | .injUncorr src => src < 384
  | .stickyClearWrite grp mask => grp < 32 && mask < 2 ^ 32
  | .drainEnd ctx => ctx < 4096
  | .drainForcedEnd ctx => ctx < 4096
  | .removalEnd ctx => ctx < 4096
  | .quarantineEnd ctx => ctx < 4096
  | .heartbeat => true
  | .heartbeatTimeout => true
  | .engineWatchdogBite cls index => cls < 9 && index < 4096
  | .replaySearchStart => true
  | .replayWindowExpiry => true
  | .blockStart => true
  | .targetStep => true
  | .govMonitor _ => true
  | .packageReadRequest addr => addr < 2 ^ 26
  | .stationReadRequest st addr dq => st < 2244 && addr < 2 ^ 26 && dq < 8
  | .counterSweep => true
  | .traceStop buf => buf < 16
  | .ecfgWrite addr val who => addr < 2 ^ 26 && val < 2 ^ 32 && whoOk who
  | .ticketWeightWrite addr val who => addr < 2 ^ 26 && val < 2 ^ 32 && whoOk who
  | .laneMapWrite ep val who => ep < 64 && val < 2 ^ 32 && whoOk who
  | .poolTableValidate st entry who => st < 2244 && entry < 64 && whoOk who
  | .pkgNumWrite val who => val < 2 ^ 32 && whoOk who
  | .khrdTimeLoRead who => whoOk who
  | .counterLowWordRead addr who => addr < 2 ^ 26 && whoOk who
  | .rcFieldRead addr who => addr < 2 ^ 26 && whoOk who
  | .registerWrite addr val who => addr < 2 ^ 26 && val < 2 ^ 32 && whoOk who
  | .writePortAccept st => st < 2244
  | .descriptorTimeLimit st entry => st < 2244 && entry < 512
  | .siteProofEnd site _ => site < 66
  | .unbindingEnd ctx => ctx < 4096
  | .edgeLaneTrialEnd ep _ => ep < 64
  | .epDepthSample => true

end Sys2Proof
end

