-- ==== Sys2Proof/Config.lean ====
section
/-! DEFINITION. What one package or one implementation fixes and the spec leaves open: the free values. Nothing in
Lean can evaluate them, so whatever is proved holds for every choice. -/

namespace Sys2Proof

/-- Whether a low level of HRST_N that is longer than the ignored width and shorter than the sampled width is taken
as a reset (R441 leaves it open). The argument is the counter of free values used so far. -/
opaque Config.shortPulseTaken : Nat → Bool

/-- Which of the legal routes of R41 Miomus writes into generation 0 for a pair of endpoints (R442 says only that
there is one): the argument is the pair, the value is taken modulo the number of legal routes. -/
opaque Config.genZeroPick : Nat → Nat → Nat

/-- Byte `j` of an MX result block whose value the spec does not state: the elements of a block that R216 gives scale
0xFF, and the whole block (byte 32 its scale) when a result is an infinity, or no number, and no input is a NaN. The arguments
are the operation, the inputs and the byte. -/
opaque Config.mxOpen : Nat → List (List Byte) → Nat → Byte

/-- A word of a region of unit configuration space whose layout the spec does not give, before anything was written to
it by folio (R455): unit, region, word. -/
opaque Config.rawWord : Nat → Nat → Nat → BitVec 32

/-- What becomes of a codeword with 5 or more symbols in error, of which the code promises nothing (R379): 0 modulo 3 it is
marked uncorrectable, 1 it is corrected to other bytes, 2 it passes as another codeword. The argument is the counter of
free values used so far. -/
opaque Config.codeOutcome : Nat → Nat

/-- Byte `j` of what a receiver takes such a codeword for, and of bytes that a packet cut short never brought (R140): the
first argument is the counter of free values. -/
opaque Config.codeByte : Nat → Nat → Byte

/-- `input_room` of a pool unit (R253), which the spec names and does not define: whether the input of unit `u` has room for
an item while `n` others wait there (log). With none waiting it has. -/
opaque Config.poolRoom : Nat → Nat → Bool

end Sys2Proof
end

