-- ==== Sys2Proof/Machine/Arith.lean ====
section
/-! DEFINITION. The adders' arithmetic (R211 to R216, R222, R254): types, exact sums rounded once, comparisons. -/

namespace Sys2Proof.Machine

/-- A floating-point format: exponent and mantissa bits, and whether it is E4M3, which has no infinity and one NaN. -/
structure Fmt where
  eb : Nat
  mb : Nat
  e4m3 : Bool := false
  deriving DecidableEq, Repr

def fp32 : Fmt := { eb := 8, mb := 23 }
def bf16 : Fmt := { eb := 8, mb := 7 }
def fp16 : Fmt := { eb := 5, mb := 10 }
def e4m3 : Fmt := { eb := 4, mb := 3, e4m3 := true }
def e5m2 : Fmt := { eb := 5, mb := 2 }

/-- The format of a floating-point `dtype` (R211), for MX the element's. -/
def fmtOf (t : Nat) : Fmt :=
  match t with
  | 1 => fp32 | 2 => bf16 | 3 => fp16 | 4 => e4m3 | 5 => e5m2 | 0x10 => e4m3 | 0x11 => e5m2 | _ => fp32

def isFp (t : Nat) : Bool := 1 ≤ t && t ≤ 5
def isMx (t : Nat) : Bool := 0x10 ≤ t && t ≤ 0x12
def dtypeOk (t : Nat) : Bool := isFp t || isMx t || t == 8 || t == 9

/-- Bytes of one element, and elements in a cell (R211). -/
def elemB (t : Nat) : Nat := match t with | 1 => 4 | 8 => 4 | 2 => 2 | 3 => 2 | _ => 1
def epc (t : Nat) : Nat := match t with | 1 => 16 | 8 => 16 | 4 => 64 | 5 => 64 | _ => 32

/-- The operations of R211 that a type has: 0 SUM, 1 MAX, 2 MIN, 3 AND, 4 OR, 5 XOR. -/
def okType (t op : Nat) (widen : Bool) : Bool :=
  dtypeOk t && op ≤ 5 &&
  (if widen then op == 0 && (t == 4 || t == 5 || t == 9)
   else match op with
    | 0 => t != 9
    | 1 => true
    | 2 => true
    | _ => t == 8 || t == 9)

/-- The type of a combine's result (R211). -/
def outType (t : Nat) (widen : Bool) : Nat := if widen then (if t = 9 then 8 else 2) else t

/-- The exponent of a format's least subnormal. -/
def Fmt.unit (f : Fmt) : Int := 2 - (2 : Int) ^ (f.eb - 1) - f.mb

/-- A decoded element: NaN, infinity, or sign and magnitude in units of the format's least subnormal. -/
inductive FV where
  | nan
  | inf (neg : Bool)
  | fin (neg : Bool) (n : Nat)
  deriving DecidableEq, Repr

/-- Largest finite encoding, without sign, and the quiet NaN (R214). -/
def Fmt.maxEnc (f : Fmt) : Nat := if f.e4m3 then 0x7E else (2 ^ f.eb - 1) * 2 ^ f.mb - 1
def Fmt.qnan (f : Fmt) : Nat :=
  if f.e4m3 then 0x7F else (2 ^ f.eb - 1) * 2 ^ f.mb + 2 ^ (f.mb - 1)

/-- Decode an element. -/
def Fmt.dec (f : Fmt) (b : Nat) : FV :=
  let neg := bit b (f.eb + f.mb)
  let m := b % 2 ^ f.mb
  let e := bits b f.mb f.eb
  let abs := b % 2 ^ (f.eb + f.mb)
  if f.maxEnc < abs then (if f.e4m3 ∨ m ≠ 0 then .nan else .inf neg)
  else if e = 0 then .fin neg m
  else .fin neg ((2 ^ f.mb + m) * 2 ^ (e - 1))

/-- Round `n` / 2^`k` to the nearest integer, ties to even. -/
def rne (n k : Nat) : Nat :=
  let q := n / 2 ^ k
  let r := n % 2 ^ k
  if 2 ^ k < 2 * r ∨ (2 * r = 2 ^ k ∧ q % 2 = 1) then q + 1 else q

/-- The encoding of ± `n` × 2^`e` in a format (R214): rounded once to nearest even, subnormals kept, overflow to an
infinity, in E4M3 to the largest value. -/
def Fmt.enc (f : Fmt) (neg : Bool) (n : Nat) (e : Int) : Nat :=
  let s := if neg then 2 ^ (f.eb + f.mb) else 0
  if n = 0 then s else
  let top : Int := Nat.log2 n + e
  let q : Int := max (top - f.mb) f.unit
  let k := if q ≤ e then n * 2 ^ (e - q).toNat else rne n (q - e).toNat
  let b := (q - f.unit).toNat * 2 ^ f.mb + k
  if f.maxEnc < b then s + (if f.e4m3 then f.maxEnc else f.maxEnc + 1) else s + b

/-- Signed magnitude. -/
def sgn (neg : Bool) (n : Nat) : Int := if neg then - (n : Int) else n

/-- The exact sum of decoded values, in the same unit: NaN, infinity, or a signed magnitude; a zero sum is −0 only when
every value is −0 (R214). -/
def fvSum (l : List FV) : FV :=
  if l.any (fun v => v == .nan) then .nan
  else if l.contains (.inf true) ∧ l.contains (.inf false) then .nan
  else if l.contains (.inf true) then .inf true
  else if l.contains (.inf false) then .inf false
  else
    let t := l.foldl (fun a v => match v with | .fin s n => a + sgn s n | _ => a) (0 : Int)
    if t = 0 then .fin (l.all (fun v => v == .fin true 0)) 0 else .fin (decide (t < 0)) t.natAbs

/-- `a` orders below `b` (R214: −0 below +0). NaN does not occur. -/
def fvLt (a b : FV) : Bool :=
  match a, b with
  | .inf s, .inf t => s && !t
  | .inf s, .fin _ _ => s
  | .fin _ _, .inf t => !t
  | .fin s n, .fin t m => if s == t then (if s then m < n else n < m) else s
  | _, _ => false

/-- MAX (op 1) or MIN (op 2) of decoded values. -/
def fvPick (op : Nat) (l : List FV) : FV :=
  if l.any (fun v => v == .nan) then .nan
  else match l with
    | [] => .nan
    | x :: xs => xs.foldl (fun a v => if op = 1 then (if fvLt a v then v else a) else (if fvLt v a then v else a)) x

/-- Encode a value given in units of 2^`u`. -/
def Fmt.encV (f : Fmt) (u : Int) (v : FV) : Nat :=
  match v with
  | .nan => f.qnan
  | .inf s => (if s then 2 ^ (f.eb + f.mb) else 0) + (if f.e4m3 then f.maxEnc else f.maxEnc + 1)
  | .fin s n => f.enc s n u

/-- One floating-point element of a combine. -/
def fpElem (op : Nat) (fi fo : Fmt) (l : List Nat) : Nat :=
  let vs := l.map fi.dec
  fo.encV fi.unit (if op = 0 then fvSum vs else fvPick op vs)

/-- Two's complement value of `w` bits. -/
def toS (w v : Nat) : Int := if bit v (w - 1) then (v : Int) - 2 ^ w else v
/-- Wrap to `w` bits. -/
def ofS (w : Nat) (v : Int) : Nat := (v % (2 ^ w : Int)).toNat

/-- One integer element of a combine, `w` bits in and `o` bits out (R215). -/
def intElem (op w o : Nat) (l : List Nat) : Nat :=
  match l with
  | [] => 0
  | x :: xs =>
    match op with
    | 0 => ofS o (l.foldl (fun a v => a + toS w v) 0)
    | 1 => ofS o (xs.foldl (fun a v => max a (toS w v)) (toS w x))
    | 2 => ofS o (xs.foldl (fun a v => min a (toS w v)) (toS w x))
    | 3 => xs.foldl (fun a v => a &&& v) x
    | 4 => xs.foldl (fun a v => a ||| v) x
    | _ => xs.foldl (fun a v => a ^^^ v) x

/-! ### MX blocks (R216) -/

/-- Exponent of one unit of an element, less the scale's 127. -/
def mxUnit (t : Nat) : Int := if t = 0x12 then -6 else (fmtOf t).unit

/-- Decode element `b` under scale byte `s`, in units of 2^(`mxUnit` − 127). -/
def mxDec (t s b : Nat) : FV :=
  if t = 0x12 then
    let v := toS 8 b
    .fin (decide (v < 0)) (v.natAbs * 2 ^ s)
  else match (fmtOf t).dec b with
    | .fin n m => .fin n (m * 2 ^ s)
    | v => v

/-- Encode a value of units 2^(`mxUnit` − 127) as an element under scale exponent `x`: rounded, saturated to the
largest finite element. -/
def mxEnc (t : Nat) (x : Int) (v : FV) : Nat :=
  match v with
  | .fin s n =>
    let e : Int := mxUnit t - 127 - x
    if t = 0x12 then
      let q : Int := -6
      let k := if q ≤ e then n * 2 ^ (e - q).toNat else rne n (q - e).toNat
      ofS 8 (sgn s (min 127 k))
    else
      let f := fmtOf t
      let b := f.enc s n e
      let a := b % 2 ^ (f.eb + f.mb)
      (b - a) + min f.maxEnc a
  | _ => 0

/-- An MX combine of cells (R216): 32 elements and the scale. -/
def mxCombine (t op : Nat) (ins : List (List Byte)) : List Byte :=
  let openB := (List.range 32).map (Config.mxOpen op ins)
  let scale (c : List Byte) : Nat := le c 32 1
  let cols := (List.range 32).map (fun j => ins.map (fun c => mxDec t (scale c) (le c j 1)))
  if ins.any (fun c => scale c == 255) || cols.any (fun l => l.any (fun v => v == .nan)) then
    openB ++ [255] ++ List.replicate 31 0
  else
    let res := cols.map (fun l => if op = 0 then fvSum l else fvPick op l)
    if res.any (fun v => match v with
        | .fin _ _ => false
        | _ => true) then
      openB ++ [Config.mxOpen op ins 32] ++ List.replicate 31 0
    else
      let big := res.foldl (fun m v => match v with | .fin _ n => max m n | _ => m) 0
      let e : Int := match t with | 0x10 => 8 | 0x11 => 15 | _ => 0
      let x : Int := if big = 0 then -127 else max (-127) (min 127 (Nat.log2 big + mxUnit t - 127 - e))
      res.map (fun v => BitVec.ofNat 8 (mxEnc t x v)) ++ [BitVec.ofNat 8 (x + 127).toNat] ++ List.replicate 31 0

/-! ### Cells, payloads and rows -/

/-- Elements of `b` bytes each. -/
def elems (b n : Nat) (c : List Byte) : List Nat := (List.range n).map (fun i => le c (b * i) b)

/-- Combine cells element by element (R213 to R216): one cell, or two for a widening combine. -/
def combineCells (t op : Nat) (widen : Bool) (ins : List (List Byte)) : List (List Byte) :=
  if isMx t then [mxCombine t op ins] else
  let n := epc t
  let b := elemB t
  let o := outType t widen
  let cols := (List.range n).map (fun i => ins.map (fun c => le c (b * i) b))
  let out := cols.map (fun l => if isFp t then fpElem op (fmtOf t) (fmtOf o) l else intElem op (8 * b) (8 * elemB o) l)
  let bytes := out.flatMap (toLE (elemB o))
  if widen then [fit 64 (bytes.take 64), fit 64 (bytes.drop 64)] else [fit 64 bytes]

/-- Cut bytes into cells of 64 B. -/
def cells64 : Nat → List Byte → List (List Byte)
  | 0, _ => []
  | n + 1, l => if l = [] then [] else fit 64 (l.take 64) :: cells64 n (l.drop 64)

/-- Combine two payloads cell by cell (R231, R233). -/
def combinePay (t op : Nat) (a b : List Byte) : List Byte :=
  (List.zip (cells64 (a.length + 1) a) (cells64 (b.length + 1) b)).flatMap (fun p => (combineCells t op false [p.1, p.2]).flatten)

/-- Widen a contribution (R213): every cell becomes two. -/
def widenPay (t : Nat) (a : List Byte) : List Byte :=
  (cells64 (a.length + 1) a).flatMap (fun c => (combineCells t 0 true [c]).flatten)

/-- Combine rows of plain elements in a floating-point type: SUM (0) or MAX (1) (R254, R262, R266). -/
def combineRow (t op : Nat) (a b : List Byte) : List Byte :=
  let w := elemB t
  let n := min a.length b.length / w
  (List.zip (elems w n a) (elems w n b)).flatMap (fun p => toLE w (fpElem op (fmtOf t) (fmtOf t) [p.1, p.2]))

/-- Convert plain elements from one floating-point type to another. -/
def convRow (t o : Nat) (a : List Byte) : List Byte :=
  (elems (elemB t) (a.length / elemB t) a).flatMap (fun v => toLE (elemB o) (fpElem 0 (fmtOf t) (fmtOf o) [v]))

/-- Product of an element and an FP32 weight, rounded to FP32 (R254). -/
def mulFp32 (t v wt : Nat) : Nat :=
  match (fmtOf t).dec v, fp32.dec wt with
  | .fin s n, .fin r m => fp32.enc (s != r) (n * m) ((fmtOf t).unit + fp32.unit)
  | .nan, _ => fp32.qnan
  | _, .nan => fp32.qnan
  | .inf s, .fin r m => if m = 0 then fp32.qnan else fp32.encV 0 (.inf (s != r))
  | .fin s n, .inf r => if n = 0 then fp32.qnan else fp32.encV 0 (.inf (s != r))
  | .inf s, .inf r => fp32.encV 0 (.inf (s != r))

/-- Weigh and convert a row (R254): the product of each element and the weight in FP32, then the output type. -/
def weighRow (t o wt : Nat) (a : List Byte) : List Byte :=
  (elems (elemB t) (a.length / elemB t) a).flatMap (fun v =>
    toLE (elemB o) (fpElem 0 fp32 (fmtOf o) [mulFp32 t v wt]))

/-- The FP32 value nearest to 1 / `n` (R248). -/
def recip32 (n : Nat) : Nat :=
  -- enough quotient bits that rounding the quotient with a sticky bit rounds 1 / n
  let q := 2 ^ 64 / n
  let sticky := if 2 ^ 64 % n = 0 then 0 else 1
  fp32.enc false (2 * q + sticky) (-65)

/-! ### Signatures (R222) -/

def sigMARK : Nat := 0xFFFFFFFFFFFFFFFF

/-- The signature of a contribution (R222). -/
def signature (op dtype widen ctx gkey elems seq : Nat) : Nat :=
  let w0 := op ||| (dtype * 2 ^ 8) ||| (widen * 2 ^ 16) ||| (ctx * 2 ^ 20) ||| (gkey * 2 ^ 32)
  let w1 := elems ||| (seq * 2 ^ 32)
  let h := [w0, w1].foldl (fun h w =>
    let h := ((h ^^^ w) * 0x9E3779B97F4A7C15) % 2 ^ 64
    h ^^^ (h / 2 ^ 29)) 0x6A09E667F3BCC908
  let h := (h * 0xBF58476D1CE4E5B9) % 2 ^ 64
  let h := h ^^^ (h / 2 ^ 32)
  if h = 0 ∨ h = sigMARK then h ^^^ 1 else h

end Sys2Proof.Machine
end

