-- ==== Sys2Proof/Machine/Tbl.lean ====
section
/-! DEFINITION. Sparse tables keyed by a number: the one container of the model's state. A table is a list of
(key, value) pairs with strictly rising keys, so that equal tables are equal lists (`Tbl.wf`). -/

namespace Sys2Proof.Machine

/-- A sparse table: (key, value) pairs, keys strictly rising. -/
abbrev Tbl (α : Type) := List (Nat × α)

/-- The value stored under key `k`, if any. -/
def Tbl.find {α : Type} : Tbl α → Nat → Option α
  | [], _ => none
  | (j, v) :: t, k => if j = k then some v else Tbl.find t k

/-- Store `v` under key `k`. -/
def Tbl.put {α : Type} : Tbl α → Nat → α → Tbl α
  | [], k, v => [(k, v)]
  | (j, w) :: t, k, v =>
    if j = k then (k, v) :: t else if k < j then (k, v) :: (j, w) :: t else (j, w) :: Tbl.put t k v

/-- Remove key `k`. -/
def Tbl.del {α : Type} : Tbl α → Nat → Tbl α
  | [], _ => []
  | (j, w) :: t, k => if j = k then Tbl.del t k else (j, w) :: Tbl.del t k

/-- Read key `k` of a table whose unlisted keys read as `d`. -/
def Tbl.get {α : Type} (d : α) (t : Tbl α) (k : Nat) : α := (t.find k).getD d

/-- Write key `k` of a table whose unlisted keys read as `d`: a key that would read as `d` is not listed. -/
def Tbl.set {α : Type} [DecidableEq α] (d : α) (t : Tbl α) (k : Nat) (v : α) : Tbl α :=
  if v = d then t.del k else t.put k v

/-- Change the entry of key `k`, if there is one. -/
def Tbl.modify {α : Type} (t : Tbl α) (k : Nat) (f : α → α) : Tbl α :=
  match t.find k with
  | some v => t.put k (f v)
  | none => t

/-- The first pair whose value satisfies `p`. -/
def Tbl.findBy {α : Type} (p : Nat → α → Bool) : Tbl α → Option (Nat × α)
  | [] => none
  | (k, v) :: t => if p k v then some (k, v) else Tbl.findBy p t

/-- The lowest key below `n` that the table does not list, counting up from `k` (fuel `n`). -/
def Tbl.freeFrom {α : Type} (t : Tbl α) : Nat → Nat → Option Nat
  | 0, _ => none
  | n + 1, k => if (t.find k).isNone then some k else Tbl.freeFrom t n (k + 1)

/-- The lowest free key below `n`. -/
def Tbl.free {α : Type} (t : Tbl α) (n : Nat) : Option Nat := Tbl.freeFrom t n 0

/-- Canonical form: keys strictly rising. -/
def Tbl.wf {α : Type} : Tbl α → Bool
  | [] => true
  | (k, _) :: t => t.all (fun p => k < p.1) && Tbl.wf t

/-- Canonical form of a table whose unlisted keys read as `d`: keys rising, no entry equal to `d`. -/
def Tbl.wfd {α : Type} [DecidableEq α] (d : α) (t : Tbl α) : Bool :=
  Tbl.wf t && t.all (fun p => p.2 != d)

end Sys2Proof.Machine
end

