-- ==== Sys2Proof/Machine/Field.lean ====
section
/-! DEFINITION. What a register field is (R10, R15, R17): its place in its register, its access type, its reset
value, and what a write of an out-of-range value does. The fields themselves are in Machine/Fields.lean. -/

namespace Sys2Proof.Machine

/-- Access types of R15. -/
inductive Acc where
  | ro | rw | w1c | wo | rc
  deriving DecidableEq, Repr

/-- What a write of an RW field does with its value: any value is stored; a value outside `lo` to `hi` leaves the
field unchanged; a value above `m` stores `m`. -/
inductive WRule where
  | any
  | keep (lo hi : Nat)
  | clamp (m : Nat)
  deriving DecidableEq, Repr

/-- The selector register that chooses which object a register shows (R126, R176, R207 and the other tables). -/
inductive Sel where
  | none | dq | cq | ch | ring | ringSlot | strm | grp | ptab | win | cc | mwin | path | rate | spn | spnSlot
  | arb | lt | dmap | smap | bond | site | emap | ctx | cap
  deriving DecidableEq, Repr

/-- A register field. `stride` and `count` describe an array of like registers; `guarded` marks the fields that
the tables call "while disabled" or "while invalid". -/
structure Fld where
  off : Nat
  lsb : Nat
  width : Nat
  acc : Acc
  reset : Nat := 0
  rule : WRule := .any
  stride : Nat := 0
  count : Nat := 1
  sel : Sel := .none
  guarded : Bool := false
  deriving DecidableEq, Repr

/-- The value a field holds after reset in entry `i`: its table's value, or, for the edge map and the die map, the
entry's own index (R353, R411). -/
def Fld.dflt (f : Fld) (i : Nat) : Nat :=
  match f.sel with
  | .emap => i
  | .dmap => i
  | _ => f.reset

/-- The key of a field in the register file: its window's base address, its register, entry and lowest bit. -/
def Fld.key (f : Fld) (base i : Nat) : Nat := ((i * 2 ^ 26 + base + f.off) * 32) + f.lsb

end Sys2Proof.Machine
end

