-- ==== Sys2Proof/Machine/Fields.lean ====
section
/-! DEFINITION. The register fields of the block, one definition per field, as the register tables of the spec
give them (offset in the window, bits, access, reset value, and what an out-of-range write does).
Each register's comment names the rule whose table it comes from. A reset value that is a fuse, a port number, the
entry's own index or a seed stands as 0 here and is supplied by `State.rd` (Machine/State.lean). -/

namespace Sys2Proof.Machine

/-! `KGBL_IDENT` (R1) -/
def KGBL_IDENT.major : Fld := { off := 0x000, lsb := 16, width := 16, acc := .ro, reset := 0x3 }
def KGBL_IDENT.minor : Fld := { off := 0x000, lsb := 0, width := 16, acc := .ro, reset := 0x2 }

/-! `KGBL_TOPO0` (R54) -/
def KGBL_TOPO0.cd_sites : Fld := { off := 0x010, lsb := 0, width := 7, acc := .ro, reset := 0x42 }
def KGBL_TOPO0.cd_active : Fld := { off := 0x010, lsb := 8, width := 7, acc := .ro, reset := 0x40 }
def KGBL_TOPO0.slices : Fld := { off := 0x010, lsb := 16, width := 6, acc := .ro, reset := 0x20 }
def KGBL_TOPO0.edge_ports : Fld := { off := 0x010, lsb := 24, width := 7, acc := .ro, reset := 0x40 }

/-! `KGBL_TOPO1` (R54) -/
def KGBL_TOPO1.tines : Fld := { off := 0x014, lsb := 0, width := 6, acc := .ro, reset := 0x20 }
def KGBL_TOPO1.beams : Fld := { off := 0x014, lsb := 8, width := 5, acc := .ro, reset := 0x16 }
def KGBL_TOPO1.beams_active : Fld := { off := 0x014, lsb := 16, width := 5, acc := .ro, reset := 0x14 }
def KGBL_TOPO1.regions_active : Fld := { off := 0x014, lsb := 24, width := 8, acc := .ro, reset := 0x80 }

/-! `KHRD_STATUS` (R102) -/
def KHRD_STATUS.state : Fld := { off := 0x000, lsb := 0, width := 3, acc := .ro }
def KHRD_STATUS.free_run : Fld := { off := 0x000, lsb := 3, width := 1, acc := .ro }
def KHRD_STATUS.ref_port : Fld := { off := 0x000, lsb := 4, width := 6, acc := .ro }
def KHRD_STATUS.step_count : Fld := { off := 0x000, lsb := 16, width := 8, acc := .ro }

/-! `KHRD_TIME_LO` (R102) -/
def KHRD_TIME_LO.time_lo : Fld := { off := 0x008, lsb := 0, width := 32, acc := .ro }

/-! `KHRD_TIME_HI` (R102) -/
def KHRD_TIME_HI.time_hi : Fld := { off := 0x00C, lsb := 0, width := 32, acc := .ro }

/-! `KHRD_OFFSET` (R102) -/
def KHRD_OFFSET.offset : Fld := { off := 0x010, lsb := 0, width := 16, acc := .ro }
def KHRD_OFFSET.words_ok : Fld := { off := 0x010, lsb := 16, width := 16, acc := .ro }

/-! `KHRD_CFG` (R102) -/
def KHRD_CFG.lock_tol : Fld := { off := 0x018, lsb := 0, width := 3, acc := .rw, reset := 0x4, rule := .keep 1 4 }
def KHRD_CFG.loss_win_log2 : Fld := { off := 0x018, lsb := 8, width := 5, acc := .rw, reset := 0x11, rule := .keep 12 20 }
def KHRD_CFG.acq_words : Fld := { off := 0x018, lsb := 16, width := 8, acc := .rw, reset := 0x10, rule := .keep 4 255 }

/-! `KHRD_LOSS_CNT` (R102) -/
def KHRD_LOSS_CNT.loss_count : Fld := { off := 0x01C, lsb := 0, width := 16, acc := .ro }

/-! `KPLT_STATUS` (R102) -/
def KPLT_STATUS.active_valid : Fld := { off := 0x1000, lsb := 0, width := 1, acc := .ro }
def KPLT_STATUS.staged_valid : Fld := { off := 0x1000, lsb := 1, width := 1, acc := .ro }
def KPLT_STATUS.arm_pending : Fld := { off := 0x1000, lsb := 2, width := 1, acc := .ro }
def KPLT_STATUS.halted : Fld := { off := 0x1000, lsb := 3, width := 1, acc := .ro }
def KPLT_STATUS.loading : Fld := { off := 0x1000, lsb := 4, width := 1, acc := .ro }
def KPLT_STATUS.active_plate_id : Fld := { off := 0x1000, lsb := 16, width := 16, acc := .ro }

/-! `KPLT_SLOT` (R102) -/
def KPLT_SLOT.slot_index : Fld := { off := 0x1004, lsb := 0, width := 12, acc := .ro }
def KPLT_SLOT.period_blocks : Fld := { off := 0x1004, lsb := 16, width := 7, acc := .ro }

/-! `KPLT_ARM` (R102) -/
def KPLT_ARM.arm_epoch : Fld := { off := 0x1008, lsb := 0, width := 16, acc := .ro }
def KPLT_ARM.staged_plate_id : Fld := { off := 0x1008, lsb := 16, width := 16, acc := .ro }

/-! `KPLT_PLACE` (R102) -/
def KPLT_PLACE.place_id : Fld := { off := 0x100C, lsb := 0, width := 16, acc := .ro }

/-! `KPLT_PAUSE` (R102) -/
def KPLT_PAUSE.thr_q : Fld := { off := 0x1010, lsb := 0, width := 7, acc := .rw, reset := 0x20, rule := .clamp 64 }
def KPLT_PAUSE.host_q : Fld := { off := 0x1010, lsb := 8, width := 7, acc := .rw, rule := .clamp 64 }
def KPLT_PAUSE.gov_q : Fld := { off := 0x1010, lsb := 16, width := 7, acc := .ro }
def KPLT_PAUSE.throt_sampled : Fld := { off := 0x1010, lsb := 23, width := 1, acc := .ro }
def KPLT_PAUSE.q_now : Fld := { off := 0x1010, lsb := 24, width := 7, acc := .ro }

/-! `KPLT_PAUSE_LAST` (R102) -/
def KPLT_PAUSE_LAST.paused_fc : Fld := { off := 0x1014, lsb := 0, width := 16, acc := .ro }
def KPLT_PAUSE_LAST.slack_now : Fld := { off := 0x1014, lsb := 16, width := 16, acc := .ro }

/-! `KPLT_LANES` (R102) -/
def KPLT_LANES.lane_live : Fld := { off := 0x1018, lsb := 0, width := 16, acc := .ro }
def KPLT_LANES.lane_retired : Fld := { off := 0x1018, lsb := 16, width := 16, acc := .ro }

/-! `KPLT_EVENTS` (R102) -/
def KPLT_EVENTS.slack_exceed : Fld := { off := 0x101C, lsb := 0, width := 16, acc := .rc }
def KPLT_EVENTS.halts : Fld := { off := 0x101C, lsb := 16, width := 16, acc := .rc }

/-! `KSTN_STRM_SEL` (R126) -/
def KSTN_STRM_SEL.sel : Fld := { off := 0x800, lsb := 0, width := 8, acc := .rw }

/-! `KSTN_STRM_STATE` (R126) -/
def KSTN_STRM_STATE.state : Fld := { off := 0x804, lsb := 0, width := 2, acc := .ro, sel := .strm }
def KSTN_STRM_STATE.dir : Fld := { off := 0x804, lsb := 2, width := 1, acc := .ro, sel := .strm }
def KSTN_STRM_STATE.mode : Fld := { off := 0x804, lsb := 3, width := 1, acc := .ro, sel := .strm }
def KSTN_STRM_STATE.last_status : Fld := { off := 0x804, lsb := 8, width := 8, acc := .ro, sel := .strm }
def KSTN_STRM_STATE.stag : Fld := { off := 0x804, lsb := 16, width := 16, acc := .ro, sel := .strm }

/-! `KSTN_STRM_POS` (R126) -/
def KSTN_STRM_POS.ordinal : Fld := { off := 0x808, lsb := 0, width := 21, acc := .ro, sel := .strm }

/-! `KSTN_STRM_AVAIL` (R126) -/
def KSTN_STRM_AVAIL.avail : Fld := { off := 0x80C, lsb := 0, width := 21, acc := .rw, sel := .strm }

/-! `KSTN_STRM_RV_LO` (R126) -/
def KSTN_STRM_RV_LO.rv_lo : Fld := { off := 0x810, lsb := 0, width := 32, acc := .ro, sel := .strm }

/-! `KSTN_STRM_RV_HI` (R126) -/
def KSTN_STRM_RV_HI.rv_hi : Fld := { off := 0x814, lsb := 0, width := 32, acc := .ro, sel := .strm }

/-! `KSTN_STRM_BAD_LO` (R126) -/
def KSTN_STRM_BAD_LO.bad_lo : Fld := { off := 0x818, lsb := 0, width := 32, acc := .ro, sel := .strm }

/-! `KSTN_STRM_BAD_HI` (R126) -/
def KSTN_STRM_BAD_HI.bad_hi : Fld := { off := 0x81C, lsb := 0, width := 32, acc := .ro, sel := .strm }

/-! `KSTN_STRM_CNT` (R126) -/
def KSTN_STRM_CNT.late : Fld := { off := 0x820, lsb := 0, width := 16, acc := .ro, sel := .strm }
def KSTN_STRM_CNT.dropped : Fld := { off := 0x820, lsb := 16, width := 16, acc := .ro, sel := .strm }

/-! `KSTN_STRM_SHORT` (R126) -/
def KSTN_STRM_SHORT.short : Fld := { off := 0x824, lsb := 0, width := 16, acc := .ro, sel := .strm }

/-! `KSTN_PTIME` (R126) -/
def KSTN_PTIME.ptime : Fld := { off := 0x830, lsb := 0, width := 32, acc := .ro }

/-! `KSTN_SCH_EVT` (R126) -/
def KSTN_SCH_EVT.orphan : Fld := { off := 0x834, lsb := 0, width := 16, acc := .rc }
def KSTN_SCH_EVT.tag_mismatch : Fld := { off := 0x834, lsb := 16, width := 16, acc := .rc }

/-! `KSTN_SCH_FLT` (R126) -/
def KSTN_SCH_FLT.lane_fault : Fld := { off := 0x838, lsb := 0, width := 8, acc := .rc }
def KSTN_SCH_FLT.lend_fault : Fld := { off := 0x838, lsb := 8, width := 8, acc := .rc }
def KSTN_SCH_FLT.uncorr : Fld := { off := 0x838, lsb := 16, width := 8, acc := .rc }
def KSTN_SCH_FLT.row_fault : Fld := { off := 0x838, lsb := 24, width := 8, acc := .rc }

/-! `KRTR_SCH_CELLS` (R127) -/
def KRTR_SCH_CELLS.cells_fwd : Fld := { off := 0xC04, lsb := 0, width := 32, acc := .rc }

/-! `KRTR_ARB_SEL` (R176) -/
def KRTR_ARB_SEL.port : Fld := { off := 0x400, lsb := 0, width := 6, acc := .rw }
def KRTR_ARB_SEL.net : Fld := { off := 0x400, lsb := 6, width := 2, acc := .rw }
def KRTR_ARB_SEL.vc : Fld := { off := 0x400, lsb := 8, width := 4, acc := .rw }

/-! `KRTR_ARB_LFSR` (R176) -/
def KRTR_ARB_LFSR.lfsr : Fld := { off := 0x404, lsb := 0, width := 8, acc := .ro, sel := .arb }
def KRTR_ARB_LFSR.seed : Fld := { off := 0x404, lsb := 8, width := 8, acc := .ro, sel := .arb }

/-! `KRTR_ARB_GRANTS` (R176) -/
def KRTR_ARB_GRANTS.grants : Fld := { off := 0x408, lsb := 0, width := 32, acc := .rc, sel := .arb }

/-! `KRTR_ARB_WASTE` (R176) -/
def KRTR_ARB_WASTE.waste : Fld := { off := 0x40C, lsb := 0, width := 16, acc := .rc, sel := .arb }
def KRTR_ARB_WASTE.qmasked : Fld := { off := 0x40C, lsb := 16, width := 16, acc := .rc, sel := .arb }

/-! `KRTR_ARB_HOLD` (R176) -/
def KRTR_ARB_HOLD.held : Fld := { off := 0x410, lsb := 0, width := 1, acc := .ro, sel := .arb }
def KRTR_ARB_HOLD.progress : Fld := { off := 0x410, lsb := 1, width := 10, acc := .ro, sel := .arb }
def KRTR_ARB_HOLD.hold_ctx : Fld := { off := 0x410, lsb := 16, width := 12, acc := .ro, sel := .arb }

/-! `KRTR_TKW0` (R176) -/
def KRTR_TKW0.w_ctl : Fld := { off := 0x480, lsb := 0, width := 8, acc := .rw, reset := 0x2 }
def KRTR_TKW0.w_mrq : Fld := { off := 0x480, lsb := 8, width := 8, acc := .rw, reset := 0x2 }
def KRTR_TKW0.w_msg : Fld := { off := 0x480, lsb := 16, width := 8, acc := .rw, reset := 0x1 }

/-! `KRTR_TKW1` (R176) -/
def KRTR_TKW1.w_cmp : Fld := { off := 0x484, lsb := 0, width := 8, acc := .rw, reset := 0x2 }
def KRTR_TKW1.w_crd : Fld := { off := 0x484, lsb := 8, width := 8, acc := .rw, reset := 0x2 }
def KRTR_TKW1.w_snp : Fld := { off := 0x484, lsb := 16, width := 8, acc := .rw, reset := 0x4 }

/-! `KRTR_TKW2` (R176) -/
def KRTR_TKW2.w_wdt : Fld := { off := 0x488, lsb := 0, width := 8, acc := .rw, reset := 0x2 }
def KRTR_TKW2.w_msgl : Fld := { off := 0x488, lsb := 8, width := 8, acc := .rw, reset := 0x1 }
def KRTR_TKW2.w_fol : Fld := { off := 0x488, lsb := 16, width := 8, acc := .rw, reset := 0x1 }
def KRTR_TKW2.w_pool : Fld := { off := 0x488, lsb := 24, width := 8, acc := .rw, reset := 0x2 }

/-! `KRTR_QUOTA` (R176) -/
def KRTR_QUOTA.hp_mask : Fld := { off := 0x48C, lsb := 0, width := 10, acc := .rw, reset := 0x1 }
def KRTR_QUOTA.q_win_log2 : Fld := { off := 0x48C, lsb := 16, width := 5, acc := .rw, reset := 0x8, rule := .keep 6 20 }
def KRTR_QUOTA.q_max : Fld := { off := 0x48C, lsb := 24, width := 8, acc := .rw, reset := 0x10, rule := .keep 1 255 }

/-! `KRTR_WDOG` (R176) -/
def KRTR_WDOG.wd_log2 : Fld := { off := 0x490, lsb := 0, width := 5, acc := .rw, reset := 0x10, rule := .keep 12 24 }

/-! `KRTR_WDOG_CNT` (R176) -/
def KRTR_WDOG_CNT.wd_bites : Fld := { off := 0x494, lsb := 0, width := 16, acc := .rc }
def KRTR_WDOG_CNT.hdr_bad : Fld := { off := 0x494, lsb := 16, width := 16, acc := .rc }

/-! `KRTR_ARB_EVT` (R176) -/
def KRTR_ARB_EVT.w_reject : Fld := { off := 0x498, lsb := 0, width := 1, acc := .w1c }
def KRTR_ARB_EVT.credit_lost : Fld := { off := 0x498, lsb := 1, width := 1, acc := .w1c }
def KRTR_ARB_EVT.uncorr : Fld := { off := 0x498, lsb := 16, width := 16, acc := .rc }

/-! `KRTR_GEN` (R176) -/
def KRTR_GEN.gen_cur : Fld := { off := 0x4A0, lsb := 0, width := 8, acc := .ro }
def KRTR_GEN.gen_drain : Fld := { off := 0x4A0, lsb := 8, width := 8, acc := .ro }
def KRTR_GEN.draining : Fld := { off := 0x4A0, lsb := 16, width := 1, acc := .ro }

/-! `KRTR_GEN_INFL` (R176) -/
def KRTR_GEN_INFL.infl0 : Fld := { off := 0x4A4, lsb := 0, width := 16, acc := .ro }
def KRTR_GEN_INFL.infl1 : Fld := { off := 0x4A4, lsb := 16, width := 16, acc := .ro }

/-! `KRTR_DEAD_LO` (R176) -/
def KRTR_DEAD_LO.dead_lo : Fld := { off := 0x4A8, lsb := 0, width := 32, acc := .ro }

/-! `KRTR_DEAD_HI` (R176) -/
def KRTR_DEAD_HI.dead_hi : Fld := { off := 0x4AC, lsb := 0, width := 10, acc := .ro }

/-! `KRTR_ABSORB` (R176) -/
def KRTR_ABSORB.stale_absorb : Fld := { off := 0x4B0, lsb := 0, width := 16, acc := .rc }
def KRTR_ABSORB.herd_denied : Fld := { off := 0x4B0, lsb := 16, width := 16, acc := .rc }

/-! `KRTR_FRZ_SEL` (R176) -/
def KRTR_FRZ_SEL.frz_word : Fld := { off := 0x4C0, lsb := 0, width := 7, acc := .rw }

/-! `KRTR_FRZ_DATA` (R176) -/
def KRTR_FRZ_DATA.frz : Fld := { off := 0x4C4, lsb := 0, width := 32, acc := .ro }

/-! `KRTR_HERD_SEL` (R176) -/
def KRTR_HERD_SEL.herd : Fld := { off := 0x4D0, lsb := 0, width := 12, acc := .rw }
def KRTR_HERD_SEL.bank : Fld := { off := 0x4D0, lsb := 12, width := 1, acc := .rw }

/-! `KRTR_HERD_DATA0` (R176) -/
def KRTR_HERD_DATA0.mask : Fld := { off := 0x4D4, lsb := 0, width := 32, acc := .ro }

/-! `KRTR_HERD_DATA1` (R176) -/
def KRTR_HERD_DATA1.hctx : Fld := { off := 0x4D8, lsb := 0, width := 12, acc := .ro }
def KRTR_HERD_DATA1.hvalid : Fld := { off := 0x4D8, lsb := 16, width := 1, acc := .ro }

/-! `KSTN_RT_SEL` (R177) -/
def KSTN_RT_SEL.rt_ep : Fld := { off := 0xA00, lsb := 0, width := 12, acc := .rw }
def KSTN_RT_SEL.rt_bank : Fld := { off := 0xA00, lsb := 12, width := 1, acc := .rw }

/-! `KSTN_RT_DATA` (R177) -/
def KSTN_RT_DATA.rt_word : Fld := { off := 0xA04, lsb := 0, width := 32, acc := .ro, stride := 4, count := 4 }

/-! `KSTN_HROOT` (R177) -/
def KSTN_HROOT.rstage : Fld := { off := 0xA14, lsb := 0, width := 3, acc := .ro }
def KSTN_HROOT.rindex : Fld := { off := 0xA14, lsb := 3, width := 5, acc := .ro }

/-! `KSTN_GEN` (R177) -/
def KSTN_GEN.gen_cur : Fld := { off := 0xA1C, lsb := 0, width := 8, acc := .ro }
def KSTN_GEN.gen_drain : Fld := { off := 0xA1C, lsb := 8, width := 8, acc := .ro }
def KSTN_GEN.draining : Fld := { off := 0xA1C, lsb := 16, width := 1, acc := .ro }

/-! `KSTN_GEN_INFL` (R177) -/
def KSTN_GEN_INFL.hold0 : Fld := { off := 0xA20, lsb := 0, width := 16, acc := .ro }
def KSTN_GEN_INFL.hold1 : Fld := { off := 0xA20, lsb := 16, width := 16, acc := .ro }

/-! `KSTN_STALE` (R177) -/
def KSTN_STALE.stale_reissue : Fld := { off := 0xA24, lsb := 0, width := 16, acc := .rc }
def KSTN_STALE.stale_fail : Fld := { off := 0xA24, lsb := 16, width := 16, acc := .rc }

/-! `KSTN_NOROUTE` (R177) -/
def KSTN_NOROUTE.noroute : Fld := { off := 0xA28, lsb := 0, width := 16, acc := .rc }

/-! `KGBL_RGEN` (R178) -/
def KGBL_RGEN.gen_cur : Fld := { off := 0x200, lsb := 0, width := 8, acc := .ro }
def KGBL_RGEN.gen_drain : Fld := { off := 0x200, lsb := 8, width := 8, acc := .ro }
def KGBL_RGEN.draining : Fld := { off := 0x200, lsb := 16, width := 1, acc := .ro }
def KGBL_RGEN.staging : Fld := { off := 0x200, lsb := 17, width := 1, acc := .ro }
def KGBL_RGEN.drain_late : Fld := { off := 0x200, lsb := 18, width := 1, acc := .w1c }
def KGBL_RGEN.zero_sweeps : Fld := { off := 0x200, lsb := 24, width := 8, acc := .ro }

/-! `KSTN_DQ_SEL` (R207) -/
def KSTN_DQ_SEL.dq_sel : Fld := { off := 0x000, lsb := 0, width := 3, acc := .rw }

/-! `KSTN_DQ_BASE` (R207) -/
def KSTN_DQ_BASE.dq_base : Fld := { off := 0x004, lsb := 6, width := 26, acc := .rw, sel := .dq, guarded := true }

/-! `KSTN_DQ_CFG` (R207) -/
def KSTN_DQ_CFG.entries : Fld := { off := 0x008, lsb := 0, width := 13, acc := .rw, reset := 0x10, rule := .keep 16 4096, sel := .dq, guarded := true }
def KSTN_DQ_CFG.enable : Fld := { off := 0x008, lsb := 13, width := 1, acc := .rw, sel := .dq }
def KSTN_DQ_CFG.dq_cq : Fld := { off := 0x008, lsb := 14, width := 3, acc := .rw, sel := .dq, guarded := true }
def KSTN_DQ_CFG.dq_ctx : Fld := { off := 0x008, lsb := 20, width := 12, acc := .ro, sel := .dq }

/-! `KSTN_DQ_TAIL` (R207) -/
def KSTN_DQ_TAIL.dq_tail : Fld := { off := 0x00C, lsb := 0, width := 12, acc := .rw, sel := .dq }

/-! `KSTN_DQ_HEAD` (R207) -/
def KSTN_DQ_HEAD.dq_head : Fld := { off := 0x010, lsb := 0, width := 12, acc := .ro, sel := .dq }
def KSTN_DQ_HEAD.inflight : Fld := { off := 0x010, lsb := 16, width := 10, acc := .ro, sel := .dq }

/-! `KSTN_CQ_SEL` (R207) -/
def KSTN_CQ_SEL.cq_sel : Fld := { off := 0x020, lsb := 0, width := 3, acc := .rw }

/-! `KSTN_CQ_BASE` (R207) -/
def KSTN_CQ_BASE.cq_base : Fld := { off := 0x024, lsb := 5, width := 27, acc := .rw, sel := .cq, guarded := true }

/-! `KSTN_CQ_CFG` (R207) -/
def KSTN_CQ_CFG.cq_entries : Fld := { off := 0x028, lsb := 0, width := 13, acc := .rw, reset := 0x10, rule := .keep 16 4096, sel := .cq, guarded := true }
def KSTN_CQ_CFG.enable : Fld := { off := 0x028, lsb := 13, width := 1, acc := .rw, sel := .cq }
def KSTN_CQ_CFG.cq_ctx : Fld := { off := 0x028, lsb := 20, width := 12, acc := .ro, sel := .cq }

/-! `KSTN_CQ_HEAD` (R207) -/
def KSTN_CQ_HEAD.cq_head : Fld := { off := 0x02C, lsb := 0, width := 12, acc := .rw, sel := .cq }

/-! `KSTN_CQ_TAIL` (R207) -/
def KSTN_CQ_TAIL.cq_tail : Fld := { off := 0x030, lsb := 0, width := 12, acc := .ro, sel := .cq }
def KSTN_CQ_TAIL.cq_phase : Fld := { off := 0x030, lsb := 12, width := 1, acc := .ro, reset := 0x1, sel := .cq }
def KSTN_CQ_TAIL.cq_rsvd : Fld := { off := 0x030, lsb := 16, width := 13, acc := .ro, sel := .cq }

/-! `KSTN_LOG_STAT` (R207) -/
def KSTN_LOG_STAT.log_used : Fld := { off := 0x040, lsb := 0, width := 10, acc := .ro }
def KSTN_LOG_STAT.log_high : Fld := { off := 0x040, lsb := 16, width := 10, acc := .rc }

/-! `KSTN_LOG_SEL` (R207) -/
def KSTN_LOG_SEL.log_entry : Fld := { off := 0x044, lsb := 0, width := 9, acc := .rw }
def KSTN_LOG_SEL.log_word : Fld := { off := 0x044, lsb := 9, width := 5, acc := .rw }

/-! `KSTN_LOG_DATA` (R207) -/
def KSTN_LOG_DATA.log_data : Fld := { off := 0x048, lsb := 0, width := 32, acc := .ro }

/-! `KSTN_CH_SEL` (R207) -/
def KSTN_CH_SEL.ch_sel : Fld := { off := 0x100, lsb := 0, width := 8, acc := .rw }

/-! `KSTN_CH_CFG` (R207) -/
def KSTN_CH_CFG.dst : Fld := { off := 0x104, lsb := 0, width := 12, acc := .rw, sel := .ch, guarded := true }
def KSTN_CH_CFG.herd_mode : Fld := { off := 0x104, lsb := 12, width := 1, acc := .rw, sel := .ch }
def KSTN_CH_CFG.enable : Fld := { off := 0x104, lsb := 13, width := 1, acc := .rw, sel := .ch }
def KSTN_CH_CFG.remote : Fld := { off := 0x104, lsb := 14, width := 1, acc := .rw, sel := .ch, guarded := true }
def KSTN_CH_CFG.dring : Fld := { off := 0x104, lsb := 16, width := 8, acc := .rw, sel := .ch, guarded := true }
def KSTN_CH_CFG.max_lines : Fld := { off := 0x104, lsb := 24, width := 7, acc := .rw, reset := 0x40, sel := .ch, guarded := true }

/-! `KSTN_CH_PKG` (R207) -/
def KSTN_CH_PKG.dst_pkg : Fld := { off := 0x108, lsb := 0, width := 17, acc := .rw, sel := .ch, guarded := true }
def KSTN_CH_PKG.members : Fld := { off := 0x108, lsb := 24, width := 7, acc := .rw, reset := 0x1, sel := .ch, guarded := true }

/-! `KSTN_CH_RADDR_LO` (R207) -/
def KSTN_CH_RADDR_LO.raddr_lo : Fld := { off := 0x10C, lsb := 6, width := 26, acc := .rw, sel := .ch, guarded := true }

/-! `KSTN_CH_RADDR_HI` (R207) -/
def KSTN_CH_RADDR_HI.raddr_hi : Fld := { off := 0x110, lsb := 0, width := 32, acc := .rw, sel := .ch, guarded := true }

/-! `KSTN_CH_CRED` (R207) -/
def KSTN_CH_CRED.credit : Fld := { off := 0x114, lsb := 0, width := 16, acc := .ro, sel := .ch }
def KSTN_CH_CRED.ch_ctx : Fld := { off := 0x114, lsb := 16, width := 12, acc := .ro, sel := .ch }
def KSTN_CH_CRED.blocked : Fld := { off := 0x114, lsb := 31, width := 1, acc := .ro, sel := .ch }

/-! `KSTN_CH_MSGS` (R207) -/
def KSTN_CH_MSGS.msgs_sent : Fld := { off := 0x118, lsb := 0, width := 32, acc := .rc, sel := .ch }

/-! `KSTN_CH_STALL` (R207) -/
def KSTN_CH_STALL.stalls : Fld := { off := 0x11C, lsb := 0, width := 16, acc := .rc, sel := .ch }
def KSTN_CH_STALL.nocredit : Fld := { off := 0x11C, lsb := 16, width := 16, acc := .rc, sel := .ch }

/-! `KSTN_CH_REFUSE` (R207) -/
def KSTN_CH_REFUSE.refused : Fld := { off := 0x120, lsb := 0, width := 16, acc := .rc, sel := .ch }
def KSTN_CH_REFUSE.last_refuse : Fld := { off := 0x120, lsb := 16, width := 8, acc := .ro, sel := .ch }
def KSTN_CH_REFUSE.mseq : Fld := { off := 0x120, lsb := 24, width := 8, acc := .ro, sel := .ch }

/-! `KSTN_CH_TL` (R207) -/
def KSTN_CH_TL.send_tl_log2 : Fld := { off := 0x124, lsb := 0, width := 5, acc := .rw, reset := 0x18, rule := .keep 12 30, sel := .ch }
def KSTN_CH_TL.mc_known : Fld := { off := 0x124, lsb := 8, width := 7, acc := .ro, sel := .ch }
def KSTN_CH_TL.stall_fc : Fld := { off := 0x124, lsb := 16, width := 16, acc := .ro, sel := .ch }

/-! `KSTN_RING_SEL` (R207) -/
def KSTN_RING_SEL.ring_sel : Fld := { off := 0x200, lsb := 0, width := 8, acc := .rw }
def KSTN_RING_SEL.slot_sel : Fld := { off := 0x200, lsb := 8, width := 4, acc := .rw }

/-! `KSTN_RING_BASE` (R207) -/
def KSTN_RING_BASE.rbase_lo : Fld := { off := 0x204, lsb := 6, width := 26, acc := .rw, sel := .ring, guarded := true }

/-! `KSTN_RING_BASE_HI` (R207) -/
def KSTN_RING_BASE_HI.rbase_hi : Fld := { off := 0x208, lsb := 0, width := 32, acc := .rw, sel := .ring, guarded := true }

/-! `KSTN_RING_CFG` (R207) -/
def KSTN_RING_CFG.ring_lines : Fld := { off := 0x20C, lsb := 0, width := 15, acc := .rw, reset := 0x2, sel := .ring, guarded := true }
def KSTN_RING_CFG.enable : Fld := { off := 0x20C, lsb := 15, width := 1, acc := .rw, sel := .ring }
def KSTN_RING_CFG.max_lines : Fld := { off := 0x20C, lsb := 16, width := 7, acc := .rw, reset := 0x1, sel := .ring, guarded := true }
def KSTN_RING_CFG.in_mem : Fld := { off := 0x20C, lsb := 23, width := 1, acc := .rw, sel := .ring, guarded := true }
def KSTN_RING_CFG.cls : Fld := { off := 0x20C, lsb := 24, width := 2, acc := .rw, sel := .ring }
def KSTN_RING_CFG.hdisp : Fld := { off := 0x20C, lsb := 26, width := 1, acc := .rw, reset := 0x1, sel := .ring }
def KSTN_RING_CFG.cfg_reject : Fld := { off := 0x20C, lsb := 27, width := 1, acc := .w1c, sel := .ring }
def KSTN_RING_CFG.crd_thresh : Fld := { off := 0x20C, lsb := 28, width := 4, acc := .rw, reset := 0x8, rule := .keep 1 15, sel := .ring }

/-! `KSTN_RING_PTR` (R207) -/
def KSTN_RING_PTR.head : Fld := { off := 0x210, lsb := 0, width := 14, acc := .ro, sel := .ring }
def KSTN_RING_PTR.tail : Fld := { off := 0x210, lsb := 16, width := 14, acc := .ro, sel := .ring }

/-! `KSTN_RING_OCC` (R207) -/
def KSTN_RING_OCC.occ : Fld := { off := 0x214, lsb := 0, width := 15, acc := .ro, sel := .ring }
def KSTN_RING_OCC.skip_held : Fld := { off := 0x214, lsb := 16, width := 6, acc := .ro, sel := .ring }

/-! `KSTN_RING_POP` (R207) -/
def KSTN_RING_POP.npop : Fld := { off := 0x218, lsb := 0, width := 7, acc := .wo, sel := .ring }

/-! `KSTN_RING_HEADENT0` (R207) -/
def KSTN_RING_HEADENT0.hent0 : Fld := { off := 0x21C, lsb := 0, width := 32, acc := .ro, sel := .ring }

/-! `KSTN_RING_HEADENT1` (R207) -/
def KSTN_RING_HEADENT1.hent1 : Fld := { off := 0x220, lsb := 0, width := 32, acc := .ro, sel := .ring }

/-! `KSTN_RING_CNT` (R207) -/
def KSTN_RING_CNT.msgs_rcvd : Fld := { off := 0x224, lsb := 0, width := 32, acc := .rc, sel := .ring }

/-! `KSTN_RING_EVT` (R207) -/
def KSTN_RING_EVT.refused_in : Fld := { off := 0x228, lsb := 0, width := 16, acc := .rc, sel := .ring }
def KSTN_RING_EVT.pop_fault : Fld := { off := 0x228, lsb := 16, width := 8, acc := .rc, sel := .ring }
def KSTN_RING_EVT.crd_drop : Fld := { off := 0x228, lsb := 24, width := 8, acc := .rc }

/-! `KSTN_RING_PEND` (R207) -/
def KSTN_RING_PEND.pending : Fld := { off := 0x22C, lsb := 0, width := 16, acc := .ro, sel := .ring }
def KSTN_RING_PEND.skips : Fld := { off := 0x22C, lsb := 16, width := 16, acc := .rc, sel := .ring }

/-! `KSTN_RING_SLOT0` (R207) -/
def KSTN_RING_SLOT0.s_src : Fld := { off := 0x234, lsb := 0, width := 12, acc := .rw, sel := .ringSlot, guarded := true }
def KSTN_RING_SLOT0.s_chan : Fld := { off := 0x234, lsb := 12, width := 8, acc := .rw, sel := .ringSlot, guarded := true }
def KSTN_RING_SLOT0.s_valid : Fld := { off := 0x234, lsb := 20, width := 1, acc := .rw, sel := .ringSlot, guarded := true }

/-! `KSTN_RING_SLOT1` (R207) -/
def KSTN_RING_SLOT1.s_pkg : Fld := { off := 0x238, lsb := 0, width := 17, acc := .rw, sel := .ringSlot, guarded := true }

/-! `KSTN_RING_SLOT2` (R207) -/
def KSTN_RING_SLOT2.s_share : Fld := { off := 0x23C, lsb := 0, width := 15, acc := .rw, sel := .ringSlot, guarded := true }
def KSTN_RING_SLOT2.s_pend : Fld := { off := 0x23C, lsb := 16, width := 15, acc := .ro, sel := .ringSlot }

/-! `KSTN_DISP` (R207) -/
def KSTN_DISP.in_handler : Fld := { off := 0x300, lsb := 0, width := 1, acc := .ro }
def KSTN_DISP.snd_blocked : Fld := { off := 0x300, lsb := 1, width := 1, acc := .ro }
def KSTN_DISP.blk_chan : Fld := { off := 0x300, lsb := 8, width := 8, acc := .ro }
def KSTN_DISP.disp_count : Fld := { off := 0x300, lsb := 16, width := 16, acc := .rc }

/-! `KSTN_GRP_SEL` (R239) -/
def KSTN_GRP_SEL.grp_slot : Fld := { off := 0x600, lsb := 0, width := 6, acc := .rw }

/-! `KSTN_GRP_DATA0` (R239) -/
def KSTN_GRP_DATA0.gidx : Fld := { off := 0x604, lsb := 0, width := 10, acc := .ro, sel := .grp }
def KSTN_GRP_DATA0.g_valid : Fld := { off := 0x604, lsb := 10, width := 1, acc := .ro, sel := .grp }
def KSTN_GRP_DATA0.g_ctx : Fld := { off := 0x604, lsb := 20, width := 12, acc := .ro, sel := .grp }

/-! `KSTN_GRP_DATA1` (R239) -/
def KSTN_GRP_DATA1.gkey : Fld := { off := 0x608, lsb := 0, width := 32, acc := .ro, sel := .grp }

/-! `KSTN_GRP_DATA2` (R239) -/
def KSTN_GRP_DATA2.lsize : Fld := { off := 0x60C, lsb := 0, width := 12, acc := .ro, sel := .grp }
def KSTN_GRP_DATA2.rherd : Fld := { off := 0x60C, lsb := 16, width := 12, acc := .ro, sel := .grp }

/-! `KSTN_GRP_DATA3` (R239) -/
def KSTN_GRP_DATA3.home : Fld := { off := 0x610, lsb := 0, width := 5, acc := .ro, sel := .grp }
def KSTN_GRP_DATA3.rhops : Fld := { off := 0x610, lsb := 5, width := 3, acc := .ro, sel := .grp }
def KSTN_GRP_DATA3.rroot : Fld := { off := 0x610, lsb := 8, width := 8, acc := .ro, sel := .grp }

/-! `KSTN_GRP_SIZE` (R239) -/
def KSTN_GRP_SIZE.gsize : Fld := { off := 0x614, lsb := 0, width := 32, acc := .ro, sel := .grp }

/-! `KSTN_FOLD` (R239) -/
def KSTN_FOLD.fold_used : Fld := { off := 0x620, lsb := 0, width := 6, acc := .ro }
def KSTN_FOLD.fold_high : Fld := { off := 0x620, lsb := 8, width := 6, acc := .rc }
def KSTN_FOLD.fold_early : Fld := { off := 0x620, lsb := 16, width := 6, acc := .ro }

/-! `KSTN_COLL_EVT` (R239) -/
def KSTN_COLL_EVT.coll_mm : Fld := { off := 0x624, lsb := 0, width := 16, acc := .rc }
def KSTN_COLL_EVT.coll_orphan : Fld := { off := 0x624, lsb := 16, width := 16, acc := .rc }

/-! `KSTN_COLL_EVT2` (R239) -/
def KSTN_COLL_EVT2.coll_short : Fld := { off := 0x628, lsb := 0, width := 16, acc := .rc }
def KSTN_COLL_EVT2.coll_tmo : Fld := { off := 0x628, lsb := 16, width := 16, acc := .rc }

/-! `KRTR_RED_CFG` (R240) -/
def KRTR_RED_CFG.linger_log2 : Fld := { off := 0x600, lsb := 0, width := 5, acc := .rw, reset := 0xC, rule := .keep 8 20 }

/-! `KRTR_RED_COMB` (R240) -/
def KRTR_RED_COMB.comb_out : Fld := { off := 0x604, lsb := 0, width := 32, acc := .rc }

/-! `KRTR_RED_EVT` (R240) -/
def KRTR_RED_EVT.mismatch_count : Fld := { off := 0x608, lsb := 0, width := 16, acc := .rc }
def KRTR_RED_EVT.count_sat : Fld := { off := 0x608, lsb := 16, width := 16, acc := .rc }

/-! `KRTR_RCTX` (R240) -/
def KRTR_RCTX.rctx_used : Fld := { off := 0x60C, lsb := 0, width := 10, acc := .ro }
def KRTR_RCTX.rctx_high : Fld := { off := 0x60C, lsb := 16, width := 10, acc := .rc }

/-! `KRTR_RBYP` (R240) -/
def KRTR_RBYP.bypass : Fld := { off := 0x610, lsb := 0, width := 16, acc := .rc }
def KRTR_RBYP.linger_emit : Fld := { off := 0x610, lsb := 16, width := 16, acc := .rc }

/-! `KSTN_PTAB_SEL` (R269) -/
def KSTN_PTAB_SEL.ptab_sel : Fld := { off := 0x700, lsb := 0, width := 6, acc := .rw }

/-! `KSTN_PTAB_BASE_LO` (R269) -/
def KSTN_PTAB_BASE_LO.tbase_lo : Fld := { off := 0x704, lsb := 8, width := 24, acc := .rw, sel := .ptab, guarded := true }

/-! `KSTN_PTAB_BASE_HI` (R269) -/
def KSTN_PTAB_BASE_HI.tbase_hi : Fld := { off := 0x708, lsb := 0, width := 32, acc := .rw, sel := .ptab, guarded := true }

/-! `KSTN_PTAB_CFG` (R269) -/
def KSTN_PTAB_CFG.rlines : Fld := { off := 0x70C, lsb := 0, width := 7, acc := .rw, reset := 0x1, sel := .ptab, guarded := true }
def KSTN_PTAB_CFG.tvalid : Fld := { off := 0x70C, lsb := 7, width := 1, acc := .rw, sel := .ptab }
def KSTN_PTAB_CFG.dtype : Fld := { off := 0x70C, lsb := 8, width := 8, acc := .rw, sel := .ptab, guarded := true }
def KSTN_PTAB_CFG.stride : Fld := { off := 0x70C, lsb := 16, width := 16, acc := .rw, reset := 0x1, sel := .ptab, guarded := true }

/-! `KSTN_PTAB_ROWS_LO` (R269) -/
def KSTN_PTAB_ROWS_LO.trows_lo : Fld := { off := 0x710, lsb := 0, width := 32, acc := .rw, reset := 0x1, sel := .ptab, guarded := true }

/-! `KSTN_PTAB_ROWS_HI` (R269) -/
def KSTN_PTAB_ROWS_HI.trows_hi : Fld := { off := 0x714, lsb := 0, width := 9, acc := .rw, sel := .ptab, guarded := true }
def KSTN_PTAB_ROWS_HI.tcfg_reject : Fld := { off := 0x714, lsb := 9, width := 1, acc := .w1c, sel := .ptab }
def KSTN_PTAB_ROWS_HI.ptab_ctx : Fld := { off := 0x714, lsb := 20, width := 12, acc := .ro, sel := .ptab }

/-! `KSTN_BAG_STAT` (R269) -/
def KSTN_BAG_STAT.bags_used : Fld := { off := 0x740, lsb := 0, width := 7, acc := .ro }
def KSTN_BAG_STAT.bags_high : Fld := { off := 0x740, lsb := 8, width := 7, acc := .rc }

/-! `KSTN_BAG_EVT` (R269) -/
def KSTN_BAG_EVT.bag_short : Fld := { off := 0x744, lsb := 0, width := 16, acc := .rc }
def KSTN_BAG_EVT.bag_tmo : Fld := { off := 0x744, lsb := 16, width := 16, acc := .rc }

/-! `KSTN_BAG_EVT2` (R269) -/
def KSTN_BAG_EVT2.pool_orphan : Fld := { off := 0x748, lsb := 0, width := 16, acc := .rc }
def KSTN_BAG_EVT2.pool_refused : Fld := { off := 0x748, lsb := 16, width := 16, acc := .rc }

/-! `KRTR_POOL_CFG` (R270) -/
def KRTR_POOL_CFG.plinger_log2 : Fld := { off := 0x700, lsb := 0, width := 5, acc := .rw, reset := 0xC, rule := .keep 8 20 }

/-! `KRTR_POOL_USE` (R270) -/
def KRTR_POOL_USE.pctx_used : Fld := { off := 0x704, lsb := 0, width := 9, acc := .ro }
def KRTR_POOL_USE.pctx_high : Fld := { off := 0x704, lsb := 16, width := 9, acc := .rc }

/-! `KRTR_POOL_EVT` (R270) -/
def KRTR_POOL_EVT.pool_bypass : Fld := { off := 0x708, lsb := 0, width := 16, acc := .rc }
def KRTR_POOL_EVT.pool_linger : Fld := { off := 0x708, lsb := 16, width := 16, acc := .rc }

/-! `KRTR_POOL_CONF` (R270) -/
def KRTR_POOL_CONF.pool_conflict : Fld := { off := 0x70C, lsb := 0, width := 16, acc := .rc }

/-! `KRTR_MRG_CFG` (R270) -/
def KRTR_MRG_CFG.mwin_log2 : Fld := { off := 0x710, lsb := 0, width := 5, acc := .rw, reset := 0xA, rule := .keep 6 16 }

/-! `KRTR_MRG_USE` (R270) -/
def KRTR_MRG_USE.keys_used : Fld := { off := 0x714, lsb := 0, width := 10, acc := .ro }
def KRTR_MRG_USE.keys_high : Fld := { off := 0x714, lsb := 16, width := 10, acc := .rc }

/-! `KRTR_MRG_EVT` (R270) -/
def KRTR_MRG_EVT.merged : Fld := { off := 0x718, lsb := 0, width := 16, acc := .rc }
def KRTR_MRG_EVT.mbypass : Fld := { off := 0x718, lsb := 16, width := 16, acc := .rc }

/-! `KRTR_MRG_EVT2` (R270) -/
def KRTR_MRG_EVT2.memit : Fld := { off := 0x71C, lsb := 0, width := 16, acc := .rc }
def KRTR_MRG_EVT2.mconflict : Fld := { off := 0x71C, lsb := 16, width := 16, acc := .rc }

/-! `KMSP_POOL_CFG` (R271) -/
def KMSP_POOL_CFG.plinger_log2 : Fld := { off := 0x700, lsb := 0, width := 5, acc := .rw, reset := 0xC, rule := .keep 8 20 }

/-! `KMSP_POOL_USE` (R271) -/
def KMSP_POOL_USE.pctx_used : Fld := { off := 0x704, lsb := 0, width := 10, acc := .ro }
def KMSP_POOL_USE.pctx_high : Fld := { off := 0x704, lsb := 16, width := 10, acc := .rc }

/-! `KMSP_POOL_EVT` (R271) -/
def KMSP_POOL_EVT.pool_bypass : Fld := { off := 0x708, lsb := 0, width := 16, acc := .rc }
def KMSP_POOL_EVT.pool_linger : Fld := { off := 0x708, lsb := 16, width := 16, acc := .rc }

/-! `KMSP_POOL_EVT2` (R271) -/
def KMSP_POOL_EVT2.pool_conflict : Fld := { off := 0x70C, lsb := 0, width := 16, acc := .rc }
def KMSP_POOL_EVT2.pool_refuse : Fld := { off := 0x70C, lsb := 16, width := 16, acc := .rc }

/-! `KMSP_ACC` (R271) -/
def KMSP_ACC.acc_count : Fld := { off := 0x710, lsb := 0, width := 32, acc := .rc }

/-! `KSTN_MEM_CFG` (R313) -/
def KSTN_MEM_CFG.req_tl_log2 : Fld := { off := 0x900, lsb := 0, width := 5, acc := .rw, reset := 0x14, rule := .keep 12 30 }
def KSTN_MEM_CFG.sram_log2 : Fld := { off := 0x900, lsb := 8, width := 5, acc := .ro }

/-! `KSTN_WIN_SEL` (R313) -/
def KSTN_WIN_SEL.win_sel : Fld := { off := 0x904, lsb := 0, width := 4, acc := .rw }

/-! `KSTN_WIN_BASE_LO` (R313) -/
def KSTN_WIN_BASE_LO.wbase_lo : Fld := { off := 0x908, lsb := 12, width := 20, acc := .ro, sel := .win }

/-! `KSTN_WIN_BASE_HI` (R313) -/
def KSTN_WIN_BASE_HI.wbase_hi : Fld := { off := 0x90C, lsb := 0, width := 32, acc := .ro, sel := .win }

/-! `KSTN_WIN_LIM_LO` (R313) -/
def KSTN_WIN_LIM_LO.wlim_lo : Fld := { off := 0x910, lsb := 12, width := 20, acc := .ro, sel := .win }

/-! `KSTN_WIN_LIM_HI` (R313) -/
def KSTN_WIN_LIM_HI.wlim_hi : Fld := { off := 0x914, lsb := 0, width := 32, acc := .ro, sel := .win }

/-! `KSTN_WIN_CFG` (R313) -/
def KSTN_WIN_CFG.wvalid : Fld := { off := 0x918, lsb := 0, width := 1, acc := .ro, sel := .win }
def KSTN_WIN_CFG.wsram : Fld := { off := 0x918, lsb := 1, width := 1, acc := .ro, sel := .win }
def KSTN_WIN_CFG.wr : Fld := { off := 0x918, lsb := 2, width := 1, acc := .ro, sel := .win }
def KSTN_WIN_CFG.ww : Fld := { off := 0x918, lsb := 3, width := 1, acc := .ro, sel := .win }
def KSTN_WIN_CFG.wa : Fld := { off := 0x918, lsb := 4, width := 1, acc := .ro, sel := .win }
def KSTN_WIN_CFG.wctx : Fld := { off := 0x918, lsb := 16, width := 12, acc := .ro, sel := .win }

/-! `KSTN_MEM_OUT` (R313) -/
def KSTN_MEM_OUT.posted_out : Fld := { off := 0x920, lsb := 0, width := 16, acc := .ro }
def KSTN_MEM_OUT.req_out : Fld := { off := 0x920, lsb := 16, width := 16, acc := .ro }

/-! `KSTN_CC_SEL` (R313) -/
def KSTN_CC_SEL.cc_sel : Fld := { off := 0x930, lsb := 0, width := 8, acc := .rw }
def KSTN_CC_SEL.cc_ctx : Fld := { off := 0x930, lsb := 16, width := 12, acc := .ro, sel := .cc }

/-! `KSTN_CC` (R313) -/
def KSTN_CC.cc_value : Fld := { off := 0x934, lsb := 0, width := 32, acc := .rw, sel := .cc }

/-! `KSTN_MEM_EVT` (R313) -/
def KSTN_MEM_EVT.win_denied : Fld := { off := 0x940, lsb := 0, width := 16, acc := .rc }
def KSTN_MEM_EVT.poison_rd : Fld := { off := 0x940, lsb := 16, width := 16, acc := .rc }

/-! `KSTN_MEM_EVT2` (R313) -/
def KSTN_MEM_EVT2.late_ans : Fld := { off := 0x944, lsb := 0, width := 16, acc := .rc }
def KSTN_MEM_EVT2.cc_denied : Fld := { off := 0x944, lsb := 16, width := 8, acc := .rc }
def KSTN_MEM_EVT2.snp_late : Fld := { off := 0x944, lsb := 24, width := 8, acc := .rc }

/-! `KMSP_SLICE` (R314) -/
def KMSP_SLICE.slice_gib : Fld := { off := 0x100, lsb := 0, width := 11, acc := .ro }
def KMSP_SLICE.slice : Fld := { off := 0x100, lsb := 16, width := 5, acc := .ro }
def KMSP_SLICE.port_q : Fld := { off := 0x100, lsb := 21, width := 1, acc := .ro }

/-! `KMSP_TKW` (R314) -/
def KMSP_TKW.w_mrq : Fld := { off := 0x104, lsb := 0, width := 8, acc := .rw, reset := 0x2 }
def KMSP_TKW.w_wdt : Fld := { off := 0x104, lsb := 8, width := 8, acc := .rw, reset := 0x2 }
def KMSP_TKW.w_pool : Fld := { off := 0x104, lsb := 16, width := 8, acc := .rw, reset := 0x2 }
def KMSP_TKW.w_def : Fld := { off := 0x104, lsb := 24, width := 8, acc := .rw, reset := 0x1 }

/-! `KMSP_DIR_CFG` (R314) -/
def KMSP_DIR_CFG.snp_tl_log2 : Fld := { off := 0x108, lsb := 0, width := 5, acc := .rw, reset := 0x10, rule := .keep 12 20 }

/-! `KMSP_DIR_USE` (R314) -/
def KMSP_DIR_USE.dir_used : Fld := { off := 0x10C, lsb := 0, width := 18, acc := .ro }
def KMSP_DIR_USE.defer_used : Fld := { off := 0x10C, lsb := 24, width := 7, acc := .ro }

/-! `KMSP_DIR_EVT` (R314) -/
def KMSP_DIR_EVT.back_inv : Fld := { off := 0x110, lsb := 0, width := 16, acc := .rc }
def KMSP_DIR_EVT.vmode_cnt : Fld := { off := 0x110, lsb := 16, width := 16, acc := .rc }

/-! `KMSP_DIR_EVT2` (R314) -/
def KMSP_DIR_EVT2.snp_tmo : Fld := { off := 0x114, lsb := 0, width := 16, acc := .rc }
def KMSP_DIR_EVT2.lines_poisoned : Fld := { off := 0x114, lsb := 16, width := 16, acc := .rc }

/-! `KMSP_WIN_SEL` (R314) -/
def KMSP_WIN_SEL.mwin_sel : Fld := { off := 0x120, lsb := 0, width := 10, acc := .rw }

/-! `KMSP_EVT` (R314) -/
def KMSP_EVT.win_denied : Fld := { off := 0x138, lsb := 0, width := 16, acc := .rc }
def KMSP_EVT.uncorr_rd : Fld := { off := 0x138, lsb := 16, width := 16, acc := .rc }

/-! `KGBL_EMAP_SEL` (R353) -/
def KGBL_EMAP_SEL.emap_idx : Fld := { off := 0x300, lsb := 0, width := 6, acc := .rw }

/-! `KGBL_EMAP` (R353) -/
def KGBL_EMAP.emap_ep : Fld := { off := 0x304, lsb := 0, width := 6, acc := .rw, sel := .emap }

/-! `KEDG_STAT` (R354) -/
def KEDG_STAT.lane_lock : Fld := { off := 0x000, lsb := 0, width := 1, acc := .ro }
def KEDG_STAT.link_up : Fld := { off := 0x000, lsb := 1, width := 1, acc := .ro }
def KEDG_STAT.peer_nready : Fld := { off := 0x000, lsb := 2, width := 1, acc := .ro, reset := 0x1 }
def KEDG_STAT.cw_span : Fld := { off := 0x000, lsb := 3, width := 1, acc := .ro }
def KEDG_STAT.relocks : Fld := { off := 0x000, lsb := 16, width := 16, acc := .rc }

/-! `KEDG_LANE` (R354) -/
def KEDG_LANE.spare_on : Fld := { off := 0x004, lsb := 0, width := 1, acc := .rw }
def KEDG_LANE.spare_lane : Fld := { off := 0x004, lsb := 1, width := 2, acc := .rw }
def KEDG_LANE.sig : Fld := { off := 0x004, lsb := 4, width := 5, acc := .ro }

/-! `KEDG_FEC` (R354) -/
def KEDG_FEC.fec_corr : Fld := { off := 0x008, lsb := 0, width := 16, acc := .rc }
def KEDG_FEC.fec_uncorr : Fld := { off := 0x008, lsb := 16, width := 16, acc := .rc }

/-! `KEDG_LINK` (R354) -/
def KEDG_LINK.crc_bad : Fld := { off := 0x00C, lsb := 0, width := 16, acc := .rc }
def KEDG_LINK.replays : Fld := { off := 0x00C, lsb := 16, width := 16, acc := .rc }

/-! `KEDG_TIME_CFG` (R354) -/
def KEDG_TIME_CFG.tx_lat : Fld := { off := 0x010, lsb := 0, width := 8, acc := .rw }
def KEDG_TIME_CFG.rx_lat : Fld := { off := 0x010, lsb := 8, width := 8, acc := .rw }
def KEDG_TIME_CFG.asym : Fld := { off := 0x010, lsb := 16, width := 8, acc := .rw }
def KEDG_TIME_CFG.tw_log2 : Fld := { off := 0x010, lsb := 24, width := 4, acc := .rw, reset := 0xA, rule := .keep 8 14 }

/-! `KEDG_TIME_STAT` (R354) -/
def KEDG_TIME_STAT.delay : Fld := { off := 0x014, lsb := 0, width := 16, acc := .ro }
def KEDG_TIME_STAT.thops : Fld := { off := 0x014, lsb := 16, width := 8, acc := .ro, reset := 0xFF }
def KEDG_TIME_STAT.tw_valid : Fld := { off := 0x014, lsb := 24, width := 1, acc := .ro }

/-! `KEDG_SPRAY_LO` (R354) -/
def KEDG_SPRAY_LO.spray_lo : Fld := { off := 0x040, lsb := 0, width := 32, acc := .rw, reset := 0xFF }

/-! `KEDG_SPRAY_HI` (R354) -/
def KEDG_SPRAY_HI.spray_hi : Fld := { off := 0x044, lsb := 0, width := 32, acc := .rw }

/-! `KEDG_PATH_SEL` (R354) -/
def KEDG_PATH_SEL.path_sel : Fld := { off := 0x048, lsb := 0, width := 6, acc := .rw }

/-! `KEDG_PATH` (R354) -/
def KEDG_PATH.weight : Fld := { off := 0x04C, lsb := 0, width := 9, acc := .ro, reset := 0x100, sel := .path }
def KEDG_PATH.samples : Fld := { off := 0x04C, lsb := 9, width := 4, acc := .ro, sel := .path }
def KEDG_PATH.suspended : Fld := { off := 0x04C, lsb := 13, width := 1, acc := .ro, sel := .path }
def KEDG_PATH.srtt : Fld := { off := 0x04C, lsb := 16, width := 16, acc := .ro, sel := .path }

/-! `KEDG_XPORT` (R354) -/
def KEDG_XPORT.rtx_max : Fld := { off := 0x050, lsb := 0, width := 3, acc := .rw, reset := 0x4, rule := .keep 1 4 }
def KEDG_XPORT.win_log2 : Fld := { off := 0x050, lsb := 4, width := 5, acc := .rw, reset := 0x10, rule := .keep 10 22 }
def KEDG_XPORT.ack_log2 : Fld := { off := 0x050, lsb := 12, width := 4, acc := .rw, reset := 0x8, rule := .keep 4 12 }
def KEDG_XPORT.path_fail : Fld := { off := 0x050, lsb := 16, width := 3, acc := .rw, reset := 0x4, rule := .keep 1 7 }

/-! `KEDG_CONN` (R354) -/
def KEDG_CONN.conn_used : Fld := { off := 0x054, lsb := 0, width := 13, acc := .ro }
def KEDG_CONN.conn_high : Fld := { off := 0x054, lsb := 16, width := 13, acc := .rc }

/-! `KEDG_XEVT` (R354) -/
def KEDG_XEVT.retransmits : Fld := { off := 0x058, lsb := 0, width := 16, acc := .rc }
def KEDG_XEVT.tx_fail : Fld := { off := 0x058, lsb := 16, width := 16, acc := .rc }

/-! `KEDG_XEVT2` (R354) -/
def KEDG_XEVT2.rx_dup : Fld := { off := 0x05C, lsb := 0, width := 16, acc := .rc }
def KEDG_XEVT2.rx_window : Fld := { off := 0x05C, lsb := 16, width := 16, acc := .rc }

/-! `KEDG_XEVT3` (R354) -/
def KEDG_XEVT3.rx_stale : Fld := { off := 0x060, lsb := 0, width := 8, acc := .rc }
def KEDG_XEVT3.rst_sent : Fld := { off := 0x060, lsb := 8, width := 8, acc := .rc }
def KEDG_XEVT3.conn_full : Fld := { off := 0x060, lsb := 16, width := 16, acc := .rc }

/-! `KEDG_PROXY` (R354) -/
def KEDG_PROXY.proxy_used : Fld := { off := 0x064, lsb := 0, width := 15, acc := .ro }
def KEDG_PROXY.proxy_expire : Fld := { off := 0x064, lsb := 16, width := 16, acc := .rc }

/-! `KEDG_REORD` (R354) -/
def KEDG_REORD.reord_lines : Fld := { off := 0x068, lsb := 0, width := 13, acc := .ro }
def KEDG_REORD.reord_drop : Fld := { off := 0x068, lsb := 16, width := 16, acc := .rc }

/-! `KEDG_RATE_SEL` (R354) -/
def KEDG_RATE_SEL.rate_sel : Fld := { off := 0x080, lsb := 0, width := 8, acc := .rw }

/-! `KEDG_RATE_CTX` (R354) -/
def KEDG_RATE_CTX.rctx : Fld := { off := 0x084, lsb := 0, width := 12, acc := .rw, sel := .rate }
def KEDG_RATE_CTX.shp_en : Fld := { off := 0x084, lsb := 12, width := 1, acc := .rw, sel := .rate }
def KEDG_RATE_CTX.pol_en : Fld := { off := 0x084, lsb := 13, width := 1, acc := .rw, sel := .rate }

/-! `KEDG_RATE_SHP` (R354) -/
def KEDG_RATE_SHP.rate : Fld := { off := 0x088, lsb := 0, width := 16, acc := .rw, sel := .rate }
def KEDG_RATE_SHP.burst : Fld := { off := 0x088, lsb := 16, width := 8, acc := .rw, reset := 0x1, rule := .keep 1 255, sel := .rate }

/-! `KEDG_RATE_POL` (R354) -/
def KEDG_RATE_POL.rate : Fld := { off := 0x08C, lsb := 0, width := 16, acc := .rw, sel := .rate }
def KEDG_RATE_POL.burst : Fld := { off := 0x08C, lsb := 16, width := 8, acc := .rw, reset := 0x1, rule := .keep 1 255, sel := .rate }

/-! `KEDG_RATE_CNT` (R354) -/
def KEDG_RATE_CNT.pol_drop : Fld := { off := 0x090, lsb := 0, width := 16, acc := .rc, sel := .rate }
def KEDG_RATE_CNT.shp_held : Fld := { off := 0x090, lsb := 16, width := 16, acc := .rc, sel := .rate }

/-! `KEDG_CW_CFG` (R354) -/
def KEDG_CW_CFG.cw_lead : Fld := { off := 0x0A0, lsb := 0, width := 16, acc := .rw, reset := 0x1000, rule := .keep 1024 16384 }

/-! `KEDG_CW_STAT` (R354) -/
def KEDG_CW_STAT.cw_next : Fld := { off := 0x0A4, lsb := 0, width := 8, acc := .ro }
def KEDG_CW_STAT.cw_open : Fld := { off := 0x0A4, lsb := 8, width := 1, acc := .ro }
def KEDG_CW_STAT.cw_txq : Fld := { off := 0x0A4, lsb := 9, width := 10, acc := .ro }
def KEDG_CW_STAT.cw_rxq : Fld := { off := 0x0A4, lsb := 19, width := 11, acc := .ro }

/-! `KEDG_CW_EVT` (R354) -/
def KEDG_CW_EVT.cw_outside : Fld := { off := 0x0A8, lsb := 0, width := 16, acc := .rc }
def KEDG_CW_EVT.cw_under : Fld := { off := 0x0A8, lsb := 16, width := 16, acc := .rc }

/-! `KEDG_CW_EVT2` (R354) -/
def KEDG_CW_EVT2.cw_overrun : Fld := { off := 0x0AC, lsb := 0, width := 16, acc := .rc }
def KEDG_CW_EVT2.cw_peer_bad : Fld := { off := 0x0AC, lsb := 16, width := 8, acc := .rc }
def KEDG_CW_EVT2.cw_txdrop : Fld := { off := 0x0AC, lsb := 24, width := 8, acc := .rc }

/-! `KEDG_SPN_SEL` (R354) -/
def KEDG_SPN_SEL.spn_sel : Fld := { off := 0x0C0, lsb := 0, width := 4, acc := .rw }
def KEDG_SPN_SEL.spn_ssel : Fld := { off := 0x0C0, lsb := 4, width := 4, acc := .rw }

/-! `KEDG_SPN_CFG` (R354) -/
def KEDG_SPN_CFG.res_dst : Fld := { off := 0x0C4, lsb := 0, width := 12, acc := .rw, sel := .spn }
def KEDG_SPN_CFG.res_herd : Fld := { off := 0x0C4, lsb := 12, width := 1, acc := .rw, sel := .spn }
def KEDG_SPN_CFG.spn_en : Fld := { off := 0x0C4, lsb := 13, width := 1, acc := .rw, sel := .spn }
def KEDG_SPN_CFG.dring : Fld := { off := 0x0C4, lsb := 14, width := 8, acc := .rw, sel := .spn }
def KEDG_SPN_CFG.members : Fld := { off := 0x0C4, lsb := 22, width := 7, acc := .rw, reset := 0x1, sel := .spn }

/-! `KEDG_SPN_EVT` (R354) -/
def KEDG_SPN_EVT.redx_sent : Fld := { off := 0x0DC, lsb := 0, width := 16, acc := .rc, sel := .spn }
def KEDG_SPN_EVT.redx_drop : Fld := { off := 0x0DC, lsb := 16, width := 16, acc := .rc, sel := .spn }

/-! `KSTN_IRQ_SRC` (R375) -/
def KSTN_IRQ_SRC.prio : Fld := { off := 0xB00, lsb := 0, width := 3, acc := .rw, stride := 4, count := 32 }
def KSTN_IRQ_SRC.level : Fld := { off := 0xB00, lsb := 3, width := 1, acc := .ro, stride := 4, count := 32 }
def KSTN_IRQ_SRC.ccount : Fld := { off := 0xB00, lsb := 4, width := 8, acc := .rw, reset := 0x1, rule := .keep 1 255, stride := 4, count := 32 }
def KSTN_IRQ_SRC.ctime : Fld := { off := 0xB00, lsb := 12, width := 14, acc := .rw, stride := 4, count := 32 }

/-! `KSTN_IRQ_THR` (R375) -/
def KSTN_IRQ_THR.thr : Fld := { off := 0xB80, lsb := 0, width := 3, acc := .rw }
def KSTN_IRQ_THR.run_bank : Fld := { off := 0xB80, lsb := 3, width := 3, acc := .ro }
def KSTN_IRQ_THR.run_stack : Fld := { off := 0xB80, lsb := 6, width := 3, acc := .ro }
def KSTN_IRQ_THR.depth : Fld := { off := 0xB80, lsb := 9, width := 3, acc := .ro }

/-! `KSTN_IRQ_CLAIM` (R375) -/
def KSTN_IRQ_CLAIM.cnum : Fld := { off := 0xB84, lsb := 0, width := 7, acc := .rc }
def KSTN_IRQ_CLAIM.corig : Fld := { off := 0xB84, lsb := 7, width := 2, acc := .rc }
def KSTN_IRQ_CLAIM.cprio : Fld := { off := 0xB84, lsb := 9, width := 3, acc := .rc }
def KSTN_IRQ_CLAIM.cevents : Fld := { off := 0xB84, lsb := 12, width := 8, acc := .rc }

/-! `KSTN_IRQ_DONE` (R375) -/
def KSTN_IRQ_DONE.dnum : Fld := { off := 0xB88, lsb := 0, width := 5, acc := .wo }

/-! `KSTN_IRQ_SET` (R375) -/
def KSTN_IRQ_SET.swset : Fld := { off := 0xB8C, lsb := 24, width := 8, acc := .wo }

/-! `KSTN_IRQ_PEND` (R375) -/
def KSTN_IRQ_PEND.pend : Fld := { off := 0xB90, lsb := 0, width := 32, acc := .ro }

/-! `KSTN_IRQ_ACT` (R375) -/
def KSTN_IRQ_ACT.act : Fld := { off := 0xB94, lsb := 0, width := 32, acc := .ro }

/-! `KSTN_RIRQ_EOI` (R375) -/
def KSTN_RIRQ_EOI.enum : Fld := { off := 0xB98, lsb := 0, width := 7, acc := .wo }
def KSTN_RIRQ_EOI.eorig : Fld := { off := 0xB98, lsb := 7, width := 2, acc := .wo }

/-! `KSTN_IRQ_EVT` (R375) -/
def KSTN_IRQ_EVT.done_bad : Fld := { off := 0xB9C, lsb := 0, width := 16, acc := .rc }
def KSTN_IRQ_EVT.eoi_bad : Fld := { off := 0xB9C, lsb := 16, width := 16, acc := .rc }

/-! `KINT_RSRC_CFG` (R376) -/
def KINT_RSRC_CFG.prio : Fld := { off := 0x000, lsb := 0, width := 3, acc := .rw, stride := 8, count := 64 }
def KINT_RSRC_CFG.level : Fld := { off := 0x000, lsb := 3, width := 1, acc := .ro, stride := 8, count := 64 }
def KINT_RSRC_CFG.ttype : Fld := { off := 0x000, lsb := 4, width := 2, acc := .rw, reset := 0x2, rule := .keep 0 2, stride := 8, count := 64 }
def KINT_RSRC_CFG.tcore : Fld := { off := 0x000, lsb := 6, width := 12, acc := .rw, stride := 8, count := 64 }

/-! `KINT_PSRC_CFG` (R376) -/
def KINT_PSRC_CFG.prio : Fld := { off := 0x000, lsb := 0, width := 3, acc := .rw, stride := 8, count := 128 }
def KINT_PSRC_CFG.level : Fld := { off := 0x000, lsb := 3, width := 1, acc := .ro, stride := 8, count := 128 }
def KINT_PSRC_CFG.ttype : Fld := { off := 0x000, lsb := 4, width := 2, acc := .rw, reset := 0x2, rule := .keep 0 2, stride := 8, count := 128 }
def KINT_PSRC_CFG.tcore : Fld := { off := 0x000, lsb := 6, width := 12, acc := .rw, stride := 8, count := 128 }

/-! `KINT_RPEND_LO` (R376) -/
def KINT_RPEND_LO.rpend : Fld := { off := 0x200, lsb := 0, width := 32, acc := .ro }

/-! `KINT_RPEND_HI` (R376) -/
def KINT_RPEND_HI.rpend : Fld := { off := 0x204, lsb := 0, width := 32, acc := .ro }

/-! `KINT_RACT_LO` (R376) -/
def KINT_RACT_LO.ract : Fld := { off := 0x208, lsb := 0, width := 32, acc := .ro }

/-! `KINT_RACT_HI` (R376) -/
def KINT_RACT_HI.ract : Fld := { off := 0x20C, lsb := 0, width := 32, acc := .ro }

/-! `KINT_RSWSET` (R376) -/
def KINT_RSWSET.rswset : Fld := { off := 0x210, lsb := 0, width := 32, acc := .wo }

/-! `KINT_RSTK_SEL` (R376) -/
def KINT_RSTK_SEL.stk_core : Fld := { off := 0x220, lsb := 0, width := 4, acc := .rw }

/-! `KINT_RSTK` (R376) -/
def KINT_RSTK.sdepth : Fld := { off := 0x224, lsb := 0, width := 3, acc := .ro }
def KINT_RSTK.stop_prio : Fld := { off := 0x224, lsb := 3, width := 3, acc := .ro }
def KINT_RSTK.stop_orig : Fld := { off := 0x224, lsb := 6, width := 2, acc := .ro }
def KINT_RSTK.stop_num : Fld := { off := 0x224, lsb := 8, width := 7, acc := .ro }

/-! `KINT_PPEND` (R376) -/
def KINT_PPEND.ppend : Fld := { off := 0x400, lsb := 0, width := 32, acc := .ro, stride := 4, count := 4 }

/-! `KINT_PACT` (R376) -/
def KINT_PACT.pact : Fld := { off := 0x410, lsb := 0, width := 32, acc := .ro, stride := 4, count := 4 }

/-! `KINT_PSWSET` (R376) -/
def KINT_PSWSET.pswset : Fld := { off := 0x420, lsb := 0, width := 16, acc := .wo }

/-! `KINT_FMP_THR` (R376) -/
def KINT_FMP_THR.thr : Fld := { off := 0x430, lsb := 0, width := 3, acc := .rw }
def KINT_FMP_THR.run : Fld := { off := 0x430, lsb := 3, width := 3, acc := .ro }

/-! `KINT_HOST_THR` (R376) -/
def KINT_HOST_THR.thr : Fld := { off := 0x440, lsb := 0, width := 3, acc := .rw }
def KINT_HOST_THR.run : Fld := { off := 0x440, lsb := 3, width := 3, acc := .ro }

/-! `KINT_PEVT` (R376) -/
def KINT_PEVT.eoi_bad_fmp : Fld := { off := 0x450, lsb := 0, width := 16, acc := .rc }
def KINT_PEVT.eoi_bad_host : Fld := { off := 0x450, lsb := 16, width := 16, acc := .rc }

/-! `KINT_FMP_CLAIM` (R376) -/
def KINT_FMP_CLAIM.cnum : Fld := { off := 0x434, lsb := 0, width := 7, acc := .rc }
def KINT_FMP_CLAIM.corig : Fld := { off := 0x434, lsb := 7, width := 2, acc := .rc }
def KINT_FMP_CLAIM.cprio : Fld := { off := 0x434, lsb := 9, width := 3, acc := .rc }
def KINT_FMP_CLAIM.cevents : Fld := { off := 0x434, lsb := 12, width := 8, acc := .rc }
def KINT_FMP_CLAIM.creg : Fld := { off := 0x434, lsb := 20, width := 8, acc := .rc }

/-! `KINT_HOST_CLAIM` (R376) -/
def KINT_HOST_CLAIM.cnum : Fld := { off := 0x444, lsb := 0, width := 7, acc := .rc }
def KINT_HOST_CLAIM.corig : Fld := { off := 0x444, lsb := 7, width := 2, acc := .rc }
def KINT_HOST_CLAIM.cprio : Fld := { off := 0x444, lsb := 9, width := 3, acc := .rc }
def KINT_HOST_CLAIM.cevents : Fld := { off := 0x444, lsb := 12, width := 8, acc := .rc }
def KINT_HOST_CLAIM.creg : Fld := { off := 0x444, lsb := 20, width := 8, acc := .rc }

/-! `KINT_FMP_EOI` (R376) -/
def KINT_FMP_EOI.enum : Fld := { off := 0x438, lsb := 0, width := 7, acc := .wo }
def KINT_FMP_EOI.eorig : Fld := { off := 0x438, lsb := 7, width := 2, acc := .wo }
def KINT_FMP_EOI.ereg : Fld := { off := 0x438, lsb := 20, width := 8, acc := .wo }

/-! `KINT_HOST_EOI` (R376) -/
def KINT_HOST_EOI.enum : Fld := { off := 0x448, lsb := 0, width := 7, acc := .wo }
def KINT_HOST_EOI.eorig : Fld := { off := 0x448, lsb := 7, width := 2, acc := .wo }
def KINT_HOST_EOI.ereg : Fld := { off := 0x448, lsb := 20, width := 8, acc := .wo }

/-! `KFLT_STATE` (R411) -/
def KFLT_STATE.fstate : Fld := { off := 0x000, lsb := 0, width := 2, acc := .ro }
def KFLT_STATE.fatal_now : Fld := { off := 0x000, lsb := 2, width := 1, acc := .ro }

/-! `KFLT_RCV` (R411) -/
def KFLT_RCV.recoveries : Fld := { off := 0x004, lsb := 0, width := 16, acc := .ro }
def KFLT_RCV.rc_win : Fld := { off := 0x004, lsb := 16, width := 4, acc := .ro }

/-! `KFLT_CFG` (R411) -/
def KFLT_CFG.lt_count : Fld := { off := 0x008, lsb := 0, width := 8, acc := .rw, reset := 0x10, rule := .keep 1 255 }
def KFLT_CFG.lt_win : Fld := { off := 0x008, lsb := 8, width := 16, acc := .rw, reset := 0x3E8, rule := .keep 1 65535 }

/-! `KFLT_GROUPS` (R411) -/
def KFLT_GROUPS.groups : Fld := { off := 0x00C, lsb := 0, width := 32, acc := .ro }

/-! `KFLT_FLTMASK` (R411) -/
def KFLT_FLTMASK.flt_mask : Fld := { off := 0x010, lsb := 0, width := 32, acc := .rw }

/-! `KFLT_STOT` (R411) -/
def KFLT_STOT.stot : Fld := { off := 0x014, lsb := 0, width := 1, acc := .ro }
def KFLT_STOT.stot_run : Fld := { off := 0x014, lsb := 1, width := 1, acc := .ro }
def KFLT_STOT.hb_ok : Fld := { off := 0x014, lsb := 2, width := 1, acc := .ro }

/-! `KFLT_INJ` (R411) -/
def KFLT_INJ.inj_fatal : Fld := { off := 0x018, lsb := 0, width := 1, acc := .wo }
def KFLT_INJ.inj_corr : Fld := { off := 0x018, lsb := 1, width := 1, acc := .wo }
def KFLT_INJ.inj_uncorr : Fld := { off := 0x018, lsb := 2, width := 1, acc := .wo }
def KFLT_INJ.inj_src : Fld := { off := 0x018, lsb := 4, width := 9, acc := .wo }

/-! `KFLT_LT_SEL` (R411) -/
def KFLT_LT_SEL.lt_src : Fld := { off := 0x020, lsb := 0, width := 9, acc := .rw }

/-! `KFLT_LT` (R411) -/
def KFLT_LT.lt_n : Fld := { off := 0x024, lsb := 0, width := 8, acc := .ro, sel := .lt }
def KFLT_LT.lasting : Fld := { off := 0x024, lsb := 8, width := 1, acc := .ro, sel := .lt }

/-! `KFLT_SPARE` (R411) -/
def KFLT_SPARE.sites_free : Fld := { off := 0x030, lsb := 0, width := 7, acc := .ro, reset := 0x2 }
def KFLT_SPARE.beams_free : Fld := { off := 0x030, lsb := 7, width := 3, acc := .ro, reset := 0x2 }
def KFLT_SPARE.stations_free : Fld := { off := 0x030, lsb := 10, width := 8, acc := .ro, reset := 0x84 }

/-! `KFLT_DMAP_SEL` (R411) -/
def KFLT_DMAP_SEL.dmap_ldie : Fld := { off := 0x040, lsb := 0, width := 6, acc := .rw }

/-! `KFLT_DMAP` (R411) -/
def KFLT_DMAP.dsite : Fld := { off := 0x044, lsb := 0, width := 7, acc := .ro, sel := .dmap }

/-! `KFLT_SMAP_SEL` (R411) -/
def KFLT_SMAP_SEL.smap_preg : Fld := { off := 0x048, lsb := 0, width := 8, acc := .rw }

/-! `KFLT_SMAP` (R411) -/
def KFLT_SMAP.spos : Fld := { off := 0x04C, lsb := 0, width := 4, acc := .ro, sel := .smap }
def KFLT_SMAP.sbound : Fld := { off := 0x04C, lsb := 4, width := 1, acc := .ro, sel := .smap }
def KFLT_SMAP.sfail : Fld := { off := 0x04C, lsb := 5, width := 1, acc := .ro, sel := .smap }

/-! `KFLT_BOND_SEL` (R411) -/
def KFLT_BOND_SEL.bond : Fld := { off := 0x060, lsb := 0, width := 10, acc := .rw }
def KFLT_BOND_SEL.bdir : Fld := { off := 0x060, lsb := 10, width := 1, acc := .rw }
def KFLT_BOND_SEL.bgrp : Fld := { off := 0x060, lsb := 11, width := 6, acc := .rw }

/-! `KFLT_BOND` (R411) -/
def KFLT_BOND.bgroups : Fld := { off := 0x064, lsb := 0, width := 6, acc := .ro, sel := .bond }
def KFLT_BOND.bspares_used : Fld := { off := 0x064, lsb := 6, width := 2, acc := .ro, sel := .bond }
def KFLT_BOND.bsteer0 : Fld := { off := 0x064, lsb := 8, width := 6, acc := .ro, sel := .bond }
def KFLT_BOND.bsteer1 : Fld := { off := 0x064, lsb := 14, width := 6, acc := .ro, sel := .bond }
def KFLT_BOND.bdead : Fld := { off := 0x064, lsb := 20, width := 1, acc := .ro, sel := .bond }

/-! `KFLT_STICKY` (R411) -/
def KFLT_STICKY.sticky : Fld := { off := 0x100, lsb := 0, width := 32, acc := .w1c, stride := 4, count := 32 }

/-! `KRTR_SINK` (R412) -/
def KRTR_SINK.sink_ports : Fld := { off := 0xD00, lsb := 0, width := 17, acc := .ro }

/-! `KRTR_SINK_CNT` (R412) -/
def KRTR_SINK_CNT.sink_drop : Fld := { off := 0xD04, lsb := 0, width := 16, acc := .rc }
def KRTR_SINK_CNT.sink_cells : Fld := { off := 0xD04, lsb := 16, width := 16, acc := .rc }

/-! `KRTR_PROW` (R412) -/
def KRTR_PROW.prow_free : Fld := { off := 0xD08, lsb := 0, width := 5, acc := .ro, reset := 0x10 }
def KRTR_PROW.crow_free : Fld := { off := 0xD08, lsb := 8, width := 4, acc := .ro, reset := 0x8 }

/-! `KSTN_FENCE` (R413) -/
def KSTN_FENCE.fenced_all : Fld := { off := 0xC00, lsb := 0, width := 1, acc := .ro }
def KSTN_FENCE.walk : Fld := { off := 0xC00, lsb := 1, width := 1, acc := .ro }

/-! `KSTN_FCTX_SEL` (R413) -/
def KSTN_FCTX_SEL.fctx_word : Fld := { off := 0xC04, lsb := 0, width := 7, acc := .rw }

/-! `KSTN_FCTX` (R413) -/
def KSTN_FCTX.fctx : Fld := { off := 0xC08, lsb := 0, width := 32, acc := .ro }

/-! `KSTN_DEADEP_SEL` (R413) -/
def KSTN_DEADEP_SEL.dep_word : Fld := { off := 0xC10, lsb := 0, width := 7, acc := .rw }

/-! `KSTN_DEADEP` (R413) -/
def KSTN_DEADEP.dead_ep : Fld := { off := 0xC14, lsb := 0, width := 32, acc := .ro }

/-! `KGBL_CTX_SEL` (R438) -/
def KGBL_CTX_SEL.ctx_sel : Fld := { off := 0x400, lsb := 0, width := 12, acc := .rw }

/-! `KGBL_CTX` (R438) -/
def KGBL_CTX.cstate : Fld := { off := 0x404, lsb := 0, width := 3, acc := .ro, sel := .ctx }
def KGBL_CTX.cremote : Fld := { off := 0x404, lsb := 3, width := 1, acc := .ro, sel := .ctx }
def KGBL_CTX.suspect : Fld := { off := 0x404, lsb := 4, width := 1, acc := .ro, sel := .ctx }
def KGBL_CTX.rpend : Fld := { off := 0x404, lsb := 5, width := 1, acc := .ro, sel := .ctx }
def KGBL_CTX.dpend : Fld := { off := 0x404, lsb := 6, width := 1, acc := .ro, sel := .ctx }
def KGBL_CTX.guilty : Fld := { off := 0x404, lsb := 7, width := 1, acc := .ro, sel := .ctx }
def KGBL_CTX.dslot : Fld := { off := 0x404, lsb := 8, width := 2, acc := .ro, sel := .ctx }
def KGBL_CTX.clanes : Fld := { off := 0x404, lsb := 16, width := 16, acc := .ro, sel := .ctx }

/-! `KGBL_CTX_CNT` (R438) -/
def KGBL_CTX_CNT.live_ctx : Fld := { off := 0x408, lsb := 0, width := 9, acc := .ro }
def KGBL_CTX_CNT.drains : Fld := { off := 0x408, lsb := 9, width := 3, acc := .ro }
def KGBL_CTX_CNT.drain_forced : Fld := { off := 0x408, lsb := 16, width := 16, acc := .rc }

/-! `KGBL_HB` (R438) -/
def KGBL_HB.beat : Fld := { off := 0x410, lsb := 0, width := 1, acc := .wo }
def KGBL_HB.beats : Fld := { off := 0x410, lsb := 16, width := 16, acc := .ro }

/-! `KGBL_ENGWD` (R438) -/
def KGBL_ENGWD.eng_wd_log2 : Fld := { off := 0x420, lsb := 0, width := 5, acc := .rw, reset := 0x14 }
def KGBL_ENGWD.replay_log2 : Fld := { off := 0x420, lsb := 8, width := 5, acc := .rw, reset := 0x15 }

/-! `KGBL_HANG` (R438) -/
def KGBL_HANG.eng_class : Fld := { off := 0x424, lsb := 0, width := 4, acc := .ro }
def KGBL_HANG.eng_index : Fld := { off := 0x424, lsb := 4, width := 12, acc := .ro }
def KGBL_HANG.guilty_ctx : Fld := { off := 0x424, lsb := 16, width := 12, acc := .ro }
def KGBL_HANG.search : Fld := { off := 0x424, lsb := 28, width := 1, acc := .ro }
def KGBL_HANG.guilty_v : Fld := { off := 0x424, lsb := 29, width := 1, acc := .ro }

/-! `KGBL_HANG_CNT` (R438) -/
def KGBL_HANG_CNT.bites : Fld := { off := 0x428, lsb := 0, width := 8, acc := .rc }
def KGBL_HANG_CNT.searches : Fld := { off := 0x428, lsb := 8, width := 8, acc := .rc }
def KGBL_HANG_CNT.guilty_found : Fld := { off := 0x428, lsb := 16, width := 8, acc := .rc }
def KGBL_HANG_CNT.unresolved : Fld := { off := 0x428, lsb := 24, width := 8, acc := .rc }

/-! `KGBL_PKG` (R479) -/
def KGBL_PKG.pkg_num : Fld := { off := 0x020, lsb := 0, width := 17, acc := .rw }
def KGBL_PKG.pkg_reject : Fld := { off := 0x020, lsb := 31, width := 1, acc := .w1c }

/-! `KGBL_BOOT` (R479) -/
def KGBL_BOOT.stage : Fld := { off := 0x100, lsb := 0, width := 3, acc := .ro }
def KGBL_BOOT.mp_ready : Fld := { off := 0x100, lsb := 3, width := 1, acc := .ro }
def KGBL_BOOT.pstep : Fld := { off := 0x100, lsb := 4, width := 4, acc := .ro }
def KGBL_BOOT.presult : Fld := { off := 0x100, lsb := 8, width := 2, acc := .ro }
def KGBL_BOOT.ptime : Fld := { off := 0x100, lsb := 16, width := 16, acc := .ro }

/-! `KGBL_PATCH` (R479) -/
def KGBL_PATCH.pstate : Fld := { off := 0x104, lsb := 0, width := 2, acc := .ro }
def KGBL_PATCH.psv : Fld := { off := 0x104, lsb := 16, width := 16, acc := .ro }

/-! `KGBL_SITE_SEL` (R479) -/
def KGBL_SITE_SEL.site_sel : Fld := { off := 0x110, lsb := 0, width := 7, acc := .rw }

/-! `KGBL_SITE` (R479) -/
def KGBL_SITE.pon : Fld := { off := 0x114, lsb := 0, width := 1, acc := .ro, sel := .site }
def KGBL_SITE.pgood : Fld := { off := 0x114, lsb := 1, width := 1, acc := .ro, sel := .site }
def KGBL_SITE.slp_req : Fld := { off := 0x114, lsb := 2, width := 1, acc := .ro, sel := .site }
def KGBL_SITE.slp_ack : Fld := { off := 0x114, lsb := 3, width := 1, acc := .ro, sel := .site }
def KGBL_SITE.slp_wait : Fld := { off := 0x114, lsb := 4, width := 1, acc := .ro, sel := .site }
def KGBL_SITE.sfailed : Fld := { off := 0x114, lsb := 5, width := 1, acc := .ro, sel := .site }

/-! `KGBL_GOV` (R479) -/
def KGBL_GOV.p_target : Fld := { off := 0x500, lsb := 0, width := 10, acc := .ro }
def KGBL_GOV.p_real : Fld := { off := 0x500, lsb := 10, width := 10, acc := .ro }
def KGBL_GOV.lend_duty : Fld := { off := 0x500, lsb := 20, width := 7, acc := .ro, reset := 0x1 }

/-! `KGBL_GOV_PLATE` (R479) -/
def KGBL_GOV_PLATE.p_active : Fld := { off := 0x504, lsb := 0, width := 10, acc := .ro }
def KGBL_GOV_PLATE.p_staged : Fld := { off := 0x504, lsb := 16, width := 10, acc := .ro }

/-! `KGBL_GOV_EVT` (R479) -/
def KGBL_GOV_EVT.gov_hold : Fld := { off := 0x508, lsb := 0, width := 16, acc := .rc }
def KGBL_GOV_EVT.duty_cut : Fld := { off := 0x508, lsb := 16, width := 16, acc := .rc }

/-! `KCMD_QCFG` (R480) -/
def KCMD_QCFG.qen : Fld := { off := 0x000, lsb := 0, width := 1, acc := .rw, reset := 0x1 }

/-! `KCMD_QTAIL` (R480) -/
def KCMD_QTAIL.ctail : Fld := { off := 0x004, lsb := 0, width := 7, acc := .rw }

/-! `KCMD_QHEAD` (R480) -/
def KCMD_QHEAD.chead : Fld := { off := 0x008, lsb := 0, width := 7, acc := .ro }
def KCMD_QHEAD.cphase : Fld := { off := 0x008, lsb := 7, width := 1, acc := .ro, reset := 0x1 }
def KCMD_QHEAD.running : Fld := { off := 0x008, lsb := 8, width := 4, acc := .ro }

/-! `KCMD_QEVT` (R480) -/
def KCMD_QEVT.dups : Fld := { off := 0x00C, lsb := 0, width := 16, acc := .rc }
def KCMD_QEVT.cmd_bad : Fld := { off := 0x00C, lsb := 16, width := 16, acc := .rc }

/-! `K_ECFG` (R485) -/
def K_ECFG.event : Fld := { off := 0xD10, lsb := 0, width := 8, acc := .rw, stride := 16, count := 4 }
def K_ECFG.emode : Fld := { off := 0xD10, lsb := 8, width := 2, acc := .rw, stride := 16, count := 4 }
def K_ECFG.chain : Fld := { off := 0xD10, lsb := 10, width := 1, acc := .rw, stride := 16, count := 4 }
def K_ECFG.ectx_en : Fld := { off := 0xD10, lsb := 11, width := 1, acc := .rw, stride := 16, count := 4 }
def K_ECFG.ectx : Fld := { off := 0xD10, lsb := 12, width := 12, acc := .rw, stride := 16, count := 4 }

/-! `K_ETHR` (R485) -/
def K_ETHR.ethr : Fld := { off := 0xD14, lsb := 0, width := 16, acc := .rw, stride := 16, count := 4 }
def K_ETHR.eport : Fld := { off := 0xD14, lsb := 16, width := 6, acc := .rw, stride := 16, count := 4 }
def K_ETHR.evc : Fld := { off := 0xD14, lsb := 22, width := 4, acc := .rw, stride := 16, count := 4 }
def K_ETHR.ecfg_reject : Fld := { off := 0xD14, lsb := 31, width := 1, acc := .w1c, stride := 16, count := 4 }

/-! `K_ECNT` (R485) -/
def K_ECNT.ecnt : Fld := { off := 0xD18, lsb := 0, width := 32, acc := .rw, stride := 16, count := 4 }

/-! `K_EOVF` (R485) -/
def K_EOVF.eovf : Fld := { off := 0xD1C, lsb := 0, width := 1, acc := .w1c, stride := 16, count := 4 }

/-! `KOBS_RD_ADDR` (R502) -/
def KOBS_RD_ADDR.rd_addr : Fld := { off := 0x000, lsb := 0, width := 26, acc := .wo }

/-! `KOBS_RD_CTX` (R502) -/
def KOBS_RD_CTX.rd_ctx : Fld := { off := 0x004, lsb := 0, width := 12, acc := .rw }

/-! `KOBS_RD_STAT` (R502) -/
def KOBS_RD_STAT.rd_busy : Fld := { off := 0x008, lsb := 0, width := 1, acc := .ro }
def KOBS_RD_STAT.rd_status : Fld := { off := 0x008, lsb := 8, width := 8, acc := .ro }
def KOBS_RD_STAT.rd_denied : Fld := { off := 0x008, lsb := 16, width := 16, acc := .rc }

/-! `KOBS_RD_VAL_LO` (R502) -/
def KOBS_RD_VAL_LO.rd_val : Fld := { off := 0x010, lsb := 0, width := 32, acc := .ro }

/-! `KOBS_RD_VAL_HI` (R502) -/
def KOBS_RD_VAL_HI.rd_val : Fld := { off := 0x014, lsb := 0, width := 32, acc := .ro }

/-! `KOBS_RD_STAMP_LO` (R502) -/
def KOBS_RD_STAMP_LO.rd_stamp : Fld := { off := 0x018, lsb := 0, width := 32, acc := .ro }

/-! `KOBS_RD_STAMP_HI` (R502) -/
def KOBS_RD_STAMP_HI.rd_stamp : Fld := { off := 0x01C, lsb := 0, width := 32, acc := .ro }

/-! `KOBS_CAP_SEL` (R502) -/
def KOBS_CAP_SEL.cap_unit : Fld := { off := 0x100, lsb := 0, width := 32, acc := .rw }

/-! `KOBS_CAP_CFG` (R502) -/
def KOBS_CAP_CFG.cap_en : Fld := { off := 0x104, lsb := 0, width := 1, acc := .rw, reset := 0x1, sel := .cap }
def KOBS_CAP_CFG.hctx_en : Fld := { off := 0x104, lsb := 1, width := 1, acc := .rw, sel := .cap }
def KOBS_CAP_CFG.hctx : Fld := { off := 0x104, lsb := 4, width := 12, acc := .rw, sel := .cap }

/-! `KOBS_TRC_SRC` (R502) -/
def KOBS_TRC_SRC.tkind : Fld := { off := 0x200, lsb := 0, width := 3, acc := .rw, reset := 0x7, stride := 32, count := 16 }
def KOBS_TRC_SRC.tunit_type : Fld := { off := 0x200, lsb := 3, width := 3, acc := .rw, stride := 32, count := 16 }
def KOBS_TRC_SRC.tunit_index : Fld := { off := 0x200, lsb := 6, width := 12, acc := .rw, stride := 32, count := 16 }
def KOBS_TRC_SRC.tport : Fld := { off := 0x200, lsb := 18, width := 6, acc := .rw, stride := 32, count := 16 }
def KOBS_TRC_SRC.tnet : Fld := { off := 0x200, lsb := 24, width := 2, acc := .rw, stride := 32, count := 16 }

/-! `KOBS_TRC_FILT` (R502) -/
def KOBS_TRC_FILT.tctx : Fld := { off := 0x204, lsb := 0, width := 12, acc := .rw, stride := 32, count := 16 }
def KOBS_TRC_FILT.tctx_en : Fld := { off := 0x204, lsb := 12, width := 1, acc := .rw, stride := 32, count := 16 }

/-! `KOBS_TRC_STAT` (R502) -/
def KOBS_TRC_STAT.tstate : Fld := { off := 0x208, lsb := 0, width := 2, acc := .ro, stride := 32, count := 16 }
def KOBS_TRC_STAT.dumped : Fld := { off := 0x208, lsb := 2, width := 1, acc := .ro, stride := 32, count := 16 }
def KOBS_TRC_STAT.tstop : Fld := { off := 0x208, lsb := 3, width := 1, acc := .wo, stride := 32, count := 16 }
def KOBS_TRC_STAT.tcount : Fld := { off := 0x208, lsb := 4, width := 12, acc := .ro, stride := 32, count := 16 }
def KOBS_TRC_STAT.trc_lost : Fld := { off := 0x208, lsb := 16, width := 16, acc := .rc, stride := 32, count := 16 }

/-! `KOBS_TRC_TSTAMP_LO` (R502) -/
def KOBS_TRC_TSTAMP_LO.tstamp : Fld := { off := 0x20C, lsb := 0, width := 32, acc := .ro, stride := 32, count := 16 }

/-! `KOBS_TRC_TSTAMP_HI` (R502) -/
def KOBS_TRC_TSTAMP_HI.tstamp : Fld := { off := 0x210, lsb := 0, width := 32, acc := .ro, stride := 32, count := 16 }

/-! `KOBS_TRC_RSEL` (R502) -/
def KOBS_TRC_RSEL.rsel_buf : Fld := { off := 0x400, lsb := 0, width := 4, acc := .rw }
def KOBS_TRC_RSEL.rsel_rec : Fld := { off := 0x400, lsb := 4, width := 11, acc := .rw }
def KOBS_TRC_RSEL.rsel_word : Fld := { off := 0x400, lsb := 15, width := 3, acc := .rw }

/-! `KOBS_TRC_RDATA` (R502) -/
def KOBS_TRC_RDATA.rdata : Fld := { off := 0x404, lsb := 0, width := 32, acc := .ro }

/-! `KSTN_ORD_ADDR` (R503) -/
def KSTN_ORD_ADDR.ord_addr : Fld := { off := 0xD80, lsb := 0, width := 26, acc := .wo }
def KSTN_ORD_ADDR.ord_dq : Fld := { off := 0xD80, lsb := 26, width := 3, acc := .wo }

/-! `KSTN_ORD_STAT` (R503) -/
def KSTN_ORD_STAT.ord_busy : Fld := { off := 0xD84, lsb := 0, width := 1, acc := .ro }
def KSTN_ORD_STAT.ord_status : Fld := { off := 0xD84, lsb := 8, width := 8, acc := .ro }
def KSTN_ORD_STAT.ord_denied : Fld := { off := 0xD84, lsb := 16, width := 16, acc := .rc }

/-! `KSTN_ORD_VAL` (R503) -/
def KSTN_ORD_VAL.ord_val : Fld := { off := 0xD88, lsb := 0, width := 32, acc := .ro }

/-! `KSTN_ORD_STAMP_LO` (R503) -/
def KSTN_ORD_STAMP_LO.ord_stamp : Fld := { off := 0xD8C, lsb := 0, width := 32, acc := .ro }

/-! `KSTN_ORD_STAMP_HI` (R503) -/
def KSTN_ORD_STAMP_HI.ord_stamp : Fld := { off := 0xD90, lsb := 0, width := 32, acc := .ro }

/-! `KRTR_SCH_FLT` (R127) -/
def KRTR_SCH_FLT.lane_fault : Fld := { off := 0xC00, lsb := 0, width := 8, acc := .rc }
def KRTR_SCH_FLT.lend_fault : Fld := { off := 0xC00, lsb := 8, width := 8, acc := .rc }
def KRTR_SCH_FLT.uncorr : Fld := { off := 0xC00, lsb := 16, width := 8, acc := .rc }
def KRTR_SCH_FLT.row_fault : Fld := { off := 0xC00, lsb := 24, width := 8, acc := .rc }

/-! `KMSP_WIN_BASE_LO` (R314) -/
def KMSP_WIN_BASE_LO.wbase_lo : Fld := { off := 0x124, lsb := 12, width := 20, acc := .ro, sel := .mwin }

/-! `KMSP_WIN_BASE_HI` (R314) -/
def KMSP_WIN_BASE_HI.wbase_hi : Fld := { off := 0x128, lsb := 0, width := 32, acc := .ro, sel := .mwin }

/-! `KMSP_WIN_LIM_LO` (R314) -/
def KMSP_WIN_LIM_LO.wlim_lo : Fld := { off := 0x12C, lsb := 12, width := 20, acc := .ro, sel := .mwin }

/-! `KMSP_WIN_LIM_HI` (R314) -/
def KMSP_WIN_LIM_HI.wlim_hi : Fld := { off := 0x130, lsb := 0, width := 32, acc := .ro, sel := .mwin }

/-! `KMSP_WIN_CFG` (R314) -/
def KMSP_WIN_CFG.wvalid : Fld := { off := 0x134, lsb := 0, width := 1, acc := .ro, sel := .mwin }
def KMSP_WIN_CFG.wr : Fld := { off := 0x134, lsb := 2, width := 1, acc := .ro, sel := .mwin }
def KMSP_WIN_CFG.ww : Fld := { off := 0x134, lsb := 3, width := 1, acc := .ro, sel := .mwin }
def KMSP_WIN_CFG.wa : Fld := { off := 0x134, lsb := 4, width := 1, acc := .ro, sel := .mwin }
def KMSP_WIN_CFG.wctx : Fld := { off := 0x134, lsb := 16, width := 12, acc := .ro, sel := .mwin }

/-! `KEDG_SPN_RADDR_LO` (R354) -/
def KEDG_SPN_RADDR_LO.raddr_lo : Fld := { off := 0x0C8, lsb := 6, width := 26, acc := .rw, sel := .spn, guarded := true }

/-! `KEDG_SPN_RADDR_HI` (R354) -/
def KEDG_SPN_RADDR_HI.raddr_hi : Fld := { off := 0x0CC, lsb := 0, width := 32, acc := .rw, sel := .spn, guarded := true }

/-! `KEDG_SPN_SLOT0` (R354) -/
def KEDG_SPN_SLOT0.s_src : Fld := { off := 0x0D0, lsb := 0, width := 12, acc := .rw, sel := .spnSlot, guarded := true }
def KEDG_SPN_SLOT0.s_chan : Fld := { off := 0x0D0, lsb := 12, width := 8, acc := .rw, sel := .spnSlot, guarded := true }
def KEDG_SPN_SLOT0.s_valid : Fld := { off := 0x0D0, lsb := 20, width := 1, acc := .rw, sel := .spnSlot, guarded := true }

/-! `KEDG_SPN_SLOT1` (R354) -/
def KEDG_SPN_SLOT1.s_pkg : Fld := { off := 0x0D4, lsb := 0, width := 17, acc := .rw, sel := .spnSlot, guarded := true }

/-! `KEDG_SPN_SLOT2` (R354) -/
def KEDG_SPN_SLOT2.s_share : Fld := { off := 0x0D8, lsb := 0, width := 15, acc := .rw, sel := .spnSlot, guarded := true }
def KEDG_SPN_SLOT2.s_pend : Fld := { off := 0x0D8, lsb := 16, width := 15, acc := .ro, sel := .spnSlot }

/-! `KSTN_PROW` (R413) -/
def KSTN_PROW.prow_free : Fld := { off := 0xC0C, lsb := 0, width := 5, acc := .ro, reset := 0x10 }

/-! `KINT_RSRC_COAL` (R376) -/
def KINT_RSRC_COAL.ccount : Fld := { off := 0x004, lsb := 0, width := 8, acc := .rw, reset := 0x1, rule := .keep 1 255, stride := 8, count := 64 }
def KINT_RSRC_COAL.ctime : Fld := { off := 0x004, lsb := 8, width := 14, acc := .rw, stride := 8, count := 64 }

/-! `KINT_PSRC_COAL` (R376) -/
def KINT_PSRC_COAL.ccount : Fld := { off := 0x004, lsb := 0, width := 8, acc := .rw, reset := 0x1, rule := .keep 1 255, stride := 8, count := 128 }
def KINT_PSRC_COAL.ctime : Fld := { off := 0x004, lsb := 8, width := 14, acc := .rw, stride := 8, count := 128 }

/-- Fields of the `gbl` window, part 0. -/
def gblFields0 : List Fld :=
  [KGBL_IDENT.major, KGBL_IDENT.minor, KGBL_TOPO0.cd_sites, KGBL_TOPO0.cd_active,
   KGBL_TOPO0.slices, KGBL_TOPO0.edge_ports, KGBL_TOPO1.tines, KGBL_TOPO1.beams,
   KGBL_TOPO1.beams_active, KGBL_TOPO1.regions_active, KGBL_RGEN.gen_cur, KGBL_RGEN.gen_drain,
   KGBL_RGEN.draining, KGBL_RGEN.staging, KGBL_RGEN.drain_late, KGBL_RGEN.zero_sweeps,
   KGBL_EMAP_SEL.emap_idx, KGBL_EMAP.emap_ep, KGBL_CTX_SEL.ctx_sel, KGBL_CTX.cstate,
   KGBL_CTX.cremote, KGBL_CTX.suspect, KGBL_CTX.rpend, KGBL_CTX.dpend,
   KGBL_CTX.guilty, KGBL_CTX.dslot, KGBL_CTX.clanes, KGBL_CTX_CNT.live_ctx,
   KGBL_CTX_CNT.drains, KGBL_CTX_CNT.drain_forced, KGBL_HB.beat, KGBL_HB.beats,
   KGBL_ENGWD.eng_wd_log2, KGBL_ENGWD.replay_log2, KGBL_HANG.eng_class, KGBL_HANG.eng_index,
   KGBL_HANG.guilty_ctx, KGBL_HANG.search, KGBL_HANG.guilty_v, KGBL_HANG_CNT.bites,
   KGBL_HANG_CNT.searches, KGBL_HANG_CNT.guilty_found, KGBL_HANG_CNT.unresolved, KGBL_PKG.pkg_num,
   KGBL_PKG.pkg_reject, KGBL_BOOT.stage, KGBL_BOOT.mp_ready, KGBL_BOOT.pstep,
   KGBL_BOOT.presult, KGBL_BOOT.ptime, KGBL_PATCH.pstate, KGBL_PATCH.psv,
   KGBL_SITE_SEL.site_sel, KGBL_SITE.pon, KGBL_SITE.pgood, KGBL_SITE.slp_req,
   KGBL_SITE.slp_ack, KGBL_SITE.slp_wait, KGBL_SITE.sfailed, KGBL_GOV.p_target]

/-- Fields of the `gbl` window, part 1. -/
def gblFields1 : List Fld :=
  [KGBL_GOV.p_real, KGBL_GOV.lend_duty, KGBL_GOV_PLATE.p_active, KGBL_GOV_PLATE.p_staged,
   KGBL_GOV_EVT.gov_hold, KGBL_GOV_EVT.duty_cut]

/-- Every register field of the `gbl` window, in the order of the tables. -/
def gblFields : List Fld := gblFields0 ++ gblFields1

/-- Fields of the `hrd` window, part 0. -/
def hrdFields0 : List Fld :=
  [KHRD_STATUS.state, KHRD_STATUS.free_run, KHRD_STATUS.ref_port, KHRD_STATUS.step_count,
   KHRD_TIME_LO.time_lo, KHRD_TIME_HI.time_hi, KHRD_OFFSET.offset, KHRD_OFFSET.words_ok,
   KHRD_CFG.lock_tol, KHRD_CFG.loss_win_log2, KHRD_CFG.acq_words, KHRD_LOSS_CNT.loss_count,
   KPLT_STATUS.active_valid, KPLT_STATUS.staged_valid, KPLT_STATUS.arm_pending, KPLT_STATUS.halted,
   KPLT_STATUS.loading, KPLT_STATUS.active_plate_id, KPLT_SLOT.slot_index, KPLT_SLOT.period_blocks,
   KPLT_ARM.arm_epoch, KPLT_ARM.staged_plate_id, KPLT_PLACE.place_id, KPLT_PAUSE.thr_q,
   KPLT_PAUSE.host_q, KPLT_PAUSE.gov_q, KPLT_PAUSE.throt_sampled, KPLT_PAUSE.q_now,
   KPLT_PAUSE_LAST.paused_fc, KPLT_PAUSE_LAST.slack_now, KPLT_LANES.lane_live, KPLT_LANES.lane_retired,
   KPLT_EVENTS.slack_exceed, KPLT_EVENTS.halts]

/-- Every register field of the `hrd` window, in the order of the tables. -/
def hrdFields : List Fld := hrdFields0

/-- Fields of the `stn` window, part 0. -/
def stnFields0 : List Fld :=
  [KSTN_STRM_SEL.sel, KSTN_STRM_STATE.state, KSTN_STRM_STATE.dir, KSTN_STRM_STATE.mode,
   KSTN_STRM_STATE.last_status, KSTN_STRM_STATE.stag, KSTN_STRM_POS.ordinal, KSTN_STRM_AVAIL.avail,
   KSTN_STRM_RV_LO.rv_lo, KSTN_STRM_RV_HI.rv_hi, KSTN_STRM_BAD_LO.bad_lo, KSTN_STRM_BAD_HI.bad_hi,
   KSTN_STRM_CNT.late, KSTN_STRM_CNT.dropped, KSTN_STRM_SHORT.short, KSTN_PTIME.ptime,
   KSTN_SCH_EVT.orphan, KSTN_SCH_EVT.tag_mismatch, KSTN_SCH_FLT.lane_fault, KSTN_SCH_FLT.lend_fault,
   KSTN_SCH_FLT.uncorr, KSTN_SCH_FLT.row_fault, KSTN_RT_SEL.rt_ep, KSTN_RT_SEL.rt_bank,
   KSTN_RT_DATA.rt_word, KSTN_HROOT.rstage, KSTN_HROOT.rindex, KSTN_GEN.gen_cur,
   KSTN_GEN.gen_drain, KSTN_GEN.draining, KSTN_GEN_INFL.hold0, KSTN_GEN_INFL.hold1,
   KSTN_STALE.stale_reissue, KSTN_STALE.stale_fail, KSTN_NOROUTE.noroute, KSTN_DQ_SEL.dq_sel,
   KSTN_DQ_BASE.dq_base, KSTN_DQ_CFG.entries, KSTN_DQ_CFG.enable, KSTN_DQ_CFG.dq_cq,
   KSTN_DQ_CFG.dq_ctx, KSTN_DQ_TAIL.dq_tail, KSTN_DQ_HEAD.dq_head, KSTN_DQ_HEAD.inflight,
   KSTN_CQ_SEL.cq_sel, KSTN_CQ_BASE.cq_base, KSTN_CQ_CFG.cq_entries, KSTN_CQ_CFG.enable,
   KSTN_CQ_CFG.cq_ctx, KSTN_CQ_HEAD.cq_head, KSTN_CQ_TAIL.cq_tail, KSTN_CQ_TAIL.cq_phase,
   KSTN_CQ_TAIL.cq_rsvd, KSTN_LOG_STAT.log_used, KSTN_LOG_STAT.log_high, KSTN_LOG_SEL.log_entry,
   KSTN_LOG_SEL.log_word, KSTN_LOG_DATA.log_data, KSTN_CH_SEL.ch_sel, KSTN_CH_CFG.dst]

/-- Fields of the `stn` window, part 1. -/
def stnFields1 : List Fld :=
  [KSTN_CH_CFG.herd_mode, KSTN_CH_CFG.enable, KSTN_CH_CFG.remote, KSTN_CH_CFG.dring,
   KSTN_CH_CFG.max_lines, KSTN_CH_PKG.dst_pkg, KSTN_CH_PKG.members, KSTN_CH_RADDR_LO.raddr_lo,
   KSTN_CH_RADDR_HI.raddr_hi, KSTN_CH_CRED.credit, KSTN_CH_CRED.ch_ctx, KSTN_CH_CRED.blocked,
   KSTN_CH_MSGS.msgs_sent, KSTN_CH_STALL.stalls, KSTN_CH_STALL.nocredit, KSTN_CH_REFUSE.refused,
   KSTN_CH_REFUSE.last_refuse, KSTN_CH_REFUSE.mseq, KSTN_CH_TL.send_tl_log2, KSTN_CH_TL.mc_known,
   KSTN_CH_TL.stall_fc, KSTN_RING_SEL.ring_sel, KSTN_RING_SEL.slot_sel, KSTN_RING_BASE.rbase_lo,
   KSTN_RING_BASE_HI.rbase_hi, KSTN_RING_CFG.ring_lines, KSTN_RING_CFG.enable, KSTN_RING_CFG.max_lines,
   KSTN_RING_CFG.in_mem, KSTN_RING_CFG.cls, KSTN_RING_CFG.hdisp, KSTN_RING_CFG.cfg_reject,
   KSTN_RING_CFG.crd_thresh, KSTN_RING_PTR.head, KSTN_RING_PTR.tail, KSTN_RING_OCC.occ,
   KSTN_RING_OCC.skip_held, KSTN_RING_POP.npop, KSTN_RING_HEADENT0.hent0, KSTN_RING_HEADENT1.hent1,
   KSTN_RING_CNT.msgs_rcvd, KSTN_RING_EVT.refused_in, KSTN_RING_EVT.pop_fault, KSTN_RING_EVT.crd_drop,
   KSTN_RING_PEND.pending, KSTN_RING_PEND.skips, KSTN_RING_SLOT0.s_src, KSTN_RING_SLOT0.s_chan,
   KSTN_RING_SLOT0.s_valid, KSTN_RING_SLOT1.s_pkg, KSTN_RING_SLOT2.s_share, KSTN_RING_SLOT2.s_pend,
   KSTN_DISP.in_handler, KSTN_DISP.snd_blocked, KSTN_DISP.blk_chan, KSTN_DISP.disp_count,
   KSTN_GRP_SEL.grp_slot, KSTN_GRP_DATA0.gidx, KSTN_GRP_DATA0.g_valid, KSTN_GRP_DATA0.g_ctx]

/-- Fields of the `stn` window, part 2. -/
def stnFields2 : List Fld :=
  [KSTN_GRP_DATA1.gkey, KSTN_GRP_DATA2.lsize, KSTN_GRP_DATA2.rherd, KSTN_GRP_DATA3.home,
   KSTN_GRP_DATA3.rhops, KSTN_GRP_DATA3.rroot, KSTN_GRP_SIZE.gsize, KSTN_FOLD.fold_used,
   KSTN_FOLD.fold_high, KSTN_FOLD.fold_early, KSTN_COLL_EVT.coll_mm, KSTN_COLL_EVT.coll_orphan,
   KSTN_COLL_EVT2.coll_short, KSTN_COLL_EVT2.coll_tmo, KSTN_PTAB_SEL.ptab_sel, KSTN_PTAB_BASE_LO.tbase_lo,
   KSTN_PTAB_BASE_HI.tbase_hi, KSTN_PTAB_CFG.rlines, KSTN_PTAB_CFG.tvalid, KSTN_PTAB_CFG.dtype,
   KSTN_PTAB_CFG.stride, KSTN_PTAB_ROWS_LO.trows_lo, KSTN_PTAB_ROWS_HI.trows_hi, KSTN_PTAB_ROWS_HI.tcfg_reject,
   KSTN_PTAB_ROWS_HI.ptab_ctx, KSTN_BAG_STAT.bags_used, KSTN_BAG_STAT.bags_high, KSTN_BAG_EVT.bag_short,
   KSTN_BAG_EVT.bag_tmo, KSTN_BAG_EVT2.pool_orphan, KSTN_BAG_EVT2.pool_refused, KSTN_MEM_CFG.req_tl_log2,
   KSTN_MEM_CFG.sram_log2, KSTN_WIN_SEL.win_sel, KSTN_WIN_BASE_LO.wbase_lo, KSTN_WIN_BASE_HI.wbase_hi,
   KSTN_WIN_LIM_LO.wlim_lo, KSTN_WIN_LIM_HI.wlim_hi, KSTN_WIN_CFG.wvalid, KSTN_WIN_CFG.wsram,
   KSTN_WIN_CFG.wr, KSTN_WIN_CFG.ww, KSTN_WIN_CFG.wa, KSTN_WIN_CFG.wctx,
   KSTN_MEM_OUT.posted_out, KSTN_MEM_OUT.req_out, KSTN_CC_SEL.cc_sel, KSTN_CC_SEL.cc_ctx,
   KSTN_CC.cc_value, KSTN_MEM_EVT.win_denied, KSTN_MEM_EVT.poison_rd, KSTN_MEM_EVT2.late_ans,
   KSTN_MEM_EVT2.cc_denied, KSTN_MEM_EVT2.snp_late, KSTN_IRQ_SRC.prio, KSTN_IRQ_SRC.level,
   KSTN_IRQ_SRC.ccount, KSTN_IRQ_SRC.ctime, KSTN_IRQ_THR.thr, KSTN_IRQ_THR.run_bank]

/-- Fields of the `stn` window, part 3. -/
def stnFields3 : List Fld :=
  [KSTN_IRQ_THR.run_stack, KSTN_IRQ_THR.depth, KSTN_IRQ_CLAIM.cnum, KSTN_IRQ_CLAIM.corig,
   KSTN_IRQ_CLAIM.cprio, KSTN_IRQ_CLAIM.cevents, KSTN_IRQ_DONE.dnum, KSTN_IRQ_SET.swset,
   KSTN_IRQ_PEND.pend, KSTN_IRQ_ACT.act, KSTN_RIRQ_EOI.enum, KSTN_RIRQ_EOI.eorig,
   KSTN_IRQ_EVT.done_bad, KSTN_IRQ_EVT.eoi_bad, KSTN_FENCE.fenced_all, KSTN_FENCE.walk,
   KSTN_FCTX_SEL.fctx_word, KSTN_FCTX.fctx, KSTN_DEADEP_SEL.dep_word, KSTN_DEADEP.dead_ep,
   KSTN_ORD_ADDR.ord_addr, KSTN_ORD_ADDR.ord_dq, KSTN_ORD_STAT.ord_busy, KSTN_ORD_STAT.ord_status,
   KSTN_ORD_STAT.ord_denied, KSTN_ORD_VAL.ord_val, KSTN_ORD_STAMP_LO.ord_stamp, KSTN_ORD_STAMP_HI.ord_stamp,
   KSTN_PROW.prow_free]

/-- Every register field of the `stn` window, in the order of the tables. -/
def stnFields : List Fld := stnFields0 ++ stnFields1 ++ stnFields2 ++ stnFields3

/-- Fields of the `rtr` window, part 0. -/
def rtrFields0 : List Fld :=
  [KRTR_SCH_CELLS.cells_fwd, KRTR_ARB_SEL.port, KRTR_ARB_SEL.net, KRTR_ARB_SEL.vc,
   KRTR_ARB_LFSR.lfsr, KRTR_ARB_LFSR.seed, KRTR_ARB_GRANTS.grants, KRTR_ARB_WASTE.waste,
   KRTR_ARB_WASTE.qmasked, KRTR_ARB_HOLD.held, KRTR_ARB_HOLD.progress, KRTR_ARB_HOLD.hold_ctx,
   KRTR_TKW0.w_ctl, KRTR_TKW0.w_mrq, KRTR_TKW0.w_msg, KRTR_TKW1.w_cmp,
   KRTR_TKW1.w_crd, KRTR_TKW1.w_snp, KRTR_TKW2.w_wdt, KRTR_TKW2.w_msgl,
   KRTR_TKW2.w_fol, KRTR_TKW2.w_pool, KRTR_QUOTA.hp_mask, KRTR_QUOTA.q_win_log2,
   KRTR_QUOTA.q_max, KRTR_WDOG.wd_log2, KRTR_WDOG_CNT.wd_bites, KRTR_WDOG_CNT.hdr_bad,
   KRTR_ARB_EVT.w_reject, KRTR_ARB_EVT.credit_lost, KRTR_ARB_EVT.uncorr, KRTR_GEN.gen_cur,
   KRTR_GEN.gen_drain, KRTR_GEN.draining, KRTR_GEN_INFL.infl0, KRTR_GEN_INFL.infl1,
   KRTR_DEAD_LO.dead_lo, KRTR_DEAD_HI.dead_hi, KRTR_ABSORB.stale_absorb, KRTR_ABSORB.herd_denied,
   KRTR_FRZ_SEL.frz_word, KRTR_FRZ_DATA.frz, KRTR_HERD_SEL.herd, KRTR_HERD_SEL.bank,
   KRTR_HERD_DATA0.mask, KRTR_HERD_DATA1.hctx, KRTR_HERD_DATA1.hvalid, KRTR_RED_CFG.linger_log2,
   KRTR_RED_COMB.comb_out, KRTR_RED_EVT.mismatch_count, KRTR_RED_EVT.count_sat, KRTR_RCTX.rctx_used,
   KRTR_RCTX.rctx_high, KRTR_RBYP.bypass, KRTR_RBYP.linger_emit, KRTR_POOL_CFG.plinger_log2,
   KRTR_POOL_USE.pctx_used, KRTR_POOL_USE.pctx_high, KRTR_POOL_EVT.pool_bypass, KRTR_POOL_EVT.pool_linger]

/-- Fields of the `rtr` window, part 1. -/
def rtrFields1 : List Fld :=
  [KRTR_POOL_CONF.pool_conflict, KRTR_MRG_CFG.mwin_log2, KRTR_MRG_USE.keys_used, KRTR_MRG_USE.keys_high,
   KRTR_MRG_EVT.merged, KRTR_MRG_EVT.mbypass, KRTR_MRG_EVT2.memit, KRTR_MRG_EVT2.mconflict,
   KRTR_SINK.sink_ports, KRTR_SINK_CNT.sink_drop, KRTR_SINK_CNT.sink_cells, KRTR_PROW.prow_free,
   KRTR_PROW.crow_free, KRTR_SCH_FLT.lane_fault, KRTR_SCH_FLT.lend_fault, KRTR_SCH_FLT.uncorr,
   KRTR_SCH_FLT.row_fault]

/-- Every register field of the `rtr` window, in the order of the tables. -/
def rtrFields : List Fld := rtrFields0 ++ rtrFields1

/-- Fields of the `msp` window, part 0. -/
def mspFields0 : List Fld :=
  [KMSP_POOL_CFG.plinger_log2, KMSP_POOL_USE.pctx_used, KMSP_POOL_USE.pctx_high, KMSP_POOL_EVT.pool_bypass,
   KMSP_POOL_EVT.pool_linger, KMSP_POOL_EVT2.pool_conflict, KMSP_POOL_EVT2.pool_refuse, KMSP_ACC.acc_count,
   KMSP_SLICE.slice_gib, KMSP_SLICE.slice, KMSP_SLICE.port_q, KMSP_TKW.w_mrq,
   KMSP_TKW.w_wdt, KMSP_TKW.w_pool, KMSP_TKW.w_def, KMSP_DIR_CFG.snp_tl_log2,
   KMSP_DIR_USE.dir_used, KMSP_DIR_USE.defer_used, KMSP_DIR_EVT.back_inv, KMSP_DIR_EVT.vmode_cnt,
   KMSP_DIR_EVT2.snp_tmo, KMSP_DIR_EVT2.lines_poisoned, KMSP_WIN_SEL.mwin_sel, KMSP_EVT.win_denied,
   KMSP_EVT.uncorr_rd, KMSP_WIN_BASE_LO.wbase_lo, KMSP_WIN_BASE_HI.wbase_hi, KMSP_WIN_LIM_LO.wlim_lo,
   KMSP_WIN_LIM_HI.wlim_hi, KMSP_WIN_CFG.wvalid, KMSP_WIN_CFG.wr, KMSP_WIN_CFG.ww,
   KMSP_WIN_CFG.wa, KMSP_WIN_CFG.wctx]

/-- Every register field of the `msp` window, in the order of the tables. -/
def mspFields : List Fld := mspFields0

/-- Fields of the `edg` window, part 0. -/
def edgFields0 : List Fld :=
  [KEDG_STAT.lane_lock, KEDG_STAT.link_up, KEDG_STAT.peer_nready, KEDG_STAT.cw_span,
   KEDG_STAT.relocks, KEDG_LANE.spare_on, KEDG_LANE.spare_lane, KEDG_LANE.sig,
   KEDG_FEC.fec_corr, KEDG_FEC.fec_uncorr, KEDG_LINK.crc_bad, KEDG_LINK.replays,
   KEDG_TIME_CFG.tx_lat, KEDG_TIME_CFG.rx_lat, KEDG_TIME_CFG.asym, KEDG_TIME_CFG.tw_log2,
   KEDG_TIME_STAT.delay, KEDG_TIME_STAT.thops, KEDG_TIME_STAT.tw_valid, KEDG_SPRAY_LO.spray_lo,
   KEDG_SPRAY_HI.spray_hi, KEDG_PATH_SEL.path_sel, KEDG_PATH.weight, KEDG_PATH.samples,
   KEDG_PATH.suspended, KEDG_PATH.srtt, KEDG_XPORT.rtx_max, KEDG_XPORT.win_log2,
   KEDG_XPORT.ack_log2, KEDG_XPORT.path_fail, KEDG_CONN.conn_used, KEDG_CONN.conn_high,
   KEDG_XEVT.retransmits, KEDG_XEVT.tx_fail, KEDG_XEVT2.rx_dup, KEDG_XEVT2.rx_window,
   KEDG_XEVT3.rx_stale, KEDG_XEVT3.rst_sent, KEDG_XEVT3.conn_full, KEDG_PROXY.proxy_used,
   KEDG_PROXY.proxy_expire, KEDG_REORD.reord_lines, KEDG_REORD.reord_drop, KEDG_RATE_SEL.rate_sel,
   KEDG_RATE_CTX.rctx, KEDG_RATE_CTX.shp_en, KEDG_RATE_CTX.pol_en, KEDG_RATE_SHP.rate,
   KEDG_RATE_SHP.burst, KEDG_RATE_POL.rate, KEDG_RATE_POL.burst, KEDG_RATE_CNT.pol_drop,
   KEDG_RATE_CNT.shp_held, KEDG_CW_CFG.cw_lead, KEDG_CW_STAT.cw_next, KEDG_CW_STAT.cw_open,
   KEDG_CW_STAT.cw_txq, KEDG_CW_STAT.cw_rxq, KEDG_CW_EVT.cw_outside, KEDG_CW_EVT.cw_under]

/-- Fields of the `edg` window, part 1. -/
def edgFields1 : List Fld :=
  [KEDG_CW_EVT2.cw_overrun, KEDG_CW_EVT2.cw_peer_bad, KEDG_CW_EVT2.cw_txdrop, KEDG_SPN_SEL.spn_sel,
   KEDG_SPN_SEL.spn_ssel, KEDG_SPN_CFG.res_dst, KEDG_SPN_CFG.res_herd, KEDG_SPN_CFG.spn_en,
   KEDG_SPN_CFG.dring, KEDG_SPN_CFG.members, KEDG_SPN_EVT.redx_sent, KEDG_SPN_EVT.redx_drop,
   KEDG_SPN_RADDR_LO.raddr_lo, KEDG_SPN_RADDR_HI.raddr_hi, KEDG_SPN_SLOT0.s_src, KEDG_SPN_SLOT0.s_chan,
   KEDG_SPN_SLOT0.s_valid, KEDG_SPN_SLOT1.s_pkg, KEDG_SPN_SLOT2.s_share, KEDG_SPN_SLOT2.s_pend]

/-- Every register field of the `edg` window, in the order of the tables. -/
def edgFields : List Fld := edgFields0 ++ edgFields1

/-- Fields of the `intR` window, part 0. -/
def intRFields0 : List Fld :=
  [KINT_RSRC_CFG.prio, KINT_RSRC_CFG.level, KINT_RSRC_CFG.ttype, KINT_RSRC_CFG.tcore,
   KINT_RPEND_LO.rpend, KINT_RPEND_HI.rpend, KINT_RACT_LO.ract, KINT_RACT_HI.ract,
   KINT_RSWSET.rswset, KINT_RSTK_SEL.stk_core, KINT_RSTK.sdepth, KINT_RSTK.stop_prio,
   KINT_RSTK.stop_orig, KINT_RSTK.stop_num, KINT_RSRC_COAL.ccount, KINT_RSRC_COAL.ctime]

/-- Every register field of the `intR` window, in the order of the tables. -/
def intRFields : List Fld := intRFields0

/-- Fields of the `intP` window, part 0. -/
def intPFields0 : List Fld :=
  [KINT_PSRC_CFG.prio, KINT_PSRC_CFG.level, KINT_PSRC_CFG.ttype, KINT_PSRC_CFG.tcore,
   KINT_PPEND.ppend, KINT_PACT.pact, KINT_PSWSET.pswset, KINT_FMP_THR.thr,
   KINT_FMP_THR.run, KINT_HOST_THR.thr, KINT_HOST_THR.run, KINT_PEVT.eoi_bad_fmp,
   KINT_PEVT.eoi_bad_host, KINT_FMP_CLAIM.cnum, KINT_FMP_CLAIM.corig, KINT_FMP_CLAIM.cprio,
   KINT_FMP_CLAIM.cevents, KINT_FMP_CLAIM.creg, KINT_HOST_CLAIM.cnum, KINT_HOST_CLAIM.corig,
   KINT_HOST_CLAIM.cprio, KINT_HOST_CLAIM.cevents, KINT_HOST_CLAIM.creg, KINT_FMP_EOI.enum,
   KINT_FMP_EOI.eorig, KINT_FMP_EOI.ereg, KINT_HOST_EOI.enum, KINT_HOST_EOI.eorig,
   KINT_HOST_EOI.ereg, KINT_PSRC_COAL.ccount, KINT_PSRC_COAL.ctime]

/-- Every register field of the `intP` window, in the order of the tables. -/
def intPFields : List Fld := intPFields0

/-- Fields of the `flt` window, part 0. -/
def fltFields0 : List Fld :=
  [KFLT_STATE.fstate, KFLT_STATE.fatal_now, KFLT_RCV.recoveries, KFLT_RCV.rc_win,
   KFLT_CFG.lt_count, KFLT_CFG.lt_win, KFLT_GROUPS.groups, KFLT_FLTMASK.flt_mask,
   KFLT_STOT.stot, KFLT_STOT.stot_run, KFLT_STOT.hb_ok, KFLT_INJ.inj_fatal,
   KFLT_INJ.inj_corr, KFLT_INJ.inj_uncorr, KFLT_INJ.inj_src, KFLT_LT_SEL.lt_src,
   KFLT_LT.lt_n, KFLT_LT.lasting, KFLT_SPARE.sites_free, KFLT_SPARE.beams_free,
   KFLT_SPARE.stations_free, KFLT_DMAP_SEL.dmap_ldie, KFLT_DMAP.dsite, KFLT_SMAP_SEL.smap_preg,
   KFLT_SMAP.spos, KFLT_SMAP.sbound, KFLT_SMAP.sfail, KFLT_BOND_SEL.bond,
   KFLT_BOND_SEL.bdir, KFLT_BOND_SEL.bgrp, KFLT_BOND.bgroups, KFLT_BOND.bspares_used,
   KFLT_BOND.bsteer0, KFLT_BOND.bsteer1, KFLT_BOND.bdead, KFLT_STICKY.sticky]

/-- Every register field of the `flt` window, in the order of the tables. -/
def fltFields : List Fld := fltFields0

/-- Fields of the `cmd` window, part 0. -/
def cmdFields0 : List Fld :=
  [KCMD_QCFG.qen, KCMD_QTAIL.ctail, KCMD_QHEAD.chead, KCMD_QHEAD.cphase,
   KCMD_QHEAD.running, KCMD_QEVT.dups, KCMD_QEVT.cmd_bad]

/-- Every register field of the `cmd` window, in the order of the tables. -/
def cmdFields : List Fld := cmdFields0

/-- Fields of the `evc` window, part 0. -/
def evcFields0 : List Fld :=
  [K_ECFG.event, K_ECFG.emode, K_ECFG.chain, K_ECFG.ectx_en,
   K_ECFG.ectx, K_ETHR.ethr, K_ETHR.eport, K_ETHR.evc,
   K_ETHR.ecfg_reject, K_ECNT.ecnt, K_EOVF.eovf]

/-- Every register field of the `evc` window, in the order of the tables. -/
def evcFields : List Fld := evcFields0

/-- Fields of the `obs` window, part 0. -/
def obsFields0 : List Fld :=
  [KOBS_RD_ADDR.rd_addr, KOBS_RD_CTX.rd_ctx, KOBS_RD_STAT.rd_busy, KOBS_RD_STAT.rd_status,
   KOBS_RD_STAT.rd_denied, KOBS_RD_VAL_LO.rd_val, KOBS_RD_VAL_HI.rd_val, KOBS_RD_STAMP_LO.rd_stamp,
   KOBS_RD_STAMP_HI.rd_stamp, KOBS_CAP_SEL.cap_unit, KOBS_CAP_CFG.cap_en, KOBS_CAP_CFG.hctx_en,
   KOBS_CAP_CFG.hctx, KOBS_TRC_SRC.tkind, KOBS_TRC_SRC.tunit_type, KOBS_TRC_SRC.tunit_index,
   KOBS_TRC_SRC.tport, KOBS_TRC_SRC.tnet, KOBS_TRC_FILT.tctx, KOBS_TRC_FILT.tctx_en,
   KOBS_TRC_STAT.tstate, KOBS_TRC_STAT.dumped, KOBS_TRC_STAT.tstop, KOBS_TRC_STAT.tcount,
   KOBS_TRC_STAT.trc_lost, KOBS_TRC_TSTAMP_LO.tstamp, KOBS_TRC_TSTAMP_HI.tstamp, KOBS_TRC_RSEL.rsel_buf,
   KOBS_TRC_RSEL.rsel_rec, KOBS_TRC_RSEL.rsel_word, KOBS_TRC_RDATA.rdata]

/-- Every register field of the `obs` window, in the order of the tables. -/
def obsFields : List Fld := obsFields0

end Sys2Proof.Machine
end

