-- ==== Sys2Proof/Machine/Mem.lean ====
section
/-! DEFINITION. The addressed memories of the package: the memory window (by local offset, R275) and the core SRAMs
(by physical station and SRAM address, R180), each with one poison bit for each 64 B line (R292, R308), and the
stores that commands make to them. Unlisted bytes read as 0 and unlisted lines are not poisoned. -/

namespace Sys2Proof.Machine

/-- The memories. `cells` and `sram` are canonical: addresses rising, no byte 0 listed. -/
structure Memory where
  cells : List Host.Cell
  pois : Tbl Bool
  sram : List Host.Cell
  spois : Tbl Bool
  deriving DecidableEq, Repr

/-- The key of an SRAM byte: physical station and byte address (at most 2^28 bytes a core, R313). -/
def sramKey (st a : Nat) : Nat := st * 2 ^ 28 + a % 2 ^ 28

/-- One store of a command: bytes or the poison bit of a line, in the memory window or in an SRAM (by key). -/
inductive Store where
  | bytes (inSram : Bool) (addr : Nat) (data : List Byte)
  | poison (inSram : Bool) (line : Nat) (p : Bool)
  deriving DecidableEq, Repr

/-- Write bytes at consecutive addresses. -/
def putBytes : List Host.Cell → Nat → List Byte → List Host.Cell
  | m, _, [] => m
  | m, a, b :: bs => putBytes (Tbl.set (0 : Byte) m a b) (a + 1) bs

/-- Read `n` bytes from `a`. -/
def getBytes (m : List Host.Cell) : Nat → Nat → List Byte
  | _, 0 => []
  | a, n + 1 => Tbl.get (0 : Byte) m a :: getBytes m (a + 1) n

/-- Perform one store. -/
def Memory.store (m : Memory) : Store → Memory
  | .bytes false a d => { m with cells := putBytes m.cells a d }
  | .bytes true a d => { m with sram := putBytes m.sram a d }
  | .poison false l p => { m with pois := Tbl.set false m.pois l p }
  | .poison true l p => { m with spois := Tbl.set false m.spois l p }

/-- Perform a command's stores, oldest first. -/
def Memory.apply (m : Memory) (l : List Store) : Memory := l.foldl Memory.store m

/-- The canonical form of all four tables. -/
def Memory.wf (m : Memory) : Bool :=
  Tbl.wfd (0 : Byte) m.cells && Tbl.wfd false m.pois && Tbl.wfd (0 : Byte) m.sram && Tbl.wfd false m.spois

end Sys2Proof.Machine
end

