-- ==== Sys2Proof/Machine/StBoot.lean ====
section
/-! DEFINITION. State of start-up, management, test access (chapter 13) and of contexts, hangs and recovery
(chapter 12). Plain data. -/

namespace Sys2Proof.Machine

/-- A command fetched and running (R462): its 64 bytes, queue, slot, when it was fetched, how far it has come and what
it waits for, in its own numbers. -/
structure Cmd where
  q : Nat
  slot : Nat
  bytes : List Byte
  fc : Nat
  stage : Nat := 0
  a : Nat := 0
  b : Nat := 0
  deriving DecidableEq, Repr

/-- A record of a fetched command (R431): tag, opcode, its reply once there is one, and the slots that wait for it, each
with 128 added when its pass through the ring has `phase` 1. -/
structure CmdRec where
  tag : Nat
  opcode : Nat
  reply : Option (List Byte)
  slots : List Nat
  deriving DecidableEq, Repr

/-- A grant of a context (R417): kind, unit, first object, objects. -/
structure Grant where
  kind : Nat
  unit : Nat
  first : Nat
  num : Nat
  deriving DecidableEq, Repr

/-- A context (R415): state, remote, pending reset or destroy, guilty, drain slot, plate lanes, fc of acceptance,
herd time of entry to quarantine, grants, commands that wait (queue, slot, kind 0 fence 1 reset 2 destroy), whether it is
reset as guilty, and whether its removal has ended and it is being unbound. -/
structure Ctx where
  state : Nat
  remote : Bool := false
  rpend : Bool := false
  dpend : Bool := false
  guilty : Bool := false
  dslot : Nat := 0
  lanes : Nat := 0
  t0 : Nat := 0
  tq : Nat := 0
  grants : List Grant := []
  waits : List (Nat × Nat × Nat) := []
  unbind : Bool := false
  deriving DecidableEq, Repr

/-- A replay search (R428): engine, suspects not yet released, suspects running, the fc the window began. -/
structure Search where
  cls : Nat
  index : Nat
  wait : List Nat
  run : List Nat
  t0 : Nat
  deriving DecidableEq, Repr

/-- Contexts and hangs. -/
structure Cx where
  ctx : Tbl Ctx := []
  search : Option Search := none
  /-- Bites waiting for their search. -/
  bites : List (Nat × Nat × List Nat) := []
  /-- Progress watchdogs of engines (R426): by class * 4096 + index, the count and what the engine held in the last fc. -/
  wd : Tbl (Nat × List Nat) := []
  /-- Contexts held by a search. -/
  hold : List Nat := []
  reinit : Option (Nat × Nat) := none
  deriving DecidableEq, Repr

/-- Start-up, queues and test access. -/
structure Boot where
  /-- Pins: PORST_N, PWRGD_IN, HRST_N (true: high); the fabric clock has locked. -/
  porstN : Bool := true
  pwrgd : Bool := true
  hrstN : Bool := true
  clk : Bool := false
  /-- Die sites still to power in this start-up, in order; the fc in which the next `pd_on` rises; the fc in which each
  waiting site's rose (R448). -/
  sitesLeft : List Nat := []
  pdNext : Nat := 4000000
  pdT : Tbl Nat := []
  /-- Command SRAM bytes, running commands, records by queue, a BLOCK_RESET found among posted commands (R463). -/
  csram : Tbl Byte := []
  cmds : List Cmd := []
  /-- Outcomes of commands whose replies wait while Miomus is hung (R425): queue and slot, status, stamp, data. -/
  owed : List ((Nat × Nat) × Nat × Nat × List Byte) := []
  recsQ : Tbl (List CmdRec) := []
  rstReq : Bool := false
  /-- The loaded patch image (R458). -/
  patch : Option (List Byte) := none
  /-- Packets that have reached the host. -/
  toHost : List Packet := []
  /-- Test access: instruction register (8 bits), KDBG's last read data, an access under way (R476, R478). -/
  ir : Nat := 1
  kdbg : Nat := 0
  kdbgBusy : Bool := false
  /-- Miomus counts as hung (R425). -/
  hung : Bool := false
  deriving DecidableEq, Repr

end Sys2Proof.Machine
end

