-- ==== Sys2Proof/Machine/StColl.lean ====
section
/-! DEFINITION. State of collectives (chapter 6) and of pooled gather and sparse merge (chapter 7). Plain data. -/

namespace Sys2Proof.Machine

/-- A group descriptor (R219) with its sizes. -/
structure GroupDef where
  ctx : Nat
  gkey : Nat
  pkgLo : Nat
  pkgHi : Nat
  pkgStep : Nat
  dieLo : Nat
  dieHi : Nat
  dieStep : Nat
  regMask : Nat
  clMask : Nat
  coreMask : Nat
  home : Nat
  rherd : Nat
  rroot : Nat
  gsize : Nat
  lsize : Nat
  deriving DecidableEq, Repr

/-- An OPEN reduction context of a tine (R231): the packet that opened it, combined payload, value, count, mismatch and
poison, and the fc of the last arrival. -/
structure RCtx where
  pkt : Packet
  data : List Byte
  value : Nat
  count : Nat
  mm : Bool
  bad : Bool
  t0 : Nat
  deriving DecidableEq, Repr

/-- A fold slot of a station (R233): its key, the log entry of its descriptor (none while early), count, value, mark,
whether a first arrival wrote its result, the signatures and addresses of arrivals, poison, and the fc it opened. -/
structure Fold where
  ctx : Nat
  gkey : Nat
  seq : Nat
  entry : Option Nat := none
  count : Nat := 0
  value : Nat := 0
  mm : Bool := false
  begun : Bool := false
  sigs : List Nat := []
  addrs : List Nat := []
  t0 : Nat := 0
  deriving DecidableEq, Repr

/-- An open collective (R226 to R235): plane, bound streams with whether each has completed, their statuses, `short` of
the receive stream, own signature, fold slot, local members, group index, result address, and the fc of its limit. -/
structure Coll where
  sched : Bool
  streams : List (Nat × Bool)
  sts : List Nat := []
  short : Nat := 0
  sig : Nat
  slot : Nat := 0
  lsize : Nat
  group : Nat
  addr : Nat := 0
  count : Bool := false
  tEnd : Nat
  deriving DecidableEq, Repr

/-- A bag slot in use (R247 to R257, R265): log entry, whether its requests were sent, gather or merge, parameters,
pieces of the bag, pieces folded, refused, answered OK, statuses, poison, output segments written, MERGE_ROW packets not
answered, the fc of its limit. -/
structure Bag where
  entry : Nat
  seq : Nat
  sent : Bool := false
  merge : Bool := false
  pop : Nat := 0
  dtype : Nat := 0
  otype : Nat := 0
  rlines : Nat := 0
  pieces : Nat := 0
  folded : Nat := 0
  refused : Nat := 0
  okPieces : Nat := 0
  sts : List Nat := []
  bad : Bool := false
  smask : Nat := 0
  waiting : Nat := 0
  addr : Nat := 0
  ctx : Nat := 0
  t0 : Nat
  deriving DecidableEq, Repr

/-- An OPEN pool context (R253): the packet that opened it, accumulator, segments held, pieces, target, poison, the fc
of the last arrival, and, at a slice, the port of the first request. -/
structure PoolCtx where
  pkt : Packet
  acc : List Byte
  smask : Nat
  pieces : Nat
  target : Nat
  bad : Bool
  t0 : Nat
  port : Nat
  deriving DecidableEq, Repr

/-- An entry of a merge unit (R262, R264): the packet that opened it, row data, poison, contributors as they stand at
the tine with their input ports, whether it waits for the answer, and the fc it opened. -/
structure MrgEnt where
  first : Packet
  data : List Byte
  bad : Bool
  contrib : List (Packet × Nat)
  wait : Bool
  t0 : Nat
  deriving DecidableEq, Repr

/-- A POOL_READ whose rows a slice is reading: packet, memory port, bytes of the segments read so far by segment number,
reads not answered, poison. -/
structure RowRead where
  pkt : Packet
  port : Nat
  segs : Tbl (List Byte)
  left : Nat
  bad : Bool
  deriving DecidableEq, Repr

/-- A line in a station's fold buffer (R255): its address in core SRAM, what is written or combined there, poison, the type
and operation of the combine if there is one, and the bag's slot. -/
structure FoldLine where
  addr : Nat
  data : List Byte
  poison : Bool
  comb : Option (Nat × Nat)
  slot : Nat
  deriving DecidableEq, Repr

/-- Collectives and pooling. Keys: fold buffers by station; groups by index; member tables station * 64 + slot; reduction contexts and merge
entries tine * 512 + entry; fold slots station * 32 + slot; collectives by log key; bags and their sequence numbers
station * 64 + slot; pool contexts unit * 1024 + context (a slice under its port 0). `beams`: the live logical beams that
the reduce routes of a bank were ranked with (R221). -/
structure Col where
  grp : Tbl GroupDef := []
  memb : Tbl Nat := []
  beams : Tbl (List Nat) := []
  rctx : Tbl RCtx := []
  fold : Tbl Fold := []
  open_ : Tbl Coll := []
  bag : Tbl Bag := []
  bseq : Tbl Nat := []
  fbuf : Tbl (List FoldLine) := []
  pool : Tbl PoolCtx := []
  mrg : Tbl MrgEnt := []
  rows : Tbl RowRead := []
  deriving DecidableEq, Repr

end Sys2Proof.Machine
end

