-- ==== Sys2Proof/Machine/StNet.lean ====
section
/-! DEFINITION. State of the arbitrated plane (chapter 4): packets in buffers, hop credits, arbiters, route and herd
banks, outstanding requests. Every structure is plain data.

Units are numbered for this state: routers 0 to 0x35F (cluster router n is n, region router p is 0x240 + p, tine t is
0x300 + t, physical beam b is 0x340 + b), physical station n is 0x1000 + n, memory port m is 0x2000 + m, edge port e is
0x2040 + e, the FMP is 0x2080 and the host attachment 0x2081. -/

namespace Sys2Proof.Machine

/-- One copy of a routed packet, waiting for or using an output port: a herd packet has one copy for each port of its
mask (R149), any other packet has one. -/
structure Copy where
  port : Nat
  pkt : Packet
  sent : Nat := 0
  deriving DecidableEq, Repr

/-- A packet in a buffer: how many of its bytes have come in, whether its last phit has, where it goes, how many of
its bytes were returned as credits, whether its later phits are discarded (R140, R165, R169), the input port it came by
when it was handed to a unit of its router, and its place in the order of injection. -/
structure Buf where
  pkt : Packet
  arrived : Nat := 0
  last : Bool := false
  routed : Bool := false
  drop : Bool := false
  copies : List Copy := []
  freed : Nat := 0
  inp : Nat := 0
  seq : Nat := 0
  deriving DecidableEq, Repr

/-- A VC of an output held by the packet of input `src` (R160): phits or pieces sent so far, its context, and the fc since which
the holder has had no phit waiting (R165). -/
structure Hold where
  src : Nat
  progress : Nat
  ctx : Nat
  emptyT : Nat
  deriving DecidableEq, Repr

/-- A phit, or a piece of a DAT phit on its way through the free lanes of a link (R123, R134, R135, R161): the packet it
belongs to, its first byte in it and its bytes, `first`, `last` and `poison` of its sideband or framing, the place of
its packet in the order of injection; as received, whether its codeword is uncorrectable (`dead`) and the bytes taken instead of the packet's own. -/
structure Piece where
  pkt : Packet
  off : Nat
  first : Bool
  last : Bool
  poison : Bool := false
  len : Nat := 64
  seq : Nat := 0
  dead : Bool := false
  got : List Byte := []
  deriving DecidableEq, Repr

/-- A lottery arbiter (R153 to R165): LFSR, the grant decided for its next fc, holds by VC, grants used in the quota
window of the last counted grant's time `qwin`, by requester (source * 16 + VC), pieces of a granted DAT phit not yet placed,
and the fc + 1 of its last decision: it makes one in an fc (R158). -/
structure Arb where
  lfsr : Nat
  grant : Option (Nat × Nat) := none
  holds : Tbl Hold := []
  quota : Tbl Nat := []
  qwin : Nat := 0
  placing : List Piece := []
  drawn : Nat := 0
  deriving DecidableEq, Repr

/-- Where dies and spare stations sit: logical die to site, and spare bindings by physical region (position + 1). -/
structure Place where
  die : Tbl Nat := []
  spare : Tbl Nat := []
  deriving DecidableEq, Repr

/-- One bank of the route tables (R143). `zero`: the placement for which Miomus wrote a route for every pair of present
endpoints (R442), if it has; `written`: entries written since, as 16-byte numbers, keyed source * 4096 + destination. -/
structure RBank where
  zero : Option Place := none
  written : Tbl Nat := []
  deriving DecidableEq, Repr

/-- A herd: owning context, root stage and index (R148), member endpoints, and the placement of stations for which its
entries were written. -/
structure HerdDef where
  ctx : Nat
  stage : Nat
  index : Nat
  members : List Nat
  place : Place := {}
  deriving DecidableEq, Repr

/-- A router's herd entry written directly (R147). -/
structure HerdEnt where
  mask : Nat
  hctx : Nat
  hvalid : Bool
  deriving DecidableEq, Repr

/-- One bank of the herd and herd root tables: herd definitions, from which each router's mask follows, router entries
written by folio (router * 4096 + herd), and root bytes written by folio (endpoint * 4096 + herd). -/
structure HBank where
  defs : Tbl HerdDef := []
  written : Tbl HerdEnt := []
  roots : Tbl Nat := []
  deriving DecidableEq, Repr

/-- What an outstanding request of an endpoint belongs to. -/
inductive Owner where
  | none
  | core (ctag off : Nat)
  | desc (entry piece len : Nat)
  | credit (ring slot : Nat)
  | cresync (chan : Nat)
  | ringWrite (ring msg : Nat)
  | ringPop (ring : Nat)
  | snoop (slice key : Nat)
  | coll (entry : Nat)
  | bagRead (slot : Nat)
  | mergeRow (slot : Nat)
  | merged (tine key : Nat)
  | dump (buf : Nat)
  | host (htag : Nat)
  | proxy (idx : Nat)
  | plateWrite (q slot : Nat)
  | cmdWrite (q slot : Nat)
  deriving DecidableEq, Repr

/-- An outstanding request: the packet as sent, its owner, the fc it was issued, the
answers taken and due for a herd request (R149), and
the fc of the grant of its first phit (R492). -/
structure Req where
  pkt : Packet
  own : Owner
  fc : Nat
  sts : List Nat := []
  need : Nat := 1
  late : Bool := false
  /-- Dropped by the forced end of a drain (R421). -/
  dropped : Bool := false
  grant : Option Nat := none
  deriving DecidableEq, Repr

/-- A ROUTE_COMMIT accepted and not yet in effect (R168): accepted at this herd time, of which queue slot, and whether
herd time was stepped since. -/
structure Commit where
  at_ : Nat
  q : Nat
  slot : Nat
  stepped : Bool := false
  deriving DecidableEq, Repr

/-- The freeze vectors as they stood at the start of the fc of their last change (R164). -/
structure FrzOld where
  fc : Nat
  frz : Tbl Bool
  byUnit : Tbl Bool
  hold : List Nat
  deriving DecidableEq, Repr

/-- The arbitrated plane. Keys: buffers and credits (unit * 64 + port) * 16 + VC (port 63 of an endpoint is its
injection queue); arbiters (unit * 64 + port) * 4 + network; requests unit * 2^20 + tag. -/
structure Net where
  q : Tbl (List Buf) := []
  used : Tbl Nat := []
  owed : Tbl Nat := []
  arbs : Tbl Arb := []
  rb0 : RBank := {}
  rb1 : RBank := {}
  hb0 : HBank := {}
  hb1 : HBank := {}
  commit : Option Commit := none
  drainFc : Nat := 0
  /-- The fc of the last commit, and whether its drain was reported late (R170). -/
  lateTold : Bool := false
  req : Tbl Req := []
  /-- Copies that requesters keep of packets absorbed with STALE_GEN (R171), and those held for re-issue: unit, packet,
  fc of the answer, in the order of the answers. -/
  stale : Tbl Packet := []
  held : List (Nat × Packet × Nat) := []
  frz : Tbl Bool := []
  frzOver : Tbl Bool := []
  frzOld : Option FrzOld := none
  /-- Herd time of the last write of a unit's `q_win_log2` (R164). -/
  qWrite : Tbl Nat := []
  lastGen : Tbl Nat := []
  /-- Number of the last packet put into an injection queue. -/
  injSeq : Nat := 0
  deadEp : Tbl Bool := []
  deadNext : Tbl Bool := []
  /-- Marks of one unit's vector written by folio since the last commit (R455): unit * 4096 + endpoint. -/
  deadOver : Tbl Bool := []
  /-- Words of regions whose layout the spec does not give, as written: (unit * 256 + region) * 2^22 + word. -/
  raw : Tbl Nat := []
  /-- Logical beam to physical beam + 1; 0 when it has none; unlisted: the beam of the same number (R92). -/
  beamMap : Tbl Nat := []
  deriving DecidableEq, Repr

end Sys2Proof.Machine
end

