-- ==== Sys2Proof/Machine/StUnit.lean ====
section
/-! DEFINITION. State of stations (chapter 5), of memory slice ports and directories (chapter 8), of interrupt
controllers (chapter 10) and of the fault collector (chapter 11). Every structure is plain data. -/

namespace Sys2Proof.Machine

/-- A descriptor log entry (R188), and whether its descriptor was read poisoned. -/
structure LogEnt where
  desc : List Byte
  dq : Nat
  lstate : Nat
  lctx : Nat
  dseq : Nat
  astamp : Nat
  bad : Bool := false
  deriving DecidableEq, Repr

/-- What a started descriptor still waits for: pieces to send, pieces without answer, statuses so far, bytes done, when
it started, its time limit, and what a fence waits for (R285, R307). `a` and `b` are for the kind's own use. -/
structure Job where
  left : Nat := 0
  open_ : Nat := 0
  sts : List Nat := []
  done : Nat := 0
  t0 : Nat := 0
  tl : Nat := 0
  a : Nat := 0
  b : Nat := 0
  deriving DecidableEq, Repr

/-- What happens when the core's write port takes a line (R182, R304). -/
inductive OnWrite where
  | nothing
  | ready (stream chunk : Nat)
  | message (ring seq : Nat)
  | answer (p : Packet)
  | posted (p : Packet)
  | counted (p : Packet)
  deriving DecidableEq, Repr

/-- A line in the delivery buffer on its way to core SRAM (R117, R182). -/
structure DLine where
  addr : Nat
  data : List Byte
  poison : Bool
  whole : Bool
  act : OnWrite
  deriving DecidableEq, Repr

/-- A message placed in a ring and not popped (R195, R199): first line, lines, header bytes, whether a skip record
precedes it, poison, whether its last line is visible, whether its dispatch was offered or taken, WRITE answers due of
an `in_mem` ring, and its sequence number. -/
structure Msg where
  line : Nat
  lines : Nat
  head : List Byte
  skipped : Bool
  poison : Bool
  written : Bool
  taken : Bool
  writes : Nat := 0
  seq : Nat
  deriving DecidableEq, Repr

/-- A direct send presented on the core port and not acknowledged (R201). -/
structure Send where
  chan : Nat
  addr : Nat
  blen : Nat
  ctx : Nat
  deriving DecidableEq, Repr

/-- A dispatch record on offer (R199, R200). -/
structure Offer where
  ring : Nat
  seq : Nat
  bytes : List Byte
  deriving DecidableEq, Repr

/-- A memory request of a core that is open (R286 to R288). -/
structure CoreOpen where
  op : Nat
  addr : Nat
  len : Nat
  fc : Nat
  ctx : Nat
  need : Nat := 1
  sts : List Nat := []
  data : List Byte := []
  poison : Nat := 0
  scope : Nat := 0
  deriving DecidableEq, Repr

/-- A response beat group on `kp_ms_*` (R286). -/
structure CoreResp where
  tag : Nat
  status : Nat
  state : Nat
  data : List Byte
  poison : Nat
  deriving DecidableEq, Repr

/-- A snoop presented to a core and not answered (R301). -/
structure CoreSnoop where
  op : Nat
  addr : Nat
  pkt : Packet
  fc : Nat
  deriving DecidableEq, Repr

/-- A posted write of a station that no WCNT has counted (R283, R307): its number, context, whether it went to another
package, whether the core itself asked for it, and the log entry of the WRITE descriptor whose piece it is while it is not
yet injected (R285). -/
structure PostRec where
  id : Nat
  ctx : Nat
  remote : Bool
  core : Bool
  desc : Option Nat := none
  deriving DecidableEq, Repr

/-- Stations. Keys: station * 512 + log entry; station * 256 + channel, ring, counter or core tag;
(station * 256 + ring) * 16 + slot; station * 4 + class; station * 4096 + context. -/
structure Sta where
  log : Tbl LogEnt := []
  job : Tbl Job := []
  dseq : Tbl Nat := []
  lastDq : Tbl Nat := []
  /-- Context tag of each bound object (R179); unlisted objects are bound to no context. -/
  bind : Tbl Nat := []
  /-- Completion queues (station * 8 + queue) that are full: every entry holds a record not yet freed (R184). -/
  cqFull : Tbl Bool := []
  dbuf : Tbl (List DLine) := []
  /-- Messages placed and not popped, by ring. -/
  msgs : Tbl (List Msg) := []
  msgSeq : Tbl Nat := []
  /-- Lines of a slot placed and not popped (R194), and the fc of the first line of its pending return (R196). -/
  placed : Tbl Nat := []
  pendT : Tbl Nat := []
  /-- Pops of an `in_mem` ring still to perform, one count for each write of KSTN_RING_POP (R197). -/
  pops : Tbl (List Nat) := []
  /-- Members and their counts of a one-to-many channel (R204). -/
  members : Tbl (List (Nat × Nat)) := []
  /-- Members of a channel whose CRESYNC is not answered: for a unicast channel [0] (R194). -/
  resync : Tbl Bool := []
  resynced : Tbl (List Nat) := []
  /-- The credit that sends of this fc see on a channel that got credit in this fc (R193). -/
  fresh : Tbl Nat := []
  stallT : Tbl Nat := []
  blocked : Tbl Send := []
  sndAck : Tbl Nat := []
  inHandler : Tbl Bool := []
  offer : Tbl Offer := []
  lastRing : Tbl Nat := []
  /-- Open core requests, responses presented, posted writes not yet counted, oldest first, and how many were posted. -/
  core : Tbl CoreOpen := []
  resp : Tbl (List CoreResp) := []
  posted : Tbl (List PostRec) := []
  postSeq : Tbl Nat := []
  snoops : Tbl CoreSnoop := []
  /-- What the last read of a register answered, by the register's address. -/
  regOut : Tbl Nat := []
  /-- Contexts fenced at a station (R404). -/
  fctx : Tbl Bool := []
  coreRst : Tbl Bool := []
  deriving DecidableEq, Repr

/-- A write to a line, or (`dt`) an addition of elements of that type, while its snoops are out (R266, R300): offset in
the line, bytes, and whether they were poisoned. -/
structure LineOp where
  off : Nat
  data : List Byte
  dt : Option Nat
  bad : Bool := false
  deriving DecidableEq, Repr

/-- A directory entry that is not I (R295): line number in the memory window, state, holders by pointer or by region,
snoop answers due, bytes written meanwhile, order of the last grant, the request (and its port) that waits on it, and
whether its owner was lost, a WB in flight is due (R301), a memory write of its line is not yet visible (R299). -/
structure DirEnt where
  line : Nat
  st : Nat
  vmode : Bool := false
  ptrs : List Nat := []
  regions : Nat := 0
  busy : Bool := false
  acks : Nat := 0
  wmask : Nat := 0
  lru : Nat := 0
  pend : Option (Nat × Packet) := none
  lost : Bool := false
  wbWait : Bool := false
  upd : Bool := false
  snoopT : Nat := 0
  /-- Writes and additions to the line since its snoops were sent, oldest first (R266, R300). -/
  ops : List LineOp := []
  deriving DecidableEq, Repr

/-- What a memory port does when the controller answers an open request (R291, R304). -/
inductive MemAct where
  | none
  | read (p : Packet)
  | grant (p : Packet) (state : Nat)
  | answer (p : Packet)
  | line (key : Nat)
  | row (slot : Nat)
  deriving DecidableEq, Repr

/-- An open request at a memory controller. -/
structure MemOp where
  we : Bool
  loff : Nat
  lines : Nat
  act : MemAct
  deriving DecidableEq, Repr

/-- A write held by a memory port in the fault state (R387): its stores and the request to open for it. -/
structure HeldWrite where
  port : Nat
  addr : Nat
  data : List Byte
  poison : Nat
  act : MemAct
  /-- Bit j: byte j of `data` is not written (R300). -/
  keep : Nat := 0
  deriving DecidableEq, Repr

/-- Writes of a source that are visible and not yet counted (R283): count, fc of the first, the writer's records. -/
structure Uncounted where
  n : Nat
  fc : Nat
  refs : List Nat := []
  deriving DecidableEq, Repr

/-- Memory ports and directories. Keys: slice * 131072 + set * 16 + way; port * 1024 + tag; unit * 4096 + source. -/
structure Msp where
  dir : Tbl DirEnt := []
  lruSeq : Nat := 0
  defer : Tbl (List (Nat × Packet)) := []
  opens : Tbl MemOp := []
  held : List HeldWrite := []
  count : Tbl Uncounted := []
  /-- Requests that won the input arbiter, per port, oldest first (R293). -/
  intake : Tbl (List Packet) := []
  /-- Directory walks pending: (slice, physical station or context + 65536). -/
  walks : List (Nat × Nat) := []
  deriving DecidableEq, Repr

/-- The running part of an interrupt source (R356 to R360): events, herd time of the timer start, pending, active, the
target it was claimed at, events of the fc `nowFc`, the fc after which it became pending, and that of its completion. -/
structure IrqSrc where
  events : Nat := 0
  tstart : Nat := 0
  pending : Bool := false
  active : Bool := false
  held : Nat := 0
  nowFc : Nat := 0
  nowEv : Nat := 0
  pendFc : Nat := 0
  doneFc : Nat := 0
  deriving DecidableEq, Repr

/-- An entry of a running-priority stack above entry 0 (R367). -/
structure StkEnt where
  orig : Nat
  reg : Nat
  num : Nat
  prio : Nat
  deriving DecidableEq, Repr

/-- Interrupt state. Source keys: station n * 32 + source; 0x2_0000 + physical region * 64 + source; 0x3_0000 + source.
Stack keys: physical region * 16 + (cluster * 4 + core); 5000 the FMP; 5001 the host. -/
structure Irq where
  src : Tbl IrqSrc := []
  stk : Tbl (List StkEnt) := []
  /-- Sites whose banks are saved in retention registers, with the saved sources and stacks (R373). -/
  saved : Tbl (List (Nat × IrqSrc) × List (Nat × List StkEnt)) := []
  deriving DecidableEq, Repr

/-- The window count of a location (R384). -/
structure LocWin where
  n : Nat := 0
  t0 : Nat := 0
  lasting : Bool := false
  deriving DecidableEq, Repr

/-- A SPARE_MAP in progress (R397 to R399): kind 0 CORE, 1 DIE, 2 BEAM; what it moves; the spare it takes; its stage
(0 waiting for power and proof, 1 for the period boundary, 2 to commit its routes, 3 for the commit's effect); and its
command's queue and slot (queue 255: Miomus itself). -/
structure SpareOp where
  kind : Nat
  what : Nat
  spare : Nat
  stage : Nat
  q : Nat
  slot : Nat
  deriving DecidableEq, Repr

/-- A steer written at both ends of a bond and not yet in force (R394). -/
structure Steer where
  bond : Nat
  dir : Nat
  grp : Nat
  lane : Nat
  herd : Nat
  deriving DecidableEq, Repr

/-- The fault collector and the spares (chapter 11). -/
structure Flt where
  loc : Tbl LocWin := []
  /-- Fatal conditions present: bits of group 12. -/
  present : Nat := 0
  /-- A fatal class was set and the fault state is entered in the fc after (R386): that fc. -/
  entryFc : Option Nat := none
  lastFatal : Nat := 0
  stamps : List Nat := []
  entryPeriod : Bool := false
  stotFc : Nat := 0
  beat : Option Nat := none
  lendUnits : List Nat := []
  spare : Option SpareOp := none
  steers : List Steer := []
  escal : List Nat := []
  /-- Spare rows taken, by plate unit * 64 + port, port 63 for combine rows, and rows to replace at the next boundary
  (R396). -/
  rowsUsed : Tbl Nat := []
  rowPend : List (Nat × Nat) := []
  deadParts : List Nat := []
  /-- The fc of entry into the fault state, edge lanes on trial by EP (R395), and substitutions that Miomus itself will
  make once it can (kind, logical number; R385). -/
  entered : Nat := 0
  trials : Tbl Nat := []
  want : List (Nat × Nat) := []
  /-- Die sites that a substitution has left. -/
  leftSites : List Nat := []
  /-- Entries of configuration tables read uncorrectable, with the fc of that read (R380). -/
  badEnt : List (TblEntry × Nat) := []
  /-- Rows of plate memory read uncorrectable since the last boundary (R396): unit, port, row, and whether Miomus has taken
  the row up. -/
  rowLost : List ((Nat × Nat × Nat) × Bool) := []
  deriving DecidableEq, Repr

end Sys2Proof.Machine
end

