-- ==== Sys2Proof/Machine/StPlate.lean ====
section
/-! DEFINITION. State of herd time and plates (chapter 2) and of the scheduled plane (chapter 3). Every structure is
plain data. Units of a plate are numbered `unit_type` * 65536 + `unit_index` (R76). -/

namespace Sys2Proof.Machine

/-- A run entry (R77): output port, plate lane, first slot, length, four lane actions. -/
structure RunEnt where
  port : Nat
  lane : Nat
  start : Nat
  length : Nat
  acts : List Nat
  deriving DecidableEq, Repr

/-- A combine entry (R81): operation, type, widening, input bytes. -/
structure CombEnt where
  nIn : Nat
  op : Nat
  dtype : Nat
  widen : Bool
  ins : List Nat
  deriving DecidableEq, Repr

/-- A unit's section in a plate buffer. -/
structure Section where
  runs : List RunEnt
  combs : List CombEnt
  laneMask : Nat
  deriving DecidableEq, Repr

/-- A plate lane's entry (R75). -/
structure LaneEnt where
  ctx : Nat
  valid : Bool
  leaves : Bool
  deriving DecidableEq, Repr

/-- A plate in a buffer: header fields of R74, lane table, sections by unit, and where its image lies. -/
structure Plate where
  blocks : Nat
  slack : Nat
  id : Nat
  placeId : Nat
  beamMask : Nat
  lanes : List LaneEnt
  secs : Tbl Section
  addr : Nat
  length : Nat
  crc : Nat
  deriving DecidableEq, Repr

/-- A pending arm (R85): T_E, whether it names the active buffer, and its command's queue and slot. -/
structure Arm where
  te : Nat
  active : Bool
  q : Nat
  slot : Nat
  deriving DecidableEq, Repr

/-- A PLATE_LOAD in progress (R84): the plate to write, its folio writes not yet acknowledged, the fc of its acceptance,
and its command. -/
structure Load where
  plate : Plate
  left : Nat
  fc : Nat
  q : Nat
  slot : Nat
  deriving DecidableEq, Repr

/-- Why the whole plate drains: lock loss, abort, fault state (R97, R99, R387), and the plate time at which it ends. -/
structure Drain where
  halt : Bool
  abort : Bool
  fault : Bool
  endT : Nat
  deriving DecidableEq, Repr

/-- Herd time and plate control. -/
structure Plt where
  active : Option Plate := none
  staged : Option Plate := none
  /-- Plate time of slot 0 of the current period, and its length in slots. -/
  p0 : Nat := 0
  curN : Nat := 64
  qNext : Option Nat := none
  paused : Bool := false
  swapFire : Bool := false
  /-- FUNC_REINIT of F1 fell before slot 0 of the period that comes: it is cut to its first block (R69). -/
  cut : Bool := false
  arm : Option Arm := none
  load : Option Load := none
  drain : Option Drain := none
  /-- Lanes in their 32-slot drain, with the plate time of its end. -/
  laneDrain : Tbl Nat := []
  /-- Plate lanes to retire at the next boundary, and ports (unit, port) that died since the last one, whose plate lanes
  are retired there (R403). -/
  retirePend : Nat := 0
  killPend : List (Nat × Nat) := []
  aborts : List (Nat × Nat) := []
  /-- The fc in which the first PLATE_ABORT that still waits for a boundary was accepted. -/
  abortPend : Option Nat := none
  haltPend : Option Nat := none
  slotDone : Bool := false
  boundaryDone : Bool := true
  decisionDone : Bool := false
  throt : Bool := false
  /-- Herd time unit: fc and herd time of entry into ACQUIRE, whether from LOST, the queue and slot of a HERD_LOCK that
  awaits its reply, listed ports, whether the stepping word was taken, consecutive words out of tolerance, herd time of
  the last valid word of the reference port. -/
  acqT : Nat := 0
  fromLost : Bool := false
  reply : Option (Nat × Nat) := none
  ports : Nat := 0
  stepped : Bool := false
  outRun : Nat := 0
  lastWord : Nat := 0
  /-- Last valid timing word of each listed port (R330). -/
  portWord : Tbl Nat := []
  haltDone : Bool := true
  /-- Governor: target, own draw and demand in mW, duty, ballast, the fc of the last change of the target (R470 to R472);
  whether this block's duty is set; the monitor's last draw and the fc + 1 it was seen in (R474). -/
  pT : Nat := 0
  pR : Nat := 0
  pD : Nat := 0
  duty : Nat := 1
  ballast : Nat := 0
  govFc : Nat := 0
  blockDone : Bool := false
  monLast : Option Nat := none
  monFc : Nat := 0
  deriving DecidableEq, Repr

/-- A cell with its tag lane (R103); a piece of DAT travels in `piece`. -/
structure Cell where
  stag : Nat := 0
  count : Nat := 0
  valid : Bool := false
  poison : Bool := false
  sig : Bool := false
  sigval : Nat := 0
  data : List Byte := []
  piece : Option Piece := none
  deriving DecidableEq, Repr

/-- A cell on a link: the plate time from which the receiving unit can name it (R80), where, and by which sender it was
last forwarded. `srcs` names the streams whose cells it carries, so that its drop can be reported (R93). -/
structure Flight where
  due : Nat
  unit : Nat
  port : Nat
  lane : Nat
  cell : Cell
  srcs : List Nat := []
  deriving DecidableEq, Repr

/-- A stream (R109, R112, R126). -/
structure Strm where
  state : Nat := 0
  recv : Bool := false
  timed : Bool := false
  gate : Bool := false
  sigEn : Bool := false
  chunkLog2 : Nat := 0
  tlimit : Nat := 0
  stag : Nat := 0
  expect : Nat := 0
  length : Nat := 0
  tFirst : Nat := 0
  addr : Nat := 0
  ordinal : Nat := 0
  avail : Nat := 0
  late : Nat := 0
  dropped : Nat := 0
  short : Nat := 0
  rv : Nat := 0
  bad : Nat := 0
  lastStatus : Nat := 0
  poisoned : Bool := false
  mismatch : Bool := false
  lost : Bool := false
  ctx : Nat := 0
  entry : Nat := 0
  runFc : Nat := 0
  sigSent : Bool := false
  sigval : Nat := 0
  deriving DecidableEq, Repr

/-- The scheduled plane. Streams by station * 256 + stream; `rvq` the streams of a station with vector changes not yet
presented (R183), `rvOut` the vectors as last presented, by station * 512 + stream, + 256 for a bad vector. `esig` the signature state of combine entries (unit * 512 + entry):
latched mismatch and the last signature (R224). -/
structure Sch where
  strm : Tbl Strm := []
  flights : List Flight := []
  rvq : Tbl (List Nat) := []
  rvOut : Tbl Nat := []
  esig : Tbl (Nat × Bool) := []
  /-- Units with a lend fault in this plate period (R382). -/
  lends : List Nat := []
  deriving DecidableEq, Repr

end Sys2Proof.Machine
end

