-- ==== Sys2Proof/Machine/StEdge.lean ====
section
/-! DEFINITION. State of edge ports (chapter 9). Plain data. -/

namespace Sys2Proof.Machine

/-- A 24 B edge header (R332). -/
structure EHdr where
  dpkg : Nat := 0
  dep : Nat := 0
  path : Nat := 0
  spkg : Nat := 0
  sep : Nat := 0
  inc : Nat := 0
  syn : Bool := false
  rtx : Bool := false
  psn : Nat := 0
  edst : Nat := 0xFFF
  cpred : Nat := 0
  cpv : Bool := false
  deriving DecidableEq, Repr

/-- An edge packet at the egress: its VC code (10 ACK, 11 REDX), its bytes, those already sent in frames, the connection's
packet that it is (peer and PSN), or, for a REDX packet, the sender slot and the lines of its message (R347), and its
context. -/
structure EOut where
  vc : Nat
  bytes : List Byte
  sent : Nat := 0
  peer : Nat := 0
  psn : Nat := 0
  ctx : Nat := 0
  deriving DecidableEq, Repr

/-- A sequenced frame kept for replay (R323): link sequence number, type, VC code, flags, body. -/
structure EFrame where
  lseq : Nat
  ftype : Nat
  vc : Nat
  sof : Bool
  eof : Bool
  body : List Byte
  deriving DecidableEq, Repr

/-- An outstanding edge packet (R340): header, package packet, times sent, fc of the last send, its path, later
packets acknowledged since, whether it was fast-retransmitted, and its length in bytes. -/
structure EPkt where
  hdr : EHdr
  pkt : Packet
  sends : Nat
  lastFc : Nat
  path : Nat
  passed : Nat
  fast : Bool
  size : Nat
  deriving DecidableEq, Repr

/-- A message held for order at the receiver (R341): PSN, predecessor, package packet, sender, and the tag of its proxy
entry, for a message that takes one. -/
structure EHeld where
  psn : Nat
  cpred : Nat
  pkt : Packet
  sep : Nat
  proxy : Option Nat := none
  deriving DecidableEq, Repr

/-- A connection (R333): send half (incarnation, acknowledged, next PSN, outstanding packets, smoothed round trip and
its deviation) and receive half (incarnation, cumulative PSN, ranges above it, PSNs received and not yet delivered,
held messages), fc of the last arrival, of the last ACK, and whether one is due. -/
structure Conn where
  send : Bool := false
  inc : Nat := 0
  acked : Bool := false
  psn : Nat := 0
  outst : List EPkt := []
  rtt : Option (Nat × Nat) := none
  lastMsg : Tbl Nat := []
  recv : Bool := false
  rinc : Nat := 0
  cum : Nat := 0xFFFFFF
  got : List Nat := []
  held : List EHeld := []
  lastArr : Nat := 0
  ackFc : Nat := 0
  ackDue : Bool := false
  used : Nat := 0
  scum : Nat := 0xFFFFFF
  deriving DecidableEq, Repr

/-- A proxy entry (R334). -/
structure Proxy where
  spkg : Nat
  sep : Nat
  src : Nat
  tag : Nat
  ack : Bool
  op : Nat
  ctx : Nat
  fc : Nat
  lines : Nat
  deriving DecidableEq, Repr

/-- A circuit window (R344). -/
structure CwEnt where
  tOpen : Nat
  tClose : Nat
  pkg : Nat
  ep : Nat
  deriving DecidableEq, Repr

/-- A spine slot (R347, R349): results waiting for credit, credit of the result channel by member, its message sequence
number, and for each sender slot with a pending return the fc of its first line (R196). -/
structure Spn where
  results : List (List Byte) := []
  credit : List (Nat × Nat) := []
  mseq : Nat := 0
  pendT : Tbl Nat := []
  deriving DecidableEq, Repr

/-- A frame of a received block: its bytes, whether no uncorrectable codeword overlaps it, and herd time in the fc that
presented the first symbol of its control cell (R320, R329). -/
structure RxFrame where
  bytes : List Byte
  ok : Bool
  at_ : Nat
  deriving DecidableEq, Repr

/-- One edge port. -/
structure Ep where
  /-- Pins: optical engine ready, its reset, lanes enabled. Signal by lane stands in KEDG_LANE. -/
  oeReady : Bool := false
  oeRst : Bool := true
  txEn : Nat := 0
  /-- The block now sent (R319, R320): number of the next one, header, frames begun, and the fc it began. -/
  bnum : Nat := 0
  blkHdr : List Byte := []
  blkFrames : List (List Byte) := []
  blkFc : Nat := 0
  /-- Blocks received: good and bad in a row, the frames not yet taken; the peer's package and EP. -/
  good : Nat := 0
  badN : Nat := 0
  rxFr : List RxFrame := []
  peerPkg : Nat := 0
  peerEp : Nat := 0
  /-- Link: next sequence number, frames not acknowledged, frames to resend, last frame accepted, valid, nak, whether the
  peer was seen ready and a credit word came. -/
  txSeq : Nat := 0
  replay : List EFrame := []
  resend : List EFrame := []
  rxSeq : Nat := 0
  rxValid : Bool := false
  nak : Bool := false
  sawCred : Bool := false
  cred : Tbl Nat := []
  owed : Tbl Nat := []
  asm_ : Tbl (List Byte × Nat) := []
  inq : List (Nat × Nat × List Byte) := []
  eq : Tbl (List EOut) := []
  /-- Timing: last `t_tx` of the peer and its receive instant; a TIME frame is due. -/
  peerTx : Nat := 0
  peerRecv : Nat := 0
  timeFc : Nat := 0
  /-- Transport. -/
  conns : Tbl Conn := []
  lastInc : Tbl Nat := []
  lastOpen : Tbl Nat := []
  /-- Packets that wait at the egress for a connection (R333, R340): peer, destination endpoint there, packet. -/
  waitTx : List (Nat × Nat × Packet) := []
  shaped : List Packet := []
  proxies : Tbl Proxy := []
  useCnt : Tbl Nat := []
  /-- Spray: running sums, round trips by path, failures in a row, end of suspension. -/
  sprayC : Tbl Int := []
  prtt : Tbl Nat := []
  pfail : Tbl Nat := []
  psusp : Tbl Nat := []
  /-- Token buckets (entry * 2, + 1 for policing): tokens in 1/128 B units of 64, and the fc they were counted. -/
  bucket : Tbl (Nat × Nat) := []
  /-- Circuits. -/
  cw : Tbl CwEnt := []
  cwPhase : Nat := 0
  cwBad : Bool := false
  txq : List Cell := []
  rxq : List Cell := []
  spn : Tbl Spn := []
  /-- Messages of the spine slots whose REDX packet has been sent or lost, to be popped: sender slot and lines (R347). -/
  redxDone : List (Nat × Nat) := []
  deriving DecidableEq, Repr

end Sys2Proof.Machine
end

