-- ==== Sys2Proof/Machine/StObs.lean ====
section
/-! DEFINITION. State of observability (chapter 14): capture units, trace buffers, counter reads. Plain data. -/

namespace Sys2Proof.Machine

/-- A capture unit (R493). `now` are its samples of fc `nowFc` - 1, which the other fields do not count yet: a clear in
that fc leaves them to the new interval (R500). -/
structure Cap where
  count : Nat := 0
  min_ : Nat := 0xFFFFFFFF
  max_ : Nat := 0
  bins : Tbl Nat := []
  tStart : Nat := 0
  now : List Nat := []
  nowFc : Nat := 0
  deriving DecidableEq, Repr

/-- A trace record (R496); `idx` is its place in the whole sequence of its buffer's records. -/
structure TrcRec where
  stamp : Nat
  tkind : Nat
  lk : Bool
  gap : Bool
  tev : Nat
  rctx : Nat
  rsrc : Nat
  payload : List Byte
  deriving DecidableEq, Repr

/-- A trace buffer (R495 to R498): mode, trigger event, records to keep after the trigger, dump address, records held
(oldest first), whether records were lost before the next one, the fc (+ 1) of the last record, records still to come
after the trigger, index of the trigger record, whether it must stop, WRITEs of its dump not yet visible, and the fc (+ 1)
in which a `tstop` stopped it while armed. -/
structure Trc where
  mode : Nat := 0
  event : Nat := 0
  post : Nat := 0
  dump : Nat := 0
  recs : List TrcRec := []
  gap : Bool := false
  lastFc : Nat := 0
  left : Option Nat := none
  trig : Option Nat := none
  stop : Bool := false
  writes : Nat := 0
  cutFc : Nat := 0
  deriving DecidableEq, Repr

/-- Who asked for a counter read (R490): a command by queue and slot, the package read port, a station's port. -/
inductive RdBy where
  | command (q slot : Nat)
  | package
  | station (st : Nat)
  deriving DecidableEq, Repr

/-- A counter read waiting for the sweeper: asker, address, context asked as (none: management), whether a bound
context is missing. -/
structure RdReq where
  who : RdBy
  addr : Nat
  ctx : Option Nat
  deriving DecidableEq, Repr

/-- Observability. `reads` wait for the sweeper, `samp` are sampled at the end of this fc (R490); `latch` holds the high words latched by reads of low words (R483); `cfgFc` the fc + 1 of the last
configuration write of an event counter (unit * 4 + k); `capT0` the stamp of the last clear of every capture unit. -/
structure Obs where
  cap : Tbl Cap := []
  capT0 : Nat := 0
  trc : Tbl Trc := []
  reads : List RdReq := []
  samp : List RdReq := []
  latch : Tbl Nat := []
  cfgFc : Tbl Nat := []
  deriving DecidableEq, Repr

end Sys2Proof.Machine
end

