-- ==== Sys2Proof/Machine/State.lean ====
section
/-! DEFINITION. The state of the block, as plain data, and the state after reset. -/

namespace Sys2Proof.Machine

/-- Why the block stops with a fault: never. The spec gives every event of the table an effect, and the conditions the
hardware calls faults are state (KFLT_*). The constructor keeps the type inhabited; nothing raises it. -/
inductive Fault where
  /-- Raised by nothing. Safe. -/
  | unused
  deriving DecidableEq, Repr

/-- Why a command has no meaning in the model. -/
inductive Refusal where
  /-- Raised by an arm of `exec` whose command is not modelled. Safe: the machine stops. -/
  | notModelled (mnemonic : String)
  deriving DecidableEq, Repr

/-- What the integrator fuses (R454). -/
structure Fuses where
  cdSites : Nat := 66
  cdActive : Nat := 64
  slices : Nat := 32
  edgePorts : Nat := 64
  tines : Nat := 32
  beams : Nat := 22
  wiring : Tbl Nat := []
  arbSeed : Nat := 0
  keyHash : Nat := 0
  psvMin : Nat := 0
  sramLog2 : Nat := 20
  sliceGib : Nat := 24
  bgroups : Nat := 4
  /-- Power coefficients, in mW: of one busy lane of each of the seven unit types, `p_base` of the reference package (R56,
  R470), and of one lane that carries DAT (R471). The spec gives `p_base` alone. -/
  power : List Nat := [0, 0, 0, 0, 0, 0, 0, 140000, 0]
  idcodeMfr : Nat := 0
  dbgEn : Bool := false
  deriving DecidableEq, Repr

/-- The whole block with its queue of waiting commands. `shadow` holds the values that register fields written in this
fc had before (R164, R360): a decision of this fc still uses them. -/
structure State where
  pending : List Instr := []
  fc : Nat := 0
  herdTime : Nat := 0
  plateTime : Nat := 0
  freeCtr : Nat := 0
  regs : Tbl Nat := []
  shadow : Tbl Nat := []
  /-- Events of this fc (R16): for each W1C field the bits set, for each RC field what was counted. -/
  evNow : Tbl Nat := []
  mem : Memory := ⟨[], [], [], []⟩
  fuse : Fuses := {}
  net : Net := {}
  sta : Sta := {}
  msp : Msp := {}
  irq : Irq := {}
  flt : Flt := {}
  plt : Plt := {}
  sch : Sch := {}
  col : Col := {}
  obs : Obs := {}
  ep : Tbl Ep := []
  cx : Cx := {}
  boot : Boot := {}
  /-- Contexts fenced in the whole package (R420). -/
  ctxFence : Tbl Bool := []
  /-- Fence flags of one unit written by folio since (R455): unit * 4096 + context. -/
  fenceOver : Tbl Bool := []
  deriving DecidableEq, Repr

/-- The state right after reset: PORST_N has been released with the fabric clock locked (R440, R441). Every register
holds its table's reset value, herd time and plate time are 0 (R58, R69), nothing is placed anywhere, and start-up is at
step 1 with every die site still to be powered (R442), the governor's target and draw are `p_base` (R475). The fuses are those of the reference package (R54, R454). -/
def State.reset : State :=
  { plt := { pT := 140000, pD := 140000, pR := 140000 }, boot := { clk := true, sitesLeft := List.range 66 } }

/-- The block is held in reset, or its clock has not locked: nothing in it runs (R440, R441). -/
def State.inReset (s : State) : Bool := !(s.boot.porstN && s.boot.pwrgd && s.boot.hrstN && s.boot.clk)

/-- A state in the hands of one command, with the stores it has made so far. -/
structure W extends State where
  stores : List Store := []

/-- The state after the effect `f` on `s`: the stores it made are performed on the memories, and the queue of waiting
commands is the one it found. -/
def State.after (s : State) (f : W → W) : State :=
  let w := f { toState := s, stores := [] }
  { w.toState with mem := s.mem.apply w.stores, pending := s.pending }

/-- Run a command's effect. -/
def runPin (f : W → W) (s : State) : Host.Outcome State Fault Refusal := .next (s.after f)

/-- Run a command that is not an event of a reset pin or of the clock: it has no effect while the block is held in
reset. -/
def run (f : W → W) (s : State) : Host.Outcome State Fault Refusal :=
  if s.inReset then .next s else runPin f s

end Sys2Proof.Machine
end

