-- ==== Sys2Proof/Machine/Ops.lean ====
section
/-! DEFINITION. The named operations over registers, numbering and memory that every meaning uses. -/

namespace Sys2Proof.Machine

/-! ### Windows of the register map -/

/-- Window of physical station `n` (R52). -/
def stnB (n : Nat) : Nat := 0x1000000 + n * 0x1000
/-- Window of router `r`, in the numbering of Machine/StNet.lean (R468). -/
def rtrB (r : Nat) : Nat := 0x2000000 + r * 0x1000
/-- Window of memory port `m`. -/
def mspB (m : Nat) : Nat := 0x2800000 + m * 0x10000
/-- Window of edge port `e`. -/
def epB (e : Nat) : Nat := 0x2C00000 + e * 0x10000
/-- Identity and global control. -/
def gblB : Nat := 0
/-- Command queue `q`. -/
def cmdB (q : Nat) : Nat := 0x0110000 + q * 0x100
/-- Fault collector. -/
def fltB : Nat := 0x0200000
/-- Package interrupt controller. -/
def intPB : Nat := 0x0300000
/-- Region interrupt controller of physical region `p` (R376). -/
def intRB (p : Nat) : Nat := 0x0310000 + p * 0x1000
/-- Herd time unit, plate control and governor. -/
def hrdB : Nat := 0x0400000
/-- Observability. -/
def obsB : Nat := 0x0500000

/-- The window of a unit of the arbitrated plane. -/
def unitB (u : Nat) : Nat :=
  if u < 0x1000 then rtrB u else if u < 0x2000 then stnB (u - 0x1000) else if u < 0x2040 then mspB (u - 0x2000)
  else epB (u - 0x2040)

/-- Entry `n` of an array of registers. -/
def Fld.at (f : Fld) (n : Nat) : Fld := { f with off := f.off + f.stride * n }

/-- Read a register field: window `b`, selected object `i`. -/
def State.rd (s : State) (b : Nat) (f : Fld) (i : Nat := 0) : Nat := Tbl.get (f.dflt i) s.regs (f.key b i)

/-- Write a register field; the value is cut to the field's width. -/
def W.wr (w : W) (b : Nat) (f : Fld) (v : Nat) (i : Nat := 0) : W :=
  { w with regs := Tbl.set (f.dflt i) w.regs (f.key b i) (v % 2 ^ f.width) }

/-- What events of this fc put into a field that a read or write may clear (R16). -/
def State.evSince (s : State) (b : Nat) (f : Fld) (i : Nat := 0) : Nat := Tbl.get 0 s.evNow (f.key b i)

/-- Record what an event of this fc puts into a field (R16). -/
def State.evPut (s : State) (b : Nat) (f : Fld) (v : Nat) (i : Nat := 0) : Tbl Nat := Tbl.set 0 s.evNow (f.key b i) v

/-- Add to a counter field, stopping at its maximum. -/
def W.inc (w : W) (b : Nat) (f : Fld) (k : Nat := 1) (i : Nat := 0) : W :=
  { w.wr b f (satAdd f.width (w.rd b f i) k) i with
    evNow := if f.acc = .rc then w.evPut b f (satAdd f.width (w.evSince b f i) k) i else w.evNow }

/-- An event sets bits of a W1C field. -/
def W.flag (w : W) (b : Nat) (f : Fld) (v : Nat := 1) (i : Nat := 0) : W :=
  { w.wr b f (w.rd b f i ||| v) i with evNow := w.evPut b f (w.evSince b f i ||| v) i }

/-- A read of an RC field clears it, but for what events of this fc counted (R16). -/
def W.clearRc (w : W) (b : Nat) (f : Fld) (i : Nat := 0) : W := w.wr b f (w.evSince b f i) i

/-- Bits of a W1C field are cleared, but for those that events of this fc set (R16). -/
def W.clearW1c (w : W) (b : Nat) (f : Fld) (mask : Nat) (i : Nat := 0) : W :=
  w.wr b f (w.rd b f i - (w.rd b f i &&& mask) ||| (w.evSince b f i &&& mask)) i

/-- Subtract from a field, stopping at 0. -/
def W.dec (w : W) (b : Nat) (f : Fld) (k : Nat := 1) (i : Nat := 0) : W := w.wr b f (w.rd b f i - k) i

/-- The value a field had before the writes of this fc (R164, R360). -/
def State.rdOld (s : State) (b : Nat) (f : Fld) (i : Nat := 0) : Nat :=
  Tbl.get (s.rd b f i) s.shadow (f.key b i)

/-- Write a field whose new value decisions use only from the next fc. -/
def W.wrLate (w : W) (b : Nat) (f : Fld) (v : Nat) (i : Nat := 0) : W :=
  let sh := if (w.shadow.find (f.key b i)).isSome then w.shadow else w.shadow.put (f.key b i) (w.rd b f i)
  { w.wr b f v i with shadow := sh }

/-- Raise a maximum field. -/
def W.high (w : W) (b : Nat) (f : Fld) (v : Nat) (i : Nat := 0) : W :=
  if w.rd b f i < v then { w.wr b f v i with evNow := if f.acc = .rc then w.evPut b f v i else w.evNow } else w

/-- A 32-bit word or a 64-bit pair held as two fields. -/
def State.rd2 (s : State) (b : Nat) (lo hi : Fld) (i : Nat := 0) : Nat :=
  s.rd b lo i * 2 ^ lo.lsb + s.rd b hi i * 2 ^ 32

/-- When `c` holds, apply `f`. -/
def W.iff (w : W) (c : Bool) (f : W → W) : W := if c then f w else w

/-- Apply `f` for each element of a list, in order. -/
def W.each {α : Type} (w : W) (l : List α) (f : W → α → W) : W := l.foldl f w

/-! ### Numbering (R50 to R53) -/

/-- The die site of logical die `d` (KFLT_DMAP). -/
def State.siteOf (s : State) (d : Nat) : Nat := s.rd fltB KFLT_DMAP.dsite d

/-- The physical region of a logical station. -/
def State.pregOf (s : State) (l : Nat) : Nat := s.siteOf (l / 32) * 2 + l / 16 % 2

/-- The position in its region of a logical station: 16 when the spare station stands in for it (R53). -/
def State.posOf (s : State) (l : Nat) : Nat :=
  let p := s.pregOf l
  if s.rd fltB KFLT_SMAP.sbound p = 1 ∧ s.rd fltB KFLT_SMAP.spos p = l % 16 then 16 else l % 16

/-- The physical station at a position of a physical region (R51). -/
def physAt (preg pos : Nat) : Nat := preg / 2 * 34 + preg % 2 * 17 + pos

/-- The physical station that bears logical station `l` (R22). -/
def State.phys (s : State) (l : Nat) : Nat := physAt (s.pregOf l) (s.posOf l)

/-- The logical die that sits on a site, if any. -/
def State.dieOn (s : State) (site : Nat) : Option Nat :=
  (List.range s.fuse.cdActive).find? (fun d => s.siteOf d == site)

/-- The physical region of a physical station, and its position. -/
def pregOfPhys (n : Nat) : Nat := n / 34 * 2 + n % 34 / 17
def posOfPhys (n : Nat) : Nat := n % 34 % 17

/-- The logical station on a physical station, if any: none for an unbound spare station, a replaced station, and a
site that bears no logical die. -/
def State.logi (s : State) (n : Nat) : Option Nat :=
  let p := pregOfPhys n
  match s.dieOn (n / 34) with
  | none => none
  | some d =>
    let bound := s.rd fltB KFLT_SMAP.sbound p = 1
    let sp := s.rd fltB KFLT_SMAP.spos p
    if posOfPhys n = 16 then (if bound then some (d * 32 + p % 2 * 16 + sp) else none)
    else if bound ∧ sp = posOfPhys n then none else some (d * 32 + p % 2 * 16 + posOfPhys n)

/-- Logical stations of the package: 0 to 32 × `cd_active` − 1. -/
def State.nStations (s : State) : Nat := 32 * s.fuse.cdActive

/-- The unit (Machine/StNet.lean) that bears an endpoint number (R21). -/
def State.unitOf (s : State) (ep : Nat) : Nat :=
  if ep < 0x800 then 0x1000 + s.phys ep else if ep < 0x840 then 0x2000 + (ep - 0x800)
  else if ep < 0x880 then 0x2040 + (ep - 0x840) else 0x2080 + (ep - 0x880)

/-- The endpoint number of a unit; 0xFFF for a station that bears no logical station. -/
def State.epOf (s : State) (u : Nat) : Nat :=
  if u < 0x2000 then (s.logi (u - 0x1000)).getD 0xFFF else if u < 0x2040 then 0x800 + (u - 0x2000)
  else if u < 0x2080 then 0x840 + (u - 0x2040) else 0x880 + (u - 0x2080)

/-- The physical beam under logical beam `k`, if any (R92). -/
def State.beamOf (s : State) (k : Nat) : Option Nat :=
  match s.net.beamMap.find k with
  | none => some k
  | some 0 => none
  | some b => some (b - 1)

/-- The logical beam that physical beam `b` serves, if any. -/
def State.beamBy (s : State) (b : Nat) : Option Nat := (List.range 20).find? (fun k => s.beamOf k == some b)

/-- The logical beams that have a physical beam, in order (R221, R296). -/
def State.beamsLive (s : State) : List Nat := (List.range 20).filter (fun k => (s.beamOf k).isSome)

/-! ### Herd time -/

/-- Serial comparison on `n` bits: `b` is later than or the same as `a` (R66). -/
def notEarlier (b a n : Nat) : Bool := (b + 2 ^ n - a % 2 ^ n) % 2 ^ n < 2 ^ (n - 1)

/-- Ticks from herd time `a` to herd time `b`. -/
def since (b a : Nat) : Nat := (b + 2 ^ 64 - a) % 2 ^ 64

/-! ### Memory window and core SRAM -/

/-- The memories as the stores of this command leave them. -/
def W.now (w : W) : Memory := w.mem.apply w.stores

/-- Make one store. -/
def W.put (w : W) (st : Store) : W := { w with stores := w.stores ++ [st] }

/-- Read `n` bytes of the memory window at local offset `a`. -/
def W.memRead (w : W) (a n : Nat) : List Byte := getBytes w.now.cells a n

/-- A line of the memory window is poisoned. -/
def W.memPois (w : W) (a : Nat) : Bool := Tbl.get false w.now.pois (a / 64)

/-- Poison of the 64 B lines that bytes `a` to `a + n - 1` touch: bit j for the j-th line. -/
def W.memPoisMask (w : W) (a n : Nat) : Nat :=
  let k := (a % 64 + n + 63) / 64
  (List.range k).foldl (fun m j => if w.memPois (a / 64 * 64 + 64 * j) then m + 2 ^ j else m) 0

/-- Write one piece of a line: the bytes, and the line's poison bit: set when the data is poisoned, cleared when the
whole line is written clean, else kept (R292, R308). `sram` chooses the space, `base` is the line's first key. -/
def W.writePart (w : W) (sram : Bool) (a : Nat) (d : List Byte) (poison : Bool) : W :=
  let w := w.put (.bytes sram a d)
  if poison then w.put (.poison sram (a / 64) true)
  else if a % 64 = 0 ∧ d.length = 64 then w.put (.poison sram (a / 64) false) else w

/-- Split bytes at 64 B line boundaries: (address, bytes, index of the part). -/
def splitLines : Nat → Nat → Nat → List Byte → List (Nat × List Byte × Nat)
  | 0, _, _, _ => []
  | _ + 1, _, _, [] => []
  | f + 1, a, j, b :: bs =>
    let n := 64 - a % 64
    (a, (b :: bs).take n, j) :: splitLines f (a + n) (j + 1) ((b :: bs).drop n)

/-- Write bytes to the memory window; bit j of `pois` poisons the j-th line touched. -/
def W.memWrite (w : W) (a : Nat) (d : List Byte) (pois : Nat := 0) : W :=
  w.each (splitLines (d.length + 1) a 0 d) (fun w p => w.writePart false p.1 p.2.1 (bit pois p.2.2))

/-- Read `n` bytes of the SRAM of physical station `st`. -/
def W.sramRead (w : W) (st a n : Nat) : List Byte := getBytes w.now.sram (sramKey st a) n

/-- A line of core SRAM is poisoned. -/
def W.sramPois (w : W) (st a : Nat) : Bool := Tbl.get false w.now.spois (sramKey st a / 64)

/-- Poison of the lines that bytes of core SRAM touch. -/
def W.sramPoisMask (w : W) (st a n : Nat) : Nat :=
  let k := (a % 64 + n + 63) / 64
  (List.range k).foldl (fun m j => if w.sramPois st (a / 64 * 64 + 64 * j) then m + 2 ^ j else m) 0

/-- Write bytes to core SRAM. -/
def W.sramWrite (w : W) (st a : Nat) (d : List Byte) (pois : Nat := 0) : W :=
  w.each (splitLines (d.length + 1) (sramKey st a) 0 d) (fun w p => w.writePart true p.1 p.2.1 (bit pois p.2.2))

/-! ### Addresses (R272 to R279) -/

/-- The package's own number (R479). -/
def State.pkgNum (s : State) : Nat := s.rd gblB KGBL_PKG.pkg_num

/-- The package an address names: the package's own for a local address. -/
def State.addrPkg (s : State) (a : Nat) : Nat := if bit a 63 then bits a 46 17 else s.pkgNum

/-- A local address with bits [62:46] set is malformed (R273). -/
def addrOk (a : Nat) : Bool := bit a 63 || bits a 46 17 == 0

/-- Local offset (R272). -/
def loff (a : Nat) : Nat := bits a 0 46

/-- The address in its global form (R289). -/
def State.globalForm (s : State) (a : Nat) : Nat := 2 ^ 63 + s.addrPkg a * 2 ^ 46 + loff a

/-- The address is in the endpoint window (R274). -/
def isEpWin (a : Nat) : Bool := bits a 40 6 == 0x3F

/-- First offset beyond the memory window's populated part (R275). -/
def State.memTop (s : State) : Nat := 32 * s.fuse.sliceGib * 2 ^ 30

/-- Slice and port of a memory offset (R278). -/
def sliceOf (l : Nat) : Nat × Nat :=
  let g := bits l 8 38
  let h := g ^^^ (g / 2) ^^^ (g / 2 ^ 19)
  let s := (List.range 8).foldl (fun s j => s ^^^ bits h (5 * j) 5) 0
  (s, if parity (g &&& 0x2CB2CB2CB2) 38 then 1 else 0)

/-- The memory port of a memory offset: 2 s + q (R35, R276). -/
def portOf (l : Nat) : Nat := 2 * (sliceOf l).1 + (sliceOf l).2

/-- Memory ports that are dead endpoints (R401, R402). -/
def State.deadPorts (s : State) : List Nat := (List.range 64).filter (fun m => Tbl.get false s.net.deadEp (0x800 + m))

/-- The status of a command's read of `n` bytes at memory offset `a`: a dead memory port answers DEAD_TARGET, a poisoned
line POISON (R513). -/
def W.imageStatus (w : W) (a n : Nat) : Nat :=
  let d := w.deadPorts
  if d ≠ [] ∧ (List.range ((a % 64 + n + 63) / 64)).any (fun j => d.contains (portOf (a / 64 * 64 + 64 * j))) then 0x05
  else if w.memPoisMask a n ≠ 0 then 0x06 else 0

/-- Slice-local byte address (R279). -/
def sliceLocal (l : Nat) : Nat := l / 2 ^ 13 * 256 + l % 256

/-- Poison by line touched, of a payload written at `a` whose 64 B chunks are poisoned by `m`: a chunk that is not aligned
lies in two lines. -/
def linePois (a m : Nat) : Nat := if a % 64 = 0 then m else m ||| (m * 2)

/-- Bytes `a` to `a + n - 1` lie within one aligned block of `b` bytes. -/
def inBlock (a n b : Nat) : Bool := a / b == (a + n - 1) / b

end Sys2Proof.Machine
end

