-- ==== Sys2Proof/Machine/Flags.lean ====
section
/-! DEFINITION. Flags that events set: interrupt sources (chapter 10). The fault collector's are in
Machine/Collector.lean. -/

namespace Sys2Proof.Machine

/-! ### Interrupt sources -/

/-- Source keys (Machine/StUnit.lean). -/
def bankSrc (st n : Nat) : Nat := st * 32 + n
def regSrc (p n : Nat) : Nat := 0x20000 + p * 64 + n
def pkgSrc (n : Nat) : Nat := 0x30000 + n

/-- Origin of a source key: 1 bank, 2 region, 3 package (R375). -/
def srcOrig (k : Nat) : Nat := if k < 0x20000 then 1 else if k < 0x30000 then 2 else 3

/-- Source number within its controller, and its bank's station or its physical region. -/
def srcNum (k : Nat) : Nat :=
  if k < 0x20000 then k % 32 else if k < 0x30000 then (k - 0x20000) % 64 else k - 0x30000
def srcUnit (k : Nat) : Nat := if k < 0x20000 then k / 32 else if k < 0x30000 then (k - 0x20000) / 64 else 0

/-- Configuration fields of a source: a write in this fc acts from the next (R360). -/
def State.srcPrio (s : State) (k : Nat) : Nat :=
  match srcOrig k with
  | 1 => s.rdOld (stnB (srcUnit k)) (KSTN_IRQ_SRC.prio.at (srcNum k))
  | 2 => s.rdOld (intRB (srcUnit k)) (KINT_RSRC_CFG.prio.at (srcNum k))
  | _ => s.rdOld intPB (KINT_PSRC_CFG.prio.at (srcNum k))
def State.srcCcount (s : State) (k : Nat) : Nat :=
  match srcOrig k with
  | 1 => s.rdOld (stnB (srcUnit k)) (KSTN_IRQ_SRC.ccount.at (srcNum k))
  | 2 => s.rdOld (intRB (srcUnit k)) (KINT_RSRC_COAL.ccount.at (srcNum k))
  | _ => s.rdOld intPB (KINT_PSRC_COAL.ccount.at (srcNum k))
def State.srcCtime (s : State) (k : Nat) : Nat :=
  match srcOrig k with
  | 1 => s.rdOld (stnB (srcUnit k)) (KSTN_IRQ_SRC.ctime.at (srcNum k))
  | 2 => s.rdOld (intRB (srcUnit k)) (KINT_RSRC_COAL.ctime.at (srcNum k))
  | _ => s.rdOld intPB (KINT_PSRC_COAL.ctime.at (srcNum k))

/-- The kind of a source, by the source tables of R361, R364 and R365. -/
def srcLevel (k : Nat) : Bool :=
  match srcOrig k with
  | 1 => srcNum k == 8 || srcNum k == 19 || srcNum k == 20
  | 2 => 9 ≤ srcNum k && srcNum k ≤ 24
  | _ => srcNum k ≤ 31 || srcNum k == 42

/-- The package fence flag of a context at a unit (R419). -/
def State.pkgFenced (s : State) (u ctx : Nat) : Bool :=
  match s.fenceOver.find (u * 4096 + ctx) with
  | some b => b
  | none => Tbl.get false s.ctxFence ctx

/-- A context is fenced at a station: in the whole package or at that station (R404, R420). -/
def State.ctxFencedAt (s : State) (st ctx : Nat) : Bool :=
  s.pkgFenced (0x1000 + st) ctx || Tbl.get false s.sta.fctx (st * 4096 + ctx)

/-- The station is fenced for every context (R405). -/
def State.fencedAll (s : State) (st : Nat) : Bool := s.rd (stnB st) KSTN_FENCE.fenced_all == 1

/-- Kinds of objects that a context binds at a station (R179). -/
def objKey (kind st i : Nat) : Nat := (kind * 4096 + st) * 1024 + i

/-- The context of an object, 0 when it is bound to none (context 0x000 is never bound, R418). Kinds: 0 queue,
1 completion queue, 2 channel, 3 ring, 4 stream, 5 counter, 6 window entry, 7 pool table entry, 8 member table. -/
def State.objCtx (s : State) (kind st i : Nat) : Nat := Tbl.get 0 s.sta.bind (objKey kind st i)

/-- The object is bound to this context. -/
def State.owns (s : State) (kind st i ctx : Nat) : Bool := ctx != 0 && s.objCtx kind st i == ctx

/-- Some context bound to an object of the station is fenced (source 20, R361). -/
def State.anyFenced (s : State) (st : Nat) : Bool :=
  s.sta.bind.any (fun e => e.1 / 1024 % 4096 == st && s.ctxFencedAt st e.2)

/-- The condition of a level source (R361, R364, R365). -/
def State.levelCond (s : State) (k : Nat) : Bool :=
  let u := srcUnit k
  let n := srcNum k
  match srcOrig k with
  | 1 =>
    if n = 8 then (s.sta.offer.find u).isSome
    else if n = 19 then s.fencedAll u
    else s.anyFenced u
  | 2 =>
    match s.dieOn (u / 2) with
    | none => false
    | some d => s.fencedAll (s.phys (d * 32 + u % 2 * 16 + (n - 9)))
  | _ =>
    if n = 42 then s.rd hrdB KPLT_PAUSE.gov_q != 0
    else s.rd fltB (KFLT_STICKY.sticky.at n) != 0

def State.irq1 (s : State) (k : Nat) : IrqSrc := Tbl.get {} s.irq.src k
def W.irqSet (w : W) (k : Nat) (v : IrqSrc) : W := { w with irq.src := Tbl.set {} w.irq.src k v }

/-- The source is pending (R356). -/
def State.irqPending (s : State) (k : Nat) : Bool :=
  if srcLevel k then s.levelCond k && !(s.irq1 k).active && (s.irq1 k).doneFc != s.fc + 1
  else (s.irq1 k).pending

/-- One event of an edge source (R356): it counts, starts the timer when it is the first, and makes the source pending
when the count reaches `ccount`. -/
def W.irq1 (w : W) (k : Nat) (cnt : Nat := 1) : W :=
  if cnt = 0 ∨ srcLevel k then w else
  let i := w.toState.irq1 k
  let ev := min 255 (i.events + cnt)
  let i := { i with
    events := ev
    tstart := if i.events = 0 then w.herdTime else i.tstart
    nowEv := (if i.nowFc = w.fc + 1 then i.nowEv else 0) + cnt
    nowFc := w.fc + 1 }
  w.irqSet k (if w.srcCcount k ≤ ev ∧ !i.pending then { i with pending := true, pendFc := w.fc + 1 } else i)

/-- What a `ccount` written in an fc, `was` before it, does to its source from the next fc (R360): lowered to or below
`events` it makes the source pending, raised above `events` it leaves the source not pending (DEDUCED, log). -/
def IrqSrc.recount (i : IrqSrc) (was now fc : Nat) : IrqSrc :=
  if 0 < i.events ∧ now ≤ i.events ∧ !i.pending then { i with pending := true, pendFc := fc }
  else if was < now ∧ i.events < now then { i with pending := false }
  else i

/-- The sources follow the values of `ccount` written in this fc (R360). -/
def W.irqRecount (w : W) : W :=
  if w.shadow = [] then w else
  let now : State := { w.toState with shadow := [] }
  { w with irq.src := w.irq.src.map (fun (e : Nat × IrqSrc) =>
      if srcLevel e.1 then e else (e.1, e.2.recount (w.srcCcount e.1) (now.srcCcount e.1) (w.fc + 1))) }

/-- The interrupt event of source `n` of a station's bank, of a region, of the package. -/
def W.irqB (w : W) (st n : Nat) : W := w.irq1 (bankSrc st n)
def W.irqR (w : W) (p n : Nat) : W := w.irq1 (regSrc p n)
def W.irqP (w : W) (n : Nat) : W := w.irq1 (pkgSrc n)

/-- Targets: `ttype` and `tcore` as one number (ttype * 4096 + tcore). An active source keeps the target it was claimed
at until its completion (R360). -/
def State.srcTarget (s : State) (k : Nat) : Nat :=
  if (s.irq1 k).active then (s.irq1 k).held
  else if srcOrig k = 2 then
    s.rdOld (intRB (srcUnit k)) (KINT_RSRC_CFG.ttype.at (srcNum k)) * 4096
      + s.rdOld (intRB (srcUnit k)) (KINT_RSRC_CFG.tcore.at (srcNum k))
  else s.rdOld intPB (KINT_PSRC_CFG.ttype.at (srcNum k)) * 4096 + s.rdOld intPB (KINT_PSRC_CFG.tcore.at (srcNum k))

/-- A target that claims: a physical station, 5000 for the FMP, 5001 for the host. -/
def State.srcFor (s : State) (tgt k : Nat) : Bool :=
  let t := s.srcTarget k
  if tgt = 5000 then t / 4096 == 1 else if tgt = 5001 then t / 4096 == 2
  else match s.logi tgt with
    | none => false
    | some l => t / 4096 == 0 && (if srcOrig k = 2 then srcUnit k == pregOfPhys tgt && t % 4096 % 16 == l % 16
                                  else t % 4096 == l)

/-- Stack key of a target. -/
def State.stkKey (s : State) (tgt : Nat) : Nat :=
  if tgt = 5000 ∨ tgt = 5001 then tgt
  else pregOfPhys tgt * 16 + ((s.logi tgt).getD 0) % 16

def State.stkOf (s : State) (tgt : Nat) : List StkEnt := (s.irq.stk.find (s.stkKey tgt)).getD []

/-- Stack running level: the top entry's priority (R367). -/
def State.runStack (s : State) (tgt : Nat) : Nat :=
  match s.stkOf tgt with
  | [] => 0
  | e :: _ => e.prio

/-- Bank running level: the highest priority among active sources (R362). -/
def State.runBank (s : State) (st : Nat) : Nat :=
  (List.range 32).foldl (fun m n => if (s.irq1 (bankSrc st n)).active then max m (s.srcPrio (bankSrc st n)) else m) 0

/-- Running level and threshold of a target (R369). -/
def State.runLevel (s : State) (tgt : Nat) : Nat :=
  if tgt = 5000 ∨ tgt = 5001 then s.runStack tgt else max (s.runBank tgt) (s.runStack tgt)
def State.thrOf (s : State) (tgt : Nat) : Nat :=
  if tgt = 5000 then s.rdOld intPB KINT_FMP_THR.thr else if tgt = 5001 then s.rdOld intPB KINT_HOST_THR.thr
  else s.rdOld (stnB tgt) KSTN_IRQ_THR.thr

/-- Sources that could be pending for a target: those with running state, and the level sources of its controllers. -/
def State.srcList (s : State) (tgt : Nat) : List Nat :=
  let lv := if tgt = 5000 ∨ tgt = 5001 then [] else
    [bankSrc tgt 8, bankSrc tgt 19, bankSrc tgt 20]
      ++ (List.range 16).map (fun j => regSrc (pregOfPhys tgt) (9 + j))
  let rl := if tgt = 5000 ∨ tgt = 5001 then
    (List.range 132).flatMap (fun p => (List.range 16).map (fun j => regSrc p (9 + j))) else []
  lv ++ rl ++ (List.range 32).map pkgSrc ++ [pkgSrc 42]
    ++ (s.irq.src.map (fun e => e.1)).filter (fun k => !srcLevel k && (srcOrig k != 1 || srcUnit k == tgt))

/-- The source is eligible at the target (R357): pending, not active, its priority above the threshold and the running
level. A source of another bank, or of the region controller of a die that sleeps (R373), is never eligible. -/
def State.eligibleIrq (s : State) (tgt k : Nat) : Bool :=
  s.srcPrio k != 0 && s.irqPending k && !(s.irq1 k).active
    && (if srcOrig k = 1 then srcUnit k == tgt else s.srcFor tgt k)
    && !(srcOrig k == 2 && (s.irq.saved.find (srcUnit k / 2)).isSome)
    && s.thrOf tgt < s.srcPrio k && s.runLevel tgt < s.srcPrio k

/-- `a` wins over `b` (R369): priority, then bank, package, region, then lower region, then lower number. -/
def State.beats (s : State) (a b : Nat) : Bool :=
  let rank (k : Nat) : Nat := match srcOrig k with | 1 => 0 | 3 => 1 | _ => 2
  if s.srcPrio a != s.srcPrio b then s.srcPrio b < s.srcPrio a
  else if rank a != rank b then rank a < rank b
  else if srcUnit a != srcUnit b then srcUnit a < srcUnit b
  else srcNum a < srcNum b

/-- The die of a station sleeps: claims return 0 and `kp_irq` is 0 (R373). -/
def State.irqAsleep (s : State) (tgt : Nat) : Bool :=
  tgt != 5000 && tgt != 5001 && (s.irq.saved.find (tgt / 34)).isSome

/-- The winner at a target among the sources that `sel` keeps (R369). -/
def State.winnerOf (s : State) (tgt : Nat) (sel : Nat → Bool) : Option Nat :=
  if s.irqAsleep tgt then none else
  ((s.srcList tgt).filter (fun k => s.eligibleIrq tgt k && sel k)).foldl
    (fun b k => match b with
      | none => some k
      | some j => if s.beats k j then some k else some j) none

/-- The winner that a claim of this fc takes: an edge source that an event of this fc made pending is not yet one (R357,
R371). -/
def State.irqWinner (s : State) (tgt : Nat) : Option Nat := s.winnerOf tgt (fun k => (s.irq1 k).pendFc != s.fc + 1)

/-- `kp_irq_level` of the fc after this one, 0 with `kp_irq` 0 when no winner exists in this fc (R370). -/
def State.irqLevel (s : State) (tgt : Nat) : Nat :=
  match s.winnerOf tgt (fun _ => true) with
  | none => 0
  | some k => s.srcPrio k

/-- A completion of a source (R359): it is not active any more. -/
def W.irqComplete (w : W) (k : Nat) : W :=
  let i := w.toState.irq1 k
  w.irqSet k { i with active := false, doneFc := w.fc + 1 }

end Sys2Proof.Machine
end

