-- ==== Sys2Proof/Machine/Events.lean ====
section
/-! DEFINITION. What units report to observability as things happen (chapter 14): occurrences to event counters, samples
to capture units, records to trace buffers. -/

namespace Sys2Proof.Machine

/-- Add `n` to event counter `k` of a unit, with wraps carried into chained successors (R486, R487). -/
def W.ecAdd (w : W) (b : Nat) : Nat → Nat → Nat → W
  | 0, _, _ => w
  | f + 1, k, n =>
    let v := w.rd b (K_ECNT.ecnt.at k) + n
    let w := w.wr b (K_ECNT.ecnt.at k) (v % 2 ^ 32)
    let wraps := v / 2 ^ 32
    if wraps = 0 then w
    else if k < 3 ∧ w.rd b (K_ECFG.chain.at (k + 1)) = 1 then w.ecAdd b f (k + 1) wraps
    else (w.flag b (K_EOVF.eovf.at k)).irqP 44

/-- `n` occurrences of count event `code` at unit `u` (R486, R488), for context `ctx`, port and VC where the event has
them. A configuration written in this fc does not count yet (R500). -/
def W.ev (w : W) (u code : Nat) (n : Nat := 1) (ctx : Nat := 0) (port : Nat := 0) (vc : Nat := 0) : W :=
  let b := unitB u
  w.each (List.range 4) (fun w k =>
    if w.rd b (K_ECFG.event.at k) = code ∧ w.rd b (K_ECFG.chain.at k) = 0
        ∧ Tbl.get 0 w.obs.cfgFc (u * 4 + k) ≠ w.fc + 1
        ∧ (w.rd b (K_ECFG.ectx_en.at k) = 0 ∨ w.rd b (K_ECFG.ectx.at k) = ctx)
        ∧ (!(code == 0x20 || code == 0x21 || code == 0x24 || code == 0x25) || w.rd b (K_ETHR.eport.at k) == port)
        ∧ (!(code == 0x20 || code == 0x40) || w.rd b (K_ETHR.evc.at k) == vc)
    then w.ecAdd b 4 k n else w)

/-- Capture unit numbers (R492). -/
def capKey (kind idx sub : Nat) : Nat := kind * 2 ^ 16 + idx * 16 + sub

/-- The bin of a value (R493). -/
def capBin (v : Nat) : Nat := if v < 2 then 0 else min 15 (Nat.log2 v)

def State.capAt (s : State) (k : Nat) : Cap := (s.obs.cap.find k).getD { tStart := s.obs.capT0 }

/-- Count a sample (R493). -/
def Cap.put (c : Cap) (v : Nat) : Cap :=
  let b := capBin v
  { c with
    count := satAdd 32 c.count 1
    min_ := min c.min_ v
    max_ := max c.max_ v
    bins := c.bins.put b (satAdd 32 (Tbl.get 0 c.bins b) 1) }

/-- Count the samples that are held for their fc. -/
def Cap.flat (c : Cap) : Cap := c.now.foldl Cap.put { c with now := [], nowFc := 0 }

/-- A capture unit as a read in fc `fc` finds it: without the samples of that fc (R500). -/
def Cap.seen (c : Cap) (fc : Nat) : Cap := if c.nowFc = fc + 1 then { c with now := [], nowFc := 0 } else c.flat

/-- A capture unit cleared in fc `fc` at time `t`: the samples of that fc stay (R493, R500). -/
def Cap.cleared (c : Cap) (fc t : Nat) : Cap :=
  if c.nowFc = fc + 1 then { tStart := t, now := c.now, nowFc := c.nowFc } else { tStart := t }

/-- One sample of a capture unit (R492, R493). -/
def W.sample (w : W) (k v ctx : Nat) : W :=
  if w.rd obsB KOBS_CAP_CFG.cap_en k = 0 then w
  else if k / 2 ^ 16 = 0 ∧ w.rd obsB KOBS_CAP_CFG.hctx_en k = 1 ∧ w.rd obsB KOBS_CAP_CFG.hctx k ≠ ctx then w
  else
    let c := w.capAt k
    let c := if c.nowFc = w.fc + 1 then { c with now := c.now ++ [v] } else { c.flat with now := [v], nowFc := w.fc + 1 }
    { w with obs.cap := w.obs.cap.put k c }

/-- The HTU is locked in edge mode (R496). -/
def State.lkEdge (s : State) : Bool :=
  s.rd hrdB KHRD_STATUS.state == 2 && s.rd hrdB KHRD_STATUS.free_run == 0

/-- The stamp of the trigger record is stored, and source 43 takes an event (R497). -/
def W.trcStamp (w : W) (b stamp : Nat) : W :=
  ((w.wr obsB (KOBS_TRC_TSTAMP_LO.tstamp.at b) stamp).wr obsB (KOBS_TRC_TSTAMP_HI.tstamp.at b) (stamp / 2 ^ 32)).irqP 43

/-- Add a record to trace buffer `b` (R495 to R498): at most one record an fc, the trigger, the stop conditions. A buffer
that `tstop` stopped in this fc keeps the stamp of a trigger of the same fc and takes no record (R500). -/
def W.trcPush (w : W) (b : Nat) (r : TrcRec) : W :=
  let t := Tbl.get {} w.obs.trc b
  if t.stop then
    if t.cutFc = w.fc + 1 ∧ t.trig = none ∧ t.mode < 2 ∧ (t.event = 0xFF ∨ t.event = r.tev) then w.trcStamp b r.stamp else w
  else if t.lastFc = w.fc + 1 then
    { (w.inc obsB (KOBS_TRC_STAT.trc_lost.at b)) with obs.trc := w.obs.trc.put b { t with gap := true } }
  else
    let st := w.rd obsB (KOBS_TRC_STAT.tstate.at b)
    let hit := st = 1 ∧ t.mode < 2 ∧ (t.event = 0xFF ∨ t.event = r.tev)
    let w := if hit then (w.wr obsB (KOBS_TRC_STAT.tstate.at b) 2).trcStamp b r.stamp else w
    let keep := t.mode ≠ 0 ∨ hit ∨ st = 2
    if !keep then w else
    let all := t.recs ++ [{ r with gap := t.gap }]
    let over_ := all.length - 2048
    let recs := all.drop over_
    let trig := if hit then some (recs.length - 1) else t.trig.map (fun i => i - over_)
    let left := if hit ∧ t.mode = 1 then some t.post else t.left.map (fun n => n - 1)
    let stop := (t.mode = 0 ∧ recs.length = 2048) ∨ (t.mode = 1 ∧ left = some 0)
    let t := { t with recs := recs, gap := false, lastFc := w.fc + 1, left := left, trig := trig, stop := decide stop }
    { (w.wr obsB (KOBS_TRC_STAT.tcount.at b) recs.length) with obs.trc := w.obs.trc.put b t }

/-- A WRITE of a buffer's dump is visible; `dumped` is set with the last (R498). -/
def W.dumpAck (w : W) (b : Nat) : W :=
  let t := Tbl.get {} w.obs.trc b
  let w := { w with obs.trc := w.obs.trc.put b { t with writes := t.writes - 1 } }
  if t.writes = 1 then w.wr obsB (KOBS_TRC_STAT.dumped.at b) 1 else w

/-- A record for every running buffer whose tap is of kind `kind` and passes `on` (unit type, index, port, network);
taps of kinds 0 and 4 also filter by context (R495). -/
def W.trace (w : W) (kind ev ctx : Nat) (payload : List Byte) (on : Nat → Nat → Nat → Nat → Bool) : W :=
  w.each (List.range 16) (fun w b =>
    let ty := w.rd obsB (KOBS_TRC_SRC.tunit_type.at b)
    let ix := w.rd obsB (KOBS_TRC_SRC.tunit_index.at b)
    let pt := w.rd obsB (KOBS_TRC_SRC.tport.at b)
    let nt := w.rd obsB (KOBS_TRC_SRC.tnet.at b)
    let st := w.rd obsB (KOBS_TRC_STAT.tstate.at b)
    if (st = 1 ∨ st = 2) ∧ w.rd obsB (KOBS_TRC_SRC.tkind.at b) = kind ∧ on ty ix pt nt
        ∧ (!(kind == 0 || kind == 4) || w.rd obsB (KOBS_TRC_FILT.tctx_en.at b) == 0
            || w.rd obsB (KOBS_TRC_FILT.tctx.at b) == ctx)
    then w.trcPush b { stamp := w.herdTime, tkind := kind, lk := w.lkEdge, gap := false, tev := ev, rctx := ctx,
                       rsrc := ty + ix * 8 + pt * 2 ^ 15 + nt * 2 ^ 21, payload := fit 16 payload }
    else w)

/-- A record of the command queues, of the HTU and plates, of an edge port's transport (R495). -/
def W.traceCmd (w : W) (ev opcode tag status q : Nat) : W :=
  w.trace 2 ev 0 (toLE 2 opcode ++ toLE 2 tag ++ toLE 1 status ++ toLE 1 q) (fun _ _ _ _ => true)
def W.tracePlt (w : W) (ev v id : Nat) : W :=
  w.trace 3 ev 0 (toLE 1 v ++ [0] ++ toLE 2 id) (fun _ _ _ _ => true)
def W.traceEp (w : W) (e ev ctx peer psn : Nat) : W :=
  w.trace 4 ev ctx (toLE 4 peer ++ toLE 3 psn) (fun _ ix _ _ => ix == e)

/-- A sticky bit is set (R383), with its trace record (R495): class 0xFE for a location alone. -/
def W.traceFlt (w : W) (loc cls : Nat) : W :=
  w.trace 1 cls 0 (toLE 2 loc ++ toLE 1 cls) (fun _ _ _ _ => true)

end Sys2Proof.Machine
end

