-- ==== Sys2Proof/Machine/Collector.lean ====
section
/-! DEFINITION. The fault collector's flags (chapter 11): sticky bits, classes, error windows. -/

namespace Sys2Proof.Machine

/-! ### The fault collector -/

/-- Location numbers: group * 32 + bit (R381). -/
def locRegion (p : Nat) : Nat := p
def locTine (t : Nat) : Nat := 5 * 32 + t
def locBeam (b : Nat) : Nat := 6 * 32 + b
def locMsp (m : Nat) : Nat := 7 * 32 + m
def locEp (e : Nat) : Nat := 9 * 32 + e
def locPkg (n : Nat) : Nat := 11 * 32 + n

/-- The location of a unit (R381). -/
def locOf (u : Nat) : Nat :=
  if u < 0x240 then locRegion (u / 4) else if u < 0x300 then locRegion (u - 0x240)
  else if u < 0x340 then locTine (u - 0x300) else if u < 0x1000 then locBeam (u - 0x340)
  else if u < 0x2000 then locRegion (pregOfPhys (u - 0x1000)) else if u < 0x2040 then locMsp (u - 0x2000)
  else if u < 0x2080 then locEp (u - 0x2040) else if u = 0x2080 then locPkg 2 else locPkg 9

/-- Classes of group 12 (R382). -/
def clLASTING : Nat := 0
def clUNCORR : Nat := 1
def clLINK : Nat := 2
def clPLATE : Nat := 3
def clARB : Nat := 4
def clDRAIN : Nat := 5
def clCOH : Nat := 6
def clXPORT : Nat := 7
def clCFG : Nat := 8
def clNOSPARE : Nat := 9
def clTREE : Nat := 16
def clGOV : Nat := 17
def clCOLLECTOR : Nat := 18
def clFMP_MEM : Nat := 19
def clPLATE_SPLIT : Nat := 20
def clFORCED : Nat := 21

/-- The fatal classes (R382). -/
def fatalClass (c : Nat) : Bool := 16 ≤ c && c ≤ 21

/-- Set a sticky bit. -/
def W.sticky (w : W) (grp b : Nat) : W :=
  w.flag fltB (KFLT_STICKY.sticky.at grp) (2 ^ b)

/-- Set a class; a fatal class starts the entry into the fault state, in the next fc, or restarts the quiet timer
(R386, R389). -/
def W.setClass (w : W) (c : Nat) : W :=
  let w := w.sticky 12 c
  if !fatalClass c then w else
  let w := { w with flt.lastFatal := w.herdTime }
  if w.rd fltB KFLT_STATE.fstate = 0 ∧ w.flt.entryFc.isNone then { w with flt.entryFc := some (w.fc + 1) } else w

/-- A fault event sets the sticky bit of its location and of its class in the same fc (R383). -/
def W.fault (w : W) (cls loc : Nat) : W := ((w.traceFlt loc cls).sticky (loc / 32) (loc % 32)).setClass cls

/-- An error at a location (R384): 1 for a corrected codeword, 8 for an uncorrectable one; above `lt_count` within
the window the location becomes lasting, with its sticky bit and class LASTING, and Miomus is told to escalate it. -/
def W.onError (w : W) (loc wt : Nat) : W :=
  let e := Tbl.get {} w.flt.loc loc
  if e.lasting then w else
  let win := w.rd fltB KFLT_CFG.lt_win * 2000
  let fresh := e.n = 0 ∨ win ≤ since w.herdTime e.t0
  let n := min 255 ((if fresh then 0 else e.n) + wt)
  let t0 := if fresh then w.herdTime else e.t0
  let last := decide (w.rd fltB KFLT_CFG.lt_count < n)
  let w := { w with flt.loc := Tbl.set {} w.flt.loc loc { n := n, t0 := t0, lasting := last } }
  if last then { (w.fault clLASTING loc) with flt.escal := w.flt.escal ++ [loc] } else w

/-- A corrected codeword at a location (R379, R384). -/
def W.corrAt (w : W) (loc : Nat) : W := w.onError loc 1

/-- An uncorrectable codeword at a location: class UNCORR, and the window count (R380, R382, R384). -/
def W.uncorrAt (w : W) (loc : Nat) : W := (w.fault clUNCORR loc).onError loc 8

/-- Clear sticky bits of a group (R383); a cleared location loses its window count (R384). -/
def W.clearSticky (w : W) (grp mask : Nat) : W :=
  let old := w.rd fltB (KFLT_STICKY.sticky.at grp)
  let w := w.clearW1c fltB (KFLT_STICKY.sticky.at grp) mask
  let left := w.rd fltB (KFLT_STICKY.sticky.at grp)
  if grp ≤ 11 then
    w.each ((List.range 32).filter (fun b => bit mask b && bit old b && !bit left b))
      (fun w b => { w with flt.loc := Tbl.set {} w.flt.loc (grp * 32 + b) {} })
  else w

/-- The groups that hold a sticky bit (KFLT_GROUPS). -/
def State.fltGroups (s : State) : Nat :=
  (List.range 32).foldl (fun m g => if s.rd fltB (KFLT_STICKY.sticky.at g) != 0 then m + 2 ^ g else m) 0

/-- The fault state holds: FAULT or LATCHED (R389). -/
def State.inFault (s : State) : Bool := s.rd fltB KFLT_STATE.fstate == 1 || s.rd fltB KFLT_STATE.fstate == 2

/-- FLT_N is driven low (R392): in proof hold, FAULT or LATCHED, or while a masked-in group holds a sticky bit. -/
def State.fltN (s : State) : Bool :=
  !(s.rd fltB KFLT_STATE.fstate != 0 || (s.fltGroups &&& s.rd fltB KFLT_FLTMASK.flt_mask) != 0)

/-- The location is already fenced or dead, so it is not escalated again (R385). -/
def State.isDeadPart (s : State) (loc : Nat) : Bool := s.flt.deadParts.contains loc

end Sys2Proof.Machine
end

