-- ==== Sys2Proof/Machine/Net.lean ====
section
/-! DEFINITION. The arbitrated plane's wiring, routes, herds and buffers (R27 to R38, R141 to R151). -/

namespace Sys2Proof.Machine

/-! ### Wiring -/

/-- Unit numbers of Machine/StNet.lean. -/
def uCR (c : Nat) : Nat := c
def uRR (p : Nat) : Nat := 0x240 + p
def uTine (t : Nat) : Nat := 0x300 + t
def uBeam (b : Nat) : Nat := 0x340 + b
def uSt (n : Nat) : Nat := 0x1000 + n
def uMsp (m : Nat) : Nat := 0x2000 + m
def uEp (e : Nat) : Nat := 0x2040 + e
def uFmp : Nat := 0x2080
def uHost : Nat := 0x2081

/-- Port of an endpoint's own injection queue, and of a router's local sources (R154): answer source, reduction unit,
pool unit, merge unit. -/
def pInj : Nat := 63
def pAns : Nat := 48
def pRed : Nat := 49
def pPool : Nat := 50
def pMrg : Nat := 51

def isRouter (u : Nat) : Bool := u < 0x1000
def isCR (u : Nat) : Bool := u < 0x240
def isRR (u : Nat) : Bool := 0x240 ≤ u && u < 0x300
def isTine (u : Nat) : Bool := 0x300 ≤ u && u < 0x340
def isBeam (u : Nat) : Bool := 0x340 ≤ u && u < 0x1000

/-- A router's count of KRTR_SCH_FLT, KRTR_WDOG_CNT or KRTR_ARB_EVT increments: an event of its region's controller
(R364). -/
def W.rtrCount (w : W) (u : Nat) (f : Fld) : W :=
  let w := w.inc (rtrB u) f
  if isCR u then w.irqR (u / 4) (u % 4)
  else if isRR u then w.irqR (u - 0x240) (if f.off = KRTR_SCH_FLT.uncorr.off then 4 else 5)
  else w

/-- The unit and port at the other end of a link (R29 to R38, R79). -/
def State.peer (s : State) (u p : Nat) : Option (Nat × Nat) :=
  if isCR u then
    if p < 4 then some (uSt (physAt (u / 4) (u % 4 * 4 + p)), 0) else if p = 4 then some (uRR (u / 4), u % 4) else none
  else if isRR u then
    let g := u - 0x240
    if p < 4 then some (uCR (g * 4 + p), 4) else if p = 4 then some (uSt (physAt g 16), 0)
    else if p ≤ 8 then some (uTine ((4 * g + (p - 5)) % 32), (4 * g + (p - 5)) / 32) else none
  else if isTine u then
    let t := u - 0x300
    if p ≤ 16 then
      let x := p * 32 + t
      if x / 4 < 2 * s.fuse.cdSites then some (uRR (x / 4), 5 + x % 4) else none
    else if p ≤ 18 then some (uMsp (2 * ((t + 32 - 16 * (p - 17)) % 32) + (p - 17)), 0)
    else if p ≤ 20 then some (uEp (2 * t + (p - 19)), 0)
    else if p ≤ 40 then (s.beamOf (p - 21)).map (fun b => (uBeam b, t))
    else if p = 41 ∧ t = 0 then some (uFmp, 0) else if p = 41 ∧ t = 16 then some (uHost, 0) else none
  else if isBeam u then
    if p < 32 then (s.beamBy (u - 0x340)).map (fun k => (uTine p, 21 + k)) else none
  else if p ≠ 0 then none
  else if u < 0x2000 then
    let n := u - 0x1000
    if posOfPhys n = 16 then some (uRR (pregOfPhys n), 4)
    else some (uCR (pregOfPhys n * 4 + posOfPhys n / 4), posOfPhys n % 4)
  else if u < 0x2040 then
    let m := u - 0x2000
    some (uTine ((m / 2 + 16 * (m % 2)) % 32), 17 + m % 2)
  else if u < 0x2080 then some (uTine ((u - 0x2040) / 2), 19 + (u - 0x2040) % 2)
  else some (uTine (if u = uFmp then 0 else 16), 41)

/-- The ports a router has (R79, R141). -/
def portsOf (u : Nat) : List Nat :=
  if isCR u then List.range 5 else if isRR u then List.range 9
  else if isTine u then (if u = 0x300 ∨ u = 0x310 then List.range 42 else List.range 41)
  else if isBeam u then List.range 32 else [0]

/-- Bytes of one phit of a network on a link (R27, R38); a piece on DAT. -/
def phitB (u p net : Nat) : Nat :=
  if net = 3 then 64
  else
    let wide := (isRR u && 5 ≤ p) || (isTine u && p ≠ 41) || isBeam u || (0x2000 ≤ u && u < 0x2080)
    if isTine u && p == 41 || 0x2080 ≤ u then 32
    else if net = 2 then (if wide then 32 else 16) else (if wide then 64 else 32)

/-- Cell lanes of a link (R27, R38). -/
def lanesOf (u p : Nat) : Nat :=
  if 0x2080 ≤ u ∨ (isTine u ∧ p = 41) then 0
  else if (isCR u ∧ p < 4) ∨ (isRR u ∧ p = 4) ∨ (0x1000 ≤ u ∧ u < 0x2000) then 1 else 4

/-- Phits of `b` bytes (R130). -/
def phits (b w : Nat) : Nat := (b + w - 1) / w

/-- Buffer depth of a VC (R128). -/
def vcDepth (vc : Nat) : Nat := if vc ≤ 5 then 16 else 128

/-- A port of a router is present: its link is active (R154). An unbound spare station's port is not (R30), nor is a
tine's port to a site that sleeps, or that bears no die and is powered off (R32). -/
def State.portPresent (s : State) (u p : Nat) : Bool :=
  (s.peer u p).isSome &&
  (if isRR u ∧ p = 4 then s.rd fltB KFLT_SMAP.sbound (u - 0x240) == 1
   else if isTine u ∧ p ≤ 16 then
     (let site := (p * 32 + (u - 0x300)) / 8
      ((s.dieOn site).isSome || s.rd gblB KGBL_SITE.pgood site == 1) && (s.irq.saved.find site).isNone)
   else true)

/-- `kp_core_rst` of a station (R30, R180): its core is held in reset, as that of an unbound spare station always is. -/
def State.coreHeld (s : State) (st : Nat) : Bool :=
  Tbl.get false s.sta.coreRst st || (posOfPhys st == 16 && s.rd fltB KFLT_SMAP.sbound (pregOfPhys st) == 0)

/-- A router's output port is dead (KRTR_DEAD). -/
def State.portDead (s : State) (u p : Nat) : Bool :=
  if p < 32 then bit (s.rd (rtrB u) KRTR_DEAD_LO.dead_lo) p else bit (s.rd (rtrB u) KRTR_DEAD_HI.dead_hi) (p - 32)

/-- A router's port is an absorbing sink (KRTR_SINK). -/
def State.isSink (s : State) (u p : Nat) : Bool := p < 17 && bit (s.rd (rtrB u) KRTR_SINK.sink_ports) p

/-! ### Routes -/

/-- The placement now in force. -/
def State.place (s : State) : Place :=
  { die := (List.range s.fuse.cdActive).map (fun d => (d, s.siteOf d)),
    spare := (List.range 132).filterMap (fun p =>
      if s.rd fltB KFLT_SMAP.sbound p = 1 then some (p, s.rd fltB KFLT_SMAP.spos p + 1) else none) }

/-- Physical region and position of a logical station under a placement. -/
def Place.preg (pl : Place) (l : Nat) : Nat := ((pl.die.find (l / 32)).getD (l / 32)) * 2 + l / 16 % 2
def Place.pos (pl : Place) (l : Nat) : Nat := if pl.spare.find (pl.preg l) = some (l % 16 + 1) then 16 else l % 16

/-- The tine and its port of a memory port, an edge port, the FMP or the host (R35 to R38). -/
def tineOf (ep : Nat) : Nat :=
  if ep < 0x840 then ((ep - 0x800) / 2 + 16 * (ep % 2)) % 32 else if ep < 0x880 then (ep - 0x840) / 2
  else if ep = 0x880 then 0 else 16
def tinePort (ep : Nat) : Nat :=
  if ep < 0x840 then 17 + ep % 2 else if ep < 0x880 then 19 + ep % 2 else 41

/-- The entries that lead from an RR down to a station's port: cluster and core, or port 4 for a spare station. -/
def downHops (pos : Nat) : List Nat := if pos = 16 then [4] else [pos / 4, pos % 4]
/-- The entries that lead from a station up to its RR's choice of output. -/
def upHops (pos : Nat) : List Nat := if pos = 16 then [] else [4]

/-- Every hop list that R41 allows from one endpoint to another, with the given live logical beams. -/
def legalRoutes (pl : Place) (beams : List Nat) (src dst : Nat) : List (List Nat) :=
  let us := [0, 1, 2, 3]
  if src < 0x800 then
    let pa := pl.preg src
    let a := pl.pos src
    if dst < 0x800 then
      let pb := pl.preg dst
      let b := pl.pos dst
      if pa = pb ∧ a < 16 ∧ b < 16 ∧ a / 4 = b / 4 then [[b % 4]]
      else if pa = pb then [upHops a ++ downHops b]
      else if pa % 8 = pb % 8 then us.map (fun u => upHops a ++ [5 + u, (4 * pb + u) / 32] ++ downHops b)
      else us.flatMap (fun u => beams.flatMap (fun k => us.map (fun v =>
        upHops a ++ [5 + u, 21 + k, (4 * pb + v) % 32, (4 * pb + v) / 32] ++ downHops b)))
    else
      let t := tineOf dst
      if t / 4 = pa % 8 then [upHops a ++ [5 + t % 4, tinePort dst]]
      else us.flatMap (fun u => beams.map (fun k => upHops a ++ [5 + u, 21 + k, t, tinePort dst]))
  else
    let t := tineOf src
    if dst < 0x800 then
      let pb := pl.preg dst
      let b := pl.pos dst
      if t / 4 = pb % 8 then [[(4 * pb + t % 4) / 32] ++ downHops b]
      else beams.flatMap (fun k => us.map (fun v =>
        [21 + k, (4 * pb + v) % 32, (4 * pb + v) / 32] ++ downHops b))
    else if t = tineOf dst then [[tinePort dst]]
    else beams.map (fun k => [21 + k, tineOf dst, tinePort dst])

/-- The routers and output ports that a hop list crosses, starting at the router that a unit is attached to. -/
def State.walk (s : State) : List Nat → Nat → List (Nat × Nat)
  | [], _ => []
  | h :: t, u => (u, h) :: (match s.peer u h with
    | some (v, _) => s.walk t v
    | none => [])

/-- No port on the path is dead (R145). -/
def State.pathAlive (s : State) (unit : Nat) (hs : List Nat) : Bool :=
  match s.peer unit 0 with
  | none => false
  | some (r, _) => (s.walk hs r).all (fun x => !s.portDead x.1 x.2)

/-- The endpoint number is one of the package's present endpoints (R21, R54). -/
def State.present (s : State) (ep : Nat) : Bool :=
  ep < s.nStations || (0x800 ≤ ep && ep < 0x800 + 2 * s.fuse.slices) || (0x840 ≤ ep && ep < 0x840 + s.fuse.edgePorts)
    || ep == 0x880 || ep == 0x881

def State.rbank (s : State) (b : Nat) : RBank := if b % 2 = 0 then s.net.rb0 else s.net.rb1
def W.setRbank (w : W) (b : Nat) (v : RBank) : W :=
  if b % 2 = 0 then { w with net.rb0 := v } else { w with net.rb1 := v }
def State.hbank (s : State) (b : Nat) : HBank := if b % 2 = 0 then s.net.hb0 else s.net.hb1
def W.setHbank (w : W) (b : Nat) (v : HBank) : W :=
  if b % 2 = 0 then { w with net.hb0 := v } else { w with net.hb1 := v }

/-- Fields of a 16-byte route entry (R143). -/
def reRoute0 (e : Nat) : Nat := bits e 0 42
def reHops0 (e : Nat) : Nat := bits e 48 3
def reValid (e : Nat) : Bool := bit e 56
def reDual (e : Nat) : Bool := bit e 57
def reRoute1 (e : Nat) : Nat := bits e 64 42
def reHops1 (e : Nat) : Nat := bits e 112 3

/-- Entry with one route, `dual` 0. -/
def mkRoute (h : List Nat) : Nat := hopList h + h.length * 2 ^ 48 + 2 ^ 56

/-- The entry of a configuration table was read uncorrectable in an earlier fc and is not yet written again (R380): it
reads as invalid. -/
def State.entryBad (s : State) (e : TblEntry) : Bool := s.flt.badEnt.any (fun x => x.1 == e && x.2 < s.fc)

/-- The route entry of a source for a destination in a bank (R143): as written, else generation 0's choice among the
legal routes (R442), else invalid (R175). -/
def State.routeEntry (s : State) (bank src dst : Nat) : Nat :=
  if s.entryBad (.route (bank % 2) src dst) then 0 else
  match (s.rbank bank).written.find (src * 4096 + dst) with
  | some e => e
  | none =>
    match (s.rbank bank).zero with
    | none => 0
    | some pl =>
      if s.present src && s.present dst then
        let l := legalRoutes pl s.beamsLive src dst
        match l[Config.genZeroPick src dst % l.length]? with
        | some h => mkRoute h
        | none => 0
      else 0

/-- The operation carries an address, so that the second route may be taken (R144). -/
def hasAddr (op : Nat) : Bool :=
  (0x01 ≤ op && op ≤ 0x0D && op != 0x03 && op != 0x09 && op != 0x0B) || op == 0x20 || op == 0x22
    || (0x40 ≤ op && op ≤ 0x4F) || (0x50 ≤ op && op ≤ 0x52) || op == 0x70

def State.genCur (s : State) : Nat := s.rd gblB KGBL_RGEN.gen_cur
def State.genDrain (s : State) : Nat := s.rd gblB KGBL_RGEN.gen_drain
def State.draining (s : State) : Bool := s.rd gblB KGBL_RGEN.draining == 1

/-- Look a unicast packet up in the current generation (R144): the packet with its route, or none. -/
def State.lookup (s : State) (unit : Nat) (p : Packet) : Option Packet :=
  let e := s.routeEntry s.genCur (s.epOf unit) p.dst
  if !reValid e then none
  else if reDual e && hasAddr p.op && parity (bits p.addr 8 8) 8 then
    some { p with hop := reRoute1 e, hops := reHops1 e, hopPtr := 0, gen := s.genCur }
  else some { p with hop := reRoute0 e, hops := reHops0 e, hopPtr := 0, gen := s.genCur }

/-- Root of a herd for an endpoint in a bank: stage and index, stage 0 when undefined (R148). -/
def State.herdRoot (s : State) (bank unit herd : Nat) : Nat × Nat :=
  if s.entryBad (.root (bank % 2) unit herd) then (0, 0) else
  match (s.hbank bank).roots.find (s.epOf unit * 4096 + herd) with
  | some r => (bits r 0 3, bits r 3 5)
  | none =>
    match (s.hbank bank).defs.find herd with
    | some d => (d.stage, d.index)
    | none => (0, 0)

/-- The climb to a herd's root from a unit's own placement (R148): none for NOROUTE. -/
def State.climb (s : State) (unit herd : Nat) : Option (List Nat) :=
  let (st, ix) := s.herdRoot s.genCur unit herd
  if st = 0 then none
  else if 0x1000 ≤ unit ∧ unit < 0x2000 then
    let n := unit - 0x1000
    let p := pregOfPhys n
    let spare := posOfPhys n = 16
    match st with
    | 1 => if spare then none else some []
    | 2 => some (if spare then [] else [4])
    | 3 => if ix / 4 = p % 8 then some ((if spare then [] else [4]) ++ [5 + ix % 4]) else none
    | 4 => some ((if spare then [] else [4]) ++ [5 + herd % 4, 21 + ix])
    | _ => none
  else
    match st with
    | 3 => if ix = tineOf (s.epOf unit) then some [] else none
    | 4 => some [21 + ix]
    | _ => none

/-- The tine through which a herd with a beam root descends to a member: its own tine, or, for a station, the tine of
the uplink numbered by the herd modulo 4. -/
def herdTine (pl : Place) (herd ep : Nat) : Nat :=
  if ep < 0x800 then (4 * pl.preg ep + herd % 4) % 32 else tineOf ep

/-- The mask of a router for a defined herd: the down ports that lead to its members (R147). -/
def herdMask (pl : Place) (d : HerdDef) (herd u : Nat) (beam : Option Nat) : Nat :=
  let add (m b : Nat) : Nat := setBit m b true
  if isBeam u then
    if d.stage = 4 ∧ beam = some d.index then d.members.foldl (fun m e => add m (herdTine pl herd e)) 0 else 0
  else if isTine u then
    let t := u - 0x300
    d.members.foldl (fun m e =>
      let via := if d.stage = 3 then d.index else herdTine pl herd e
      if 3 ≤ d.stage ∧ via = t then
        (if e < 0x800 then
          (if t / 4 = pl.preg e % 8 then add m ((4 * pl.preg e + t % 4) / 32) else m)
         else if tineOf e = t then add m (if tinePort e = 41 then 21 else tinePort e) else m)
      else m) 0
  else if isRR u then
    if d.stage < 2 then 0 else
    d.members.foldl (fun m e => if e < 0x800 ∧ pl.preg e = u - 0x240 then
      add m (if pl.pos e = 16 then 4 else pl.pos e / 4) else m) 0
  else d.members.foldl (fun m e =>
    if e < 0x800 ∧ pl.pos e < 16 ∧ pl.preg e * 4 + pl.pos e / 4 = u then add m (pl.pos e % 4) else m) 0

/-- A router's herd entry in a bank (R147): as written by folio, else from the herd's definition. -/
def State.herdEnt (s : State) (bank u herd : Nat) : HerdEnt :=
  if s.entryBad (.herd (bank % 2) u herd) then ⟨0, 0, false⟩ else
  match (s.hbank bank).written.find (u * 4096 + herd) with
  | some e => e
  | none =>
    match (s.hbank bank).defs.find herd with
    | none => ⟨0, 0, false⟩
    | some d =>
      let b := if isBeam u then s.beamBy (u - 0x340) else none
      ⟨herdMask d.place d herd u b, d.ctx, true⟩

/-- Down ports of a herd mask at a router (R147). -/
def maskPorts (u m : Nat) : List Nat :=
  ((List.range 32).filter (bit m)).map (fun j => if isTine u ∧ j = 21 then 41 else j)

/-- The packet as the next hop receives it: the input port recorded in the entry it used (R142). -/
def hopOn (p : Packet) (inp : Nat) : Packet := { p.setHop p.hopPtr inp with hopPtr := p.hopPtr + 1 }

/-- A herd packet as it descends from a router (R149): one more entry. -/
def hopDown (p : Packet) (inp : Nat) : Packet :=
  { p.setHop p.hopPtr inp with hopPtr := p.hopPtr + 1, hops := p.hops + 1 }

/-! ### Buffers and requests -/

def qKey (u p vc : Nat) : Nat := (u * 64 + p) * 16 + vc
def State.buf (s : State) (u p vc : Nat) : List Buf := (s.net.q.find (qKey u p vc)).getD []
def W.setBuf (w : W) (u p vc : Nat) (l : List Buf) : W :=
  { w with net.q := if l = [] then w.net.q.del (qKey u p vc) else w.net.q.put (qKey u p vc) l }

/-- Append a whole packet to a buffer. -/
def W.pushBuf (w : W) (u p : Nat) (b : Buf) : W := w.setBuf u p b.pkt.vc (w.buf u p b.pkt.vc ++ [b])

/-- Put a packet into a unit's injection queue. Answers carry their route already (R146); other packets are looked up
at their first grant (R144). -/
def W.inject (w : W) (u : Nat) (p : Packet) (routed : Bool := false) : W :=
  let cs : List Copy := if routed then [{ port := 0, pkt := p }] else []
  let n := w.net.injSeq + 1
  let w := { w with net.injSeq := n }
  w.pushBuf u pInj { pkt := p, arrived := p.size, last := true, routed := routed, copies := cs, seq := n }

/-- Deliver a packet to a unit's own input, as an answer made at the unit itself: no credit is owed for it. -/
def W.deliver (w : W) (u : Nat) (p : Packet) : W :=
  w.pushBuf u 0 { pkt := p, arrived := p.size, last := true, freed := phits p.size (phitB u 0 (netOf p.vc)) }

/-- The return path from a target: the recorded entries in reverse order (R146). -/
def backHops (p : Packet) : Nat := hopList ((List.range p.hops).reverse.map p.hopAt)

/-- The answer of a target to a packet, before its operation is filled in (R137, R146). -/
def ansTo (p : Packet) (src : Nat) : Packet :=
  { vc := 3, op := 0x60, dst := p.src, src := src, ctx := p.ctx, tag := p.tag, gen := p.gen,
    hops := p.hops, hopPtr := 0, hop := backHops p, ans := p.op, ref := p.ref, sref := p.sref }

/-- A target's answer leaves on the return path. A packet that came to the unit from itself is answered there. -/
def W.reply (w : W) (u : Nat) (a : Packet) : W :=
  if a.hops = 0 then w.deliver u a else w.inject u a (routed := true)

/-- A target answers with a CMP (R137): its own endpoint number stands in `src` for a herd packet too. -/
def W.cmp (w : W) (u : Nat) (p : Packet) (status : Nat) (aux : Nat := 0) : W :=
  w.reply u { ansTo p (if p.herdMode then w.epOf u else p.dst) with status := status, aux := aux }

/-- A router answers a packet that stopped at it, at hop index `hopPtr`, on input port `inp` (R146). -/
def W.rtrAns (w : W) (u inp : Nat) (p : Packet) (status : Nat) (aux : Nat := 0) : W :=
  let hs := inp :: (List.range p.hopPtr).reverse.map p.hopAt
  let a : Packet := { ansTo p p.dst with
    status := status
    aux := aux
    byRouter := true
    hop := hopList hs
    hops := p.hopPtr + 1
    hopPtr := 1 }
  w.pushBuf u pAns { pkt := a, arrived := a.size, last := true, routed := true, copies := [{ port := inp, pkt := a }] }

/-- Key of an outstanding request: its tag, or, for requests that share a tag (R249), 65536 + a number of its own. -/
def rKey (u ref : Nat) : Nat := u * 2 ^ 20 + ref

/-- The `k`-th tag of an endpoint's own requests: bits [7:6] are never 0, which marks a POOL_READ's tag (R249). -/
def tagNo (k : Nat) : Nat := k / 192 * 256 + 64 + k % 192

/-- The lowest tag, from the `k`-th on, with no outstanding request at a unit. -/
def freeTagFrom (t : Tbl Req) (u : Nat) : Nat → Nat → Nat
  | 0, k => tagNo k
  | f + 1, k => if (t.find (rKey u (tagNo k))).isNone then tagNo k else freeTagFrom t u f (k + 1)

def State.freeTag (s : State) (u : Nat) : Nat := freeTagFrom s.net.req u 49151 0

/-- The lowest free reference for a request that shares its tag. -/
def State.freeRef (s : State) (u : Nat) : Nat :=
  ((s.net.req.freeFrom 900000 (rKey u 65536)).getD (rKey u 65536)) - rKey u 0

def State.req1 (s : State) (u ref : Nat) : Option Req := s.net.req.find (rKey u ref)
def W.setReq (w : W) (u ref : Nat) (r : Req) : W := { w with net.req := w.net.req.put (rKey u ref) r }
def W.delReq (w : W) (u ref : Nat) : W := { w with net.req := w.net.req.del (rKey u ref) }

/-- The outstanding request that an answer names (R137): by the requester's record, or, when the answer came from another
package, by its tag. -/
def State.reqOf (s : State) (u : Nat) (p : Packet) : Option (Nat × Req) :=
  if p.ref ≠ 0 then
    match s.req1 u p.ref with
    | some r => if r.pkt.tag = p.tag then some (p.ref, r) else none
    | none => none
  else
    match s.req1 u p.tag with
    | some r => if r.pkt.tag = p.tag then some (p.tag, r) else none
    | none => (Tbl.findBy (fun k r => k / 2 ^ 20 == u && r.pkt.tag == p.tag) s.net.req).map (fun x => (x.1 % 2 ^ 20, x.2))

/-- An endpoint is marked dead in a unit's vector (R402). -/
def State.deadAt (s : State) (u ep : Nat) : Bool :=
  match s.net.deadOver.find (u * 4096 + ep) with
  | some b => b
  | none => Tbl.get false s.net.deadEp ep

/-- A unit issues a request that expects an answer (R129): a tag, an entry among the outstanding requests, and the
packet in the injection queue. A request to an endpoint marked dead is answered DEAD_TARGET at its source, without a
lookup (R402). -/
def W.request (w : W) (u : Nat) (p : Packet) (own : Owner) (need : Nat := 1) (tag : Option Nat := none) : W :=
  let ref := match tag with
    | none => w.freeTag u
    | some _ => w.freeRef u
  let p := { p with tag := tag.getD ref, ref := ref, src := w.epOf u }
  let w := w.setReq u ref { pkt := p, own := own, fc := w.fc, need := need }
  if !p.herdMode && u < 0x2080 && w.deadAt u p.dst then
    w.deliver u { ansTo p p.dst with status := DEAD_TARGET, hops := 0 }
  else w.inject u p

/-- Take the first whole packet whose operation is in `ops` from a unit's input VC; its phits are owed as credits. -/
def W.takeVc (w : W) (u vc : Nat) (ops : Packet → Bool) : Option (Packet × W) :=
  let l := w.buf u 0 vc
  match l.find? (fun b => b.last && ops b.pkt) with
  | none => none
  | some b =>
    let ph := phits b.arrived (phitB u 0 (netOf vc)) - b.freed
    let w := w.setBuf u 0 vc (l.erase b)
    some (b.pkt, { w with net.owed := Tbl.set 0 w.net.owed (qKey u 0 vc) (Tbl.get 0 w.net.owed (qKey u 0 vc) + ph) })

/-- Take the first whole packet with an operation of `ops` from any of a unit's input VCs. -/
def W.takeAny (w : W) (u : Nat) (ops : Packet → Bool) : Option (Packet × W) :=
  (List.range 10).foldl (fun r vc => match r with
    | some x => some x
    | none => w.takeVc u vc ops) none

/-- A context is frozen at a unit's arbiters (R163). -/
def State.frozen (s : State) (u ctx : Nat) : Bool :=
  match s.net.frzOver.find (u * 4096 + ctx) with
  | some b => b
  | none => Tbl.get false s.net.frz ctx || s.cx.hold.contains ctx

/-- A context is frozen for the decisions of fc `t`: a change of a freeze vector counts from the fc after it (R164). -/
def State.frozenAt (s : State) (t u ctx : Nat) : Bool :=
  match s.net.frzOld with
  | none => s.frozen u ctx
  | some o =>
    if o.fc < t then s.frozen u ctx
    else match o.byUnit.find (u * 4096 + ctx) with
      | some b => b
      | none => Tbl.get false o.frz ctx || o.hold.contains ctx

/-- Before a change of a freeze vector: keep the vectors of the start of this fc (R164). -/
def W.keepFrz (w : W) : W :=
  if (match w.net.frzOld with | some o => o.fc == w.fc | none => false) then w
  else { w with net.frzOld := some { fc := w.fc, frz := w.net.frz, byUnit := w.net.frzOver, hold := w.cx.hold } }

/-- Requests that endpoints hold and whose answers have not left (R170), with the endpoint: in input buffers, at work at a
memory port or a station, held by an edge port for its link, and answers in injection queues. -/
def State.heldReqs (s : State) : List (Nat × Packet) :=
  s.net.q.flatMap (fun (e : Nat × List Buf) =>
    if e.1 / 1024 < 0x1000 then []
    else (e.2.filter (fun (b : Buf) => isAnswer b.pkt.op == (e.1 / 16 % 64 == pInj))).map (fun b => (e.1 / 1024, b.pkt)))
    ++ s.msp.opens.filterMap (fun (e : Nat × MemOp) => match e.2.act with
        | .read p => some (uMsp (e.1 / 1024), p)
        | .grant p _ => some (uMsp (e.1 / 1024), p)
        | .answer p => some (uMsp (e.1 / 1024), p)
        | _ => none)
    ++ s.msp.intake.flatMap (fun (e : Nat × List Packet) => e.2.map (fun p => (uMsp e.1, p)))
    ++ s.msp.defer.flatMap (fun (e : Nat × List (Nat × Packet)) => e.2.map (fun x => (uMsp x.1, x.2)))
    ++ s.msp.dir.filterMap (fun (e : Nat × DirEnt) => e.2.pend.map (fun x => (uMsp x.1, x.2)))
    ++ s.col.rows.map (fun (e : Nat × RowRead) => (uMsp e.2.port, e.2.pkt))
    ++ s.sta.dbuf.flatMap (fun (e : Nat × List DLine) => e.2.filterMap (fun (l : DLine) => match l.act with
        | .answer p => some (uSt e.1, p)
        | _ => none))
    ++ s.sta.snoops.map (fun (e : Nat × CoreSnoop) => (uSt (e.1 / 64), e.2.pkt))
    ++ s.ep.flatMap (fun (e : Nat × Ep) => (e.2.shaped ++ e.2.waitTx.map (fun x => x.2.2)
        ++ e.2.conns.flatMap (fun (c : Nat × Conn) => c.2.outst.map (fun x => x.pkt))).filterMap (fun p =>
          if isAnswer p.op then none else some (uEp e.1, p)))

/-- Packets of a bank that an endpoint counts (R170, KSTN_GEN_INFL). -/
def State.epInfl (s : State) (u bank : Nat) : Nat :=
  (s.heldReqs.filter (fun x => x.1 == u && x.2.gen % 2 == bank)).length

/-- Packets of a bank that a router counts (R170): those in its buffers, and those granted whose last piece has no lane yet. -/
def State.rtrInfl (s : State) (u bank : Nat) : Nat :=
  s.net.q.foldl (fun n e => if e.1 / 1024 = u then n + (e.2.filter (fun b => b.pkt.gen % 2 == bank)).length else n) 0
    + s.net.arbs.foldl (fun n e =>
        if e.1 / 256 = u then n + (e.2.placing.filter (fun x => x.last && x.pkt.gen % 2 == bank)).length else n) 0

/-- Packets of a bank in flight anywhere in the package (R170): what routers and endpoints count, packets looked up that
have not left their injection queue, and packets whose last piece is on a link. -/
def State.inFlight (s : State) (bank : Nat) : Nat :=
  s.net.q.foldl (fun n e => n + ((e.2.filter (fun b => (b.routed || e.1 / 16 % 64 != pInj) && b.pkt.gen % 2 == bank)).length)) 0
    + s.net.arbs.foldl (fun n e => n + (e.2.placing.filter (fun x => x.pkt.gen % 2 == bank)).length) 0
    + (s.sch.flights.filter (fun f => match f.cell.piece with
        | some x => x.pkt.gen % 2 == bank
        | none => false)).length
    + (s.heldReqs.filter (fun x => x.2.gen % 2 == bank)).length

/-- A utilisation counter (R482): 64 bits. -/
def utilF (off : Nat) : Fld := { off := off, lsb := 0, width := 64, acc := .ro }

/-- Count bytes in a utilisation counter, modulo 2^64 (R482). -/
def W.util (w : W) (u off n : Nat) : W := w.wr (unitB u) (utilF off) (w.rd (unitB u) (utilF off) + n)

end Sys2Proof.Machine
end

