-- ==== Sys2Proof/Machine/Operands.lean ====
section
/-! DEFINITION. Operand forms: the byte layouts of packets (R131), edge packets and frames (R321, R332, R338), messages
(R189), the targets that addresses name (R276, R331), and which packets are well formed (R132, R133). -/

namespace Sys2Proof.Machine

/-! ### CRC-32 (R74) -/

/-- Steps of the reflected CRC-32, one for each bit. -/
def crcBits : Nat → Nat → Nat
  | 0, c => c
  | n + 1, c => if c % 2 = 1 then crcBits n ((c / 2) ^^^ 0xEDB88320) else crcBits n (c / 2)
/-- One byte of the CRC-32 of R74. -/
def crcByte (c : Nat) (b : Byte) : Nat := crcBits 8 ((c ^^^ b.toNat) % 2 ^ 32)
/-- CRC-32 with the parameters of R74. -/
def crc32 (l : List Byte) : Nat := (l.foldl crcByte 0xFFFFFFFF) ^^^ 0xFFFFFFFF

/-! ### Package packets -/

/-- The 32 B header (R131). -/
def hdrBytes (p : Packet) : List Byte :=
  toLE 1 (p.vc % 16 + (if p.herdMode then 16 else 0) + (if p.ext = [] then 0 else 32) + (if p.ack then 64 else 0))
    ++ toLE 1 p.op ++ toLE 2 (p.dst % 4096) ++ toLE 2 (p.src % 4096) ++ toLE 2 (p.ctx % 4096) ++ toLE 1 p.gen
    ++ toLE 1 (p.hops % 8 + 8 * (p.hopPtr % 8)) ++ toLE 6 (p.hop % 2 ^ 42) ++ toLE 2 p.tag ++ toLE 2 (p.len % 2 ^ 14)
    ++ toLE 8 p.addr ++ toLE 2 p.aux ++ toLE 1 p.status
    ++ toLE 1 ((if p.byRouter then 1 else 0) + (if p.retry then 2 else 0))

/-- A packet's bytes: header, extension, payload. -/
def pktBytes (p : Packet) : List Byte := hdrBytes p ++ p.ext ++ p.data

/-- Read a packet from its bytes. -/
def pktOf (b : List Byte) : Packet :=
  let b0 := le b 0 1
  let ext := bit b0 5
  let len := bits (le b 18 2) 0 14
  { vc := bits b0 0 4, herdMode := bit b0 4, ack := bit b0 6, op := le b 1 1, dst := bits (le b 2 2) 0 12,
    src := bits (le b 4 2) 0 12, ctx := bits (le b 6 2) 0 12, gen := le b 8 1, hops := bits (le b 9 1) 0 3,
    hopPtr := bits (le b 9 1) 3 3, hop := bits (le b 10 6) 0 42, tag := le b 16 2, len := len, addr := le b 20 8,
    aux := le b 28 2, status := le b 30 1, byRouter := bit (le b 31 1) 0, retry := bit (le b 31 1) 1,
    ext := if ext then fit 32 (b.drop 32) else [], data := fit len (b.drop (if ext then 64 else 32)) }

/-- Bytes that an operation accesses. -/
def opBytes (p : Packet) : Nat :=
  match p.op with
  | 0x02 => bits p.aux 0 13
  | 0x01 => p.len
  | 0x0C => p.len
  | 0x0A => 8
  | _ => 64

/-- A transfer lies within one 4 KiB block in the endpoint window, within one granule in the memory window (R136, R277). -/
def inPiece (a n : Nat) : Bool := inBlock (loff a) n (if isEpWin a then 4096 else 256)

/-- The operation is defined, with a VC, extension, length and `ack` that its rule allows (R132), within the limit of its VC
(R133). READ, ATOMIC and FOLIO have no rule for `ack`, and an edge port sets it (R334); no rule lets another operation that
is answered by its own packet, or by none, ask for a CMP (DEDUCED, log). -/
def opOk (p : Packet) : Bool :=
  let x := p.ext != []
  let n := p.len
  let k := p.ack
  p.size ≤ vcLimit p.vc && p.data.length == n &&
  match p.op with
  | 0x01 => !x && 1 ≤ n && n ≤ 4096 && p.vc == (if n ≤ 32 then 1 else 6)
  | 0x02 => !x && p.vc == 1 && n == 0
  | 0x03 => !x && p.vc == 6 && 1 ≤ n && n ≤ 4096 && !k
  | 0x04 => !x && p.vc == 1 && n == 0 && !k
  | 0x05 => !x && p.vc == 1 && n == 0 && !k
  | 0x06 => !x && p.vc == 1 && n == 0 && !k
  | 0x07 => !x && p.vc == 6 && n == 64 && !k
  | 0x08 => !x && p.vc == 1 && n == 0 && !k
  | 0x09 => !x && p.vc == 6 && (n == 0 || n == 64) && !k
  | 0x0A => !x && p.vc == 1 && (n == 8 || n == 16)
  | 0x0B => !x && p.vc == 3 && n == 8 && !k
  | 0x0C => x && p.vc == 6 && 1 ≤ n && n ≤ 256
  | 0x0D => !x && p.vc == 1 && n == 0 && !k
  | 0x0E => !x && p.vc == 3 && n == 0 && !k
  | 0x20 => !x && 16 ≤ n && n ≤ 4096 && p.vc == (if n ≤ 32 then 2 else 7) && !k
  | 0x21 => (!x || (0x840 ≤ p.dst && p.dst < 0x880)) && p.vc == 4 && n == 0 && !k
  | 0x22 => !x && p.vc == 2 && n == 16 && !k
  | 0x30 => x && p.vc == 6 && 1 ≤ n && n ≤ 1024 && !k
  | 0x31 => x && p.vc == 0 && n == 0 && !k
  | 0x32 => x && p.vc == 0 && n == 0 && !k
  | 0x33 => x && p.vc == (if n = 0 then 0 else 6) && n ≤ 2048 && !k
  | 0x40 => x && p.vc == 1 && n == 0 && !k
  | 0x41 => x && p.vc == 9 && 1 ≤ n && n ≤ 4096 && !k
  | 0x42 => x && p.vc == 9 && 1 ≤ n && n ≤ 4096 && k
  | 0x50 => !x && p.vc == 5 && n == 0 && !k
  | 0x51 => !x && p.vc == 5 && n == 0 && !k
  | 0x52 => !x && p.vc == 5 && n == 0 && !k
  | 0x58 => !x && p.vc == 3 && n == 0 && !k
  | 0x59 => !x && p.vc == 6 && n == 64 && !k
  | 0x60 => !x && p.vc == 3 && n == 0 && !k
  | 0x70 => x && p.vc == 8 && 1 ≤ n && n ≤ 8192
  | _ => false

/-- What the rule of an operation asks of its address and operands at its source (R136, R138, R277, R280, R282). -/
def operandsOk (p : Packet) : Bool :=
  let a := p.addr
  match p.op with
  | 0x01 => addrOk a && inPiece a p.len
  | 0x02 => addrOk a && 1 ≤ opBytes p && opBytes p ≤ 4096 && inPiece a (opBytes p)
  | 0x0C => addrOk a && inPiece a p.len
  | 0x0A => addrOk a && a % 8 == 0 && bits p.aux 0 4 ≤ 7 && p.len == (if bits p.aux 0 4 = 2 then 16 else 8)
  | 0x04 => addrOk a && a % 64 == 0
  | 0x05 => addrOk a && a % 64 == 0
  | 0x06 => addrOk a && a % 64 == 0
  | 0x07 => addrOk a && a % 64 == 0
  | 0x08 => addrOk a && a % 64 == 0
  | 0x70 => le p.ext 2 2 != 0 && bits (le p.ext 4 1) 0 2 != 3
  | _ => true

/-- The packet expects an answer (R129). -/
def wantsAns (p : Packet) : Bool :=
  match p.op with
  | 0x01 => p.ack
  | 0x0C => p.ack
  | 0x20 => p.ack
  | 0x02 => true
  | 0x04 => true
  | 0x05 => true
  | 0x06 => true
  | 0x07 => true
  | 0x08 => true
  | 0x0A => true
  | 0x40 => true
  | 0x42 => true
  | 0x70 => true
  | _ => false

/-! ### Messages -/

/-- Sender of a message: from the header of the payload (R189, R190). -/
def hdPkg (d : List Byte) : Nat := bits (le d 8 4) 0 17
def hdSrc (d : List Byte) : Nat := bits (le d 4 2) 0 12
def hdChan (d : List Byte) : Nat := le d 6 1
def hdLines (d : List Byte) : Nat := bits (le d 1 1) 0 7
def hdBlen (d : List Byte) : Nat := bits (le d 2 2) 0 13

/-! ### Targets -/

/-- The edge port that a packet from this package to package `b` takes (R331). -/
def State.edgePort (s : State) (b gsel : Nat) : Nat :=
  let x := s.pkgNum ^^^ b
  let f := (List.range 3).foldl (fun f j => f ^^^ bits x (6 * j) 6 ^^^ bits gsel (6 * j) 6) 0
  s.rd gblB KGBL_EMAP.emap_ep f

/-- The target that an address names, or why there is none (R276): a status and an endpoint. -/
def State.dstOf (s : State) (a : Nat) : Nat × Nat :=
  if !addrOk a then (BADOP, 0)
  else if s.addrPkg a ≠ s.pkgNum then (OK, 0x840 + s.edgePort (s.addrPkg a) (bits a 8 14))
  else if isEpWin a then (if bits a 29 11 < s.nStations then (OK, bits a 29 11) else (NOROUTE, 0))
  else if loff a < s.memTop then (OK, 0x800 + portOf (loff a))
  else (BADOP, 0)

/-! ### Edge headers, ACK records, frames -/

/-- The 24 B edge header (R332): destination package and EP, path, source package and EP, incarnation, flags, PSN,
destination endpoint, predecessor. -/
def ehdrBytes (dpkg dep path spkg sep inc : Nat) (syn rtx : Bool) (psn edst cpred : Nat) (cpv : Bool) : List Byte :=
  toLE 4 (dpkg + dep * 2 ^ 17 + path * 2 ^ 23)
    ++ toLE 4 (spkg + sep * 2 ^ 17 + inc * 2 ^ 23 + (if syn then 2 ^ 27 else 0) + (if rtx then 2 ^ 28 else 0))
    ++ toLE 3 psn ++ [0] ++ toLE 2 edst ++ [0, 0] ++ toLE 4 (cpred + (if cpv then 2 ^ 24 else 0)) ++ [0, 0, 0, 0]

def EHdr.bytes (h : EHdr) : List Byte :=
  ehdrBytes h.dpkg h.dep h.path h.spkg h.sep h.inc h.syn h.rtx h.psn h.edst h.cpred h.cpv

/-- Read an edge header. -/
def ehdrOf (b : List Byte) : EHdr :=
  let a := le b 0 4
  let c := le b 4 4
  { dpkg := bits a 0 17, dep := bits a 17 6, path := bits a 23 6, spkg := bits c 0 17, sep := bits c 17 6,
    inc := bits c 23 4, syn := bit c 27, rtx := bit c 28, psn := le b 8 3, edst := bits (le b 12 2) 0 12,
    cpred := bits (le b 16 4) 0 24, cpv := bit (le b 16 4) 24 }

/-- The 32 B record of an ACK packet (R338). -/
def ackBytes (apkg ainc : Nat) (rst : Bool) (cum : Nat) (rng : List (Nat × Nat)) : List Byte :=
  let r := (rng ++ List.replicate 4 (1, 0)).take 4
  toLE 4 (apkg + ainc * 2 ^ 17 + (if rst then 2 ^ 21 else 0)) ++ toLE 4 cum
    ++ r.flatMap (fun x => toLE 3 x.1 ++ toLE 3 x.2)

/-- A frame of 256 B: control cell, body, CRC (R321). -/
def frameBytes (ftype vc lseq lack : Nat) (sof eof nak lackV : Bool) (lcred : Nat) (body : List Byte) : List Byte :=
  let c := toLE 1 (ftype + (if sof then 16 else 0) + (if eof then 32 else 0)) ++ toLE 1 vc ++ toLE 1 body.length ++ [0]
    ++ toLE 2 lseq ++ toLE 2 (lack + (if nak then 4096 else 0) + (if lackV then 8192 else 0)) ++ toLE 2 lcred
    ++ [0, 0, 0, 0, 0, 0]
  let f := c ++ fit 240 body
  patch f 12 (toLE 4 (crc32 f))

/-- The frame's CRC is good (R321, R323). -/
def frameOk (f : List Byte) : Bool := f.length == 256 && crc32 (patch f 12 [0, 0, 0, 0]) == le f 12 4

/-- The segments that a pool or merge request names (R249, R260). -/
def pxMask (p : Packet) : Nat := le p.ext 12 2
def mxMask (p : Packet) : Nat := le p.ext 0 2

end Sys2Proof.Machine
end

