-- ==== Sys2Proof/Machine/Command.lean ====
section
/-! DEFINITION. Management commands (R459 to R467): fetch, first checks, replies, and the commands that only report. -/

namespace Sys2Proof.Machine

/-! ### Running commands and replies -/

/-- Miomus runs: a command that needs it gets no reply while it is hung (R425). -/
def State.miomusUp (s : State) : Bool := !s.boot.hung

/-- The running command of queue `q` in slot `slot`, at its start, when it carries `opcode`. -/
def State.cmdAt (s : State) (q slot opcode : Nat) : Option Cmd :=
  if !s.miomusUp then none
  else s.boot.cmds.find? (fun c => c.q == q && c.slot == slot && le c.bytes 0 2 == opcode && c.stage == 0)

/-- The running command of queue `q` in slot `slot`. -/
def State.cmdOf (s : State) (q slot : Nat) : Option Cmd := s.boot.cmds.find? (fun c => c.q == q && c.slot == slot)

/-- Fields of a command (R459). -/
def Cmd.op (c : Cmd) : Nat := le c.bytes 0 2
def Cmd.tag (c : Cmd) : Nat := le c.bytes 2 2
def Cmd.ctx (c : Cmd) : Nat := bits (le c.bytes 4 2) 0 12

/-- Take a running command to another stage. -/
def W.cmdStage (w : W) (q slot stage : Nat) : W :=
  { w with boot.cmds := w.boot.cmds.map (fun c => if c.q = q ∧ c.slot = slot then { c with stage := stage } else c) }

/-- The bytes of a status reply (R460). -/
def replyBytes (status phase opcode tag stamp : Nat) (rdata : List Byte) : List Byte :=
  toLE 1 status ++ toLE 1 phase ++ toLE 2 opcode ++ toLE 2 tag ++ [0, 0] ++ toLE 8 stamp ++ fit 16 rdata

/-- Write a reply into slot `sl` (slot + 128 × phase) of a queue's reply ring (R461, R462): visible with source 38 + q. -/
def W.putReply (w : W) (q sl : Nat) (r : List Byte) : W :=
  let r := patch r 1 (toLE 1 (sl / 128))
  let w := { w with boot.csram := putBytes w.boot.csram (0x8000 + 0x1000 * q + 32 * (sl % 128)) r }
  (w.traceCmd 2 (le r 2 2) (le r 4 2) (le r 0 1) q).irqP (38 + q)

/-- The records of a queue (R431). -/
def State.recsOf (s : State) (q : Nat) : List CmdRec := (s.boot.recsQ.find q).getD []

/-- The reply of a command whose outcome is fixed (R460): it goes to its slot and to those of its copies, and its record keeps
it. -/
def W.replyTo (w : W) (q slot status stamp : Nat) (rdata : List Byte) : W :=
  match w.cmdOf q slot with
  | none => w
  | some c =>
    let r := replyBytes status 0 c.op c.tag stamp rdata
    let l := w.recsOf q
    let mine (x : CmdRec) : Bool := x.tag == c.tag && x.opcode == c.op && x.reply.isNone
    let slots := (l.filter mine).flatMap (fun x => x.slots)
    let w := { w with
      boot.recsQ := w.boot.recsQ.put q (l.map (fun x => if mine x then { x with reply := some r, slots := [] } else x))
      boot.cmds := w.boot.cmds.erase c }
    let w := w.dec (cmdB q) KCMD_QHEAD.running
    w.each slots (fun w sl => w.putReply q sl r)

/-- A command ends with a status, its outcome fixed at herd time `stamp`; while Miomus is hung its reply waits (R425, R436). -/
def W.answerAt (w : W) (q slot status stamp : Nat) (rdata : List Byte) : W :=
  if w.miomusUp then w.replyTo q slot status stamp rdata
  else if (w.cmdOf q slot).isNone ∨ w.boot.owed.any (fun x => x.1 == (q, slot)) then w
  else { w with boot.owed := w.boot.owed ++ [((q, slot), status, stamp, fit 16 rdata)] }

/-- Replies that waited for Miomus are written (R425). -/
def W.repliesOwed (w : W) : W :=
  let l := w.boot.owed
  { w with boot.owed := [] } |>.each l (fun w x => w.replyTo x.1.1 x.1.2 x.2.1 x.2.2.1 x.2.2.2)

/-- A command ends now. -/
def W.answer (w : W) (q slot status : Nat) (rdata : List Byte := []) : W := w.answerAt q slot status w.herdTime rdata

/-- A WRITE that a command sent is answered: the command ends with the status of highest precedence once all are. `a`
counts the WRITEs not answered, `b` keeps the status so far. -/
def W.cmdWriteAck (w : W) (q slot status : Nat) : W :=
  match w.cmdOf q slot with
  | none => w
  | some c =>
    let st := worst [c.b, status]
    if c.a ≤ 1 then w.answer q slot st
    else { w with boot.cmds := w.boot.cmds.map (fun (x : Cmd) => if x = c then { x with a := x.a - 1, b := st } else x) }

/-- A folio write of a PLATE_LOAD is acknowledged (R84); one that ends with another status than OK never is. -/
def W.plateWriteAck (w : W) (q slot status : Nat) : W :=
  match w.plt.load with
  | none => w
  | some l =>
    if status ≠ OK ∨ l.q ≠ q ∨ l.slot ≠ slot then w else { w with plt.load := some { l with left := l.left - 1 } }

/-! ### First checks (R464) -/

/-- The parameter fields of an opcode (R465): byte offset, bytes, and the bits that are fields. None: unknown opcode. -/
def paramFields (b : List Byte) : Option (List (Nat × Nat × Nat)) :=
  match le b 0 2 with
  | 0x0001 => some []
  | 0x0002 => some []
  | 0x0003 => some [(16, 8, 2 ^ 64 - 1), (24, 4, 2 ^ 32 - 1)]
  | 0x0010 => some [(16, 1, 1), (24, 8, 2 ^ 64 - 1)]
  | 0x0011 => some []
  | 0x0020 => some [(16, 8, 2 ^ 64 - 1), (24, 4, 2 ^ 32 - 1)]
  | 0x0021 => some [(16, 2, 0xFFFF), (18, 1, 1)]
  | 0x0022 => some []
  | 0x0023 => some [(16, 1, 0x7F), (17, 1, 0xFF)]
  | 0x0030 => some [(16, 8, 2 ^ 64 - 1), (24, 4, 0x7FFFF)]
  | 0x0031 => some []
  | 0x0040 => some [(16, 8, 2 ^ 64 - 1)]
  | 0x0041 => some []
  | 0x0042 => some []
  | 0x0043 => some []
  | 0x0050 => some [(16, 2, 0xFFF), (18, 1, 1)]
  | 0x0051 => some [(16, 2, 0xFFF), (18, 1, 1)]
  | 0x0052 => some [(16, 1, 3), (18, 2, 0xFFF)]
  | 0x0060 => some [(16, 1, 7)]
  | 0x0061 => some []
  | 0x0070 => some [(16, 4, 0x3FFFFFF)]
  | 0x0071 => some [(16, 4, 2 ^ 32 - 1), (24, 8, 2 ^ 64 - 1)]
  | 0x0072 => some [(16, 4, 2 ^ 32 - 1), (20, 4, 2 ^ 32 - 1), (24, 8, 2 ^ 64 - 1)]
  | 0x0080 => some []
  | 0x0081 => some ([(16, 1, 1), (17, 1, 7)]
      ++ (List.range (min 5 (bits (le b 17 1) 0 3))).flatMap (fun i => [(24 + 8 * i, 4, 0x1F), (28 + 8 * i, 4, 2 ^ 32 - 1)]))
  | 0x0090 => some [(16, 1, 0x3F), (17, 1, 0xFF), (32, 32, 2 ^ 256 - 1)]
  | 0x00A0 => some [(16, 32, 2 ^ 256 - 1)]
  | 0x00A1 => some [(16, 2, 0xFFF), (18, 1, 0xFF), (20, 2, 0xFFF), (24, 8, 2 ^ 64 - 1)]
  | _ => none

/-- The opcode's `ctx` column reads 0 (R465). -/
def cmdCtxZero (b : List Byte) : Bool :=
  let op := le b 0 2
  !((0x40 ≤ op && op ≤ 0x43) || op == 0x70 || op == 0x71 || op == 0xA0 || op == 0xA1
    || ((op == 0x50 || op == 0x51) && !bit (le b 18 1) 0))

/-- The checks of R464 pass. -/
def cmdClean (b : List Byte) : Bool :=
  match paramFields b with
  | none => false
  | some l =>
    let m := l.foldl (fun m f => m + f.2.2 * 2 ^ (8 * (f.1 - 16))) 0
    let v := le b 16 48
    (v &&& m) == v && bits (le b 4 2) 12 4 == 0 && le b 6 10 == 0
      && (!cmdCtxZero b || le b 4 2 == 0)

/-- Commands that run in proof hold (R445). -/
def holdRuns (op : Nat) : Bool := op == 0x01 || op == 0x02 || op == 0x80 || op == 0x72 || op == 0x61

/-- A local address range that a command may name (R513). -/
def State.rangeOk (s : State) (a n : Nat) : Bool :=
  addrOk a && s.addrPkg a == s.pkgNum && !isEpWin a && loff a + n ≤ s.memTop

/-! ### Fetch (R462) -/

/-- The bytes of a slot of a command ring. -/
def State.slotBytes (s : State) (q i : Nat) : List Byte := getBytes s.boot.csram (0x2000 * q + 64 * i) 64

/-- Keep a record of a fetched command among the last 64 of its queue (R431). -/
def W.keepRec (w : W) (q : Nat) (r : CmdRec) : W :=
  let l := w.recsOf q ++ [r]
  { w with boot.recsQ := w.boot.recsQ.put q (l.drop (l.length - 64)) }

/-- The next slot of a ring of 128; the phase turns at the wrap. -/
def W.advanceHead (w : W) (q : Nat) : W :=
  let b := cmdB q
  let h := w.rd b KCMD_QHEAD.chead
  let w := w.wr b KCMD_QHEAD.chead ((h + 1) % 128)
  if h = 127 then w.wr b KCMD_QHEAD.cphase (1 - w.rd b KCMD_QHEAD.cphase) else w

/-- Start a fetched command (R431, R462, R464): a copy is answered from its record; one that fails the first checks
completes at once; any other runs. -/
def W.startCmd (w : W) (q h ph : Nat) (bs : List Byte) : W :=
  let b := cmdB q
  let op := le bs 0 2
  let tag := le bs 2 2
  let sl := h + 128 * ph
  let w := w.traceCmd 1 op tag 0 q
  match (w.recsOf q).find? (fun r => r.tag == tag && r.opcode == op) with
  | some r =>
    let w := w.inc b KCMD_QEVT.dups
    match r.reply with
    | some rep => w.putReply q sl rep
    | none =>
      { w with boot.recsQ := w.boot.recsQ.put q ((w.recsOf q).map (fun x =>
          if x = r then { x with slots := x.slots ++ [sl] } else x)) }
  | none =>
    let twice := (w.recsOf q).any (fun r => r.tag == tag)
    let w := w.keepRec q { tag := tag, opcode := op, reply := none, slots := [sl] }
    let w := (w.inc b KCMD_QHEAD.running)
    let w := { w with boot.cmds := w.boot.cmds ++ [{ q := q, slot := h, bytes := bs, fc := w.fc }] }
    let bad := !cmdClean bs
    let w := if bad then w.inc b KCMD_QEVT.cmd_bad else w
    if bad || twice then w.answer q h BADOP
    else if w.rd fltB KFLT_STATE.fstate = 3 && !holdRuns op then w.answer q h DEAD_TARGET
    else if op = 0x61 then { w with boot.rstReq := true }
    else w

/-- COMMAND_FETCH (R462): when the port is ready, the queue is enabled and not empty, and fewer than 8 of its commands
run, the command at `chead` is fetched. -/
def effCommandFetch (q : Nat) (w : W) : W :=
  let b := cmdB q
  let h := w.rd b KCMD_QHEAD.chead
  if w.rd gblB KGBL_BOOT.mp_ready = 0 ∨ w.rd b KCMD_QCFG.qen = 0 ∨ h = w.rd b KCMD_QTAIL.ctail
      ∨ 8 ≤ w.rd b KCMD_QHEAD.running ∨ !w.miomusUp ∨ 4 ≤ q then w
  else
    let bs := w.slotBytes q h
    let ph := w.rd b KCMD_QHEAD.cphase
    (w.advanceHead q).startCmd q h ph bs

/-! ### Commands that report -/

/-- A 32-bit register's value from its fields. -/
def State.reg32 (s : State) (b : Nat) (fs : List Fld) (i : Nat := 0) : Nat :=
  fs.foldl (fun v f => v + s.rd b f i % 2 ^ f.width * 2 ^ f.lsb) 0

/-- KGBL_TOPO0 and KGBL_TOPO1 as the fuses give them (R54). -/
def State.topo0 (s : State) : Nat :=
  s.fuse.cdSites + s.fuse.cdActive * 2 ^ 8 + s.fuse.slices * 2 ^ 16 + s.fuse.edgePorts * 2 ^ 24
def State.topo1 (s : State) : Nat :=
  s.fuse.tines + s.fuse.beams * 2 ^ 8 + s.beamsLive.length * 2 ^ 16 + 2 * s.fuse.cdActive * 2 ^ 24

/-- KGBL_TOPO0 and KGBL_TOPO1 as they read: Miomus sets them before the management port is ready; until then they hold the
values of the reference package (R54). -/
def State.topo0Now (s : State) : Nat := if s.rd gblB KGBL_BOOT.mp_ready = 1 then s.topo0 else 0x40204042
def State.topo1Now (s : State) : Nat := if s.rd gblB KGBL_BOOT.mp_ready = 1 then s.topo1 else 0x80141620

/-- IDENTIFY (R465). -/
def effIdentify (q slot : Nat) (w : W) : W :=
  match w.cmdAt q slot 0x0001 with
  | none => w
  | some _ => w.answer q slot OK (toLE 4 0x00030002 ++ toLE 4 w.topo0 ++ toLE 4 w.topo1 ++ toLE 4 w.pkgNum)

/-- PROOF_REPORT (R446, R465): the header fields of the report in the mailbox. -/
def effProofReport (q slot : Nat) (w : W) : W :=
  match w.cmdAt q slot 0x0002 with
  | none => w
  | some _ => w.answer q slot OK (getBytes w.boot.csram 0xC000 8)

/-- KHRD_STATUS and KHRD_OFFSET. -/
def State.hrdStatus (s : State) : Nat :=
  s.reg32 hrdB [KHRD_STATUS.state, KHRD_STATUS.free_run, KHRD_STATUS.ref_port, KHRD_STATUS.step_count]
def State.hrdOffset (s : State) : Nat := s.reg32 hrdB [KHRD_OFFSET.offset, KHRD_OFFSET.words_ok]

/-- HERD_STATUS (R465). -/
def effHerdStatus (q slot : Nat) (w : W) : W :=
  match w.cmdAt q slot 0x0011 with
  | none => w
  | some _ => w.answer q slot OK (toLE 4 w.hrdStatus ++ toLE 4 w.hrdOffset ++ toLE 2 (w.rd hrdB KHRD_LOSS_CNT.loss_count))

/-- FAULT_READ (R390, R465). -/
def effFaultRead (q slot : Nat) (w : W) : W :=
  match w.cmdAt q slot 0x0080 with
  | none => w
  | some _ => w.answer q slot OK (toLE 4 w.fltGroups ++ toLE 4 (w.rd fltB (KFLT_STICKY.sticky.at 12))
      ++ toLE 2 (w.rd fltB KFLT_STATE.fstate) ++ toLE 2 (w.rd fltB KFLT_RCV.recoveries))

/-! ### The commands of this family -/

/-- COMMAND_FETCH (R462). -/
def execCommandFetch (q : Nat) (s : State) : Host.Outcome State Fault Refusal :=
  run (effCommandFetch q) s

/-- IDENTIFY (R465). -/
def execIdentify (q slot : Nat) (s : State) : Host.Outcome State Fault Refusal :=
  run (effIdentify q slot) s

/-- PROOF_REPORT (R446). -/
def execProofReport (q slot : Nat) (s : State) : Host.Outcome State Fault Refusal :=
  run (effProofReport q slot) s

/-- HERD_STATUS (R465). -/
def execHerdStatus (q slot : Nat) (s : State) : Host.Outcome State Fault Refusal :=
  run (effHerdStatus q slot) s

/-- FAULT_READ (R390). -/
def execFaultRead (q slot : Nat) (s : State) : Host.Outcome State Fault Refusal :=
  run (effFaultRead q slot) s

end Sys2Proof.Machine
end

