-- ==== Sys2Proof/Machine/Plate.lean ====
section
/-! DEFINITION. Plates: the image and its checks (R74 to R84), the period, pauses (R68 to R72), and which lanes a plate
reserves in a slot (R43, R77). -/

namespace Sys2Proof.Machine

/-- The unit that a plate's unit number names (R76): none for a logical beam without a physical beam. -/
def State.plateUnit (s : State) (k : Nat) : Option Nat :=
  let i := k % 65536
  match k / 65536 with
  | 0 => some (uSt i)
  | 1 => some (uCR i)
  | 2 => some (uRR i)
  | 3 => some (uTine i)
  | 4 => (s.beamOf i).map uBeam
  | 5 => some (uMsp i)
  | 6 => some (uEp i)
  | _ => none

/-- Ports and lanes of a plate's unit (R79). -/
def platePorts (ty : Nat) : Nat :=
  match ty with
  | 0 => 2 | 1 => 5 | 2 => 9 | 3 => 41 | 4 => 32 | 5 => 2 | 6 => 2 | _ => 0
def plateLanes (ty port : Nat) : Nat :=
  match ty with
  | 0 => 1
  | 1 => if port < 4 then 1 else 4
  | 2 => if port = 4 then 1 else 4
  | _ => 4

/-- Lane action fields (R78). -/
def actKind (a : Nat) : Nat := bits a 0 3
def actPort (a : Nat) : Nat := bits a 3 6
def actLane (a : Nat) : Nat := bits a 9 2
def actComb (a : Nat) : Nat := bits a 3 10
def actStream (a : Nat) : Nat := bits a 3 8

/-- Link delay in slots (R80). -/
def linkDelay (u v : Nat) : Nat :=
  if (isRR u && isTine v) || (isTine u && isRR v) then 2
  else if (isTine u && isBeam v) || (isBeam u && isTine v) then 1 else 0

/-- Parse one run entry of 16 B (R77). -/
def parseRun (b : List Byte) : RunEnt :=
  { port := bits (le b 0 1) 0 6, lane := bits (le b 1 1) 0 4, start := bits (le b 2 2) 0 12,
    length := bits (le b 4 2) 0 13, acts := [le b 8 2, le b 10 2, le b 12 2, le b 14 2] }

/-- Parse one combine entry of 16 B (R81). -/
def parseComb (b : List Byte) : CombEnt :=
  { nIn := bits (le b 0 1) 0 3, op := bits (le b 1 1) 0 3, dtype := le b 2 1, widen := bit (le b 3 1) 0,
    ins := [le b 4 1, le b 5 1, le b 6 1, le b 7 1] }

/-- A run entry as a 16 B number (R77), and a combine entry (R81). -/
def runNum (r : RunEnt) : Nat :=
  r.port + r.lane * 2 ^ 8 + r.start * 2 ^ 16 + r.length * 2 ^ 32
    + (r.acts.getD 0 0 + r.acts.getD 1 0 * 2 ^ 16 + r.acts.getD 2 0 * 2 ^ 32 + r.acts.getD 3 0 * 2 ^ 48) * 2 ^ 64
def combNum (c : CombEnt) : Nat :=
  c.nIn + c.op * 2 ^ 8 + c.dtype * 2 ^ 16 + (if c.widen then 2 ^ 24 else 0)
    + (c.ins.getD 0 0 + c.ins.getD 1 0 * 2 ^ 8 + c.ins.getD 2 0 * 2 ^ 16 + c.ins.getD 3 0 * 2 ^ 24) * 2 ^ 32

/-- Cut `n` entries of 16 B. -/
def cut16 : Nat → List Byte → List (List Byte)
  | 0, _ => []
  | n + 1, l => l.take 16 :: cut16 n (l.drop 16)

/-- A directory entry of an image (R76): unit number, offset, counts, mask. -/
structure DirRec where
  unit : Nat
  offset : Nat
  nRun : Nat
  nComb : Nat
  mask : Nat
  clean : Bool
  deriving DecidableEq, Repr

def parseDir (b : List Byte) : DirRec :=
  { unit := bits (le b 0 1) 0 3 * 65536 + le b 2 2, offset := le b 4 4, nRun := le b 8 2, nComb := bits (le b 10 2) 0 10,
    mask := le b 12 2,
    clean := bits (le b 0 1) 3 5 == 0 && le b 1 1 == 0 && bits (le b 10 2) 10 6 == 0 && le b 14 2 == 0 }

/-- A run entry's reserved bits are zero and its actions are well encoded for the unit type (R77, R78, R108). -/
def runClean (ty : Nat) (b : List Byte) : Bool :=
  let r := parseRun b
  bits (le b 0 1) 6 2 == 0 && bits (le b 1 1) 4 4 == 0 && bits (le b 2 2) 12 4 == 0 && bits (le b 4 2) 13 3 == 0
    && le b 6 2 == 0
    && r.acts.all (fun a => match actKind a with
      | 0 => bits a 3 13 == 0
      | 1 => bits a 11 5 == 0 && (ty != 0 || (actPort a == 0 && actLane a == 0))
      | 2 => bits a 13 3 == 0
      | 3 => bits a 3 13 == 0
      | 4 => bits a 11 5 == 0
      | 5 => bits a 11 5 == 0
      | _ => false)
    && (ty != 0 || (if r.port = 0 then r.acts.all (fun a => actKind a != 5 && actKind a != 2)
                    else r.acts.all (fun a => actKind a == 0 || actKind a == 5)))

/-- A combine entry's reserved bits are zero and its encodings defined (R81, R209, R211 through `okType`). -/
def combClean (okType : Nat → Nat → Bool → Bool) (b : List Byte) : Bool :=
  let c := parseComb b
  bits (le b 0 1) 3 5 == 0 && bits (le b 1 1) 3 5 == 0 && bits (le b 3 1) 1 7 == 0 && le b 8 8 == 0
    && 2 ≤ c.nIn && c.nIn ≤ 4 && c.op ≤ 5 && okType c.dtype c.op c.widen
    && (c.ins.drop c.nIn).all (fun x => x == 0)

/-- Slots of a run entry. -/
def RunEnt.covers (r : RunEnt) (s : Nat) : Bool := r.start ≤ s && s < r.start + r.length

/-- Lanes that a run entry reserves (R77). -/
def RunEnt.lanes (r : RunEnt) : List Nat := (List.range 4).filter (fun k => actKind (r.acts.getD k 0) != 0)

/-- The order of R76: by port, then start, then lowest lane reserved. -/
def runKey (r : RunEnt) : Nat := (r.port * 4096 + r.start) * 8 + (r.lanes.headD 4)
def sortedRuns : List RunEnt → Bool
  | [] => true
  | [_] => true
  | a :: b :: t => runKey a ≤ runKey b && sortedRuns (b :: t)

/-- No two run entries reserve one lane of one port in one slot. -/
def disjointRuns : List RunEnt → Bool
  | [] => true
  | a :: t => t.all (fun b => a.port != b.port || (a.start + a.length ≤ b.start) || (b.start + b.length ≤ a.start)
      || a.lanes.all (fun k => !b.lanes.contains k)) && disjointRuns t

/-- Some run entry of plate lane `L` in a plate drives output (unit, port, lane) in slot `s`. -/
def Plate.drives (p : Plate) (k port lane s L : Nat) : Bool :=
  match p.secs.find k with
  | none => false
  | some x => x.runs.any (fun r => r.port == port && r.covers s && r.lanes.contains lane && r.lane == L)

/-- The plate's number of a unit; 0xFF0000 when a beam serves no logical beam. -/
def State.plateKey (s : State) (u : Nat) : Nat :=
  if isCR u then 1 * 65536 + u else if isRR u then 2 * 65536 + (u - 0x240)
  else if isTine u then 3 * 65536 + (u - 0x300)
  else if isBeam u then (match s.beamBy (u - 0x340) with | some k => 4 * 65536 + k | none => 0xFF0000)
  else if u < 0x2000 then u - 0x1000 else if u < 0x2040 then 5 * 65536 + (u - 0x2000)
  else 6 * 65536 + (u - 0x2040)

/-- The upstream end of a unit's input port, by plate numbers: unit and output port, and the link's delay. -/
def State.upstream (s : State) (k port : Nat) : Option (Nat × Nat × Nat) :=
  match s.plateUnit k with
  | none => none
  | some u =>
    match s.peer u port with
    | none => none
    | some (v, pv) => if 0x2080 ≤ v then none else some (s.plateKey v, pv, linkDelay v u)

/-- The input of a FWD or COMB is driven in the slot that R80 gives (condition 6 of R82). The lane side of an EP and
the memory side of an MSP have no upstream unit. -/
def State.driven (s : State) (p : Plate) (k port lane slot L back : Nat) : Bool :=
  if (k / 65536 = 5 ∨ k / 65536 = 6) ∧ port = 1 then true else
  match s.upstream k port with
  | none => false
  | some (v, pv, d) =>
    let n := 64 * p.blocks
    p.drives v pv lane ((slot + 3 * n - (1 + back) - d) % n) L

/-- Condition 6 for one unit's section. -/
def State.inputsDriven (s : State) (p : Plate) (k : Nat) (x : Section) : Bool :=
  x.runs.all (fun r => (List.range r.length).all (fun i => r.acts.all (fun a =>
    match actKind a with
    | 1 => s.driven p k (actPort a) (actLane a) (r.start + i) r.lane 0
    | 2 => match x.combs[actComb a]? with
      | none => false
      | some c => (c.ins.take c.nIn).all (fun b => s.driven p k (bits b 0 6) (bits b 6 2) (r.start + i) r.lane 1)
    | _ => true)))

/-- Whether an output port leads up the tree (R41). -/
def goesUp (ty port : Nat) : Bool :=
  match ty with
  | 0 => port == 0
  | 1 => port == 4
  | 2 => 5 ≤ port
  | 3 => 21 ≤ port
  | 5 => port == 0
  | 6 => port == 0
  | _ => false

/-- A turn from an input port to a down port happens at the lowest stage both ends reach (R41). `leaf`: the path began
at an MSP or EP. At a beam the ends' tines decide; two regions share tines when their tines are equal div 4. -/
def turnOk (ty inp out : Nat) (leaf : Bool) : Bool :=
  match ty with
  | 2 => inp != out
  | 3 => inp != out
  | 4 => inp != out && (leaf || inp / 4 != out / 4)
  | _ => true

/-- The turn of a path whose ends lie under `ports` of a unit is at the lowest stage that all of them reach (R41): some two
of them reach no lower one. A path through a combine has the sources of all its inputs as ends (DEDUCED, log). -/
def turnsHere (ty : Nat) (ports : List Nat) (leaf : Bool) : Bool := ports.any (fun a => ports.any (fun b => turnOk ty a b leaf))

/-- Follow a cell from an output through every unit that forwards or combines it: each path climbs, then descends, and
turns where R41 says (condition 7 of R82); no such path is longer than 32 slots. `good`: it turned where a path may; `near`:
a path from an MSP or EP turned at a beam between tines of the same regions, where only another MSP or EP may lie. -/
def State.paths (s : State) (p : Plate) : Nat → Nat → Nat → Nat → Nat → Bool → Bool → Bool → Bool → Bool
  | 0, _, _, _, _, _, _, _, _ => false
  | f + 1, k, port, lane, slot, down, leaf, good, near =>
    match s.plateUnit k with
    | none => true
    | some u =>
      match s.peer u port with
      | none => true
      | some (v, pv) =>
        let kv := s.plateKey v
        let tv := kv / 65536
        let n := 64 * p.blocks
        let arr := slot + 1 + linkDelay u v
        if tv = 0 then good && !near
        else if tv = 5 ∨ tv = 6 then good
        else match p.secs.find kv with
        | none => true
        | some x =>
          let ok (o sl l : Nat) (ins : List Nat) : Bool :=
            if goesUp tv o then !down && s.paths p f kv o l sl false leaf good near
            else s.paths p f kv o l sl true leaf (good && (down || turnsHere tv (o :: ins) leaf))
              (near || (!down && tv == 4 && ins.all (fun i => i / 4 == o / 4)))
          x.runs.all (fun r => (List.range 4).all (fun l =>
            let a := r.acts.getD l 0
            match actKind a with
            | 1 => !(actPort a == pv && actLane a == lane && r.covers (arr % n)) || ok r.port arr l [pv]
            | 2 => match x.combs[actComb a]? with
              | none => true
              | some c => !(r.covers ((arr + 1) % n) && (c.ins.take c.nIn).any (fun b => bits b 0 6 == pv && bits b 6 2 == lane))
                  || ok r.port (arr + 1) l ((c.ins.take c.nIn).map (fun b => bits b 0 6))
            | _ => true))

/-- A unit that a plate may name: present and powered (condition 3 of R82). -/
def State.plateUnitOk (s : State) (k : Nat) : Bool :=
  let i := k % 65536
  let site (n : Nat) : Bool := n < s.fuse.cdSites && (s.dieOn n).isSome && !(s.irq.saved.find n).isSome
  match k / 65536 with
  | 0 => i < 2244 && site (i / 34) && (posOfPhys i != 16 || s.rd fltB KFLT_SMAP.sbound (pregOfPhys i) == 1)
  | 1 => i < 528 && site (i / 8)
  | 2 => i < 132 && site (i / 2)
  | 3 => i < s.fuse.tines
  | 4 => i < 20 && (s.beamOf i).isSome
  | 5 => i < 2 * s.fuse.slices
  | 6 => i < s.fuse.edgePorts
  | _ => false

/-- A port that a plate may name: one the unit has, not dead, not of an unbound spare station, not that of a sleeping
or spare site (R30, R32, R403). -/
def State.platePortOk (s : State) (k port : Nat) : Bool :=
  port < platePorts (k / 65536) &&
  match s.plateUnit k with
  | none => false
  | some u =>
    !(isRouter u && s.portDead u port) &&
    !(isRR u && port == 4 && s.rd fltB KFLT_SMAP.sbound (u - 0x240) == 0) &&
    (if isTine u ∧ port ≤ 16 then
      (match s.peer u port with | some (r, _) => s.plateUnitOk (s.plateKey r) | none => false) else true)

/-- The checks of R82 on one section, but for the inputs and paths: conditions 3 to 5, 8 to 10. -/
def State.sectionOk (s : State) (p : Plate) (k : Nat) (x : Section) : Bool :=
  let ty := k / 65536
  s.plateUnitOk k &&
  x.runs.all (fun r =>
    s.platePortOk k r.port && 1 ≤ r.length && r.start + r.length ≤ 64 * p.blocks
    && r.lanes.all (fun l => l < plateLanes ty r.port)
    && (p.lanes.getD r.lane ⟨0, false, false⟩).valid
    && (!(ty == 6 && (r.port == 1 || r.acts.any (fun a => actKind a == 1 && actPort a == 1))) || (p.lanes.getD r.lane ⟨0, false, false⟩).leaves)
    && r.acts.all (fun a => match actKind a with
      | 4 => ty == 0
      | 5 => ty == 0
      | 2 => (ty == 2 || ty == 3 || ty == 4) && actComb a < x.combs.length
      | 1 => s.platePortOk k (actPort a) && actLane a < plateLanes ty (actPort a)
      | _ => true)
    && (List.range 4).all (fun l =>
      let a := r.acts.getD l 0
      if actKind a = 2 then
        match x.combs[actComb a]? with
        | some c => !c.widen || (let m := if l % 2 = 0 then l + 1 else l - 1; r.acts.getD m 0 == a)
        | none => false
      else true))
  && disjointRuns x.runs && sortedRuns x.runs
  && x.combs.all (fun c => (c.ins.take c.nIn).all (fun b => s.platePortOk k (bits b 0 6) && bits b 6 2 < plateLanes ty (bits b 0 6)))
  && x.laneMask == x.runs.foldl (fun m r => setBit m r.lane true) 0

/-- Cell lanes that the combines named in a slot of a section occupy (R209). -/
def Section.combLanes (x : Section) (slot : Nat) : Nat :=
  let named := (x.runs.filter (fun r => r.covers slot)).flatMap (fun r => (r.acts.filter (fun a => actKind a == 2)).map actComb)
  named.eraseDups.foldl (fun n j => n + (match x.combs[j]? with | some c => (if c.widen then 2 else 1) | none => 0)) 0

/-- The capacities of R83. -/
def Section.fits (x : Section) : Bool :=
  x.combs.length ≤ 512 && (List.range 42).all (fun p => (x.runs.filter (fun r => r.port == p)).length ≤ 2048)

/-- Read a plate image (R74 to R81): none when condition 1 of R82 fails. -/
def readImage (okType : Nat → Nat → Bool → Bool) (b : List Byte) (addr len : Nat) : Option Plate :=
  let nsec := le b 14 2
  let blocks := bits (le b 6 2) 0 7
  let dirs := (cut16 nsec (b.drop 192)).map parseDir
  let ok := b.length == len && 192 ≤ len && le b 0 4 == 0x54504C4B && le b 4 2 == 3 && 1 ≤ blocks && blocks ≤ 64
    && bits (le b 6 2) 7 9 == 0 && le b 8 2 ≤ 64 * blocks && 1 ≤ nsec && nsec ≤ 4096 && le b 16 4 == len
    && len % 16 == 0 && len ≤ 64 * 2 ^ 20 && bits (le b 20 4) 20 12 == 0 && le b 24 4 == 0 && le b 32 32 == 0
    && crc32 (patch b 28 [0, 0, 0, 0]) == le b 28 4 && 192 + 16 * nsec ≤ len
    && (List.range 16).all (fun i => bits (le b (64 + 8 * i) 2) 12 3 == 0 && bits (le b (66 + 8 * i) 1) 1 7 == 0
      && le b (67 + 8 * i) 5 == 0)
    && dirs.all (fun d => d.clean && d.unit / 65536 ≤ 6 && d.nComb ≤ 512 && d.offset % 16 == 0
      && 192 + 16 * nsec ≤ d.offset && d.offset + 16 * (d.nRun + d.nComb) ≤ len
      && (d.nComb == 0 || d.unit / 65536 == 2 || d.unit / 65536 == 3 || d.unit / 65536 == 4)
      && (cut16 d.nRun (b.drop d.offset)).all (runClean (d.unit / 65536))
      && (cut16 d.nComb (b.drop (d.offset + 16 * d.nRun))).all (combClean okType))
    && (dirs.map (fun d => d.unit)).Nodup
  if !ok then none else some {
    blocks := blocks
    slack := le b 8 2
    id := le b 10 2
    placeId := le b 12 2
    beamMask := bits (le b 20 4) 0 20
    lanes := (List.range 16).map (fun i => { ctx := bits (le b (64 + 8 * i) 2) 0 12, valid := bit (le b (64 + 8 * i) 2) 15,
                                             leaves := bit (le b (66 + 8 * i) 1) 0 })
    secs := dirs.foldl (fun t d => t.put d.unit {
      runs := (cut16 d.nRun (b.drop d.offset)).map parseRun
      combs := (cut16 d.nComb (b.drop (d.offset + 16 * d.nRun))).map parseComb
      laneMask := d.mask }) []
    addr := addr
    length := len
    crc := le b 28 4 }

/-- Conditions 2 to 10 of R82 and the capacities of R83 on a plate that was read. -/
def State.plateOk (s : State) (p : Plate) : Bool :=
  p.placeId == s.rd hrdB KPLT_PLACE.place_id
  && (List.range 20).all (fun k => !bit p.beamMask k || (s.beamOf k).isSome)
  && p.secs.all (fun e => s.sectionOk p e.1 e.2 && e.2.fits && s.inputsDriven p e.1 e.2
      && e.2.runs.all (fun r => e.2.combLanes r.start ≤ 4))
  && p.secs.all (fun e => e.2.runs.all (fun r => (List.range r.length).all (fun i => (List.range 4).all (fun l =>
      let a := r.acts.getD l 0
      let starts := actKind a == 4 || (e.1 / 65536 == 0 && actKind a == 1) || (5 ≤ e.1 / 65536 && r.port == 0 && actKind a == 1)
      !starts || s.paths p 34 e.1 r.port l (r.start + i) false (5 ≤ e.1 / 65536) true false))))

/-! ### The period -/

/-- Plate lane bookkeeping (KPLT_LANES). -/
def State.laneRetired (s : State) (l : Nat) : Bool := bit (s.rd hrdB KPLT_LANES.lane_retired) l

/-- Reverse the six bits of a slot position (R71). -/
def bitrev6 (j : Nat) : Nat := (List.range 6).foldl (fun r i => 2 * r + (if bit j i then 1 else 0)) 0

/-- The coming slot is slot 0 of a new period. -/
def State.atBoundary (s : State) : Bool := s.plateTime == s.plt.p0 + s.plt.curN

/-- Index of the coming slot in its period. -/
def State.slotIdx (s : State) : Nat := if s.atBoundary then 0 else s.plateTime - s.plt.p0

/-- The pause pattern's value for the coming slot: the next period's at a boundary (R71, R72). -/
def State.qComing (s : State) : Nat :=
  if s.atBoundary then s.plt.qNext.getD (s.rd hrdB KPLT_PAUSE.q_now) else s.rd hrdB KPLT_PAUSE.q_now

/-- The current fc is a paused fc (R71). -/
def State.isPaused (s : State) : Bool := bitrev6 (s.slotIdx % 64) < s.qComing && !s.plt.paused

/-- The plate that runs: none before lock, after a halt or an abort, or in FUNC_REINIT. -/
def State.running (s : State) : Option Plate := if s.rd hrdB KPLT_STATUS.active_valid = 1 then s.plt.active else none

/-- A retired lane has drained: its cell lanes are unreserved and lent (R90). -/
def State.laneLent (s : State) (l : Nat) : Bool := s.laneRetired l && (s.plt.laneDrain.find l).isNone

/-- Run entries of a unit that cover a slot, with lanes retired and drained left out (R90). -/
def State.entriesAt (s : State) (p : Plate) (u slot : Nat) : List RunEnt :=
  match p.secs.find (s.plateKey u) with
  | none => []
  | some x => x.runs.filter (fun r => r.covers slot && !s.laneLent r.lane)

/-- The plate reserves a lane of an output port in a slot (R43). -/
def State.reserved (s : State) (u port lane slot : Nat) : Bool :=
  match s.running with
  | none => false
  | some p => (s.entriesAt p u slot).any (fun r => r.port == port && r.lanes.contains lane)

/-- The lend duty opens a slot position for DAT (R472). -/
def State.dutyOpen (s : State) : Bool := bitrev6 (s.slotIdx % 64) < s.plt.duty

/-- The lanes of a port that DAT may use in the current slot, in ascending order (R43, R123). -/
def State.freeLanes (s : State) (u port : Nat) : List Nat :=
  if s.isPaused || !s.dutyOpen then [] else
  (List.range (lanesOf u port)).filter (fun l => !s.reserved u port l s.slotIdx)

/-- The input lane is named by the plate of its unit for a cell that arrives in a slot: a FWD or DLV in that slot, or a
combine of the slot after (R80, R124). -/
def State.inputNamed (s : State) (u port lane slot : Nat) : Bool :=
  match s.running with
  | none => false
  | some p =>
    let n := 64 * p.blocks
    (s.entriesAt p u slot).any (fun r => r.acts.any (fun a =>
      (actKind a == 1 && actPort a == port && actLane a == lane) || (actKind a == 5 && port == 0 && lane == 0)))
    || (match p.secs.find (s.plateKey u) with
      | none => false
      | some x => (s.entriesAt p u ((slot + 1) % n)).any (fun r => r.acts.any (fun a =>
          actKind a == 2 && (match x.combs[actComb a]? with
            | some c => (c.ins.take c.nIn).any (fun b => bits b 0 6 == port && bits b 6 2 == lane)
            | none => false))))

/-- A plate lane's entry in a plate, if it is used. -/
def Plate.laneOf (p : Plate) (l : Nat) : Option LaneEnt :=
  match p.lanes[l]? with
  | some e => if e.valid then some e else none
  | none => none

end Sys2Proof.Machine
end

