-- ==== Sys2Proof/Machine/Station.lean ====
section
/-! DEFINITION. The station's queues and rings: descriptors, completion records, messages, credits, sends, dispatch
(chapter 5). The commands of this family and the operations they share. -/

namespace Sys2Proof.Machine

/-! ### Windows (R289) -/

/-- Access of a context to `n` bytes at `a`: it lies wholly inside one valid entry of the context, of the right kind,
that grants the permissions needed (R289). Global addresses are compared in their global form. -/
def State.winOk (s : State) (st ctx : Nat) (sram : Bool) (a n : Nat) (r w_ at_ : Bool) : Bool :=
  let b := stnB st
  let form (x : Nat) : Nat := if sram then x else s.globalForm x
  let a := form a
  ctx != 0 && (List.range 16).any (fun i =>
    s.rd b KSTN_WIN_CFG.wvalid i == 1 && !s.entryBad (.window (0x1000 + st) i) && s.objCtx 6 st i == ctx
    && s.rd b KSTN_WIN_CFG.wsram i == (if sram then 1 else 0)
    && form (s.rd2 b KSTN_WIN_BASE_LO.wbase_lo KSTN_WIN_BASE_HI.wbase_hi i) ≤ a
    && a + n ≤ form (s.rd2 b KSTN_WIN_LIM_LO.wlim_lo KSTN_WIN_LIM_HI.wlim_hi i) + 4096
    && (!r || s.rd b KSTN_WIN_CFG.wr i == 1) && (!w_ || s.rd b KSTN_WIN_CFG.ww i == 1)
    && (!at_ || s.rd b KSTN_WIN_CFG.wa i == 1))

/-! ### Descriptors and completion records (R184 to R188) -/

def logKey (st e : Nat) : Nat := st * 512 + e
def State.logAt (s : State) (st e : Nat) : Option LogEnt := s.sta.log.find (logKey st e)
def State.jobAt (s : State) (st e : Nat) : Option Job := s.sta.job.find (logKey st e)
def W.setJob (w : W) (st e : Nat) (j : Job) : W := { w with sta.job := w.sta.job.put (logKey st e) j }
def W.setLog (w : W) (st e : Nat) (l : LogEnt) : W := { w with sta.log := w.sta.log.put (logKey st e) l }

/-- The bytes of a completion record (R187). -/
def cqRecord (status kind dq phase dseq user stamp detail : Nat) : List Byte :=
  toLE 1 status ++ toLE 1 kind ++ toLE 1 (dq + 128 * phase) ++ [0] ++ toLE 4 dseq ++ toLE 8 user ++ toLE 8 stamp
    ++ toLE 4 detail ++ [0, 0, 0, 0]

/-- Lines of a message body (chapter 5, Messages). -/
def msgLines (blen : Nat) : Nat := (16 + blen + 63) / 64

/-- `detail` of a SEND that sent nothing (R187): the channel's next `mseq` and the line count of its body. -/
def State.sendDetail (s : State) (st : Nat) (d : List Byte) : Nat :=
  s.rd (stnB st) KSTN_CH_REFUSE.mseq (le d 32 1) + 256 * (msgLines (bits (le d 34 2) 0 13) % 128)

/-- A completion queue is left disabled and empty. -/
def W.cqClear (w : W) (st i : Nat) : W :=
  let b := stnB st
  let w := ((w.wr b KSTN_CQ_CFG.enable 0 i).wr b KSTN_CQ_HEAD.cq_head 0 i).wr b KSTN_CQ_TAIL.cq_tail 0 i
  { (w.wr b KSTN_CQ_TAIL.cq_phase 1 i).wr b KSTN_CQ_TAIL.cq_rsvd 0 i with sta.cqFull := w.sta.cqFull.del (st * 8 + i) }

/-- Complete a descriptor (R187, R188): its record goes to the tail of its queue's completion queue, its reserved entry
and its log entry are freed, and with `cirq` the bank source of the completion queue takes one event. -/
def W.complete (w : W) (st e status : Nat) (detail : Nat := 0) : W :=
  match w.logAt st e with
  | none => w
  | some l =>
    let b := stnB st
    let q := l.dq
    let cq := w.rd b KSTN_DQ_CFG.dq_cq q
    let t := w.rd b KSTN_CQ_TAIL.cq_tail cq
    let ph := w.rd b KSTN_CQ_TAIL.cq_phase cq
    let n := w.rd b KSTN_CQ_CFG.cq_entries cq
    let kind := le l.desc 0 1
    let detail := if kind = 2 ∧ status ≠ OK then w.sendDetail st l.desc else detail
    let rec_ := cqRecord status kind q ph l.dseq (le l.desc 8 8) w.herdTime detail
    let w := w.sramWrite st (w.rd b KSTN_CQ_BASE.cq_base cq * 32 + 32 * t) rec_
    let wrap := n ≤ t + 1
    let w := w.wr b KSTN_CQ_TAIL.cq_tail (if wrap then 0 else t + 1) cq
    let w := { w with sta.cqFull := Tbl.set false w.sta.cqFull (st * 8 + cq)
                                      (decide ((if wrap then 0 else t + 1) = w.rd b KSTN_CQ_HEAD.cq_head cq)) }
    let w := if wrap then w.wr b KSTN_CQ_TAIL.cq_phase (1 - ph) cq else w
    let w := (w.dec b KSTN_CQ_TAIL.cq_rsvd 1 cq).dec b KSTN_DQ_HEAD.inflight 1 q
    let w := w.dec b KSTN_LOG_STAT.log_used
    let w := { w with sta.log := w.sta.log.del (logKey st e), sta.job := w.sta.job.del (logKey st e) }
    let w := w.ev (uSt st) 0x02 1 l.lctx
    if bit (le l.desc 1 1) 0 then w.irqB st cq else w

/-- Records in a completion queue that the consumer has not freed. -/
def State.cqUsed (s : State) (st cq : Nat) : Nat :=
  let b := stnB st
  let n := s.rd b KSTN_CQ_CFG.cq_entries cq
  if Tbl.get false s.sta.cqFull (st * 8 + cq) then n
  else (s.rd b KSTN_CQ_TAIL.cq_tail cq + n - s.rd b KSTN_CQ_HEAD.cq_head cq % n) % n

/-- The station can fetch from descriptor queue `q` (R184): enabled, not empty, a completion entry not reserved, and a
free log entry; a context held by a replay search is not fetched for (R428). -/
def State.canFetch (s : State) (st q : Nat) : Bool :=
  let b := stnB st
  let cq := s.rd b KSTN_DQ_CFG.dq_cq q
  s.rd b KSTN_DQ_CFG.enable q == 1 && s.rd b KSTN_DQ_HEAD.dq_head q != s.rdOld b KSTN_DQ_TAIL.dq_tail q
    && s.rd b KSTN_CQ_CFG.enable cq == 1
    && s.cqUsed st cq + s.rd b KSTN_CQ_TAIL.cq_rsvd cq < s.rd b KSTN_CQ_CFG.cq_entries cq
    && s.rd b KSTN_LOG_STAT.log_used < 512 && !s.fencedAll st && !s.cx.hold.contains (s.objCtx 0 st q)

/-- The next queue in round-robin order that can fetch (R184). -/
def State.nextDq (s : State) (st : Nat) : Option Nat :=
  let last := Tbl.get 7 s.sta.lastDq st
  ((List.range 8).map (fun i => (last + 1 + i) % 8)).find? (s.canFetch st)

/-- DESCRIPTOR_FETCH (R184, R188): the descriptor at the head of the next ready queue is copied into a free log entry,
before any effect of it, and one completion entry and one log entry are reserved. -/
def effDescriptorFetch (st : Nat) (w : W) : W :=
  match w.nextDq st with
  | none => w
  | some q =>
    let b := stnB st
    let h := w.rd b KSTN_DQ_HEAD.dq_head q
    let n := w.rd b KSTN_DQ_CFG.entries q
    let d := w.sramRead st (w.rd b KSTN_DQ_BASE.dq_base q * 64 + 64 * h) 64
    let e := ((w.sta.log.freeFrom 512 (logKey st 0)).getD (logKey st 0)) - logKey st 0
    let dseq := Tbl.get 0 w.sta.dseq (st * 8 + q)
    let w := w.setLog st e { desc := d, dq := q, lstate := 1, lctx := w.objCtx 0 st q, dseq := dseq, astamp := w.herdTime,
                             bad := w.sramPois st (w.rd b KSTN_DQ_BASE.dq_base q * 64 + 64 * h) }
    -- a FENCE waits for the writes issued before this fc (R307)
    let w := if le d 0 1 = 5 then w.setJob st e { a := 2 ^ 20 + Tbl.get 0 w.sta.postSeq st, done := w.fc } else w
    let w := { w with sta.dseq := Tbl.set 0 w.sta.dseq (st * 8 + q) ((dseq + 1) % 2 ^ 32),
                      sta.lastDq := w.sta.lastDq.put st q }
    let w := w.wr b KSTN_DQ_HEAD.dq_head (if n ≤ h + 1 then 0 else h + 1) q
    let w := (w.inc b KSTN_DQ_HEAD.inflight 1 q).inc b KSTN_CQ_TAIL.cq_rsvd 1 (w.rd b KSTN_DQ_CFG.dq_cq q)
    let w := w.inc b KSTN_LOG_STAT.log_used
    (w.high b KSTN_LOG_STAT.log_high (w.rd b KSTN_LOG_STAT.log_used)).ev (uSt st) 0x01 1 (w.objCtx 0 st q)

/-- Log entries of a queue that were fetched before sequence number `d` and are not complete. -/
def State.earlier (s : State) (st q d : Nat) : List LogEnt :=
  (s.sta.log.filter (fun e => e.1 / 512 == st)).map (fun e => e.2)
    |>.filter (fun l => l.dq == q && notEarlier d l.dseq 32 && l.dseq != d)

/-- Reserved bits of a descriptor's head are not zero (R185). -/
def headBad (d : List Byte) : Bool := bits (le d 1 1) 2 6 != 0 || le d 2 6 != 0 || le d 16 16 != 0

/-- A waiting descriptor may start (R185, R186): every earlier one of its queue has started, and, with `ordered`, has
completed. -/
def State.mayStart (s : State) (st e kind : Nat) : Option LogEnt :=
  match s.logAt st e with
  | none => none
  | some l =>
    let before := s.earlier st l.dq l.dseq
    if l.lstate = 1 ∧ !l.bad ∧ !headBad l.desc ∧ le l.desc 0 1 = kind ∧ before.all (fun x => x.lstate == 2)
      ∧ (!bit (le l.desc 1 1) 1 || before == []) then some l else none

/-- Mark a descriptor started (R188). -/
def W.started (w : W) (st e : Nat) : W :=
  match w.logAt st e with
  | none => w
  | some l => w.setLog st e { l with lstate := 2 }

/-- The kinds that the table of R185 leaves reserved. -/
def kindReserved (k : Nat) : Bool := k = 0 || 9 < k

/-- NOP_DESCRIPTOR (R185, R186): a NOP completes OK once started. A descriptor of a reserved kind, or with reserved head
bits set, completes BADOP; one that was read poisoned completes POISON; in a fenced context FENCED (R404, R420). -/
def effNopDescriptor (st e : Nat) (w : W) : W :=
  match w.logAt st e with
  | none => w
  | some l =>
    let k := le l.desc 0 1
    let own := k = 9 || kindReserved k || headBad l.desc || l.bad
    let before := w.earlier st l.dq l.dseq
    if l.lstate = 1 ∧ own ∧ before.all (fun x => x.lstate == 2) ∧ (!bit (le l.desc 1 1) 1 || before == []) then
      (w.started st e).complete st e
        (firstOf [(kindReserved k || headBad l.desc, BADOP), (w.ctxFencedAt st l.lctx, FENCED), (l.bad, POISON)])
    else w

/-! ### Messages (R189 to R198) -/

/-- The 16 B message header (R189), without `astamp`. -/
def msgHead (kind lines blen src schan mseq pkg : Nat) : List Byte :=
  toLE 1 kind ++ toLE 1 lines ++ toLE 2 blen ++ toLE 2 src ++ toLE 1 schan ++ toLE 1 mseq ++ toLE 4 pkg ++ [0, 0, 0, 0]

/-- The ring address configured in a channel. -/
def State.raddr (s : State) (st c : Nat) : Nat :=
  s.rd2 (stnB st) KSTN_CH_RADDR_LO.raddr_lo KSTN_CH_RADDR_HI.raddr_hi c

/-- The ring's base address (R192). -/
def State.rbase (s : State) (st r : Nat) : Nat :=
  s.rd2 (stnB st) KSTN_RING_BASE.rbase_lo KSTN_RING_BASE_HI.rbase_hi r

def chKey (st c : Nat) : Nat := st * 256 + c
def slotKey (st r i : Nat) : Nat := (st * 256 + r) * 16 + i

/-- A message packet of a channel (R190): header and body as payload. -/
def W.msgPacket (w : W) (st c op : Nat) (payload : List Byte) (pois : Nat) : Packet :=
  let b := stnB st
  let remote := w.rd b KSTN_CH_CFG.remote c = 1
  let addr := w.raddr st c
  let dst := if remote then 0x840 + w.edgePort (w.rd b KSTN_CH_PKG.dst_pkg c) (bits addr 8 14)
    else w.rd b KSTN_CH_CFG.dst c
  { vc := if payload.length ≤ 32 then 2 else 7
    herdMode := w.rd b KSTN_CH_CFG.herd_mode c == 1 && !remote
    op := op
    dst := dst
    src := w.epOf (uSt st)
    ctx := w.objCtx 2 st c
    tag := c + 256 * w.rd b KSTN_CH_REFUSE.mseq c
    len := payload.length
    addr := addr
    aux := w.rd b KSTN_CH_CFG.dring c
    data := payload
    pois := pois }

/-- Poison of a message payload whose body lines have poison `m`: a body line overlaps two payload chunks. -/
def shiftPois (m : Nat) : Nat := m ||| (m * 2)

/-- The least of the members' counts, 0 until all are known (R204); for a unicast channel its own count. `members` is kept
as written, and with 0 of them the count is 65535 (DESIGN CHOICE, log). -/
def State.chNow (s : State) (st c : Nat) : Nat :=
  let b := stnB st
  if s.rd b KSTN_CH_CFG.herd_mode c = 1 then
    let l := (s.sta.members.find (chKey st c)).getD []
    if l.length < s.rd b KSTN_CH_PKG.members c then 0
    else l.foldl (fun m x => min m x.2) 65535
  else s.rd b KSTN_CH_CRED.credit c

/-- The credit that a send decided in this fc sees: what arrived in this fc does not count yet (R193). -/
def State.chCredit (s : State) (st c : Nat) : Nat :=
  match s.sta.fresh.find (chKey st c) with
  | some n => n
  | none => s.chNow st c

/-- Credit arrives: sends of this fc still see what stood before it (R193). -/
def W.keepCredit (w : W) (st c : Nat) : W :=
  { w with sta.fresh := w.sta.fresh.put (chKey st c) (w.chCredit st c) }

/-- Take `m` lines from a channel's credit (R193, R204). -/
def W.takeCredit (w : W) (st c m : Nat) : W :=
  let w := match w.sta.fresh.find (chKey st c) with
    | some n => { w with sta.fresh := w.sta.fresh.put (chKey st c) (n - m) }
    | none => w
  let l := (w.sta.members.find (chKey st c)).getD []
  let w := if w.rd (stnB st) KSTN_CH_CFG.herd_mode c = 1 then
    { w with sta.members := w.sta.members.put (chKey st c) (l.map (fun x => (x.1, x.2 - m))) } else w
  w.dec (stnB st) KSTN_CH_CRED.credit m c

/-- Send a message of a channel (R190, R193): credit is taken, the body is read from SRAM, the count advances. -/
def W.sendMsg (w : W) (st c addr blen : Nat) : W :=
  let b := stnB st
  let m := msgLines blen
  let seq := w.rd b KSTN_CH_REFUSE.mseq c
  let head := msgHead 1 m blen (w.epOf (uSt st)) c seq w.pkgNum
  let p := w.msgPacket st c 0x20 (head ++ w.sramRead st addr blen) (shiftPois (w.sramPoisMask st addr blen))
  let w := (w.takeCredit st c m).inject (uSt st) p
  let w := (w.wr b KSTN_CH_REFUSE.mseq ((seq + 1) % 256) c).inc b KSTN_CH_MSGS.msgs_sent 1 c
  let w := w.ev (uSt st) 0x03 1 (w.objCtx 2 st c)
  { w with sta.stallT := w.sta.stallT.del (chKey st c) }

/-- A unicast channel names a reserved endpoint of this package (R21). -/
def State.chReserved (s : State) (st c : Nat) : Bool :=
  s.rd (stnB st) KSTN_CH_CFG.herd_mode c == 0 && s.rd (stnB st) KSTN_CH_CFG.remote c == 0
    && 0x882 ≤ s.rd (stnB st) KSTN_CH_CFG.dst c

/-- The checks of a send that do not concern credit (R201): BADOP, DENIED, FENCED, else OK. -/
def State.sendCheck (s : State) (st c addr blen ctx : Nat) : Nat :=
  let b := stnB st
  firstOf [
    (4080 < blen || addr % 64 != 0 || s.rd b KSTN_CH_CFG.max_lines c < msgLines blen || s.chReserved st c, BADOP),
    (!s.owns 2 st c ctx || (0 < blen && !s.winOk st ctx true addr blen true false false)
      || s.rd b KSTN_CH_CFG.enable c == 0, DENIED),
    (s.ctxFencedAt st ctx || s.fencedAll st, FENCED)]

/-- An access is refused DENIED, the check of R289 having failed: it counts (R313, R361). -/
def W.winDenied (w : W) (st : Nat) (refused : Bool) : W :=
  if refused then (w.inc (stnB st) KSTN_MEM_EVT.win_denied).irqB st 16 else w

/-- A send refused for its address window counts. -/
def W.sendDenied (w : W) (st addr blen ctx chk : Nat) : W :=
  w.winDenied st (chk == DENIED && 0 < blen && !w.winOk st ctx true addr blen true false false)

/-- A channel first finds too little credit: its stall timer starts (R202). -/
def W.stall (w : W) (st c : Nat) : W :=
  if (w.sta.stallT.find (chKey st c)).isSome then w
  else { w with sta.stallT := w.sta.stallT.put (chKey st c) w.fc }

/-- The stall timer of a channel has reached its limit (R202). -/
def State.stallOver (s : State) (st c : Nat) : Bool :=
  match s.sta.stallT.find (chKey st c) with
  | none => false
  | some t => t + 2 ^ s.rd (stnB st) KSTN_CH_TL.send_tl_log2 c ≤ s.fc

/-- The station acknowledges a direct send (`kp_snd_ack`, `kp_snd_status`). -/
def W.sndAck (w : W) (st status : Nat) : W :=
  { w with sta.sndAck := w.sta.sndAck.put st status, sta.blocked := w.sta.blocked.del st }

/-- DIRECT_SEND (R201): decided by the first row of the table that holds. -/
def effDirectSend (st c addr blen ctx : Nat) (inHandler : Bool) (w : W) : W :=
  let w := { w with sta.inHandler := Tbl.set false w.sta.inHandler st inHandler }
  let b := stnB st
  let chk := w.sendCheck st c addr blen ctx
  if chk ≠ OK then (w.sendDenied st addr blen ctx chk).sndAck st chk
  else if msgLines blen ≤ w.chCredit st c then (w.sendMsg st c addr blen).sndAck st OK
  else if inHandler then ((w.inc b KSTN_CH_STALL.nocredit 1 c).stall st c).sndAck st NOCREDIT
  else if w.stallOver st c then { (w.sndAck st TIMEOUT).irqB st 10 with sta.stallT := w.sta.stallT.del (chKey st c) }
  else
    let w := (w.inc b KSTN_CH_STALL.stalls 1 c).stall st c
    let w := w.wr b KSTN_CH_CRED.blocked 1 c
    { w with sta.blocked := w.sta.blocked.put st { chan := c, addr := addr, blen := blen, ctx := ctx },
             sta.sndAck := w.sta.sndAck.del st }

/-- SEND_UNBLOCK (R201, R206): a blocked send is decided again: taken when credit has arrived, ended when its channel
was disabled or its context or station fenced. -/
def effSendUnblock (st : Nat) (w : W) : W :=
  match w.sta.blocked.find st with
  | none => w
  | some d =>
    let w' := w.wr (stnB st) KSTN_CH_CRED.blocked 0 d.chan
    let chk := w.sendCheck st d.chan d.addr d.blen d.ctx
    if chk ≠ OK then (w'.sendDenied st d.addr d.blen d.ctx chk).sndAck st chk
    else if msgLines d.blen ≤ w.chCredit st d.chan then (w'.sendMsg st d.chan d.addr d.blen).sndAck st OK
    else w

/-- SEND_WITHDRAW (R201): the core lowers `kp_snd_valid`; the send has not happened. -/
def effSendWithdraw (st : Nat) (w : W) : W :=
  match w.sta.blocked.find st with
  | none => w
  | some d => { (w.wr (stnB st) KSTN_CH_CRED.blocked 0 d.chan) with sta.blocked := w.sta.blocked.del st }

/-- Reserved bits of a SEND's body are not zero (R203). -/
def sendBad (d : List Byte) : Bool := bits (le d 33 1) 1 7 != 0 || bits (le d 34 2) 13 3 != 0 || le d 40 24 != 0

/-- SEND_DESCRIPTOR (R203): checked as a direct send; with too little credit it waits, counted once, or completes
NOCREDIT. -/
def effSendDescriptor (st e : Nat) (w : W) : W :=
  match w.mayStart st e 2 with
  | none => w
  | some l =>
    let c := le l.desc 32 1
    let blen := bits (le l.desc 34 2) 0 13
    let addr := le l.desc 36 4
    let chk := if sendBad l.desc then BADOP else w.sendCheck st c addr blen l.lctx
    let seq := w.rd (stnB st) KSTN_CH_REFUSE.mseq c
    if chk ≠ OK then ((w.sendDenied st addr blen l.lctx chk).started st e).complete st e chk
    else if msgLines blen ≤ w.chCredit st c then
      ((w.sendMsg st c addr blen).started st e).complete st e OK (seq + 256 * msgLines blen)
    else if bit (le l.desc 33 1) 0 then
      if w.stallOver st c then
        let w := { w with sta.stallT := w.sta.stallT.del (chKey st c) }
        ((w.started st e).complete st e TIMEOUT).irqB st 10
      else if (w.jobAt st e).isSome then w.stall st c
      else ((w.setJob st e {}).inc (stnB st) KSTN_CH_STALL.stalls 1 c).stall st c
    else (((w.inc (stnB st) KSTN_CH_STALL.nocredit 1 c).stall st c).started st e).complete st e NOCREDIT

/-- SEND descriptors that wait for credit of a channel (R203): checked once, and at the head of what may start. -/
def State.waitingSends (s : State) (st c : Nat) : List Nat :=
  (s.sta.log.filter (fun x => x.1 / 512 == st && le x.2.desc 32 1 == c && bit (le x.2.desc 33 1) 0
    && (s.jobAt st (x.1 % 512)).isSome && (s.mayStart st (x.1 % 512) 2).isSome)).map (fun x => x.1 % 512)

/-- SEND_STALL_TIMEOUT (R202): the stall timer of a channel has run out: a direct send presented on it ends TIMEOUT, and
so do the SENDs that wait on it; then the timer clears. With none of either it stands, for the next send. -/
def effSendStallTimeout (st c : Nat) (w : W) : W :=
  let l := w.waitingSends st c
  let direct := match w.sta.blocked.find st with
    | some d => d.chan == c
    | none => false
  if !w.stallOver st c ∨ (l = [] ∧ !direct) then w else
  let w := { w with sta.stallT := w.sta.stallT.del (chKey st c) }
  let w := if direct then ((w.wr (stnB st) KSTN_CH_CRED.blocked 0 c).sndAck st TIMEOUT).irqB st 10 else w
  w.each l (fun w e => ((w.started st e).complete st e TIMEOUT).irqB st 10)

/-! ### Rings -/

/-- A ring is enabled, and its configuration entry reads as valid (R192, R380). -/
def State.ringOn (s : State) (st r : Nat) : Bool :=
  s.rd (stnB st) KSTN_RING_CFG.enable r == 1 && !s.entryBad (.ring st r)

/-- The slot of a ring that names a sender (R192). -/
def State.slotOf (s : State) (st r pkg src chan : Nat) : Option Nat :=
  let b := stnB st
  (List.range 16).find? (fun i =>
    let k := r * 16 + i
    s.rd b KSTN_RING_SLOT0.s_valid k == 1 && s.rd b KSTN_RING_SLOT0.s_src k == src
    && s.rd b KSTN_RING_SLOT0.s_chan k == chan && s.rd b KSTN_RING_SLOT1.s_pkg k == pkg)

/-- Send one CREDIT for a slot (R190, R332): to the sender, or through the local EP with the edge extension. -/
def W.sendCredit (w : W) (st r _i lines : Nat) (resync : Bool) (toPkg toSrc toChan : Nat) : W :=
  let local_ := toPkg = w.pkgNum
  let p : Packet := { vc := 4, op := 0x21, src := w.epOf (uSt st), ctx := w.objCtx 3 st r,
                      tag := toChan + (if resync then 256 else 0), aux := lines }
  if local_ then w.inject (uSt st) { p with dst := toSrc }
  else w.inject (uSt st) { p with dst := 0x840 + w.edgePort toPkg 0, ext := fit 32 (toLE 4 toPkg ++ toLE 2 toSrc) }

/-- Send a slot's pending return, if there is one (R196). -/
def W.flushReturn (w : W) (st r i : Nat) : W :=
  let b := stnB st
  let k := r * 16 + i
  let n := w.rd b KSTN_RING_SLOT2.s_pend k
  if n = 0 then w else
  let w := w.sendCredit st r i n false (w.rd b KSTN_RING_SLOT1.s_pkg k) (w.rd b KSTN_RING_SLOT0.s_src k)
    (w.rd b KSTN_RING_SLOT0.s_chan k)
  { (w.wr b KSTN_RING_SLOT2.s_pend 0 k) with sta.pendT := w.sta.pendT.del (slotKey st r i) }

def State.msgsOf (s : State) (st r : Nat) : List Msg := (s.sta.msgs.find (chKey st r)).getD []
def W.setMsgs (w : W) (st r : Nat) (l : List Msg) : W :=
  let w := { w with sta.msgs := if l = [] then w.sta.msgs.del (chKey st r) else w.sta.msgs.put (chKey st r) l }
  w.wr (stnB st) KSTN_RING_PEND.pending ((l.filter (fun m => !m.taken)).length) r

/-- Put one line on its way through the delivery buffer to core SRAM (R117, R182). -/
def W.toPort (w : W) (st addr : Nat) (d : List Byte) (poison whole : Bool) (act : OnWrite) : W :=
  let l := (w.sta.dbuf.find st).getD []
  { w with sta.dbuf := w.sta.dbuf.put st (l ++ [{ addr := addr, data := d, poison := poison, whole := whole, act := act }]) }

/-- Write a ring's line block: to core SRAM through the write port, or, for an `in_mem` ring, with WRITE packets that
carry `ack` 1 and the ring's context, one for each 256 B granule touched, in line order (R195, R197). -/
def W.ringWrite (w : W) (st r line : Nat) (d : List Byte) (poison : Bool) (seq : Nat) (count : Bool) : W :=
  let b := stnB st
  let a := w.rbase st r + 64 * line
  if w.rd b KSTN_RING_CFG.in_mem r = 0 then
    let parts := splitLines (d.length + 1) a 0 d
    w.each parts (fun w p => w.toPort st p.1 p.2.1 poison true
      (if count && p.2.2 + 1 == parts.length then .message r seq else .nothing))
  else
    let rec go : Nat → Nat → List Byte → List (Nat × List Byte)
      | 0, _, _ => []
      | _ + 1, _, [] => []
      | f + 1, a, x :: xs => (a, (x :: xs).take (256 - a % 256)) :: go f (a + (256 - a % 256)) ((x :: xs).drop (256 - a % 256))
    w.each (go (d.length + 1) a d) (fun w p =>
      let pk : Packet := { vc := if p.2.length ≤ 32 then 1 else 6, ack := true, op := 1, ctx := w.objCtx 3 st r,
                           dst := 0x800 + portOf (loff p.1), addr := p.1, len := p.2.length, data := p.2 }
      w.request (uSt st) (if poison then pk.poisonAll else pk) (.ringWrite r (if count then seq else 0)))

/-- WRITE packets that a block of lines takes (R197). -/
def granules (a n : Nat) : Nat := (a + n - 1) / 256 - a / 256 + 1

/-- Place an accepted message (R195): a skip record first when it does not fit before the ring's end; the head of an empty
ring passes it at once, for it never rests on a skip record (R196). The fields of a skip
record that R189 does not set, and the bytes of a last line past the body, are 0 (DESIGN CHOICE, log). -/
def W.place (w : W) (st r : Nat) (head body : List Byte) (m : Nat) (poison : Bool) (slot : Nat) : W :=
  let b := stnB st
  let t := w.rd b KSTN_RING_PTR.tail r
  let n := w.rd b KSTN_RING_CFG.ring_lines r
  let skip := n < t + m
  let empty := w.rd b KSTN_RING_OCC.occ r = 0
  let inMem := w.rd b KSTN_RING_CFG.in_mem r = 1
  let seq := Tbl.get 0 w.sta.msgSeq (chKey st r) + 1
  let w := { w with sta.msgSeq := w.sta.msgSeq.put (chKey st r) seq }
  let w := if skip then
    let w := w.ringWrite st r t (fit 64 (msgHead 2 (n - t) 0 0 0 0 0)) false seq false
    let w := w.inc b KSTN_RING_PEND.skips 1 r
    if empty then w.wr b KSTN_RING_PTR.head 0 r
    else (w.inc b KSTN_RING_OCC.skip_held (n - t) r).inc b KSTN_RING_OCC.occ (n - t) r
    else w
  let t' := if skip then 0 else t
  let hd := patch (patch head 0 [BitVec.ofNat 8 (1 + (if poison then 4 else 0))]) 12 (toLE 4 w.herdTime)
  let w := w.ringWrite st r t' (fit (64 * m) (hd ++ body)) poison seq true
  let w := (w.wr b KSTN_RING_PTR.tail ((t' + m) % n) r).inc b KSTN_RING_OCC.occ m r
  let w := (w.inc b KSTN_RING_CNT.msgs_rcvd 1 r).ev (uSt st) 0x04 1 (w.objCtx 3 st r)
  let w := { w with sta.placed := Tbl.set 0 w.sta.placed (slotKey st r slot)
                                    (Tbl.get 0 w.sta.placed (slotKey st r slot) + m) }
  let nw := if inMem then granules (w.rbase st r + 64 * t') (64 * m) else 0
  let x : Msg := ⟨t', m, hd, skip, poison, false, false, nw, seq⟩
  w.setMsgs st r (w.msgsOf st r ++ [x])

/-- The address of a message names the ring (R190, R198): the ring's base itself, or, from another package, this
station's SRAM at that base in the endpoint window (R274). -/
def State.ringAddrOk (s : State) (st r addr : Nat) : Bool :=
  addr == s.rbase st r
    || (bit addr 63 && isEpWin addr && !bit addr 28 && bits addr 29 11 == (s.logi st).getD 0xFFF
        && bits addr 0 28 == s.rbase st r)

/-- Refuse a message (R198): nothing is written; the sender gets a CMP with the status and the lines refunded. -/
def W.refuseMsg (w : W) (st : Nat) (p : Packet) (m status : Nat) : W :=
  (w.cmp (uSt st) p status m).inc (stnB st) KSTN_RING_EVT.refused_in 1 (p.aux % 256)

/-- MESSAGE_RECEIVE (R195, R198): the station takes an arriving message and places or refuses it. -/
def effMessageReceive (st : Nat) (w : W) : W :=
  match w.takeAny (uSt st) (fun p => p.op == 0x20) with
  | none => w
  | some (p, w) =>
    let b := stnB st
    let r := p.aux % 256
    let m := hdLines p.data
    let slot := w.slotOf st r (hdPkg p.data) (hdSrc p.data) (hdChan p.data)
    let status := firstOf [
      (p.aux / 256 != 0 || w.rd b KSTN_RING_CFG.max_lines r < m || p.len != 16 + hdBlen p.data || m == 0, BADOP),
      (!w.ringOn st r || !w.ringAddrOk st r p.addr || !w.owns 3 st r p.ctx || slot.isNone, DENIED),
      (w.ctxFencedAt st p.ctx, FENCED)]
    if status ≠ OK then w.refuseMsg st p (msgLines (p.len - 16)) status
    else
      let w := w.place st r (p.data.take 16) (p.data.drop 16) m p.bad (slot.getD 0)
      if p.ack then w.cmp (uSt st) p OK else w

/-- Mark a message of a ring visible (R199). -/
def W.msgWritten (w : W) (st r seq : Nat) : W :=
  w.setMsgs st r ((w.msgsOf st r).map (fun m => if m.seq = seq then { m with written := true } else m))

/-- IN_MEM_MESSAGE_WRITTEN (R197): the last WRITE answer of a message has arrived: it counts as written. -/
def effInMemMessageWritten (st r : Nat) (w : W) : W :=
  match (w.msgsOf st r).find? (fun m => !m.written && m.writes == 0) with
  | some m => if w.rd (stnB st) KSTN_RING_CFG.in_mem r = 1 then w.msgWritten st r m.seq else w
  | none => w

/-- An answer to a WRITE of an `in_mem` ring (R197): other than OK, the message is dispatched with `poison` 1. -/
def W.ringWriteAns (w : W) (st r seq status : Nat) : W :=
  w.setMsgs st r ((w.msgsOf st r).map (fun m =>
    if m.seq = seq then { m with writes := m.writes - 1, poison := m.poison || status != OK } else m))

/-- The header that stands at a ring's head. -/
def W.headAt (w : W) (st r : Nat) : List Byte :=
  let h := w.rd (stnB st) KSTN_RING_PTR.head r
  if w.rd (stnB st) KSTN_RING_CFG.in_mem r = 0 then w.sramRead st (w.rbase st r + 64 * h) 16
  else match (w.msgsOf st r).head? with
    | some m => m.head
    | none => w.memRead (loff (w.rbase st r + 64 * h)) 16

/-- Pop the message whose header was read at the head (R196): none when the pop is refused. -/
def W.popOne (w : W) (st r : Nat) (hd : List Byte) : Option W :=
  let b := stnB st
  let n := w.rd b KSTN_RING_CFG.ring_lines r
  let m := hdLines hd
  let slot := w.slotOf st r (hdPkg hd) (hdSrc hd) (hdChan hd)
  let ok := w.rd b KSTN_RING_OCC.occ r != 0 && bits (le hd 0 1) 0 2 == 1 && 1 ≤ m
    && m ≤ w.rd b KSTN_RING_CFG.max_lines r
  match slot with
  | none => none
  | some i =>
    if !ok then none else
    let h := w.rd b KSTN_RING_PTR.head r
    let w := (w.wr b KSTN_RING_PTR.head ((h + m) % n) r).dec b KSTN_RING_OCC.occ m r
    let k := r * 16 + i
    let w := if w.rd b KSTN_RING_SLOT2.s_pend k = 0 then { w with sta.pendT := w.sta.pendT.put (slotKey st r i) w.fc } else w
    let w := w.inc b KSTN_RING_SLOT2.s_pend m k
    let w := { w with sta.placed := Tbl.set 0 w.sta.placed (slotKey st r i)
                                      (Tbl.get 0 w.sta.placed (slotKey st r i) - m) }
    let w := match w.sta.offer.find st, (w.msgsOf st r).head? with
      | some o, some x => if o.ring = r ∧ o.seq = x.seq then { w with sta.offer := w.sta.offer.del st } else w
      | _, _ => w
    let w := w.setMsgs st r ((w.msgsOf st r).drop 1)
    -- a skip record now at the head is passed at once
    let w := match (w.msgsOf st r).head? with
      | some x => if x.skipped ∧ x.line = 0 ∧ w.rd b KSTN_RING_PTR.head r ≠ 0 then
          let sk := n - w.rd b KSTN_RING_PTR.head r
          ((w.wr b KSTN_RING_PTR.head 0 r).dec b KSTN_RING_OCC.occ sk r).dec b KSTN_RING_OCC.skip_held sk r
        else w
      | none => w
    let due := w.rd b KSTN_RING_CFG.crd_thresh r ≤ w.rd b KSTN_RING_SLOT2.s_pend k && !w.ctxFencedAt st (w.objCtx 3 st r)
    some (if due then w.flushReturn st r i else w)

/-- A pop is refused (R196): what remains of its write of KSTN_RING_POP is dropped. -/
def W.popRefused (w : W) (st r : Nat) : W := (w.inc (stnB st) KSTN_RING_EVT.pop_fault 1 r).irqB st 11

/-- Pop `n` messages of a ring in core SRAM; a refused pop ends the write (R196). -/
def W.popMany (w : W) (st r : Nat) : Nat → W
  | 0 => w
  | n + 1 => match w.popOne st r (w.headAt st r) with
    | some w => w.popMany st r n
    | none => w.popRefused st r

/-- Start the next pop of an `in_mem` ring: a READ of 16 B at the head (R197). -/
def W.popRead (w : W) (st r : Nat) : W :=
  let a := w.rbase st r + 64 * w.rd (stnB st) KSTN_RING_PTR.head r
  w.request (uSt st) { vc := 1, op := 2, ctx := w.objCtx 3 st r, dst := 0x800 + portOf (loff a), addr := a, aux := 16 }
    (.ringPop r)

/-- Go on with the pops of an `in_mem` ring (R197): the counts of the writes not yet done. On an empty ring a write's
pops are refused. -/
def W.popNext (w : W) (st r : Nat) : List Nat → W
  | [] => { w with sta.pops := w.sta.pops.del (chKey st r) }
  | n :: rest =>
    if w.rd (stnB st) KSTN_RING_OCC.occ r = 0 then (w.popRefused st r).popNext st r rest
    else { w with sta.pops := w.sta.pops.put (chKey st r) (n :: rest) }.popRead st r

/-- Who may change an object of a station: Miomus, the host, and core software of the object's context (R179). -/
def State.mayUse (s : State) (who : Who) (kind st i : Nat) : Bool :=
  match who with
  | .host => true
  | .miomus => true
  | .core n c => n == st && s.owns kind st i c

/-- RING_POP (R196, R197): a write of `npop`, 1 to 64. -/
def effRingPop (st r n : Nat) (who : Who) (w : W) : W :=
  if n = 0 ∨ 64 < n ∨ !w.mayUse who 3 st r then w
  else if w.rd (stnB st) KSTN_RING_CFG.in_mem r = 0 then w.popMany st r n
  else match Tbl.get [] w.sta.pops (chKey st r) with
    | [] => w.popNext st r [n]
    | l => { w with sta.pops := w.sta.pops.put (chKey st r) (l ++ [n]) }

/-- IN_MEM_POP_DATA (R197): the READ of an `in_mem` pop was answered: the pop takes effect, and the next one starts. A
READ answered other than OK refuses the pop. -/
def effInMemPopData (st r : Nat) (w : W) : W :=
  let tagOf := w.net.req.find? (fun e => e.1 / 2 ^ 20 == uSt st && e.2.own == .ringPop r)
  match tagOf with
  | none => w
  | some (k, _) =>
    match w.takeAny (uSt st) (fun p => (p.op == 0x03 || p.op == 0x60) && p.ref == k % 2 ^ 20 && p.ans == 2) with
    | none => w
    | some (p, w) =>
      let w := w.delReq (uSt st) (k % 2 ^ 20)
      let l := Tbl.get [] w.sta.pops (chKey st r)
      if p.op ≠ 0x03 ∨ p.status ≠ OK then (w.popRefused st r).popNext st r (l.drop 1) else
      match w.popOne st r p.data with
      | none => (w.popRefused st r).popNext st r (l.drop 1)
      | some w => w.popNext st r (if l.headD 0 ≤ 1 then l.drop 1 else (l.headD 0 - 1) :: l.drop 1)

/-- CREDIT_RETURN_TIMER (R196): 512 fc after the first line of a pending return was added, it is sent. Returns of a
fenced context are held (R206). -/
def effCreditReturnTimer (st r i : Nat) (w : W) : W :=
  match w.sta.pendT.find (slotKey st r i) with
  | none => w
  | some t => if t + 512 ≤ w.fc ∧ !w.ctxFencedAt st (w.objCtx 3 st r) then w.flushReturn st r i else w

/-- The conditions on a ring's configuration (R192). -/
def State.ringCfgOk (s : State) (st r : Nat) : Bool :=
  let b := stnB st
  let n := s.rd b KSTN_RING_CFG.ring_lines r
  let m := s.rd b KSTN_RING_CFG.max_lines r
  let ctx := s.objCtx 3 st r
  let inMem := s.rd b KSTN_RING_CFG.in_mem r == 1
  let valid := (List.range 16).filter (fun i => s.rd b KSTN_RING_SLOT0.s_valid (r * 16 + i) == 1)
  2 ≤ n && n ≤ 16384 && 1 ≤ m && m ≤ 64 && 2 * m - 1 ≤ n
    && valid.all (fun i => 1 ≤ s.rd b KSTN_RING_SLOT2.s_share (r * 16 + i))
    && valid.foldl (fun t i => t + s.rd b KSTN_RING_SLOT2.s_share (r * 16 + i)) 0 ≤ n - (m - 1)
    && s.winOk st ctx (!inMem) (s.rbase st r) (64 * n) true true false
    && (!inMem || (s.addrPkg (s.rbase st r) == s.pkgNum && !isEpWin (s.rbase st r) && loff (s.rbase st r) + 64 * n ≤ s.memTop))

/-- RING_ENABLE (R192): when a condition fails the ring stays disabled and `cfg_reject` is set; else it is empty and
each valid slot is sent one CREDIT carrying its share. -/
def effRingEnable (st r : Nat) (who : Who) (w : W) : W :=
  let b := stnB st
  if !w.mayUse who 3 st r ∨ w.rd b KSTN_RING_CFG.enable r = 1 then w
  else if !w.ringCfgOk st r then (w.flag b KSTN_RING_CFG.cfg_reject 1 r).irqB st 12
  else
    let w := (w.wr b KSTN_RING_CFG.enable 1 r).wr b KSTN_RING_PTR.head 0 r
    let w := ((w.wr b KSTN_RING_PTR.tail 0 r).wr b KSTN_RING_OCC.occ 0 r).wr b KSTN_RING_OCC.skip_held 0 r
    let w := w.setMsgs st r []
    w.each (List.range 16) (fun w i =>
      let k := r * 16 + i
      let w := { w with sta.placed := w.sta.placed.del (slotKey st r i), sta.pendT := w.sta.pendT.del (slotKey st r i) }
      let w := w.wr b KSTN_RING_SLOT2.s_pend 0 k
      if w.rd b KSTN_RING_SLOT0.s_valid k = 1 then
        w.sendCredit st r i (w.rd b KSTN_RING_SLOT2.s_share k) false (w.rd b KSTN_RING_SLOT1.s_pkg k)
          (w.rd b KSTN_RING_SLOT0.s_src k) (w.rd b KSTN_RING_SLOT0.s_chan k)
      else w)

/-- A ring is left disabled and empty (R206): contents dropped, dispatches withdrawn, returns discarded. -/
def W.ringOff (w : W) (st r : Nat) : W :=
  let b := stnB st
  let w := w.wr b KSTN_RING_CFG.enable 0 r
  let w := ((w.wr b KSTN_RING_PTR.head 0 r).wr b KSTN_RING_PTR.tail 0 r).wr b KSTN_RING_OCC.occ 0 r
  let w := (w.wr b KSTN_RING_OCC.skip_held 0 r).setMsgs st r []
  let w := match w.sta.offer.find st with
    | some o => if o.ring = r then { w with sta.offer := w.sta.offer.del st } else w
    | none => w
  let w := { w with sta.pops := w.sta.pops.del (chKey st r) }
  w.each (List.range 16) (fun w i =>
    { (w.wr b KSTN_RING_SLOT2.s_pend 0 (r * 16 + i)) with
        sta.placed := w.sta.placed.del (slotKey st r i), sta.pendT := w.sta.pendT.del (slotKey st r i) })

/-- RING_DISABLE (R206). -/
def effRingDisable (st r : Nat) (who : Who) (w : W) : W :=
  if !w.mayUse who 3 st r ∨ w.rd (stnB st) KSTN_RING_CFG.enable r = 0 then w else w.ringOff st r

/-! ### Channels -/

/-- CHANNEL_ENABLE (R193, R194): credits are cleared and one CRESYNC is sent to the channel's ring or herd. -/
def effChannelEnable (st c : Nat) (who : Who) (w : W) : W :=
  let b := stnB st
  if !w.mayUse who 2 st c ∨ w.rd b KSTN_CH_CFG.enable c = 1 then w else
  let w := ((w.wr b KSTN_CH_CFG.enable 1 c).wr b KSTN_CH_CRED.credit 0 c).wr b KSTN_CH_TL.mc_known 0 c
  let w := { w with sta.members := w.sta.members.del (chKey st c), sta.resync := w.sta.resync.put (chKey st c) true,
                    sta.resynced := w.sta.resynced.del (chKey st c), sta.stallT := w.sta.stallT.del (chKey st c),
                    sta.fresh := w.sta.fresh.del (chKey st c) }
  let head := msgHead 1 0 0 (w.epOf (uSt st)) c (w.rd b KSTN_CH_REFUSE.mseq c) w.pkgNum
  let p := w.msgPacket st c 0x22 head 0
  w.inject (uSt st) { p with vc := 2 }

/-- A channel is left disabled (R206): blocked and waiting sends complete with `status`, counts are cleared. -/
def W.chanOff (w : W) (st c status : Nat) : W :=
  let b := stnB st
  let w := ((w.wr b KSTN_CH_CFG.enable 0 c).wr b KSTN_CH_CRED.credit 0 c).wr b KSTN_CH_TL.mc_known 0 c
  let w := { w with sta.members := w.sta.members.del (chKey st c), sta.resync := w.sta.resync.del (chKey st c),
                    sta.resynced := w.sta.resynced.del (chKey st c), sta.stallT := w.sta.stallT.del (chKey st c),
                    sta.fresh := w.sta.fresh.del (chKey st c) }
  let w := match w.sta.blocked.find st with
    | some d => if d.chan = c then (w.wr b KSTN_CH_CRED.blocked 0 c).sndAck st status else w
    | none => w
  w.each ((w.sta.log.filter (fun x => x.1 / 512 == st && x.2.lstate == 1 && le x.2.desc 0 1 == 2
      && le x.2.desc 32 1 == c)).map (fun x => x.1 % 512))
    (fun w e => match w.mayStart st e 2 with
      | some _ => (w.started st e).complete st e status
      | none => w)

/-- CHANNEL_DISABLE (R206): blocked or waiting sends complete DENIED. -/
def effChannelDisable (st c : Nat) (who : Who) (w : W) : W :=
  if !w.mayUse who 2 st c ∨ w.rd (stnB st) KSTN_CH_CFG.enable c = 0 then w else w.chanOff st c DENIED

/-- Credit lines arrive for a channel (R193, R204): they count, for sends, from the next fc. -/
def W.addCredit (w : W) (st c src lines : Nat) : W :=
  let b := stnB st
  let w := w.keepCredit st c
  if w.rd b KSTN_CH_CFG.herd_mode c = 1 then
    let l := (w.sta.members.find (chKey st c)).getD []
    if l.any (fun x => x.1 == src) then
      { w with sta.members := w.sta.members.put (chKey st c)
                                (l.map (fun x => if x.1 = src then (x.1, min 65535 (x.2 + lines)) else x)) }
    else if l.length < w.rd b KSTN_CH_PKG.members c then
      { (w.inc b KSTN_CH_TL.mc_known 1 c) with sta.members := w.sta.members.put (chKey st c) (l ++ [(src, lines)]) }
    else w.inc b KSTN_RING_EVT.crd_drop
  else w.inc b KSTN_CH_CRED.credit lines c

/-- CREDIT_RECEIVE (R193, R194, R204): before the answer to a CRESYNC every CREDIT without `resync` is discarded; a
CREDIT with `resync` sets the count. -/
def effCreditReceive (st : Nat) (w : W) : W :=
  match w.takeAny (uSt st) (fun p => p.op == 0x21) with
  | none => w
  | some (p, w) =>
    let b := stnB st
    let c := p.tag % 256
    let drop (w : W) : W := w.inc b KSTN_RING_EVT.crd_drop
    let wait := Tbl.get false w.sta.resync (chKey st c)
    let herd := w.rd b KSTN_CH_CFG.herd_mode c = 1
    if w.rd b KSTN_CH_CFG.enable c = 0 then drop w
    else if bit p.tag 8 then
      let w := w.keepCredit st c
      if !herd then { (w.wr b KSTN_CH_CRED.credit p.aux c) with sta.resync := w.sta.resync.del (chKey st c) }
      else
        let l := (w.sta.members.find (chKey st c)).getD []
        let done := (w.sta.resynced.find (chKey st c)).getD []
        let w := { w with sta.resynced := w.sta.resynced.put (chKey st c) (p.src :: done) }
        if l.any (fun x => x.1 == p.src) then
          { w with sta.members := w.sta.members.put (chKey st c) (l.map (fun x => if x.1 = p.src then (x.1, p.aux) else x)) }
        else w.addCredit st c p.src p.aux
    else if !herd ∧ wait then drop w
    else if herd ∧ !((w.sta.resynced.find (chKey st c)).getD []).contains p.src then drop w
    else w.addCredit st c p.src p.aux

/-- CRESYNC_RECEIVE (R194): answered with the slot's share less its lines placed and not popped, or with 0. -/
def effCresyncReceive (st : Nat) (w : W) : W :=
  match w.takeAny (uSt st) (fun p => p.op == 0x22) with
  | none => w
  | some (p, w) =>
    let b := stnB st
    let r := p.aux % 256
    let pkg := hdPkg p.data
    let src := hdSrc p.data
    let ch := hdChan p.data
    match w.slotOf st r pkg src ch with
    | some i =>
      if w.ringOn st r then
        let k := r * 16 + i
        let w := { (w.wr b KSTN_RING_SLOT2.s_pend 0 k) with sta.pendT := w.sta.pendT.del (slotKey st r i) }
        w.sendCredit st r i (w.rd b KSTN_RING_SLOT2.s_share k - Tbl.get 0 w.sta.placed (slotKey st r i)) true pkg src ch
      else (w.sendCredit st r 0 0 true pkg src ch).inc b KSTN_RING_EVT.refused_in 1 r
    | none => (w.sendCredit st r 0 0 true pkg src ch).inc b KSTN_RING_EVT.refused_in 1 r

/-- A refused message's CMP refunds its lines to the sending channel (R198). -/
def W.msgRefund (w : W) (st : Nat) (p : Packet) : W :=
  let b := stnB st
  let c := p.tag % 256
  let w := (w.inc b KSTN_CH_REFUSE.refused 1 c).wr b KSTN_CH_REFUSE.last_refuse p.status c
  let w := if w.rd b KSTN_CH_CFG.enable c = 1 then w.addCredit st c p.src p.aux else w
  w.irqB st 9

/-! ### Dispatch (R199, R200) -/

/-- The bytes of a dispatch record (R200). -/
def dispRecord (r cls : Nat) (m : Msg) : List Byte :=
  toLE 1 r ++ toLE 1 (cls + (if m.poison then 4 else 0) + (if m.skipped then 8 else 0)) ++ toLE 2 m.line
    ++ toLE 1 m.lines ++ [0] ++ toLE 2 (hdBlen m.head) ++ toLE 2 (hdSrc m.head) ++ toLE 1 (hdChan m.head)
    ++ (m.head.drop 7).take 1 ++ toLE 4 (hdPkg m.head)

/-- The first message of a ring not yet taken, when it is visible (R199). -/
def State.dispMsg (s : State) (st r : Nat) : Option Msg :=
  if s.rd (stnB st) KSTN_RING_CFG.hdisp r = 0 ∨ !s.ringOn st r then none else
  match (s.msgsOf st r).find? (fun m => !m.taken) with
  | some m => if m.written then some m else none
  | none => none

/-- DISPATCH_OFFER (R199): among rings with messages waiting, the highest class first, round-robin within a class. -/
def effDispatchOffer (st : Nat) (w : W) : W :=
  if (w.sta.offer.find st).isSome ∨ w.fencedAll st then w else
  let rings := (List.range 256).filter (fun r => (w.dispMsg st r).isSome)
  let cls (r : Nat) : Nat := w.rd (stnB st) KSTN_RING_CFG.cls r
  let top := rings.foldl (fun m r => max m (cls r)) 0
  let last := Tbl.get 255 w.sta.lastRing (st * 4 + top)
  let order := (List.range 256).map (fun i => (last + 1 + i) % 256)
  match order.find? (fun r => rings.contains r && cls r == top) with
  | none => w
  | some r =>
    match w.dispMsg st r with
    | none => w
    | some m => { w with sta.offer := w.sta.offer.put st { ring := r, seq := m.seq, bytes := dispRecord r top m } }

/-- DISPATCH_TAKE (R199, R200): the core takes the record on offer. -/
def effDispatchTake (st : Nat) (w : W) : W :=
  match w.sta.offer.find st with
  | none => w
  | some o =>
    let w := { w with sta.offer := w.sta.offer.del st,
                      sta.lastRing := w.sta.lastRing.put (st * 4 + w.rd (stnB st) KSTN_RING_CFG.cls o.ring) o.ring }
    let w := w.setMsgs st o.ring ((w.msgsOf st o.ring).map (fun m => if m.seq = o.seq then { m with taken := true } else m))
    w.inc (stnB st) KSTN_DISP.disp_count

/-! ### The commands of this family -/

/-- DESCRIPTOR_FETCH (R184). -/
def execDescriptorFetch (st : Nat) (s : State) : Host.Outcome State Fault Refusal :=
  run (effDescriptorFetch st) s

/-- SEND_DESCRIPTOR (R203). -/
def execSendDescriptor (st entry : Nat) (s : State) : Host.Outcome State Fault Refusal :=
  run (effSendDescriptor st entry) s

/-- NOP_DESCRIPTOR (R185). -/
def execNopDescriptor (st entry : Nat) (s : State) : Host.Outcome State Fault Refusal :=
  run (effNopDescriptor st entry) s

/-- DIRECT_SEND (R201). -/
def execDirectSend (st chan addr blen ctx : Nat) (inHandler : Bool) (s : State) : Host.Outcome State Fault Refusal :=
  run (effDirectSend st chan addr blen ctx inHandler) s

/-- SEND_UNBLOCK (R201). -/
def execSendUnblock (st : Nat) (s : State) : Host.Outcome State Fault Refusal :=
  run (effSendUnblock st) s

/-- SEND_WITHDRAW (R201). -/
def execSendWithdraw (st : Nat) (s : State) : Host.Outcome State Fault Refusal :=
  run (effSendWithdraw st) s

/-- SEND_STALL_TIMEOUT (R202). -/
def execSendStallTimeout (st chan : Nat) (s : State) : Host.Outcome State Fault Refusal :=
  run (effSendStallTimeout st chan) s

/-- MESSAGE_RECEIVE (R195). -/
def execMessageReceive (st : Nat) (s : State) : Host.Outcome State Fault Refusal :=
  run (effMessageReceive st) s

/-- IN_MEM_MESSAGE_WRITTEN (R197). -/
def execInMemMessageWritten (st ring : Nat) (s : State) : Host.Outcome State Fault Refusal :=
  run (effInMemMessageWritten st ring) s

/-- IN_MEM_POP_DATA (R197). -/
def execInMemPopData (st ring : Nat) (s : State) : Host.Outcome State Fault Refusal :=
  run (effInMemPopData st ring) s

/-- CREDIT_RECEIVE (R193). -/
def execCreditReceive (st : Nat) (s : State) : Host.Outcome State Fault Refusal :=
  run (effCreditReceive st) s

/-- CRESYNC_RECEIVE (R194). -/
def execCresyncReceive (st : Nat) (s : State) : Host.Outcome State Fault Refusal :=
  run (effCresyncReceive st) s

/-- RING_POP (R196). -/
def execRingPop (st ring npop : Nat) (who : Who) (s : State) : Host.Outcome State Fault Refusal :=
  run (effRingPop st ring npop who) s

/-- CREDIT_RETURN_TIMER (R196). -/
def execCreditReturnTimer (st ring slot : Nat) (s : State) : Host.Outcome State Fault Refusal :=
  run (effCreditReturnTimer st ring slot) s

/-- RING_ENABLE (R192). -/
def execRingEnable (st ring : Nat) (who : Who) (s : State) : Host.Outcome State Fault Refusal :=
  run (effRingEnable st ring who) s

/-- RING_DISABLE (R206). -/
def execRingDisable (st ring : Nat) (who : Who) (s : State) : Host.Outcome State Fault Refusal :=
  run (effRingDisable st ring who) s

/-- CHANNEL_ENABLE (R194). -/
def execChannelEnable (st chan : Nat) (who : Who) (s : State) : Host.Outcome State Fault Refusal :=
  run (effChannelEnable st chan who) s

/-- CHANNEL_DISABLE (R206). -/
def execChannelDisable (st chan : Nat) (who : Who) (s : State) : Host.Outcome State Fault Refusal :=
  run (effChannelDisable st chan who) s

/-- DISPATCH_OFFER (R199). -/
def execDispatchOffer (st : Nat) (s : State) : Host.Outcome State Fault Refusal :=
  run (effDispatchOffer st) s

/-- DISPATCH_TAKE (R200). -/
def execDispatchTake (st : Nat) (s : State) : Host.Outcome State Fault Refusal :=
  run (effDispatchTake st) s

end Sys2Proof.Machine
end

