-- ==== Sys2Proof/Machine/Coll.lean ====
section
/-! DEFINITION. Collectives: groups, descriptors, tine reduction contexts, fold slots (chapter 6). -/

namespace Sys2Proof.Machine

/-- Input buffers of a tine's reduction unit, a region pool unit and a merge unit. -/
def pRin : Nat := 53
def pPin : Nat := 54
def pMin : Nat := 55

/-- Take the first whole packet that satisfies `ok` from a unit's own input buffer `port`. -/
def W.takeIn (w : W) (u port : Nat) (ok : Packet → Bool) : Option (Packet × W) :=
  (List.range 10).foldl (fun r vc => match r with
    | some x => some x
    | none =>
      let l := w.buf u port vc
      match l.find? (fun b => b.last && ok b.pkt) with
      | none => none
      | some b => some (b.pkt, w.setBuf u port vc (l.erase b))) none

/-! ### Contexts that live -/

/-- The tag names a live context: 0x000, or one neither FREE nor in QUARANTINE (R414, R438). -/
def State.ctxLive (s : State) (c : Nat) : Bool :=
  c == 0 || (match s.cx.ctx.find c with
    | some x => x.state != 0 && x.state != 6
    | none => false)

/-! ### Groups (R219 to R221) -/

/-- Selected coordinates of an axis. -/
def axisN (lo hi step : Nat) : Nat := if step = 0 ∨ hi < lo then 0 else (hi - lo) / step + 1
def axis (lo hi step : Nat) : List Nat := (List.range (axisN lo hi step)).map (fun i => lo + step * i)

/-- Read a group descriptor; sizes follow from its axes. -/
def groupOf (b : List Byte) : GroupDef :=
  let pl := bits (le b 8 4) 0 17
  let ph := bits (le b 12 4) 0 17
  let ps := bits (le b 16 4) 0 17
  let dl := bits (le b 20 1) 0 6
  let dh := bits (le b 21 1) 0 6
  let ds := bits (le b 22 1) 0 6
  let rm := bits (le b 23 1) 0 2
  let cm := bits (le b 24 1) 0 4
  let om := bits (le b 24 1) 4 4
  let l := axisN dl dh ds * popc rm 2 * popc cm 4 * popc om 4
  { ctx := bits (le b 2 2) 0 12, gkey := le b 4 4, pkgLo := pl, pkgHi := ph, pkgStep := ps, dieLo := dl, dieHi := dh,
    dieStep := ds, regMask := rm, clMask := cm, coreMask := om, home := bits (le b 25 1) 0 5,
    rherd := bits (le b 26 2) 0 12, rroot := 0, gsize := axisN pl ph ps * l, lsize := l }

/-- Reserved bits of a group descriptor are zero. -/
def groupClean (b : List Byte) : Bool :=
  bits (le b 0 2) 10 6 == 0 && bits (le b 2 2) 12 4 == 0 && bits (le b 8 4) 17 15 == 0 && bits (le b 12 4) 17 15 == 0
    && bits (le b 16 4) 17 15 == 0 && bits (le b 20 1) 6 2 == 0 && bits (le b 21 1) 6 2 == 0
    && bits (le b 22 1) 6 2 == 0 && bits (le b 23 1) 2 6 == 0 && bits (le b 25 1) 5 3 == 0
    && bits (le b 26 2) 12 4 == 0 && le b 28 4 == 0

/-- The logical stations of a group in this package. -/
def GroupDef.members (g : GroupDef) : List Nat :=
  (axis g.dieLo g.dieHi g.dieStep).flatMap (fun d => (List.range 32).filterMap (fun x =>
    if bit g.regMask (x / 16) && bit g.clMask (x / 4 % 4) && bit g.coreMask (x % 4) then some (d * 32 + x) else none))

/-- The root byte of a herd in a bank (R148), as its definition gives it. -/
def State.rootByte (s : State) (bank herd : Nat) : Nat :=
  match (s.hbank bank).defs.find herd with
  | some d => d.stage + 8 * d.index
  | none => 0

/-- Member table of a station: slot of a group, if it holds it. -/
def State.groupSlot (s : State) (st g : Nat) : Option Nat :=
  (List.range 64).find? (fun i => s.col.memb.find (st * 64 + i) == some g)

/-- The group, when the station's member table holds it. -/
def State.groupAt (s : State) (st g : Nat) : Option GroupDef :=
  if (s.groupSlot st g).isSome && !s.entryBad (.group g) then s.col.grp.find g else none

/-- Remove a group's entries from every member table (R220). -/
def W.releaseGroup (w : W) (g : Nat) : W :=
  { w with col.memb := w.col.memb.filter (fun e => e.2 != g), col.grp := w.col.grp.del g }

/-- Write a group's entry into a member's table, in its lowest free slot. -/
def W.addMember (w : W) (st g : Nat) : W :=
  match w.groupSlot st g, (List.range 64).find? (fun i => (w.col.memb.find (st * 64 + i)).isNone) with
  | none, some i => { w with col.memb := w.col.memb.put (st * 64 + i) g }
  | _, _ => w

/-- A member station holds an open collective on the group. -/
def State.groupBusy (s : State) (g : Nat) : Bool := s.col.open_.any (fun e => e.2.group == g)

/-- GROUP_DEFINE (R219 to R221): checked, then defined, replaced or released; member tables follow. -/
def effGroupDefine (q slot : Nat) (w : W) : W :=
  match w.cmdAt q slot 0x00A0 with
  | none => w
  | some c =>
    let b := (c.bytes.drop 16).take 32
    let gi := bits (le b 0 2) 0 10
    let g := groupOf b
    let free_ := g.regMask = 0 && g.clMask = 0 && g.coreMask = 0
    let g := { g with rroot := w.rootByte w.genCur g.rherd }
    let herdOk := match (w.hbank w.genCur).defs.find g.rherd with
      | none => false
      | some d => d.ctx == g.ctx && d.members.length == g.lsize
          && ((d.stage == 3 && d.index == g.home) || d.stage == 4)
    let old := (w.col.grp.find gi).isSome
    let full := g.members.any (fun l =>
      let st := w.phys l
      (w.groupSlot st gi).isNone && (List.range 64).all (fun i => (w.col.memb.find (st * 64 + i)).isSome))
    let st := firstOf [
      (g.pkgHi < g.pkgLo || g.pkgStep == 0 || g.dieHi < g.dieLo || g.dieStep == 0 || w.fuse.cdActive ≤ g.dieHi
        || !(axis g.pkgLo g.pkgHi g.pkgStep).contains w.pkgNum || w.fuse.tines ≤ g.home || !groupClean b
        || c.ctx != g.ctx, BADOP),
      (!free_ && !herdOk, BADOP),
      (!w.ctxLive g.ctx, DENIED),
      (old && w.groupBusy gi, BUSY),
      (!free_ && full, BUSY),
      (free_ && !old, ALREADY)]
    if st ≠ OK then w.answer q slot st
    else
      let w := w.releaseGroup gi
      let w := if free_ then w else
        w.each g.members (fun w l => w.addMember (w.phys l) gi)
      let w := if free_ then w else { w with col.grp := w.col.grp.put gi g }
      w.answer q slot OK (toLE 4 g.gsize ++ toLE 2 g.lsize)

/-- The reduce route of a station to a group's home tine (R221), in a bank. -/
def State.redRoute (s : State) (st bank : Nat) (g : GroupDef) : List Nat :=
  let p := pregOfPhys st
  let up := if posOfPhys st = 16 then [] else [4]
  if g.home / 4 = p % 8 then up ++ [5 + g.home % 4]
  else
    let l := (s.col.beams.find (bank % 2)).getD s.beamsLive
    up ++ [5 + g.gkey % 4, 21 + (l[g.gkey % max 1 l.length]?).getD 0, g.home]

/-! ### Reduction packets (R229) -/

/-- The reduction extension. -/
def redExt (gkey seq rop dtype widen elems rsig rcount lsize rherd rroot : Nat) : List Byte :=
  toLE 4 gkey ++ toLE 4 seq ++ toLE 1 rop ++ toLE 1 dtype ++ toLE 1 widen ++ [0] ++ toLE 4 elems ++ toLE 8 rsig
    ++ toLE 2 rcount ++ toLE 2 lsize ++ toLE 2 rherd ++ toLE 1 rroot ++ [0]
def rxKey (p : Packet) : Nat := le p.ext 0 4
def rxSeq (p : Packet) : Nat := le p.ext 4 4
def rxOp (p : Packet) : Nat := bits (le p.ext 8 1) 0 3
def rxType (p : Packet) : Nat := le p.ext 9 1
def rxWiden (p : Packet) : Bool := bit (le p.ext 10 1) 0
def rxElems (p : Packet) : Nat := le p.ext 12 4
def rxSig (p : Packet) : Nat := le p.ext 16 8
def rxCount (p : Packet) : Nat := le p.ext 24 2
def rxLsize (p : Packet) : Nat := bits (le p.ext 26 2) 0 12
def rxHerd (p : Packet) : Nat := bits (le p.ext 28 2) 0 12
def rxRoot (p : Packet) : Nat := le p.ext 30 1

/-- Bytes of a contribution (R226). -/
def contribLen (dtype elems : Nat) : Nat := (elems + epc dtype - 1) / epc dtype * 64

/-- A payload in the form of a result: a contribution of a widening collective is widened first (R213). -/
def asResult (p : Packet) : List Byte :=
  if rxWiden p && p.data.length == contribLen (rxType p) (rxElems p) then widenPay (rxType p) p.data else p.data

/-- Combine two values of a count round (R235): 0 barrier, 1 SUM, 2 MAX, 3 MIN of INT32. -/
def countOp (op a b : Nat) : Nat :=
  match op with
  | 0 => 0
  | 1 => (a + b) % 2 ^ 32
  | 2 => intElem 1 32 32 [a, b]
  | _ => intElem 2 32 32 [a, b]

/-- The padding bytes of a cell as zeros (R212). -/
def padCell (t : Nat) (c : List Byte) : List Byte :=
  if t = 9 then fit 64 (c.take 32) else if isMx t then fit 64 (c.take 33) else c

/-! ### Adder capacity (R209) -/

/-- Cell lanes that the combines of a unit occupy in the current slot. -/
def State.combLanes (s : State) (u : Nat) : Nat :=
  match s.running with
  | none => 0
  | some p =>
    match p.secs.find (s.plateKey u) with
    | none => 0
    | some x =>
      let named := (s.entriesAt p u s.slotIdx).flatMap (fun r => (r.acts.filter (fun a => actKind a == 2)).map actComb)
      named.eraseDups.foldl (fun n j => n + (match x.combs[j]? with
        | some c => if c.widen then 2 else 1
        | none => 0)) 0

/-! ### Tine reduction units (R230 to R232) -/

def rctxKey (t i : Nat) : Nat := t * 512 + i

/-- OPEN contexts of a tine. -/
def State.rctxUsed (s : State) (t : Nat) : Nat := (s.col.rctx.filter (fun e => e.1 / 512 == t)).length

/-- The registers that count OPEN contexts (R240). -/
def W.rctxCount (w : W) (t : Nat) : W :=
  let n := w.rctxUsed t
  (w.wr (rtrB (uTine t)) KRTR_RCTX.rctx_used n).high (rtrB (uTine t)) KRTR_RCTX.rctx_high n

/-- A packet that a tine's reduction unit makes goes out as its header says (R142, R149): to its next hop, or, at its root,
down the ports of the herd's mask. Nothing answers it; what meets a dead or absorbing port is counted (R169, R406). -/
def W.redSend (w : W) (t : Nat) (q : Packet) : W :=
  let u := uTine t
  let e := w.herdEnt q.gen u q.dst
  let b := rtrB u
  let (ports, p) := if q.hops = 0 then (maskPorts u e.mask, hopDown q 0) else ([q.hopAt 0], hopOn q 0)
  if q.hops = 0 ∧ !e.hvalid then w
  else if q.hops = 0 ∧ e.hctx ≠ q.ctx then w.inc b KRTR_ABSORB.herd_denied
  else
    let w := w.each ports (fun w o =>
      if w.portDead u o then w.inc b KRTR_ABSORB.stale_absorb else if w.isSink u o then w.inc b KRTR_SINK_CNT.sink_drop else w)
    let live := ports.filter (fun o => !w.portDead u o && !w.isSink u o && (portsOf u).contains o)
    if live = [] then w else
    w.pushBuf u pRed { pkt := q, arrived := q.size, last := true, routed := true, copies := live.map (fun o => { port := o, pkt := p }) }

/-- Send a RESULT on its herd from a tine (R231, R148). -/
def W.resultOut (w : W) (t : Nat) (p : Packet) : W :=
  let root := rxRoot p
  let hops := if bits root 0 3 = 4 then [21 + bits root 3 5] else []
  let q : Packet := { p with
    vc := if p.data = [] then 0 else 6
    herdMode := true
    ack := false
    op := 0x33
    dst := rxHerd p
    gen := w.genCur
    hops := hops.length
    hopPtr := 0
    hop := hopList hops
    len := p.data.length }
  w.redSend t q

/-- Emit a context's result (R231). -/
def W.redEmit (w : W) (t key : Nat) (c : RCtx) : W :=
  let e := patch (patch c.pkt.ext 24 (toLE 2 c.count)) 16 (toLE 8 (if c.mm then sigMARK else rxSig c.pkt))
  let p : Packet := { c.pkt with
    ext := e
    data := c.data
    aux := if c.mm then MISMATCH else OK
    addr := if c.data = [] then c.pkt.addr / 2 ^ 32 * 2 ^ 32 + c.value else c.pkt.addr
    pois := 0 }
  let p := if c.mm || c.bad then p.poisonAll else p
  ({ w with col.rctx := w.col.rctx.del key }.resultOut t p).rctxCount t

/-- Combine a packet into an OPEN context (R231). -/
def RCtx.join (c : RCtx) (p : Packet) (fc : Nat) : RCtx :=
  let ty := outType (rxType c.pkt) (rxWiden c.pkt)
  { c with
    data := if c.data = [] then [] else combinePay ty (rxOp c.pkt) c.data (asResult p)
    value := if c.data = [] then countOp (rxOp c.pkt) c.value (p.addr % 2 ^ 32) else c.value
    count := c.count + rxCount p
    mm := c.mm || rxSig p != rxSig c.pkt || rxSig p == sigMARK
    bad := c.bad || p.bad
    t0 := fc }

/-- A contribution reaches the reduction unit of tine `t` (R231, R232). -/
def W.redTake (w : W) (t : Nat) (p : Packet) : W :=
  let b := rtrB (uTine t)
  let same (_ : Nat) (c : RCtx) : Bool :=
    c.pkt.ctx == p.ctx && rxKey c.pkt == rxKey p && rxSeq c.pkt == rxSeq p
  let mine := w.col.rctx.filter (fun e => e.1 / 512 == t)
  let put (w : W) (key : Nat) (c : RCtx) : W :=
    if rxLsize c.pkt ≤ c.count then w.redEmit t key c
    else { w with col.rctx := w.col.rctx.put key c }.rctxCount t
  match Tbl.findBy same mine with
  | some (key, c) =>
    let bad := rxSig p != rxSig c.pkt || rxSig p == sigMARK
    put (if bad then w.inc b KRTR_RED_EVT.mismatch_count else w) key (c.join p w.fc)
  | none =>
    if mine.length < 512 then
      let key := (w.col.rctx.freeFrom 512 (rctxKey t 0)).getD (rctxKey t 0)
      let c : RCtx := { pkt := p, data := asResult p, value := if p.data = [] then p.addr % 2 ^ 32 else 0,
                        count := rxCount p, mm := false, bad := p.bad, t0 := w.fc }
      put w key c
    else (w.inc b KRTR_RBYP.bypass).resultOut t p

/-- The next contribution of one operation at a tine, when the plate leaves adder capacity. -/
def W.redNext (w : W) (t op : Nat) : W :=
  if 4 ≤ w.combLanes (uTine t) then w else
  match w.takeIn (uTine t) pRin (fun p => p.op == op) with
  | none => w
  | some (p, w) => w.redTake t p

/-- REDUCE (R231). -/
def effReduce (tine : Nat) (w : W) : W := w.redNext tine 0x30
/-- BARRIER (R231, R235). -/
def effBarrier (tine : Nat) (w : W) : W := w.redNext tine 0x31
/-- COUNT (R231, R235). -/
def effCount (tine : Nat) (w : W) : W := w.redNext tine 0x32

/-- Pieces of packets that wait in a reduction unit's input buffer (R230). -/
def State.redBuffered (s : State) (t : Nat) : Nat :=
  (List.range 10).foldl (fun n vc => (s.buf (uTine t) pRin vc).foldl (fun n b => n + phits b.pkt.size 64) n) 0

/-- A contribution with no room in the input buffer stays on its VC while a context is OPEN for its key (R231): only one
without such a context is bypassed. -/
def State.redWaits (s : State) (t : Nat) (p : Packet) : Bool :=
  64 < s.redBuffered t + phits p.size 64 && s.col.rctx.any (fun e => e.1 / 512 == t && e.2.pkt.ctx == p.ctx
    && rxKey e.2.pkt == rxKey p && rxSeq e.2.pkt == rxSeq p)

/-- A contribution arrives at its tine (R230, R232): into the input buffer, or bypassed when there is no room, or no
context for it. -/
def W.redArrive (w : W) (t : Nat) (p : Packet) : W :=
  if 64 < w.redBuffered t + phits p.size 64 then (w.inc (rtrB (uTine t)) KRTR_RBYP.bypass).resultOut t p
  else w.pushBuf (uTine t) pRin { pkt := p, arrived := p.size, last := true }

/-- LINGER_EXPIRY (R231, R237): an OPEN context with no arrival for 2^`linger_log2` fc emits a partial; an arrival that
waits for the adders joins first. -/
def effLingerExpiry (tine key : Nat) (w : W) : W :=
  match w.col.rctx.find key with
  | none => w
  | some c =>
    if key / 512 ≠ tine ∨ w.fc < c.t0 + 2 ^ w.rd (rtrB (uTine tine)) KRTR_RED_CFG.linger_log2 then w else
    match w.takeIn (uTine tine) pRin
        (fun p => p.ctx == c.pkt.ctx && rxKey p == rxKey c.pkt && rxSeq p == rxSeq c.pkt) with
    | some (p, w) =>
      let w := w.redTake tine p
      match w.col.rctx.find key with
      | some c => (w.inc (rtrB (uTine tine)) KRTR_RBYP.linger_emit).redEmit tine key c
      | none => w
    | none => (w.inc (rtrB (uTine tine)) KRTR_RBYP.linger_emit).redEmit tine key c

/-! ### Fold slots and collectives at a station (R227 to R235) -/

def foldKey (st i : Nat) : Nat := st * 32 + i
def State.collAt (s : State) (st e : Nat) : Option Coll := s.col.open_.find (logKey st e)

/-- The registers of the fold slots (R239). -/
def W.foldCount (w : W) (st : Nat) : W :=
  let l := w.col.fold.filter (fun e => e.1 / 32 == st)
  let w := w.wr (stnB st) KSTN_FOLD.fold_used l.length
  let w := w.wr (stnB st) KSTN_FOLD.fold_early ((l.filter (fun e => e.2.entry.isNone)).length)
  w.high (stnB st) KSTN_FOLD.fold_high l.length

def W.setFold (w : W) (st i : Nat) (f : Fold) : W :=
  { w with col.fold := w.col.fold.put (foldKey st i) f }.foldCount st
def W.delFold (w : W) (st i : Nat) : W := { w with col.fold := w.col.fold.del (foldKey st i) }.foldCount st

/-- An open collective completes (R228, R234, R239): its fold slot is freed and its descriptor completes. -/
def W.collEnd (w : W) (st e status detail : Nat) : W :=
  match w.collAt st e with
  | none => w
  | some c =>
    let b := stnB st
    let w := { w with col.open_ := w.col.open_.del (logKey st e) }
    let w := if c.sched then w else w.delFold st c.slot
    let w := if status = MISMATCH then w.inc b KSTN_COLL_EVT.coll_mm
      else if status = SHORT then w.inc b KSTN_COLL_EVT2.coll_short
      else if status = TIMEOUT then w.inc b KSTN_COLL_EVT2.coll_tmo else w
    w.complete st e status detail

/-- An arbitrated collective completes once its count reaches `lsize` (R234). -/
def W.collCheck (w : W) (st e : Nat) : W :=
  match w.collAt st e with
  | none => w
  | some c =>
    match w.col.fold.find (foldKey st c.slot) with
    | none => w
    | some f =>
      if f.count < c.lsize then w
      else w.collEnd st e (if f.mm then MISMATCH else OK) (if c.count then f.value else f.count)

/-- A discarded arrival or early slot (R233). -/
def W.collOrphan (w : W) (st : Nat) : W := (w.inc (stnB st) KSTN_COLL_EVT.coll_orphan).irqB st 13

/-- Marks of a slot against the station's own collective (R233). -/
def Fold.marked (f : Fold) (c : Coll) : Bool :=
  f.mm || f.sigs.any (fun x => x == sigMARK || x != c.sig) || f.addrs.any (fun a => a != c.addr) || c.lsize < f.count

/-- Fold an arrival into a slot (R233): the first writes its payload at its address, later ones are combined there. -/
def W.foldIn (w : W) (st i : Nat) (f : Fold) (p : Packet) : W :=
  let pay := asResult p
  let ty := outType (rxType p) (rxWiden p)
  let n := pay.length
  let w := if n = 0 then w
    else if !f.begun then w.sramWrite st p.addr pay (if p.bad then 2 ^ ((n + 63) / 64) - 1 else 0)
    else
      let a := f.addrs.headD p.addr
      let old := w.sramRead st a n
      let bad := w.sramPoisMask st a n ||| (if p.bad then 2 ^ ((n + 63) / 64) - 1 else 0)
      w.sramWrite st a (combinePay ty (rxOp p) old pay) bad
  let v := p.addr % 2 ^ 32
  let f := { f with
    begun := true
    count := f.count + rxCount p
    value := if n = 0 then (if f.begun then countOp (rxOp p) f.value v else v) else f.value
    sigs := if f.sigs.contains (rxSig p) then f.sigs else f.sigs ++ [rxSig p]
    addrs := if n = 0 ∨ f.addrs.contains p.addr then f.addrs else f.addrs ++ [p.addr] }
  match f.entry with
  | none => w.setFold st i f
  | some e =>
    match w.collAt st e with
    | none => w.setFold st i f
    | some c => (w.setFold st i { f with mm := f.marked c }).collCheck st e

/-- RESULT (R233): a RESULT on the station's herd is folded, or discarded. -/
def effResult (st : Nat) (w : W) : W :=
  match w.takeAny (uSt st) (fun p => p.op == 0x33) with
  | none => w
  | some (p, w) =>
    let n := (asResult p).length
    if w.ctxFencedAt st p.ctx then w.collOrphan st
    else if 0 < n ∧ !w.winOk st p.ctx true p.addr n false true false then w.collOrphan st
    else
      let mine := w.col.fold.filter (fun e => e.1 / 32 == st)
      match Tbl.findBy (fun _ f => f.ctx == p.ctx && f.gkey == rxKey p && f.seq == rxSeq p) mine with
      | some (k, f) => w.foldIn st (k % 32) f p
      | none =>
        if 32 ≤ mine.length then w.collOrphan st
        else
          let i := ((w.col.fold.freeFrom 32 (foldKey st 0)).getD (foldKey st 0)) - foldKey st 0
          w.foldIn st i { ctx := p.ctx, gkey := rxKey p, seq := rxSeq p, t0 := w.fc } p

/-- EARLY_SLOT_EXPIRY (R233): an early slot that no descriptor joins within 2^24 fc is freed. -/
def effEarlySlotExpiry (st slot : Nat) (w : W) : W :=
  match w.col.fold.find (foldKey st slot) with
  | none => w
  | some f => if f.entry.isNone ∧ f.t0 + 2 ^ 24 ≤ w.fc then (w.delFold st slot).collOrphan st else w

/-- COLL_TIME_LIMIT (R228, R234): a collective's time limit passes. -/
def effCollTimeLimit (st e : Nat) (w : W) : W :=
  match w.collAt st e with
  | none => w
  | some c =>
    if w.fc < c.tEnd then w
    else if c.sched then w.collEnd st e TIMEOUT 0
    else
      match w.col.fold.find (foldKey st c.slot) with
      | none => w.collEnd st e TIMEOUT 0
      | some f =>
        if f.count = 0 then w.collEnd st e TIMEOUT 0
        else w.collEnd st e (if f.mm then MISMATCH else SHORT) f.count

/-- The open COLL that binds a stream (R228). -/
def State.collOfStream (s : State) (st k : Nat) : Option (Nat × Coll) :=
  (Tbl.findBy (fun key c => key / 512 == st && c.sched && c.streams.any (fun x => x.1 == k)) s.col.open_).map
    (fun x => (x.1 % 512, x.2))

/-- A stream of a station completed (R228): the COLL that binds it completes once each of its streams has. -/
def W.collStream (w : W) (st k status short : Nat) (recv : Bool) : W :=
  match w.collOfStream st k with
  | none => w
  | some (e, c) =>
    let c := { c with
      streams := c.streams.map (fun x => if x.1 = k then (k, true) else x)
      sts := c.sts ++ [status]
      short := if recv then short else c.short }
    let w := { w with col.open_ := w.col.open_.put (logKey st e) c }
    if c.streams.all (fun x => x.2) then w.collEnd st e (worst c.sts) c.short else w

/-- End every open collective of a station that satisfies `f` (R237, R238). -/
def W.collAbort (w : W) (st : Nat) (f : Nat → Bool) (status : Nat) : W :=
  w.each (w.col.open_.filter (fun e => e.1 / 512 == st && f (e.1 % 512))) (fun w e => w.collEnd st (e.1 % 512) status 0)

/-- Send a member's contribution along its reduce route (R229, R234), in the current generation. -/
def W.contribute (w : W) (st : Nat) (g : GroupDef) (p : Packet) : W :=
  let h := w.redRoute st w.genCur g
  w.inject (uSt st) { p with src := w.epOf (uSt st), ctx := g.ctx, gen := w.genCur, hops := h.length, hopPtr := 0,
                             hop := hopList h } (routed := true)

/-- Open an arbitrated collective (R227, R233, R234): it joins an early slot of its key or takes a free one, sends its
contribution, and completes at once if the slot's count already reaches `lsize`. -/
def W.collOpen (w : W) (st e : Nat) (g : GroupDef) (seq : Nat) (c : Coll) (p : Packet) : W :=
  let mine := w.col.fold.filter (fun x => x.1 / 32 == st)
  let early := Tbl.findBy (fun _ f => f.entry.isNone && f.ctx == g.ctx && f.gkey == g.gkey && f.seq == seq) mine
  let key := match early with
    | some (k, _) => k
    | none => (w.col.fold.freeFrom 32 (foldKey st 0)).getD (foldKey st 0)
  let f : Fold := match early with
    | some (_, f) => f
    | none => { ctx := g.ctx, gkey := g.gkey, seq := seq, t0 := w.fc }
  let c := { c with slot := key % 32 }
  let f := { f with entry := some e }
  let w := { w with col.open_ := w.col.open_.put (logKey st e) c }
  let w := w.setFold st (key % 32) { f with mm := f.marked c }
  ((w.started st e).contribute st g p).collCheck st e

/-- A fold slot is free, or an early slot of the key waits. -/
def State.foldRoom (s : State) (st : Nat) (g : GroupDef) (seq : Nat) : Bool :=
  let mine := s.col.fold.filter (fun x => x.1 / 32 == st)
  mine.length < 32 || mine.any (fun x => x.2.entry.isNone && x.2.ctx == g.ctx && x.2.gkey == g.gkey && x.2.seq == seq)

/-- COLL_DESCRIPTOR (R226 to R228, R234). -/
def effCollDescriptor (st e : Nat) (w : W) : W :=
  match w.mayStart st e 7 with
  | none => w
  | some l =>
    let d := l.desc
    let arb := bit (le d 32 1) 0
    let op := bits (le d 33 1) 0 3
    let ty := le d 34 1
    let widen := bit (le d 35 1) 0
    let n := le d 36 4
    let gi := bits (le d 40 2) 0 10
    let tl := bits (le d 42 1) 0 5
    let seq := le d 44 4
    let strs := [le d 48 1, le d 49 1, le d 50 1]
    let named := strs.filter (fun x => x != 0xFF)
    let sa := le d 52 4
    let ra := le d 56 4
    let len := contribLen ty n
    let rlen := if widen then 2 * len else len
    let grp := w.groupAt st gi
    let bad := bits (le d 32 1) 1 7 != 0 || bits (le d 33 1) 3 5 != 0 || 5 < op || !okType ty op widen
      || bits (le d 35 1) 1 7 != 0 || n == 0 || bits (le d 40 2) 10 6 != 0 || tl < 10 || 30 < tl
      || bits (le d 42 1) 5 3 != 0 || le d 43 1 != 0 || le d 51 1 != 0 || le d 60 4 != 0
      || (if arb then sa % 64 != 0 || ra % 64 != 0 || 1024 < len || named != []
          else sa != 0 || ra != 0 || named == [])
    let miss := arb && (!w.winOk st l.lctx true sa len true false false || !w.winOk st l.lctx true ra rlen false true false)
    let denied := (match grp with
        | none => true
        | some g => g.ctx != l.lctx) || miss
    let busy := (!arb && named.any (fun k => (w.collOfStream st k).isSome))
      || (arb && (match grp with
        | none => false
        | some g => !w.foldRoom st g seq))
    let chk := firstOf [(bad, BADOP), (denied, DENIED), (w.ctxFencedAt st l.lctx, FENCED), (busy, BUSY)]
    match chk, grp with
    | 0, some g =>
      let sig := signature op ty (if widen then 1 else 0) l.lctx g.gkey n seq
      let c : Coll := { sched := !arb, streams := if arb then [] else named.eraseDups.map (fun k => (k, false)), sig := sig,
                        lsize := g.lsize, group := gi, addr := ra, tEnd := w.fc + 2 ^ tl }
      if arb then
        let pay := (cells64 (len + 1) (w.sramRead st sa len)).flatMap (padCell ty)
        let p : Packet := { vc := 6, op := 0x30, addr := ra, len := len, data := pay, pois := w.sramPoisMask st sa len,
                            ext := redExt g.gkey seq op ty (if widen then 1 else 0) n sig 1 g.lsize g.rherd g.rroot }
        w.collOpen st e g seq c p
      else { w.started st e with col.open_ := w.col.open_.put (logKey st e) c }
    | x, _ => ((w.winDenied st (x == DENIED && miss)).started st e).complete st e x

/-- COUNT_DESCRIPTOR (R235): a barrier or a count round. -/
def effCountDescriptor (st e : Nat) (w : W) : W :=
  match w.mayStart st e 8 with
  | none => w
  | some l =>
    let d := l.desc
    let cop := bits (le d 32 1) 0 2
    let tl := bits (le d 33 1) 0 5
    let gi := bits (le d 34 2) 0 10
    let seq := le d 36 4
    let v := le d 40 4
    let grp := w.groupAt st gi
    let bad := bits (le d 32 1) 2 6 != 0 || bits (le d 33 1) 5 3 != 0 || tl < 10 || 30 < tl || bits (le d 34 2) 10 6 != 0
      || le d 44 20 != 0 || (cop == 0 && v != 0)
    let denied := match grp with
      | none => true
      | some g => g.ctx != l.lctx
    let busy := match grp with
      | none => false
      | some g => !w.foldRoom st g seq
    let chk := firstOf [(bad, BADOP), (denied, DENIED), (w.ctxFencedAt st l.lctx, FENCED), (busy, BUSY)]
    match chk, grp with
    | 0, some g =>
      let ty := if cop = 0 then 0 else 8
      let n := if cop = 0 then 0 else 1
      let sig := signature (0x10 + cop) ty 0 l.lctx g.gkey n seq
      let c : Coll := { sched := false, streams := [], sig := sig, lsize := g.lsize, group := gi, count := cop != 0,
                        tEnd := w.fc + 2 ^ tl }
      let p : Packet := { vc := 0, op := if cop = 0 then 0x31 else 0x32, addr := v,
                          ext := redExt g.gkey seq cop ty 0 n sig 1 g.lsize g.rherd g.rroot }
      w.collOpen st e g seq c p
    | x, _ => (w.started st e).complete st e x

/-! ### The commands of this family -/

/-- GROUP_DEFINE (R220). -/
def execGroupDefine (q slot : Nat) (s : State) : Host.Outcome State Fault Refusal :=
  run (effGroupDefine q slot) s

/-- COLL_DESCRIPTOR (R227). -/
def execCollDescriptor (st entry : Nat) (s : State) : Host.Outcome State Fault Refusal :=
  run (effCollDescriptor st entry) s

/-- COUNT_DESCRIPTOR (R235). -/
def execCountDescriptor (st entry : Nat) (s : State) : Host.Outcome State Fault Refusal :=
  run (effCountDescriptor st entry) s

/-- REDUCE (R231). -/
def execReduce (tine : Nat) (s : State) : Host.Outcome State Fault Refusal :=
  run (effReduce tine) s

/-- BARRIER (R231). -/
def execBarrier (tine : Nat) (s : State) : Host.Outcome State Fault Refusal :=
  run (effBarrier tine) s

/-- COUNT (R231). -/
def execCount (tine : Nat) (s : State) : Host.Outcome State Fault Refusal :=
  run (effCount tine) s

/-- LINGER_EXPIRY (R231). -/
def execLingerExpiry (tine key : Nat) (s : State) : Host.Outcome State Fault Refusal :=
  run (effLingerExpiry tine key) s

/-- RESULT (R233). -/
def execResult (st : Nat) (s : State) : Host.Outcome State Fault Refusal :=
  run (effResult st) s

/-- EARLY_SLOT_EXPIRY (R233). -/
def execEarlySlotExpiry (st slot : Nat) (s : State) : Host.Outcome State Fault Refusal :=
  run (effEarlySlotExpiry st slot) s

/-- COLL_TIME_LIMIT (R234). -/
def execCollTimeLimit (st entry : Nat) (s : State) : Host.Outcome State Fault Refusal :=
  run (effCollTimeLimit st entry) s

end Sys2Proof.Machine
end

