-- ==== Sys2Proof/Machine/Msp.lean ====
section
/-! DEFINITION. The memory slice port: windows, the memory interface, the directory, snoops, visibility (chapter 8). -/

namespace Sys2Proof.Machine

/-! ### Windows and checks at the target (R290) -/

/-- The window that holds what the two ports of a slice share (R314, R271). -/
def sliceB (s : Nat) : Nat := mspB (2 * s)

/-- Packets of the FMP and of the host under the management context, which no window entry covers, pass the checks of R290
(DEDUCED, log). -/
def mgmtPass (src ctx : Nat) : Bool := ctx == 0 && (src == 0x880 || src == 0x881)

/-- Some slice window entry of the context covers the access with the permissions it needs (R290). -/
def State.mwinOk (s : State) (slice ctx a n : Nat) (r w_ at_ : Bool) : Bool :=
  let b := sliceB slice
  let g := s.globalForm a
  (List.range 1024).any (fun i =>
    s.rd b KMSP_WIN_CFG.wvalid i == 1 && !s.entryBad (.window (uMsp (2 * slice)) i) && s.rd b KMSP_WIN_CFG.wctx i == ctx
    && s.globalForm (s.rd2 b KMSP_WIN_BASE_LO.wbase_lo KMSP_WIN_BASE_HI.wbase_hi i) ≤ g
    && g + n ≤ s.globalForm (s.rd2 b KMSP_WIN_LIM_LO.wlim_lo KMSP_WIN_LIM_HI.wlim_hi i) + 4096
    && (!r || s.rd b KMSP_WIN_CFG.wr i == 1) && (!w_ || s.rd b KMSP_WIN_CFG.ww i == 1)
    && (!at_ || s.rd b KMSP_WIN_CFG.wa i == 1))

/-- The address is in this package's memory window, with `n` bytes (R275). -/
def State.inMem (s : State) (a n : Nat) : Bool :=
  addrOk a && s.addrPkg a == s.pkgNum && !isEpWin a && loff a + n ≤ s.memTop

/-- Form of a memory operation at a target in the memory window (R277, R280, R282): within a granule, aligned. -/
def State.memForm (s : State) (p : Packet) : Bool :=
  let a := p.addr
  match p.op with
  | 0x02 =>
    let n := bits p.aux 0 13
    1 ≤ n && n ≤ 256 && s.inMem a n && inBlock (loff a) n 256
  | 0x01 => 1 ≤ p.len && s.inMem a p.len && inBlock (loff a) p.len 256
  | 0x0C => 1 ≤ p.len && s.inMem a p.len && inBlock (loff a) p.len 256
  | 0x0A => loff a % 8 == 0 && s.inMem a 8 && bits p.aux 0 4 ≤ 7 && p.len == (if bits p.aux 0 4 = 2 then 16 else 8)
  | _ => loff a % 64 == 0 && s.inMem a 64 && p.src < 0x800

/-- Permissions that an operation needs (R289): read, write, atomic. -/
def opPerm (op : Nat) : Bool × Bool × Bool :=
  match op with
  | 0x02 => (true, false, false)
  | 0x04 => (true, false, false)
  | 0x05 => (true, true, false)
  | 0x06 => (true, true, false)
  | 0x0A => (false, false, true)
  | 0x40 => (true, false, false)
  | _ => (false, true, false)

/-- The status with which a memory port refuses a request (R276, R277, R290, R420), or OK. -/
def State.memCheck (s : State) (port : Nat) (p : Packet) : Nat :=
  let (r, w_, at_) := opPerm p.op
  firstOf [(!s.memForm p, BADOP), (!mgmtPass p.src p.ctx && !s.mwinOk (port / 2) p.ctx p.addr (opBytes p) r w_ at_, DENIED),
    (s.pkgFenced (uMsp port) p.ctx, FENCED)]

/-- Refuse a request: a CMP with the status; DENIED counts (R314). A refused posted write is answered too, and the
writer's station takes the CMP as covering one write. -/
def W.memRefuse (w : W) (port : Nat) (p : Packet) (status : Nat) : W :=
  (if status = DENIED then w.inc (mspB port) KMSP_EVT.win_denied else w).cmp (uMsp port) p status

/-! ### The input pipeline (R293) -/

/-- Requests that won the input arbiter of a port. -/
def State.intakeOf (s : State) (port : Nat) : List Packet := (s.msp.intake.find port).getD []
def W.setIntake (w : W) (port : Nat) (l : List Packet) : W :=
  { w with msp.intake := if l = [] then w.msp.intake.del port else w.msp.intake.put port l }

/-- A free tag of the memory interface (R291). -/
def State.memTag (s : State) (port : Nat) : Option Nat :=
  (s.msp.opens.freeFrom 1024 (port * 1024)).map (fun k => k - port * 1024)

/-- Open requests of a port. -/
def State.memOpen (s : State) (port : Nat) : Nat := (s.msp.opens.filter (fun e => e.1 / 1024 == port)).length

/-- Take a request out of the pipeline. -/
def W.takeReq (w : W) (port : Nat) (p : Packet) : W := w.setIntake port ((w.intakeOf port).erase p)

/-! ### The memory interface (R291, R292) -/

/-- Open a request to the memory controller. -/
def W.openMem (w : W) (port : Nat) (we : Bool) (lo lines : Nat) (act : MemAct) : W :=
  match w.memTag port with
  | none => w
  | some t => { w with msp.opens := w.msp.opens.put (port * 1024 + t) { we := we, loff := lo, lines := lines, act := act } }.util
      (uMsp port) (if we then 0xD78 else 0xD70) (64 * lines)

/-- Poison of the 64 B chunks of a payload read from `a`: a chunk is poisoned when a poisoned line overlaps it. -/
def W.chunkPois (w : W) (a n : Nat) : Nat :=
  (List.range ((n + 63) / 64)).foldl (fun m j =>
    if w.memPois (a + 64 * j) || w.memPois (a + min n (64 * j + 64) - 1) then m + 2 ^ j else m) 0

/-- Issue a read: the data are those that stand when it is issued. -/
def W.memFetch (w : W) (port lo n : Nat) (act : Packet → MemAct) (p : Packet) : W :=
  let q : Packet := { p with data := w.memRead lo n, pois := w.chunkPois lo n }
  w.openMem port false lo ((lo % 64 + n + 63) / 64) (act q)

/-- The value an ATOMIC leaves (R282): operation, old value, operands. -/
def atomicNew (aop old : Nat) (d : List Byte) : Nat :=
  let x := le d 0 8
  match aop with
  | 0 => (old + x) % 2 ^ 64
  | 1 => x
  | 2 => if old = x then le d 8 8 else old
  | 3 => if toI old < toI x then x else old
  | 4 => if toI x < toI old then x else old
  | 5 => old &&& x
  | 6 => old ||| x
  | _ => old ^^^ x
where
  toI (v : Nat) : Int := if bit v 63 then (v : Int) - 2 ^ 64 else v

/-- The bytes of a write, without those that it keeps (R300): what is kept keeps its line's poison too. -/
def W.heldBytes (w : W) (h : HeldWrite) : W :=
  if h.keep = 0 then w.memWrite h.addr h.data h.poison
  else w.each (List.range h.data.length) (fun w j =>
    if bit h.keep j then w
    else w.writePart false (h.addr + j) ((h.data.drop j).take 1) (bit h.poison ((h.addr % 64 + j) / 64)))

/-- Lines that the memory controller returns poisoned or uncorrectable: each counts (R314, R382). -/
def W.linesBad (w : W) (port n : Nat) : W :=
  (w.inc (mspB port) KMSP_EVT.uncorr_rd n).each (List.range n) (fun w _ => w.uncorrAt (locMsp port))

/-- Perform a write that may be performed, and open its request: an ATOMIC reads and modifies 8 B (R282); one with no
data poisons its line (R297); a MERGE_ROW's segment is added element by element (R266). -/
def W.doWrite (w : W) (h : HeldWrite) : W :=
  match h.act with
  | .answer p =>
    if p.op = 0x0A then
      let old := w.memRead h.addr 8
      let bad := w.memPois h.addr
      let v := atomicNew (bits p.aux 0 4) (le old 0 8) h.data
      let q : Packet := { p with data := old, pois := if bad then 1 else 0 }
      ((w.linesBad h.port (if bad then 1 else 0)).memWrite h.addr (toLE 8 v)).openMem h.port true h.addr 1 (.answer q)
    else (w.heldBytes h).openMem h.port true h.addr ((h.addr % 64 + h.data.length + 63) / 64) h.act
  | .row key =>
    let dt := match w.col.rows.find key with
      | some r => le r.pkt.ext 2 1
      | none => 1
    let old := w.memRead h.addr h.data.length
    let stored := w.memPoisMask h.addr h.data.length
    let bad := h.poison ||| stored
    ((w.linesBad h.port (popc stored 4)).memWrite h.addr (combineRow dt 0 old h.data) bad).openMem h.port true h.addr ((h.data.length + 63) / 64) h.act
  | _ =>
    if h.data = [] then (w.put (.poison false (h.addr / 64) true)).openMem h.port true h.addr 1 h.act
    else (w.heldBytes h).openMem h.port true h.addr ((h.addr % 64 + h.data.length + 63) / 64) h.act

/-- A memory port writes; in the fault state the write is held in arrival order (R387). -/
def W.memIssue (w : W) (h : HeldWrite) : W :=
  if w.inFault then { w with msp.held := w.msp.held ++ [h] } else w.doWrite h

/-! ### The directory (R295 to R303) -/

/-- First key of the set of a line (its number in the memory window). -/
def dirSet (slice line : Nat) : Nat := slice * 131072 + sliceLocal (line * 64) / 64 % 8192 * 16

/-- The entry of a line, if it is not in I. -/
def State.dirFind (s : State) (slice line : Nat) : Option (Nat × DirEnt) :=
  Tbl.findBy (fun k e => dirSet slice line ≤ k && k < dirSet slice line + 16 && e.line == line) s.msp.dir

/-- The registers that count a slice's entries and deferred requests (R314). -/
def W.dirCount (w : W) (slice : Nat) : W :=
  let w := w.wr (sliceB slice) KMSP_DIR_USE.dir_used (w.msp.dir.filter (fun e => e.1 / 131072 == slice)).length
  w.wr (sliceB slice) KMSP_DIR_USE.defer_used ((w.msp.defer.find slice).getD []).length

def W.setDir (w : W) (key : Nat) (e : DirEnt) : W :=
  { w with msp.dir := w.msp.dir.put key e }.dirCount (key / 131072)
def W.delDir (w : W) (key : Nat) : W := { w with msp.dir := w.msp.dir.del key }.dirCount (key / 131072)

/-- Free ways of a set. -/
def State.freeWay (s : State) (slice line : Nat) : Option Nat := s.msp.dir.freeFrom 16 (dirSet slice line)

/-- The least recently granted way that is not busy (R303). -/
def State.victim (s : State) (slice line : Nat) : Option (Nat × DirEnt) :=
  (s.msp.dir.filter (fun x => dirSet slice line ≤ x.1 && x.1 < dirSet slice line + 16 && !x.2.busy)).foldl
    (fun b x => match b with
      | none => some x
      | some y => if x.2.lru < y.2.lru then some x else some y) none

/-- The entry names a station as holder. -/
def DirEnt.holds (e : DirEnt) (l : Nat) : Bool := if e.vmode then bit e.regions (l / 16) else e.ptrs.contains l

/-- Add a sharer; a fifth moves the entry to `vmode` 1 (R296). -/
def DirEnt.add (e : DirEnt) (l : Nat) : DirEnt :=
  if e.vmode then { e with regions := setBit e.regions (l / 16) true }
  else if e.ptrs.contains l then e
  else if e.ptrs.length < 4 then { e with ptrs := e.ptrs ++ [l] }
  else { e with vmode := true, ptrs := [], regions := (e.ptrs ++ [l]).foldl (fun m x => setBit m (x / 16) true) 0 }

/-- Members of a snoop herd (R296). -/
def State.herdSize (s : State) (herd : Nat) : Nat :=
  match (s.hbank s.genCur).defs.find herd with
  | some d => d.members.length
  | none => 0

/-- Send snoops for an entry (R296, R297): to each of the stations `dsts`, or, in `vmode`, to the herd of each region. The
entry becomes busy, with the request that waits on it. -/
def W.snoop (w : W) (port key : Nat) (e : DirEnt) (op : Nat) (dsts : List Nat) (pend : Option (Nat × Packet)) : W :=
  let slice := key / 131072
  let base : Packet := { vc := 5, op := op, addr := e.line * 64 }
  let regs := if e.vmode then (List.range 128).filter (fun r => bit e.regions r) else []
  let acks := if e.vmode then regs.foldl (fun n r => n + w.herdSize (0xF00 + r)) 0 else dsts.length
  let w := w.setDir key { e with busy := true, acks := acks, pend := pend, snoopT := w.fc, lost := false, wbWait := false, upd := false }
  let w := if e.vmode then
      w.each regs (fun w r => w.request (uMsp port) { base with herdMode := true, dst := 0xF00 + r } (.snoop slice key)
        (w.herdSize (0xF00 + r)))
    else w.each dsts (fun w l => w.request (uMsp port) { base with dst := l } (.snoop slice key))
  w.ev (uMsp port) 0x44 (if e.vmode then regs.length else dsts.length)

/-- Move a request into the slice's deferral pool (R298). -/
def W.defer (w : W) (port : Nat) (p : Packet) : W :=
  let s := port / 2
  { w with msp.defer := w.msp.defer.put s ((w.msp.defer.find s).getD [] ++ [(port, p)]) }.dirCount s

/-- The lines that a request reads or takes. -/
def linesOf (a n : Nat) : List Nat := (List.range ((a % 64 + n + 63) / 64)).map (fun j => a / 64 + j)

/-- Some line of the request is busy. -/
def State.lineBusy (s : State) (slice a n : Nat) : Bool :=
  (linesOf a n).any (fun l => match s.dirFind slice l with
    | some (_, e) => e.busy
    | none => false)

/-- The request must be deferred now (R298, R303): a line is busy, or its set has no free way. -/
def State.mustDefer (s : State) (port : Nat) (p : Packet) : Bool :=
  let slice := port / 2
  s.lineBusy slice (loff p.addr) (opBytes p)
    || (0x04 ≤ p.op && p.op ≤ 0x06 && (s.dirFind slice (loff p.addr / 64)).isNone
        && (s.freeWay slice (loff p.addr / 64)).isNone)

/-- The deferral pool is full (R298). -/
def State.deferFull (s : State) (port : Nat) : Bool := 64 ≤ ((s.msp.defer.find (port / 2)).getD []).length

/-- A request that must be deferred finds the pool full (R294, R298): it waits in its buffer. A WRITE is never deferred. -/
def State.deferBars (s : State) (port : Nat) (p : Packet) : Bool :=
  p.op != 0x01 && p.op != 0x0C && p.op != 0x59 && p.op != 0x07 && s.mustDefer port p && s.deferFull port

/-- Requests to the memory controller that a packet may need: one, or one for each segment of a row. -/
def tagsOf (p : Packet) : Nat := if p.op = 0x40 then popc (pxMask p) 16 else if p.op = 0x42 then popc (mxMask p) 16 else 1

/-- The controller's interface has room for a request (R291): of the 1,024 tags of the port, one stays free for each line
of it whose entry is busy, for the write or the grant still to come. -/
def State.tagRoom (s : State) (port : Nat) (p : Packet) : Bool :=
  s.memOpen port + (s.msp.dir.filter (fun e => e.2.busy && portOf (e.2.line * 64) == port)).length + tagsOf p ≤ 1024

/-- Two requests that R305 keeps in order: of one source, to one granule. -/
def sameGran (p q : Packet) : Bool := p.src == q.src && p.addr / 256 == q.addr / 256

/-- The next request of operation `op` in the pipeline of a port: none before it, of its VC or kept in order with it,
still waits, but those that the full deferral pool holds (R294, R305); and the interface has room for it. -/
def State.nextReq (s : State) (port op : Nat) : Option Packet :=
  match (s.intakeOf port).find? (fun p => p.op == op) with
  | none => none
  | some p =>
    if (s.intakeOf port).find? (fun q => q == p || ((q.vc == p.vc || sameGran p q) && !s.deferBars port q)) = some p
        && s.tagRoom port p then some p else none

/-- Grant a line with data from memory in a state (R297). -/
def W.grant (w : W) (port : Nat) (p : Packet) (st : Nat) : W :=
  w.memFetch port (loff p.addr) 64 (fun q => .grant q st) p

/-- Mark an entry as the most recently granted. -/
def W.touch (w : W) (key : Nat) (e : DirEnt) : W :=
  let n := w.msp.lruSeq + 1
  { w with msp.lruSeq := n }.setDir key { e with lru := n }

/-- Recall the victim of a full set (R303). -/
def W.recall (w : W) (port line : Nat) : W :=
  match w.victim (port / 2) line with
  | none => w
  | some (key, e) => (w.inc (sliceB (port / 2)) KMSP_DIR_EVT.back_inv).snoop port key e 0x52 e.ptrs none

/-- Recall a way for a deferred request that found every way of its set busy, once a way of the set is so no more (R303):
the requests that need a way of the set are more than the ways free or about to be. -/
def W.recallLate (w : W) (slice line : Nat) : W :=
  let set := dirSet slice line
  let waits := ((w.msp.defer.find slice).getD []).filter (fun x =>
    0x04 ≤ x.2.op && x.2.op ≤ 0x06 && dirSet slice (loff x.2.addr / 64) == set && (w.dirFind slice (loff x.2.addr / 64)).isNone)
  let used := w.msp.dir.filter (fun e => set ≤ e.1 && e.1 < set + 16)
  let freed := (used.filter (fun e => e.2.busy && e.2.pend.isNone)).length
  match waits.head? with
  | some (port, p) => if 16 - used.length + freed < waits.length then w.recall port (loff p.addr / 64) else w
  | none => w

/-- Decide a coherent request of a near cache (R297, R299). -/
def W.coherent (w : W) (port : Nat) (p : Packet) : W :=
  let slice := port / 2
  let line := loff p.addr / 64
  let r := p.src
  match w.dirFind slice line with
  | none =>
    match w.freeWay slice line with
    | none => (w.defer port p).recall port line
    | some key =>
      let st := if p.op = 4 then 2 else 3
      (w.touch key { line := line, st := st, ptrs := [r] }).grant port p st
  | some (key, e) =>
    if e.busy then w.defer port p
    else if e.st = 1 then
      if p.op = 4 then
        let e' := e.add r
        let w := if e'.vmode && !e.vmode then w.inc (sliceB slice) KMSP_DIR_EVT.vmode_cnt else w
        (w.touch key e').grant port p 1
      else
        let member := !e.vmode && e.ptrs.contains r
        if member && e.ptrs.length == 1 then
          let w := w.touch key { e with st := 3 }
          if p.op = 6 then w.reply (uMsp port) { ansTo p p.dst with vc := 6, op := 0x09, aux := 3 }
          else w.grant port p 3
        else w.snoop port key e 0x50 (e.ptrs.filter (fun l => l != r)) (some (port, p))
    else if e.ptrs == [r] then
      let st := if p.op = 4 then e.st else 3
      (w.touch key { e with st := st }).grant port p st
    else w.snoop port key e (if p.op = 4 then 0x51 else 0x52) e.ptrs (some (port, p))

/-- A READ at a memory port (R297): an owned line is snooped first. -/
def W.readAt (w : W) (port : Nat) (p : Packet) : W :=
  let slice := port / 2
  let n := opBytes p
  if w.lineBusy slice (loff p.addr) n then w.defer port p else
  match (linesOf (loff p.addr) n).find? (fun l => match w.dirFind slice l with
      | some (_, e) => 2 ≤ e.st
      | none => false) with
  | some l =>
    match w.dirFind slice l with
    | some (key, e) => w.snoop port key e 0x51 e.ptrs (some (port, p))
    | none => w
  | none => w.memFetch port (loff p.addr) n MemAct.read p

/-- The write of an operation. -/
def heldOf (port : Nat) (p : Packet) : HeldWrite :=
  { port := port, addr := loff p.addr, data := p.data, poison := linePois p.addr p.pois, act := .answer p }

/-- An ATOMIC at a memory port (R282, R297): every holder of the line is snooped first. -/
def W.atomicAt (w : W) (port : Nat) (p : Packet) : W :=
  match w.dirFind (port / 2) (loff p.addr / 64) with
  | some (key, e) =>
    if e.busy then w.defer port p
    else w.snoop port key e (if e.st = 1 then 0x50 else 0x52) e.ptrs (some (port, p))
  | none => w.memIssue (heldOf port p)

/-- Bytes written to a line while its snoops are outstanding (R300). -/
def maskOf (a n line : Nat) : Nat :=
  (List.range 64).foldl (fun m j => if a ≤ line * 64 + j ∧ line * 64 + j < a + n then m + 2 ^ j else m) 0

/-- What a write of bytes `d` at `a` (`dt` none), or the addition of elements of type `dt` there, does to a line. -/
def lineOp (a : Nat) (d : List Byte) (dt : Option Nat) (bad : Bool) (line : Nat) : LineOp :=
  let lo := max a (line * 64)
  let hi := min (a + d.length) (line * 64 + 64)
  { off := lo - line * 64, data := (d.drop (lo - a)).take (hi - lo), dt := dt, bad := bad }

/-- The line after one operation on it. -/
def LineOp.apply (l : List Byte) (o : LineOp) : List Byte :=
  let old := (l.drop o.off).take o.data.length
  l.take o.off ++ (match o.dt with
    | none => o.data
    | some t => combineRow t 0 old o.data) ++ l.drop (o.off + o.data.length)

/-- What snoop data writes to the line of an entry (R300): not the bytes written since the snoop was sent; what was added
since is added to the owner's data, so that an addition misses none of the owner's stores (R266). -/
def DirEnt.snoopWrite (e : DirEnt) (port : Nat) (d : List Byte) (bad : Bool) (act : MemAct) : HeldWrite :=
  let added := (e.ops.filter (fun o => o.dt.isSome)).foldl (fun m o => m ||| maskOf (e.line * 64 + o.off) o.data.length e.line) 0
  { port := port
    addr := e.line * 64
    data := e.ops.foldl LineOp.apply d
    poison := if bad || e.ops.any (fun o => o.dt.isSome && o.bad) then 1 else 0
    act := act
    keep := e.wmask - (e.wmask &&& added) }

/-- A write invalidates copies of the lines it touches (R297, R300): the bytes are remembered while snoops are out. So
does an addition (`dt`), whose bytes an owner's data does not skip but take the addition too (R266). -/
def W.writeSnoops (w : W) (port a : Nat) (d : List Byte) (dt : Option Nat := none) (bad : Bool := false) : W :=
  w.each (linesOf a d.length) (fun w l =>
    match w.dirFind (port / 2) l with
    | none => w
    | some (key, e) =>
      let e := { e with
        wmask := if dt.isSome then e.wmask else e.wmask ||| maskOf a d.length l
        ops := e.ops ++ [lineOp a d dt bad l] }
      if e.busy then w.setDir key e else w.snoop port key e (if e.st = 1 then 0x50 else 0x52) e.ptrs none)

/-- A WRITE or CWRITE at a memory port (R294, R297): performed at once. -/
def W.writeAt (w : W) (port : Nat) (p : Packet) : W :=
  (w.memIssue (heldOf port p)).writeSnoops port (loff p.addr) p.data

/-- The next state of a busy entry whose snoops are all answered and whose line is written, and the service of the request
that waited on it (R297, R299). Where a WRITE came while an owner was being asked to share the line, the owner's copy is
invalidated too, as R297 has it of every holder; an UPGRADE then takes the line with data (DEDUCED, log). -/
def W.dirNext (w : W) (key : Nat) (e : DirEnt) : W :=
  let e0 : DirEnt := { e with busy := false, pend := none, wmask := 0, ops := [], lost := false }
  match e.pend with
  | none => w.delDir key
  | some (port, p) =>
    let shared := p.op != 0x05 && p.op != 0x06 && p.op != 0x0A
    let gone := e.lost || e.ptrs == [] || e.st == 1
    if shared && !gone && e.ops != [] then w.snoop port key { e with st := 1, wmask := 0, ops := [] } 0x50 e.ptrs (some (port, p)) else
    match p.op with
    | 0x04 =>
      let e1 : DirEnt := { e0 with st := 1, ptrs := if gone then [] else e.ptrs }
      (w.touch key (e1.add p.src)).grant port p 1
    | 0x05 => (w.touch key { e0 with st := 3, vmode := false, regions := 0, ptrs := [p.src] }).grant port p 3
    | 0x06 =>
      let member := e.st == 1 && !e.vmode && e.ptrs.contains p.src && e.ops == []
      let w := w.touch key { e0 with st := 3, vmode := false, regions := 0, ptrs := [p.src] }
      if member then w.reply (uMsp port) { ansTo p p.dst with vc := 6, op := 0x09, aux := 3 } else w.grant port p 3
    | 0x0A => (w.delDir key).memIssue (heldOf port p)
    | 0x02 => (if gone then w.delDir key else w.setDir key { e0 with st := 1 }).readAt port p
    | _ =>
      let w := if gone then w.delDir key else w.setDir key { e0 with st := 1 }
      w.setIntake port (p :: w.intakeOf port)

/-- A busy entry goes on once its snoops are all answered and its line is written. -/
def W.dirFinish (w : W) (key : Nat) : W :=
  match w.msp.dir.find key with
  | none => w
  | some e =>
    if !e.busy ∨ e.acks ≠ 0 ∨ e.wbWait ∨ e.upd then w
    else (w.dirNext key e).recallLate (key / 131072) e.line

/-- A holder is lost (R297): removed; the line of an owner is written poisoned, with class COH (R382). -/
def W.snoopLost (w : W) (port key n : Nat) : W :=
  match w.msp.dir.find key with
  | none => w
  | some e =>
    if !e.busy then w else
    let e := { e with acks := e.acks - n }
    if 2 ≤ e.st then
      let w := (w.inc (sliceB (port / 2)) KMSP_DIR_EVT2.lines_poisoned).fault clCOH (locMsp port)
      (w.setDir key { e with lost := true, upd := true }).memIssue
        { port := port, addr := e.line * 64, data := [], poison := 1, act := .line key }
    else (w.setDir key e).dirFinish key

/-- One answer of an outstanding snoop is taken: its entry's key, or none for a late answer. -/
def W.snoopAns (w : W) (port : Nat) (p : Packet) : Option Nat × W :=
  match w.req1 (uMsp port) p.ref with
  | some r =>
    match r.own with
    | .snoop _ key =>
      (some key, if r.need ≤ 1 then w.delReq (uMsp port) p.ref else w.setReq (uMsp port) p.ref { r with need := r.need - 1 })
    | _ => (none, w)
  | none => (none, w)

/-! ### Commands of near caches -/

/-- Take the next request of operation `op` at a port and check it (R276, R277, R290): refused, or handed to `f`. A
request that must be deferred waits while the pool is full (R298). -/
def W.serve (w : W) (port op : Nat) (f : W → Packet → W) : W :=
  match w.nextReq port op with
  | none => w
  | some p =>
    let st := w.memCheck port p
    if st ≠ OK then (w.takeReq port p).memRefuse port p st
    else if w.deferBars port p then w
    else f (w.takeReq port p) p

/-- RD_S (R297). -/
def effRdS (port : Nat) (w : W) : W := w.serve port 0x04 (fun w p => w.coherent port p)
/-- RD_E (R297). -/
def effRdE (port : Nat) (w : W) : W := w.serve port 0x05 (fun w p => w.coherent port p)
/-- UPGRADE (R297). -/
def effUpgrade (port : Nat) (w : W) : W := w.serve port 0x06 (fun w p => w.coherent port p)

/-- WB (R297, R301): from the owner, the line is written and the entry goes to I, or, with a snoop answered WBP, the
data serves as the snoop's; from any other station it is answered OK and ignored. -/
def effWb (port : Nat) (w : W) : W :=
  match w.nextReq port 0x07 with
  | none => w
  | some p =>
    let w := w.takeReq port p
    if !w.memForm p ∨ p.data.length ≠ 64 then w.memRefuse port p BADOP else
    match w.dirFind (port / 2) (loff p.addr / 64) with
    | some (key, e) =>
      if 2 ≤ e.st && e.ptrs == [p.src] then
        if !e.busy then (w.delDir key).memIssue (heldOf port { p with aux := 0 })
        else if e.wbWait || 0 < e.acks then
          (w.setDir key { e with ptrs := [], wbWait := false, upd := true }).memIssue
            (e.snoopWrite port p.data p.bad (.answer { p with aux := 1 }))
        else w.cmp (uMsp port) p OK
      else w.cmp (uMsp port) p OK
    | none => w.cmp (uMsp port) p OK

/-- EVICT (R297, R301): the holder is removed; an EVICT of a station that the entry does not name is ignored. One for a
busy line is deferred, as every later MRQ request (R298). -/
def effEvict (port : Nat) (w : W) : W :=
  match w.nextReq port 0x08 with
  | none => w
  | some p =>
    if w.memForm p && w.mustDefer port p then (if w.deferFull port then w else (w.takeReq port p).defer port p) else
    let w := w.takeReq port p
    if !w.memForm p then w.memRefuse port p BADOP else
    let w := match w.dirFind (port / 2) (loff p.addr / 64) with
      | some (key, e) =>
        if e.vmode || !e.ptrs.contains p.src then w
        else
          let l := e.ptrs.erase p.src
          if l == [] then w.delDir key else w.setDir key { e with ptrs := l }
      | none => w
    w.cmp (uMsp port) p OK

/-- SACK (R297, R301): one snoop answer; with WBP the directory waits for the WB in flight. An owner that answers with
state I holds the line no more. -/
def effSack (port : Nat) (w : W) : W :=
  match w.takeVc (uMsp port) 3 (fun p => p.op == 0x58) with
  | none => w
  | some (p, w) =>
    match w.snoopAns port p with
    | (none, w) => w
    | (some key, w) =>
      match w.msp.dir.find key with
      | none => w
      | some e =>
        let wbp := bit p.aux 2 && 2 ≤ e.st && e.ptrs != []
        let e := { e with acks := e.acks - 1, wbWait := e.wbWait || wbp }
        let e := if e.st = 1 || wbp || bits p.aux 0 2 != 0 then e else { e with ptrs := [] }
        (w.setDir key e).dirFinish key

/-- SDATA (R299, R300): the bytes not written meanwhile are written to memory; the entry waits until they are visible. -/
def effSdata (port : Nat) (w : W) : W :=
  match w.nextReq port 0x59 with
  | none => w
  | some p =>
    match (w.takeReq port p).snoopAns port p with
    | (none, w) => w
    | (some key, w) =>
      match w.msp.dir.find key with
      | none => w
      | some e =>
        (w.setDir key { e with acks := e.acks - 1, upd := true }).memIssue
          (e.snoopWrite port p.data p.bad (.line key))

/-- Answers to requests with the number `ref` that have arrived at a memory port and wait there. -/
def State.waitAns (s : State) (port ref : Nat) : Nat :=
  ((List.range 10).flatMap (fun vc => (s.buf (uMsp port) 0 vc).filter (fun b => b.last && isAnswer b.pkt.op && b.pkt.ref == ref))).length
    + ((s.intakeOf port).filter (fun p => isAnswer p.op && p.ref == ref)).length

/-- SNOOP_TIMEOUT (R302): the snoops of an entry still unanswered 2^`snp_tl_log2` fc after they were sent count as
answered by lost holders; an answer that has arrived is still taken. -/
def effSnoopTimeout (slice key : Nat) (w : W) : W :=
  match w.msp.dir.find key with
  | none => w
  | some e =>
    if key / 131072 ≠ slice ∨ !e.busy ∨ w.fc < e.snoopT + 2 ^ w.rd (sliceB slice) KMSP_DIR_CFG.snp_tl_log2 then w else
    let port := portOf (e.line * 64)
    let here (r : Nat × Req) : Nat := w.waitAns port (r.1 % 2 ^ 20)
    let mine (r : Nat × Req) : Bool := match r.2.own with
      | .snoop _ k => k == key
      | _ => false
    let came := (w.net.req.filter mine).foldl (fun n r => n + min r.2.need (here r)) 0
    if e.acks ≤ came then w else
    let req := (w.net.req.filter (fun r => !mine r || here r != 0)).map (fun (r : Nat × Req) =>
      if mine r then (r.1, { r.2 with need := min r.2.need (here r) }) else r)
    let w := { w with net.req := req }
    let w := (w.inc (sliceB slice) KMSP_DIR_EVT2.snp_tmo (e.acks - came)).fault clCOH (locMsp port)
    w.snoopLost port key (e.acks - came)

/-! ### Visibility (R283, R284, R304) -/

def cntKey (u src : Nat) : Nat := u * 4096 + src

/-- Send the WCNT of a source (R283), routed as a CREDIT. -/
def W.wcntOut (w : W) (u src : Nat) : W :=
  match w.msp.count.find (cntKey u src) with
  | none => w
  | some c =>
    { w with msp.count := w.msp.count.del (cntKey u src) }.inject u
      { vc := 3, op := 0x0E, dst := src, src := w.epOf u, aux := c.n, refs := c.refs }

/-- A posted write of a source became visible (R283). -/
def W.posted (w : W) (u : Nat) (p : Packet) : W :=
  let src := p.src
  let c : Uncounted := match w.msp.count.find (cntKey u src) with
    | none => { n := 1, fc := w.fc, refs := [p.ref] }
    | some c => { c with n := c.n + 1, refs := c.refs ++ [p.ref] }
  let w := { w with msp.count := w.msp.count.put (cntKey u src) c }
  if 16 ≤ c.n then w.wcntOut u src else w

/-- A write became visible at its target (R304): acknowledged or counted, and a counted write's CCINC leaves. -/
def W.visible (w : W) (u : Nat) (p : Packet) : W :=
  let w := if p.ack then w.cmp u p OK else w.posted u p
  if p.op = 0x0C then
    let c : Packet := { vc := 1, op := 0x0D, dst := bits (le p.ext 0 2) 0 12, src := w.epOf u, ctx := p.ctx,
                        aux := le p.ext 2 1, addr := p.len }
    w.inject u c
  else w

/-- WCNT_TIMER (R283): 64 fc after the first uncounted visible write of a source. -/
def effWcntTimer (unit src : Nat) (w : W) : W :=
  match w.msp.count.find (cntKey unit src) with
  | none => w
  | some c => if c.fc + 64 ≤ w.fc then w.wcntOut unit src else w

/-- MEMORY_WRITE_ACK (R292, R304): `ms_wack` makes a write visible: its answer leaves, or the directory entry that waits
for it goes on. -/
def effMemoryWriteAck (port tag : Nat) (w : W) : W :=
  match w.msp.opens.find (port * 1024 + tag) with
  | none => w
  | some o =>
    if !o.we then w else
    let w := { w with msp.opens := w.msp.opens.del (port * 1024 + tag) }
    let u := uMsp port
    match o.act with
    | .line key =>
      match w.msp.dir.find key with
      | none => w
      | some e => (w.setDir key { e with upd := false }).dirFinish key
    | .answer p =>
      if p.op = 0x70 && w.msp.opens.any (fun x => x.2.we && x.2.act == .answer p) then w else
      match p.op with
      | 0x0A => w.reply u { ansTo p p.dst with vc := 3, op := 0x0B, len := 8, data := p.data, pois := p.pois,
                                               status := if p.bad then POISON else OK }
      | 0x07 =>
        let w := w.cmp u p OK
        match w.dirFind (port / 2) (loff p.addr / 64) with
        | some (key, e) => if p.aux = 1 && e.upd then (w.setDir key { e with upd := false }).dirFinish key else w
        | none => w
      | _ => w.visible u p
    | .row key =>
      match w.col.rows.find key with
      | none => w
      | some r =>
        if 1 < r.left then { w with col.rows := w.col.rows.put key { r with left := r.left - 1 } }
        else ({ w with col.rows := w.col.rows.del key }.cmp u r.pkt OK).inc (mspB port) KMSP_ACC.acc_count
    | _ => w

/-! ### The commands of this family -/

/-- RD_S (R297). -/
def execRdS (port : Nat) (s : State) : Host.Outcome State Fault Refusal :=
  run (effRdS port) s

/-- RD_E (R297). -/
def execRdE (port : Nat) (s : State) : Host.Outcome State Fault Refusal :=
  run (effRdE port) s

/-- UPGRADE (R297). -/
def execUpgrade (port : Nat) (s : State) : Host.Outcome State Fault Refusal :=
  run (effUpgrade port) s

/-- WB (R297). -/
def execWb (port : Nat) (s : State) : Host.Outcome State Fault Refusal :=
  run (effWb port) s

/-- EVICT (R297). -/
def execEvict (port : Nat) (s : State) : Host.Outcome State Fault Refusal :=
  run (effEvict port) s

/-- SACK (R297). -/
def execSack (port : Nat) (s : State) : Host.Outcome State Fault Refusal :=
  run (effSack port) s

/-- SDATA (R300). -/
def execSdata (port : Nat) (s : State) : Host.Outcome State Fault Refusal :=
  run (effSdata port) s

/-- SNOOP_TIMEOUT (R302). -/
def execSnoopTimeout (slice key : Nat) (s : State) : Host.Outcome State Fault Refusal :=
  run (effSnoopTimeout slice key) s

/-- WCNT_TIMER (R283). -/
def execWcntTimer (unit src : Nat) (s : State) : Host.Outcome State Fault Refusal :=
  run (effWcntTimer unit src) s

/-- MEMORY_WRITE_ACK (R304). -/
def execMemoryWriteAck (port tag : Nat) (s : State) : Host.Outcome State Fault Refusal :=
  run (effMemoryWriteAck port tag) s

end Sys2Proof.Machine
end

