-- ==== Sys2Proof/Machine/Pool.lean ====
section
/-! DEFINITION. Pooled gather, sparse merge and near-memory accumulate (chapter 7), and read data of the memory
controller (R291). -/

namespace Sys2Proof.Machine

/-! ### Extensions (R249, R250, R260) -/

/-- The extension of a POOL_READ or, with `mask` = `smask`, `sl` = `ppieces` and `fin`, of a POOL_PART. -/
def poolExt (pkg src slot seq pop dtype otype rlines mask weight sl bp : Nat) (fin : Bool) : List Byte :=
  toLE 4 pkg ++ toLE 2 src ++ toLE 1 slot ++ toLE 1 seq ++ toLE 1 pop ++ toLE 1 dtype ++ toLE 1 otype ++ toLE 1 rlines
    ++ toLE 2 mask ++ [0, 0] ++ toLE 4 weight ++ toLE 2 sl ++ toLE 2 bp ++ toLE 1 (if fin then 1 else 0)
    ++ List.replicate 7 0
def pxPkg (p : Packet) : Nat := bits (le p.ext 0 4) 0 17
def pxSrc (p : Packet) : Nat := bits (le p.ext 4 2) 0 12
def pxSlot (p : Packet) : Nat := bits (le p.ext 6 1) 0 6
def pxSeq (p : Packet) : Nat := le p.ext 7 1
def pxPop (p : Packet) : Nat := bits (le p.ext 8 1) 0 2
def pxType (p : Packet) : Nat := le p.ext 9 1
def pxOtype (p : Packet) : Nat := le p.ext 10 1
def pxRl (p : Packet) : Nat := bits (le p.ext 11 1) 0 7
def pxWeight (p : Packet) : Nat := le p.ext 16 4
def pxSl (p : Packet) : Nat := bits (le p.ext 20 2) 0 13
def pxB (p : Packet) : Nat := bits (le p.ext 22 2) 0 13
def pxFinal (p : Packet) : Bool := bit (le p.ext 24 1) 0

/-- The extension of a MERGE_ROW. -/
def mergeExt (mask dtype rlines mcount : Nat) (merged : Bool) : List Byte :=
  toLE 2 mask ++ toLE 1 dtype ++ toLE 1 rlines ++ toLE 1 mcount ++ toLE 1 (if merged then 1 else 0) ++ List.replicate 26 0
def mxType (p : Packet) : Nat := le p.ext 2 1
def mxRl (p : Packet) : Nat := bits (le p.ext 3 1) 0 7
def mxCount (p : Packet) : Nat := bits (le p.ext 4 1) 0 5
def mxMerged (p : Packet) : Bool := bit (le p.ext 5 1) 0

/-- Segments of a row of `rl` lines; length of segment `i`; the segments of a mask. -/
def nSegs (rl : Nat) : Nat := (rl + 3) / 4
def segLen (rl i : Nat) : Nat := min (256 * i + 256) (64 * rl) - 256 * i
def maskSegs (m : Nat) : List Nat := (List.range 16).filter (bit m)

/-- Output length of a row, and place and length of output segment `i` (R245). -/
def outLen (rl dtype otype : Nat) : Nat := 64 * rl / elemB dtype * elemB otype
def outOff (dtype otype i : Nat) : Nat := 256 * i / elemB dtype * elemB otype
def outSeg (rl dtype otype i : Nat) : Nat := segLen rl i / elemB dtype * elemB otype

/-! ### Bags at a station (R243 to R248, R255 to R260) -/

def bagKey (st i : Nat) : Nat := st * 64 + i
def State.bagAt (s : State) (st i : Nat) : Option Bag := s.col.bag.find (bagKey st i)

/-- The registers of the bag slots (R269). -/
def W.bagCount (w : W) (st : Nat) : W :=
  let n := (w.col.bag.filter (fun e => e.1 / 64 == st)).length
  (w.wr (stnB st) KSTN_BAG_STAT.bags_used n).high (stnB st) KSTN_BAG_STAT.bags_high n

def W.setBag (w : W) (st i : Nat) (b : Bag) : W := { w with col.bag := w.col.bag.put (bagKey st i) b }

/-- The slot that a descriptor holds. -/
def State.bagOf (s : State) (st e : Nat) : Option (Nat × Bag) :=
  (Tbl.findBy (fun k b => k / 64 == st && b.entry == e) s.col.bag).map (fun x => (x.1 % 64, x.2))

/-- The lines that wait in a station's fold buffer (R255). -/
def State.foldLines (s : State) (st : Nat) : List FoldLine := (s.col.fbuf.find st).getD []
def W.setFolds (w : W) (st : Nat) (l : List FoldLine) : W :=
  { w with col.fbuf := if l = [] then w.col.fbuf.del st else w.col.fbuf.put st l }

/-- The core port takes a line of the fold buffer: written, or combined with what stands there (R254, R255). -/
def W.foldLine (w : W) (st : Nat) (x : FoldLine) : W :=
  match x.comb with
  | none => w.sramWrite st x.addr x.data (if x.poison then 1 else 0)
  | some (ty, op) =>
    let old := w.sramRead st x.addr x.data.length
    w.sramWrite st x.addr (combineRow ty op old x.data) (if x.poison || w.sramPois st x.addr then 1 else 0)

/-- The lines of a bag that still wait are taken before it completes (R258). -/
def W.foldFlush (w : W) (st i : Nat) : W :=
  let l := w.foldLines st
  (w.setFolds st (l.filter (fun x => x.slot != i))).each (l.filter (fun x => x.slot == i)) (fun w x => w.foldLine st x)

/-- A bag completes (R257, R265): its slot is freed, its open POOL_READs are forgotten, and answers of its MERGE_ROWs
that still come are late. The refusals of a gather count with its own code. -/
def W.bagEnd (w : W) (st i own : Nat) : W :=
  match w.bagAt st i with
  | none => w
  | some b =>
    let w := w.foldFlush st i
    let status := if b.merge then own else worst (own :: b.sts)
    let w := { w with col.bag := w.col.bag.del (bagKey st i) }.bagCount st
    let mine (k : Nat) : Bool := k / 2 ^ 20 == uSt st
    let reqs := w.net.req.filter (fun r => !(mine r.1 && r.2.own == .bagRead i))
    let reqs := reqs.map (fun r => if mine r.1 && r.2.own == .mergeRow i then (r.1, { r.2 with late := true }) else r)
    let w := { w with net.req := reqs }
    let w := if status = SHORT then w.inc (stnB st) KSTN_BAG_EVT.bag_short
      else if status = TIMEOUT then w.inc (stnB st) KSTN_BAG_EVT.bag_tmo else w
    w.complete st b.entry status (if b.merge then b.okPieces else b.folded % 65536 + b.smask * 65536)

/-- A gather completes once folded and refused pieces reach `bpieces` and the core port has taken them, a merge once every row is answered (R257, R265). -/
def W.bagCheck (w : W) (st i : Nat) : W :=
  match w.bagAt st i with
  | none => w
  | some b =>
    if !b.sent then w
    else if b.merge then (if b.waiting = 0 then w.bagEnd st i (worst b.sts) else w)
    else if b.folded + b.refused < b.pieces || (w.foldLines st).any (fun x => x.slot == i) then w
    else w.bagEnd st i (if b.bad then POISON else OK)

/-- BAG_SLOT_ALLOCATE (R247): the BAG at the head of its queue takes the lowest free slot; `bseq` advances. -/
def effBagSlotAllocate (st e : Nat) (w : W) : W :=
  match w.mayStart st e 6, (List.range 64).find? (fun i => (w.bagAt st i).isNone) with
  | some l, some i =>
    let seq := (Tbl.get 0 w.col.bseq (bagKey st i) + 1) % 256
    let w := { w with col.bseq := Tbl.set 0 w.col.bseq (bagKey st i) seq }
    ((w.started st e).setBag st i { entry := e, seq := seq, ctx := l.lctx, t0 := w.fc }).bagCount st
  | _, _ => w

/-- An entry of a bag's list, with what its table says (R241, R244): row, table, weight, reserved bits clear. -/
structure BagRow where
  row : Nat
  table : Nat
  weight : Nat
  clean : Bool
  deriving DecidableEq, Repr

def bagRow (b : List Byte) : BagRow :=
  { row := bits (le b 0 8) 0 40, table := bits (le b 8 1) 0 6, weight := le b 12 4,
    clean := bits (le b 0 8) 40 24 == 0 && bits (le b 8 1) 6 2 == 0 && le b 9 3 == 0 }

/-- The address of a row of a table (R241). -/
def State.rowAddr (s : State) (st t row : Nat) : Nat :=
  let b := stnB st
  (s.rd2 b KSTN_PTAB_BASE_LO.tbase_lo KSTN_PTAB_BASE_HI.tbase_hi t + row * s.rd b KSTN_PTAB_CFG.stride t * 64) % 2 ^ 64

/-- The pieces of a row grouped by the package and slice that hold them (R248): `gmask` by target, lowest segment first. -/
def State.rowSets (s : State) (a rl : Nat) : List (Nat × Nat) :=
  let tgt (i : Nat) : Nat := s.addrPkg a * 32 + (sliceOf (loff (a + 256 * i))).1
  let ts := ((List.range (nSegs rl)).map tgt).eraseDups
  ts.map (fun t => (t, (List.range (nSegs rl)).foldl (fun m i => if tgt i = t then m + 2 ^ i else m) 0))

/-- The target of the packet for the segments of `mask` (R249, R260, R276): the memory port of the lowest of them, or
the edge port toward the row's package. -/
def State.rowDst (s : State) (a mask : Nat) : Nat :=
  let i := ((maskSegs mask).head?).getD 0
  if s.addrPkg a = s.pkgNum then 0x800 + portOf (loff (a + 256 * i)) else (s.dstOf a).2

/-- BAG_DESCRIPTOR (R243 to R249, R260): a BAG that holds a slot reads its list, is checked, and sends a POOL_READ or a
MERGE_ROW for each pair of row and slice. -/
def effBagDescriptor (st e : Nat) (w : W) : W :=
  match w.logAt st e, w.bagOf st e with
  | some l, some (i, bag) =>
    if bag.sent then w else
    let b := stnB st
    let d := l.desc
    let merge := bit (le d 32 1) 0
    let pop := bits (le d 32 1) 1 2
    let ot := le d 33 1
    let n := bits (le d 34 2) 0 9
    let tl := bits (le d 36 1) 0 5
    let la := le d 40 4
    let da := le d 44 4
    let rows := (List.range n).map (fun j => bagRow (w.sramRead st (la + 16 * j) 16))
    let t0 := ((rows.head?).map (fun r => r.table)).getD 0
    let rl := w.rd b KSTN_PTAB_CFG.rlines t0
    let dt := w.rd b KSTN_PTAB_CFG.dtype t0
    let ol := outLen rl dt ot
    let bad := bits (le d 32 1) 3 5 != 0 || bits (le d 34 2) 9 7 != 0 || bits (le d 36 1) 5 3 != 0 || le d 37 3 != 0
      || le d 48 16 != 0 || n == 0 || 256 < n || tl < 10 || 30 < tl || la % 64 != 0 || da % 64 != 0
      || rows.any (fun r => !r.clean
          || w.rd b KSTN_PTAB_ROWS_LO.trows_lo r.table + w.rd b KSTN_PTAB_ROWS_HI.trows_hi r.table * 2 ^ 32 ≤ r.row
          || w.rd b KSTN_PTAB_CFG.rlines r.table != rl || w.rd b KSTN_PTAB_CFG.dtype r.table != dt)
      || (if merge then pop != 0 || ot != 0 || !(1 ≤ dt && dt ≤ 3) else !(1 ≤ ot && ot ≤ 3) || 4096 < ol)
    let miss := !w.winOk st l.lctx true la (16 * n) true false false
      || (if merge then !w.winOk st l.lctx true da (n * 64 * rl) true false false
          else !w.winOk st l.lctx true da ol false true false)
    let denied := rows.any (fun r => w.rd b KSTN_PTAB_CFG.tvalid r.table == 0 || w.entryBad (.pool st r.table) || !w.owns 7 st r.table l.lctx)
      || miss
    let chk := firstOf [(bad, BADOP), (denied, DENIED), (w.ctxFencedAt st l.lctx || w.fencedAll st, FENCED)]
    if chk ≠ OK then (w.winDenied st (chk == DENIED && miss)).bagEnd st i chk else
    let sets := rows.map (fun r => w.rowSets (w.rowAddr st r.table r.row) rl)
    let bp := n * nSegs rl
    let sl (t : Nat) : Nat := sets.foldl (fun m x => x.foldl (fun m y => if y.1 = t then m + popc y.2 16 else m) m) 0
    let jobs := (List.zip (List.range n) (List.zip rows sets)).flatMap (fun x => x.2.2.map (fun y => (x.1, x.2.1, y)))
    let w := w.setBag st i { bag with
      sent := true, merge := merge, pop := pop, dtype := dt, otype := ot, rlines := rl, pieces := bp, addr := da,
      waiting := if merge then jobs.length else 0, t0 := bag.t0 + 2 ^ tl }
    let tag := i + 256 * bag.seq
    w.each jobs (fun w (x : Nat × BagRow × Nat × Nat) =>
      let a := w.rowAddr st x.2.1.table x.2.1.row
      let mask := x.2.2.2
      if merge then
        let src := da + x.1 * 64 * rl
        let part (j : Nat) : List Byte := w.sramRead st (src + 256 * j) (segLen rl j)
        let pay := (maskSegs mask).flatMap part
        let pb := (maskSegs mask).foldl (fun m j => m ||| (w.sramPoisMask st (src + 256 * j) (segLen rl j))) 0
        let p : Packet := { vc := 9, ack := true, op := 0x42, dst := w.rowDst a mask, ctx := l.lctx, addr := a,
                            len := pay.length, ext := mergeExt mask dt rl 1 false, data := pay }
        w.request (uSt st) (if pb = 0 then p else p.poisonAll) (.mergeRow i)
      else
        let wt := if pop = 2 then recip32 n else if pop = 1 then x.2.1.weight else 0
        let p : Packet := { vc := 1, op := 0x40, dst := w.rowDst a mask, ctx := l.lctx, addr := a,
                            ext := poolExt w.pkgNum (w.epOf (uSt st)) i bag.seq (if pop = 2 then 1 else pop) dt ot rl mask wt
                              (sl x.2.2.1) bp false }
        w.request (uSt st) p (.bagRead i) (tag := some tag))
  | _, _ => w

/-- Pieces of a bag were refused (R256). -/
def W.bagRefused (w : W) (st i n status : Nat) : W :=
  match w.bagAt st i with
  | none => w
  | some b =>
    ((w.setBag st i { b with refused := b.refused + n, sts := b.sts ++ [status] }).inc (stnB st)
      KSTN_BAG_EVT2.pool_refused n).bagCheck st i

/-- A MERGE_ROW of a bag was answered (R265). -/
def W.bagMerged (w : W) (st i n status : Nat) : W :=
  match w.bagAt st i with
  | none => w
  | some b =>
    (w.setBag st i { b with waiting := b.waiting - 1, sts := b.sts ++ [status],
                            okPieces := b.okPieces + (if status = OK then n else 0) }).bagCheck st i

/-- Fold one POOL_PART into its bag's result (R255), or discard it: each segment's lines enter the fold buffer, the first
of a segment to be written, later ones to be combined. -/
def W.partFold (w : W) (st : Nat) (p : Packet) : W :=
  let orphan (w : W) : W := (w.inc (stnB st) KSTN_BAG_EVT2.pool_orphan).irqB st 13
  match w.bagAt st (pxSlot p) with
  | none => orphan w
  | some b =>
    if pxSrc p ≠ w.epOf (uSt st) ∨ b.seq ≠ pxSeq p ∨ b.ctx ≠ p.ctx ∨ !b.sent ∨ b.merge then orphan w else
    let segs := (maskSegs (pxMask p)).filter (fun i => i < nSegs b.rlines)
    let lines := segs.flatMap (fun i =>
      let o := outOff b.dtype b.otype i
      let n := outSeg b.rlines b.dtype b.otype i
      (splitLines (n + 1) (b.addr + o) 0 ((p.data.drop o).take n)).map (fun x =>
        ({ addr := x.1, data := x.2.1, poison := p.bad, slot := pxSlot p,
           comb := if bit b.smask i then some (b.otype, if b.pop = 3 then 1 else 0) else none } : FoldLine)))
    ((w.setFolds st (w.foldLines st ++ lines)).setBag st (pxSlot p)
      { b with folded := b.folded + pxSl p, bad := b.bad || p.bad,
               smask := segs.foldl (fun m i => setBit m i true) b.smask }).bagCheck st (pxSlot p)

/-- The fold buffer of 64 pieces has room for a POOL_PART (R255). -/
def State.partRoom (s : State) (st : Nat) (p : Packet) : Bool :=
  s.foldLines st == [] || (s.foldLines st).length + (p.data.length + 63) / 64 ≤ 64

/-- POOL_PART_FOLD (R255, R257): the station takes the next POOL_PART that its fold buffer has room for. -/
def effPoolPartFold (st : Nat) (w : W) : W :=
  match w.takeAny (uSt st) (fun p => p.op == 0x41 && w.partRoom st p) with
  | none => w
  | some (p, w) => w.partFold st p

/-- Fold what waits at the station for a bag: `n` is a bound on their number. -/
def W.foldWaiting (w : W) (st i : Nat) : Nat → W
  | 0 => w
  | n + 1 => match w.takeAny (uSt st) (fun p => p.op == 0x41 && pxSlot p == i) with
    | none => w
    | some (p, w) => ((w.partFold st p).foldFlush st i).foldWaiting st i n

/-- BAG_TIME_LIMIT (R257, R265): a bag's time limit passes; an arrival of this fc is folded first. -/
def effBagTimeLimit (st slot : Nat) (w : W) : W :=
  match w.bagAt st slot with
  | none => w
  | some b =>
    if !b.sent ∨ w.fc < b.t0 then w else
    let w := if b.merge then w else w.foldWaiting st slot (w.buf (uSt st) 0 9).length
    match w.bagAt st slot with
    | none => w
    | some b =>
      if b.merge then w.bagEnd st slot TIMEOUT
      else w.bagEnd st slot (if b.folded = 0 then TIMEOUT else SHORT)

/-! ### Pool units (R250 to R254) -/

/-- Pool units: region router `uRR p`, or a slice under its port 0. -/
def poolKey (u i : Nat) : Nat := u * 1024 + i
def poolMax (u : Nat) : Nat := if isRouter u then 256 else 512

def State.pctxUsed (s : State) (u : Nat) : Nat := (s.col.pool.filter (fun e => e.1 / 1024 == u)).length

/-- The registers that count OPEN pool contexts (R270, R271). -/
def W.poolCount (w : W) (u : Nat) : W :=
  let n := w.pctxUsed u
  if isRouter u then (w.wr (rtrB u) KRTR_POOL_USE.pctx_used n).high (rtrB u) KRTR_POOL_USE.pctx_high n
  else (w.wr (unitB u) KMSP_POOL_USE.pctx_used n).high (unitB u) KMSP_POOL_USE.pctx_high n

/-- An item that arrives at a pool unit: its packet, its values over the whole output, segments, pieces, poison. -/
structure PoolItem where
  pkt : Packet
  vals : List Byte
  smask : Nat
  pieces : Nat
  bad : Bool
  port : Nat

/-- Combine an item's segments into an accumulator (R253, R254). -/
def poolAcc (acc : List Byte) (have_ : Nat) (it : PoolItem) : List Byte :=
  let p := it.pkt
  (maskSegs it.smask).foldl (fun acc i =>
    let o := outOff (pxType p) (pxOtype p) i
    let n := outSeg (pxRl p) (pxType p) (pxOtype p) i
    let d := (it.vals.drop o).take n
    if bit have_ i then patch acc o (combineRow (pxOtype p) (if pxPop p = 3 then 1 else 0) ((acc.drop o).take n) d)
    else patch acc o d) acc

/-- A pooled or unpooled partial of a slice (R250). -/
def W.slicePart (w : W) (it : PoolItem) : W :=
  let p := it.pkt
  let toEdge := pxPkg p ≠ w.pkgNum
  let ext := poolExt (pxPkg p) (pxSrc p) (pxSlot p) (pxSeq p) (pxPop p) (pxType p) (pxOtype p) (pxRl p) it.smask 0
    it.pieces (pxB p) (it.pieces == pxB p)
  let q : Packet := { vc := 9, op := 0x41, dst := if toEdge then 0x840 + w.edgePort (pxPkg p) 0 else pxSrc p,
                      src := w.epOf (uMsp it.port), ctx := p.ctx, tag := pxSlot p + 256 * pxSeq p,
                      len := it.vals.length, ext := ext, data := it.vals }
  w.inject (uMsp it.port) (if it.bad then q.poisonAll else q)

/-- Put a packet that came in on `inp` into a local source of its router, on its own hop list. -/
def W.goOn (w : W) (u src inp : Nat) (p : Packet) : W :=
  w.pushBuf u src { pkt := p, arrived := p.size, last := true, routed := true,
                    copies := [{ port := p.hopAt p.hopPtr, pkt := hopOn p inp }] }

/-- A packet that a unit passes on unchanged stays a requester of the input port it came in on (R154): it stands before
the packets behind it, whose credits it no longer holds. -/
def W.backOn (w : W) (u inp : Nat) (p : Packet) : W :=
  let b : Buf := { pkt := p, arrived := p.size, last := true, routed := true, freed := phits p.size 64,
                   copies := [{ port := p.hopAt p.hopPtr, pkt := hopOn p inp }] }
  match w.buf u inp p.vc with
  | h :: t => w.setBuf u inp p.vc (if h.copies.any (fun c => c.sent != 0) then h :: b :: t else b :: h :: t)
  | [] => w.setBuf u inp p.vc [b]

/-- A partial that an RR sends on: pooled, under the header of the one that opened the context (R253). -/
def W.rrPart (w : W) (u : Nat) (it : PoolItem) : W :=
  let p := it.pkt
  let fin := it.pieces == pxB p
  let ext := patch (patch (patch p.ext 12 (toLE 2 it.smask)) 20 (toLE 2 it.pieces)) 24 (toLE 1 (if fin then 1 else 0))
  let q : Packet := { p with ext := ext, data := it.vals, pois := 0 }
  w.goOn u pPool it.port (if it.bad then q.poisonAll else q)

/-- Emit an OPEN context (R253). -/
def W.poolEmit (w : W) (key : Nat) : W :=
  match w.col.pool.find key with
  | none => w
  | some c =>
    let u := key / 1024
    let w := { w with col.pool := w.col.pool.del key }.poolCount u
    let it : PoolItem := { pkt := c.pkt, vals := c.acc, smask := c.smask, pieces := c.pieces, bad := c.bad, port := c.port }
    if isRouter u then w.rrPart u it else w.slicePart it

/-- Items and contexts have the same key; the same parameters. -/
def samePool (a b : Packet) : Bool :=
  a.ctx == b.ctx && pxPkg a == pxPkg b && pxSrc a == pxSrc b && pxSlot a == pxSlot b && pxSeq a == pxSeq b
def sameParams (a b : Packet) : Bool :=
  pxPop a == pxPop b && pxType a == pxType b && pxOtype a == pxOtype b && pxRl a == pxRl b && pxB a == pxB b

/-- Pass an item on unpooled (R253). -/
def W.passOn (w : W) (u : Nat) (it : PoolItem) : W :=
  if isRouter u then w.backOn u it.port it.pkt else w.slicePart it

/-- Items that wait at a pool unit's input: partials at a region router, rows being read at a slice. -/
def State.poolWaiting (s : State) (u : Nat) : Nat :=
  if isRouter u then (s.buf u pPin 9).length else (s.col.rows.filter (fun e => uMsp (e.2.port / 2 * 2) == u)).length

/-- `input_room` (R253). -/
def State.poolRoom (s : State) (u : Nat) : Bool := s.poolWaiting u == 0 || Config.poolRoom u (s.poolWaiting u)

/-- An item arrives at a pool unit (R253). Items of a fenced context pass (R267). -/
def W.poolArrive (w : W) (u : Nat) (it : PoolItem) : W :=
  let rt := isRouter u
  let target (p : Packet) : Nat := if rt then pxB p else pxSl p
  if w.pkgFenced u it.pkt.ctx then w.passOn u it else
  match Tbl.findBy (fun k c => k / 1024 == u && samePool c.pkt it.pkt) w.col.pool with
  | some (key, c) =>
    if !sameParams c.pkt it.pkt then
      let w := w.passOn u it
      if rt then w.inc (rtrB u) KRTR_POOL_CONF.pool_conflict else w.inc (unitB u) KMSP_POOL_EVT2.pool_conflict
    else
      let c := { c with acc := poolAcc c.acc c.smask it, smask := c.smask ||| it.smask, pieces := c.pieces + it.pieces,
                        bad := c.bad || it.bad, t0 := w.fc }
      let w := { w with col.pool := w.col.pool.put key c }
      if c.pieces = c.target then w.poolEmit key else w
  | none =>
    if poolMax u ≤ w.pctxUsed u || !w.poolRoom u then
      let w := w.passOn u it
      if rt then (w.inc (rtrB u) KRTR_POOL_EVT.pool_bypass).irqR (u - 0x240) 7 else w.inc (unitB u) KMSP_POOL_EVT.pool_bypass
    else
      let key := (w.col.pool.freeFrom (poolMax u) (poolKey u 0)).getD (poolKey u 0)
      let c : PoolCtx := { pkt := it.pkt, acc := it.vals, smask := it.smask, pieces := it.pieces, target := target it.pkt,
                           bad := it.bad, t0 := w.fc, port := it.port }
      let w := { w with col.pool := w.col.pool.put key c }.poolCount u
      if c.pieces = c.target then w.poolEmit key else w

/-- The next packet in a router's pool or merge input, with the port it came in on. -/
def W.takeBuf (w : W) (u port vc : Nat) (ok : Packet → Bool) : Option (Packet × Nat × W) :=
  let l := w.buf u port vc
  match l.find? (fun b => ok b.pkt) with
  | none => none
  | some b => some (b.pkt, b.inp, w.setBuf u port vc (l.erase b))

/-- Fold one POOL_PART at a region router. -/
def W.regionPart (w : W) (u : Nat) (p : Packet) (inp : Nat) : W :=
  w.poolArrive u { pkt := p, vals := p.data, smask := pxMask p, pieces := pxSl p, bad := p.bad, port := inp }

/-- POOL_PART (R252, R253): the region pool unit takes the next partial on its way down. -/
def effPoolPart (region : Nat) (w : W) : W :=
  match w.takeBuf (uRR region) pPin 9 (fun _ => true) with
  | none => w
  | some (p, inp, w) => w.regionPart (uRR region) p inp

/-- POOL_LINGER_EXPIRY (R253, R267): 2^`plinger_log2` fc without an arrival; one that waits joins first. -/
def effPoolLingerExpiry (unit key : Nat) (w : W) : W :=
  match w.col.pool.find (poolKey unit key) with
  | none => w
  | some c =>
    let rt := isRouter unit
    let lg := if rt then w.rd (rtrB unit) KRTR_POOL_CFG.plinger_log2 else w.rd (unitB unit) KMSP_POOL_CFG.plinger_log2
    if w.fc < c.t0 + 2 ^ lg then w else
    let w := match (if rt then w.takeBuf unit pPin 9 (fun p => samePool p c.pkt) else none) with
      | some (p, inp, w) => w.regionPart unit p inp
      | none => w
    if (w.col.pool.find (poolKey unit key)).isNone then w else
    (if rt then w.inc (rtrB unit) KRTR_POOL_EVT.pool_linger else w.inc (unitB unit) KMSP_POOL_EVT.pool_linger).poolEmit
      (poolKey unit key)

/-- Emit, or free without emitting, every pool context of a context (R267). -/
def W.poolCtxEnd (w : W) (ctx : Nat) (emit : Bool) : W :=
  w.each ((w.col.pool.filter (fun e => e.2.pkt.ctx == ctx)).map (fun e => e.1)) (fun w k =>
    if emit then w.poolEmit k else { w with col.pool := w.col.pool.del k }.poolCount (k / 1024))

/-! ### POOL_READ at a slice (R251) -/

/-- Fields of a POOL_READ are in range, and each segment lies in the memory window, in this slice (R249, R251). -/
def State.poolForm (s : State) (port : Nat) (p : Packet) : Bool :=
  let rl := pxRl p
  let m := pxMask p
  p.ext.length == 32 && bits (le p.ext 0 4) 17 15 == 0 && bits (le p.ext 4 2) 12 4 == 0 && bits (le p.ext 6 1) 6 2 == 0
    && bits (le p.ext 8 1) 2 6 == 0 && pxPop p != 2 && (1 ≤ pxType p && pxType p ≤ 5) && (1 ≤ pxOtype p && pxOtype p ≤ 3)
    && bits (le p.ext 11 1) 7 1 == 0 && 1 ≤ rl && rl ≤ 64 && le p.ext 14 2 == 0 && 1 ≤ pxSl p && pxSl p ≤ 4096
    && 1 ≤ pxB p && pxB p ≤ 4096 && bits (le p.ext 20 2) 13 3 == 0 && bits (le p.ext 22 2) 13 3 == 0
    && le p.ext 24 8 == 0 && m != 0 && m < 2 ^ nSegs rl && outLen rl (pxType p) (pxOtype p) ≤ 4096
    && (maskSegs m).all (fun i =>
      let a := p.addr + 256 * i
      s.inMem a (segLen rl i) && inBlock (loff a) (segLen rl i) 256 && (sliceOf (loff a)).1 == port / 2)

/-- POOL_READ (R251): refused, or its segments are read coherently; an owned line is snooped first (R297, R298). -/
def effPoolRead (port : Nat) (w : W) : W :=
  match w.nextReq port 0x40 with
  | none => w
  | some p =>
    let slice := port / 2
    let rl := pxRl p
    let segs := maskSegs (pxMask p)
    let chk := firstOf [(!w.poolForm port p, BADOP),
      (!mgmtPass p.src p.ctx && segs.any (fun i => !w.mwinOk slice p.ctx (p.addr + 256 * i) (segLen rl i) true false false), DENIED),
      (w.pkgFenced (uMsp port) p.ctx, FENCED)]
    if chk ≠ OK then
      let w := ((w.takeReq port p).inc (sliceB slice) KMSP_POOL_EVT2.pool_refuse)
      (if chk = DENIED then w.inc (mspB port) KMSP_EVT.win_denied else w).cmp (uMsp port) p chk (popc (pxMask p) 16)
    else
      let at_ (i : Nat) : Nat := loff p.addr + 256 * i
      if segs.any (fun i => w.lineBusy slice (at_ i) (segLen rl i)) then
        if w.deferFull port then w else (w.takeReq port p).defer port p
      else
        let w := w.takeReq port p
        let owned := (segs.flatMap (fun i => linesOf (at_ i) (segLen rl i))).filterMap (fun l => match w.dirFind slice l with
          | some (k, e) => if 2 ≤ e.st then some (k, e) else none
          | none => none)
        match owned.head? with
        | some (k, e) => w.snoop port k e 0x51 e.ptrs (some (port, p))
        | none =>
          let key := (w.col.rows.freeFrom 100000 0).getD 0
          let parts := segs.map (fun i => (i, w.memRead (at_ i) (segLen rl i)))
          let bad := segs.any (fun i => w.chunkPois (at_ i) (segLen rl i) != 0)
          let w := { w with col.rows := w.col.rows.put key { pkt := p, port := port, segs := parts, left := segs.length, bad := bad } }
          w.each segs (fun w i => w.openMem port false (at_ i) ((segLen rl i + 63) / 64) (.row key))

/-- A row's data are complete: weighed, converted, and pooled or passed on (R253, R254). A POOL_READ that a proxy sent
(`ack` 1) is answered (R334). -/
def W.rowDone (w : W) (key : Nat) (r : RowRead) : W :=
  let p := r.pkt
  let conv (d : List Byte) : List Byte :=
    if pxPop p = 1 then weighRow (pxType p) (pxOtype p) (pxWeight p) d else convRow (pxType p) (pxOtype p) d
  let z := List.replicate (outLen (pxRl p) (pxType p) (pxOtype p)) (0 : Byte)
  let vals := r.segs.foldl (fun acc x => patch acc (outOff (pxType p) (pxOtype p) x.1) (conv x.2)) z
  let w := { w with col.rows := w.col.rows.del key }
  let w := w.poolArrive (uMsp (r.port / 2 * 2))
    { pkt := p, vals := vals, smask := pxMask p, pieces := popc (pxMask p) 16, bad := r.bad, port := r.port }
  if p.ack then w.cmp (uMsp r.port) p OK else w

/-- MEMORY_READ_RESPONSE (R291, R308): read data come back, lines of `unc` poisoned or found uncorrectable; the answer
leaves, or the row is pooled. -/
def effMemoryReadResponse (port tag unc : Nat) (w : W) : W :=
  match w.msp.opens.find (port * 1024 + tag) with
  | none => w
  | some o =>
    if o.we then w else
    let w := { w with msp.opens := w.msp.opens.del (port * 1024 + tag) }
    let mem := (List.range o.lines).foldl (fun m j => if w.memPois (o.loff / 64 * 64 + 64 * j) then setBit m j true else m) 0
    let unc := (unc % 2 ^ o.lines) ||| mem
    let w := w.linesBad port (popc unc 4)
    let u := uMsp port
    match o.act with
    | .read p =>
      -- a chunk of the payload may lie in two lines
      let ch := (List.range ((p.data.length + 63) / 64)).foldl (fun m j =>
        if bit unc ((o.loff % 64 + 64 * j) / 64) || bit unc ((o.loff % 64 + min p.data.length (64 * j + 64) - 1) / 64)
        then setBit m j true else m) p.pois
      w.reply u { ansTo p p.dst with vc := 6, op := 0x03, len := p.data.length, addr := p.addr, data := p.data, pois := ch,
                                     status := if ch = 0 then OK else POISON }
    | .grant p st =>
      let ch := p.pois ||| unc
      w.reply u { ansTo p p.dst with vc := 6, op := 0x09, len := 64, addr := p.addr, data := p.data, pois := ch, aux := st,
                                     status := if ch = 0 then OK else POISON }
    | .row key =>
      match w.col.rows.find key with
      | none => w
      | some r =>
        let r := { r with left := r.left - 1, bad := r.bad || unc != 0 }
        if r.left = 0 then w.rowDone key r else { w with col.rows := w.col.rows.put key r }
    | _ => w

/-! ### Merge units (R261 to R264) -/

def mrgKey (t i : Nat) : Nat := t * 512 + i

/-- The registers that count merge entries (R270). -/
def W.mrgCount (w : W) (t : Nat) : W :=
  let n := (w.col.mrg.filter (fun e => e.1 / 512 == t)).length
  (w.wr (rtrB (uTine t)) KRTR_MRG_USE.keys_used n).high (rtrB (uTine t)) KRTR_MRG_USE.keys_high n

/-- Emit an OPEN entry (R262, R263): a single packet goes on unchanged, else the merged row is sent and the entry waits. -/
def W.mrgEmit (w : W) (t key : Nat) : W :=
  match w.col.mrg.find key with
  | none => w
  | some e =>
    match e.contrib with
    | [] => w
    | [(_, inp)] => ({ w with col.mrg := w.col.mrg.del key }.mrgCount t).backOn (uTine t) inp e.first
    | _ =>
      let p := e.first
      let q : Packet := { p with
        hops := 1
        hopPtr := 0
        hop := hopList [p.hopAt p.hopPtr]
        ext := mergeExt (mxMask p) (mxType p) (mxRl p) e.contrib.length true
        data := e.data
        pois := 0
        ans := 0
        ref := 0
        retry := false }
      let q := if e.bad then q.poisonAll else q
      ({ w with col.mrg := w.col.mrg.put key { e with wait := true } }.inc (rtrB (uTine t)) KRTR_MRG_EVT2.memit).goOn
        (uTine t) pMrg 42 q

/-- A MERGE_ROW arrives at the merge unit of tine `t` (R262). -/
def W.mergeTake (w : W) (t : Nat) (p : Packet) (inp : Nat) : W :=
  let b := rtrB (uTine t)
  let fwd (w : W) : W := w.backOn (uTine t) inp p
  if w.pkgFenced (uTine t) p.ctx then fwd w else
  match Tbl.findBy (fun k e => k / 512 == t && !e.wait && e.first.ctx == p.ctx && e.first.addr == p.addr) w.col.mrg with
  | some (key, e) =>
    if mxType e.first ≠ mxType p ∨ mxRl e.first ≠ mxRl p ∨ mxMask e.first ≠ mxMask p then
      (fwd w).inc b KRTR_MRG_EVT2.mconflict
    else
      let e := { e with data := combineRow (mxType p) 0 e.data p.data, bad := e.bad || p.bad,
                        contrib := e.contrib ++ [(p, inp)] }
      let w := { w with col.mrg := w.col.mrg.put key e }.inc b KRTR_MRG_EVT.merged
      if e.contrib.length = 16 then w.mrgEmit t key else w
  | none =>
    match w.col.mrg.freeFrom 512 (mrgKey t 0) with
    | none => (fwd w).inc b KRTR_MRG_EVT.mbypass
    | some key =>
      { w with col.mrg := w.col.mrg.put key { first := p, data := p.data, bad := p.bad, contrib := [(p, inp)],
                                              wait := false, t0 := w.fc } }.mrgCount t

/-- MERGE_ROW (R261, R262): the merge unit takes the next row. -/
def effMergeRow (tine : Nat) (w : W) : W :=
  match w.takeBuf (uTine tine) pMin 9 (fun p => p.op == 0x42) with
  | none => w
  | some (p, inp, w) => w.mergeTake tine p inp

/-- MERGE_WINDOW_EXPIRY (R262, R267): an entry's window ends; a row that waits joins first. -/
def effMergeWindowExpiry (tine key : Nat) (w : W) : W :=
  let k := mrgKey tine key
  match w.col.mrg.find k with
  | none => w
  | some e =>
    if e.wait ∨ w.fc < e.t0 + 2 ^ w.rd (rtrB (uTine tine)) KRTR_MRG_CFG.mwin_log2 then w else
    let w := match w.takeBuf (uTine tine) pMin 9 (fun p => p.op == 0x42 && p.ctx == e.first.ctx && p.addr == e.first.addr) with
      | some (p, inp, w) => w.mergeTake tine p inp
      | none => w
    match w.col.mrg.find k with
    | some e => if e.wait then w else w.mrgEmit tine k
    | none => w

/-- Answer every contributor of an entry and free it (R263, R264). -/
def W.mrgAnswer (w : W) (t key status : Nat) : W :=
  match w.col.mrg.find key with
  | none => w
  | some e =>
    let w := { w with col.mrg := w.col.mrg.del key }.mrgCount t
    w.each e.contrib (fun w x => w.rtrAns (uTine t) x.2 x.1 status)

/-- MERGE_ANSWER (R263): the answer to a merged row comes back to port 42. -/
def effMergeAnswer (tine : Nat) (w : W) : W :=
  match w.takeBuf (uTine tine) pMin 3 (fun p => p.op == 0x60) with
  | none => w
  | some (p, _, w) =>
    match Tbl.findBy (fun k e => k / 512 == tine && e.wait && e.first.src == p.dst && e.first.tag == p.tag
        && e.first.ctx == p.ctx) w.col.mrg with
    | some (key, _) => w.mrgAnswer tine key p.status
    | none => w

/-- Merge entries of a context at its fence (emitted) and at its reset (answered ABORTED) (R264, R267). -/
def W.mrgCtxEnd (w : W) (ctx : Nat) (emit : Bool) : W :=
  w.each (w.col.mrg.filter (fun e => e.2.first.ctx == ctx && !e.2.wait)) (fun w e =>
    if emit then w.mrgEmit (e.1 / 512) e.1 else w.mrgAnswer (e.1 / 512) e.1 ABORTED)

/-! ### Near-memory accumulate (R266) -/

/-- Form of a MERGE_ROW at a memory port (R260). -/
def State.mergeForm (s : State) (port : Nat) (p : Packet) : Bool :=
  let rl := mxRl p
  let m := mxMask p
  p.ext.length == 32 && 1 ≤ mxType p && mxType p ≤ 3 && 1 ≤ rl && rl ≤ 64 && 1 ≤ mxCount p && mxCount p ≤ 16
    && m != 0 && m < 2 ^ nSegs rl && p.len == (maskSegs m).foldl (fun n i => n + segLen rl i) 0
    && (maskSegs m).all (fun i =>
      let a := p.addr + 256 * i
      s.inMem a (segLen rl i) && inBlock (loff a) (segLen rl i) 256 && (sliceOf (loff a)).1 == port / 2)

/-- NEAR_MEMORY_ACCUMULATE (R266): each segment of the row is added into its granule, and the copies of its lines are
invalidated; the row is answered once every granule's write is visible. -/
def effNearMemoryAccumulate (port : Nat) (w : W) : W :=
  match w.nextReq port 0x42 with
  | none => w
  | some p =>
    let slice := port / 2
    let rl := mxRl p
    let segs := maskSegs (mxMask p)
    let w := w.takeReq port p
    let chk := firstOf [(!w.mergeForm port p, BADOP),
      (!mgmtPass p.src p.ctx && segs.any (fun i => !w.mwinOk slice p.ctx (p.addr + 256 * i) (segLen rl i) false true false), DENIED),
      (w.pkgFenced (uMsp port) p.ctx, FENCED)]
    if chk ≠ OK then w.memRefuse port p chk else
    let key := (w.col.rows.freeFrom 100000 0).getD 0
    let w := { w with col.rows := w.col.rows.put key { pkt := p, port := port, segs := [], left := segs.length, bad := p.bad } }
    let offs := segs.map (fun i => (i, (segs.filter (fun j => j < i)).foldl (fun n j => n + segLen rl j) 0))
    w.each offs (fun w (x : Nat × Nat) =>
      let a := loff p.addr + 256 * x.1
      let d := (p.data.drop x.2).take (segLen rl x.1)
      (w.memIssue { port := port, addr := a, data := d, poison := if p.bad then 15 else 0,
                    act := .row key }).writeSnoops port a d (some (mxType p)) p.bad)

/-! ### The commands of this family -/

/-- BAG_DESCRIPTOR (R246). -/
def execBagDescriptor (st entry : Nat) (s : State) : Host.Outcome State Fault Refusal :=
  run (effBagDescriptor st entry) s

/-- BAG_SLOT_ALLOCATE (R247). -/
def execBagSlotAllocate (st entry : Nat) (s : State) : Host.Outcome State Fault Refusal :=
  run (effBagSlotAllocate st entry) s

/-- MEMORY_READ_RESPONSE (R291). -/
def execMemoryReadResponse (port tag unc : Nat) (s : State) : Host.Outcome State Fault Refusal :=
  run (effMemoryReadResponse port tag unc) s

/-- POOL_READ (R251). -/
def execPoolRead (port : Nat) (s : State) : Host.Outcome State Fault Refusal :=
  run (effPoolRead port) s

/-- POOL_PART (R253). -/
def execPoolPart (region : Nat) (s : State) : Host.Outcome State Fault Refusal :=
  run (effPoolPart region) s

/-- POOL_LINGER_EXPIRY (R253). -/
def execPoolLingerExpiry (unit key : Nat) (s : State) : Host.Outcome State Fault Refusal :=
  run (effPoolLingerExpiry unit key) s

/-- POOL_PART_FOLD (R255). -/
def execPoolPartFold (st : Nat) (s : State) : Host.Outcome State Fault Refusal :=
  run (effPoolPartFold st) s

/-- BAG_TIME_LIMIT (R257). -/
def execBagTimeLimit (st slot : Nat) (s : State) : Host.Outcome State Fault Refusal :=
  run (effBagTimeLimit st slot) s

/-- MERGE_ROW (R262). -/
def execMergeRow (tine : Nat) (s : State) : Host.Outcome State Fault Refusal :=
  run (effMergeRow tine) s

/-- MERGE_WINDOW_EXPIRY (R262). -/
def execMergeWindowExpiry (tine key : Nat) (s : State) : Host.Outcome State Fault Refusal :=
  run (effMergeWindowExpiry tine key) s

/-- MERGE_ANSWER (R263). -/
def execMergeAnswer (tine : Nat) (s : State) : Host.Outcome State Fault Refusal :=
  run (effMergeAnswer tine) s

/-- NEAR_MEMORY_ACCUMULATE (R266). -/
def execNearMemoryAccumulate (port : Nat) (s : State) : Host.Outcome State Fault Refusal :=
  run (effNearMemoryAccumulate port) s

end Sys2Proof.Machine
end

