-- ==== Sys2Proof/Machine/CorePort.lean ====
section
/-! DEFINITION. Memory requests of the core port, READ, WRITE and FENCE descriptors, snoops at a station, completion
counters (chapter 8). -/

namespace Sys2Proof.Machine

/-! ### Answers to the core -/

def coreKey (st tag : Nat) : Nat := st * 256 + tag
def State.coreAt (s : State) (st tag : Nat) : Option CoreOpen := s.sta.core.find (coreKey st tag)

/-- Present a response on `kp_ms_*` (R286). -/
def W.coreResp (w : W) (st : Nat) (r : CoreResp) : W :=
  { w with sta.resp := w.sta.resp.put st ((w.sta.resp.find st).getD [] ++ [r]) }

/-- Refuse a request at the port: nothing is sent (R289). -/
def W.coreRefuse (w : W) (st tag status : Nat) : W :=
  (w.winDenied st (status == DENIED)).coreResp st { tag := tag, status := status, state := 0, data := [], poison := 0 }

/-- A core request is answered. -/
def W.coreDone (w : W) (st tag status state : Nat) (data : List Byte) (poison : Nat) : W :=
  let w := { w with sta.core := w.sta.core.del (coreKey st tag) }
  let w := if status = POISON then w.inc (stnB st) KSTN_MEM_EVT.poison_rd else w
  w.coreResp st { tag := tag, status := status, state := state, data := data, poison := poison }

/-- One piece of a core request, from byte `off` of it, is answered (R277, R286): the last one completes the request, with
the status of highest precedence and the data of every piece (R19). -/
def W.coreAns (w : W) (st tag off status state : Nat) (data : List Byte) (poison : Nat) : W :=
  match w.coreAt st tag with
  | none => w
  | some c =>
    let d := if off = 0 ∧ c.data = [] then data else patch (fit (max c.data.length (off + data.length)) c.data) off data
    let m := c.poison ||| linePois off poison * 2 ^ (off / 64)
    if c.need ≤ 1 then w.coreDone st tag (worst (c.sts ++ [status])) state d m
    else { w with sta.core := w.sta.core.put (coreKey st tag)
                    { c with need := c.need - 1, sts := c.sts ++ [status], data := d, poison := m } }

/-! ### Fences (R307) -/

/-- The operation writes memory. -/
def writesMem (op : Nat) : Bool := op == 0x01 || op == 0x0C || op == 0x07 || op == 0x0A

/-- Some write issued by a station before number `n` and fc `t` is not known to be visible: of a context's, or (`core`)
of the core's own requests; of this package's, or (`sys`) of any. -/
def State.writesOut (s : State) (st n t : Nat) (ctx : Option Nat) (sys : Bool) : Bool :=
  ((s.sta.posted.find st).getD []).any (fun x => decide (x.id < n) && (sys || !x.remote)
      && (match ctx with | some c => x.ctx == c | none => x.core))
  || s.net.req.any (fun e => e.1 / 2 ^ 20 == uSt st && writesMem e.2.pkt.op && decide (e.2.fc ≤ t)
      && (sys || !(0x840 ≤ e.2.pkt.dst && e.2.pkt.dst < 0x880))
      && (match ctx with
          | some c => e.2.pkt.ctx == c
          | none => match e.2.own with | .core _ _ => true | _ => false))

/-- Core port fences whose condition holds complete OK (R307). -/
def W.fences (w : W) (st : Nat) : W :=
  w.each (w.sta.core.filter (fun e => e.1 / 256 == st && (e.2.op == 8 || e.2.op == 9))) (fun w e =>
    if w.writesOut st e.2.need e.2.fc none (e.2.scope == 1) then w else w.coreDone st (e.1 % 256) OK 0 [] 0)

/-- CORE_FENCE (R307): a package (`scope` 0) or system fence of the core is taken, and waits. -/
def effCoreFence (st tag scope ctx : Nat) (w : W) : W :=
  if (w.coreAt st tag).isSome ∨ w.coreHeld st
      ∨ 256 ≤ (w.sta.core.filter (fun e => e.1 / 256 == st)).length then w else
  let f : CoreOpen := { op := 8 + scope % 2, addr := 0, len := 0, fc := w.fc, ctx := ctx,
                        need := 2 ^ 20 + Tbl.get 0 w.sta.postSeq st, scope := scope % 2 }
  { w with sta.core := w.sta.core.put (coreKey st tag) f }.fences st

/-! ### Pieces of a transfer (R285) -/

/-- A transfer whose pieces are all sent and answered completes (R285). -/
def W.xferCheck (w : W) (st e : Nat) : W :=
  match w.jobAt st e with
  | none => w
  | some j => if j.left = 0 ∧ j.open_ = 0 then w.complete st e (worst j.sts) j.b else w

/-- A piece of a transfer was answered: `n` bytes when OK. -/
def W.xferAns (w : W) (st e status n : Nat) : W :=
  match w.jobAt st e with
  | none => w
  | some j =>
    (w.setJob st e { j with open_ := j.open_ - 1, sts := j.sts ++ [status], b := j.b + (if status = OK then n else 0) }).xferCheck
      st e

/-! ### Posted writes (R283) -/

/-- Send a posted write, of the core or of the descriptor of log entry `desc`. One to a dead endpoint is answered at its
source (R402). -/
def W.postWrite (w : W) (st : Nat) (p : Packet) (core : Bool) (desc : Option Nat := none) : W :=
  let seq := Tbl.get 0 w.sta.postSeq st
  let id := 2 ^ 20 + seq
  let r : PostRec := { id := id, ctx := p.ctx, remote := 0x840 ≤ p.dst && p.dst < 0x880, core := core, desc := desc }
  let w := { w with sta.posted := w.sta.posted.put st ((w.sta.posted.find st).getD [] ++ [r]),
                    sta.postSeq := w.sta.postSeq.put st (seq + 1) }
  let p := { p with src := w.epOf (uSt st), ack := false, ref := id }
  if w.deadAt (uSt st) p.dst then w.deliver (uSt st) { ansTo p p.dst with status := DEAD_TARGET, hops := 0 }
  else w.inject (uSt st) p

/-- A posted piece of a WRITE descriptor has been injected, or will not be (R285). -/
def W.postSent (w : W) (st id : Nat) : W :=
  let l := (w.sta.posted.find st).getD []
  match l.find? (fun x => x.id == id) with
  | some { desc := some e, .. } =>
    let l' := l.map (fun (x : PostRec) => if x.id = id then { x with desc := none } else x)
    { w with sta.posted := w.sta.posted.put st l' }.xferAns st e OK 0
  | _ => w

/-- An answer is counted in `late_ans` (R288, R361, R421). -/
def W.lateCount (w : W) (st : Nat) : W := (w.inc (stnB st) KSTN_MEM_EVT2.late_ans).irqB st 15

/-- Posted writes of a station have become visible, or were answered: those of `refs`, or, from another package, the
oldest `n` that went there. Answers to writes that the forced end of a drain dropped are counted (R421). -/
def W.postCount (w : W) (st n : Nat) (refs : List Nat) : W :=
  let w := w.each refs (fun w r => w.postSent st r)
  let l := (w.sta.posted.find st).getD []
  let w := w.each (refs.filter (fun r => !l.any (fun x => x.id == r))) (fun w _ => w.lateCount st)
  let l' := if refs ≠ [] then l.filter (fun x => !refs.contains x.id)
    else
      let gone := ((l.filter (fun x => x.remote)).take n).map (fun x => x.id)
      l.filter (fun x => !gone.contains x.id)
  { w with sta.posted := if l' = [] then w.sta.posted.del st else w.sta.posted.put st l' }.fences st

/-- WCNT (R283): the source subtracts the writes that became visible. -/
def effWcnt (unit : Nat) (w : W) : W :=
  match w.takeAny unit (fun p => p.op == 0x0E && !(0x2040 ≤ unit && unit < 0x2080)) with
  | none => w
  | some (p, w) => if 0x1000 ≤ unit ∧ unit < 0x2000 then w.postCount (unit - 0x1000) p.aux p.refs else w

/-! ### Requests of the core (R286 to R289) -/

/-- Packet operation of `kp_mr_op`. -/
def coreOp (op : Nat) : Nat :=
  match op with
  | 0 => 0x02 | 1 => 0x01 | 2 => 0x04 | 3 => 0x05 | 4 => 0x06 | 5 => 0x07 | 6 => 0x08 | _ => 0x0A

/-- Bytes that a core request reads or writes. -/
def coreLen (r : CoreReq) : Nat := if 2 ≤ r.op ∧ r.op ≤ 6 then 64 else if r.op = 7 then 8 else r.len

/-- The form of a core request (R136, R277, R280, R282, R286, R287): BADOP, NOROUTE or OK. -/
def State.coreForm (s : State) (r : CoreReq) : Nat :=
  let near := 2 ≤ r.op && r.op ≤ 6
  let n := coreLen r
  let bad := 9 < r.op || !addrOk r.addr || !addrOk (r.addr + n - 1) || n == 0 || 256 < n
    || (near && (r.addr % 64 != 0 || s.addrPkg r.addr != s.pkgNum || isEpWin r.addr))
    || (r.op == 7 && (r.addr % 8 != 0 || 7 < r.aop || r.data.length != (if r.aop = 2 then 16 else 8)))
    || (r.op == 1 && r.data.length != r.len) || (r.op == 5 && r.data.length != 64)
  worst [if bad then BADOP else OK, (s.dstOf r.addr).1, (s.dstOf (r.addr + n - 1)).1]

/-- The pieces of a core request (R277, R286): (offset, bytes). A READ or a WRITE is split at granules, or at 4 KiB blocks
of the endpoint window; a WRITE also at bytes whose enable is 0, which are not written. -/
def corePieces (r : CoreReq) : List (Nat × Nat) :=
  if 2 ≤ r.op then [(0, coreLen r)] else
  let blk := if isEpWin r.addr then 4096 else 256
  (List.range r.len).foldl (fun l j =>
    if r.op = 1 ∧ !bit r.be j then l else
    match l.getLast? with
    | some (o, k) => if o + k = j ∧ (loff r.addr + j) % blk ≠ 0 then l.dropLast ++ [(o, k + 1)] else l ++ [(j, 1)]
    | none => [(j, 1)]) []

/-- The packet of one piece of a core request. -/
def State.corePacket (s : State) (r : CoreReq) (off n : Nat) : Packet :=
  let op := coreOp r.op
  let a := r.addr + off
  let d := if r.op = 1 then (r.data.drop off).take n else if r.op = 5 ∨ r.op = 7 then r.data else []
  { vc := if op = 0x07 ∨ (op = 0x01 ∧ 32 < n) then 6 else 1
    op := op
    ack := op == 0x01 && !r.posted
    dst := (s.dstOf a).2
    ctx := r.ctx
    addr := a
    aux := if op = 0x02 then n else if op = 0x0A then r.aop else 0
    len := d.length
    data := d }

/-- Tags that a station's requests may still take. -/
def State.tagsLeft (s : State) (st : Nat) : Nat :=
  49152 - (s.net.req.filter (fun e => e.1 / 2 ^ 20 == uSt st && decide (e.1 % 2 ^ 20 < 65536))).length

/-- The status with which the station refuses a core request at its port (R287, R289, R404), or OK. -/
def State.coreCheck (s : State) (st : Nat) (r : CoreReq) : Nat :=
  let (pr, pw, pa) : Bool × Bool × Bool := if coreOp r.op = 0x08 then (false, false, false) else opPerm (coreOp r.op)
  worst [s.coreForm r, if s.winOk st r.ctx false r.addr (coreLen r) pr pw pa then OK else DENIED,
    if s.ctxFencedAt st r.ctx || s.fencedAll st then FENCED else OK]

/-- The station takes no request of the core (R287, R405): held in reset, 256 requests open, the tag open, or no space for
the answers. -/
def State.coreBusy (s : State) (st tag n : Nat) : Bool :=
  (s.coreAt st tag).isSome || s.coreHeld st || 256 ≤ (s.sta.core.filter (fun e => e.1 / 256 == st)).length || s.tagsLeft st < n

/-- CORE_MEMORY_REQUEST (R286 to R289): a request is checked and its pieces are sent, or it is refused; or it is not taken.
A WRITE of which no byte is enabled, and a posted one, is answered at once. -/
def effCoreMemoryRequest (st : Nat) (r : CoreReq) (w : W) : W :=
  if r.op = 8 ∨ r.op = 9 then effCoreFence st r.tag (r.op - 8) r.ctx w else
  let ps := corePieces r
  if w.coreBusy st r.tag ps.length then w else
  let chk := w.coreCheck st r
  if chk ≠ OK then w.coreRefuse st r.tag chk
  else if ps = [] ∨ (r.op = 1 ∧ r.posted) then
    (w.each ps (fun w x => w.postWrite st (w.corePacket r x.1 x.2) true)).coreResp st
      { tag := r.tag, status := OK, state := 0, data := [], poison := 0 }
  else
    let w := { w with sta.core := w.sta.core.put (coreKey st r.tag)
                        { op := r.op, addr := r.addr, len := coreLen r, fc := w.fc, ctx := r.ctx, need := ps.length } }
    w.each ps (fun w x => w.request (uSt st) (w.corePacket r x.1 x.2) (.core r.tag x.1))

/-- REQUEST_TIMEOUT (R149, R288): answers missing 2^`req_tl_log2` fc after acceptance; TIMEOUT is among the statuses. -/
def effRequestTimeout (st tag : Nat) (w : W) : W :=
  match w.coreAt st tag with
  | none => w
  | some c =>
    if w.fc < c.fc + 2 ^ w.rd (stnB st) KSTN_MEM_CFG.req_tl_log2 then w else
    let mine (r : Nat × Req) : Bool := r.1 / 2 ^ 20 == uSt st && !r.2.late && (match r.2.own with
      | .core t _ => t == tag
      | _ => false)
    let sts := (w.net.req.filter mine).flatMap (fun r => r.2.sts)
    let reqs := w.net.req.map (fun r => if mine r then (r.1, { r.2 with late := true }) else r)
    { w with net.req := reqs }.coreDone st tag (worst (TIMEOUT :: sts)) 0 [] 0

/-- A late answer is discarded (R288): one to the core, or to a request that the forced end of a drain dropped, counts (R421).
It may be the last that a fence waits for (R307). -/
def W.lateAns (w : W) (st : Nat) (r : Req) : W :=
  (match r.own, r.dropped with
  | .core _ _, _ => w.lateCount st
  | _, true => w.lateCount st
  | _, _ => w).fences st

/-! ### READ and WRITE descriptors (R285) -/

/-- Length of the piece at an address: to the end of its granule, or of its 4 KiB block in the endpoint window, where a
counted write stays within 256 B (R277, R280). -/
def pieceLen (a left : Nat) (cc : Bool) : Nat :=
  let b := if isEpWin a && !cc then 4096 else 256
  min left (b - loff a % b)

/-- Fields of the body. -/
def xferLen (d : List Byte) : Nat := bits (le d 44 4) 0 27
def xferPosted (d : List Byte) : Bool := bit (le d 49 1) 0
def xferCc (d : List Byte) : Bool := bit (le d 49 1) 1

/-- Send pieces of a transfer from offset `off` on, in ascending order, while answers have room (R129); `n` bounds them. -/
def W.sendPieces (w : W) (st e ctx : Nat) (d : List Byte) (wr : Bool) : Nat → Nat → W × Nat × Nat
  | 0, off => (w, off, 0)
  | n + 1, off =>
    let len := xferLen d
    if len ≤ off ∨ w.tagsLeft st = 0 then (w, off, 0) else
    let a := (le d 32 8 + off) % 2 ^ 64
    let sa := le d 40 4 + off
    let cc := wr && xferCc d
    let k := pieceLen a (len - off) cc
    let dst := (w.dstOf a).2
    if wr then
      let ext := if cc then toLE 2 (bits (le d 50 2) 0 12) ++ toLE 1 (le d 52 1) ++ List.replicate 29 0 else []
      let p : Packet := { vc := if cc ∨ 32 < k then 6 else 1, op := if cc then 0x0C else 0x01, ack := true, dst := dst,
                          ctx := ctx, addr := a, len := k, ext := ext, data := w.sramRead st sa k,
                          pois := w.sramPoisMask st sa k }
      if xferPosted d then
        let (w, o, m) := (w.postWrite st p false (some e)).sendPieces st e ctx d wr n (off + k)
        (w, o, m + 1)
      else
        let (w, o, m) := (w.request (uSt st) p (.desc e off k)).sendPieces st e ctx d wr n (off + k)
        (w, o, m + 1)
    else
      let p : Packet := { vc := 1, op := 0x02, dst := dst, ctx := ctx, addr := a, aux := k }
      let (w, o, m) := (w.request (uSt st) p (.desc e off k)).sendPieces st e ctx d wr n (off + k)
      (w, o, m + 1)

/-- Go on with a transfer: send what can be sent. -/
def W.xferGo (w : W) (st e : Nat) (l : LogEnt) (wr : Bool) : W :=
  match w.jobAt st e with
  | none => w
  | some j =>
    if j.left = 0 then w else
    let (w, off, m) := w.sendPieces st e l.lctx l.desc wr (j.left + 1) j.a
    (w.setJob st e { j with a := off, left := xferLen l.desc - off, open_ := j.open_ + m }).xferCheck st e

/-- READ_DESCRIPTOR and WRITE_DESCRIPTOR (R277, R285, R289): checked when it starts, then its pieces are sent; one that
has started sends more of them. -/
def W.xfer (w : W) (st e : Nat) (wr : Bool) : W :=
  match w.logAt st e with
  | none => w
  | some l =>
    if l.lstate = 2 ∧ le l.desc 0 1 = (if wr then 4 else 3) then w.xferGo st e l wr else
    match w.mayStart st e (if wr then 4 else 3) with
    | none => w
    | some l =>
      let d := l.desc
      let ga := le d 32 8
      let sa := le d 40 4
      let len := xferLen d
      let tl := bits (le d 48 1) 0 5
      let bad := bits (le d 44 4) 27 5 != 0 || bits (le d 48 1) 5 3 != 0 || bits (le d 49 1) 2 6 != 0
        || bits (le d 50 2) 12 4 != 0 || le d 53 11 != 0 || len == 0 || 2 ^ 26 < len || tl < 10 || 30 < tl
        || (!wr && le d 49 1 != 0)
      let form := if bad then BADOP else worst [(w.dstOf ga).1, (w.dstOf (ga + len - 1)).1]
      let denied := !(w.winOk st l.lctx false ga len (!wr) wr false && w.winOk st l.lctx true sa len wr (!wr) false)
      let chk := worst [form, if denied then DENIED else OK, if w.ctxFencedAt st l.lctx || w.fencedAll st then FENCED else OK]
      let w := w.started st e
      if chk ≠ OK then (w.winDenied st (chk == DENIED)).complete st e chk
      else (w.setJob st e { left := len, t0 := w.fc, tl := tl }).xferGo st e l wr

/-- READ_DESCRIPTOR (R285). -/
def effReadDescriptor (st e : Nat) (w : W) : W := w.xfer st e false
/-- WRITE_DESCRIPTOR (R285). -/
def effWriteDescriptor (st e : Nat) (w : W) : W := w.xfer st e true

/-- FENCE_DESCRIPTOR (R307): at the head of its queue it waits, holding back what follows, until the writes issued for
its context before it was fetched are visible. -/
def effFenceDescriptor (st e : Nat) (w : W) : W :=
  match w.mayStart st e 5, w.jobAt st e with
  | some l, some j =>
    let d := l.desc
    let tl := bits (le d 33 1) 0 5
    let bad := bits (le d 32 1) 1 7 != 0 || bits (le d 33 1) 5 3 != 0 || le d 34 30 != 0 || tl < 10 || 30 < tl
    let chk := firstOf [(bad, BADOP), (w.ctxFencedAt st l.lctx, FENCED)]
    if chk ≠ OK then (w.started st e).complete st e chk
    else if w.writesOut st j.a j.done (some l.lctx) (bit (le d 32 1) 0) then
      (if j.tl = 0 then w.setJob st e { j with t0 := w.fc, tl := tl } else w)
    else (w.started st e).complete st e OK
  | _, _ => w

/-- DESCRIPTOR_TIME_LIMIT (R285, R307): a READ, WRITE or waiting FENCE reaches its time limit. -/
def effDescriptorTimeLimit (st e : Nat) (w : W) : W :=
  match w.logAt st e, w.jobAt st e with
  | some l, some j =>
    let k := le l.desc 0 1
    if !(3 ≤ k ∧ k ≤ 5) ∨ j.tl = 0 ∨ w.fc < j.t0 + 2 ^ j.tl then w else
    let mine (o : Owner) : Bool := match o with
      | .desc x _ _ => x == e
      | _ => false
    let reqs := w.net.req.map (fun r =>
      if r.1 / 2 ^ 20 = uSt st ∧ mine r.2.own then (r.1, { r.2 with late := true }) else r)
    let posts := ((w.sta.posted.find st).getD []).map (fun (x : PostRec) => if x.desc = some e then { x with desc := none } else x)
    let w := { w with net.req := reqs, sta.posted := if posts = [] then w.sta.posted else w.sta.posted.put st posts }
    (w.started st e).complete st e TIMEOUT j.b
  | _, _ => w

/-! ### Read data and line grants (R280 to R282) -/

/-- An answer waits for the pop of an `in_mem` ring. -/
def State.forPop (s : State) (u : Nat) (p : Packet) : Bool :=
  match s.req1 u p.ref with
  | some r => (match r.own with | .ringPop _ => true | _ => false)
  | none => false

/-- Take an answer with data that is not a proxy's or a pop's, and settle its request. -/
def W.dataAns (w : W) (u op : Nat) (f : W → Req → Packet → W) : W :=
  match w.takeAny u (fun p => p.op == op && !w.forPop u p && !(0x2040 ≤ u && u < 0x2080)) with
  | none => w
  | some (p, w) =>
    if u = uHost then { w with boot.toHost := w.boot.toHost ++ [p] } else
    match w.reqOf u p with
    | none => w
    | some (ref, r) =>
      let w := w.delReq u ref
      if r.late then (if 0x1000 ≤ u ∧ u < 0x2000 then w.lateAns (u - 0x1000) r else w) else f w r p

/-- Settle data for a station's core or descriptor. -/
def W.dataFor (w : W) (u : Nat) (r : Req) (p : Packet) : W :=
  let st := u - 0x1000
  match r.own with
  | .core tag off => (w.coreAns st tag off p.status (if p.op = 0x09 then bits p.aux 0 2 else 0) p.data p.pois).fences st
  | .desc e off n =>
    match w.logAt st e with
    | none => w
    | some l =>
      let w := w.sramWrite st (le l.desc 40 4 + off) p.data (shiftPois p.pois)
      let w := if p.status = POISON then w.inc (stnB st) KSTN_MEM_EVT.poison_rd else w
      w.xferAns st e p.status n
  | _ => w

/-- RDATA (R281). -/
def effRdata (unit : Nat) (w : W) : W := w.dataAns unit 0x03 (fun w r p => w.dataFor unit r p)
/-- LDATA (R280, R286). -/
def effLdata (st : Nat) (w : W) : W := w.dataAns (uSt st) 0x09 (fun w r p => w.dataFor (uSt st) r p)
/-- ADATA (R282). -/
def effAdata (st : Nat) (w : W) : W := w.dataAns (uSt st) 0x0B (fun w r p => w.dataFor (uSt st) r p)

/-- CCINC (R284): the bytes written are added to a counter of the packet's context. -/
def effCcinc (st : Nat) (w : W) : W :=
  match w.takeAny (uSt st) (fun p => p.op == 0x0D) with
  | none => w
  | some (p, w) =>
    let i := p.aux % 256
    if !w.owns 5 st i p.ctx then w.inc (stnB st) KSTN_MEM_EVT2.cc_denied
    else w.wr (stnB st) KSTN_CC.cc_value ((w.rd (stnB st) KSTN_CC.cc_value i + p.addr) % 2 ^ 32) i

/-! ### Snoops at a station (R301) -/

def snpKey (st id : Nat) : Nat := st * 64 + id

/-- A WB of the line is in flight from the station. -/
def State.wbOut (s : State) (st a : Nat) : Bool :=
  s.net.req.any (fun e => e.1 / 2 ^ 20 == uSt st && e.2.pkt.op == 0x07 && loff e.2.pkt.addr / 64 == loff a / 64)

/-- Answer a snoop: SDATA with a dirty line, else SACK. -/
def W.snpAnswer (w : W) (st : Nat) (p : Packet) (aux : Nat) (dirty : Bool) (data : List Byte) : W :=
  let a : Packet := { ansTo p (w.epOf (uSt st)) with aux := aux }
  w.reply (uSt st) (if dirty then { a with vc := 6, op := 0x59, len := 64, addr := p.addr, data := fit 64 data }
    else { a with vc := 3, op := 0x58 })

/-- A station takes a snoop (R301): a WB in flight answers it, else it is presented to the core. -/
def W.snpTake (w : W) (st op : Nat) : W :=
  match (List.range 64).find? (fun i => (w.sta.snoops.find (snpKey st i)).isNone) with
  | none => w
  | some i =>
    match w.takeVc (uSt st) 5 (fun p => p.op == op) with
    | none => w
    | some (p, w) =>
      if w.wbOut st p.addr then w.snpAnswer st p 4 false []
      else { w with sta.snoops := w.sta.snoops.put (snpKey st i) { op := op - 0x50, addr := p.addr / 64, pkt := p, fc := w.fc } }

/-- SNP_INV (R301). -/
def effSnpInv (st : Nat) (w : W) : W := w.snpTake st 0x50
/-- SNP_DOWN (R301). -/
def effSnpDown (st : Nat) (w : W) : W := w.snpTake st 0x51
/-- SNP_FLUSH (R301). -/
def effSnpFlush (st : Nat) (w : W) : W := w.snpTake st 0x52

/-- CORE_SNOOP_ANSWER (R287, R301). -/
def effCoreSnoopAnswer (st id state : Nat) (dirty : Bool) (data : List Byte) (w : W) : W :=
  match w.sta.snoops.find (snpKey st id) with
  | none => w
  | some x =>
    let w := if x.fc + 1024 < w.fc then w.inc (stnB st) KSTN_MEM_EVT2.snp_late else w
    { w with sta.snoops := w.sta.snoops.del (snpKey st id) }.snpAnswer st x.pkt (state % 4) dirty data

/-! ### The commands of this family -/

/-- READ_DESCRIPTOR (R285). -/
def execReadDescriptor (st entry : Nat) (s : State) : Host.Outcome State Fault Refusal :=
  run (effReadDescriptor st entry) s

/-- WRITE_DESCRIPTOR (R285). -/
def execWriteDescriptor (st entry : Nat) (s : State) : Host.Outcome State Fault Refusal :=
  run (effWriteDescriptor st entry) s

/-- FENCE_DESCRIPTOR (R307). -/
def execFenceDescriptor (st entry : Nat) (s : State) : Host.Outcome State Fault Refusal :=
  run (effFenceDescriptor st entry) s

/-- CORE_MEMORY_REQUEST (R286). -/
def execCoreMemoryRequest (st : Nat) (r : CoreReq) (s : State) : Host.Outcome State Fault Refusal :=
  run (effCoreMemoryRequest st r) s

/-- CORE_FENCE (R307). -/
def execCoreFence (st tag scope ctx : Nat) (s : State) : Host.Outcome State Fault Refusal :=
  run (effCoreFence st tag scope ctx) s

/-- REQUEST_TIMEOUT (R288). -/
def execRequestTimeout (st tag : Nat) (s : State) : Host.Outcome State Fault Refusal :=
  run (effRequestTimeout st tag) s

/-- SNP_INV (R301). -/
def execSnpInv (st : Nat) (s : State) : Host.Outcome State Fault Refusal :=
  run (effSnpInv st) s

/-- SNP_DOWN (R301). -/
def execSnpDown (st : Nat) (s : State) : Host.Outcome State Fault Refusal :=
  run (effSnpDown st) s

/-- SNP_FLUSH (R301). -/
def execSnpFlush (st : Nat) (s : State) : Host.Outcome State Fault Refusal :=
  run (effSnpFlush st) s

/-- CORE_SNOOP_ANSWER (R301). -/
def execCoreSnoopAnswer (st id state : Nat) (dirty : Bool) (data : List Byte) (s : State) : Host.Outcome State Fault Refusal :=
  run (effCoreSnoopAnswer st id state dirty data) s

/-- RDATA (R281). -/
def execRdata (unit : Nat) (s : State) : Host.Outcome State Fault Refusal :=
  run (effRdata unit) s

/-- LDATA (R280). -/
def execLdata (st : Nat) (s : State) : Host.Outcome State Fault Refusal :=
  run (effLdata st) s

/-- ADATA (R282). -/
def execAdata (st : Nat) (s : State) : Host.Outcome State Fault Refusal :=
  run (effAdata st) s

/-- WCNT (R283). -/
def execWcnt (unit : Nat) (s : State) : Host.Outcome State Fault Refusal :=
  run (effWcnt unit) s

/-- CCINC (R284). -/
def execCcinc (st : Nat) (s : State) : Host.Outcome State Fault Refusal :=
  run (effCcinc st) s

/-- DESCRIPTOR_TIME_LIMIT (R285). -/
def execDescriptorTimeLimit (st entry : Nat) (s : State) : Host.Outcome State Fault Refusal :=
  run (effDescriptorTimeLimit st entry) s

end Sys2Proof.Machine
end

