-- ==== Sys2Proof/Machine/Code.lean ====
section
/-! DEFINITION. The two Reed–Solomon codes: RS(70,64) of every link, bond and buffer (R28, R377 to R379), and
RS(544,514) of the edge lanes (R318). Field elements are numbers; words are lists of symbols, highest degree first. -/

namespace Sys2Proof.Machine

/-! ### Fields -/

/-- Multiply by α in the field of `m` bits with primitive polynomial `poly`. -/
def gfStep (m poly a : Nat) : Nat := if 2 * a < 2 ^ m then 2 * a else (2 * a) ^^^ poly

/-- Product of two field elements: one step for each bit of `b`. -/
def gfMulN (m poly : Nat) : Nat → Nat → Nat → Nat
  | 0, _, _ => 0
  | n + 1, a, b => if b = 0 then 0 else
      let r := gfMulN m poly n (gfStep m poly a) (b / 2)
      if b % 2 = 1 then a ^^^ r else r

/-- A code: bits of a symbol, primitive polynomial, check symbols, symbols that it corrects, message symbols. -/
structure RS where
  m : Nat
  poly : Nat
  checks : Nat
  t : Nat
  k : Nat
  deriving DecidableEq, Repr

/-- RS(70,64) over GF(2^8) with x^8 + x^4 + x^3 + x^2 + 1; it corrects 1 or 2 symbols (R377, R379). -/
def rs70 : RS := ⟨8, 0x11D, 6, 2, 64⟩

/-- RS(544,514) over GF(2^10), correcting up to 15 symbols (R318); the polynomial x^10 + x^3 + 1 is that of the clause
that R318 names. PRESUMED. -/
def rs544 : RS := ⟨10, 0x409, 30, 15, 514⟩

def RS.mul (c : RS) (a b : Nat) : Nat := gfMulN c.m c.poly c.m a b

/-- `a` to the power `2^n`. -/
def RS.frob (c : RS) : Nat → Nat → Nat
  | 0, a => a
  | n + 1, a => c.frob n (c.mul a a)

/-- The inverse: the product of `a^2`, `a^4`, … `a^(2^(m-1))`. -/
def RS.inv (c : RS) (a : Nat) : Nat := (List.range (c.m - 1)).foldl (fun r i => c.mul r (c.frob (i + 1) a)) 1

/-- α to the power `n`. -/
def RS.alpha (c : RS) : Nat → Nat
  | 0 => 1
  | n + 1 => gfStep c.m c.poly (c.alpha n)

/-! ### Encoding (R377) -/

/-- Multiply a polynomial, lowest degree first, by x + `r`. -/
def RS.timesRoot (c : RS) (r : Nat) (g : List Nat) : List Nat :=
  List.zipWith (fun a b => a ^^^ b) (0 :: g) (g.map (c.mul r) ++ [0])

/-- The generator (x + α^0)(x + α^1)…, lowest degree first. -/
def RS.gen (c : RS) : List Nat := (List.range c.checks).foldl (fun g i => c.timesRoot (c.alpha i) g) [1]

/-- Remainder of the message times x^checks modulo the generator: the check symbols, first one first. -/
def RS.check (c : RS) (msg : List Nat) : List Nat :=
  let g := (c.gen.take c.checks).reverse
  msg.foldl (fun r x =>
    let f := x ^^^ r.headD 0
    if f = 0 then r.drop 1 ++ [0] else List.zipWith (fun a b => a ^^^ c.mul f b) (r.drop 1 ++ [0]) g)
    (List.replicate c.checks 0)

/-- The codeword of a message: the message, then its check symbols. A message of fewer symbols than the code's is taken
as if zeros came before it, and they are not carried (R378). -/
def RS.encode (c : RS) (msg : List Nat) : List Nat := msg ++ c.check msg

/-! ### Decoding (R379) -/

/-- Value of a word, highest degree first, at `x`. -/
def RS.eval (c : RS) (x : Nat) (l : List Nat) : Nat :=
  l.foldl (fun a s => if a = 0 then s else c.mul a x ^^^ s) 0

/-- The syndromes: the values at α^0, α^1, … -/
def RS.syndromes (c : RS) (w : List Nat) : List Nat := (List.range c.checks).map (fun i => c.eval (c.alpha i) w)

/-- Sum of two polynomials, lowest degree first. -/
def polyAdd : List Nat → List Nat → List Nat
  | [], b => b
  | a, [] => a
  | x :: a, y :: b => (x ^^^ y) :: polyAdd a b

/-- One step of the Berlekamp–Massey algorithm. -/
structure BM where
  loc : List Nat
  prev : List Nat
  len : Nat
  gap : Nat
  disc : Nat

def RS.bmStep (c : RS) (s : List Nat) (b : BM) (n : Nat) : BM :=
  let d := (List.range (b.len + 1)).foldl (fun d i => d ^^^ c.mul (b.loc.getD i 0) (s.getD (n - i) 0)) 0
  if d = 0 then { b with gap := b.gap + 1 }
  else
    let q := c.mul d (c.inv b.disc)
    let next := polyAdd b.loc (List.replicate b.gap 0 ++ b.prev.map (c.mul q))
    if 2 * b.len ≤ n then { loc := next, prev := b.loc, len := n + 1 - b.len, gap := 1, disc := d }
    else { b with loc := next, gap := b.gap + 1 }

/-- The error locator polynomial, lowest degree first, with the number of errors. -/
def RS.locator (c : RS) (s : List Nat) : List Nat × Nat :=
  let b := (List.range c.checks).foldl (c.bmStep s) ⟨[1], [1], 0, 1, 1⟩
  (b.loc, b.len)

/-- Value of a polynomial, lowest degree first. -/
def RS.evalLow (c : RS) (x : Nat) (p : List Nat) : Nat := c.eval x p.reverse

/-- Product of two polynomials, lowest degree first, cut to `n` terms. -/
def RS.polyMul (c : RS) (n : Nat) (a b : List Nat) : List Nat :=
  (List.range n).map (fun k => (List.range (k + 1)).foldl (fun r i => r ^^^ c.mul (a.getD i 0) (b.getD (k - i) 0)) 0)

/-- A received word decoded: the message symbols and how many symbols were corrected; none when it is uncorrectable. -/
def RS.decode (c : RS) (w : List Nat) : Option (List Nat × Nat) :=
  let s := c.syndromes w
  if s.all (fun x => x == 0) then some (w.take (w.length - c.checks), 0)
  else
    let (loc, len) := c.locator s
    if c.t < len then none else
    let om := c.polyMul c.checks s loc
    let dv := (List.range loc.length).map (fun i => if i % 2 = 0 then loc.getD (i + 1) 0 else 0)
    let fix (i : Nat) (x : Nat) : Nat × Bool :=
      let a := c.alpha (w.length - 1 - i)
      let ai := c.inv a
      if c.evalLow ai loc = 0 then (x ^^^ c.mul a (c.mul (c.evalLow ai om) (c.inv (c.evalLow ai dv))), true) else (x, false)
    let r := w.mapIdx fix
    let out := r.map (fun x => x.1)
    if (r.filter (fun x => x.2)).length = len ∧ (c.syndromes out).all (fun x => x == 0)
    then some (out.take (w.length - c.checks), len) else none

/-! ### A unit on a link or in a buffer (R378, R379) -/

/-- The six check symbols of a unit of at most 64 bytes (R378). -/
def checkBytes (msg : List Byte) : List Byte := (rs70.check (msg.map (fun b => b.toNat))).map (BitVec.ofNat 8)

/-- What a receiving unit makes of a codeword. -/
inductive Rx where
  | clean (msg : List Byte)
  | fixed (msg : List Byte)
  | lost
  deriving DecidableEq, Repr

/-- The codeword of `msg` with errors, (symbol, difference), as its receiver decodes it (R379). Of 5 or more symbols in
error the code promises nothing: the outcome and the bytes are free values, of number `ctr`. -/
def rxWord (ctr : Nat) (msg : List Byte) (errs : List (Nat × Byte)) : Rx :=
  let sent := rs70.encode (msg.map (fun b => b.toNat))
  let word := errs.foldl (fun (l : List Nat) (e : Nat × Byte) => l.modify e.1 (fun x => x ^^^ e.2.toNat)) sent
  let bad := ((List.zip sent word).filter (fun p => p.1 != p.2)).length
  if bad < 5 then
    match rs70.decode word with
    | none => .lost
    | some (m, n) => if n = 0 then .clean msg else .fixed (m.map (BitVec.ofNat 8))
  else
    let free := (List.range msg.length).map (Config.codeByte ctr)
    match Config.codeOutcome ctr % 3 with
    | 0 => .lost
    | 1 => .fixed free
    | _ => .clean free

end Sys2Proof.Machine
end

