-- ==== Sys2Proof/Machine/Block.lean ====
section
/-! DEFINITION. Blocks of the edge lanes (R315 to R320): header and frames as bits, message symbols and codewords, their
places on the lanes, and a received block read back. -/

namespace Sys2Proof.Machine

/-- The 25 B block header (R320). -/
def blockHdr (bnum : Nat) (nready spareOn : Bool) (spareLane spkg sep : Nat) (sfree : Bool) : List Byte :=
  toLE 6 0x9E2B71C4D5A8 ++ toLE 2 bnum
    ++ toLE 1 ((if nready then 1 else 0) + (if spareOn then 2 else 0) + spareLane % 4 * 4)
    ++ toLE 3 (spkg % 2 ^ 17 + sep % 64 * 2 ^ 17 + (if sfree then 2 ^ 23 else 0)) ++ List.replicate 13 0

/-- Bits of bytes, bit `i` of byte `b` at `8 b + i` (R319). -/
def byteBits (l : List Byte) : List Bool := l.flatMap (fun b => (List.range 8).map (fun i => bit b.toNat i))

/-- The number whose bit `i` is the `i`-th of a list. -/
def ofBits : List Bool → Nat
  | [] => 0
  | b :: t => (if b then 1 else 0) + 2 * ofBits t

/-- Cut a list into `n` parts of `w`. -/
def cutBits (w : Nat) : Nat → List Bool → List (List Bool)
  | 0, _ => []
  | n + 1, l => l.take w :: cutBits w n (l.drop w)

/-- The 5,140 message symbols of a block: bit `n` is bit `n mod 10` of symbol `n div 10` (R319). -/
def blockSyms (hdr : List Byte) (frames : List (List Byte)) : List Nat :=
  (cutBits 10 5140 (byteBits (fit 25 hdr) ++ frames.flatMap (fun f => byteBits (fit 256 f)))).map ofBits

/-- Cut a list of symbols into `n` parts of `w`. -/
def cutSyms (w : Nat) : Nat → List Nat → List (List Nat)
  | 0, _ => []
  | n + 1, l => l.take w :: cutSyms w n (l.drop w)

/-- The 5,440 symbols of a block: ten codewords, each its 514 message symbols and then its check symbols (R318, R319). -/
def blockCode (hdr : List Byte) (frames : List (List Byte)) : List Nat :=
  (cutSyms 514 10 (blockSyms hdr frames)).flatMap rs544.encode

/-- Symbols of logical lane `l` of a block: symbol `k` goes on lane `k mod 4` (R319). -/
def laneSyms (blk : List Nat) (l : Nat) : List Nat := (List.range ((blk.length + 3 - l) / 4)).map (fun i => blk.getD (4 * i + l) 0)

/-- Fill, on every lane in use for one fc after every 32nd block (R319). -/
def fillSym : Nat := 0x2AA

/-- The symbols of a block in their order, from those of its four logical lanes. -/
def ofLanes (a b c d : List Nat) : List Nat :=
  (List.range a.length).flatMap (fun i => [a.getD i 0, b.getD i 0, c.getD i 0, d.getD i 0])

/-- What each physical lane received in a block, from what each fc brought: per fc, for each of the five lanes, the ten
symbols of `el_rx_data`, or none where `el_rx_valid` was 0 (R315, R316). -/
def rxLane (rx : List (List (List Nat))) (lane : Nat) : List Nat := rx.flatMap (fun f => f.getD lane [])

/-- A received block: its header, its frames, each with whether an uncorrectable codeword overlaps it, and how many
codewords were corrected and how many were uncorrectable (R318, R320). -/
structure RxBlock where
  hdr : List Byte
  frames : List (List Byte × Bool)
  corr : Nat
  uncorr : Nat
  deriving DecidableEq, Repr

/-- Bytes of bits. -/
def bytesOf (n : Nat) (l : List Bool) : List Byte := (cutBits 8 n l).map (fun b => BitVec.ofNat 8 (ofBits b))

/-- Decode the codewords of a block: a word that is all 0 is the codeword of a zero message. -/
def decodeBlock (blk : List Nat) : RxBlock :=
  let ws := (cutSyms 544 10 blk).map (fun w =>
    if w.all (fun x => x == 0) then (w.take 514, some 0)
    else match rs544.decode w with
      | some (m, n) => (m, some n)
      | none => (w.take 514, none))
  let bs := ws.flatMap (fun x => (fitSyms 514 x.1).flatMap (fun s => (List.range 10).map (fun i => bit s i)))
  let ok (f : Nat) : Bool :=
    let lo := (200 + 2048 * f) / 5140
    let hi := (200 + 2048 * f + 2047) / 5140
    (List.range (hi + 1 - lo)).all (fun i => ((ws.getD (lo + i) ([], none)).2).isSome)
  { hdr := bytesOf 25 bs
    frames := (List.range 25).map (fun f => (bytesOf 256 (bs.drop (200 + 2048 * f)), ok f))
    corr := (ws.filter (fun x => match x.2 with | some n => n != 0 | none => false)).length
    uncorr := (ws.filter (fun x => x.2.isNone)).length }
where
  fitSyms (n : Nat) (l : List Nat) : List Nat := l ++ List.replicate (n - l.length) 0

/-- The symbols of a received block in their order, the spare lane standing in for the one it replaces (R317). -/
def rxSyms (spareOn : Bool) (spareLane : Nat) (rx : List (List (List Nat))) : List Nat :=
  let lane (l : Nat) : List Nat := rxLane rx (if spareOn && spareLane == l then 4 else l)
  ofLanes (lane 0) (lane 1) (lane 2) (lane 3)

end Sys2Proof.Machine
end

