-- ==== Sys2Proof/Machine/Link.lean ====
section
/-! DEFINITION. What travels on links and how it is received: sidebands, tag lanes and framing (R103, R134, R135), the
codewords of each unit (R28, R104, R378), corrected and uncorrectable codewords (R125, R140, R379), and packets taking
shape in input buffers (R139, R140, R151). -/

namespace Sys2Proof.Machine

/-! ### Layouts -/

/-- The 16-bit sideband of a narrow phit (R134). -/
def sideband (vc : Nat) (first last poison : Bool) : Nat :=
  vc % 16 + (if first then 16 else 0) + (if last then 32 else 0) + (if poison then 64 else 0)

/-- The sideband of an idle narrow phit (R134). -/
def idleSideband : Nat := sideband 0xF false false false

/-- The framing of a DAT piece, as it stands in `sigval` (R135). -/
def framing (p : Piece) : Nat :=
  p.pkt.vc % 16 + (if p.first then 16 else 0) + (if p.last then 32 else 0) + p.off / 64 % 256 * 256

/-- Bytes 0 to 11 of a cell's tag lane (R103, R135). -/
def Cell.tag (c : Cell) : List Byte :=
  match c.piece with
  | none => toLE 2 c.stag ++ toLE 1 c.count
      ++ toLE 1 ((if c.valid then 1 else 0) + (if c.poison then 2 else 0) + (if c.sig then 4 else 0))
      ++ toLE 8 (if c.sig then c.sigval else 0)
  | some p => toLE 2 0 ++ toLE 1 0 ++ toLE 1 (8 + (if p.poison then 2 else 0)) ++ toLE 8 (framing p)

/-- The tag lane as it travels: bytes 0 to 17, the last six its check symbols (R103, R104). -/
def Cell.tagLane (c : Cell) : List Byte := c.tag ++ checkBytes c.tag

/-- Bytes of a packet that a phit or piece carries, padded with zeros to `n` (R131). -/
def Piece.bytes (p : Piece) (n : Nat) : List Byte :=
  fit n (if p.got = [] then ((pktBytes p.pkt).drop p.off).take p.len else p.got)

/-- A cell's 64 B of payload, or the piece that a lent lane carries. -/
def Cell.payload (c : Cell) : List Byte :=
  match c.piece with
  | none => fit 64 c.data
  | some p => p.bytes 64

/-- Bytes 0 to 11 of the tag lane read back, with the payload (R103, R346). -/
def cellOf (b : List Byte) : Cell :=
  let f := le b 67 1
  { data := fit 64 b, stag := le b 64 2, count := le b 66 1, valid := bit f 0, poison := bit f 1, sig := bit f 2,
    sigval := le b 68 8 }

/-- A scheduled cell as a circuit frame carries it: payload, then tag lane bytes 0 to 11 (R346). -/
def Cell.bytes (c : Cell) : List Byte := fit 64 c.data ++ { c with piece := none }.tag

/-- A cell whose tag lane was taken for other bytes: its fields are those bytes'. A lane marked `dat` carries a piece of the
packet that the sender meant, placed by the framing received. -/
def Cell.retag (c : Cell) (t : List Byte) : Cell :=
  let f := le t 3 1
  let x := le t 4 8
  if bit f 3 then
    let p : Piece := c.piece.getD { pkt := {}, off := 0, first := false, last := false }
    { piece := some { p with
        pkt := { p.pkt with vc := bits x 0 4 }
        first := bit x 4
        last := bit x 5
        off := 64 * bits x 8 8
        poison := bit f 1
        got := c.payload } }
  else { cellOf (c.payload ++ t) with piece := none }

/-! ### Codewords -/

/-- The messages of the codewords that carry a narrow phit of width `n` (R378): the sideband and the phit, in two codewords
for a phit of 64 B. A piece of an attachment without lanes goes as a tag and a payload. -/
def Piece.words (p : Piece) (net n : Nat) : List (List Byte) :=
  if net = 3 then [Cell.tag { piece := some p }, p.bytes 64]
  else
    let b := toLE 2 (sideband p.pkt.vc p.first p.last p.poison) ++ p.bytes n
    if n < 64 then [b] else [b.take 34, b.drop 34]

/-- The codewords of a credit word (R151, R378). -/
def creditWord (cvc cnt : Nat) : List Byte := toLE 2 (cvc % 16 + cnt % 16 * 16)

/-- Errors of one codeword. -/
def errsOf (l : List Err) (word : Nat) : List (Nat × Byte) :=
  (l.filter (fun e => e.word == word)).map (fun e => (e.sym, e.flip))

/-- Take the next number of free values. -/
def W.fresh (w : W) : W := { w with freeCtr := w.freeCtr + 1 }

/-- A unit receives a codeword (R379): what it takes it for, none when it is uncorrectable; corrections and uncorrectable
codewords count at the unit's location (R384). -/
def W.rxCode (w : W) (u : Nat) (msg : List Byte) (errs : List (Nat × Byte)) : Option (List Byte) × W :=
  if errs = [] then (some msg, w) else
  match rxWord w.freeCtr msg errs with
  | .clean m => (some m, w.fresh)
  | .fixed m => (some m, w.fresh.corrAt (locOf u))
  | .lost => (none, w.fresh.uncorrAt (locOf u))

/-! ### Damaged packets (R140) -/

/-- Discard a damaged packet's header (R140): counted, a fault, no answer. -/
def W.hdrBad (w : W) (u : Nat) : W :=
  (if isRouter u then w.rtrCount u KRTR_WDOG_CNT.hdr_bad else w).fault clARB (locOf u)

/-- A payload phit or piece that is uncorrectable (R140): counted. -/
def W.payloadBad (w : W) (u : Nat) : W := if isRouter u then w.rtrCount u KRTR_ARB_EVT.uncorr else w

/-- The packet with bytes at an offset taken for others; what no byte carries stays the sender's. -/
def took (p : Packet) (off : Nat) (d : List Byte) : Packet :=
  let b := patch (pktBytes p) off (d.take ((pktBytes p).length - off))
  if off < p.headLen then { pktOf b with pois := p.pois, ans := p.ans, ref := p.ref, sref := p.sref, refs := p.refs }
  else { p with data := b.drop p.headLen }

/-- `n` bytes that nothing brought: free values. -/
def freeBytes (ctr n : Nat) : List Byte := (List.range n).map (Config.codeByte ctr)

/-- A narrow phit, or a piece of an attachment link, as its receiver takes it (R134, R140, R378): a lost codeword of the
header is marked `dead`, one of the payload poisons the phit. `n` is the phit's width. -/
def W.rxPhit (w : W) (u net n : Nat) (p : Piece) (errs : List Err) : Piece × W :=
  if errs = [] then (p, w) else
  let head := p.off < p.pkt.headLen
  let ws := p.words net n
  match w.rxCode u (ws.headD []) (errsOf errs 0) with
  | (none, w) =>
    if net = 3 ∨ head then ({ p with dead := true }, w) else ({ p with poison := true }, w.payloadBad u)
  | (some a, w) =>
    let p1 : Piece :=
      if a = ws.headD [] then p
      else if net = 3 then (Cell.retag { piece := some p } a).piece.getD p
      else
        let sb := le a 0 2
        { p with
          first := bit sb 4
          last := bit sb 5
          poison := bit sb 6
          got := (a ++ ws.tail.flatten).drop 2 }
    match ws.tail with
    | [] => (p1, w)
    | m :: _ =>
      match w.rxCode u m (errsOf errs 1) with
      | (none, w) =>
        if net ≠ 3 ∧ p.off + 32 < p.pkt.headLen then ({ p1 with dead := true }, w)
        else if net = 3 ∧ head then ({ p1 with dead := true }, w) else ({ p1 with poison := true }, w.payloadBad u)
      | (some b, w) =>
        if b = m then (p1, w) else ({ p1 with got := if net = 3 then b else (p1.bytes n).take 32 ++ b }, w)

/-! ### Buffers -/

/-- Owe credits for phits that left an input buffer (R151). -/
def W.owe (w : W) (u p vc n : Nat) : W :=
  { w with net.owed := Tbl.set 0 w.net.owed (qKey u p vc) (Tbl.get 0 w.net.owed (qKey u p vc) + n) }

/-- Replace, or remove, the buffer at place `i`. -/
def W.setNth (w : W) (u p vc i : Nat) (b : Buf) : W := w.setBuf u p vc ((w.buf u p vc).set i b)
def W.delNth (w : W) (u p vc i : Nat) : W := w.setBuf u p vc ((w.buf u p vc).eraseIdx i)

/-- Phits of an input buffer that a packet holds. -/
def Buf.phits (b : Buf) (u p vc : Nat) : Nat := Machine.phits b.arrived (phitB u p (netOf vc))

/-- Drop a packet in an input buffer: its phits are returned, later ones are discarded as they come. -/
def W.dropNth (w : W) (u p vc i : Nat) : W :=
  match (w.buf u p vc)[i]? with
  | none => w
  | some b =>
    let n := b.phits u p vc
    let w := if p < 48 then w.owe u p vc (n - b.freed) else w
    if b.last then w.delNth u p vc i
    else w.setNth u p vc i { b with drop := true, routed := true, copies := [], freed := n }

/-- A packet ends before its `len` is covered: it is poisoned over its whole length (R140); bytes that never came are free
values. -/
def Buf.short (b : Buf) (ctr : Nat) : Buf :=
  let p := b.pkt
  let have_ := b.arrived - min b.arrived p.headLen
  { b with last := true, pkt := { p with data := p.data.take have_ ++ freeBytes ctr (p.len - have_) }.poisonAll }

/-- The copies that a routed packet has in its buffer follow a change of its payload and poison. -/
def Buf.sync (b : Buf) : Buf :=
  { b with copies := b.copies.map (fun c => { c with pkt := { c.pkt with data := b.pkt.data, pois := b.pkt.pois } }) }

/-- A packet whose first phit was lost or cannot be trusted: discarded through its `last` (R140). -/
def W.openBad (w : W) (u p : Nat) (pc : Piece) (k : Nat) : W :=
  let vc := pc.pkt.vc
  let w := (w.owe u p vc k).hdrBad u
  if pc.last then w
  else w.setBuf u p vc (w.buf u p vc ++ [{ pkt := pc.pkt, arrived := pc.len, drop := true, routed := true, freed := k }])

/-- An answer that the registers of a fenced station give Miomus or the host (R406; DEDUCED, log). -/
def sinkBack (p : Packet) : Bool := (isAnswer p.op || (p.op == 0x70 && p.ans == 0x70)) && (p.dst == 0x880 || p.dst == 0x881)

/-- The first phit of a packet opens its buffer; at the port facing a station fenced for every context it is discarded
(R405). A packet of the VC that is still open has lost its `last`. Answers at an endpoint hold no space in its input
buffer (R129). -/
def W.openPkt (w : W) (u p : Nat) (pc : Piece) (k : Nat) : W :=
  let vc := pc.pkt.vc
  let w := match (w.buf u p vc).findIdx? (fun b => !b.last) with
    | some i => (match (w.buf u p vc)[i]? with
      | some b => if b.drop then w.delNth u p vc i else (w.setNth u p vc i (b.short w.freeCtr).sync).fresh
      | none => w)
    | none => w
  if isRouter u && w.isSink u p && !sinkBack pc.pkt then
    let w := (w.inc (rtrB u) KRTR_SINK_CNT.sink_drop).owe u p vc k
    if pc.last then w
    else w.setBuf u p vc (w.buf u p vc
      ++ [{ pkt := pc.pkt, arrived := pc.len, seq := pc.seq, drop := true, routed := true, freed := k }])
  else if pc.dead then w.openBad u p pc k
  else
    let pkt := if pc.got = [] then pc.pkt else took pc.pkt pc.off pc.got
    let pkt := if pc.poison then pkt.poisonAt pc.off pc.len else pkt
    let rsp := !isRouter u && netOf vc == 1
    let b : Buf := { pkt := pkt, arrived := pc.len, last := pc.last, seq := pc.seq, freed := if rsp then k else 0 }
    let b := if b.last ∧ b.arrived < pkt.size then b.short w.freeCtr else b
    let w := if b.last ∧ pc.len < pkt.size then w.fresh else w
    (if rsp then w.owe u p vc k else w).setBuf u p vc (w.buf u p vc ++ [b])

/-- A later phit joins its packet: pieces that an index skips are zero and poisoned, phits beyond `len` are discarded and
poison the packet, a `last` that comes early ends it poisoned (R140). -/
def W.joinPkt (w : W) (u p i : Nat) (b : Buf) (pc : Piece) (k : Nat) : W :=
  let vc := pc.pkt.vc
  if b.drop then
    let b := { b with arrived := b.arrived + pc.len, last := pc.last }
    let w := w.owe u p vc k
    if pc.last then w.delNth u p vc i else w.setNth u p vc i { b with freed := b.phits u p vc }
  else if pc.dead ∧ pc.off < b.pkt.headLen then
    let w := (w.setNth u p vc i { b with arrived := b.arrived + pc.len, last := pc.last }).dropNth u p vc i
    w.hdrBad u
  else if b.pkt.size ≤ b.arrived then
    (w.owe u p vc k).setNth u p vc i ({ b with last := pc.last, pkt := b.pkt.poisonAll }).sync
  else
    let gap := if netOf vc = 3 then pc.off - b.arrived else 0
    let pkt := if gap = 0 then b.pkt
      else (took b.pkt b.arrived (List.replicate gap 0)).poisonAt b.arrived gap
    let off := b.arrived + gap
    let pkt := if pc.got = [] then pkt else took pkt off pc.got
    let pkt := if pc.poison ∨ pc.dead then pkt.poisonAt off pc.len else pkt
    let rsp := !isRouter u && netOf vc == 1
    let b : Buf := { b with
      pkt := { pkt with pois := pkt.pois ||| pc.pkt.pois }
      arrived := off + pc.len
      last := pc.last
      freed := if rsp then b.freed + k else b.freed }
    let early := b.last && decide (b.arrived < b.pkt.size)
    let w := if rsp then w.owe u p vc k else w
    if early then (w.setNth u p vc i (b.short w.freeCtr).sync).fresh else w.setNth u p vc i b.sync

/-- The operations that an endpoint is a target of, or an answer to it: a station, a memory port, the FMP and the host; an
edge port carries what its list names (R332). -/
def servedAt (u op : Nat) : Bool :=
  if u < 0x2000 then
    [0x01, 0x02, 0x03, 0x09, 0x0A, 0x0B, 0x0C, 0x0D, 0x0E, 0x20, 0x21, 0x22, 0x33, 0x41, 0x50, 0x51, 0x52, 0x60, 0x70].contains op
  else if u < 0x2040 then
    [0x01, 0x02, 0x04, 0x05, 0x06, 0x07, 0x08, 0x0A, 0x0C, 0x40, 0x42, 0x58, 0x59, 0x60, 0x70].contains op
  else if u < 0x2080 then true
  else [0x01, 0x02, 0x03, 0x0A, 0x0B, 0x0C, 0x0E, 0x60, 0x70].contains op

/-- A target cannot perform a packet: a reserved or malformed operation (R132), or one of another kind of target (log). A
packet through an edge port has its `ack` set (R334). -/
def badAt (u : Nat) (p : Packet) : Bool :=
  !servedAt u p.op || !((u < 0x2080 && 0x2040 ≤ u) || opOk p || opOk { p with ack := false })

/-- A whole packet at an endpoint that it cannot perform is taken out of its buffer and answered BADOP (R18, R132); answers,
and operations that no packet answers, are discarded. -/
def W.screen (w : W) (u p vc : Nat) : W :=
  match (w.buf u p vc).findIdx? (fun b => b.last && !b.drop && badAt u b.pkt) with
  | none => w
  | some i => match (w.buf u p vc)[i]? with
    | none => w
    | some b =>
      let q := b.pkt
      let w := w.dropNth u p vc i
      if isAnswer q.op || [0x0D, 0x21, 0x22, 0x33, 0x41].contains q.op || (q.herdMode && !q.ack) then w
      else w.cmp u q BADOP (if q.op = 0x20 then hdLines q.data else if q.op = 0x40 then popc (le q.ext 12 2) 16 else 0)

/-- A phit or piece arrives at an input (R139, R151). -/
def W.arriveAt (w : W) (u p : Nat) (pc : Piece) : W :=
  let vc := pc.pkt.vc
  let w := if 0x2080 ≤ u ∨ isRouter u then w else if u < 0x2000 then w.util u 0xD78 pc.len else w.util u 0xD60 pc.len
  let k := phits pc.len (phitB u p (netOf vc))
  if pc.first then w.openPkt u p pc k
  else match (w.buf u p vc).findIdx? (fun b => !b.last) with
    | none => w.openBad u p pc k
    | some i => match (w.buf u p vc)[i]? with
      | none => w
      | some b => w.joinPkt u p i b pc k

/-- An endpoint takes every phit of RSP as it comes (R129): its credits are due at once. -/
def W.acceptRsp (w : W) (u p vc : Nat) : W :=
  let l := w.buf u p vc
  let k := l.foldl (fun n b => n + (b.phits u p vc - b.freed)) 0
  (w.owe u p vc k).setBuf u p vc (l.map (fun (b : Buf) => { b with freed := max b.freed (b.phits u p vc) }))

/-- A phit or piece arrives; an endpoint takes RSP at once and looks at a packet that is whole (R129, R132). -/
def W.landAt (w : W) (u p : Nat) (pc : Piece) : W :=
  let w := w.arriveAt u p pc
  if isRouter u then w
  else (if netOf pc.pkt.vc = 1 then w.acceptRsp u p pc.pkt.vc else w).screen u p pc.pkt.vc

/-- The latency sample of an answer whose last phit reaches a station (R492). -/
def W.answered (w : W) (u : Nat) (pkt : Packet) (last : Bool) : W :=
  if last && 0x1000 ≤ u && u < 0x2000 && isAnswer pkt.op then
    match w.reqOf u pkt with
    | some (_, r) => match r.grant with
      | some t => if r.need ≤ 1 then w.sample (capKey 0 (u - 0x1000) r.pkt.vc) (w.fc - t) r.pkt.ctx else w
      | none => w
    | none => w
  else w

/-- Deliver a phit, or a piece of an attachment link, to the other end of a link, with the errors it meets. The order of
injection is known on an endpoint's own link alone. -/
def W.overLink (w : W) (u p : Nat) (pc : Piece) (errs : List Err) : W :=
  match w.peer u p with
  | none => w
  | some (v, pv) =>
    let pc := if isRouter u then { pc with seq := 0 } else pc
    let (pc, w) := w.rxPhit v (netOf pc.pkt.vc) (phitB u p (netOf pc.pkt.vc)) pc errs
    (w.landAt v pv pc).answered v pc.pkt pc.last

end Sys2Proof.Machine
end

