-- ==== Sys2Proof/Machine/Lottery.lean ====
section
/-! DEFINITION. The lottery arbiter's parts (R154 to R162): seed, LFSR, ticket weights, the draw, quotas. -/

namespace Sys2Proof.Machine

/-- Unit type and index of a unit (R76, R156). -/
def State.utype (s : State) (u : Nat) : Nat × Nat :=
  if isCR u then (1, u) else if isRR u then (2, u - 0x240) else if isTine u then (3, u - 0x300)
  else if isBeam u then (4, (s.beamBy (u - 0x340)).getD (u - 0x340))
  else if u < 0x2000 then (0, u - 0x1000) else if u < 0x2040 then (5, u - 0x2000)
  else if u < 0x2080 then (6, u - 0x2040) else (7, u - 0x2080)

/-- The seed of an arbiter (R156). -/
def State.arbSeed (s : State) (u port net : Nat) : Nat :=
  let (ty, ix) := s.utype u
  let a := ty * 2 ^ 28 ||| (ix * 2 ^ 12) ||| (port * 16) ||| net
  let x := bits (s.fuse.arbSeed ^^^ ((a * 0x9E3779B9) % 2 ^ 32)) 24 8
  if x = 0 then 1 else x

/-- One step of the LFSR (R156). -/
def lfsrStep (x : Nat) : Nat :=
  let b := (bits x 7 1 + bits x 3 1 + bits x 2 1 + bits x 1 1) % 2
  (2 * x + b) % 256

/-- The window whose weights, quota and watchdog an arbiter uses: its unit's; the FMP and the host use the tine they
attach to (R153). -/
def setB (u : Nat) : Nat := if u = uFmp then rtrB (uTine 0) else if u = uHost then rtrB (uTine 16) else unitB u

/-- The ticket weight of a VC (R154, R176). -/
def State.weightOf (s : State) (b vc : Nat) : Nat :=
  match vc with
  | 0 => s.rdOld b KRTR_TKW0.w_ctl
  | 1 => s.rdOld b KRTR_TKW0.w_mrq
  | 2 => s.rdOld b KRTR_TKW0.w_msg
  | 3 => s.rdOld b KRTR_TKW1.w_cmp
  | 4 => s.rdOld b KRTR_TKW1.w_crd
  | 5 => s.rdOld b KRTR_TKW1.w_snp
  | 6 => s.rdOld b KRTR_TKW2.w_wdt
  | 7 => s.rdOld b KRTR_TKW2.w_msgl
  | 8 => s.rdOld b KRTR_TKW2.w_fol
  | _ => s.rdOld b KRTR_TKW2.w_pool

def arbKey (u port net : Nat) : Nat := (u * 64 + port) * 4 + net
def State.arb (s : State) (u port net : Nat) : Arb :=
  (s.net.arbs.find (arbKey u port net)).getD { lfsr := s.arbSeed u port net }
def W.setArb (w : W) (u port net : Nat) (a : Arb) : W := { w with net.arbs := w.net.arbs.put (arbKey u port net) a }

/-- Quota counts stand at herd time `t`: no window has begun since the last counted grant, nor, under a new `q_win_log2`,
since that was written (R162, R164). -/
def State.quotaStands (s : State) (b : Nat) (a : Arb) (t : Nat) : Bool :=
  let k := 2 ^ s.rdOld b KRTR_QUOTA.q_win_log2
  t / k == a.qwin / k || (match s.net.qWrite.find b with | some h => t / k == h / k | none => false)

/-- A requester has used its quota in the window of herd time `t`, that of the fc that a decision is for (R162). -/
def State.qMasked (s : State) (b : Nat) (a : Arb) (src vc : Nat) (t : Nat) : Bool :=
  bit (s.rdOld b KRTR_QUOTA.hp_mask) vc && s.quotaStands b a t
    && s.rdOld b KRTR_QUOTA.q_max ≤ Tbl.get 0 a.quota (src * 16 + vc)

/-- Count a grant, with its decision, against the window of herd time `t` in which it is used (R162). -/
def State.countGrant (s : State) (b : Nat) (a : Arb) (src vc t : Nat) : Arb :=
  if !bit (s.rdOld b KRTR_QUOTA.hp_mask) vc then a else
  let q := if s.quotaStands b a t then a.quota else []
  { a with quota := q.put (src * 16 + vc) (Tbl.get 0 q (src * 16 + vc) + 1), qwin := t }

/-- The ticket list: each requester as many times as its VC's weight (R154). -/
def State.tickets (s : State) (b : Nat) (l : List (Nat × Nat)) : List (Nat × Nat) :=
  l.flatMap (fun r => List.replicate (s.weightOf b r.2) r)

/-- The draw (R158): the owner of the first value, from the LFSR's in ring order, whose requester is eligible. -/
def drawFrom (l : List (Nat × Nat)) (ok : Nat × Nat → Bool) : Nat → Nat → Option (Nat × Nat)
  | 0, _ => none
  | f + 1, x =>
    match l[(x - 1) % l.length]? with
    | some r => if ok r then some r else drawFrom l ok f (if x < 255 then x + 1 else 1)
    | none => none

end Sys2Proof.Machine
end

