-- ==== Sys2Proof/Machine/Edge.lean ====
section
/-! DEFINITION. Edge ports and the Gowick link (chapter 9): lanes and frames, link retry, end-to-end transport, proxies,
spraying, shaping and policing, circuit windows, spine slots. -/

namespace Sys2Proof.Machine

def State.epS (s : State) (e : Nat) : Ep := Tbl.get {} s.ep e
def W.setEp (w : W) (e : Nat) (v : Ep) : W := { w with ep := Tbl.set {} w.ep e v }
def W.epMod (w : W) (e : Nat) (f : Ep → Ep) : W := w.setEp e (f (w.epS e))

/-! ### Lanes and blocks -/

/-- Physical lanes in use (R317). -/
def State.lanesUsed (s : State) (e : Nat) : List Nat :=
  let b := epB e
  (List.range 4).map (fun l => if s.rd b KEDG_LANE.spare_on = 1 ∧ s.rd b KEDG_LANE.spare_lane = l then 4 else l)

/-- A change of `link_up`, with its interrupt event (R365). -/
def W.setLinkUp (w : W) (e v : Nat) : W :=
  if w.rd (epB e) KEDG_STAT.link_up = v then w else (w.wr (epB e) KEDG_STAT.link_up v).irqP (48 + e)

/-- Frames of a VC code that the receive buffer holds (R325): of packets that nothing has taken yet, and of one that is
still coming in. -/
def Ep.heldFrames (p : Ep) (vc : Nat) : Nat :=
  (p.inq.filter (fun x => x.1 == vc)).foldl (fun n x => n + x.2.1) 0 + (Tbl.get ([], 0) p.asm_ vc).2

/-- Link credits that a receiver gives at the start of a link: its free frames of each VC code (R324, R325). -/
def Ep.freeFrames (p : Ep) : Tbl Nat := (List.range 12).map (fun v => (v, 32 - p.heldFrames v))

/-- A packet leaves the receive buffer: its frames are owed as credits (R325). -/
def W.takeEdge (w : W) (e : Nat) (x : Nat × Nat × List Byte) : W :=
  w.epMod e (fun p => { p with
    inq := p.inq.erase x
    owed := Tbl.set 0 p.owed x.1 (Tbl.get 0 p.owed x.1 + x.2.1) })

/-- The link stops (R324): replay buffer discarded, credits 0, fragments half received or half sent lost. -/
def W.linkStop (w : W) (e : Nat) : W :=
  (w.setLinkUp e 0).epMod e (fun p => { p with
    replay := [], resend := [], cred := [], owed := [], txSeq := 0, rxSeq := 4095, rxValid := false, nak := false
    sawCred := false, asm_ := []
    redxDone := p.redxDone ++ (((p.eq.find 11).getD []).filter (fun o => o.sent != 0)).map (fun (o : EOut) => (o.peer, o.psn))
    eq := p.eq.map (fun x => (x.1, x.2.filter (fun o => o.sent == 0))) })

/-- Lane lock is lost (R320, R324). -/
def W.lockLoss (w : W) (e : Nat) : W :=
  if w.rd (epB e) KEDG_STAT.lane_lock = 0 then w
  else ((w.wr (epB e) KEDG_STAT.lane_lock 0).linkStop e).epMod e (fun p => { p with good := 0, badN := 0, rxFr := [] })

/-- A lane group in use loses lane lock (R382): class LINK, and Miomus is told to escalate it (R385). -/
def W.lockFault (w : W) (e : Nat) : W :=
  if w.rd (epB e) KEDG_STAT.lane_lock = 0 then w else
  let w := (w.lockLoss e).fault clLINK (locEp e)
  { w with flt.escal := w.flt.escal ++ [locEp e] }

/-- LANE_LOCK_GAIN (R320, R324): after 4 consecutive blocks with a correct `sync`, with the optical engine ready, the
receiver has lane lock and the link starts: receive buffers are empty and their credits go to the peer. `lane` below 5
is a lane on which signal is detected. -/
def effLaneLockGain (e lane : Nat) (w : W) : W :=
  let w := if lane < 5 then w.wr (epB e) KEDG_LANE.sig (setBit (w.rd (epB e) KEDG_LANE.sig) lane true) else w
  let p := w.epS e
  if p.good < 4 ∨ !p.oeReady ∨ w.rd (epB e) KEDG_STAT.lane_lock = 1 then w else
  let w := (w.wr (epB e) KEDG_STAT.lane_lock 1).inc (epB e) KEDG_STAT.relocks
  (w.linkStop e).epMod e (fun p => { p with owed := p.freeFrames })

/-- LANE_LOCK_LOSS (R320): signal falls on `lane`, or, with `lane` 5, 4 consecutive blocks had no correct `sync`. -/
def effLaneLockLoss (e lane : Nat) (w : W) : W :=
  if lane < 5 then
    let w := w.wr (epB e) KEDG_LANE.sig (setBit (w.rd (epB e) KEDG_LANE.sig) lane false)
    if (w.lanesUsed e).contains lane then w.lockFault e else w
  else if 4 ≤ (w.epS e).badN then w.lockFault e else w

/-- OE_READY_CHANGE (R350): with `el_oe_ready` 0 no lane is enabled and there is no lane lock. -/
def effOeReadyChange (e : Nat) (level : Bool) (w : W) : W :=
  let en := (w.lanesUsed e).foldl (fun m l => setBit m l true) 0
  let w := w.epMod e (fun p => { p with oeReady := level, oeRst := false, txEn := if level then en else 0 })
  if level then w else w.lockFault e

/-- LANE_MAP_WRITE (R317): a write of KEDG_LANE drops lane lock, and the new map holds from then on. -/
def effLaneMapWrite (e v : Nat) (who : Who) (w : W) : W :=
  if !who.priv then w else
  let w := w.lockLoss e
  let w := (w.wr (epB e) KEDG_LANE.spare_on (bits v 0 1)).wr (epB e) KEDG_LANE.spare_lane (bits v 1 2)
  let en := (w.lanesUsed e).foldl (fun m l => setBit m l true) 0
  w.epMod e (fun p => { p with txEn := if p.oeReady then en else 0 })

/-- LINK_UP (R324): lane lock, a block header with `nready` 0 and a credit word from the peer. -/
def W.tryLinkUp (w : W) (e : Nat) : W :=
  if w.rd (epB e) KEDG_STAT.lane_lock = 1 ∧ w.rd (epB e) KEDG_STAT.peer_nready = 0 ∧ (w.epS e).sawCred then w.setLinkUp e 1
  else w

/-- A received block's header (R320): a correct `sync` counts towards lane lock; a header that decoded gives the peer's
readiness and identity and, inside an open window, checks the peer (R345). -/
def W.takeHeader (w : W) (e : Nat) (h : List Byte) (ok : Bool) : W :=
  let b := epB e
  if le h 0 6 ≠ 0x9E2B71C4D5A8 then
    w.epMod e (fun p => { p with good := 0, badN := min 4 (p.badN + 1) })
  else if !ok then w.epMod e (fun p => { p with good := min 4 (p.good + 1), badN := 0 })
  else
    let pkg := bits (le h 9 3) 0 17
    let ep := bits (le h 9 3) 17 6
    let w := w.epMod e (fun p => { p with good := min 4 (p.good + 1), badN := 0, peerPkg := pkg, peerEp := ep })
    let w := w.wr b KEDG_STAT.peer_nready (bits (le h 8 1) 0 1)
    let w := w.tryLinkUp e
    match w.rd b KEDG_CW_STAT.cw_open, (w.epS e).cw.find (w.rd b KEDG_CW_STAT.cw_next) with
    | 1, some c =>
      if (c.pkg ≠ pkg ∨ c.ep ≠ ep) ∧ !(w.epS e).cwBad then
        (w.inc b KEDG_CW_EVT2.cw_peer_bad).epMod e (fun p => { p with cwBad := true })
      else w
    | _, _ => w

/-- Codewords that the decoder corrected or found uncorrectable are counted (R318, R379, R384). -/
def W.fecCount (w : W) (e corr uncorr : Nat) : W :=
  let w := (w.inc (epB e) KEDG_FEC.fec_corr corr).inc (epB e) KEDG_FEC.fec_uncorr uncorr
  (w.each (List.range corr) (fun w _ => w.corrAt (locEp e))).each (List.range uncorr) (fun w _ => w.uncorrAt (locEp e))

/-- The place in its block, by fc of what a lane received, of the first symbol of frame `f`'s control cell (R319, R329). -/
def frameFc (spareOn : Bool) (spareLane : Nat) (rx : List (List (List Nat))) (f : Nat) : Nat :=
  let m := (200 + 2048 * f) / 10
  let k := 544 * (m / 514) + m % 514
  let lane := if spareOn && spareLane == k % 4 then 4 else k % 4
  let rec go : List (List (List Nat)) → Nat → Nat
    | [], _ => 0
    | x :: t, n => if n < (x.getD lane []).length then 0 else 1 + go t (n - (x.getD lane []).length)
  go rx (k / 4)

/-- BLOCK_HEADER_RECEIVE (R315 to R320): the last symbols of a block have been presented: `rx` holds, for each fc from its
first, what each physical lane brought of it. Its codewords are decoded, its header taken, and, with lane lock, its frames
wait to be taken. -/
def effBlockHeaderReceive (e : Nat) (rx : List (List (List Nat))) (w : W) : W :=
  let b := epB e
  let on := w.rd b KEDG_LANE.spare_on == 1
  let sl := w.rd b KEDG_LANE.spare_lane
  let blk := decodeBlock (rxSyms on sl rx)
  let locked := w.rd b KEDG_STAT.lane_lock == 1
  let w := (w.fecCount e blk.corr blk.uncorr).takeHeader e blk.hdr ((blk.frames.head?.map (fun f => f.2)).getD false)
  if !locked then w else
  let at_ (f : Nat) : Nat := (w.herdTime + 2 ^ 64 - (rx.length - 1 - frameFc on sl rx f)) % 2 ^ 64
  let fr := (blk.frames.zip (List.range 25)).map (fun x => ({ bytes := x.1.1, ok := x.1.2, at_ := at_ x.2 } : RxFrame))
  w.epMod e (fun p => { p with rxFr := p.rxFr ++ fr })

/-! ### Sending frames -/

/-- The block is in the fault state or in proof hold (R350). -/
def State.edgeFault (s : State) : Bool := s.inFault
def State.edgeHold (s : State) : Bool := s.rd fltB KFLT_STATE.fstate == 3

/-- Sequenced frames may be sent (R324, R345, R350). -/
def State.seqOk (s : State) (e : Nat) : Bool :=
  s.rd (epB e) KEDG_STAT.link_up == 1 && s.rd (epB e) KEDG_STAT.peer_nready == 0 && (s.epS e).cwPhase == 0
    && !s.edgeFault && !s.edgeHold

/-- A frame enters the block being sent; the first one after 25 begins a new block with its header (R319, R320, R350). -/
def W.putFrame (w : W) (e : Nat) (f : List Byte) : W :=
  let b := epB e
  w.epMod e (fun p =>
    if p.blkHdr = [] ∨ 25 ≤ p.blkFrames.length then
      { p with
        blkHdr := blockHdr p.bnum (w.edgeHold || w.edgeFault) (w.rd b KEDG_LANE.spare_on == 1) (w.rd b KEDG_LANE.spare_lane)
          w.pkgNum e (w.rd hrdB KHRD_STATUS.free_run == 1)
        blkFrames := [f]
        blkFc := w.fc
        bnum := (p.bnum + 1) % 65536 }
    else { p with blkFrames := p.blkFrames ++ [f] })

/-- `el_tx_data` of a physical lane in this fc, ten symbols (R315, R317, R319): of the block begun at `blkFc`, then one fc
of fill after every 32nd block. -/
def State.elTx (s : State) (e lane : Nat) : List Nat :=
  let p := s.epS e
  if !bit p.txEn lane ∨ p.blkHdr = [] then [] else
  let l := if lane = 4 then s.rd (epB e) KEDG_LANE.spare_lane else lane
  let n := s.fc - p.blkFc
  if n < 136 then ((laneSyms (blockCode p.blkHdr p.blkFrames) l).drop (10 * n)).take 10
  else if p.bnum % 32 = 0 then List.replicate 10 fillSym else []

/-- Put a frame on the lanes with this control cell: the oldest owed credits, `lack`, `lnak` (R321, R323, R325). -/
def W.sendFrame (w : W) (e ftype vc lseq : Nat) (sof eof : Bool) (body : List Byte) : W :=
  let p := w.epS e
  let (cv, cn) := match p.owed with
    | [] => (0, 0)
    | (v, n) :: _ => (v, min 15 n)
  let f := frameBytes ftype vc lseq p.rxSeq sof eof p.nak p.rxValid (cv + 16 * cn) body
  let w := (w.epMod e (fun p => { p with nak := false, owed := Tbl.set 0 p.owed cv (Tbl.get 0 p.owed cv - cn) })).putFrame e f
  let u := uEp e
  if ftype = 0 then w.ev u 0x65 else
  let w := w.util u 0xD70 256
  if ftype = 1 ∨ ftype = 2 ∨ ftype = 5 then w.ev u 0x60 else w

/-- Send the next fragment of the packet at the head of a VC code's egress queue (R321, R323, R325). -/
def W.sendFrag (w : W) (e vc : Nat) : W :=
  let p := w.epS e
  match p.eq.find vc with
  | some (o :: rest) =>
    let body := (o.bytes.drop o.sent).take 240
    let sof := o.sent == 0
    let sent := o.sent + body.length
    let eof := o.bytes.length ≤ sent
    let ft := if vc = 10 then 2 else if vc = 11 then 5 else 1
    let w := w.sendFrame e ft vc p.txSeq sof eof body
    let redx := vc = 11 ∧ eof
    let w := if redx then w.inc (epB e) KEDG_SPN_EVT.redx_sent 1 (o.peer / 16) else w
    let now := w.fc
    w.epMod e (fun p => { p with
      txSeq := (p.txSeq + 1) % 4096
      replay := p.replay ++ [{ lseq := p.txSeq, ftype := ft, vc := vc, sof := sof, eof := eof, body := body }]
      cred := Tbl.set 0 p.cred vc (Tbl.get 0 p.cred vc - 1)
      redxDone := if redx then p.redxDone ++ [(o.peer, o.psn)] else p.redxDone
      eq := if eof then (if rest = [] then p.eq.del vc else p.eq.put vc rest) else p.eq.put vc ({ o with sent := sent } :: rest)
      conns := if sof ∧ vc < 10 then p.conns.modify o.peer (fun c => { c with
          outst := c.outst.map (fun x => if x.hdr.psn = o.psn then { x with lastFc := now, sends := x.sends + 1 } else x) })
        else p.conns })
  | _ => w

/-- The queue of a VC code has a fragment to send: credit, room in the replay buffer, and a first fragment's context not
frozen (R157, R163, R323). -/
def State.fragOk (s : State) (e vc : Nat) : Bool :=
  let p := s.epS e
  p.replay.length < 512 && 0 < Tbl.get 0 p.cred vc &&
  match p.eq.find vc with
  | some (o :: _) => 0 < o.sent || vc ≥ 10 || !s.frozen (uEp e) o.ctx
  | _ => false

/-- FRAME_BOUNDARY (R326, R328, R345, R350): the next frame is filled from the first source of R326 that has something
to send. -/
def effFrameBoundary (e : Nat) (w : W) : W :=
  let b := epB e
  let p := w.epS e
  if !p.oeReady ∨ p.txEn = 0 then w else
  let idle (w : W) : W := w.sendFrame e 0 0 p.txSeq false false []
  let tw := w.rd b KEDG_TIME_CFG.tw_log2
  if w.edgeFault then idle w
  else if w.herdTime / 2 ^ tw ≠ p.timeFc then
    let w := w.epMod e (fun p => { p with timeFc := w.herdTime / 2 ^ tw })
    let mlk := w.lkEdge
    let hops := if mlk then min 255 (w.rd (epB (w.rd hrdB KHRD_STATUS.ref_port)) KEDG_TIME_STAT.thops + 1) else 255
    let body := toLE 8 (w.herdTime + w.rd b KEDG_TIME_CFG.tx_lat) ++ toLE 8 p.peerTx ++ toLE 8 p.peerRecv
      ++ toLE 1 (if mlk then 1 else 0) ++ toLE 1 hops
    w.sendFrame e 3 0 p.txSeq false false body
  else if w.edgeHold then idle w
  else if p.cwPhase ≠ 0 then
    match p.cw.find (w.rd b KEDG_CW_STAT.cw_next) with
    | some c =>
      if p.cwPhase = 2 ∧ c.tOpen + 8 ≤ w.herdTime ∧ w.herdTime + 8 < c.tClose ∧ p.txq ≠ []
          ∧ w.rd hrdB KHRD_STATUS.state = 2 ∧ w.rd hrdB KHRD_STATUS.free_run = 0 then
        let cells := p.txq.take 3
        let w := w.epMod e (fun p => { p with txq := p.txq.drop 3 })
        (w.wr b KEDG_CW_STAT.cw_txq (p.txq.length - cells.length)).sendFrame e 4 0 p.txSeq false false
          (cells.flatMap Cell.bytes)
      else idle w
    | none => idle w
  else if !w.seqOk e then idle w
  else match p.resend with
  | f :: rest =>
    (w.sendFrame e f.ftype f.vc f.lseq f.sof f.eof f.body).epMod e (fun p => { p with resend := rest })
  | [] =>
    let a := w.arb (uEp e) 1 0
    let hp := [0, 1, 2, 3, 4, 6, 7, 8, 9].find? (fun vc =>
      bit (w.rdOld b KRTR_QUOTA.hp_mask) vc && w.fragOk e vc && !w.qMasked b a 0 vc w.herdTime)
    match hp with
    | some vc => (w.sendFrag e vc).setArb (uEp e) 1 0 (w.countGrant b a 0 vc w.herdTime)
    | none =>
      if w.fragOk e 10 then w.sendFrag e 10 else
      let can (r : Nat × Nat) : Bool :=
        (w.fragOk e r.2 || (r.2 == 6 && w.fragOk e 11)) && !w.qMasked b a 0 r.2 w.herdTime
      let reqs : List (Nat × Nat) := [0, 1, 2, 3, 4, 6, 7, 8, 9].map (fun vc => (0, vc))
      if !reqs.any can then idle w else
      let x := lfsrStep a.lfsr
      let w := w.setArb (uEp e) 1 0 { a with lfsr := x }
      match drawFrom (w.tickets b reqs) can 256 x with
      | none => idle w
      | some r =>
        let redx := r.2 == 6 && (!w.fragOk e 6 || (match p.eq.find 11 with
          | some (o :: _) => decide (0 < o.sent)
          | _ => false))
        let w := w.sendFrag e (if redx then 11 else r.2)
        w.setArb (uEp e) 1 0 (w.countGrant b { a with lfsr := x } 0 r.2 w.herdTime)

/-! ### Receiving frames -/

/-- The control cell of a good frame (R323, R324, R325): acknowledged frames leave the replay buffer, `lnak` starts a
resend, credits rise, and the peer's credit word has been seen. -/
def W.takeControl (w : W) (e : Nat) (f : List Byte) : W :=
  let la := le f 6 2
  let cw := le f 8 2
  let w := w.epMod e (fun p =>
    let p := if bit la 13 then { p with
        replay := p.replay.filter (fun x => !notEarlier (bits la 0 12) x.lseq 12)
        resend := p.resend.filter (fun x => !notEarlier (bits la 0 12) x.lseq 12) } else p
    { p with cred := Tbl.set 0 p.cred (bits cw 0 4) (Tbl.get 0 p.cred (bits cw 0 4) + bits cw 4 4)
             sawCred := true })
  let w := if bit la 12 ∧ (w.epS e).replay ≠ [] then
      (w.inc (epB e) KEDG_LINK.replays).epMod e (fun p => { p with resend := p.replay })
    else w
  w.tryLinkUp e

/-- A received frame is good: no uncorrectable codeword overlaps it and its CRC is right (R320, R323). -/
def RxFrame.good (f : RxFrame) : Bool := f.ok && frameOk f.bytes

/-- Type of a frame (R322). -/
def RxFrame.type (f : RxFrame) : Nat := bits (le f.bytes 0 1) 0 4

/-- The next received frame, when it is a good one of type 3 or 4 or another as asked: the commands that take a frame
find theirs at the front. -/
def State.nextFrame (s : State) (e : Nat) (ok : RxFrame → Bool) : Option RxFrame :=
  if s.rd (epB e) KEDG_STAT.lane_lock = 0 then none else ((s.epS e).rxFr.head?).filter ok

/-- Take the frame at the front. -/
def W.dropFrame (w : W) (e : Nat) : W := w.epMod e (fun p => { p with rxFr := p.rxFr.drop 1 })

/-- A sequenced frame in order joins its packet (R323, R325). A packet longer than the receive buffer gives back the credits
of the frames beyond it as they come; a fragment of a packet whose first was lost is dropped. -/
def W.acceptFrame (w : W) (e : Nat) (f : List Byte) : W :=
  let vc := bits (le f 1 1) 0 4
  let body := (f.drop 16).take (le f 2 1)
  let eof := bit (le f 0 1) 5
  let sof := bit (le f 0 1) 4
  w.epMod e (fun p =>
    if !sof ∧ (p.asm_.find vc).isNone then
      { p with rxSeq := bits (le f 4 2) 0 12, rxValid := true, owed := Tbl.set 0 p.owed vc (Tbl.get 0 p.owed vc + 1) }
    else
    let (old, n) := if sof then ([], 0) else Tbl.get ([], 0) p.asm_ vc
    let lost := if sof then (Tbl.get ([], 0) p.asm_ vc).2 else 0
    let over_ := !eof && 32 ≤ p.heldFrames vc - lost + 1
    { p with
      rxSeq := bits (le f 4 2) 0 12
      rxValid := true
      owed := Tbl.set 0 p.owed vc (Tbl.get 0 p.owed vc + lost + (if over_ then 1 else 0))
      asm_ := if eof then p.asm_.del vc else p.asm_.put vc (old ++ body, if over_ then n else n + 1)
      inq := if eof then p.inq ++ [(vc, n + 1, old ++ body)] else p.inq })

/-- DATA_FRAME (R322, R323, R325): the next frame received, other than a good TIME or CIRC frame. A frame that is not good,
or of a reserved type, is counted in `crc_bad`; a sequenced frame whose `lseq` follows the last accepted one joins its
packet, another is discarded and `lnak` set; an IDLE frame carries only its control cell. -/
def effDataFrame (e : Nat) (w : W) : W :=
  match w.nextFrame e (fun f => !(f.good && (f.type == 3 || f.type == 4))) with
  | none => w
  | some f =>
    let b := epB e
    let w := w.dropFrame e
    if !f.good ∨ 5 < f.type then w.inc b KEDG_LINK.crc_bad else
    let w := if f.type = 0 then w else w.util (uEp e) 0xD78 256
    let w := w.takeControl e f.bytes
    if f.type = 0 then w
    else if bits (le f.bytes 4 2) 0 12 ≠ ((w.epS e).rxSeq + 1) % 4096 then w.epMod e (fun p => { p with nak := true })
    else w.acceptFrame e f.bytes

/-- CIRC_FRAME (R346): the cells of a circuit frame enter the circuit buffer of 1,024 cells. -/
def effCircFrame (e : Nat) (w : W) : W :=
  match w.nextFrame e (fun f => f.good && f.type == 4) with
  | none => w
  | some x =>
    let b := epB e
    let f := x.bytes
    let w := ((w.dropFrame e).util (uEp e) 0xD78 256).takeControl e f
    if (w.epS e).cwBad ∨ (w.epS e).cwPhase ≠ 2 then w else
    let n := min 3 (le f 2 1 / 76)
    let w := w.each (List.range n) (fun w i =>
      if (w.epS e).rxq.length < 1024 then
        w.epMod e (fun p => { p with rxq := p.rxq ++ [cellOf ((f.drop (16 + 76 * i)).take 76)] })
      else w.inc b KEDG_CW_EVT2.cw_overrun)
    w.wr b KEDG_CW_STAT.cw_rxq (w.epS e).rxq.length

/-! ### Rates (R343) -/

/-- The rate entry of a context at an EP, shaping or policing enabled. -/
def State.rateEnt (s : State) (e ctx : Nat) (pol : Bool) : Option Nat :=
  (List.range 256).find? (fun i => s.rd (epB e) KEDG_RATE_CTX.rctx i == ctx
    && s.rd (epB e) (if pol then KEDG_RATE_CTX.pol_en else KEDG_RATE_CTX.shp_en) i == 1)

/-- Tokens of a bucket now, in halves of a byte: a rate of 1 adds 64 B in 128 fc. -/
def State.tokens (s : State) (e i : Nat) (pol : Bool) : Nat :=
  let b := epB e
  let rate := s.rd b (if pol then KEDG_RATE_POL.rate else KEDG_RATE_SHP.rate) i
  let cap := s.rd b (if pol then KEDG_RATE_POL.burst else KEDG_RATE_SHP.burst) i * 8192
  match (s.epS e).bucket.find (2 * i + (if pol then 1 else 0)) with
  | none => cap
  | some (n, t) => min cap (n + rate * (s.fc - t))

/-- A packet has its tokens: no entry, an unlimited rate, or enough in the bucket. -/
def State.rateOk (s : State) (e : Nat) (p : Packet) (pol : Bool) : Bool :=
  match s.rateEnt e p.ctx pol with
  | none => true
  | some i => s.rd (epB e) (if pol then KEDG_RATE_POL.rate else KEDG_RATE_SHP.rate) i == 0 || 2 * p.size ≤ s.tokens e i pol

/-- Take a packet's tokens. -/
def W.takeTokens (w : W) (e : Nat) (p : Packet) (pol : Bool) : W :=
  match w.rateEnt e p.ctx pol with
  | none => w
  | some i =>
    let n := w.tokens e i pol - 2 * p.size
    w.epMod e (fun x => { x with bucket := x.bucket.put (2 * i + (if pol then 1 else 0)) (n, w.fc) })

/-! ### Sending edge packets -/

/-- Labels of the spray set. -/
def State.sprayLabels (s : State) (e : Nat) : List Nat :=
  (List.range 64).filter (fun p => if p < 32 then bit (s.rd (epB e) KEDG_SPRAY_LO.spray_lo) p
    else bit (s.rd (epB e) KEDG_SPRAY_HI.spray_hi) (p - 32))

/-- Pick a path (R336) among labels other than `skip` when another is available. -/
def W.pickPath (w : W) (e : Nat) (skip : Option Nat) : Nat × W :=
  let b := epB e
  let all := w.sprayLabels e
  if all = [] then (0, w) else
  let live (w : W) : List Nat := all.filter (fun p => w.rd b KEDG_PATH.suspended p == 0)
  let w := if live w = [] then w.each all (fun w p => (w.wr b KEDG_PATH.suspended 0 p).epMod e (fun x => { x with
      psusp := x.psusp.del p })) else w
  let l := live w
  let l := match skip with
    | some k => if l.any (fun p => p != k) then l.filter (fun p => p != k) else l
    | none => l
  let wt (p : Nat) : Int := w.rd b KEDG_PATH.weight p
  let c0 := (w.epS e).sprayC
  let c := l.foldl (fun t p => Tbl.set 0 t p (Tbl.get 0 t p + wt p)) c0
  let best := l.foldl (fun m p => match m with
    | none => some p
    | some q => if Tbl.get 0 c q < Tbl.get 0 c p then some p else some q) none
  let p := best.getD 0
  let tot := l.foldl (fun t p => t + wt p) (0 : Int)
  (p, w.epMod e (fun x => { x with sprayC := Tbl.set 0 c p (Tbl.get 0 c p - tot) }))

/-- The two halves of a connection are idle (R333). -/
def Conn.idle (c : Conn) (fc : Nat) : Bool :=
  c.outst == [] && c.held == [] && (!c.recv || c.lastArr + 2 ^ 20 ≤ fc)

/-- A connection entry for a peer, taking a free one or the least recently used idle one (R333). -/
def W.connFor (w : W) (e peer : Nat) : Option W :=
  let p := w.epS e
  if (p.conns.find peer).isSome then some (w.epMod e (fun p => { p with conns := p.conns.modify peer (fun c => { c with used := w.fc }) }))
  else
    let add (w : W) : W :=
      let w := w.epMod e (fun p => { p with conns := p.conns.put peer { used := w.fc } })
      let n := (w.epS e).conns.length
      (w.wr (epB e) KEDG_CONN.conn_used n).high (epB e) KEDG_CONN.conn_high n
    if p.conns.length < 4096 then some (add w) else
    let idle := p.conns.filter (fun c => c.2.idle w.fc)
    match idle.foldl (fun (m : Option (Nat × Conn)) c => match m with
        | none => some c
        | some d => if c.2.used < d.2.used then some c else some d) none with
    | none => none
    | some (k, _) => some (add (w.epMod e (fun p => { p with conns := p.conns.del k })))

/-- Bytes in the retransmission buffer of an EP. -/
def Ep.rtxBytes (p : Ep) : Nat := p.conns.foldl (fun n c => c.2.outst.foldl (fun n x => n + x.size) n) 0

/-- The limits of R333 and R340 admit one more packet to a peer. -/
def State.canSend (s : State) (e peer size : Nat) : Bool :=
  let p := s.epS e
  let c := (p.conns.find peer).getD {}
  c.outst.length < 2 ^ s.rd (epB e) KEDG_XPORT.win_log2 && p.rtxBytes + size ≤ 4 * 2 ^ 20
    && (c.send || (match p.lastOpen.find peer with
      | none => true
      | some t => 2 ^ 17 ≤ since s.herdTime t))

/-- Queue an edge packet's bytes at the egress. -/
def W.egress (w : W) (e vc : Nat) (o : EOut) : W :=
  w.epMod e (fun p => { p with eq := p.eq.put vc ((p.eq.find vc).getD [] ++ [o]) })

/-- A packet as it crosses: neither the edge header nor R131 gives poison a place, so a payload with poison crosses with
POISON in the `status` byte, which every packet but a CMP leaves 0 (log). -/
def crossMark (p : Packet) : Packet := if p.op ≠ 0x60 ∧ p.bad then { p with status := POISON } else p

/-- A packet as it came across: one so marked is poisoned over its whole length. -/
def crossRead (p : Packet) : Packet :=
  if p.op ≠ 0x60 ∧ p.status = POISON then { p.poisonAll with status := 0 } else p

/-- Send a package packet across to endpoint `edst` of package `peer` (R331 to R333, R336, R340, R341), when the
connection and its limits admit it. -/
def W.sendAcross (w : W) (e peer edst : Nat) (p : Packet) : Option W :=
  let size := 24 + (pktBytes p).length
  match w.connFor e peer with
  | none => none
  | some w =>
    if !w.canSend e peer size then none else
    let x := w.epS e
    let c := (x.conns.find peer).getD {}
    let (c, w) :=
      if c.send then (c, w) else
      let inc := (Tbl.get 0 x.lastInc peer + 1) % 16
      let w := w.epMod e (fun x => { x with lastInc := x.lastInc.put peer inc, lastOpen := x.lastOpen.put peer w.herdTime })
      ({ c with send := true, inc := inc, acked := false, psn := 0, outst := [], rtt := none, lastMsg := [], scum := 0xFFFFFF },
        w.traceEp e 2 p.ctx peer 0)
    let psn := c.psn
    let key := p.src * 256 + hdChan p.data
    let isMsg := p.op = 0x20 ∨ p.op = 0x22
    let pred := if isMsg then c.lastMsg.find key else none
    let cpred := match pred with
      | some q => if c.outst.any (fun o => o.hdr.psn == q) || !notEarlier c.scum q 24 then some q else none
      | none => none
    let (path, w) := w.pickPath e none
    let h : EHdr := { dpkg := peer, dep := e, path := path, spkg := w.pkgNum, sep := e, inc := c.inc, syn := !c.acked,
                      psn := psn, edst := edst, cpred := cpred.getD 0, cpv := cpred.isSome }
    let o : EPkt := { hdr := h, pkt := p, sends := 0, lastFc := w.fc, path := path, passed := 0, fast := false, size := size }
    let c := { c with psn := (psn + 1) % 2 ^ 24, outst := c.outst ++ [o], used := w.fc,
                      lastMsg := if isMsg then c.lastMsg.put key psn else c.lastMsg }
    let w := w.epMod e (fun x => { x with conns := x.conns.put peer c })
    some (w.egress e p.vc { vc := p.vc, bytes := h.bytes ++ pktBytes (crossMark p), peer := peer, psn := psn, ctx := p.ctx })

/-- Send a package packet across, behind those that already wait for its peer. -/
def W.sendNew (w : W) (e peer edst : Nat) (p : Packet) : Option W :=
  if (w.epS e).waitTx.any (fun x => x.1 == peer) then none else w.sendAcross e peer edst p

/-- The operations that cross between packages (R332). -/
def crossOp (op : Nat) : Bool :=
  [0x20, 0x21, 0x22, 0x01, 0x0C, 0x02, 0x0A, 0x40, 0x41, 0x42, 0x70, 0x03, 0x0B, 0x0E, 0x60].contains op

/-- Destination package and endpoint of a packet that leaves, and the packet as it crosses (R332). -/
def State.crossDst (s : State) (p : Packet) : Nat × Nat × Packet :=
  if p.op = 0x41 then (bits (le p.ext 0 4) 0 17, bits (le p.ext 4 2) 0 12, p)
  else if p.op = 0x21 then (bits (le p.ext 0 4) 0 17, bits (le p.ext 4 2) 0 12, { p with ext := [] })
  else (s.addrPkg p.addr, 0xFFF, p)

/-- A packet that EDGE_PACKET_SEND takes: bound for another package, no answer of a proxy, not a message to a spine
slot. -/
def edgeTakes (p : Packet) : Bool :=
  !isAnswer p.op && p.ans != 0x70 && !((p.op == 0x20 || p.op == 0x22) && p.addr == 0) && !(p.op == 0x21 && p.ext == [])

/-- Shaping applies to packets on REQ and DAT VCs (R343). -/
def shapedVc (vc : Nat) : Bool := vc ≤ 2 || 6 ≤ vc

/-- A packet is set aside (R343): its bucket is short, or an earlier packet of its context already stands in the shaping
store. -/
def State.setAside (s : State) (e : Nat) (p : Packet) : Bool :=
  shapedVc p.vc && (!s.rateOk e p false || ((s.rateEnt e p.ctx false).isSome && (s.epS e).shaped.any (fun q => q.ctx == p.ctx)))

/-- What a packet at the egress does when its turn comes (R331 to R333, R340, R343). `some` when it leaves its VC: refused,
set aside or sent; none when it waits. `w'` is the state with the packet taken from its VC. -/
def W.edgeGo (w w' : W) (e : Nat) (p : Packet) : Option W :=
  if !crossOp p.op then some (w'.cmp (uEp e) p BADOP)
  else if w.setAside e p then
    if (w.epS e).shaped.foldl (fun n x => n + x.size) 0 + p.size ≤ 256 * 1024 then
      let i := (w.rateEnt e p.ctx false).getD 0
      some ((w'.inc (epB e) KEDG_RATE_CNT.shp_held 1 i).epMod e (fun x => { x with shaped := x.shaped ++ [p] }))
    else none
  else
    let (peer, edst, q) := w.crossDst p
    (if shapedVc p.vc then w'.takeTokens e p false else w').sendNew e peer edst q

/-- The packets of an EP's input that wait to go across, in the order it tries them: by VC, oldest first. -/
def State.edgeWaiting (s : State) (e : Nat) : List Packet :=
  (List.range 10).flatMap (fun vc =>
    ((s.buf (uEp e) 0 vc).filter (fun b => b.last && edgeTakes b.pkt && !s.frozen (uEp e) b.pkt.ctx)).map (fun b => b.pkt))

/-- The first of these packets that can go, behind no other of its peer, and behind none of its VC that the full shaping
store keeps. -/
def W.edgeTry (w : W) (e : Nat) : List Packet → List Nat → List Nat → W
  | [], _, _ => w
  | p :: rest, peers, vcs =>
    let peer := (w.crossDst p).1
    if vcs.contains p.vc ∨ (crossOp p.op ∧ peers.contains peer) then w.edgeTry e rest peers vcs
    else match w.takeVc (uEp e) p.vc (fun q => q == p) with
      | none => w.edgeTry e rest peers vcs
      | some (_, w') =>
        match w.edgeGo w' e p with
        | some w'' => w''
        | none => if w.setAside e p then w.edgeTry e rest peers (p.vc :: vcs) else w.edgeTry e rest (peer :: peers) vcs

/-- EDGE_PACKET_SEND (R331, R332, R333, R336, R340, R343): the EP takes a packet for another package and queues it as an
edge packet; it refuses operations that do not cross, sets packets short of tokens aside, and leaves a packet that finds
no connection, window or store where it waits. -/
def effEdgePacketSend (e : Nat) (w : W) : W := w.edgeTry e (w.edgeWaiting e) [] []

/-- The first packet of the shaping store whose tokens suffice is sent, in the order of each context (R343); one that finds
no connection or window waits. -/
def W.shapeTry (w : W) (e : Nat) : List Packet → List Nat → W
  | [], _ => w
  | p :: rest, ctxs =>
    if ctxs.contains p.ctx ∨ !w.rateOk e p false then w.shapeTry e rest (p.ctx :: ctxs)
    else
      let (peer, edst, q) := w.crossDst p
      match ((w.takeTokens e p false).epMod e (fun x => { x with shaped := x.shaped.erase p })).sendNew e peer edst q with
      | some w' => w'
      | none => w.shapeTry e rest (p.ctx :: ctxs)

/-- SHAPING_RELEASE (R343): a packet of the shaping store whose tokens suffice is sent. -/
def effShapingRelease (e : Nat) (w : W) : W := w.shapeTry e (w.epS e).shaped []

/-! ### Acknowledgement and retransmission -/

/-- rto of a connection (R340). -/
def Conn.rto (c : Conn) : Nat :=
  match c.rtt with
  | none => 2 ^ 16
  | some (s, v) => max (2 ^ 12) (min (2 ^ 16) (s + 4 * v))

/-- Ranges of PSNs received above `cum`, in rising order from it (R338). -/
def pairRuns : List Nat → List (Nat × Nat)
  | [] => []
  | x :: t => match pairRuns t with
    | (a, b) :: r => if x + 1 = a then (x, b) :: r else (x, x) :: (a, b) :: r
    | [] => [(x, x)]
def Conn.ranges (c : Conn) : List (Nat × Nat) :=
  let offs := (c.got.map (fun p => (p + 2 ^ 24 - c.cum) % 2 ^ 24)).mergeSort (fun a b => a ≤ b)
  (pairRuns offs).map (fun r => ((r.1 + c.cum) % 2 ^ 24, (r.2 + c.cum) % 2 ^ 24))

/-- Queue an ACK packet to a peer (R338). -/
def W.sendAck (w : W) (e peer sep inc : Nat) (rst : Bool) (cum : Nat) (rng : List (Nat × Nat)) : W :=
  let h : EHdr := { dpkg := peer, dep := sep, spkg := w.pkgNum, sep := e }
  let w := w.egress e 10 { vc := 10, bytes := h.bytes ++ ackBytes peer inc rst cum rng, peer := peer }
  if rst then (w.inc (epB e) KEDG_XEVT3.rst_sent).traceEp e 4 0 peer 0 else w

/-- An ACK of a connection's receive half now (R338). -/
def W.ackNow (w : W) (e peer : Nat) : W :=
  match (w.epS e).conns.find peer with
  | none => w
  | some c =>
    let w := w.sendAck e peer e c.rinc false c.cum c.ranges
    w.epMod e (fun x => { x with conns := x.conns.modify peer (fun c => { c with ackFc := w.fc, ackDue := false }) })

/-- ACK_TIMER (R338): an ACK that is due is sent once 2^`ack_log2` fc have passed since the last. -/
def effAckTimer (e peer : Nat) (w : W) : W :=
  match (w.epS e).conns.find peer with
  | none => w
  | some c =>
    if c.ackDue ∧ c.ackFc + 2 ^ w.rd (epB e) KEDG_XPORT.ack_log2 ≤ w.fc ∧ !w.edgeFault then w.ackNow e peer else w

/-- An outstanding packet ends without its answer (R342, R352): a packet that expects an answer is answered; any other
is counted and raises the edge-fault source, unless `quiet`. -/
def W.edgeEnd (w : W) (e : Nat) (p : Packet) (status : Nat) (quiet : Bool) : W :=
  if wantsAns p then w.reply (uEp e) { ansTo p p.dst with status := status, byRouter := true }
  else if quiet then w
  else (w.inc (epB e) KEDG_XEVT.tx_fail).fault clXPORT (locEp e)

/-- Close the send half: its outstanding packets end with a status (R342); those that were never sent wait for the new
incarnation (R351). -/
def W.closeSend (w : W) (e peer status : Nat) (quiet : Bool) : W :=
  match (w.epS e).conns.find peer with
  | none => w
  | some c =>
    let back := c.outst.filter (fun o => o.sends == 0)
    let w := w.epMod e (fun x => { x with
      conns := x.conns.put peer { c with send := false, outst := [], lastMsg := [], rtt := none }
      waitTx := back.map (fun o => (peer, o.hdr.edst, o.pkt)) ++ x.waitTx
      eq := x.eq.filterMap (fun q =>
        let l := q.2.filter (fun o => !(o.peer == peer && o.vc < 10 && o.sent == 0))
        if l = [] then none else some (q.1, l)) })
    w.each (c.outst.filter (fun o => o.sends != 0)) (fun w o => w.edgeEnd e o.pkt status quiet)

/-- Retransmit an outstanding packet (R336, R340). -/
def W.retransmit (w : W) (e peer : Nat) (o : EPkt) (fast : Bool) : W :=
  let (path, w) := w.pickPath e (some o.path)
  let h := { o.hdr with path := path, rtx := true }
  let w := w.epMod e (fun x => { x with conns := x.conns.modify peer (fun c => { c with
    outst := c.outst.map (fun y => if y.hdr.psn = h.psn then { y with hdr := h, path := path, passed := 0, fast := y.fast || fast } else y) }) })
  let w := w.egress e o.pkt.vc { vc := o.pkt.vc, bytes := h.bytes ++ pktBytes (crossMark o.pkt), peer := peer, psn := h.psn, ctx := o.pkt.ctx }
  ((w.inc (epB e) KEDG_XEVT.retransmits).ev (uEp e) 0x61 1 o.pkt.ctx).traceEp e 1 o.pkt.ctx peer h.psn

/-- A copy of an outstanding packet waits at the egress. -/
def Ep.queued (p : Ep) (peer psn : Nat) : Bool :=
  p.eq.any (fun q => q.2.any (fun o => o.vc < 10 && o.peer == peer && o.psn == psn))

/-- An ACK's record (R338) covers a PSN. -/
def ackCovers (r : List Byte) (psn : Nat) : Bool :=
  notEarlier (bits (le r 4 4) 0 24) psn 24
    || (List.range 4).any (fun i =>
      let a := le r (8 + 6 * i) 3
      let b := le r (11 + 6 * i) 3
      a != (b + 1) % 2 ^ 24 && notEarlier psn a 24 && notEarlier b psn 24)

/-- An ACK that has arrived, and no command has taken yet, acknowledges a packet (R340, R351). -/
def State.ackWaits (s : State) (e peer inc psn : Nat) : Bool :=
  (s.epS e).inq.any (fun x =>
    let r := x.2.2.drop 24
    x.1 == 10 && (ehdrOf x.2.2).spkg == peer && bits (le r 0 4) 0 17 == s.pkgNum && bits (le r 0 4) 17 4 == inc
      && (bit (le r 0 4) 21 || ackCovers r psn))

/-- RTO_EXPIRY (R337, R340, R342): a packet whose age since its last send reaches rto counts a failure of its path and
is retransmitted, or, sent `rtx_max` + 1 times, fails its connection. An acknowledgement of this fc is taken instead
(R340, R351). The timers are held in the fault state (R387). -/
def effRtoExpiry (e peer psn : Nat) (w : W) : W :=
  let b := epB e
  if w.edgeFault then w else
  match (w.epS e).conns.find peer with
  | none => w
  | some c =>
    match c.outst.find? (fun o => o.hdr.psn == psn) with
    | none => w
    | some o =>
      if (w.epS e).queued peer psn ∨ w.fc < o.lastFc + c.rto ∨ w.ackWaits e peer c.inc psn then w else
      let n := Tbl.get 0 (w.epS e).pfail o.path + 1
      let susp := w.rd b KEDG_XPORT.path_fail ≤ n
      let w := w.epMod e (fun x => { x with
        pfail := Tbl.set 0 x.pfail o.path (if susp then 0 else n)
        psusp := if susp then x.psusp.put o.path (w.fc + 2 ^ 20) else x.psusp })
      let w := if susp then w.wr b KEDG_PATH.suspended 1 o.path else w
      if w.rd b KEDG_XPORT.rtx_max + 1 ≤ o.sends then
        (w.closeSend e peer TIMEOUT false).traceEp e 3 o.pkt.ctx peer psn
      else w.retransmit e peer o false

/-- PATH_SUSPEND_END (R337): after 2^20 fc the path returns with weight 256 and no samples. -/
def effPathSuspendEnd (e path : Nat) (w : W) : W :=
  match (w.epS e).psusp.find path with
  | none => w
  | some t =>
    if w.fc < t then w else
    let b := epB e
    let w := ((w.wr b KEDG_PATH.suspended 0 path).wr b KEDG_PATH.weight 256 path).wr b KEDG_PATH.samples 0 path
    (w.wr b KEDG_PATH.srtt 0 path).epMod e (fun x => { x with psusp := x.psusp.del path, prtt := x.prtt.del path })

/-- A round-trip sample (R337, R340): of the connection and of the path, whose weights follow. -/
def W.rttSample (w : W) (e peer path v : Nat) : W :=
  let b := epB e
  let upd (c : Conn) : Conn := { c with rtt := match c.rtt with
    | none => some (v, v / 2)
    | some (s, d) => some ((7 * s + v) / 8, (3 * d + (if s < v then v - s else s - v)) / 4) }
  let old := Tbl.get 0 (w.epS e).prtt path
  let n := w.rd b KEDG_PATH.samples path
  let sr := if n = 0 then v else (7 * old + v) / 8
  let w := w.epMod e (fun x => { x with
    conns := x.conns.modify peer upd
    prtt := x.prtt.put path sr
    pfail := x.pfail.del path })
  let w := (w.wr b KEDG_PATH.samples (min 15 (n + 1)) path).wr b KEDG_PATH.srtt (min 65535 (sr / 16)) path
  let good := (w.sprayLabels e).filter (fun p => 8 ≤ w.rd b KEDG_PATH.samples p)
  let m := good.foldl (fun m p => min m (Tbl.get 0 (w.epS e).prtt p)) (2 ^ 32)
  w.each good (fun w p =>
    let r := Tbl.get 0 (w.epS e).prtt p
    w.wr b KEDG_PATH.weight (max 1 (min 256 (if r = 0 then 256 else 256 * m / r))) p)

/-- ACK_PACKET (R338, R340, R342): packets it covers are settled; a packet passed over by three later ones is
retransmitted once; `rst` closes the send half. -/
def effAckPacket (e : Nat) (w : W) : W :=
  match (w.epS e).inq.find? (fun x => x.1 == 10) with
  | none => w
  | some x =>
    let w := w.takeEdge e x
    let h := ehdrOf x.2.2
    let r := x.2.2.drop 24
    let peer := h.spkg
    match (w.epS e).conns.find peer with
    | none => w
    | some c =>
      if bits (le r 0 4) 0 17 ≠ w.pkgNum ∨ !c.send ∨ bits (le r 0 4) 17 4 ≠ c.inc then w else
      if bit (le r 0 4) 21 then w.closeSend e peer ABORTED false else
      let cum := bits (le r 4 4) 0 24
      let covered (psn : Nat) : Bool := ackCovers r psn
      let done := c.outst.filter (fun o => 0 < o.sends && covered o.hdr.psn)
      let rest := c.outst.filter (fun o => !(0 < o.sends && covered o.hdr.psn))
      let rest := rest.map (fun o => { o with passed := o.passed
        + (done.filter (fun d => !notEarlier o.hdr.psn d.hdr.psn 24 && o.lastFc ≤ d.lastFc)).length })
      let w := w.epMod e (fun p => { p with
        conns := p.conns.put peer { c with outst := rest, acked := true, scum := cum, used := w.fc }
        eq := p.eq.filterMap (fun q =>
          let l := q.2.filter (fun o => !(o.vc < 10 && o.peer == peer && o.sent == 0 && done.any (fun d => d.hdr.psn == o.psn)))
          if l = [] then none else some (q.1, l)) })
      let w := w.each done (fun w o => if o.sends = 1 ∧ !o.hdr.rtx then w.rttSample e peer o.path (w.fc - o.lastFc) else w)
      w.each (rest.filter (fun o => 3 ≤ o.passed && !o.fast && 0 < o.sends && !(w.epS e).queued peer o.hdr.psn))
        (fun w o => w.retransmit e peer o true)

/-! ### Receiving edge packets -/

/-- Send an answer of this EP back across to a sender of another package. -/
def W.answerAcross (w : W) (e peer dst : Nat) (p : Packet) : W :=
  match w.sendNew e peer dst p with
  | some w => w
  | none => w.epMod e (fun x => { x with waitTx := x.waitTx ++ [(peer, dst, p)] })

/-- A CMP back to the original source of a packet that crossed (R334, R343). -/
def W.cmpAcross (w : W) (e peer : Nat) (p : Packet) (status : Nat) : W :=
  let aux := if p.op = 0x20 then msgLines (p.len - 16) else 0
  w.answerAcross e peer p.src { vc := 3, op := 0x60, src := w.epOf (uEp e), ctx := p.ctx, tag := p.tag, status := status, aux := aux, ans := p.op }

/-- The packet takes a proxy entry (R334). -/
def proxied (op : Nat) : Bool := !isAnswer op && op != 0x21 && op != 0x22 && op != 0x41

/-- A packet that came across is an answer, sent to the endpoint its proxy named (R332). -/
def crossReply (h : EHdr) (p : Packet) : Bool := isAnswer p.op || (p.op == 0x70 && h.edst != 0xFFF)

/-- The target of a packet that came across (R276, R334); of a pool or merge request, the slice of its lowest segment (R259). An endpoint that the package does not have is no target (R21). -/
def State.arriveDst (s : State) (h : EHdr) (p : Packet) : Nat × Nat :=
  if h.edst ≠ 0xFFF then (if s.present h.edst then OK else BADOP, h.edst)
  else
    let a := if p.op = 0x40 ∨ p.op = 0x42 then
        p.addr + 256 * (((List.range 16).find? (bit (if p.op = 0x40 then pxMask p else mxMask p))).getD 0) else p.addr
    let (st, d) := s.dstOf a
    if st ≠ OK then (BADOP, 0) else if 0x840 ≤ d ∧ d < 0x880 then (BADOP, 0) else (OK, d)

/-- The tag of a proxied packet: the entry, and its use count (R334). -/
def State.proxyTag (s : State) (e i : Nat) : Nat := i + Tbl.get 0 (s.epS e).useCnt i % 4 * 2 ^ 14

/-- The entry that a tag names is live, with that use count (R335). -/
def State.proxyLive (s : State) (e tag : Nat) : Bool :=
  ((s.epS e).proxies.find (tag % 2 ^ 14)).isSome && s.proxyTag e (tag % 2 ^ 14) == tag

/-- Deliver an accepted packet into the package (R334), with the tag of its proxy if it took one. -/
def W.deliverIn (w : W) (e : Nat) (h : EHdr) (p : Packet) (proxy : Option Nat) : W :=
  let (_, d) := w.arriveDst h p
  let q : Packet := { p with dst := d, src := w.epOf (uEp e), herdMode := false, gen := 0, hops := 0, hopPtr := 0, hop := 0 }
  match proxy with
  | none => w.inject (uEp e) (if p.op = 0x70 ∧ crossReply h p then { q with ans := 0x70 } else q)
  | some tag =>
    if !w.proxyLive e tag then w else
    let q := { q with tag := tag, ack := true, ref := tag }
    (w.setReq (uEp e) tag { pkt := q, own := .proxy (tag % 2 ^ 14), fc := w.fc }).inject (uEp e) q

/-- Take a proxy entry (R334): its tag. -/
def W.takeProxy (w : W) (e : Nat) (h : EHdr) (p : Packet) : Option (Nat × W) :=
  match (w.epS e).proxies.free 16384 with
  | none => none
  | some i =>
    let w := w.epMod e (fun x => { x with proxies := x.proxies.put i {
      spkg := h.spkg, sep := h.sep, src := p.src, tag := p.tag, ack := p.ack, op := p.op, ctx := p.ctx, fc := w.fc,
      lines := if p.op = 0x20 then msgLines (p.len - 16) else 0 } })
    some (w.proxyTag e i, w.wr (epB e) KEDG_PROXY.proxy_used (w.epS e).proxies.length)

/-- Free a proxy entry: its use count rises. -/
def W.freeProxy (w : W) (e i : Nat) : W :=
  let w := (w.delReq (uEp e) (w.proxyTag e i)).epMod e (fun x => { x with
    proxies := x.proxies.del i
    useCnt := Tbl.set 0 x.useCnt i ((Tbl.get 0 x.useCnt i + 1) % 4) })
  w.wr (epB e) KEDG_PROXY.proxy_used (w.epS e).proxies.length

/-- Lines of 64 B that an EP's held messages take. -/
def Ep.reordLines (p : Ep) : Nat :=
  p.conns.foldl (fun n c => c.2.held.foldl (fun n h => n + (h.pkt.size + 63) / 64) n) 0

/-- Advance `cum` over PSNs received and delivered (R339). -/
def Conn.advance : Nat → Conn → Conn
  | 0, c => c
  | f + 1, c =>
    let n := (c.cum + 1) % 2 ^ 24
    if c.got.contains n && !c.held.any (fun h => h.psn == n) then
      Conn.advance f { c with cum := n, got := c.got.erase n }
    else c

/-- A PSN has been received and delivered. -/
def Conn.delivered (c : Conn) (psn : Nat) : Bool :=
  notEarlier c.cum psn 24 || (c.got.contains psn && !c.held.any (fun h => h.psn == psn))

/-- The held messages of a connection whose predecessors were delivered in the fc before are delivered (R341). -/
def W.releaseHeld (w : W) (e peer : Nat) : W :=
  match (w.epS e).conns.find peer with
  | none => w
  | some c =>
    let go := c.held.filter (fun h => c.delivered h.cpred)
    if go = [] then w else
    let w := w.epMod e (fun x => { x with conns := x.conns.modify peer (fun c =>
      Conn.advance 4096 { c with held := c.held.filter (fun h => !go.contains h) }) })
    (w.wr (epB e) KEDG_REORD.reord_lines (w.epS e).reordLines).each go (fun w h =>
      w.deliverIn e { spkg := peer, sep := h.sep, edst := 0xFFF } h.pkt h.proxy)

/-- Every edge port releases what it held for an order that the fc before has satisfied (R341). -/
def W.releaseAll (w : W) : W :=
  w.each w.ep (fun w e => w.each (e.2.conns.filter (fun c => c.2.held != [])) (fun w c => w.releaseHeld e.1 c.1))

/-- A packet that came across cannot be performed: a reserved or malformed operation, or no target (R18, R132, R276). -/
def State.crossBad (s : State) (h : EHdr) (p : Packet) : Bool :=
  !crossOp p.op || !opOk p || (s.arriveDst h p).1 != OK

/-- The requests whose source learns of a refusal by a CMP (R18, R276, R334). -/
def crossTold (h : EHdr) (p : Packet) : Bool := !crossReply h p && p.op != 0x21 && p.op != 0x22 && p.op != 0x41

/-- What becomes of a packet that R339 accepts: discarded when its header cannot be trusted (R18, R140), policed (R343),
refused, held for its predecessor (R341), or delivered; `none` when it is dropped without acknowledgement (R334). -/
def W.crossIn (w : W) (e peer : Nat) (c : Conn) (h : EHdr) (p : Packet) : Option W :=
  let b := epB e
  if 10 ≤ p.vc then some (w.fault clARB (locEp e))
  else if !w.rateOk e p true then
    let i := (w.rateEnt e p.ctx true).getD 0
    let w := ((w.inc b KEDG_RATE_CNT.pol_drop 1 i).ev (uEp e) 0x64 1 p.ctx).traceEp e 5 p.ctx peer h.psn
    some (if wantsAns p ∨ p.op = 0x20 then w.cmpAcross e peer p DROPPED else w)
  else
    let w := w.takeTokens e p true
    if w.crossBad h p then some (if crossTold h p then w.cmpAcross e peer p BADOP else w)
    else if w.pkgFenced (uEp e) p.ctx ∧ proxied p.op ∧ !crossReply h p then some (w.cmpAcross e peer p FENCED)
    else
      let hold := (p.op = 0x20 ∨ p.op = 0x22) ∧ h.cpv ∧ !c.delivered h.cpred
      if hold ∧ 4096 < (w.epS e).reordLines + (p.size + 63) / 64 then none
      else match (if proxied p.op ∧ !crossReply h p then (w.takeProxy e h p).map (fun x => (some x.1, x.2)) else some (none, w)) with
        | none => none
        | some (tag, w) =>
          if hold then
            let w := w.epMod e (fun x => { x with conns := x.conns.modify peer (fun c => { c with
              held := c.held ++ [{ psn := h.psn, cpred := h.cpred, pkt := p, sep := h.sep, proxy := tag }] }) })
            some (w.wr b KEDG_REORD.reord_lines (w.epS e).reordLines)
          else some (w.deliverIn e h p tag)

/-- EDGE_PACKET_RECEIVE (R334, R339, R341, R343): the first rule of R339 that fits the arriving packet. -/
def effEdgePacketReceive (e : Nat) (w : W) : W :=
  let b := epB e
  match (w.epS e).inq.find? (fun x => x.1 < 10) with
  | none => w
  | some x =>
    let w := w.takeEdge e x
    let h := ehdrOf x.2.2
    let p := crossRead (pktOf (x.2.2.drop 24))
    let peer := h.spkg
    let c? := ((w.epS e).conns.find peer).filter (fun c => c.recv)
    if c?.isNone ∧ !h.syn then w.sendAck e peer h.sep h.inc true 0 [] else
    let fresh := h.syn && (match c? with
      | none => true
      | some c => c.rinc != h.inc)
    let w? := if fresh then (w.connFor e peer).map (fun w => w.epMod e (fun x => { x with
        conns := x.conns.modify peer (fun c => { c with recv := true, rinc := h.inc, cum := 0xFFFFFF, got := [], held := [] }) }))
      else some w
    match w? with
    | none => w.inc b KEDG_XEVT3.conn_full
    | some w =>
      let c := ((w.epS e).conns.find peer).getD {}
      let w := w.epMod e (fun x => { x with conns := x.conns.modify peer (fun c => { c with lastArr := w.fc, used := w.fc }) })
      if !h.syn ∧ c.rinc ≠ h.inc then w.inc b KEDG_XEVT3.rx_stale
      else if notEarlier c.cum h.psn 24 ∨ c.got.contains h.psn then (w.inc b KEDG_XEVT2.rx_dup).ackNow e peer
      else if 2 ^ 22 < (h.psn + 2 ^ 24 - c.cum) % 2 ^ 24 ∨ 4 < (Conn.ranges { c with got := h.psn :: c.got }).length
          then w.inc b KEDG_XEVT2.rx_window
      else
        let gap := h.psn ≠ (c.cum + 1) % 2 ^ 24 ∧ c.got = []
        match w.crossIn e peer c h p with
        | none => w.inc b KEDG_REORD.reord_drop
        | some w =>
          let w := w.epMod e (fun x => { x with conns := x.conns.modify peer (fun c =>
            Conn.advance 4096 { c with got := h.psn :: c.got, ackDue := true }) })
          if gap then w.ackNow e peer else w

/-! ### Proxies (R335) -/

/-- A router's answer STALE_GEN to a packet that was not re-issued before (R171). -/
def State.staleFirst (s : State) (p : Packet) : Bool :=
  p.op == 0x60 && p.status == STALE_GEN && p.byRouter &&
  (match s.net.stale.find p.sref with | some q => !q.retry | none => false)

def State.spnS (s : State) (e k : Nat) : Spn := Tbl.get {} (s.epS e).spn k
def W.setSpn (w : W) (e k : Nat) (v : Spn) : W := w.epMod e (fun p => { p with spn := Tbl.set {} p.spn k v })

/-- One CREDIT to a spine slot's channel of up to `n` members (R193, R194, R204, R349): with `resync` it sets the member's
count; before that, and from another source, it is discarded. -/
def spnCreditIn (x : Spn) (n src aux : Nat) (resync : Bool) : Spn :=
  if x.credit.any (fun (c : Nat × Nat) => c.1 == src) then
    { x with credit := x.credit.map (fun (c : Nat × Nat) =>
        if c.1 = src then (src, if resync then aux else min 65535 (c.2 + aux)) else c) }
  else if resync ∧ x.credit.length < n then { x with credit := x.credit ++ [(src, aux)] }
  else x

/-- A completion of a spine slot's own message (R198, R349): the lines that it refunds are credit of that member again. -/
def W.spnRefund (w : W) (e : Nat) (p : Packet) : W :=
  let k := p.ref % 2 ^ 19
  if p.status = OK then w else w.setSpn e k (spnCreditIn (w.spnS e k) 0 p.src p.aux false)

/-- A packet that answers a proxied one (R335). -/
def proxyAns (p : Packet) : Bool := isAnswer p.op || (p.op == 0x70 && p.ans == 0x70)

/-- PROXY_ANSWER (R335): an answer whose tag names a live proxy frees it and goes across to the original source. -/
def effProxyAnswer (e : Nat) (w : W) : W :=
  let b := epB e
  match w.takeAny (uEp e) (fun p => proxyAns p && !w.staleFirst p) with
  | none => w
  | some (p, w) =>
    if 2 ^ 19 ≤ p.ref then w.spnRefund e p else
    if !w.proxyLive e p.tag then w.inc b KEDG_PROXY.proxy_expire else
    let i := p.tag % 2 ^ 14
    match (w.epS e).proxies.find i with
    | none => w
    | some x =>
      let w := w.freeProxy e i
      let a : Packet := { p with tag := x.tag, src := w.epOf (uEp e), hops := 0, hopPtr := 0, hop := 0, gen := 0, ans := x.op }
      let ok := p.op ≠ 0x60 ∨ p.status = OK
      if x.ack then w.answerAcross e x.spkg x.src a
      else if x.op = 0x01 ∨ x.op = 0x0C then
        if ok then w.answerAcross e x.spkg x.src { a with op := 0x0E, vc := 3, aux := 1, status := 0, data := [], len := 0 }
        else w.answerAcross e x.spkg x.src a
      else if x.op = 0x20 then (if ok then w else w.answerAcross e x.spkg x.src a)
      else if x.op = 0x40 ∧ ok then w
      else w.answerAcross e x.spkg x.src a

/-- An answer that names a proxy has arrived, and no command has taken it yet (R351). -/
def State.answerWaits (s : State) (e tag : Nat) : Bool :=
  (List.range 10).any (fun vc => (s.buf (uEp e) 0 vc).any (fun b => b.last && proxyAns b.pkt && b.pkt.tag == tag))

/-- PROXY_EXPIRY (R335): a proxy unanswered within 2^22 fc is freed; an answer of this fc is taken instead (R351). Timers
are held in the fault state (R387). -/
def effProxyExpiry (e i : Nat) (w : W) : W :=
  match (w.epS e).proxies.find i with
  | none => w
  | some x =>
    if x.fc + 2 ^ 22 ≤ w.fc ∧ !w.edgeFault ∧ !w.answerWaits e (w.proxyTag e i) then
      (w.freeProxy e i).inc (epB e) KEDG_PROXY.proxy_expire
    else w

/-! ### Circuit windows (R344, R345) -/

/-- The live window of an EP that ends first. -/
def Ep.nextCw (p : Ep) : Option (Nat × CwEnt) :=
  p.cw.foldl (fun m x => match m with
    | none => some x
    | some y => if x.2.tOpen < y.2.tOpen then some x else some y) none

/-- CIRCUIT_SPAN_BEGIN (R345): from `t_open` − `cw_lead` no new sequenced frame is sent. -/
def effCircuitSpanBegin (e : Nat) (w : W) : W :=
  match (w.epS e).nextCw with
  | none => w
  | some (i, c) =>
    if (w.epS e).cwPhase ≠ 0 ∨ w.herdTime + w.rd (epB e) KEDG_CW_CFG.cw_lead < c.tOpen then w else
    ((w.wr (epB e) KEDG_STAT.cw_span 1).wr (epB e) KEDG_CW_STAT.cw_next i).epMod e (fun p => { p with cwPhase := 1 })

/-- CIRCUIT_OPEN (R345): at `t_open` the replay buffer is discarded and the peer is checked. -/
def effCircuitOpen (e : Nat) (w : W) : W :=
  match (w.epS e).cw.find (w.rd (epB e) KEDG_CW_STAT.cw_next) with
  | none => w
  | some c =>
    if (w.epS e).cwPhase ≠ 1 ∨ w.herdTime < c.tOpen then w else
    let w := (w.wr (epB e) KEDG_CW_STAT.cw_open 1).linkStop e
    let bad := (w.epS e).peerPkg ≠ c.pkg ∨ (w.epS e).peerEp ≠ c.ep
    let w := if bad then w.inc (epB e) KEDG_CW_EVT2.cw_peer_bad else w
    w.epMod e (fun p => { p with cwPhase := 2, cwBad := decide bad })

/-- CIRCUIT_CLOSE (R344, R345): at `t_close` the window ends and its entry is freed. -/
def effCircuitClose (e : Nat) (w : W) : W :=
  let b := epB e
  let i := w.rd b KEDG_CW_STAT.cw_next
  match (w.epS e).cw.find i with
  | none => w
  | some c =>
    if (w.epS e).cwPhase ≠ 2 ∨ w.herdTime < c.tClose then w else
    let w := (w.wr b KEDG_CW_STAT.cw_open 0).wr b KEDG_STAT.cw_span 0
    let w := w.epMod e (fun p => { p with cw := p.cw.del i, cwPhase := 0, cwBad := false })
    let w := match (w.epS e).nextCw with
      | some (k, _) => w.wr b KEDG_CW_STAT.cw_next k
      | none => w
    -- the link restarts under R324
    (w.linkStop e).epMod e (fun p => { p with owed := p.freeFrames })

/-- The EP sends scheduled cells on its lanes in this fc (R93, R64). -/
def State.circOpen (s : State) (e : Nat) : Bool :=
  match (s.epS e).cw.find (s.rd (epB e) KEDG_CW_STAT.cw_next) with
  | none => false
  | some c => (s.epS e).cwPhase == 2 && c.tOpen + 8 ≤ s.herdTime && s.herdTime + 8 < c.tClose
      && s.rd hrdB KHRD_STATUS.free_run == 0

/-! ### Spine slots (R347 to R349) -/

/-- The sender slot of a spine slot that names a sender. -/
def State.spnSlotOf (s : State) (e k pkg src chan : Nat) : Option Nat :=
  (List.range 16).find? (fun i =>
    s.rd (epB e) KEDG_SPN_SLOT0.s_valid (k * 16 + i) == 1 && s.rd (epB e) KEDG_SPN_SLOT0.s_src (k * 16 + i) == src
    && s.rd (epB e) KEDG_SPN_SLOT0.s_chan (k * 16 + i) == chan && s.rd (epB e) KEDG_SPN_SLOT1.s_pkg (k * 16 + i) == pkg)

/-- A CREDIT of a spine slot to a sender (R196). -/
def W.spnCredit (w : W) (e : Nat) (ctx lines : Nat) (resync : Bool) (pkg src chan : Nat) : W :=
  let p : Packet := { vc := 4, op := 0x21, src := w.epOf (uEp e), ctx := ctx, tag := chan + (if resync then 256 else 0), aux := lines }
  if pkg = w.pkgNum then w.inject (uEp e) { p with dst := src } else w.answerAcross e pkg src p

/-- Send the pending return of sender slot `j` (slot * 16 + sender slot) of a spine slot (R196). -/
def W.spnReturn (w : W) (e k j : Nat) : W :=
  let b := epB e
  let n := w.rd b KEDG_SPN_SLOT2.s_pend j
  let w := w.setSpn e k { w.spnS e k with pendT := (w.spnS e k).pendT.del j }
  if n = 0 then w else
  ((w.wr b KEDG_SPN_SLOT2.s_pend 0 j).spnCredit e 0 n false (w.rd b KEDG_SPN_SLOT1.s_pkg j) (w.rd b KEDG_SPN_SLOT0.s_src j)
    (w.rd b KEDG_SPN_SLOT0.s_chan j))

/-- A message of sender slot `j` (slot * 16 + sender slot) is popped (R196, R347): its `m` lines join the pending return, which
goes out at 8 lines. -/
def W.spnPop (w : W) (e : Nat) (x : Nat × Nat) : W :=
  let k := x.1 / 16
  let w := w.inc (epB e) KEDG_SPN_SLOT2.s_pend x.2 x.1
  let w := if ((w.spnS e k).pendT.find x.1).isSome then w
    else w.setSpn e k { w.spnS e k with pendT := (w.spnS e k).pendT.put x.1 w.fc }
  if 8 ≤ w.rd (epB e) KEDG_SPN_SLOT2.s_pend x.1 then w.spnReturn e k x.1 else w

/-- Lines of a sender slot that are placed in its spine slot and not popped (R194). -/
def Ep.spnPlaced (p : Ep) (j : Nat) : Nat :=
  ((p.eq.find 11).getD []).foldl (fun n o => if o.peer = j then n + o.psn else n) 0
    + p.redxDone.foldl (fun n x => if x.1 = j then n + x.2 else n) 0

/-- Messages whose REDX packet has gone are popped, and returns whose first line is 512 fc old are sent (R196, R347). -/
def W.spnPoll (w : W) (e : Nat) : W :=
  let l := (w.epS e).redxDone
  let w := if l = [] then w else (w.epMod e (fun p => { p with redxDone := [] })).each l (fun w x => w.spnPop e x)
  w.each (w.epS e).spn (fun w x => w.each x.2.pendT (fun w y => if y.2 + 512 ≤ w.fc then w.spnReturn e x.1 y.1 else w))

/-- SPINE_SLOT_MESSAGE (R347): a message to a spine slot, checked as a ring checks it, goes to the egress as one REDX packet,
and is popped when that has been sent. A CRESYNC is answered as a ring answers it. -/
def effSpineSlotMessage (e : Nat) (w : W) : W :=
  let b := epB e
  match w.takeAny (uEp e) (fun p => (p.op == 0x20 || p.op == 0x22) && p.addr == 0) with
  | none => w
  | some (p, w) =>
    let k := p.aux % 256
    let slot := w.spnSlotOf e k (hdPkg p.data) (hdSrc p.data) (hdChan p.data)
    let en := k < 16 ∧ w.rd b KEDG_SPN_CFG.spn_en k = 1
    if p.op = 0x22 then
      match slot with
      | some i =>
        if en then
          let w := (w.wr b KEDG_SPN_SLOT2.s_pend 0 (k * 16 + i)).setSpn e k
            { w.spnS e k with pendT := (w.spnS e k).pendT.del (k * 16 + i) }
          w.spnCredit e p.ctx (w.rd b KEDG_SPN_SLOT2.s_share (k * 16 + i) - (w.epS e).spnPlaced (k * 16 + i)) true (hdPkg p.data) (hdSrc p.data) (hdChan p.data)
        else w.spnCredit e p.ctx 0 true (hdPkg p.data) (hdSrc p.data) (hdChan p.data)
      | none => w.spnCredit e p.ctx 0 true (hdPkg p.data) (hdSrc p.data) (hdChan p.data)
    else
      let m := hdLines p.data
      let st := firstOf [
        (15 < p.aux || 64 < m || p.len != 16 + hdBlen p.data || m == 0 || hdBlen p.data < 33 || 4080 < hdBlen p.data, BADOP),
        (!en || slot.isNone, DENIED)]
      if st ≠ OK then w.cmp (uEp e) p st (msgLines (p.len - 16)) else
      let i := k * 16 + slot.getD 0
      let h : EHdr := { dpkg := 0, dep := 0, spkg := w.pkgNum, sep := e }
      let w := w.egress e 11 { vc := 11, bytes := h.bytes ++ p.data.drop 16, peer := i, psn := m, ctx := p.ctx }
      if p.ack then w.cmp (uEp e) p OK else w

/-- Credit of a spine slot's result channel (R349): for a herd the least of its members' counts, 0 until all are known. -/
def State.spnAvail (s : State) (e k : Nat) : Nat :=
  let l := (s.spnS e k).credit
  if s.rd (epB e) KEDG_SPN_CFG.res_herd k = 1 then
    (if l.length < s.rd (epB e) KEDG_SPN_CFG.members k then 0 else l.foldl (fun m x => min m x.2) 65535)
  else (l.headD (0, 0)).2

/-- Send a result as a message of the slot's result channel (R349). -/
def W.spnSend (w : W) (e k : Nat) (body : List Byte) : W :=
  let b := epB e
  let x := w.spnS e k
  let m := msgLines body.length
  let herd := w.rd b KEDG_SPN_CFG.res_herd k = 1
  let head := msgHead 1 m body.length (w.epOf (uEp e)) k x.mseq w.pkgNum
  let p : Packet := { vc := if 16 + body.length ≤ 32 then 2 else 7, herdMode := decide herd, op := 0x20,
                      dst := w.rd b KEDG_SPN_CFG.res_dst k, src := w.epOf (uEp e), tag := k + 256 * x.mseq,
                      len := 16 + body.length, addr := w.rd2 b KEDG_SPN_RADDR_LO.raddr_lo KEDG_SPN_RADDR_HI.raddr_hi k,
                      aux := w.rd b KEDG_SPN_CFG.dring k, data := head ++ body, ref := 2 ^ 19 + k }
  let p := if le body 16 8 = 0xFFFFFFFFFFFFFFFF then p.poisonAll else p
  (w.setSpn e k { x with mseq := (x.mseq + 1) % 256, credit := x.credit.map (fun c => (c.1, c.2 - m)) }).inject (uEp e) p

/-- Lines of the results a spine slot holds. -/
def spnHeldLines (x : Spn) : Nat := x.results.foldl (fun (n : Nat) (r : List Byte) => n + msgLines r.length) 0

/-- A returned result joins the slot's held results, or is dropped (R349). -/
def W.spnResultIn (w : W) (e : Nat) (x : Nat × Nat × List Byte) : W :=
  let w := w.takeEdge e x
  let body := x.2.2.drop 24
  let k := bits (le body 11 1) 0 4
  let s : Spn := w.spnS e k
  if w.rd (epB e) KEDG_SPN_CFG.spn_en k = 0 ∨ 64 < spnHeldLines s + msgLines body.length then
    w.inc (epB e) KEDG_SPN_EVT.redx_drop 1 k
  else w.setSpn e k { s with results := s.results ++ [body] }

/-- Send the first held result of slot `k` when its credit suffices. -/
def W.spnTrySend (w : W) (e k : Nat) : W :=
  match (w.spnS e k).results with
  | r :: rest =>
    if msgLines r.length ≤ w.spnAvail e k then
      (w.setSpn e k { w.spnS e k with results := rest }).spnSend e k r
    else w
  | [] => w

/-- REDX_RESULT (R348, R349): a returned result is delivered as a message when credit suffices, held in 64 lines of the
slot, or dropped; results held before it go first. With nothing returned it sends a held result whose credit came. A
CREDIT to the slot's channel is taken here too. -/
def effRedxResult (e : Nat) (w : W) : W :=
  let w := match w.takeAny (uEp e) (fun p => p.op == 0x21 && p.ext == []) with
    | none => w
    | some ((p : Packet), (w : W)) =>
      let k := p.tag % 256
      if 16 ≤ k then w else
      w.setSpn e k (spnCreditIn (w.spnS e k)
        (if w.rd (epB e) KEDG_SPN_CFG.res_herd k = 1 then w.rd (epB e) KEDG_SPN_CFG.members k else 1) p.src p.aux (bit p.tag 8))
  let w := match (w.epS e).inq.find? (fun (x : Nat × Nat × List Byte) => x.1 == 11) with
    | none => w
    | some x => w.spnResultIn e x
  w.each (List.range 16) (fun w k => w.spnTrySend e k)

/-- Packets of this EP that wait for a connection (R333, R340) are tried again, in the order of each peer. -/
def W.retryAcross (w : W) (e : Nat) : W :=
  let rec go (w : W) : List (Nat × Nat × Packet) → List Nat → W
    | [], _ => w
    | x :: rest, peers =>
      if peers.contains x.1 then go w rest peers
      else match w.sendAcross e x.1 x.2.1 x.2.2 with
        | some w' => go (w'.epMod e (fun p => { p with waitTx := p.waitTx.erase x })) rest peers
        | none => go w rest (x.1 :: peers)
  go w (w.epS e).waitTx []

/-- FUNC_REINIT F5 on the edge ports (R352). -/
def W.reinitEdge (w : W) : W :=
  w.each (List.range w.fuse.edgePorts) (fun w e =>
    let outs := (w.epS e).conns.flatMap (fun c => c.2.outst.map (fun o => o.pkt))
    let shp := (w.epS e).shaped
    let wait := (w.epS e).waitTx.map (fun x => x.2.2)
    let w := w.each (outs ++ wait ++ shp) (fun w p => w.edgeEnd e p ABORTED true)
    let prox := (w.epS e).proxies
    let w := w.each prox (fun w x => w.freeProxy e x.1)
    let b := epB e
    let w := w.epMod e (fun p => { p with
      conns := [], waitTx := [], shaped := [], sprayC := [], prtt := [], pfail := [], psusp := [], eq := [], txq := [], rxq := []
      spn := p.spn.map (fun x => (x.1, { x.2 with results := [] })) })
    let w := w.each (List.range 64) (fun w p =>
      (((w.wr b KEDG_PATH.weight 256 p).wr b KEDG_PATH.samples 0 p).wr b KEDG_PATH.suspended 0 p).wr b KEDG_PATH.srtt 0 p)
    let w := ((w.wr b KEDG_CONN.conn_used 0).wr b KEDG_REORD.reord_lines 0).wr b KEDG_CW_STAT.cw_txq 0
    w.wr b KEDG_CW_STAT.cw_rxq 0)

/-! ### The commands of this family -/

/-- LANE_LOCK_GAIN (R320). -/
def execLaneLockGain (ep lane : Nat) (s : State) : Host.Outcome State Fault Refusal :=
  run (effLaneLockGain ep lane) s

/-- LANE_LOCK_LOSS (R320). -/
def execLaneLockLoss (ep lane : Nat) (s : State) : Host.Outcome State Fault Refusal :=
  run (effLaneLockLoss ep lane) s

/-- OE_READY_CHANGE (R350). -/
def execOeReadyChange (ep : Nat) (level : Bool) (s : State) : Host.Outcome State Fault Refusal :=
  run (effOeReadyChange ep level) s

/-- BLOCK_HEADER_RECEIVE (R320). -/
def execBlockHeaderReceive (ep : Nat) (rx : List (List (List Nat))) (s : State) : Host.Outcome State Fault Refusal :=
  run (effBlockHeaderReceive ep rx) s

/-- FRAME_BOUNDARY (R326). -/
def execFrameBoundary (ep : Nat) (s : State) : Host.Outcome State Fault Refusal :=
  run (effFrameBoundary ep) s

/-- DATA_FRAME (R323). -/
def execDataFrame (ep : Nat) (s : State) : Host.Outcome State Fault Refusal :=
  run (effDataFrame ep) s

/-- EDGE_PACKET_SEND (R331). -/
def execEdgePacketSend (ep : Nat) (s : State) : Host.Outcome State Fault Refusal :=
  run (effEdgePacketSend ep) s

/-- EDGE_PACKET_RECEIVE (R339). -/
def execEdgePacketReceive (ep : Nat) (s : State) : Host.Outcome State Fault Refusal :=
  run (effEdgePacketReceive ep) s

/-- ACK_PACKET (R338). -/
def execAckPacket (ep : Nat) (s : State) : Host.Outcome State Fault Refusal :=
  run (effAckPacket ep) s

/-- ACK_TIMER (R338). -/
def execAckTimer (ep peer : Nat) (s : State) : Host.Outcome State Fault Refusal :=
  run (effAckTimer ep peer) s

/-- RTO_EXPIRY (R340). -/
def execRtoExpiry (ep peer psn : Nat) (s : State) : Host.Outcome State Fault Refusal :=
  run (effRtoExpiry ep peer psn) s

/-- PROXY_ANSWER (R335). -/
def execProxyAnswer (ep : Nat) (s : State) : Host.Outcome State Fault Refusal :=
  run (effProxyAnswer ep) s

/-- PROXY_EXPIRY (R335). -/
def execProxyExpiry (ep proxy : Nat) (s : State) : Host.Outcome State Fault Refusal :=
  run (effProxyExpiry ep proxy) s

/-- PATH_SUSPEND_END (R337). -/
def execPathSuspendEnd (ep path : Nat) (s : State) : Host.Outcome State Fault Refusal :=
  run (effPathSuspendEnd ep path) s

/-- SHAPING_RELEASE (R343). -/
def execShapingRelease (ep : Nat) (s : State) : Host.Outcome State Fault Refusal :=
  run (effShapingRelease ep) s

/-- CIRC_FRAME (R346). -/
def execCircFrame (ep : Nat) (s : State) : Host.Outcome State Fault Refusal :=
  run (effCircFrame ep) s

/-- CIRCUIT_SPAN_BEGIN (R345). -/
def execCircuitSpanBegin (ep : Nat) (s : State) : Host.Outcome State Fault Refusal :=
  run (effCircuitSpanBegin ep) s

/-- CIRCUIT_OPEN (R345). -/
def execCircuitOpen (ep : Nat) (s : State) : Host.Outcome State Fault Refusal :=
  run (effCircuitOpen ep) s

/-- CIRCUIT_CLOSE (R345). -/
def execCircuitClose (ep : Nat) (s : State) : Host.Outcome State Fault Refusal :=
  run (effCircuitClose ep) s

/-- SPINE_SLOT_MESSAGE (R347). -/
def execSpineSlotMessage (ep : Nat) (s : State) : Host.Outcome State Fault Refusal :=
  run (effSpineSlotMessage ep) s

/-- REDX_RESULT (R349). -/
def execRedxResult (ep : Nat) (s : State) : Host.Outcome State Fault Refusal :=
  run (effRedxResult ep) s

/-- LANE_MAP_WRITE (R317). -/
def execLaneMapWrite (ep val : Nat) (who : Who) (s : State) : Host.Outcome State Fault Refusal :=
  run (effLaneMapWrite ep val who) s

end Sys2Proof.Machine
end

