-- ==== Sys2Proof/Machine/Answer.lean ====
section
/-! DEFINITION. Completions at requesters (R137, R198, R256, R265, R283, R297). -/

namespace Sys2Proof.Machine

/-- A completion settles an outstanding request of a station; `aux` of one for a POOL_READ counts refused pieces (R256). -/
def W.settle (w : W) (st : Nat) (r : Req) (status aux : Nat) : W :=
  match r.own with
  | .core tag off => (w.coreAns st tag off status 0 [] 0).fences st
  | .desc e _ n => w.xferAns st e status n
  | .ringWrite ring msg => w.ringWriteAns st ring msg status
  | .bagRead i => w.bagRefused st i aux status
  | .mergeRow i => w.bagMerged st i (popc (mxMask r.pkt) 16) status
  | _ => w

/-- A completion that answers no outstanding request of a station: of a posted write, or of a message, with its refund. -/
def W.settleFree (w : W) (st : Nat) (p : Packet) : W :=
  if 2 ^ 20 ≤ p.ref then
    let w := w.postCount st 1 [p.ref]
    if p.status = OK then w else w.irqB st 14
  else if p.ans = 0x20 ∨ (p.ans = 0 ∧ p.aux ≠ 0) then (if p.status = OK then w else w.msgRefund st p)
  else if p.ans = 0 then
    let w := w.postCount st 1 []
    if p.status = OK then w else w.irqB st 14
  else w

/-- A completion is a message's (R198): so its header says, or, from another package, it carries a refund and no POOL_READ
of its tag is outstanding. -/
def State.ofMessage (s : State) (u : Nat) (p : Packet) : Bool :=
  p.ans == 0x20 || (p.ans == 0 && p.aux != 0 && p.status != OK && (match s.reqOf u p with
    | some (_, r) => r.pkt.op != 0x40
    | none => true))

/-- CMP_RECEIVE (R137): a requester takes a completion and matches it by tag. Answers to herd requests count up to the
number due (R149); late ones are discarded (R288). Proxies' answers, pops' and those that put a packet on hold have
rows of their own. -/
def effCmpReceive (unit : Nat) (w : W) : W :=
  match w.takeAny unit (fun p => p.op == 0x60 && !w.forPop unit p && !w.staleFirst p && !(0x2040 ≤ unit && unit < 0x2080)) with
  | none => w
  | some (p, w) =>
    let again := p.status == STALE_GEN && p.byRouter
    let w := if again then { w with net.stale := w.net.stale.del p.sref } else w
    let w := if again ∧ unit < 0x2080 then w.inc (unitB unit) KSTN_STALE.stale_fail else w
    if unit = uHost then { w with boot.toHost := w.boot.toHost ++ [p] } else
    match (if 2 ^ 20 ≤ p.ref ∨ w.ofMessage unit p then none else w.reqOf unit p) with
    | none => if 0x1000 ≤ unit ∧ unit < 0x2000 then w.settleFree (unit - 0x1000) p else w
    | some (ref, r) =>
      let n := if p.hops = 0 then r.need else 1
      let sts := r.sts ++ [p.status]
      let w := if n < r.need then w.setReq unit ref { r with need := r.need - n, sts := sts } else w.delReq unit ref
      match r.own with
      | .snoop slice key =>
        (if p.status = STALE_GEN then w.inc (sliceB slice) KMSP_DIR_EVT2.snp_tmo n else w).snoopLost (unit - 0x2000) key n
      | .dump b => w.dumpAck b
      | .cmdWrite q slot => w.cmdWriteAck q slot p.status
      | .plateWrite q slot => w.plateWriteAck q slot p.status
      | _ =>
        if n < r.need then w
        else if r.late then (if 0x1000 ≤ unit ∧ unit < 0x2000 then w.lateAns (unit - 0x1000) r else w)
        else if 0x1000 ≤ unit ∧ unit < 0x2000 then w.settle (unit - 0x1000) r (worst sts) p.aux
        else w

/-! ### The commands of this family -/

/-- CMP_RECEIVE (R137). -/
def execCmpReceive (unit : Nat) (s : State) : Host.Outcome State Fault Refusal :=
  run (effCmpReceive unit) s

end Sys2Proof.Machine
end

