-- ==== Sys2Proof/Machine/Arb.lean ====
section
/-! DEFINITION. The lottery arbiters at work (R153 to R165): requesters, eligibility, draws, grants, phits and pieces on
links, hop credits, quotas, the watchdog. -/

namespace Sys2Proof.Machine

/-! ### Answers that routers make -/

/-- The packet expects to be told when it cannot be sent (R144, R171, R172): every unicast request with a completion, a
posted write, a message, a snoop. -/
def toldOf (p : Packet) : Bool :=
  wantsAns p || p.op == 0x01 || p.op == 0x0C || p.op == 0x20 || (0x50 ≤ p.op && p.op ≤ 0x52)

/-- An endpoint answers its own packet, which was not sent (R144, R402): a CMP delivered to itself; a message's refund is
in `aux`, and the segments of a POOL_READ (R256). -/
def W.localAns (w : W) (u : Nat) (p : Packet) (status : Nat) : W :=
  if toldOf p then
    w.deliver u { ansTo p p.dst with
      status := status
      aux := if p.op = 0x20 then hdLines p.data else if p.op = 0x40 then popc (pxMask p) 16 else 0
      hops := 0 }
  else w

/-- The operation is answered STALE_GEN with a copy kept at its source for re-issue (R171): every unicast request. -/
def reissued (op : Nat) : Bool := !isAnswer op && op != 0x33 && op != 0x41

/-- A router answers STALE_GEN to a packet that it absorbed (R169, R171, R172): to every unicast packet that is no answer,
and to herd copies with `ack`. The source keeps a copy of what it may issue again. -/
def W.staleAns (w : W) (u inp : Nat) (p : Packet) : W :=
  if isAnswer p.op then w
  else if p.herdMode then (if p.ack then w.rtrAns u inp p STALE_GEN else w)
  else
    let aux := if p.op = 0x20 then hdLines p.data else if p.op = 0x40 then popc (pxMask p) 16 else 0
    if reissued p.op then
      let n := w.net.injSeq + 1
      let w := { w with net.injSeq := n }
      { w with net.stale := w.net.stale.put n p }.rtrAns u inp { p with sref := n } STALE_GEN aux
    else w.rtrAns u inp p STALE_GEN aux

/-- A router that reaches a dead port absorbs a packet or copy: counted and answered (R169). -/
def W.staleGen (w : W) (u inp : Nat) (p : Packet) : W :=
  (w.inc (rtrB u) KRTR_ABSORB.stale_absorb).staleAns u inp p

/-- A packet of one of the router's own units is absorbed at a dead port (R169, R267): a partial is answered to its source,
a merged row to each contributor, which issues its own row again. Answers, and what a reduction unit sends, are answered to
nobody. -/
def W.ownGone (w : W) (u src : Nat) (p : Packet) : W :=
  let w := w.inc (rtrB u) KRTR_ABSORB.stale_absorb
  if src = pPool then w.staleAns u (p.hopAt (p.hopPtr - 1)) { p with hopPtr := p.hopPtr - 1 }
  else if src = pMrg then
    match Tbl.findBy (fun k e => k / 512 == u - 0x300 && e.wait && e.first.src == p.src && e.first.tag == p.tag
        && e.first.ctx == p.ctx) w.col.mrg with
    | none => w
    | some (key, e) =>
      let w := { w with col.mrg := w.col.mrg.del key }.mrgCount (u - 0x300)
      w.each e.contrib (fun w x => w.staleAns u x.2 x.1)
  else w

/-! ### Requesters -/

/-- Bytes of a grant on an output (R159, R161). -/
def grantB (u p net : Nat) : Nat := if net = 3 then 64 * max 1 (lanesOf u p) else phitB u p net

/-- A packet in `l` that a source could send on a port: place in the buffer, place among its copies, bytes of the next
phit, whether it is the first, whether the last. -/
structure Cand where
  idx : Nat
  ci : Nat
  n : Nat
  first : Bool
  last : Bool
  buf : Buf
  pkt : Packet

/-- The candidate that a buffered packet offers a port. -/
def candOf (u p net : Nat) (i : Nat) (b : Buf) : Option Cand :=
  let cs : List Copy := if b.copies = [] ∧ !b.routed then [{ port := p, pkt := b.pkt }] else b.copies
  match cs.findIdx? (fun c => c.port == p && (c.sent < b.arrived || !b.last)) with
  | none => none
  | some ci =>
    match cs[ci]? with
    | none => none
    | some c =>
      let g := grantB u p net
      if c.sent < b.arrived ∧ (b.last ∨ g ≤ b.arrived - c.sent) then
        let n := min g (b.arrived - c.sent)
        some { idx := i, ci := ci, n := n, first := c.sent == 0, last := b.last && c.sent + n == b.arrived, buf := b, pkt := c.pkt }
      else none

/-- The send channel of a packet, by its message header (R189): sender's package, endpoint and channel, + 1; 0 for a packet
of no channel. A CRESYNC counts as a message of its channel (R194). -/
def chanOf (p : Packet) : Nat :=
  if p.op = 0x20 ∨ p.op = 0x22 then 1 + hdChan p.data + 256 * (hdSrc p.data + 4096 * hdPkg p.data) else 0

/-- A record key of the generation last looked up (R173): a send channel, or a granule bucket; none for a packet of
neither. -/
def genKey (u : Nat) (p : Packet) : Option Nat :=
  if chanOf p ≠ 0 then some (u * 2 ^ 40 + 256 + chanOf p)
  else if hasAddr p.op then some (u * 2 ^ 40 + bits p.addr 8 8) else none

/-- The generation in which a packet's channel or bucket was last looked up (R173). -/
def State.lastLookup (s : State) (u : Nat) (p : Packet) : Option Nat := (genKey u p).bind s.net.lastGen.find

/-- Packets that R191 and R305 keep in order: of one send channel, or requests to one granule. -/
def sameOrder (a b : Packet) : Bool :=
  (chanOf a != 0 && chanOf a == chanOf b)
    || (hasAddr a.op && hasAddr b.op && a.dst == b.dst && a.addr / 256 == b.addr / 256)

/-- Packet `a` of a source goes before packet `b`: a re-issued one before one that is not (R173), else the first injected. -/
def Buf.before (a b : Buf) : Bool :=
  if a.pkt.retry == b.pkt.retry then a.seq < b.seq else a.pkt.retry

/-- A packet in an injection queue waits: for the drain of the generation its channel or bucket last used (R173), or for
an earlier packet in its order on another VC that the first hop has not sent on whole (R191, R305). -/
def State.heldBack (s : State) (u : Nat) (b : Buf) : Bool :=
  (!b.routed && !b.pkt.retry && s.draining && s.lastLookup u b.pkt == some s.genDrain)
    || (match s.peer u 0 with
      | none => false
      | some (v, pv) => (List.range 10).any (fun vc => vc != b.pkt.vc &&
          (s.buf u pInj vc ++ s.buf v pv vc).any (fun x => x.before b && sameOrder x.pkt b.pkt)))

/-- What a source offers a port on a VC for a decision made in fc `t`: a router's input its oldest packet, once its header
is taken; an endpoint the packet it has begun, else the first that may go. -/
def State.cand (s : State) (t u p net src vc : Nat) : Option Cand :=
  let l := s.buf u src vc
  if src = pInj then
    match l.findIdx? (fun b => b.copies.any (fun c => c.sent != 0)) with
    | some i => l[i]?.bind (candOf u p net i)
    | none =>
      match l.findIdx? (fun b => !s.heldBack u b && !s.frozenAt t u b.pkt.ctx) with
      | some i => l[i]?.bind (candOf u p net i)
      | none => none
  else match l with
    | [] => none
    | b :: _ => if b.routed then candOf u p net 0 b else none

/-- Credits that a phit needs (R157). -/
def credCost (net n : Nat) : Nat := if net = 3 then (n + 63) / 64 else 1

/-- A candidate may send, but for the draw (R157), on a decision made in fc `t`: credit, hold, freeze. -/
def State.sendable (s : State) (t u p net src vc : Nat) (a : Arb) (c : Cand) : Bool :=
  Tbl.get 0 s.net.used (qKey u p vc) + credCost net c.n ≤ vcDepth vc
    && (match a.holds.find vc with | none => true | some h => h.src == src)
    && !(c.first && s.frozenAt t u c.pkt.ctx)

/-- The sources of an output, in the order of its requester list (R153, R154): (source, VC). -/
def State.requesters (s : State) (u p net : Nat) : List (Nat × Nat) :=
  if isRouter u then
    ((portsOf u).filter (fun q => q != p && s.portPresent u q)).flatMap (fun q => (vcsOf net).map (fun v => (q, v)))
      ++ (if net = 1 then [(pAns, 3)] else [])
      ++ (if isTine u then (if net = 0 then [(pRed, 0)] else if net = 3 then [(pRed, 6)] else []) else [])
      ++ (if isRR u ∧ net = 3 then [(pPool, 9)] else [])
      ++ (if isTine u ∧ net = 3 then [(pMrg, 9)] else [])
  else (vcsOf net).map (fun v => (pInj, v))

/-- Inputs that hold no ticket at an output: copies of herd packets that leave by the port they came in on (R149), and the
answers of an unbound spare station to folio packets (R30). -/
def State.backOf (s : State) (u p net : Nat) : List (Nat × Nat) :=
  if isRouter u then
    (vcsOf net).map (fun v => (p, v)) ++ (if isRR u ∧ p ≠ 4 ∧ !s.portPresent u 4 then (vcsOf net).map (fun v => (4, v)) else [])
  else []

/-! ### Phits and pieces -/

/-- The phit of `n` bytes that a grant sends of a packet, from its byte `sent` on (R134). -/
def phitOf (pkt : Packet) (sent : Nat) (first last : Bool) (seq n : Nat) : Piece :=
  { pkt := pkt, off := sent, first := first, last := last, seq := seq, len := n,
    poison := (({ pkt with pois := 0 } : Packet).poisonAt sent n).pois &&& pkt.pois != 0 }

/-- Pieces of a granted DAT phit (R123, R135). -/
def piecesOf (pkt : Packet) (sent : Nat) (first last : Bool) (seq n : Nat) : List Piece :=
  let k := (n + 63) / 64
  (List.range k).map (fun i =>
    phitOf pkt (sent + 64 * i) (first && i == 0) (last && i + 1 == k) seq (if i + 1 = k then n - 64 * i else 64))

/-! ### The first grant at an endpoint: lookup (R144, R148, R402) -/

/-- Look a packet up at its first grant: the packet to send, or the status it ends with: a reserved endpoint is BADOP (R21). -/
def State.atGrant (s : State) (u : Nat) (b : Buf) : Packet ⊕ Nat :=
  if b.routed then .inl ((b.copies.head?.map (fun c => c.pkt)).getD b.pkt)
  else if b.pkt.herdMode then
    match s.climb u b.pkt.dst with
    | none => .inr NOROUTE
    | some h => .inl { b.pkt with gen := s.genCur, hops := h.length, hopPtr := 0, hop := hopList h }
  else if 0x882 ≤ b.pkt.dst then .inr BADOP
  else if s.deadAt u b.pkt.dst then .inr DEAD_TARGET
  else match s.lookup u b.pkt with
    | none => .inr NOROUTE
    | some p => .inl p

/-- A grant with nothing to send (R159). -/
def W.waste (w : W) (u p net : Nat) : W :=
  if isRouter u then (w.inc (rtrB u) KRTR_ARB_WASTE.waste 1 (p + 64 * net)).ev u 0x21 1 0 p 0 else w

/-- After a copy's phit: the phits that left the buffer of a router's input are returned (R151). -/
def W.afterSend (w : W) (u src vc i : Nat) (b : Buf) : W :=
  let done := b.last && b.copies.all (fun c => c.sent == b.arrived)
  if 48 ≤ src then (if done then w.delNth u src vc i else w.setNth u src vc i b)
  else
    let low := b.copies.foldl (fun m c => min m c.sent) b.arrived
    let k := if done then b.phits u src vc else low / phitB u src (netOf vc)
    let w := w.owe u src vc (k - b.freed)
    if done then w.delNth u src vc i else w.setNth u src vc i { b with freed := max b.freed k }

/-- Use a grant (R158 to R162): the requester's phit is sent, or the fc is wasted. A freeze since the decision leaves the
grant as it is (R164). -/
def W.useGrant (w : W) (u p net src vc : Nat) (errs : List Err) : W :=
  let a := w.arb u p net
  match w.cand (w.fc - 1) u p net src vc with
  | none => w.waste u p net
  | some c =>
    if !w.sendable (w.fc - 1) u p net src vc a c then w.waste u p net else
    let end_ := src = pInj ∧ c.first
    match (if end_ then w.atGrant u c.buf else .inl c.pkt) with
    | .inr st =>
      let w := (w.delNth u src vc c.idx).waste u p net
      let w := if st = NOROUTE ∧ u < 0x2080 then w.inc (unitB u) KSTN_NOROUTE.noroute else w
      w.localAns u c.pkt st
    | .inl pkt =>
      let cost := credCost net c.n
      let b := c.buf
      let cs : List Copy := if end_ then [{ port := p, pkt := pkt }] else b.copies
      let cs := cs.modify c.ci (fun x => { x with sent := x.sent + c.n })
      let sent := ((cs[c.ci]?.map (fun x => x.sent)).getD 0) - c.n
      let w := { w with net.used := w.net.used.put (qKey u p vc) (Tbl.get 0 w.net.used (qKey u p vc) + cost) }
      let w := w.afterSend u src vc c.idx { b with copies := cs, routed := true }
      let h := (a.holds.find vc).getD { src := src, progress := 0, ctx := pkt.ctx, emptyT := 0 }
      let a := { a with holds := if c.last then a.holds.del vc else a.holds.put vc { h with progress := h.progress + cost, emptyT := 0 } }
      let lanes := if net = 3 then lanesOf u p else 0
      let a := if lanes = 0 then a else { a with placing := piecesOf pkt sent c.first c.last b.seq c.n }
      let w := w.setArb u p net a
      let w := if c.last ∧ 0x1000 ≤ u ∧ u < 0x2000 then w.postSent (u - 0x1000) pkt.ref else w
      let w := if isRouter u then (w.util u (0xD68 + 16 * p) c.n).ev u 0x20 1 pkt.ctx p vc
        else if u < 0x2080 then w.util u 0xD68 c.n else w
      let w := if !c.first then w else
        let (ty, ix) := w.utype u
        let w := if isRouter u then w.trace 0 pkt.op pkt.ctx (hdrBytes pkt) (fun a b c d => a == ty && b == ix && c == p && d == net) else w
        let w := if 0x1000 ≤ u ∧ u < 0x2000 then w.ev u 0x07 1 pkt.ctx else w
        let w := if end_ ∧ !b.routed then (match genKey u b.pkt with
          | some k => { w with net.lastGen := w.net.lastGen.put k pkt.gen }
          | none => w) else w
        match (if end_ then w.req1 u pkt.ref else none) with
        | some r => w.setReq u pkt.ref { r with grant := some w.fc }
        | none => w
      if lanes ≠ 0 then w
      else if net ≠ 3 then w.overLink u p (phitOf pkt sent c.first c.last b.seq c.n) errs
      else w.each (piecesOf pkt sent c.first c.last b.seq c.n) (fun w x => w.overLink u p x errs)

/-! ### The draw -/

/-- The state of the next fc as far as lanes and pauses go (R68, R71). -/
def State.nextFc (s : State) : State :=
  if s.isPaused then { s with plt.paused := true } else { s with plateTime := s.plateTime + 1, plt.paused := false }

/-- Pieces of granted DAT phits that have yet to be placed in this fc's slot and later ones (R161): those waiting, and
those of the phit that this fc's grant sends. -/
def State.toPlace (s : State) (u p : Nat) (a : Arb) : Nat :=
  a.placing.length + (match a.grant with
    | none => 0
    | some (src, vc) => match s.cand (s.fc - 1) u p 3 src vc with
      | some c => if a.placing == [] && s.sendable (s.fc - 1) u p 3 src vc a c then credCost 3 c.n else 0
      | none => 0)

/-- A DAT draw may be made for the next fc (R161): this fc's free lanes take every piece of a granted phit, and the next
fc is not paused and has a free lane. -/
def State.datOpen (s : State) (u p : Nat) (a : Arb) : Bool :=
  lanesOf u p == 0 ||
    (s.toPlace u p a ≤ (if s.plt.slotDone ∨ s.isPaused then 0 else (s.freeLanes u p).length) && (s.nextFc.freeLanes u p) != [])

/-- Eligible requesters of an output for the next fc (R157, R162). -/
def State.eligible (s : State) (u p net : Nat) (a : Arb) (r : Nat × Nat) : Bool :=
  match s.cand s.fc u p net r.1 r.2 with
  | none => false
  | some c => s.sendable s.fc u p net r.1 r.2 a c && !s.qMasked (setB u) a r.1 r.2 (s.herdTime + 1)

/-- One decision (R158): the LFSR steps only when some requester is eligible. With no eligible requester in the list, a
copy in `back` goes, without a draw: it holds no ticket (log). -/
def State.draw (s : State) (u : Nat) (a : Arb) (l back : List (Nat × Nat)) (ok : Nat × Nat → Bool) : Arb :=
  if l.any ok then
    let x := lfsrStep a.lfsr
    { a with lfsr := x, grant := drawFrom (s.tickets (setB u) l) ok 255 x }
  else { a with grant := back.find? ok }

/-- A requester is quota-masked that has something to send (KRTR_ARB_WASTE). -/
def State.anyMasked (s : State) (u p net : Nat) (a : Arb) (l : List (Nat × Nat)) : Bool :=
  l.any (fun r => s.qMasked (setB u) a r.1 r.2 (s.herdTime + 1) && (s.cand s.fc u p net r.1 r.2).isSome)

/-! ### The input arbiter of a memory port (R293) -/

/-- Weight of a requester of the input arbiter: MRQ, WDT, POOL, and 10 for deferred requests (KMSP_TKW). -/
def State.mspWeight (s : State) (m r : Nat) : Nat :=
  let b := mspB m
  match r with
  | 1 => s.rdOld b KMSP_TKW.w_mrq
  | 6 => s.rdOld b KMSP_TKW.w_wdt
  | 9 => s.rdOld b KMSP_TKW.w_pool
  | _ => s.rdOld b KMSP_TKW.w_def

/-- Operations that go through the input arbiter: requests, and snoop answers with data, on the same VCs (R293). -/
def mspReq (p : Packet) : Bool := (!isAnswer p.op || p.op == 0x59) && p.op != 0x70 && p.op != 0x21

/-- The deferred request of a port that may go on: none of its lines is busy and a way is free (R298, R303). -/
def State.deferReady (s : State) (m : Nat) : Option Packet :=
  (((s.msp.defer.find (m / 2)).getD []).find? (fun x => x.1 == m && !s.mustDefer m x.2)).map (fun x => x.2)

/-- The request that a requester offers the pipeline. -/
def State.mspHead (s : State) (m r t : Nat) : Option Packet :=
  if r = 10 then s.deferReady m
  else match (s.buf (uMsp m) 0 r).find? (fun b => mspReq b.pkt && !(s.deferBars m b.pkt)) with
    | some b =>
      let early := (List.range 10).any (fun vc => (s.buf (uMsp m) 0 vc).any (fun x =>
        x.seq < b.seq && mspReq x.pkt && hasAddr x.pkt.op && sameGran x.pkt b.pkt && !s.deferBars m x.pkt))
      if b.last && !early && !s.frozenAt t (uMsp m) b.pkt.ctx then some b.pkt else none
    | none => none

/-- One draw at a memory port's input: the winner of the last decision enters the pipeline. -/
def W.mspDraw (w : W) (m : Nat) : W :=
  let u := uMsp m
  let a := w.arb u 1 0
  if a.drawn = w.fc + 1 then w else
  let l := [1, 6, 9, 10]
  let ok (r : Nat × Nat) : Bool := (w.mspHead m r.1 w.fc).isSome
  let t := l.flatMap (fun r => List.replicate (w.mspWeight m r) (r, r))
  let a' := if l.any (fun r => ok (r, r)) then
      let x := lfsrStep a.lfsr
      { a with lfsr := x, grant := drawFrom t ok 255 x }
    else { a with grant := none }
  let w := match a.grant with
    | none => w
    | some (r, _) =>
      match w.mspHead m r (w.fc - 1) with
      | none => w
      | some p =>
        if r = 10 then
          let d := (w.msp.defer.find (m / 2)).getD []
          ({ w with msp.defer := w.msp.defer.put (m / 2) (d.erase (m, p)) }.dirCount (m / 2)).setIntake m (w.intakeOf m ++ [p])
        else match w.takeVc u r (fun q => q == p) with
          | some (p, w) => (w.setIntake m (w.intakeOf m ++ [p])).ev u 0x40 1 p.ctx 0 r
          | none => w
  w.setArb u 1 0 { a' with drawn := w.fc + 1 }

/-- A packet's copy for one port ends there: the buffer keeps its other copies, or drops the packet (R165, R169). -/
def W.dropCopy (w : W) (u src vc i port : Nat) : W :=
  match (w.buf u src vc)[i]? with
  | none => w
  | some b =>
    let rest := b.copies.filter (fun c => c.port != port)
    if rest = [] then w.dropNth u src vc i else w.afterSend u src vc i { b with copies := rest }

/-- A poisoned `last` phit or piece with zero payload ends a packet downstream, on a credit of its VC (R165, R169). -/
def W.endDownstream (w : W) (u port : Nat) (pkt : Packet) (sent : Nat) : W :=
  let n := min 64 (phitB u port (netOf pkt.vc))
  let w := { w with net.used := w.net.used.put (qKey u port pkt.vc) (Tbl.get 0 w.net.used (qKey u port pkt.vc) + 1) }
  w.overLink u port
    { pkt := pkt.poisonAll, off := sent, first := false, last := true, poison := true, len := n,
      dead := decide (sent < 32), got := List.replicate n 0 } []

/-- The packets of one buffer that were routed to a dead port are absorbed: whole, or as one copy of a herd packet; what was
sent in part is ended downstream with a poisoned last (R169, R172). -/
def W.cutCopies (w : W) (u port : Nat) (k : Nat) : W :=
  let src := k / 16 % 64
  let vc := k % 16
  w.each ((List.range (w.buf u src vc).length).reverse) (fun w i =>
    match (w.buf u src vc)[i]? with
    | none => w
    | some b =>
      match b.copies.find? (fun c => c.port == port && (c.sent < b.arrived || !b.last)) with
      | none => w
      | some c =>
        let w := if c.sent = 0 then w else w.endDownstream u port c.pkt c.sent
        let w := w.dropCopy u src vc i port
        if 48 ≤ src then w.ownGone u src c.pkt else w.staleGen u src b.pkt)

/-- Every packet that waits for a dead port is absorbed (R169). -/
def W.absorbDead (w : W) (u port : Nat) : W :=
  if isRouter u && w.portDead u port then
    w.each ((w.net.q.map (fun e => e.1)).filter (fun k => k / 1024 == u)) (fun w k => w.cutCopies u port k)
  else w

/-- ARBITER_DRAW (R158): one fc of an arbiter: the decision for the next fc from the state as it stands, then the use of
the decision made before. An arbiter decides once in an fc. Port 1 of a memory port is its input pipeline; an edge port's
egress draws at its frame boundaries (R325). What waits for a dead port is absorbed (R169). `errs`: what the phit meets on
its link. -/
def effArbiterDraw (unit port net : Nat) (errs : List Err) (w : W) : W :=
  if 0x2040 ≤ unit ∧ unit < 0x2080 ∧ port ≠ 0 then w
  else if 0x2000 ≤ unit ∧ unit < 0x2040 ∧ port = 1 then w.mspDraw (unit - 0x2000)
  else if (w.peer unit port).isNone ∨ 4 ≤ net then w
  else
    let a := w.arb unit port net
    if a.drawn = w.fc + 1 then w else
    let w := w.absorbDead unit port
    let l := w.requesters unit port net
    let masked := w.anyMasked unit port net a l
    let open_ := net ≠ 3 || w.datOpen unit port a
    let wait := net = 3 ∧ lanesOf unit port ≠ 0 ∧ a.placing ≠ []
    let a' := if open_ then w.toState.draw unit a l (w.backOf unit port net) (w.eligible unit port net a)
      else { a with grant := if wait then a.grant else none }
    let w := match a.grant with
      | none => w
      | some (src, vc) => if wait then w else w.useGrant unit port net src vc errs
    let i := port + 64 * net
    let w := if isRouter unit ∧ a'.grant.isSome then w.inc (rtrB unit) KRTR_ARB_GRANTS.grants 1 i else w
    let w := if isRouter unit ∧ masked then w.inc (rtrB unit) KRTR_ARB_WASTE.qmasked 1 i else w
    let b : Arb := { w.arb unit port net with lfsr := a'.lfsr, grant := a'.grant, drawn := w.fc + 1 }
    w.setArb unit port net (match a'.grant with
      | some (src, vc) => if open_ then w.countGrant (setB unit) b src vc (w.herdTime + 1) else b
      | none => b)

/-- QUOTA_WINDOW_START (R162): at the first fc of a window every quota of the arbiter is fresh. -/
def effQuotaWindowStart (unit port net : Nat) (w : W) : W :=
  let a := w.arb unit port net
  if w.herdTime % 2 ^ w.rdOld (setB unit) KRTR_QUOTA.q_win_log2 = 0 then w.setArb unit port net { a with quota := [] } else w

/-- WATCHDOG_BITE (R165): a holder with phits to come and none waiting for 2^`wd_log2` fc is ended with a poisoned last
phit, its hold is released, and its later phits are discarded. -/
def effWatchdogBite (unit port net vc : Nat) (w : W) : W :=
  let a := w.arb unit port net
  match a.holds.find vc with
  | none => w
  | some h =>
    if h.emptyT < 2 ^ w.rdOld (setB unit) KRTR_WDOG.wd_log2 ∨ vcDepth vc ≤ Tbl.get 0 w.net.used (qKey unit port vc) then w else
    let w := w.setArb unit port net { a with holds := a.holds.del vc }
    let w := match (w.buf unit h.src vc).findIdx? (fun b => b.copies.any (fun c => c.port == port && c.sent != 0)) with
      | some i =>
        let c := ((w.buf unit h.src vc)[i]?.bind (fun b => b.copies.find? (fun (c : Copy) => c.port == port)))
        match c with
        | some c => (w.endDownstream unit port c.pkt c.sent).dropCopy unit h.src vc i port
        | none => w
      | none => w
    let w := if isRouter unit then w.rtrCount unit KRTR_WDOG_CNT.wd_bites else w
    w.fault clARB (locOf unit)

/-- CREDIT_WORD_RECEIVE (R151, R152): a credit word returns credits of one VC for phits that left the buffer at the other
end; one whose codeword is uncorrectable is lost. -/
def effCreditWordReceive (unit port cvc cnt : Nat) (errs : List Err) (w : W) : W :=
  match w.peer unit port with
  | none => w
  | some (v, pv) =>
    let owed := Tbl.get 0 w.net.owed (qKey v pv cvc)
    let n := min (min cnt 15) owed
    let w := { w with net.owed := Tbl.set 0 w.net.owed (qKey v pv cvc) (owed - n) }
    match w.rxCode unit (creditWord cvc n) (errsOf errs 0) with
    | (some m, w) =>
      let k := bits (le m 0 1) 0 4
      { w with net.used := Tbl.set 0 w.net.used (qKey unit port k) (Tbl.get 0 w.net.used (qKey unit port k) - bits (le m 0 1) 4 4) }
    | (none, w) =>
      let w := if isRouter unit then w.flag (rtrB unit) KRTR_ARB_EVT.credit_lost else w
      w.fault clARB (locOf unit)

/-! ### The commands of this family -/

/-- ARBITER_DRAW (R158). -/
def execArbiterDraw (unit port net : Nat) (errs : List Err) (s : State) : Host.Outcome State Fault Refusal :=
  run (effArbiterDraw unit port net errs) s

/-- QUOTA_WINDOW_START (R162). -/
def execQuotaWindowStart (unit port net : Nat) (s : State) : Host.Outcome State Fault Refusal :=
  run (effQuotaWindowStart unit port net) s

/-- WATCHDOG_BITE (R165). -/
def execWatchdogBite (unit port net vc : Nat) (s : State) : Host.Outcome State Fault Refusal :=
  run (effWatchdogBite unit port net vc) s

/-- CREDIT_WORD_RECEIVE (R151). -/
def execCreditWordReceive (unit port cvc cnt : Nat) (errs : List Err) (s : State) : Host.Outcome State Fault Refusal :=
  run (effCreditWordReceive unit port cvc cnt errs) s

end Sys2Proof.Machine
end

