-- ==== Sys2Proof/Machine/Route.lean ====
section
/-! DEFINITION. Routing in routers, herds, route tables and route generations (R140 to R150, R166 to R173). -/

namespace Sys2Proof.Machine

/-! ### Taking a packet's header (R142) -/

/-- A folio packet for the router it reaches (R138). -/
def unitStop (p : Packet) : Bool := p.op == 0x70 && bit (le p.ext 5 1) 0

/-- A whole packet leaves an input buffer for one of the router's own units. -/
def W.toUnit (w : W) (u port vc i : Nat) (b : Buf) (dest : Nat) : W :=
  if !b.last then w else
  (w.dropNth u port vc i).pushBuf u dest { pkt := b.pkt, arrived := b.arrived, last := true, inp := port }

/-- The absorbing sink of a station fenced for every context (R406): passed through, or absorbed and answered. -/
def sinkPass (p : Packet) : Bool :=
  (p.src == 0x880 || p.src == 0x881) &&
    ((p.op == 0x70 && (let sp := bits (le p.ext 4 1) 0 2; sp == 1 || sp == 2))
      || ((p.op == 0x01 || p.op == 0x02) && isEpWin p.addr && bit p.addr 28))

/-- What the sink does with a packet or copy that it absorbs. -/
def W.sinkTake (w : W) (u inp : Nat) (p : Packet) : W :=
  let count (w : W) : W := w.inc (rtrB u) KRTR_SINK_CNT.sink_drop
  if p.herdMode then
    (if p.ack || (0x50 ≤ p.op && p.op ≤ 0x52) then w.rtrAns u inp p DEAD_TARGET else count w)
  else if p.op = 0x20 then w.rtrAns u inp p DEAD_TARGET (hdLines p.data)
  else if wantsAns p || (0x50 ≤ p.op && p.op ≤ 0x52) then w.rtrAns u inp p DEAD_TARGET
  else if p.op = 0x01 ∨ p.op = 0x0C then (count w).rtrAns u inp p DEAD_TARGET
  else count w

/-- A unit's own half of a packet's header is unreadable, or is taken for another (R140, R379): the first phit of the packet
as the unit reads it, with the damage that its codewords show. -/
def W.rxHead (w : W) (u port : Nat) (p : Packet) (errs : List Err) : Option Packet × W :=
  let n := phitB u port (netOf p.vc)
  match w.rxPhit u (netOf p.vc) n (phitOf p 0 true (p.size ≤ n) 0 (min n p.size)) errs with
  | (pc, w) => if pc.dead then (none, w) else (some (if pc.got = [] then p else took p 0 pc.got), w)

/-- A router sends a packet on by a port (R30, R32): one that has a link in use. A folio reaches the fence and status
registers of an unbound spare station. -/
def State.outOk (s : State) (u out : Nat) (p : Packet) : Bool :=
  (portsOf u).contains out && (s.portPresent u out || (isRR u && out == 4 && p.op == 0x70))

/-- The packet is not to be routed here by its header (R140): damage that a router can see. -/
def hdrWrong (u : Nat) (port vc : Nat) (p : Packet) : Bool :=
  p.vc != vc || 10 ≤ p.vc || p.hops < p.hopPtr || (isRouter u && 48 ≤ port)

/-- PACKET_ROUTE (R140, R142): the first packet of an input VC whose header is not taken yet is routed by its next hop
entry, taken by a unit of the router, absorbed, or discarded as damaged. A herd packet at its root and a folio that
stops here have rows of their own. `errs` is damage to the header as the router reads it. -/
def effPacketRoute (router port vc : Nat) (errs : List Err) (w : W) : W :=
  let l := w.buf router port vc
  if !isRouter router ∨ 48 ≤ port then w else
  match l.findIdx? (fun b => !b.routed && !b.drop) with
  | none => w
  | some i =>
    match l[i]? with
    | none => w
    | some b =>
      let bad (w : W) : W := (w.dropNth router port vc i).hdrBad router
      match w.rxHead router port b.pkt errs with
      | (none, w) => bad w
      | (some p, w) =>
        let w := if p = b.pkt then w else w.setNth router port vc i { b with pkt := p }
        let b := { b with pkt := p }
        if hdrWrong router port vc p then bad w
        else if p.hopPtr = p.hops then
          if p.herdMode ∨ unitStop p then w
          else if isTine router && (p.op == 0x30 || p.op == 0x31 || p.op == 0x32) then
            (if b.last && !w.redWaits (router - 0x300) p then (w.dropNth router port vc i).redArrive (router - 0x300) p else w)
          else bad w
        else
          let out := p.hopAt p.hopPtr
          if isTine router ∧ out = 42 ∧ p.op = 0x60 then w.toUnit router port vc i b pMin
          else if !w.outOk router out p then bad w
          else if w.portDead router out then (w.dropNth router port vc i).staleGen router port p
          else if w.isSink router out ∧ !sinkPass p then (w.dropNth router port vc i).sinkTake router port p
          else if isRR router && (5 ≤ port && port ≤ 8) && out ≤ 4 && p.op == 0x41 && !pxFinal p then
            w.toUnit router port vc i b pPin
          else if isTine router && (out == 17 || out == 18) && p.op == 0x42 && !mxMerged p then
            w.toUnit router port vc i b pMin
          else w.setNth router port vc i { b with routed := true, copies := [{ port := out, pkt := hopOn p port }] }

/-- HERD_ROUTE (R149): a herd packet at its root, or below it, descends by the router's mask. -/
def effHerdRoute (router port vc : Nat) (w : W) : W :=
  let l := w.buf router port vc
  if !isRouter router ∨ 48 ≤ port then w else
  match l.findIdx? (fun b => !b.routed && !b.drop) with
  | none => w
  | some i =>
    match l[i]? with
    | none => w
    | some b =>
      let p := b.pkt
      if !p.herdMode ∨ p.hopPtr ≠ p.hops then w else
      let e := w.herdEnt p.gen router p.dst
      let gone (w : W) : W := w.dropNth router port vc i
      if !e.hvalid then (if p.ack then (gone w).rtrAns router port p NOROUTE else gone w)
      else if e.hctx ≠ p.ctx then
        let w := (gone w).inc (rtrB router) KRTR_ABSORB.herd_denied
        if p.ack then w.rtrAns router port p DENIED else w
      else if 7 ≤ p.hops then (gone w).hdrBad router
      else
        let ports := (maskPorts router e.mask).filter (fun o => w.outOk router o p)
        let (live, dead) := ports.partition (fun o => !w.portDead router o && !w.isSink router o)
        let w := w.each dead (fun w o => if w.portDead router o then w.staleGen router port p else w.sinkTake router port p)
        let q := hopDown p port
        if live = [] then gone w
        else w.setNth router port vc i { b with routed := true, copies := live.map (fun o => { port := o, pkt := q }) }

/-! ### Dead ports (R169) -/

/-- Pieces of a granted phit that a port had not sent when it died are dropped, and their credits stay. A packet whose last
piece is among them ends downstream with a poisoned last, or, when none of it was sent, is absorbed whole (R169, R172). -/
def W.cutPlacing (w : W) (u port : Nat) : W :=
  let a := w.arb u port 3
  match a.placing with
  | [] => w
  | pc :: _ =>
    let k := qKey u port pc.pkt.vc
    let w := { w with net.used := Tbl.set 0 w.net.used k (Tbl.get 0 w.net.used k - a.placing.length) }
    let w := w.setArb u port 3 { a with placing := [] }
    if !a.placing.any (fun x => x.last) then
      match a.holds.find pc.pkt.vc with
      | none => w
      | some h => w.setBuf u h.src pc.pkt.vc ((w.buf u h.src pc.pkt.vc).map (fun b => { b with
          copies := b.copies.map (fun c => if c.port = port then { c with sent := min c.sent pc.off } else c) }))
    else if !pc.first then w.endDownstream u port pc.pkt pc.off
    else if isTine u ∧ pc.pkt.op = 0x42 ∧ mxMerged pc.pkt then w.ownGone u pMrg pc.pkt
    else w.staleGen u (pc.pkt.hopAt (pc.pkt.hopPtr - 1)) { pc.pkt with hopPtr := pc.pkt.hopPtr - 1 }

/-- Mark a router's output port dead (R169). -/
def W.portDie (w : W) (u port : Nat) : W :=
  if w.portDead u port then w else
  let w := if port < 32 then w.wr (rtrB u) KRTR_DEAD_LO.dead_lo (setBit (w.rd (rtrB u) KRTR_DEAD_LO.dead_lo) port true)
    else w.wr (rtrB u) KRTR_DEAD_HI.dead_hi (setBit (w.rd (rtrB u) KRTR_DEAD_HI.dead_hi) (port - 32) true)
  let w := (w.cutPlacing u port).absorbDead u port
  w.each [0, 1, 2, 3] (fun w net =>
    let a := w.arb u port net
    if a.holds = [] ∧ a.grant = none ∧ a.placing = [] then w
    else w.setArb u port net { a with holds := [], grant := none, placing := [] })

/-! ### The route writer: ROUTE_WRITE, ROUTE_COMMIT, HERD_DEFINE -/

/-- The bank that holds the generation being staged. -/
def State.stagedBank (s : State) : Nat := (s.genCur + 1) % 2

/-- A route of an entry is one that R41 allows, over ports that are present and not dead (R42, R145). -/
def State.routeOk (s : State) (src dst route hops : Nat) : Bool :=
  let h := (List.range hops).map (fun j => bits route (6 * j) 6)
  1 ≤ hops && s.present src && s.present dst && (legalRoutes s.place s.beamsLive src dst).contains h
    && s.pathAlive (s.unitOf src) h

/-- A record of a route image passes the checks of R145 and R466. -/
def State.recordOk (s : State) (b : List Byte) : Bool :=
  let own := bits (le b 0 2) 0 12
  let ent := bits (le b 2 2) 0 12
  let e := le b 16 16
  s.present own && ent ≤ 0x881
    && (if reValid e then
          s.routeOk own ent (reRoute0 e) (reHops0 e) && (!reDual e || s.routeOk own ent (reRoute1 e) (reHops1 e))
        else !reDual e)

/-- The first ROUTE_WRITE of a generation copies the current bank into the staged one (R167). -/
def W.stage (w : W) : W :=
  if w.rd gblB KGBL_RGEN.staging = 1 then w else
  let b := w.stagedBank
  (((w.setRbank b (w.rbank w.genCur)).setHbank b (w.hbank w.genCur)).wr gblB KGBL_RGEN.staging 1)

/-- Cut a route image into records. -/
def records : Nat → List Byte → List (List Byte)
  | 0, _ => []
  | n + 1, l => l.take 32 :: records n (l.drop 32)

/-- ROUTE_WRITE (R145, R167, R168, R466, R513). -/
def effRouteWrite (q slot : Nat) (w : W) : W :=
  match w.cmdAt q slot 0x0030 with
  | none => w
  | some c =>
    let a := le c.bytes 16 8
    let n := bits (le c.bytes 24 4) 0 19
    let early := firstOf [(n == 0 || 262144 < n || !w.rangeOk a (32 * n), BADOP),
      (w.draining || w.net.commit.isSome, BUSY)]
    if early = BADOP then w.answer q slot early else
    if w.imageStatus (loff a) (32 * n) ≠ OK then
      w.answer q slot (if early ≠ OK then early else w.imageStatus (loff a) (32 * n)) else
    let rs := records n (w.memRead (loff a) (32 * n))
    if !rs.all w.recordOk then w.answer q slot BADOP else
    if early ≠ OK then w.answer q slot early else
    let w := w.stage
    let b := w.stagedBank
    let rb := rs.foldl (fun (t : Tbl Nat) r =>
      t.put (bits (le r 0 2) 0 12 * 4096 + bits (le r 2 2) 0 12) (le r 16 16)) (w.rbank b).written
    let w := w.setRbank b { w.rbank b with written := rb }
    w.answer q slot OK (toLE 1 ((w.genCur + 1) % 256))

/-- Accept a commit (R168): it takes effect at a multiple of 1,024 ticks of herd time. -/
def W.acceptCommit (w : W) (q slot : Nat) : W := { w with net.commit := some { at_ := w.herdTime, q := q, slot := slot } }

/-- ROUTE_COMMIT (R168). -/
def effRouteCommit (q slot : Nat) (w : W) : W :=
  match w.cmdAt q slot 0x0031 with
  | none => w
  | some _ =>
    let st := firstOf [(w.draining || w.net.commit.isSome, BUSY), (w.rd gblB KGBL_RGEN.staging == 0, ALREADY)]
    if st ≠ OK then w.answer q slot st else (w.acceptCommit q slot).cmdStage q slot 1

/-- A member can reach the root of a herd (R148, R150). -/
def Place.reaches (pl : Place) (stage index first ep : Nat) : Bool :=
  let isS (e : Nat) : Bool := e < 0x800
  match stage with
  | 1 => isS ep && isS first && pl.pos ep < 16 && pl.preg ep == pl.preg first && pl.pos ep / 4 == pl.pos first / 4
  | 2 => isS ep && isS first && pl.preg ep == pl.preg first
  | 3 => if isS ep then index / 4 == pl.preg ep % 8 else tineOf ep == index
  | _ => true

/-- Write or release a herd in the banks that HERD_DEFINE writes (R150). -/
def W.setHerd (w : W) (herd : Nat) (d : Option HerdDef) : W :=
  let f (h : HBank) : HBank := { h with
    written := h.written.filter (fun e => e.1 % 4096 != herd)
    roots := h.roots.filter (fun e => e.1 % 4096 != herd)
    defs := match d with | some x => h.defs.put herd x | none => h.defs.del herd }
  let w' := w.setHbank w.genCur (f (w.hbank w.genCur))
  if w.draining then w' else w'.setHbank (w.genCur + 1) (f (w.hbank (w.genCur + 1)))

/-- HERD_DEFINE (R150, R513). -/
def effHerdDefine (q slot : Nat) (w : W) : W :=
  match w.cmdAt q slot 0x00A1 with
  | none => w
  | some c =>
    let herd := bits (le c.bytes 16 2) 0 12
    let root := le c.bytes 18 1
    let n := bits (le c.bytes 20 2) 0 12
    let a := le c.bytes 24 8
    let stage := bits root 0 3
    let index := bits root 3 5
    let old := (w.hbank w.genCur).defs.find herd
    let rootOk := 1 ≤ stage && stage ≤ 4 && (3 ≤ stage || index == 0) && (stage != 3 || index < w.fuse.tines)
      && (stage != 4 || index ≤ 19)
    let mine := match old with | some d => d.ctx == c.ctx | none => false
    let held := w.col.grp.any (fun e => e.2.ctx == c.ctx && e.2.rherd == herd)
    let early := firstOf [
      (0xF00 ≤ herd || 2048 < n || (n != 0 && (!rootOk || !w.rangeOk a (2 * n))), BADOP),
      (!w.ctxLive c.ctx || (n == 0 && old.isSome && !mine), DENIED),
      (n == 0 && mine && held, BUSY),
      (n != 0 && old.isSome, BUSY),
      (n == 0 && old.isNone, ALREADY)]
    if early = BADOP ∨ (early ≠ OK ∧ n = 0) then w.answer q slot early
    else if n = 0 then (w.setHerd herd none).answer q slot OK
    else if w.imageStatus (loff a) (2 * n) ≠ OK then
      w.answer q slot (if early ≠ OK then early else w.imageStatus (loff a) (2 * n))
    else
      let d := w.memRead (loff a) (2 * n)
      let ms := (List.range n).map (fun i => bits (le d (2 * i) 2) 0 12)
      let bad := !ms.all (fun e => w.present e && w.toState.place.reaches stage index (ms.headD 0) e) || !ms.Nodup
      if bad ∨ early ≠ OK then w.answer q slot (if bad then BADOP else early)
      else (w.setHerd herd (some { ctx := c.ctx, stage := stage, index := index, members := ms, place := w.toState.place })).answer q slot OK

/-! ### Commit, drain (R167, R168, R170) -/

/-- Re-issue a held packet in the current generation (R171): once, with `retry` 1. -/
def W.reissue (w : W) (u : Nat) (p : Packet) : W :=
  let p := { p with retry := true, sref := 0, hopPtr := 0, byRouter := false }
  let w := if u < 0x2080 then w.inc (unitB u) KSTN_STALE.stale_reissue else w
  if 0x30 ≤ p.op ∧ p.op ≤ 0x32 then
    match Tbl.findBy (fun _ g => g.ctx == p.ctx && g.gkey == rxKey p) w.col.grp with
    | some (_, g) =>
      let h := w.redRoute (u - 0x1000) w.genCur g
      w.inject u { p with gen := w.genCur, hops := h.length, hop := hopList h } (routed := true)
    | none => w
  else w.inject u p

/-- A commit takes effect (R167, R168): the next generation is current, the old one drains, dead-endpoint marks follow,
and held requests are issued again in the order of their answers (R172). -/
def W.commitNow (w : W) : W :=
  let g := (w.genCur + 1) % 256
  let w := ((((w.wr gblB KGBL_RGEN.gen_drain w.genCur).wr gblB KGBL_RGEN.gen_cur g).wr gblB KGBL_RGEN.draining 1).wr gblB
    KGBL_RGEN.staging 0).wr gblB KGBL_RGEN.zero_sweeps 0
  let l := w.net.held
  let w := { w with
    net.commit := none
    net.drainFc := w.fc
    net.lateTold := false
    net.deadEp := w.net.deadNext
    net.deadOver := []
    net.held := []
    col.beams := w.col.beams.put (g % 2) w.beamsLive }
  w.each l (fun w x => w.reissue x.1 x.2.1)

/-- An accepted commit is due (R168): the first multiple of 1,024 at or after acceptance plus 1,024 ticks, or, after a
step of herd time, the first multiple. -/
def State.commitDue (s : State) (c : Commit) : Bool :=
  s.herdTime % 1024 == 0 && (c.stepped || 1024 ≤ since s.herdTime c.at_)

/-- Retire the draining generation (R167). -/
def W.retireGen (w : W) : W :=
  ((w.wr gblB KGBL_RGEN.draining 0).wr gblB KGBL_RGEN.zero_sweeps 0).irqP 37

/-- GENERATION_SWEEP_END (R170): the second of two consecutive sweeps that find no packet of the draining bank retires
the generation. -/
def effGenerationSweepEnd (w : W) : W :=
  if !w.draining then w
  else if w.inFlight (w.genDrain % 2) ≠ 0 then w.wr gblB KGBL_RGEN.zero_sweeps 0
  else
    let n := w.rd gblB KGBL_RGEN.zero_sweeps + 1
    if 2 ≤ n then w.retireGen else w.wr gblB KGBL_RGEN.zero_sweeps n

/-- DRAIN_LATE (R170): once for each drain. -/
def effDrainLate (w : W) : W :=
  if w.draining ∧ w.net.drainFc + 2 ^ 24 ≤ w.fc ∧ !w.net.lateTold then
    ({ w with net.lateTold := true }.flag gblB KGBL_RGEN.drain_late).fault clDRAIN (locPkg 5)
  else w

/-! ### STALE_GEN at a requester (R171) -/

/-- A newer generation than the packet's is current. -/
def State.newerGen (s : State) (p : Packet) : Bool := s.genCur != p.gen && notEarlier s.genCur p.gen 8

/-- STALE_GEN_ANSWER (R171, R172): the endpoint holds the request, or issues it again at once when a newer generation is
already current; of a fenced context it completes FENCED. -/
def effStaleGenAnswer (unit : Nat) (w : W) : W :=
  match w.takeAny unit w.toState.staleFirst with
  | none => w
  | some (a, w) =>
    match w.net.stale.find a.sref with
    | none => w
    | some p =>
      let w := { w with net.stale := w.net.stale.del a.sref }
      let st := unit - 0x1000
      if (if 0x1000 ≤ unit ∧ unit < 0x2000 then w.ctxFencedAt st p.ctx || w.fencedAll st else w.pkgFenced unit p.ctx) then
        w.localAns unit p FENCED
      else if w.newerGen p then w.reissue unit p
      else { w with net.held := w.net.held ++ [(unit, p, w.fc)] }

/-- STALE_HOLD_TIMEOUT (R171): no newer generation within 2^21 fc of the answer; the request completes STALE_GEN. -/
def effStaleHoldTimeout (unit tag : Nat) (w : W) : W :=
  match w.net.held.find? (fun x => x.1 == unit && x.2.1.tag == tag && x.2.2 + 2 ^ 21 ≤ w.fc) with
  | none => w
  | some x =>
    let w := { w with net.held := w.net.held.erase x }
    let w := if unit < 0x2080 then w.inc (unitB unit) KSTN_STALE.stale_fail else w
    w.localAns unit x.2.1 STALE_GEN

/-- Held requests of a context at its fence or reset end with that status (R172). -/
def W.heldCtxEnd (w : W) (sel : Nat → Packet → Bool) (status : Nat) : W :=
  let (out, keep) := w.net.held.partition (fun x => sel x.1 x.2.1)
  w.each out (fun w x => w.localAns x.1 x.2.1 status) |> fun w => { w with net.held := keep }

/-! ### The commands of this family -/

/-- ROUTE_WRITE (R466). -/
def execRouteWrite (q slot : Nat) (s : State) : Host.Outcome State Fault Refusal :=
  run (effRouteWrite q slot) s

/-- ROUTE_COMMIT (R168). -/
def execRouteCommit (q slot : Nat) (s : State) : Host.Outcome State Fault Refusal :=
  run (effRouteCommit q slot) s

/-- HERD_DEFINE (R150). -/
def execHerdDefine (q slot : Nat) (s : State) : Host.Outcome State Fault Refusal :=
  run (effHerdDefine q slot) s

/-- PACKET_ROUTE (R142). -/
def execPacketRoute (router port vc : Nat) (errs : List Err) (s : State) : Host.Outcome State Fault Refusal :=
  run (effPacketRoute router port vc errs) s

/-- HERD_ROUTE (R149). -/
def execHerdRoute (router port vc : Nat) (s : State) : Host.Outcome State Fault Refusal :=
  run (effHerdRoute router port vc) s

/-- GENERATION_SWEEP_END (R170). -/
def execGenerationSweepEnd (s : State) : Host.Outcome State Fault Refusal :=
  run (effGenerationSweepEnd) s

/-- DRAIN_LATE (R170). -/
def execDrainLate (s : State) : Host.Outcome State Fault Refusal :=
  run (effDrainLate) s

/-- STALE_GEN_ANSWER (R171). -/
def execStaleGenAnswer (unit : Nat) (s : State) : Host.Outcome State Fault Refusal :=
  run (effStaleGenAnswer unit) s

/-- STALE_HOLD_TIMEOUT (R171). -/
def execStaleHoldTimeout (unit tag : Nat) (s : State) : Host.Outcome State Fault Refusal :=
  run (effStaleHoldTimeout unit tag) s

end Sys2Proof.Machine
end

