-- ==== Sys2Proof/Machine/Slot.lean ====
section
/-! DEFINITION. The scheduled plane at work (chapter 3): streams, the lane actions of a slot, combines, lent lanes, the
delivery buffer. -/

namespace Sys2Proof.Machine

def strmKey (st k : Nat) : Nat := st * 256 + k
def State.strmAt (s : State) (st k : Nat) : Strm := Tbl.get {} s.sch.strm (strmKey st k)
def W.setStrm (w : W) (st k : Nat) (x : Strm) : W := { w with sch.strm := Tbl.set {} w.sch.strm (strmKey st k) x }

/-! ### Ready and bad vectors (R118, R183) -/

/-- Insert into a rising list. -/
def insertUp (n : Nat) : List Nat → List Nat
  | [] => [n]
  | a :: t => if n < a then n :: a :: t else if n = a then a :: t else a :: insertUp n t

/-- Queue a vector change for presentation: ready vectors before bad ones, lower streams first (R183). -/
def W.present (w : W) (st n : Nat) : W :=
  { w with sch.rvq := w.sch.rvq.put st (insertUp n ((w.sch.rvq.find st).getD [])) }

/-- Set a bit of a stream's ready vector. -/
def W.setReady (w : W) (st k c : Nat) : W :=
  let x := w.strmAt st k
  if bit x.rv c then w else (w.setStrm st k { x with rv := setBit x.rv c true }).present st k

/-- Mark a chunk bad. -/
def W.setBad (w : W) (st k c : Nat) : W :=
  let x := w.strmAt st k
  if bit x.bad c then w else (w.setStrm st k { x with bad := setBit x.bad c true }).present st (256 + k)

/-! ### Stream descriptors and ends (R109 to R112, R119) -/

/-- The plates that R110 looks at: the active one, and the plate of a pending arm. -/
def State.platesNamed (s : State) : List Plate :=
  (match s.running with | some p => [p] | none => [])
    ++ (match s.plt.arm with
      | some a => (match (if a.active then s.plt.active else s.plt.staged) with | some p => [p] | none => [])
      | none => [])

/-- The plate lane is live for a context in the active plate or in the plate of a pending arm (R110). -/
def State.laneLive (s : State) (l ctx : Nat) : Bool :=
  (match s.running with
    | some p => (match p.laneOf l with | some e => e.ctx == ctx && !s.laneRetired l | none => false)
    | none => false)
  || (match s.plt.arm with
    | some a => (match (if a.active then s.plt.active else s.plt.staged) with
      | some p => (match p.laneOf l with | some e => e.ctx == ctx | none => false)
      | none => false)
    | none => false)

/-- HTU LOCKED. -/
def State.locked (s : State) : Bool := s.rd hrdB KHRD_STATUS.state == 2

/-- STREAM_DESCRIPTOR (R109, R110, R112). A nonzero `expect` is refused on a send stream: R109 and R117 make it a field
of receive streams, and a worked case of chapter 6 sets it on one (DEDUCED, log). -/
def effStreamDescriptor (st e : Nat) (w : W) : W :=
  match w.mayStart st e 1 with
  | none => w
  | some l =>
    let d := l.desc
    let k := le d 32 1
    let recv := bit (le d 33 1) 0
    let timed := bit (le d 33 1) 1
    let gate := bit (le d 33 1) 2
    let sigEn := bit (le d 33 1) 3
    let ck := bits (le d 34 1) 0 4
    let tl := bits (le d 35 1) 0 5
    let stag := le d 36 2
    let expect := le d 38 1
    let len := bits (le d 40 4) 0 21
    let tf := le d 44 4
    let addr := le d 48 4
    let lane := stag / 4096
    let old := w.strmAt st k
    let bound := w.collOfStream st k
    let later := let x := (tf + 2 ^ 32 - w.plateTime % 2 ^ 32) % 2 ^ 32; x != 0 && x < 2 ^ 31
    let status := firstOf [
      (bits (le d 33 1) 4 4 != 0 || bits (le d 34 1) 4 4 != 0 || bits (le d 35 1) 5 3 != 0 || le d 39 1 != 0
        || bits (le d 40 4) 21 11 != 0 || le d 52 12 != 0 || 14 < ck || tl < 10 || 30 < tl || len == 0 || 2 ^ 20 < len
        || addr % 64 != 0 || 64 * 2 ^ ck < len || (recv && (gate || sigEn)) || (!recv && expect != 0)
        || (sigEn && bound.isNone), BADOP),
      (!w.owns 4 st k l.lctx || !w.winOk st l.lctx true addr (64 * len) false false false, DENIED),
      (w.platesNamed.any (fun p => match p.laneOf lane with | some x => x.ctx != l.lctx | none => false), DENIED),
      (w.locked && !w.laneLive lane l.lctx, NOPLATE),
      (old.state != 0, BUSY),
      (!w.locked, NOHERD),
      (!later, TIMEOUT)]
    if status ≠ OK then
      let miss := status == DENIED && !w.winOk st l.lctx true addr (64 * len) false false false
      let w := ((w.winDenied st miss).started st e).complete st e status
      if status = NOHERD then w.irqB st 18 else w
    else
      let x : Strm := {
        state := 1, recv := recv, timed := timed, gate := gate, sigEn := sigEn, chunkLog2 := ck, tlimit := tl,
        stag := stag, expect := expect, length := len, tFirst := tf, addr := addr, ctx := l.lctx, entry := e,
        lastStatus := old.lastStatus, sigval := (match bound with | some (_, c) => c.sig | none => 0) }
      let lines := ((w.sta.dbuf.find st).getD []).map (fun y =>
        match y.act with
        | .ready j _ => if j = k then { y with act := .nothing } else y
        | _ => y)
      let w := if lines = [] then w else { w with sta.dbuf := w.sta.dbuf.put st lines }
      let w := { w with sch.rvOut := (w.sch.rvOut.del (st * 512 + k)).del (st * 512 + 256 + k) }
      (w.started st e).setStrm st k x

/-- A stream's conditions, with a cause that ends it early (R119). -/
def Strm.status (x : Strm) (cause : Nat) : Nat :=
  worst (cause :: [
    (if x.recv && x.mismatch then MISMATCH else OK),
    (if x.poisoned then POISON else OK),
    (if x.recv && (x.short != 0 || x.late != 0) then SHORT else OK),
    (if (!x.recv && (x.late != 0 || x.lost)) || (x.recv && x.dropped != 0) then DROPPED else OK)])

/-- A stream ends (R112): one completion record, and the collective that binds it learns of it. -/
def W.strmEnd (w : W) (st k cause : Nat) : W :=
  let x := w.strmAt st k
  if x.state = 0 then w else
  let status := x.status cause
  let w := w.setStrm st k { x with state := 0, lastStatus := status }
  let w := w.complete st x.entry status x.ordinal
  let w := if status = NOHERD then w.irqB st 18 else w
  w.collStream st k status x.short x.recv

/-- The open streams of the package. -/
def State.openStrms (s : State) : List (Nat × Nat × Strm) :=
  (s.sch.strm.filter (fun e => e.2.state != 0)).map (fun e => (e.1 / 256, e.1 % 256, e.2))

/-- End every open stream that satisfies `f`. -/
def W.strmsEnd (w : W) (f : Nat → Nat → Strm → Bool) (cause : Nat) : W :=
  w.each (w.openStrms.filter (fun e => f e.1 e.2.1 e.2.2)) (fun w e => w.strmEnd e.1 e.2.1 cause)

/-- STREAM_TIME_LIMIT (R112). -/
def effStreamTimeLimit (st stream : Nat) (w : W) : W :=
  let x := w.strmAt st stream
  if x.state = 2 ∧ x.runFc + 2 ^ x.tlimit ≤ w.fc then w.strmEnd st stream TIMEOUT else w

/-! ### Cells of a slot -/

/-- The empty cell (R106). -/
def emptyCell : Cell := {}

/-- A plate fault (R105, R117, R124). -/
def W.plateFault (w : W) (u : Nat) : W := w.fault clPLATE (locOf u)

/-- A lane fault at a unit (R105). -/
def W.laneFault (w : W) (u : Nat) : W :=
  let w := if isRouter u then w.rtrCount u KRTR_SCH_FLT.lane_fault
    else if u < 0x2000 then w.inc (unitB u) KSTN_SCH_FLT.lane_fault else w
  w.plateFault u

/-- A lend fault at a unit (R124). In a plate period in which 4 or more distinct units have one, each further is the fatal
class PLATE_SPLIT, at the unit's location (R382; the location DEDUCED, log). -/
def W.lendFault (w : W) (u : Nat) : W :=
  let w := if isRouter u then w.rtrCount u KRTR_SCH_FLT.lend_fault
    else if u < 0x2000 then w.inc (unitB u) KSTN_SCH_FLT.lend_fault else w
  let w : W := { w.plateFault u with sch.lends := if w.sch.lends.contains u then w.sch.lends else u :: w.sch.lends }
  if w.sch.lends.length < 4 then w else w.fault clPLATE_SPLIT (locOf u)

/-- The cell that an input lane delivers for a FWD or DLV of the slot at plate time `t`. -/
def State.cellAt (s : State) (u port lane t : Nat) : Cell × List Nat :=
  match s.sch.flights.find? (fun f => f.due == t && f.unit == u && f.port == port && f.lane == lane && f.cell.piece.isNone) with
  | some f => (f.cell, f.srcs)
  | none => (emptyCell, [])

/-- What an INJ sends for a stream in a slot that may inject (R113, R115). -/
def W.injCell (w : W) (st k : Nat) : Cell × W :=
  let x := w.strmAt st k
  if x.state ≠ 2 ∨ x.recv then (emptyCell, w) else
  let n := x.ordinal
  let c := n / 2 ^ x.chunkLog2
  let lastOf := (n + 1) % 2 ^ x.chunkLog2 = 0 ∨ n + 1 = x.length
  if !x.gate ∨ n < x.avail then
    let a := x.addr + 64 * n
    let bad := w.sramPois st a
    let sig := x.sigEn && !x.sigSent
    let cell : Cell := { stag := x.stag, count := 1, valid := true, poison := bad, sig := sig,
                         sigval := if sig then x.sigval else 0, data := w.sramRead st a 64 }
    let w := w.setStrm st k { x with ordinal := n + 1, poisoned := x.poisoned || bad, sigSent := x.sigSent || sig }
    let w := if lastOf then w.setReady st k c else w
    let w := (w.util (uSt st) 0xD60 64).ev (uSt st) 0x05 1 x.ctx
    (cell, if n + 1 = x.length then w.strmEnd st k OK else w)
  else if x.timed then
    let w := w.setStrm st k { x with ordinal := n + 1, late := min 0xFFFF (x.late + 1) }
    let w := if lastOf then w.setReady st k c else w
    (emptyCell, if n + 1 = x.length then w.strmEnd st k OK else w)
  else (emptyCell, w)

/-- A valid cell that no stream takes (R120). -/
def W.orphanCell (w : W) (st : Nat) : W := (w.inc (stnB st) KSTN_SCH_EVT.orphan).irqB st 17

/-- A DLV action (R116, R117, R225). -/
def W.deliverCell (w : W) (st k : Nat) (c : Cell) : W :=
  let x := w.strmAt st k
  if x.state ≠ 2 ∨ !x.recv then (if c.valid then w.orphanCell st else w) else
  let n := x.ordinal
  let ch := n / 2 ^ x.chunkLog2
  let lastOf := (n + 1) % 2 ^ x.chunkLog2 = 0 ∨ n + 1 = x.length
  if !c.valid then
    if x.timed then
      let w := (w.setStrm st k { x with ordinal := n + 1, late := min 0xFFFF (x.late + 1) }).setBad st k ch
      if n + 1 = x.length then w.strmEnd st k OK else w
    else w
  else
    let w := (w.util (uSt st) 0xD70 64).ev (uSt st) 0x06 1 x.ctx
    let own := (w.collOfStream st k).map (fun y => y.2.sig)
    let mark := c.sig && (c.sigval == sigMARK || (match own with | some g => c.sigval != g | none => false))
    let bad := c.poison || mark
    let full := 64 ≤ ((w.sta.dbuf.find st).getD []).length
    let wrong := c.stag ≠ x.stag
    let short := x.expect ≠ 0 ∧ c.count ≠ x.expect
    let x' := { x with ordinal := n + 1, mismatch := x.mismatch || mark }
    let w :=
      if wrong then
        let w := (w.setStrm st k { x' with dropped := min 0xFFFF (x.dropped + 1) }).setBad st k ch
        ((w.inc (stnB st) KSTN_SCH_EVT.tag_mismatch).irqB st 17).plateFault (uSt st)
      else if full then
        (w.setStrm st k { x' with dropped := min 0xFFFF (x.dropped + 1) }).setBad st k ch
      else
        let w := w.setStrm st k { x' with
          poisoned := x.poisoned || bad
          short := if short then min 0xFFFF (x.short + 1) else x.short }
        let w := if bad ∨ short then w.setBad st k ch else w
        let ok := lastOf ∧ !bit (w.strmAt st k).bad ch
        w.toPort st (x.addr + 64 * n) c.data bad true (if ok then .ready k ch else .nothing)
    if n + 1 = x.length then w.strmEnd st k OK else w

/-! ### Combines (R217, R224) -/

/-- The signature check of a combine entry: its state after the slot, and whether it saw a mismatch. -/
def sigCheck (e : Nat × Bool) (v : List Cell) : (Nat × Bool) × Bool :=
  let s := ((v.filter (fun c => c.sig)).map (fun c => c.sigval)).eraseDups
  let t := (v.map (fun c => c.stag)).eraseDups
  if s.contains sigMARK ∨ 1 < s.length ∨ 1 < t.length then ((e.1, true), true)
  else match s with
    | [x] => if x = e.1 then (e, false) else if v.all (fun c => c.sig) then ((x, false), false) else ((e.1, true), true)
    | _ => (e, false)

/-- A combine's result in this slot: one cell, or two for a widening one, with the streams whose cells it carries. -/
def W.combine (w : W) (u j : Nat) (c : CombEnt) (lane t : Nat) : (List Cell × List Nat) × W :=
  let found := (c.ins.take c.nIn).map (fun b => w.cellAt u (bits b 0 6) (bits b 6 2) t)
  let ins := found.map (fun x => x.1)
  let srcs := (found.filter (fun x => x.1.valid && x.1.stag / 4096 == lane)).flatMap (fun x => x.2)
  let bad := ins.filter (fun x => x.valid && x.stag / 4096 != lane)
  let w := w.each bad (fun w _ => w.laneFault u)
  let v := ins.filter (fun x => x.valid && x.stag / 4096 == lane)
  match v with
  | [] => (([emptyCell, emptyCell], []), w)
  | f :: _ =>
    let (e, miss) := sigCheck (Tbl.get (0, false) w.sch.esig (u * 512 + j)) v
    let w := { w with sch.esig := Tbl.set (0, false) w.sch.esig (u * 512 + j) e }
    let w := if miss then
        let w := w.inc (rtrB u) KRTR_RED_EVT.mismatch_count
        if isRR u then w.irqR (u - 0x240) 6 else w
      else w
    let n : Nat := v.foldl (fun (n : Nat) (c : Cell) => n + c.count) 0
    let w := if 255 < n then w.inc (rtrB u) KRTR_RED_EVT.count_sat else w
    let sg := (v.find? (fun c => c.sig)).map (fun c => c.sigval)
    let mk (d : List Byte) : Cell :=
      { stag := f.stag, count := min 255 n, valid := true, poison := e.2 || v.any (fun c => c.poison),
        sig := e.2 || sg.isSome, sigval := if e.2 then sigMARK else sg.getD 0, data := d }
    (((combineCells c.dtype c.op c.widen (v.map (fun c => fit 64 c.data))).map mk, srcs), w)

/-! ### The slot -/

/-- The unit must send no cell on a port: it is dead, or faces a station fenced for every context (R403, R406). -/
def W.sinkCell (w : W) (u port : Nat) (c : Cell) : Cell × W :=
  if isRouter u && w.portDead u port then (emptyCell, w)
  else if c.valid && isRouter u && w.isSink u port then (emptyCell, w.inc (rtrB u) KRTR_SINK_CNT.sink_cells)
  else (c, w)

/-- A cell that a stream sent is lost at an edge port (R93). A stream that has written its record keeps it. -/
def W.cellLost (w : W) (srcs : List Nat) : W :=
  w.each srcs (fun w src =>
    let x := w.strmAt ((src - 1) / 256) ((src - 1) % 256)
    if x.state = 0 then w else w.setStrm ((src - 1) / 256) ((src - 1) % 256) { x with lost := true })

/-- A cell leaves on an output lane: counted, and on its way to the unit at the other end, or to an edge port's lanes
(R93, R346), or to nothing at a memory port's memory side and at a port that faces no powered site (R32). -/
def W.sendCell (w : W) (u port lane : Nat) (c : Cell) (srcs : List Nat) : W :=
  let (c, w) := w.sinkCell u port c
  if !c.valid ∨ (isRouter u ∧ !w.portPresent u port) then w else
  let w := if isRouter u then
      ((w.inc (rtrB u) KRTR_SCH_CELLS.cells_fwd).util u (0xD60 + 16 * port) 64).ev u 0x24 1
        (match w.running with
          | some p => ((p.laneOf (c.stag / 4096)).map (fun e => e.ctx)).getD 0
          | none => 0) port
    else w
  if 0x2040 ≤ u ∧ port = 1 then
    let e := u - 0x2040
    let b := epB e
    let n := (w.epS e).txq.length
    if !w.circOpen e then (w.inc b KEDG_CW_EVT.cw_outside).cellLost srcs
    else if 512 ≤ n then (w.inc b KEDG_CW_EVT2.cw_txdrop).cellLost srcs
    else (w.epMod e (fun p => { p with txq := p.txq ++ [c] })).wr b KEDG_CW_STAT.cw_txq (n + 1)
  else match (if (0x2000 ≤ u ∧ port = 1) then none else w.peer u port) with
    | none => w
    | some (v, pv) => { w with sch.flights := w.sch.flights ++
        [{ due := w.plateTime + 1 + linkDelay u v, unit := v, port := pv, lane := lane, cell := c, srcs := srcs }] }

/-- The plate's INJ actions inject nothing in this slot (R87, R90, R97, R99): the quiet tail of an outgoing plate, a
plate that drains, a lane that drains, a context fenced at the station. The stream's ordinal and `late` then stand
(DESIGN CHOICE, log). -/
def State.injStopped (s : State) (p : Plate) (st lane : Nat) : Bool :=
  (s.plt.swapFire && 64 * p.blocks ≤ s.slotIdx + 32) || s.plt.drain.isSome || (s.plt.laneDrain.find lane).isSome
    || s.fencedAll st || s.ctxFencedAt st ((p.laneOf lane).map (fun e => e.ctx) |>.getD 0)

/-- The results of a unit's combines in a slot, by entry. -/
abbrev CombOut := Tbl (List Cell × List Nat)

/-- One lane action of a run entry (R78): the cell to send, with the streams it came from. -/
def W.action (w : W) (p : Plate) (u : Nat) (r : RunEnt) (a lane : Nat) (combs : CombOut) : (Cell × List Nat) × W :=
  let t := w.plateTime
  match actKind a with
  | 1 =>
    if 0x2040 ≤ u ∧ u < 0x2080 ∧ actPort a = 1 then
      let e := u - 0x2040
      match (w.epS e).rxq with
      | [] => ((emptyCell, []), w.inc (epB e) KEDG_CW_EVT.cw_under)
      | c :: rest =>
        let w := (w.epMod e (fun x => { x with rxq := rest })).wr (epB e) KEDG_CW_STAT.cw_rxq rest.length
        if c.valid ∧ c.stag / 4096 ≠ r.lane then ((emptyCell, []), w.laneFault u) else ((c, []), w)
    else
      let (c, srcs) := w.cellAt u (actPort a) (actLane a) t
      if c.valid ∧ c.stag / 4096 ≠ r.lane then ((emptyCell, []), w.laneFault u) else ((c, srcs), w)
  | 2 =>
    let (cs, srcs) := Tbl.get ([], []) combs (actComb a)
    let c := cs.getD (if cs.length = 2 then lane % 2 else 0) emptyCell
    ((c, srcs), if c.valid then w.inc (rtrB u) KRTR_RED_COMB.comb_out else w)
  | 4 =>
    let st := u - 0x1000
    if w.injStopped p st r.lane then ((emptyCell, []), w) else
    let (c, w) := w.injCell st (actStream a)
    if c.valid ∧ c.stag / 4096 ≠ r.lane then ((emptyCell, []), w.laneFault u)
    else ((c, [st * 256 + actStream a + 1]), w)
  | _ => ((emptyCell, []), w)

/-- One unit's run entries of the slot: combines first, then every output lane, then deliveries. -/
def W.unitSlot (w : W) (p : Plate) (key : Nat) (x : Section) : W :=
  match w.plateUnit key with
  | none => w
  | some u =>
    let rs := x.runs.filter (fun r => r.covers w.slotIdx && !w.laneLent r.lane)
    let named := (rs.flatMap (fun r => (r.acts.filter (fun a => actKind a == 2)).map (fun a => (actComb a, r.lane))))
    let (combs, w) := named.foldl (fun (acc : CombOut × W) jl =>
      if (acc.1.find jl.1).isSome then acc else
      match x.combs[jl.1]? with
      | none => acc
      | some c =>
        if c.nIn = 0 then acc else
        let (cs, w) := acc.2.combine u jl.1 c jl.2 (w.plateTime - 1)
        (acc.1.put jl.1 cs, w)) (([] : CombOut), w)
    w.each rs (fun w r => w.each (List.range 4) (fun w l =>
      let a := r.acts.getD l 0
      if actKind a = 0 then w
      else if actKind a = 5 then
        let (c, _) := w.cellAt u 0 0 w.plateTime
        if c.valid ∧ c.stag / 4096 ≠ r.lane then (w.laneFault u).deliverCell (u - 0x1000) (actStream a) emptyCell
        else w.deliverCell (u - 0x1000) (actStream a) c
      else
        let (cs, w) := w.action p u r a l combs
        w.sendCell u r.port l cs.1 cs.2))

/-! ### Damage met in a slot (R104, R125, R379, R380) -/

/-- A codeword of a cell's tag lane or payload that is uncorrectable is counted (R125). -/
def W.cellBad (w : W) (u : Nat) : W :=
  if isRouter u then w.rtrCount u KRTR_SCH_FLT.uncorr
  else if u < 0x2000 then w.inc (unitB u) KSTN_SCH_FLT.uncorr else w

/-- What a unit takes the cell of an input lane for (R125, R140): a tag lane that is uncorrectable makes it empty, a payload
that is uncorrectable poisons it. -/
def W.rxCell (w : W) (u : Nat) (c : Cell) (errs : List Err) : Cell × W :=
  match w.rxCode u c.tag (errsOf errs 0) with
  | (none, w) => (emptyCell, w.cellBad u)
  | (some t, w) =>
    let c1 := if t = c.tag then c else c.retag t
    if !c1.valid ∧ c1.piece.isNone then (c1, w) else
    match w.rxCode u c.payload (errsOf errs 1) with
    | (none, w) =>
      (match c1.piece with
        | some p => ({ c1 with piece := some { p with poison := true } }, w.payloadBad u)
        | none => ({ c1 with poison := true }, w.cellBad u))
    | (some d, w) =>
      if d = c.payload then (c1, w) else
      (match c1.piece with
        | some p => ({ c1 with piece := some { p with got := d } }, w)
        | none => ({ c1 with data := d }, w))

/-- Damage on the input lanes of this slot. -/
def W.rxLanes (w : W) (l : List LaneErr) : W :=
  w.each l (fun w x =>
    let here (f : Flight) : Bool := f.due == w.plateTime && f.unit == x.unit && f.port == x.port && f.lane == x.lane
    let f : Flight := (w.sch.flights.find? here).getD
      { due := w.plateTime, unit := x.unit, port := x.port, lane := x.lane, cell := emptyCell }
    let (c, w) := w.rxCell x.unit f.cell x.errs
    let rest := w.sch.flights.filter (fun f => !here f)
    { w with sch.flights := if c.valid || c.piece.isSome then rest ++ [{ f with cell := c }] else rest })

/-- Entries of plate memory as their 16 bytes (R77, R81). -/
def RunEnt.bytes (r : RunEnt) : List Byte :=
  toLE 1 r.port ++ toLE 1 r.lane ++ toLE 2 r.start ++ toLE 2 r.length ++ toLE 2 0
    ++ (List.range 4).flatMap (fun i => toLE 2 (r.acts.getD i 0))
def CombEnt.bytes (c : CombEnt) : List Byte :=
  toLE 1 c.nIn ++ toLE 1 c.op ++ toLE 1 c.dtype ++ toLE 1 (if c.widen then 1 else 0)
    ++ (List.range 4).flatMap (fun i => toLE 1 (c.ins.getD i 0)) ++ List.replicate 8 0

/-- A damaged row of plate memory as its unit reads it (R125, R396): a codeword of four entries that is uncorrectable is
counted and reported, its row is to be replaced, and its entries are not performed. `dark` gathers the output ports on
which an unreadable run entry of this slot could reserve any lane. -/
def W.rxRow (w : W) (x : Section) (dark : List (Nat × Nat)) (e : RowErr) : (Section × List (Nat × Nat)) × W :=
  match w.plateUnit e.unit with
  | none => ((x, dark), w)
  | some u =>
    [0, 1].foldl (fun (acc : (Section × List (Nat × Nat)) × W) word =>
      let errs := errsOf e.errs word
      if errs = [] then acc else
      let ((x, dark), w) := acc
      let lo := 8 * e.row + 4 * word
      let lost (w : W) : W :=
        let w := if isRouter u then w.rtrCount u KRTR_SCH_FLT.row_fault
          else if u < 0x2000 then w.inc (unitB u) KSTN_SCH_FLT.row_fault else w
        let w := w.plateFault u
        if w.flt.rowLost.any (fun x => x.1 == (e.unit, e.port, e.row)) then w
        else { w with flt.rowLost := w.flt.rowLost ++ [((e.unit, e.port, e.row), false)] }
      if e.port = 63 then
        let es := (x.combs.drop lo).take 4
        match w.rxCode u (fit 64 (es.flatMap CombEnt.bytes)) errs with
        | (none, w) => (({ x with combs := x.combs.take lo ++ es.map (fun c => { c with nIn := 0 }) ++ x.combs.drop (lo + 4) }, dark), lost w)
        | (some b, w) =>
          (({ x with combs := x.combs.take lo ++ (cut16 es.length b).map parseComb ++ x.combs.drop (lo + 4) }, dark), w)
      else
        let rs := x.runs.filter (fun r => r.port == e.port)
        let es := (rs.drop lo).take 4
        let put (l : List RunEnt) : Section :=
          { x with runs := x.runs.filter (fun r => r.port != e.port) ++ rs.take lo ++ l ++ rs.drop (lo + 4) }
        match w.rxCode u (fit 64 (es.flatMap RunEnt.bytes)) errs with
        | (none, w) =>
          ((put [], if es.any (fun r => r.covers w.slotIdx && !w.laneLent r.lane) then dark ++ [(u, e.port)] else dark), lost w)
        | (some b, w) => ((put ((cut16 es.length b).map parseRun), dark), w)) ((x, dark), w)

/-- Entries of configuration tables found uncorrectable (R380): they read as invalid from the next fc, class CFG is set, and
Miomus writes them again from its own copy. -/
def W.tablesBad (w : W) (l : List TblEntry) : W :=
  w.each l (fun w t => { (w.setClass clCFG) with flt.badEnt := w.flt.badEnt ++ [(t, w.fc)] })

/-- Arrivals of the slot on lanes that the receiving unit's plate does not name are lend faults, as are pieces on lanes
it does name: they are discarded; other pieces reach their packet (R123, R124). -/
def W.slotArrivals (w : W) : W :=
  let t := w.plateTime
  let i := w.slotIdx
  w.each (w.sch.flights.filter (fun f => f.due == t)) (fun w f =>
    let named := w.inputNamed f.unit f.port f.lane i
    match f.cell.piece with
    | none => if named then w else w.lendFault f.unit
    | some pc =>
      if named then w.lendFault f.unit
      else (w.landAt f.unit f.port pc).answered f.unit pc.pkt pc.last)

/-- Place the waiting pieces of granted DAT phits in the free lanes of the slot (R123, R161), but on no port of `dark`. -/
def W.placePieces (w : W) (dark : List (Nat × Nat)) : W :=
  w.each (w.net.arbs.filter (fun e => e.2.placing != [])) (fun w e =>
    let u := e.1 / 256
    let port := e.1 / 4 % 64
    let net := e.1 % 4
    if dark.contains (u, port) then w else
    match w.peer u port with
    | none => w
    | some (v, pv) =>
      let lanes := w.freeLanes u port
      let n := min lanes.length e.2.placing.length
      let fl : List Flight := (List.range n).filterMap (fun i =>
        match lanes[i]?, e.2.placing[i]? with
        | some l, some pc =>
          let pc : Piece := if isRouter u then { pc with seq := 0 } else pc
          some { due := w.plateTime + 1 + linkDelay u v, unit := v, port := pv, lane := l, cell := { piece := some pc } }
        | _, _ => none)
      let w := { w with sch.flights := w.sch.flights ++ fl }
      let w := if isRouter u then w.ev u 0x25 n 0 port else w
      w.setArb u port net { w.arb u port net with placing := e.2.placing.drop n })

/-- Every stream whose `t_first` is this slot begins to count (R112). -/
def W.strmsRun (w : W) : W :=
  w.each (w.openStrms.filter (fun e => e.2.2.state == 1 && e.2.2.tFirst == w.plateTime % 2 ^ 32))
    (fun w e => w.setStrm e.1 e.2.1 { e.2.2 with state := 2, runFc := w.fc })

/-- SLOT (R68, R70, R80): in an unpaused fc, once, every unit performs the run entries of the slot; lent lanes carry
pieces. After a fatal fault every reserved lane sends empty cells. The operands are the damage met on input lanes, in plate
memory and in configuration tables. -/
def effSlot (lanes : List LaneErr) (rows : List RowErr) (tables : List TblEntry) (w : W) : W :=
  if w.isPaused ∨ w.plt.slotDone ∨ w.boot.clk = false then w else
  let t := w.plateTime
  let w := (((w.tablesBad tables).strmsRun).rxLanes lanes).slotArrivals
  let (dark, w) := match w.running with
    | none => ([], w)
    | some p => if w.inFault then ([], w) else p.secs.foldl (fun (acc : List (Nat × Nat) × W) (e : Nat × Section) =>
        let r := (rows.filter (fun (r : RowErr) => r.unit == e.1)).foldl
          (fun (a : (Section × List (Nat × Nat)) × W) (r : RowErr) => a.2.rxRow a.1.1 a.1.2 r) ((e.2, acc.1), acc.2)
        (r.1.2, r.2.unitSlot p e.1 r.1.1)) ([], w)
  let w := w.placePieces dark
  { w with sch.flights := w.sch.flights.filter (fun f => t ≤ f.due), plt.slotDone := true }

/-! ### The delivery buffer (R117, R182, R304) -/

/-- What follows when the write port takes a line. -/
def W.onWrite (w : W) (st : Nat) : OnWrite → W
  | .nothing => w
  | .ready k c => w.setReady st k c
  | .message ring seq => w.msgWritten st ring seq
  | .answer p => w.visible (uSt st) { p with ack := true }
  | .posted p => w.visible (uSt st) { p with ack := false }
  | .counted p => w.visible (uSt st) p

/-- The core port takes the oldest `n` lines of the fold buffer (R182, R255); a bag they complete ends. -/
def W.foldAccept (w : W) (st n : Nat) : W :=
  let l := w.foldLines st
  (w.setFolds st (l.drop n)).each (l.take n) (fun w x => (w.foldLine st x).bagCheck st x.slot)

/-- WRITE_PORT_ACCEPT (R182): up to two lines are written, oldest first: of the delivery buffer, then of the fold buffer
(R255). -/
def effWritePortAccept (st : Nat) (w : W) : W :=
  let l := (w.sta.dbuf.find st).getD []
  let w := { w with sta.dbuf := if l.length ≤ 2 then w.sta.dbuf.del st else w.sta.dbuf.put st (l.drop 2) }
  (w.each (l.take 2) (fun w x => (w.sramWrite st x.addr x.data (if x.poison then 1 else 0)).onWrite st x.act)).foldAccept st
    (2 - l.length)

/-! ### The commands of this family -/

/-- SLOT (R68). -/
def execSlot (lanes : List LaneErr) (rows : List RowErr) (tables : List TblEntry) (s : State) : Host.Outcome State Fault Refusal :=
  run (effSlot lanes rows tables) s

/-- STREAM_TIME_LIMIT (R112). -/
def execStreamTimeLimit (st stream : Nat) (s : State) : Host.Outcome State Fault Refusal :=
  run (effStreamTimeLimit st stream) s

/-- STREAM_DESCRIPTOR (R110). -/
def execStreamDescriptor (st entry : Nat) (s : State) : Host.Outcome State Fault Refusal :=
  run (effStreamDescriptor st entry) s

/-- WRITE_PORT_ACCEPT (R182). -/
def execWritePortAccept (st : Nat) (s : State) : Host.Outcome State Fault Refusal :=
  run (effWritePortAccept st) s

end Sys2Proof.Machine
end

