-- ==== Sys2Proof/Machine/Herd.lean ====
section
/-! DEFINITION. Herd time, plates and pauses (chapter 2), and the power figures that the governor uses (R470 to R473). -/

namespace Sys2Proof.Machine

/-! ### The herd time unit (R58 to R65, R328 to R330) -/

def State.htu (s : State) : Nat := s.rd hrdB KHRD_STATUS.state
def State.freeRun (s : State) : Bool := s.rd hrdB KHRD_STATUS.free_run == 1
def State.activeValid (s : State) : Bool := s.rd hrdB KPLT_STATUS.active_valid == 1
def State.halted (s : State) : Bool := s.rd hrdB KPLT_STATUS.halted == 1

/-- Change the HTU's state (R60), with its trace record. -/
def W.setHtu (w : W) (v : Nat) : W :=
  (w.wr hrdB KHRD_STATUS.state v).tracePlt 1 v (w.rd hrdB KPLT_STATUS.active_plate_id)

/-- The present EPs of a port list. -/
def State.epsOf (s : State) (ports : Nat) : List Nat := (List.range s.fuse.edgePorts).filter (bit ports)

/-- `ref_port` by R330: among listed ports with valid words, the smallest `thops`, then the lowest number. -/
def State.bestPort (s : State) (ports : Nat) : Option Nat :=
  ((s.epsOf ports).filter (fun e => match s.plt.portWord.find e with
      | some t => since s.herdTime t < 2 ^ (s.rd (epB e) KEDG_TIME_CFG.tw_log2 + 2)
      | none => false)).foldl
    (fun b e => match b with
      | none => some e
      | some x => if s.rd (epB e) KEDG_TIME_STAT.thops < s.rd (epB x) KEDG_TIME_STAT.thops then some e else b) none

/-- Enter LOCKED: the awaited HERD_LOCK completes OK, the interrupt source takes its event. -/
def W.enterLocked (w : W) : W :=
  let w := (w.setHtu 2).irqP 33
  let w := { w with plt.lastWord := w.herdTime, plt.outRun := 0 }
  match w.plt.reply with
  | some (q, sl) => { w with plt.reply := none }.answer q sl OK (toLE 4 w.hrdStatus)
  | none => w

/-- A pending arm ends without a swap; `arm_epoch` keeps its value (DESIGN CHOICE, log). -/
def W.armEnd (w : W) (status : Nat) : W :=
  match w.plt.arm with
  | none => w
  | some a =>
    ({ w with plt.arm := none, plt.swapFire := false }.wr hrdB KPLT_STATUS.arm_pending 0).answer a.q a.slot status

/-- Leave LOCKED for LOST (R60, R97): a pending arm completes NOHERD, and the plate is to halt. -/
def W.enterLost (w : W) : W :=
  let w := ((w.setHtu 3).inc hrdB KHRD_LOSS_CNT.loss_count).irqP 32
  let w := w.armEnd NOHERD
  if w.activeValid then { w with plt.haltPend := some w.fc, plt.haltDone := false } else { w with plt.haltDone := true }

/-- The loss window of R65, as a power of two. -/
def State.lossWin (s : State) : Nat :=
  max (s.rd hrdB KHRD_CFG.loss_win_log2)
    ((s.epsOf s.plt.ports).foldl (fun m e => max m (s.rd (epB e) KEDG_TIME_CFG.tw_log2)) 0 + 3)

/-- An offset as the 16-bit field shows it (R102). -/
def offset16 (v : Int) : Nat := if 32767 < v then 0x7FFF else if v < -32768 then 0x8000 else ofS 16 v

/-- A signed field value. -/
def signed (w v : Nat) : Int := toS w v

/-- The first valid word of ACQUIRE steps herd time (R60, R62) to the word's compensated value carried on by the ticks
since its receive instant (DEDUCED, log). -/
def W.stepTime (w : W) (e comp : Nat) : W :=
  let w := ((w.wr hrdB KHRD_STATUS.ref_port e).inc hrdB KHRD_STATUS.step_count).wr hrdB KHRD_OFFSET.words_ok 0
  { w with
    herdTime := comp % 2 ^ 64
    plt.stepped := true
    plt.lastWord := comp % 2 ^ 64
    plt.portWord := [(e, comp % 2 ^ 64)]
    net.commit := w.net.commit.map (fun c => { c with stepped := true }) }

/-- A valid word reaches the HTU (R60, R65): `comp` is the word's compensated value carried on from its receive instant to
now, `off` the offset. -/
def W.takeWord (w : W) (e comp : Nat) (off : Int) : W :=
  let tol : Int := w.rd hrdB KHRD_CFG.lock_tol
  let inTol := decide (-tol ≤ off ∧ off ≤ tol)
  let w := w.wr hrdB KHRD_OFFSET.offset (offset16 off)
  let w := { w with plt.portWord := w.plt.portWord.put e w.herdTime }
  let ref_ := w.rd hrdB KHRD_STATUS.ref_port
  match w.htu with
  | 1 =>
    if !w.plt.stepped then w.stepTime e comp
    else if e ≠ ref_ then w
    else if !inTol then w.wr hrdB KHRD_OFFSET.words_ok 0
    else
      let w := w.inc hrdB KHRD_OFFSET.words_ok
      if w.rd hrdB KHRD_CFG.acq_words ≤ w.rd hrdB KHRD_OFFSET.words_ok then w.enterLocked else w
  | 2 =>
    if w.freeRun ∨ e ≠ ref_ then w else
    let w := { w with plt.lastWord := w.herdTime }
    if inTol then { (w.inc hrdB KHRD_OFFSET.words_ok) with plt.outRun := 0 }
    else
      let n := w.plt.outRun + 1
      let w := { (w.wr hrdB KHRD_OFFSET.words_ok 0) with plt.outRun := n }
      if 4 ≤ n then w.enterLost else w
  | 3 =>
    if !w.plt.haltDone then w else
    { (w.setHtu 1) with plt.fromLost := true, plt.acqT := w.fc, plt.reply := none }.stepTime e comp
  | _ => w

/-- TIMING_WORD_RECEIVE (R328 to R330): the next received frame is a good TIME frame; its instants are kept for the echo,
its delay is computed, and a valid word reaches the HTU. The word's compensated value is the peer's time at the receive
instant; herd time is stepped to that value plus the ticks since (DEDUCED, log). -/
def effTimingWordReceive (ep : Nat) (w : W) : W :=
  match w.nextFrame ep (fun f => f.good && f.type == 3) with
  | none => w
  | some x =>
    let b := epB ep
    let frame := x.bytes
    let w := ((w.dropFrame ep).util (uEp ep) 0xD78 256).takeControl ep frame
    let t4 : Nat := (x.at_ + 2 ^ 64 - w.rd b KEDG_TIME_CFG.rx_lat) % 2 ^ 64
    let t3 : Nat := le frame 16 8
    let t1 : Nat := le frame 24 8
    let t2 : Nat := le frame 32 8
    let mlk := bit (le frame 40 1) 0
    let delay : Int := (toS 64 (ofS 64 ((t4 : Int) - t1)) - toS 64 (ofS 64 ((t3 : Int) - t2))) / 2
      + signed 8 (w.rd b KEDG_TIME_CFG.asym)
    let inRange := decide (0 ≤ delay ∧ delay ≤ 2 ^ 20)
    let valid := mlk && t1 != 0 && since t4 t1 < 2 ^ 16 && inRange && bit w.plt.ports ep
      && w.rd b KEDG_STAT.cw_span == 0 && !w.freeRun
    let w := w.epMod ep (fun p => { p with peerTx := t3, peerRecv := t4 })
    let w := w.wr b KEDG_TIME_STAT.tw_valid (if valid then 1 else 0)
    let w := if t1 = 0 then w else w.wr b KEDG_TIME_STAT.delay (min 0xFFFF delay.toNat)
    if !valid then w else
    let w := w.wr b KEDG_TIME_STAT.thops (le frame 41 1)
    w.takeWord ep ((t3 + delay.toNat + since w.herdTime t4) % 2 ^ 64) (toS 64 (ofS 64 ((t4 : Int) - (t3 + delay))))

/-- LOSS_WINDOW_EXPIRY (R60, R65). -/
def effLossWindowExpiry (w : W) : W :=
  if w.locked ∧ !w.freeRun ∧ 2 ^ w.lossWin ≤ since w.herdTime w.plt.lastWord then w.enterLost else w

/-- ACQUIRE_TIMEOUT (R60). -/
def effAcquireTimeout (w : W) : W :=
  if w.htu = 1 ∧ w.plt.acqT + 2 ^ 27 ≤ w.fc then
    if w.plt.fromLost then w.setHtu 3
    else
      let w := w.setHtu 0
      match w.plt.reply with
      | some (q, sl) => { w with plt.reply := none }.answer q sl TIMEOUT
      | none => w
  else w

/-- REF_PORT_CHANGE (R330): the reference port has given no valid word for 2^(`tw_log2` + 2) ticks. -/
def effRefPortChange (w : W) : W :=
  let r := w.rd hrdB KHRD_STATUS.ref_port
  let silent := match w.plt.portWord.find r with
    | some t => 2 ^ (w.rd (epB r) KEDG_TIME_CFG.tw_log2 + 2) ≤ since w.herdTime t
    | none => true
  if w.freeRun ∨ (w.htu ≠ 1 ∧ w.htu ≠ 2) ∨ !silent then w else
  match w.bestPort w.plt.ports with
  | some e => w.wr hrdB KHRD_STATUS.ref_port e
  | none => w

/-- A plate is active or draining. -/
def State.plateBusy (s : State) : Bool := s.activeValid || s.plt.drain.isSome

/-- Start to acquire (R60); an arm that is pending when LOCKED is left completes NOHERD (R97). -/
def W.acquire (w : W) (q slot ports : Nat) : W :=
  let w := w.armEnd NOHERD
  let w := { ((w.setHtu 1).wr hrdB KHRD_STATUS.free_run 0) with
    plt.ports := ports
    plt.acqT := w.fc
    plt.fromLost := false
    plt.stepped := false
    plt.outRun := 0
    plt.portWord := []
    plt.reply := some (q, slot) }
  (w.wr hrdB KHRD_OFFSET.words_ok 0).cmdStage q slot 1

/-- HERD_LOCK in edge mode (R60, R63, R467). Locked, with a new list in which no port has a valid word, `ref_port` becomes
the lowest listed port (DESIGN CHOICE, log). -/
def effHerdLockEdge (q slot : Nat) (w : W) : W :=
  match w.cmdAt q slot 0x0010 with
  | none => w
  | some c =>
    if bit (le c.bytes 16 1) 0 then w else
    let ports := le c.bytes 24 8
    let edge := w.locked && !w.freeRun
    let st := firstOf [(w.epsOf ports == [], BADOP), (w.htu == 1 || w.htu == 3, BUSY),
      (w.locked && w.freeRun && w.plateBusy, BUSY), (edge && ports == w.plt.ports, ALREADY)]
    if st ≠ OK then w.answer q slot st (toLE 4 w.hrdStatus)
    else if edge then
      let w := { w with plt.ports := ports }
      let w := match w.bestPort ports with
        | some e => w.wr hrdB KHRD_STATUS.ref_port e
        | none => w.wr hrdB KHRD_STATUS.ref_port ((w.epsOf ports).headD 0)
      w.answer q slot OK (toLE 4 w.hrdStatus)
    else w.acquire q slot ports

/-- HERD_LOCK in free-run mode (R60, R63, R64). -/
def effHerdLockFreeRun (q slot : Nat) (w : W) : W :=
  match w.cmdAt q slot 0x0010 with
  | none => w
  | some c =>
    if !bit (le c.bytes 16 1) 0 then w else
    let st := firstOf [(w.htu == 1 || w.htu == 3, BUSY), (w.locked && !w.freeRun && w.plateBusy, BUSY),
      (w.locked && w.freeRun, ALREADY)]
    if st ≠ OK then w.answer q slot st (toLE 4 w.hrdStatus)
    else
      let w := if w.locked then w else (w.setHtu 2).irqP 33
      let w := w.wr hrdB KHRD_STATUS.free_run 1
      w.answer q slot OK (toLE 4 w.hrdStatus)

/-! ### Power figures (R470 to R473) -/

/-- A fused coefficient, in mW: 0 to 6 of one busy lane of a unit type, 7 `p_base`, 8 of one lane that carries DAT. -/
def State.coef (s : State) (i : Nat) : Nat := s.fuse.power.getD i 0

/-- `p_plate` of a plate in mW: reserved lane-slots of each unit type per slot of the period (R473). -/
def State.platePower (s : State) (p : Plate) : Nat :=
  (p.secs.foldl (fun n e => n + s.coef (e.1 / 65536) * e.2.runs.foldl (fun m r => m + r.length * r.lanes.length) 0) 0)
    / (64 * p.blocks)

/-- Outputs of wide links for which DAT waits, in lanes (R470). -/
def State.datWaiting (s : State) : Nat :=
  let outs := (s.net.q.filter (fun e => 6 ≤ e.1 % 16)).flatMap (fun e =>
    e.2.flatMap (fun b => b.copies.map (fun c => (e.1 / 1024) * 64 + c.port)))
  outs.eraseDups.foldl (fun n k => n + lanesOf (k / 64) (k % 64)) 0

/-- The arbitrated estimate at a duty of d/64, in mW. -/
def State.datPower (s : State) (lanes d : Nat) : Nat := s.coef 8 * lanes * d / 64

/-- The plate in force in the next period (R72). -/
def State.nextPlate (s : State) (swap : Bool) : Option Plate :=
  if swap then (match s.plt.arm with | some a => if a.active then s.plt.active else s.plt.staged | none => s.running)
  else s.running

/-- P_D of R470, in mW. -/
def State.demand (s : State) : Nat :=
  let act := match s.running with | some p => s.platePower p | none => 0
  let arm := match s.plt.arm with
    | some a => (match (if a.active then s.plt.active else s.plt.staged) with | some p => s.platePower p | none => 0)
    | none => 0
  min 1023000 (s.coef 7 + max act arm + s.datPower s.datWaiting 64)

/-- P_T as projected `n` fc ahead (R470, R472). -/
def State.projected (s : State) (n : Nat) : Nat :=
  let d := s.demand
  if s.plt.pT ≤ d then min d (s.plt.pT + n / 125 * 1000) else max d (s.plt.pT - n / 125 * 1000)

/-- The draw of a plate under q (R472). -/
def drawAt (pp q : Nat) : Nat := pp * 64 / (64 + q)

/-- q_gov (R472): the smallest q that keeps the next period within the projected target. With no target at all (no fused
coefficients) it is 0. -/
def State.qGov (s : State) (p : Option Plate) : Nat :=
  let pp := match p with | some x => s.platePower x | none => 0
  let room := s.projected (64 + s.rd hrdB KPLT_PAUSE.q_now)
  ((List.range 65).find? (fun q => s.coef 7 + drawAt pp q + s.datPower s.datWaiting 1 ≤ room)).getD 64

/-! ### Pauses and decisions (R70 to R73, R86) -/

/-- A context whose plate lanes start retired: it is not live, or it is being reset or destroyed (R88, R90, R100). -/
def State.ctxGone (s : State) (c : Nat) : Bool :=
  !s.ctxLive c || (match s.cx.ctx.find c with | some x => x.state == 4 || x.state == 5 | none => false)

/-- A plate has a live lane that leaves the package. -/
def State.leavesLive (s : State) (p : Plate) (swap : Bool) : Bool :=
  (List.range 16).any (fun l => match p.laneOf l with
    | some e => e.leaves && (if swap then !s.ctxGone e.ctx else !s.laneRetired l)
    | none => false)

/-- DECISION_FC (R72, R86): q of the next period is fixed, and a pending arm whose instant has come fires. -/
def effDecisionFc (throt : Bool) (w : W) : W :=
  if w.isPaused ∨ w.plt.decisionDone ∨ w.atBoundary ∨ w.slotIdx + 64 ≠ w.plt.curN ∨ w.boot.clk = false then w else
  let fire := match w.plt.arm with
    | some a => w.locked && a.te ≤ w.herdTime
    | none => false
  let p := w.nextPlate fire
  let qg := w.qGov p
  let qr := max (w.rd hrdB KPLT_PAUSE.host_q) (if throt then w.rd hrdB KPLT_PAUSE.thr_q else 0)
  let (bl, sl) := match p with | some x => (x.blocks, x.slack) | none => (1, 0)
  let leaves := match p with | some x => w.leavesLive x fire | none => false
  let q := if leaves then max qg (min qr (sl / bl)) else max qg qr
  let w := if leaves ∧ sl < q * bl then (w.inc hrdB KPLT_EVENTS.slack_exceed).irqP 36 else w
  let w := if 0 < qg then w.inc gblB KGBL_GOV_EVT.gov_hold else w
  let w := (w.wr hrdB KPLT_PAUSE.gov_q qg).wr hrdB KPLT_PAUSE.throt_sampled (if throt then 1 else 0)
  { w with plt.decisionDone := true, plt.swapFire := fire, plt.qNext := some q, plt.throt := throt }

/-- PAUSE_SET (R467). -/
def effPauseSet (q slot : Nat) (w : W) : W :=
  match w.cmdAt q slot 0x0023 with
  | none => w
  | some c =>
    let hq := bits (le c.bytes 16 1) 0 7
    let tq := bits (le c.bytes 17 1) 0 7
    let tv := bit (le c.bytes 17 1) 7
    if 64 < hq ∨ (tv ∧ 64 < tq) then w.answer q slot BADOP (toLE 1 (w.rd hrdB KPLT_PAUSE.q_now))
    else
      let w := w.wr hrdB KPLT_PAUSE.host_q hq
      let w := if tv then w.wr hrdB KPLT_PAUSE.thr_q tq else w
      w.answer q slot OK (toLE 1 (w.rd hrdB KPLT_PAUSE.q_now))

/-! ### Loading, arming, aborting (R84, R85, R99) -/

/-- Every valid lane of a plate belongs to a live context that owns its number (R82). -/
def State.lanesOwned (s : State) (p : Plate) : Bool :=
  (List.range 16).all (fun l => match p.laneOf l with
    | none => true
    | some e => (match s.cx.ctx.find e.ctx with
      | some x => s.ctxLive e.ctx && bit x.lanes l
      | none => false))

/-- Registers that show the staged buffer; `staged_plate_id` keeps the last number when there is no plate (DESIGN CHOICE,
log). -/
def W.setStaged (w : W) (p : Option Plate) : W :=
  let w := { w with plt.staged := p }
  match p with
  | some x => ((w.wr hrdB KPLT_STATUS.staged_valid 1).wr hrdB KPLT_ARM.staged_plate_id x.id).wr gblB KGBL_GOV_PLATE.p_staged
      (min 1023 (w.platePower x / 1000))
  | none => (w.wr hrdB KPLT_STATUS.staged_valid 0).wr gblB KGBL_GOV_PLATE.p_staged 0

/-- The entries from tine 0 by which Miomus reaches a router that a folio names (R33 to R38, R139): the first way with no
dead port, beams in ascending order (DESIGN CHOICE, log). -/
def State.mgmtHops (s : State) (u : Nat) : Option (List Nat) :=
  let toRR (p : Nat) : List (List Nat) :=
    if p % 8 = 0 then [[4 * p / 32]]
    else s.beamsLive.flatMap (fun k => [0, 1, 2, 3].map (fun v => [21 + k, (4 * p + v) % 32, (4 * p + v) / 32]))
  let ways : List (List Nat) :=
    if isCR u then (toRR (u / 4)).map (fun h => h ++ [u % 4])
    else if isRR u then toRR (u - 0x240)
    else if isTine u then (if u = uTine 0 then [[]] else s.beamsLive.map (fun k => [21 + k, u - 0x300]))
    else (match s.beamBy (u - 0x340) with
      | some k => [[21 + k]]
      | none => [])
  ways.find? (s.pathAlive uFmp)

/-- The extension of a folio packet of a transfer (R138): number, count, space 2, whether a router consumes it. -/
def folioExt (i n : Nat) (router : Bool) (d : List Byte) : List Byte :=
  toLE 2 i ++ toLE 2 n ++ [2, if router then 1 else 0, 0, 0] ++ toLE 4 (crc32 d) ++ List.replicate 20 0

/-- One folio write into unit configuration space (R84, R138, R455), acknowledged to the load. Without a way to the unit
it is never sent. -/
def W.plateFolio (w : W) (q slot n : Nat) (x : Nat × Nat × List Byte) (i : Nat) : W :=
  let u := x.1
  let p : Packet := { vc := 8, op := 0x70, ack := true, src := 0x880, gen := w.genCur, addr := x.2.1, len := x.2.2.length,
                      ext := folioExt i n (isRouter u) x.2.2, data := x.2.2 }
  if !isRouter u then w.request uFmp { p with dst := w.epOf u } (.plateWrite q slot)
  else match w.mgmtHops u with
    | none => w
    | some h =>
      let ref := w.freeTag uFmp
      let p := { p with dst := 0x880, tag := ref, ref := ref, hops := h.length, hop := hopList h }
      (w.setReq uFmp ref { pkt := p, own := .plateWrite q slot, fc := w.fc }).inject uFmp p (routed := true)

/-- Pieces of at most 8 KiB of a row of 16 B entries, at their offsets in a region. -/
def folioCut : Nat → Nat → List Nat → List (Nat × List Byte)
  | 0, _, _ => []
  | f + 1, a, l =>
    if l = [] then [] else (a, (l.take 512).flatMap (toLE 16)) :: folioCut f (a + 8192) (l.drop 512)

/-- The folio writes of a plate (R84): unit, address and payload. -/
def State.plateWrites (s : State) (p : Plate) : List (Nat × Nat × List Byte) :=
  p.secs.flatMap (fun e => match s.plateUnit e.1 with
    | none => []
    | some u =>
      (folioCut (e.2.runs.length + 1) 0 (e.2.runs.map runNum)
        ++ folioCut (e.2.combs.length + 1) (2 ^ 24) (e.2.combs.map combNum)).map (fun x => (u, x)))

/-- Step 2 of R84: the staged buffers are cleared and the writes of the sections sent. -/
def W.plateSend (w : W) (q slot : Nat) (p : Plate) : W :=
  let l := w.plateWrites p
  let w := { w with
    plt.load := some { plate := p, left := l.length, fc := w.fc, q := q, slot := slot }
    net.raw := w.net.raw.filter (fun e => 2 ≤ e.1 / 2 ^ 22 % 256) }
  let w := (w.wr hrdB KPLT_STATUS.loading 1).setStaged none
  (w.each l.zipIdx (fun w x => w.plateFolio q slot l.length x.1 x.2)).cmdStage q slot 1

/-- PLATE_LOAD (R82, R84, R513): the image is read and checked; then its writes begin. -/
def effPlateLoad (q slot : Nat) (w : W) : W :=
  match w.cmdAt q slot 0x0020 with
  | none => w
  | some c =>
    let a := le c.bytes 16 8
    let n := le c.bytes 24 4
    let early := firstOf [(!w.rangeOk a n, BADOP), (w.plt.load.isSome || w.plt.arm.isSome, BUSY)]
    if early = BADOP then w.answer q slot early else
    if w.imageStatus (loff a) n ≠ OK then w.answer q slot (if early ≠ OK then early else w.imageStatus (loff a) n) else
    match readImage okType (w.memRead (loff a) n) (loff a) n with
    | none => w.answer q slot BADOP
    | some p =>
      let st := firstOf [(!w.plateOk p, BADOP), (!w.lanesOwned p, DENIED), (early != OK, early)]
      if st ≠ OK then w.answer q slot st else w.plateSend q slot p

/-- A load ends without OK after its writes began: the staged buffer holds no plate. -/
def W.loadEnd (w : W) (status : Nat) : W :=
  match w.plt.load with
  | none => w
  | some l => (({ w with plt.load := none }.wr hrdB KPLT_STATUS.loading 0).setStaged none).answer l.q l.slot status

/-- PLATE_LOAD_ACKED (R84): every write of the load is acknowledged. -/
def effPlateLoadAcked (q slot : Nat) (w : W) : W :=
  match w.plt.load with
  | none => w
  | some l =>
    if l.q ≠ q ∨ l.slot ≠ slot ∨ 0 < l.left then w else
    let w := ({ w with plt.load := none }.wr hrdB KPLT_STATUS.loading 0).setStaged (some l.plate)
    w.answer q slot OK (toLE 2 l.plate.id ++ toLE 2 (min 1023 (w.platePower l.plate / 1000)))

/-- PLATE_LOAD_TIMEOUT (R84). -/
def effPlateLoadTimeout (q slot : Nat) (w : W) : W :=
  match w.plt.load with
  | none => w
  | some l => if l.q = q ∧ l.slot = slot ∧ l.fc + 2 ^ 26 ≤ w.fc then w.loadEnd TIMEOUT else w

/-- PLATE_ARM (R67, R85). -/
def effPlateArm (q slot : Nat) (w : W) : W :=
  match w.cmdAt q slot 0x0021 with
  | none => w
  | some c =>
    let e := le c.bytes 16 2
    let act := bit (le c.bytes 18 1) 0
    let p := if act then (if w.halted then w.plt.active else none) else w.plt.staged
    let d := (e + 2 ^ 16 - bits w.herdTime 16 16) % 2 ^ 16
    let badBeam := match p with
      | some x => (List.range 20).any (fun k => bit x.beamMask k && (w.beamOf k).isNone)
      | none => false
    let st := firstOf [(badBeam, BADOP), (w.locked && p.isNone, NOPLATE),
      ((w.locked && (w.plt.load.isSome || w.plt.arm.isSome)) || w.inFault, BUSY), (!w.locked, NOHERD),
      (d < 2 || 32767 < d, TIMEOUT)]
    if st ≠ OK then w.answer q slot st
    else
      let te := w.herdTime / 2 ^ 16 * 2 ^ 16 + d * 2 ^ 16
      let w := { w with plt.arm := some { te := te, active := act, q := q, slot := slot } }
      ((w.wr hrdB KPLT_STATUS.arm_pending 1).wr hrdB KPLT_ARM.arm_epoch e).cmdStage q slot 1

/-- PLATE_ABORT (R99). -/
def effPlateAbort (q slot : Nat) (w : W) : W :=
  match w.cmdAt q slot 0x0022 with
  | none => w
  | some _ =>
    if !w.activeValid ∧ w.plt.arm.isNone then w.answer q slot ALREADY
    else { w with
      plt.abortPend := some (w.plt.abortPend.getD w.fc)
      plt.aborts := w.plt.aborts ++ [(q, slot)] }.cmdStage q slot 1

/-! ### The period boundary (R68, R69, R88 to R92, R97, R99, R100) -/

/-- Registers that show the plate in force. -/
def W.showPlate (w : W) : W :=
  match w.running with
  | some p => ((w.wr hrdB KPLT_STATUS.active_plate_id p.id).wr hrdB KPLT_PAUSE_LAST.slack_now p.slack).wr gblB
      KGBL_GOV_PLATE.p_active (min 1023 (w.platePower p / 1000))
  | none => (w.wr hrdB KPLT_PAUSE_LAST.slack_now 0).wr gblB KGBL_GOV_PLATE.p_active 0

/-- Lane registers after a change of the retired set. -/
def W.setRetired (w : W) (m : Nat) : W :=
  let live := match w.running with
    | some p => (List.range 16).foldl (fun v l => if (p.laneOf l).isSome && !bit m l then setBit v l true else v) 0
    | none => 0
  (w.wr hrdB KPLT_LANES.lane_retired m).wr hrdB KPLT_LANES.lane_live live

/-- The swap (R86, R88): buffers exchange roles, lanes start live or retired, streams without their lane end. -/
def W.swap (w : W) (a : Arm) : W :=
  let new_ := if a.active then w.plt.active else w.plt.staged
  match new_ with
  | none => w.armEnd NOPLATE
  | some p =>
    let old := w.plt.active
    let w := { w with plt.active := some p, plt.arm := none, plt.swapFire := false, plt.laneDrain := [], plt.retirePend := 0 }
    let w := if a.active then w else w.setStaged old
    let w := ((w.wr hrdB KPLT_STATUS.active_valid 1).wr hrdB KPLT_STATUS.halted 0).wr hrdB KPLT_STATUS.arm_pending 0
    let w := { w with sch.esig := w.sch.esig.filter (fun e => (p.secs.find (w.plateKey (e.1 / 512))).isSome) }
    let dead := (List.range 16).foldl (fun m l => match p.laneOf l with
      | some e => if w.ctxGone e.ctx then setBit m l true else m
      | none => m) 0
    let w := w.setRetired dead
    let same (x : Strm) : Bool := match p.laneOf (x.stag / 4096) with | some e => e.ctx == x.ctx | none => false
    let w := w.strmsEnd (fun _ _ x => same x && bit dead (x.stag / 4096)) ABORTED
    let w := w.strmsEnd (fun _ _ x => !same x) NOPLATE
    let w := (w.irqP 34).tracePlt 2 0 p.id
    { w with sch.flights := w.sch.flights.filter (fun f => f.cell.piece.isSome) }.answerAt a.q a.slot OK w.herdTime (toLE 2 p.id)

/-- Retire plate lanes from this boundary (R90): they drain for 32 slots. -/
def W.retireLanes (w : W) (m : Nat) : W :=
  match w.running with
  | none => w
  | some p =>
    w.each ((List.range 16).filter (fun l => bit m l && (p.laneOf l).isSome && !w.laneRetired l))
      (fun w l => { w with plt.laneDrain := w.plt.laneDrain.put l (w.plateTime + 32) }.setRetired
        (setBit (w.rd hrdB KPLT_LANES.lane_retired) l true))

/-- The active plate drains and stops (R97, R99, R387): its period is cut after this block. -/
def W.startDrain (w : W) (halt abort fault : Bool) : W :=
  { w with plt.drain := some { halt := halt, abort := abort, fault := fault, endT := w.plateTime + 32 }, plt.curN := 64 }

/-- PLATE_ABORT commands that wait end OK. -/
def W.abortsOk (w : W) : W :=
  let l := w.plt.aborts
  { w with plt.aborts := [] } |>.each l (fun w x => w.answer x.1 x.2 OK)

/-- A drain of the whole plate ends (R97, R99). A plate that was aborted leaves the active buffer, while
`active_plate_id` keeps its number (DESIGN CHOICE, log). Its retired lanes stay retired until a swap (R90). -/
def W.drainDone (w : W) (d : Drain) : W :=
  let cause := if d.halt && !d.abort && !d.fault then NOHERD else ABORTED
  let w := w.strmsEnd (fun _ _ _ => true) cause
  let id := w.rd hrdB KPLT_STATUS.active_plate_id
  let w := w.wr hrdB KPLT_STATUS.active_valid 0
  let w := if d.halt then
      (((w.wr hrdB KPLT_STATUS.halted 1).inc hrdB KPLT_EVENTS.halts).irqP 35).tracePlt 3 0 id
    else { w with plt.active := none }
  let w := { w with plt.drain := none, plt.laneDrain := [], plt.haltDone := true,
                    sch.flights := w.sch.flights.filter (fun f => f.cell.piece.isSome) }
  let w := if d.abort then w.tracePlt 4 0 id else w
  let w := { w with plt.abortPend := if w.plt.arm.isSome then w.plt.abortPend else none }
  ((w.setRetired (w.rd hrdB KPLT_LANES.lane_retired)).showPlate).abortsOk

/-- LANE_DRAIN_END (R90, R97, R99): 32 slots after their boundary, drained lanes are lent and their open streams end; a
plate that drained stops. -/
def effLaneDrainEnd (w : W) : W :=
  if w.isPaused then w else
  let t := w.plateTime
  let w := w.each (w.plt.laneDrain.filter (fun e => e.2 ≤ t)) (fun w e =>
    w.strmsEnd (fun _ _ x => x.stag / 4096 == e.1) ABORTED)
  let w := match w.plt.drain with
    | some d => if d.endT ≤ t then w.drainDone d else w
    | none => w
  { w with plt.laneDrain := w.plt.laneDrain.filter (fun e => t < e.2) }

/-! ### The commands of this family -/

/-- HERD_LOCK_EDGE (R60). -/
def execHerdLockEdge (q slot : Nat) (s : State) : Host.Outcome State Fault Refusal :=
  run (effHerdLockEdge q slot) s

/-- HERD_LOCK_FREE_RUN (R64). -/
def execHerdLockFreeRun (q slot : Nat) (s : State) : Host.Outcome State Fault Refusal :=
  run (effHerdLockFreeRun q slot) s

/-- PLATE_LOAD (R84). -/
def execPlateLoad (q slot : Nat) (s : State) : Host.Outcome State Fault Refusal :=
  run (effPlateLoad q slot) s

/-- PLATE_LOAD_ACKED (R84). -/
def execPlateLoadAcked (q slot : Nat) (s : State) : Host.Outcome State Fault Refusal :=
  run (effPlateLoadAcked q slot) s

/-- PLATE_LOAD_TIMEOUT (R84). -/
def execPlateLoadTimeout (q slot : Nat) (s : State) : Host.Outcome State Fault Refusal :=
  run (effPlateLoadTimeout q slot) s

/-- PLATE_ARM (R85). -/
def execPlateArm (q slot : Nat) (s : State) : Host.Outcome State Fault Refusal :=
  run (effPlateArm q slot) s

/-- PLATE_ABORT (R99). -/
def execPlateAbort (q slot : Nat) (s : State) : Host.Outcome State Fault Refusal :=
  run (effPlateAbort q slot) s

/-- PAUSE_SET (R467). -/
def execPauseSet (q slot : Nat) (s : State) : Host.Outcome State Fault Refusal :=
  run (effPauseSet q slot) s

/-- TIMING_WORD_RECEIVE (R329). -/
def execTimingWordReceive (ep : Nat) (s : State) : Host.Outcome State Fault Refusal :=
  run (effTimingWordReceive ep) s

/-- LOSS_WINDOW_EXPIRY (R65). -/
def execLossWindowExpiry (s : State) : Host.Outcome State Fault Refusal :=
  run (effLossWindowExpiry) s

/-- ACQUIRE_TIMEOUT (R60). -/
def execAcquireTimeout (s : State) : Host.Outcome State Fault Refusal :=
  run (effAcquireTimeout) s

/-- REF_PORT_CHANGE (R330). -/
def execRefPortChange (s : State) : Host.Outcome State Fault Refusal :=
  run (effRefPortChange) s

/-- DECISION_FC (R72). -/
def execDecisionFc (throt : Bool) (s : State) : Host.Outcome State Fault Refusal :=
  run (effDecisionFc throt) s

/-- LANE_DRAIN_END (R90). -/
def execLaneDrainEnd (s : State) : Host.Outcome State Fault Refusal :=
  run (effLaneDrainEnd) s

end Sys2Proof.Machine
end

