-- ==== Sys2Proof/Machine/Irq.lean ====
section
/-! DEFINITION. The commands of the interrupt controllers (chapter 10): timers, claims, completions, software sources. -/

namespace Sys2Proof.Machine

/-- The address of a target's claim register (R375, R376). -/
def claimAddr (tgt : Nat) : Nat :=
  if tgt = 5000 then intPB + 0x434 else if tgt = 5001 then intPB + 0x444 else stnB tgt + 0xB84

/-- A target has a claim register: a station that exists, the FMP, the host. -/
def targetOk (tgt : Nat) : Bool := tgt < 2244 || tgt == 5000 || tgt == 5001

/-- COALESCE_TIMER_EXPIRY (R356): herd time has advanced by `ctime` × 64 ticks since the timer of an edge source with
events started; the source becomes pending, once (R372). Sources of a die that sleeps are in retention (R373). -/
def effCoalesceTimerExpiry (src : Nat) (w : W) : W :=
  let i := w.toState.irq1 src
  if srcLevel src ∨ i.pending ∨ i.events = 0 ∨ w.srcCtime src = 0 ∨ since w.herdTime i.tstart < w.srcCtime src * 64 then w
  else w.irqSet src { i with pending := true, pendFc := w.fc + 1 }

/-- The value a claim returns (R375, R376): source, origin, priority, events, physical region. -/
def claimWord (num orig prio events reg : Nat) : Nat := num + orig * 2 ^ 7 + prio * 2 ^ 9 + events * 2 ^ 12 + reg * 2 ^ 20

/-- The running part of a source after its claim (R357, R358): active; events of the fc of the claim stay for the next
round, with a new timer. -/
def claimed (i : IrqSrc) (level : Bool) (tgt ccount herd fc : Nat) : IrqSrc :=
  let late := if i.nowFc = fc + 1 then i.nowEv else 0
  let ev := if level then 0 else min 255 late
  { i with
    active := true
    held := tgt
    pending := !level && ev != 0 && decide (ccount ≤ ev)
    events := ev
    tstart := if ev = 0 then 0 else herd }

/-- Events that a claim reports: those before the fc of the claim; 1 for a level source. -/
def reported (i : IrqSrc) (level : Bool) (fc : Nat) : Nat :=
  if level then 1 else i.events - (if i.nowFc = fc + 1 then i.nowEv else 0)

/-- IRQ_CLAIM (R357, R367, R371): the winner of the fc is claimed and returned; a shared source pushes its entry. With no
winner the read returns 0 and changes nothing else. -/
def effIrqClaim (target : Nat) (w : W) : W :=
  if !targetOk target then w else
  match w.irqWinner target with
  | none => { w with sta.regOut := Tbl.set 0 w.sta.regOut (claimAddr target) 0 }
  | some k =>
    let i := w.toState.irq1 k
    let lv := srcLevel k
    let prio := w.srcPrio k
    let reg := if srcOrig k = 2 then srcUnit k else 0
    let v := claimWord (srcNum k) (srcOrig k) prio (reported i lv w.fc)
      (if target = 5000 ∨ target = 5001 then reg else 0)
    let w' := w.irqSet k (claimed i lv (w.srcTarget k) (w.srcCcount k) w.herdTime w.fc)
    let w' := if srcOrig k = 1 then w' else
      { w' with irq.stk := w'.irq.stk.put (w.stkKey target)
                             ({ orig := srcOrig k, reg := reg, num := srcNum k, prio := prio } :: w.stkOf target) }
    { w' with sta.regOut := Tbl.set 0 w'.sta.regOut (claimAddr target) v }

/-- IRQ_DONE (R359, R362, R371): the core completes a source of its bank, in any order. -/
def effIrqDone (st num : Nat) (w : W) : W :=
  let k := bankSrc st (num % 32)
  if (w.toState.irq1 k).active then w.irqComplete k else w.inc (stnB st) KSTN_IRQ_EVT.done_bad

/-- An end-of-interrupt write that matches nothing (R368). -/
def W.eoiBad (w : W) (tgt : Nat) : W :=
  if tgt = 5000 then w.inc intPB KINT_PEVT.eoi_bad_fmp else if tgt = 5001 then w.inc intPB KINT_PEVT.eoi_bad_host
  else w.inc (stnB tgt) KSTN_IRQ_EVT.eoi_bad

/-- The source of a stack entry. -/
def StkEnt.src (e : StkEnt) : Nat := if e.orig = 2 then regSrc e.reg e.num else pkgSrc e.num

/-- Pop the top entry of a target's stack and complete its source (R359, R368). -/
def W.popStack (w : W) (tgt : Nat) : W :=
  match w.stkOf tgt with
  | [] => w
  | e :: rest =>
    let w := { w with irq.stk := if rest = [] then w.irq.stk.del (w.stkKey tgt) else w.irq.stk.put (w.stkKey tgt) rest }
    w.irqComplete e.src

/-- END_OF_INTERRUPT (R368): origin, region and number match the top entry. A core names no region: its own region
controller is meant. -/
def effEndOfInterrupt (target orig reg num : Nat) (w : W) : W :=
  if !targetOk target then w else
  match w.stkOf target with
  | [] => w.eoiBad target
  | e :: _ =>
    let r := if target = 5000 ∨ target = 5001 then reg else e.reg
    if e.orig = orig ∧ e.num = num ∧ (orig ≠ 2 ∨ e.reg = r) then w.popStack target else w.eoiBad target

/-- Every entry of a core's stack above entry 0 is popped and completed, top first (R372). -/
def W.popAll (w : W) (tgt : Nat) : W := w.each (w.stkOf tgt) (fun w _ => w.popStack tgt)

/-- IRQ_SET (R363): bits [23:0] are ignored. -/
def effIrqSet (st mask : Nat) (w : W) : W :=
  w.each ((List.range 8).filter (fun n => bit mask (24 + n))) (fun w n => w.irqB st (24 + n))

/-- SHARED_IRQ_SET (R364, R365): software sources of the region controller `ctrl`, or of the package controller (132). -/
def effSharedIrqSet (ctrl mask : Nat) (w : W) : W :=
  if ctrl < 132 then w.each ((List.range 32).filter (bit mask)) (fun w n => w.irqR ctrl (32 + n))
  else w.each ((List.range 16).filter (bit mask)) (fun w n => w.irqP (112 + n))

/-- CTX_RESET clears bank sources 0 to 7 of queues bound to the context (R372). -/
def W.clearBank (w : W) (st ctx : Nat) : W :=
  w.each ((List.range 8).filter (fun n => w.owns 1 st n ctx)) (fun w n => w.irqSet (bankSrc st n) {})

/-- The moved station's settings are copied to the new physical station, whose running state starts empty (R372). -/
def W.moveBank (w : W) (old new_ : Nat) : W :=
  let a := stnB old
  let b := stnB new_
  let w := w.each (List.range 32) (fun w n =>
    let w := (w.wr b (KSTN_IRQ_SRC.prio.at n) (w.rd a (KSTN_IRQ_SRC.prio.at n))).wr b (KSTN_IRQ_SRC.ccount.at n)
      (w.rd a (KSTN_IRQ_SRC.ccount.at n))
    (w.wr b (KSTN_IRQ_SRC.ctime.at n) (w.rd a (KSTN_IRQ_SRC.ctime.at n))).irqSet (bankSrc new_ n) {})
  w.wr b KSTN_IRQ_THR.thr (w.rd a KSTN_IRQ_THR.thr)

/-! ### The commands of this family -/

/-- COALESCE_TIMER_EXPIRY (R356). -/
def execCoalesceTimerExpiry (src : Nat) (s : State) : Host.Outcome State Fault Refusal :=
  run (effCoalesceTimerExpiry src) s

/-- IRQ_CLAIM (R371). -/
def execIrqClaim (target : Nat) (s : State) : Host.Outcome State Fault Refusal :=
  run (effIrqClaim target) s

/-- IRQ_DONE (R359). -/
def execIrqDone (st num : Nat) (s : State) : Host.Outcome State Fault Refusal :=
  run (effIrqDone st num) s

/-- END_OF_INTERRUPT (R368). -/
def execEndOfInterrupt (target orig reg num : Nat) (s : State) : Host.Outcome State Fault Refusal :=
  run (effEndOfInterrupt target orig reg num) s

/-- IRQ_SET (R363). -/
def execIrqSet (st mask : Nat) (s : State) : Host.Outcome State Fault Refusal :=
  run (effIrqSet st mask) s

/-- SHARED_IRQ_SET (R364). -/
def execSharedIrqSet (ctrl mask : Nat) (s : State) : Host.Outcome State Fault Refusal :=
  run (effSharedIrqSet ctrl mask) s

end Sys2Proof.Machine
end

