-- ==== Sys2Proof/Machine/Fault.lean ====
section
/-! DEFINITION. The fault state and the fault collector's commands (chapter 11): entry, quiet time, release, injection,
clearing; STOT and the heartbeat (R391, R425). -/

namespace Sys2Proof.Machine

/-! ### Entering and leaving the fault state (R386 to R389) -/

/-- Entry to the fault state (R386): the outputs go to their safe states, and the plate ends at the next boundary
(R387). -/
def W.enterFault (w : W) : W :=
  { w.wr fltB KFLT_STATE.fstate 1 with flt.entryFc := none, flt.lastFatal := w.herdTime, flt.entryPeriod := true, flt.entered := w.fc }

/-- The detector of a condition reports it, or stops to report it (R382). -/
def W.setPresent (w : W) (cls : Nat) (on : Bool) : W :=
  let w := { w with flt.present := setBit w.flt.present cls on, flt.lastFatal := w.herdTime }
  w.wr fltB KFLT_STATE.fatal_now (if w.flt.present = 0 then 0 else 1)

/-- The fatal classes that are conditions: TREE, GOV and COLLECTOR (R382). -/
def isCondition (c : Nat) : Bool := c == clTREE || c == clGOV || c == clCOLLECTOR

/-- FAULT_ENTRY (R382, R386): a detector reports a fatal class at a location, or stops to report it (`present` false for a
condition); the block enters FAULT in the fc after (`W.advance`). -/
def effFaultEntry (cls loc : Nat) (present : Bool) (w : W) : W :=
  if !fatalClass cls ∨ 384 ≤ loc then w
  else if isCondition cls then (if present then (w.setPresent cls true).fault cls loc else w.setPresent cls false)
  else w.fault cls loc

/-- The timers of an EP go on after the time that they were held (R387, R389). -/
def Ep.shift (p : Ep) (d : Nat) : Ep :=
  { p with
    conns := p.conns.map (fun c => (c.1, { c.2 with
      ackFc := c.2.ackFc + d
      outst := c.2.outst.map (fun o => { o with lastFc := o.lastFc + d }) }))
    proxies := p.proxies.map (fun x => (x.1, { x.2 with fc := x.2.fc + d })) }

/-- Release (R389): the outputs are released, held writes issue in order, edge ports resume their timers. -/
def W.release (w : W) : W :=
  let d := w.fc - w.flt.entered
  let l := w.msp.held
  let w := w.wr fltB KFLT_STATE.fstate 0
  let w := { w with msp.held := [], flt.entryPeriod := false, ep := w.ep.map (fun (e : Nat × Ep) => (e.1, e.2.shift d)) }
  w.each l (fun w h => w.memIssue h)

/-- Recoveries stamped within the last 2,000,000,000 ticks (R389). -/
def State.rcWin (s : State) : Nat := (s.flt.stamps.filter (fun t => since s.herdTime t < 2000000000)).length

/-- QUIET_TIMER_EXPIRY (R389): 20,000,000 ticks without a fatal event or condition. -/
def effQuietTimerExpiry (w : W) : W :=
  if w.rd fltB KFLT_STATE.fstate ≠ 1 ∨ w.flt.present ≠ 0 ∨ since w.herdTime w.flt.lastFatal < 20000000 then w
  else if 8 ≤ w.rcWin then w.wr fltB KFLT_STATE.fstate 2
  else
    let l := w.flt.stamps.filter (fun t => since w.herdTime t < 2000000000)
    { w.release.inc fltB KFLT_RCV.recoveries with flt.stamps := l ++ [w.herdTime] }

/-! ### Injection and clearing (R383, R384, R390, R411) -/

/-- INJ_FATAL (R382): a write of `inj_fatal` sets FORCED, in group 11 at the fault collector. -/
def effInjFatal (w : W) : W := w.fault clFORCED (locPkg 7)

/-- INJ_CORR (R384, R411): one corrected error at a location of groups 0 to 11. -/
def effInjCorr (src : Nat) (w : W) : W := if src < 384 then w.onError src 1 else w

/-- INJ_UNCORR (R384, R411): one uncorrectable error at a location, a fault event of class UNCORR as one met is (R380,
R383; DEDUCED, log). -/
def effInjUncorr (src : Nat) (w : W) : W := if src < 384 then w.uncorrAt src else w

/-- STICKY_CLEAR_WRITE (R383, R384). -/
def effStickyClearWrite (grp mask : Nat) (w : W) : W := if grp < 32 then w.clearSticky grp mask else w

/-- FAULT_CLEAR (R389, R390): bits are cleared; with `unlatch` the block leaves LATCHED. -/
def effFaultClear (q slot : Nat) (w : W) : W :=
  match w.cmdAt q slot 0x0081 with
  | none => w
  | some c =>
    let n := bits (le c.bytes 17 1) 0 3
    if 5 < n then w.answer q slot BADOP (toLE 4 w.fltGroups) else
    let w := w.each (List.range n) (fun w i => w.clearSticky (bits (le c.bytes (24 + 8 * i) 4) 0 5) (le c.bytes (28 + 8 * i) 4))
    let un := bit (le c.bytes 16 1) 0
    let latched := w.rd fltB KFLT_STATE.fstate == 2
    let st := if !un then OK else if !latched then ALREADY else if w.flt.present ≠ 0 then BUSY else OK
    let w := if un && st == OK then { w.release with flt.stamps := [] } else w
    w.answer q slot st (toLE 4 w.fltGroups)

/-! ### STOT and the heartbeat (R391, R425) -/

/-- The heartbeat has beaten within the last 800,000 fc. -/
def State.hbOk (s : State) : Bool :=
  match s.flt.beat with
  | some t => s.fc < t + 800000
  | none => false

/-- The conditions of R391 hold. -/
def State.stotRun (s : State) : Bool :=
  s.rd gblB KGBL_BOOT.mp_ready == 1 && s.rd fltB KFLT_STATE.fstate == 0 && s.hbOk

/-- STOT_TOGGLE (R391): the free-running divider reaches 2,000,000 fc while the conditions hold, and no fatal class is
set. -/
def effStotToggle (w : W) : W :=
  if w.fc % 2000000 ≠ 0 ∨ w.flt.stotFc = w.fc + 1 ∨ !w.stotRun ∨ w.flt.entryFc.isSome then w
  else { w.wr fltB KFLT_STOT.stot (1 - w.rd fltB KFLT_STOT.stot) with flt.stotFc := w.fc + 1 }

/-- HEARTBEAT (R425): Miomus writes `beat`; replies that waited for it are written. -/
def effHeartbeat (w : W) : W :=
  { w.wr gblB KGBL_HB.beats (w.rd gblB KGBL_HB.beats + 1) with flt.beat := some w.fc, boot.hung := false }.repliesOwed

/-- HEARTBEAT_TIMEOUT (R425): no beat for 800,000 fc once the management port was ready: Miomus counts as hung, and group 11
bit 2 is set. -/
def effHeartbeatTimeout (w : W) : W :=
  if w.hbOk ∨ w.boot.hung ∨ w.rd gblB KGBL_BOOT.mp_ready = 0 ∨ (w.flt.beat.isNone ∧ w.fc < 800000) then w
  else { (w.traceFlt (locPkg 2) 0xFE).sticky 11 2 with boot.hung := true }

/-! ### The commands of this family -/

/-- FAULT_CLEAR (R390). -/
def execFaultClear (q slot : Nat) (s : State) : Host.Outcome State Fault Refusal :=
  run (effFaultClear q slot) s

/-- FAULT_ENTRY (R386). -/
def execFaultEntry (cls loc : Nat) (present : Bool) (s : State) : Host.Outcome State Fault Refusal :=
  run (effFaultEntry cls loc present) s

/-- QUIET_TIMER_EXPIRY (R389). -/
def execQuietTimerExpiry (s : State) : Host.Outcome State Fault Refusal :=
  run (effQuietTimerExpiry) s

/-- STOT_TOGGLE (R391). -/
def execStotToggle (s : State) : Host.Outcome State Fault Refusal :=
  run (effStotToggle) s

/-- INJ_FATAL (R382). -/
def execInjFatal (s : State) : Host.Outcome State Fault Refusal :=
  run (effInjFatal) s

/-- INJ_CORR (R384). -/
def execInjCorr (src : Nat) (s : State) : Host.Outcome State Fault Refusal :=
  run (effInjCorr src) s

/-- INJ_UNCORR (R384). -/
def execInjUncorr (src : Nat) (s : State) : Host.Outcome State Fault Refusal :=
  run (effInjUncorr src) s

/-- STICKY_CLEAR_WRITE (R383). -/
def execStickyClearWrite (grp mask : Nat) (s : State) : Host.Outcome State Fault Refusal :=
  run (effStickyClearWrite grp mask) s

/-- HEARTBEAT (R425). -/
def execHeartbeat (s : State) : Host.Outcome State Fault Refusal :=
  run (effHeartbeat) s

/-- HEARTBEAT_TIMEOUT (R425). -/
def execHeartbeatTimeout (s : State) : Host.Outcome State Fault Refusal :=
  run (effHeartbeatTimeout) s

end Sys2Proof.Machine
end

