-- ==== Sys2Proof/Machine/Fence.lean ====
section
/-! DEFINITION. Fences of stations and contexts: what ends at a station when it, or one of its contexts, is fenced
(R404 to R409, R420), and the directory walks that follow (R310, R407). -/

namespace Sys2Proof.Machine

/-! ### Ending what is open at a station -/

/-- Keys of a station's log entries, queue by queue in fetch order. -/
def State.logOrder (s : State) (st : Nat) : List Nat :=
  let l := s.sta.log.filter (fun e => e.1 / 512 == st)
  let key (e : Nat × LogEnt) : Nat := (e.2.dq * 2 ^ 32 + e.2.dseq) * 512 + e.1 % 512
  (l.foldl (fun a e => insertUp (key e) a) []).map (fun k => k % 512)

/-- End the descriptors of a station that `sel` names: each completes now with `status`; with `wait`, one that has answers
outstanding completes when its last answer arrives (R420). -/
def W.endOpen (w : W) (st : Nat) (sel : LogEnt → Bool) (status : Nat) (wait : Bool) : W :=
  w.each (w.logOrder st) (fun w e =>
    match w.logAt st e with
    | none => w
    | some l =>
      if !sel l then w else
      let bad := if l.lstate = 1 ∧ (kindReserved (le l.desc 0 1) || headBad l.desc) then BADOP else OK
      let w := w.started st e
      match w.jobAt st e with
      | some j =>
        if wait ∧ 0 < j.open_ then w.setJob st e { j with left := 0, sts := j.sts ++ [status] }
        else w.complete st e (worst (bad :: status :: j.sts)) j.b
      | none => w.complete st e (worst [bad, status]))

/-- End everything that is open at a station for the contexts that `sel` names: streams, collectives, bags, a blocked
send, held requests, then every other descriptor. -/
def W.endWork (w : W) (st : Nat) (sel : Nat → Bool) (status : Nat) (wait : Bool) : W :=
  let w := w.strmsEnd (fun s _ x => s == st && sel x.ctx) status
  let w := w.collAbort st (fun e => match w.logAt st e with | some l => sel l.lctx | none => false) status
  let w := w.each (w.col.bag.filter (fun b => b.1 / 64 == st && sel b.2.ctx)) (fun w b => w.bagEnd st (b.1 % 64) status)
  let w := match w.sta.blocked.find st with
    | some d => if sel d.ctx then (w.wr (stnB st) KSTN_CH_CRED.blocked 0 d.chan).sndAck st status else w
    | none => w
  let w := w.heldCtxEnd (fun u p => u == uSt st && sel p.ctx) status
  w.endOpen st (fun l => sel l.lctx) status wait

/-! ### A fence for every context (R405 to R407) -/

/-- The port facing a physical station: router and port (R405). -/
def facing (st : Nat) : Nat × Nat :=
  if posOfPhys st = 16 then (uRR (pregOfPhys st), 4) else (uCR (pregOfPhys st * 4 + posOfPhys st / 4), posOfPhys st % 4)

/-- The port facing a station becomes an absorbing sink, or ceases to be one (R406, R408). -/
def W.setSink (w : W) (st : Nat) (on : Bool) : W :=
  let (u, p) := facing st
  w.wr (rtrB u) KRTR_SINK.sink_ports (setBit (w.rd (rtrB u) KRTR_SINK.sink_ports) p on)

/-- Everything that a station's core and its requests hold is dropped when the core goes into reset (R405): answers to
them are absorbed at the sink. -/
def W.dropCore (w : W) (st : Nat) : W :=
  { w with
    net.req := w.net.req.filter (fun e => e.1 / 2 ^ 20 != uSt st)
    net.held := w.net.held.filter (fun x => x.1 != uSt st)
    sta.core := w.sta.core.filter (fun e => e.1 / 256 != st)
    sta.resp := w.sta.resp.del st
    sta.posted := w.sta.posted.del st
    sta.snoops := w.sta.snoops.filter (fun e => e.1 / 64 != st)
    sta.offer := w.sta.offer.del st
    sta.inHandler := w.sta.inHandler.del st }

/-- A station is fenced for every context, in one fc (R405): `kp_fenced`, `kp_core_rst`, the sink, every open
descriptor, the core's claims (R372), and the walks of R407. -/
def W.fenceAll (w : W) (st : Nat) : W :=
  if w.fencedAll st then w else
  let w := (w.wr (stnB st) KSTN_FENCE.fenced_all 1).wr (stnB st) KSTN_FENCE.walk 1
  let w := { w with sta.coreRst := w.sta.coreRst.put st true }.setSink st true
  let w := ((w.endWork st (fun _ => true) FENCED false).dropCore st).popAll st
  { w with msp.walks := w.msp.walks ++ (List.range w.fuse.slices).map (fun s => (s, st)) }

/-! ### Directory walks (R310, R407) -/

/-- The context's windows at a slice cover a line (R310). -/
def State.ctxCovers (s : State) (slice ctx line : Nat) : Bool := s.mwinOk slice ctx (line * 64) 64 false false false

/-- A station bears an object of the context (R310). -/
def State.ctxStation (s : State) (ctx l : Nat) : Bool :=
  s.sta.bind.any (fun e => e.1 / 1024 % 4096 == s.phys l && e.2 == ctx)

/-- Remove a fenced station from an entry (R407). -/
def W.dropHolder (w : W) (key : Nat) (e : DirEnt) (l : Nat) : W :=
  if e.vmode || !e.ptrs.contains l then w
  else if e.st = 1 then
    let ps := e.ptrs.erase l
    if ps == [] && !e.busy then w.delDir key else w.setDir key { e with ptrs := ps }
  else if e.busy then w
  else
    let port := portOf (e.line * 64)
    let w := (w.inc (sliceB (port / 2)) KMSP_DIR_EVT2.lines_poisoned).fault clCOH (locMsp port)
    (w.delDir key).memIssue { port := port, addr := e.line * 64, data := [], poison := 1, act := .none }

/-- A walk is removed from its slice's queue. -/
def W.walkDone (w : W) (x : Nat × Nat) : W := { w with msp.walks := w.msp.walks.erase x }

/-- The first walk waiting at a slice ends. -/
def W.walkStep (w : W) (slice : Nat) : W :=
  match w.msp.walks.find? (fun x => x.1 == slice) with
  | none => w
  | some x =>
    let mine := w.msp.dir.filter (fun e => e.1 / 131072 == slice)
    if x.2 < 65536 then
      match w.logi x.2 with
      | none => w.walkDone x
      | some l => (w.each mine (fun w e => w.dropHolder e.1 e.2 l)).walkDone x
    else
      let ctx := x.2 - 65536
      let hit (e : DirEnt) : Bool := w.ctxCovers slice ctx e.line
        && (if e.vmode then (List.range w.nStations).any (fun l => e.holds l && w.ctxStation ctx l)
            else e.ptrs.any (fun l => w.ctxStation ctx l))
      let todo := mine.filter (fun e => hit e.2)
      if todo = [] then w.walkDone x
      else w.each (todo.filter (fun e => !e.2.busy)) (fun w e => w.snoop (portOf (e.2.line * 64)) e.1 e.2 0x52 e.2.ptrs none)

/-! ### Replies that wait for walks and descriptors -/

/-- Logical station and scope of a STATION_FENCE or STATION_UNFENCE (R465). -/
def Cmd.fenceL (c : Cmd) : Nat := bits (le c.bytes 16 2) 0 12
def Cmd.fenceEvery (c : Cmd) : Bool := bit (le c.bytes 18 1) 0

/-- The walks of a station fenced for every context have ended in every slice (R407). -/
def W.walksDone (w : W) (st : Nat) : W :=
  if w.rd (stnB st) KSTN_FENCE.walk = 1 ∧ !w.msp.walks.any (fun x => x.2 == st) ∧ w.cx.reinit.isNone then
    w.wr (stnB st) KSTN_FENCE.walk 0
  else w

/-- Some descriptor of a context, or (none) of any, is open at a station. -/
def State.openAt (s : State) (st : Nat) (ctx : Option Nat) : Bool :=
  s.sta.log.any (fun e => e.1 / 512 == st && (match ctx with | some c => e.2.lctx == c | none => true))

/-- STATION_FENCE commands whose condition holds complete OK (R404, R407), in the fault state after release (R410). A fence
for every context takes over one for one context (R410). -/
def W.fencePoll (w : W) : W :=
  w.each (w.boot.cmds.filter (fun c => c.op == 0x50 && c.stage == 1)) (fun w c =>
    let st := w.phys c.fenceL
    if c.fenceEvery then
      let w := w.walksDone st
      if w.rd (stnB st) KSTN_FENCE.walk = 0 ∧ !w.openAt st none ∧ !w.inFault then w.answer c.q c.slot OK else w
    else if w.fencedAll st ∨ !w.openAt st (some c.ctx) then w.answer c.q c.slot OK else w)

/-- DIRECTORY_WALK_END (R310, R407, R422): the first walk waiting at a slice ends. For a station fenced for every context
(a physical station): its shared copies are removed, its owned lines written poisoned; the STATION_FENCE completes after
the last slice's. For a context: every line that a station of the context holds inside the context's windows is recalled;
the walk ends once none is left. -/
def effDirectoryWalkEnd (slice : Nat) (w : W) : W := (w.walkStep slice).fencePoll

/-! ### STATION_FENCE and STATION_UNFENCE (R404 to R409) -/

/-- A SPARE_MAP that moves logical station `l` is in progress. -/
def State.spareMoves (s : State) (l : Nat) : Bool :=
  match s.flt.spare with
  | some o => (o.kind == 0 && o.what == l) || (o.kind == 1 && o.what == l / 32)
  | none => false

/-- A STATION_FENCE of a station is in progress (R409); with `every`, one for every context, since such a fence takes over
narrower ones (R410). -/
def State.fenceRuns (s : State) (l : Nat) (every : Bool) : Bool :=
  s.boot.cmds.any (fun c => c.op == 0x50 && c.stage == 1 && c.fenceL == l && (!every || c.fenceEvery))

/-- STATION_FENCE of one context (R404). -/
def effStationFenceCtx (q slot : Nat) (w : W) : W :=
  match w.cmdAt q slot 0x0050 with
  | none => w
  | some c =>
    if c.fenceEvery then w else
    let l := c.fenceL
    let st := w.phys l
    let chk := firstOf [(w.nStations ≤ l || c.ctx == 0, BADOP),
      (w.fenceRuns l false || w.spareMoves l || w.rd (stnB st) KSTN_FENCE.walk == 1, BUSY),
      (Tbl.get false w.sta.fctx (st * 4096 + c.ctx), ALREADY)]
    if chk ≠ OK then w.answer q slot chk else
    let w := { w with sta.fctx := w.sta.fctx.put (st * 4096 + c.ctx) true }
    ((w.endWork st (fun x => x == c.ctx) FENCED true).cmdStage q slot 1).fencePoll

/-- STATION_FENCE for every context (R405). -/
def effStationFenceAll (q slot : Nat) (w : W) : W :=
  match w.cmdAt q slot 0x0050 with
  | none => w
  | some c =>
    if !c.fenceEvery then w else
    let l := c.fenceL
    let st := w.phys l
    let chk := firstOf [(w.nStations ≤ l, BADOP),
      (w.fenceRuns l true || w.spareMoves l || w.rd (stnB st) KSTN_FENCE.walk == 1, BUSY), (w.fencedAll st, ALREADY)]
    if chk ≠ OK then w.answer q slot chk else ((w.fenceAll st).cmdStage q slot 1).fencePoll

/-- STATION_UNFENCE of one context (R408). -/
def effStationUnfenceCtx (q slot : Nat) (w : W) : W :=
  match w.cmdAt q slot 0x0051 with
  | none => w
  | some c =>
    if c.fenceEvery then w else
    let l := c.fenceL
    let st := w.phys l
    let chk := firstOf [(w.nStations ≤ l || c.ctx == 0, BADOP), (w.fenceRuns l false || w.spareMoves l || w.rd (stnB st) KSTN_FENCE.walk == 1, BUSY),
      (!Tbl.get false w.sta.fctx (st * 4096 + c.ctx), ALREADY)]
    if chk ≠ OK then w.answer q slot chk
    else { w with sta.fctx := w.sta.fctx.del (st * 4096 + c.ctx) }.answer q slot OK

/-- Every queue, ring and channel of a station is disabled, every stream IDLE (R408). -/
def W.restart (w : W) (st : Nat) : W :=
  let b := stnB st
  let w := w.each (List.range 8) (fun w q =>
    let w := ((w.wr b KSTN_DQ_CFG.enable 0 q).wr b KSTN_DQ_HEAD.dq_head 0 q).wr b KSTN_DQ_TAIL.dq_tail 0 q
    (w.cqClear st q).wr b KSTN_DQ_HEAD.inflight 0 q)
  let w := w.each ((List.range 256).filter (fun r => w.rd b KSTN_RING_CFG.enable r == 1)) (fun w r => w.ringOff st r)
  let w := w.each ((List.range 256).filter (fun c => w.rd b KSTN_CH_CFG.enable c == 1)) (fun w c => w.chanOff st c DENIED)
  { w with sch.strm := w.sch.strm.filter (fun e => e.1 / 256 != st) }

/-- STATION_UNFENCE for every context (R408): the sink, `kp_fenced` and `kp_core_rst` are cleared in one fc. -/
def effStationUnfenceAll (q slot : Nat) (w : W) : W :=
  match w.cmdAt q slot 0x0051 with
  | none => w
  | some c =>
    if !c.fenceEvery then w else
    let l := c.fenceL
    let st := w.phys l
    let chk := firstOf [(w.nStations ≤ l, BADOP),
      (w.fenceRuns l false || w.spareMoves l || w.rd (stnB st) KSTN_FENCE.walk == 1, BUSY), (!w.fencedAll st, ALREADY)]
    if chk ≠ OK then w.answer q slot chk else
    let w := (w.wr (stnB st) KSTN_FENCE.fenced_all 0).setSink st false
    ({ w with sta.coreRst := w.sta.coreRst.del st }.restart st).answer q slot OK

/-! ### The commands of this family -/

/-- STATION_FENCE_CTX (R404). -/
def execStationFenceCtx (q slot : Nat) (s : State) : Host.Outcome State Fault Refusal :=
  run (effStationFenceCtx q slot) s

/-- STATION_FENCE_ALL (R405). -/
def execStationFenceAll (q slot : Nat) (s : State) : Host.Outcome State Fault Refusal :=
  run (effStationFenceAll q slot) s

/-- STATION_UNFENCE_CTX (R408). -/
def execStationUnfenceCtx (q slot : Nat) (s : State) : Host.Outcome State Fault Refusal :=
  run (effStationUnfenceCtx q slot) s

/-- STATION_UNFENCE_ALL (R408). -/
def execStationUnfenceAll (q slot : Nat) (s : State) : Host.Outcome State Fault Refusal :=
  run (effStationUnfenceAll q slot) s

/-- DIRECTORY_WALK_END (R407). -/
def execDirectoryWalkEnd (slice : Nat) (s : State) : Host.Outcome State Fault Refusal :=
  run (effDirectoryWalkEnd slice) s

end Sys2Proof.Machine
end

