-- ==== Sys2Proof/Machine/Spare.lean ====
section
/-! DEFINITION. Spares and dead parts (R385, R393 to R403), the commands that map spares, the effect of a commit, and the
period boundary, at which substitutions take effect (R69, R91, R92, R100). -/

namespace Sys2Proof.Machine

/-! ### Free spares -/

/-- A die site is free to take a die (R53, R398). -/
def State.siteFree (s : State) (site : Nat) : Bool :=
  site < s.fuse.cdSites && (s.dieOn site).isNone && s.rd gblB KGBL_SITE.sfailed site == 0 && !s.flt.leftSites.contains site

/-- The lowest free die site (R393). -/
def State.freeSite (s : State) : Option Nat := (List.range s.fuse.cdSites).find? s.siteFree

/-- Spare beams that are free (R92, R399). -/
def State.freeBeams (s : State) : List Nat :=
  (List.range s.fuse.beams).filter (fun b => 20 ≤ b && (s.beamBy b).isNone && !s.isDeadPart (locBeam b))

/-- The spare station of a physical region is bound, or failed proof. -/
def State.spareBound (s : State) (p : Nat) : Bool := s.rd fltB KFLT_SMAP.sbound p == 1
def State.spareFailed (s : State) (p : Nat) : Bool := s.rd fltB KFLT_SMAP.sfail p == 1

/-! ### The herds of the regions (R296) -/

/-- Herds 0xF00 to 0xF7F: the bound stations of each logical region, rooted at the beam of rank r mod `beams_active`. -/
def State.regionHerds (s : State) : Tbl HerdDef :=
  let bs := s.beamsLive
  (List.range (2 * s.fuse.cdActive)).map (fun r =>
    (0xF00 + r, { ctx := 0, stage := 4, index := bs.getD (r % bs.length) 0, members := (List.range 16).map (fun i => r * 16 + i),
                  place := s.place }))

/-- Miomus defines the herds of the regions in a bank. -/
def W.defRegions (w : W) (bank : Nat) : W :=
  let h := w.hbank bank
  w.setHbank bank { h with defs := h.defs.filter (fun e => e.1 < 0xF00) ++ w.toState.regionHerds }

/-- The set of live beams has changed: the herds of the regions are redefined in both banks. -/
def W.redefRegions (w : W) : W := (w.defRegions 0).defRegions 1

/-! ### Dead ports and parts (R401 to R403) -/

/-- A port is marked dead in hardware; its plate lanes are retired at the next boundary (R169, R403). -/
def W.portKill (w : W) (u p : Nat) : W :=
  if w.portDead u p then w else { w.portDie u p with plt.killPend := w.plt.killPend ++ [(u, p)] }

/-- An endpoint is dead from the next generation on (R402). -/
def W.epDead (w : W) (ep : Nat) : W := { w with net.deadNext := w.net.deadNext.put ep true }

/-- A bond port is dead at both ends (R394, R401). -/
def W.bondDead (w : W) (bond : Nat) : W :=
  ((w.wr fltB KFLT_BOND.bdead 1 bond).portKill (uRR (bond / 4)) (5 + bond % 4)).portKill (uTine (bond % 32)) (bond / 32)

/-- Every tine's up port of logical beam `k`. -/
def W.upDead (w : W) (k : Nat) : W := w.each (List.range w.fuse.tines) (fun w t => w.portKill (uTine t) (21 + k))

/-- A part without a spare is dead (R401). -/
def W.partDead (w : W) (loc : Nat) : W :=
  if w.isDeadPart loc then w else
  let w := { w with flt.deadParts := w.flt.deadParts ++ [loc] }
  if loc / 32 = 5 then
    let t := loc % 32
    let w := w.each (portsOf (uTine t)) (fun w p =>
      match w.peer (uTine t) p with
      | some (v, pv) => if isRouter v then w.portKill v pv else w.epDead (w.epOf v)
      | none => w)
    w
  else if loc / 32 = 6 then
    match w.beamBy (loc % 32) with
    | some k => { w.upDead k with net.beamMap := w.net.beamMap.put k 0 }.redefRegions
    | none => w
  else if loc / 32 = 7 ∨ loc / 32 = 8 then
    let m := loc - 224
    let w := match w.peer (uMsp m) 0 with
      | some (v, pv) => w.portKill v pv
      | none => w
    w.epDead (0x800 + m)
  else if loc / 32 = 9 ∨ loc / 32 = 10 then
    let e := loc - 288
    let w := match w.peer (uEp e) 0 with
      | some (v, pv) => w.portKill v pv
      | none => w
    w.epDead (0x840 + e)
  else w

/-- A wire of the base between a tine and a memory port, an edge port or a beam is dead: the ports at both ends are marked in
hardware (R385). What it led to is dead, or its beam is to be substituted (R399, R401). -/
def W.baseDead (w : W) (t p : Nat) : W :=
  let w := w.portKill (uTine t) p
  match w.peer (uTine t) p with
  | none => w
  | some (v, pv) =>
    if isRouter v then { w.portKill v pv with flt.want := w.flt.want ++ [(2, p - 21)] }
    else w.partDead (locOf v)

/-- An escalation found no spare (R385). -/
def W.noSpare (w : W) : W := w.setClass clNOSPARE

/-! ### SPARE_MAP (R397 to R400) -/

/-- The logical stations that a substitution moves. -/
def moved (kind what : Nat) : List Nat :=
  match kind with
  | 0 => [what]
  | 1 => (List.range 32).map (fun i => what * 32 + i)
  | _ => []

/-- A moved station is not fenced for every context, or its walk has not ended (R400). -/
def State.notReady (s : State) (l : Nat) : Bool :=
  !s.fencedAll (s.phys l) || s.rd (stnB (s.phys l)) KSTN_FENCE.walk == 1

/-- The status that SPARE_MAP starts with (R400). -/
def State.spareCheck (s : State) (kind what : Nat) : Nat :=
  match kind with
  | 0 =>
    let p := s.pregOf what
    let on := s.posOf what == 16
    firstOf [(s.nStations ≤ what, BADOP), (!on && (s.spareBound p || s.spareFailed p), DEAD_TARGET),
      (s.notReady what || s.flt.spare.isSome, BUSY), (on, ALREADY)]
  | 1 => firstOf [(s.fuse.cdActive ≤ what, BADOP), (s.freeSite.isNone, DEAD_TARGET),
      ((moved 1 what).any s.notReady || s.flt.spare.isSome, BUSY)]
  | 2 => firstOf [(20 ≤ what, BADOP), (s.freeBeams == [], DEAD_TARGET), (s.flt.spare.isSome, BUSY)]
  | _ => BADOP

/-- A substitution starts (R397 to R399): a die site is given power, a beam's plate lanes are to be retired. -/
def W.spareStart (w : W) (kind what q slot : Nat) : W :=
  let op (spare stage : Nat) : SpareOp := { kind := kind, what := what, spare := spare, stage := stage, q := q, slot := slot }
  match kind with
  | 0 => { w with flt.spare := some (op 16 1) }
  | 1 =>
    let site := w.freeSite.getD 0
    { w.wr gblB KGBL_SITE.pon 1 site with flt.spare := some (op site 0), boot.pdT := w.boot.pdT.put site w.fc }
  | _ =>
    let lanes := match w.running.bind (fun p => p.secs.find (4 * 65536 + what)) with
      | some x => x.laneMask
      | none => 0
    { w with flt.spare := some (op (w.freeBeams.headD 20) 1), plt.retirePend := w.plt.retirePend ||| lanes }

/-- Reply data of SPARE_MAP (R465). -/
def State.spareData (s : State) (o : SpareOp) : List Byte := toLE 2 (s.rd hrdB KPLT_PLACE.place_id) ++ toLE 1 o.spare

/-- A SPARE_MAP ends with a status. -/
def W.spareEnd (w : W) (status : Nat) : W :=
  match w.flt.spare with
  | none => w
  | some o => { w with flt.spare := none }.answer o.q o.slot status (w.spareData o)

/-- SPARE_MAP of a kind (R400). -/
def W.spareMap (w : W) (q slot kind : Nat) : W :=
  match w.cmdAt q slot 0x0052 with
  | none => w
  | some c =>
    let k := bits (le c.bytes 16 1) 0 2
    let what := bits (le c.bytes 18 2) 0 12
    if k ≠ kind ∧ !(k = 3 ∧ kind = 0) then w else
    let st := w.spareCheck k what
    if st ≠ OK then w.answer q slot st (toLE 2 (w.rd hrdB KPLT_PLACE.place_id)) else (w.spareStart k what q slot).cmdStage q slot 1

/-- SPARE_MAP_CORE (R397); a reserved kind completes BADOP. -/
def effSpareMapCore (q slot : Nat) (w : W) : W := w.spareMap q slot 0
/-- SPARE_MAP_DIE (R398). -/
def effSpareMapDie (q slot : Nat) (w : W) : W := w.spareMap q slot 1
/-- SPARE_MAP_BEAM (R399). -/
def effSpareMapBeam (q slot : Nat) (w : W) : W := w.spareMap q slot 2

/-- The site of a die substitution fails (R398): it is marked failed and powered off. -/
def W.siteFail (w : W) (site : Nat) : W :=
  (((w.wr gblB KGBL_SITE.sfailed 1 site).wr gblB KGBL_SITE.pon 0 site).wr gblB KGBL_SITE.pgood 0 site)

/-- SITE_PROOF_END (R398). -/
def effSiteProofEnd (site : Nat) (ok : Bool) (w : W) : W :=
  match w.flt.spare with
  | none => w
  | some o =>
    if o.kind ≠ 1 ∨ o.stage ≠ 0 ∨ o.spare ≠ site then w
    else if ok ∧ w.rd gblB KGBL_SITE.pgood site = 1 then { w with flt.spare := some { o with stage := 1 } }
    else (w.siteFail site).spareEnd DEAD_TARGET

/-! ### What a substitution does at the boundary (R91, R397, R398) -/

/-- The new station of a moved logical station starts fenced for every context, its core in reset or not. -/
def W.startFenced (w : W) (st : Nat) (rst : Bool) : W :=
  let w := (w.wr (stnB st) KSTN_FENCE.fenced_all 1).setSink st true
  { w with sta.coreRst := if rst then w.sta.coreRst.put st true else w.sta.coreRst.del st }

/-- The placement changes: `place_id` increments. -/
def W.newPlace (w : W) : W := w.wr hrdB KPLT_PLACE.place_id (w.rd hrdB KPLT_PLACE.place_id + 1)

/-- The member table of a moved station is written at the new one (R221, R397), which stays fenced until its routes are. -/
def W.moveMembers (w : W) (old new_ : Nat) : W :=
  let keep := w.col.memb.filter (fun e => e.1 / 64 != old && e.1 / 64 != new_)
  let mine := w.col.memb.filter (fun e => e.1 / 64 == old)
  { w with col.memb := mine.foldl (fun (t : Tbl Nat) e => t.put (new_ * 64 + e.1 % 64) e.2) keep }

/-- A logical station moves to its region's spare station (R397). -/
def W.placeCore (w : W) (l : Nat) : W :=
  let p := w.pregOf l
  let old := w.phys l
  let new_ := physAt p 16
  let w := (w.wr fltB KFLT_SMAP.spos (l % 16) p).wr fltB KFLT_SMAP.sbound 1 p
  ((((w.moveBank old new_).moveMembers old new_).startFenced new_ false).irqR p 8).newPlace

/-- A logical die moves to a spare site (R398): bindings of spare stations lapse. -/
def W.placeDie (w : W) (d site : Nat) : W :=
  let old := w.siteOf d
  let from_ := (moved 1 d).map w.toState.phys
  let w := w.each [2 * old, 2 * old + 1] (fun w p => (w.wr fltB KFLT_SMAP.sbound 0 p).wr fltB KFLT_SMAP.spos 0 p)
  let w := { w.wr fltB KFLT_DMAP.dsite site d with flt.leftSites := w.flt.leftSites ++ [old] }
  let w := w.each ((moved 1 d).zip from_) (fun w x => ((w.moveBank x.2 (w.phys x.1)).moveMembers x.2 (w.phys x.1)).startFenced (w.phys x.1) true)
  w.newPlace

/-- A logical beam moves to a spare beam (R92, R399): every tine maps its up port, whose dead mark is cleared. -/
def W.placeBeam (w : W) (k b : Nat) : W :=
  let w := match w.beamOf k with
    | some old => { w with flt.deadParts := w.flt.deadParts ++ [locBeam old] }
    | none => w
  let w := { w with net.beamMap := if b = k then w.net.beamMap.del k else w.net.beamMap.put k (b + 1) }.redefRegions
  w.each (List.range w.fuse.tines) (fun w t =>
    let u := uTine t
    let p := 21 + k
    if p < 32 then w.wr (rtrB u) KRTR_DEAD_LO.dead_lo (setBit (w.rd (rtrB u) KRTR_DEAD_LO.dead_lo) p false)
    else w.wr (rtrB u) KRTR_DEAD_HI.dead_hi (setBit (w.rd (rtrB u) KRTR_DEAD_HI.dead_hi) (p - 32) false))

/-- The plate units of a moved station or die, before it moves (R91). -/
def State.movedUnits (s : State) (kind what : Nat) : List Nat :=
  if kind = 0 then [s.phys what]
  else
    let site := s.siteOf what
    (List.range 34).map (fun i => site * 34 + i) ++ (List.range 8).map (fun i => 65536 + site * 8 + i)
      ++ (List.range 2).map (fun i => 2 * 65536 + site * 2 + i)

/-- Plate lanes of the sections of some units. -/
def Plate.lanesAt (p : Plate) (us : List Nat) : Nat :=
  us.foldl (fun m k => m ||| (match p.secs.find k with | some x => x.laneMask | none => 0)) 0

/-- Plate lanes with a run entry on a port of a unit, or with an input that names it (R403). -/
def Section.lanesOn (x : Section) (port : Nat) : Nat :=
  let hit (a : Nat) : Bool := (actKind a == 1 && actPort a == port) || (actKind a == 5 && port == 0)
    || (actKind a == 2 && (match x.combs[actComb a]? with
        | some c => (c.ins.take c.nIn).any (fun b => bits b 0 6 == port)
        | none => false))
  x.runs.foldl (fun m r => if r.port == port || r.acts.any hit then setBit m r.lane true else m) 0

/-- Miomus writes the routes of the moved stations and commits a new generation, once it can (R397, R398). -/
def W.spareCommit (w : W) : W :=
  match w.flt.spare with
  | none => w
  | some o =>
    if o.stage ≠ 2 ∨ w.draining ∨ w.net.commit.isSome ∨ !w.miomusUp then w else
    let w := w.stage
    let b := w.stagedBank
    let ms := moved o.kind o.what
    let r := w.rbank b
    let r := { r with
      zero := r.zero.map (fun _ => w.toState.place)
      written := r.written.filter (fun e => !ms.contains (e.1 / 4096) && !ms.contains (e.1 % 4096)) }
    let hs : Tbl HerdDef := (w.hbank b).defs.map (fun (e : Nat × HerdDef) => (e.1, { e.2 with place := w.toState.place }))
    let w := ((w.setRbank b r).setHbank b { (w.hbank b) with defs := hs }).defRegions b
    { w.acceptCommit 255 0 with flt.spare := some { o with stage := 3 } }

/-- Substitutions that Miomus itself wants start once they can (R385, R399). One that finds no spare sets NOSPARE; a beam
then has no physical beam. -/
def W.wantPoll (w : W) : W :=
  match w.flt.want with
  | [] => w
  | (kind, what) :: rest =>
    if !w.miomusUp then w else
    let st := w.spareCheck kind what
    if st = BUSY then w
    else
      let w := { w with flt.want := rest }
      if st = OK then w.spareStart kind what 255 0
      else
        let w := if st = BADOP then w else w.noSpare
        if kind = 2 ∧ st = DEAD_TARGET then
          match w.beamOf what with
          | some b => w.partDead (locBeam b)
          | none => w
        else w

/-- What waits for its moment in the substitutions goes on. -/
def W.sparePoll (w : W) : W := w.wantPoll.spareCommit

/-- COMMIT_EFFECT (R168): the accepted commit is due and takes effect in every unit; a substitution that waited for it
ends, and a site left by its die is powered off (R398). -/
def effCommitEffect (w : W) : W :=
  match w.net.commit with
  | none => w
  | some c =>
    if !w.commitDue c then w else
    let w := w.commitNow
    let w := w.answer c.q c.slot OK (toLE 1 w.genCur)
    match w.flt.spare with
    | none => w
    | some o =>
      if o.stage ≠ 3 then w else
      let w := if o.kind ≠ 1 then w else
        w.each (w.flt.leftSites.filter (fun x => w.rd gblB KGBL_SITE.pon x == 1)) (fun w x =>
          (w.wr gblB KGBL_SITE.pon 0 x).wr gblB KGBL_SITE.pgood 0 x)
      w.spareEnd OK

/-! ### Escalation (R385, R394 to R396) -/

/-- The entry of KFLT_BOND for a lane group of a direction of a bond port. -/
def bondIdx (bond dir grp : Nat) : Nat := bond + 1024 * dir + 2048 * grp

/-- A failing signal lane is steered onto a spare of its group, or the bond port is dead (R394). -/
def W.steer (w : W) (bond dir grp lane : Nat) : W :=
  let i := bondIdx bond dir grp
  let wait := (w.flt.steers.filter (fun s => s.bond == bond && s.dir == dir && s.grp == grp)).length
  if w.fuse.bgroups ≤ grp then w
  else if 2 ≤ w.rd fltB KFLT_BOND.bspares_used i + wait then (w.bondDead bond).noSpare
  else
    let due := (w.herdTime + 4096 + 4095) / 4096 * 4096
    { w with flt.steers := w.flt.steers ++ [{ bond := bond, dir := dir, grp := grp, lane := lane, herd := due }] }

/-- BOND_STEER_SWITCH (R394): both ends switch in the first fc whose herd time is a multiple of 4,096 at least 4,096
after the write. -/
def effBondSteerSwitch (w : W) : W :=
  let (due, rest) := w.flt.steers.partition (fun s => notEarlier w.herdTime s.herd 64)
  let w := { w with flt.steers := rest }
  w.each due (fun w s =>
    let i := bondIdx s.bond s.dir s.grp
    let n := w.rd fltB KFLT_BOND.bspares_used i
    let w := w.wr fltB KFLT_BOND.bspares_used (n + 1) i
    if n = 0 then w.wr fltB KFLT_BOND.bsteer0 s.lane i else w.wr fltB KFLT_BOND.bsteer1 s.lane i)

/-- Miomus maps a logical lane of an edge port onto lane 4 (R317). -/
def W.mapLane (w : W) (e l : Nat) : W :=
  let w := ((w.lockLoss e).wr (epB e) KEDG_LANE.spare_on 1).wr (epB e) KEDG_LANE.spare_lane l
  let en := (w.lanesUsed e).foldl (fun m l => setBit m l true) 0
  w.epMod e (fun p => { p with txEn := if p.oeReady then en else 0 })

/-- An edge lane group fails (R395): the lane whose signal has fallen is spared; with a signal on every lane the lanes
are tried in turn; with lane 4 in use the EP is dead. -/
def W.spareLane (w : W) (e : Nat) : W :=
  if w.rd (epB e) KEDG_LANE.spare_on = 1 ∨ (w.flt.trials.find e).isSome then
    { (w.partDead (locEp e)).noSpare with flt.trials := w.flt.trials.del e }
  else
    match (List.range 4).find? (fun l => !bit (w.rd (epB e) KEDG_LANE.sig) l) with
    | some l => w.mapLane e l
    | none => { w.mapLane e 0 with flt.trials := w.flt.trials.put e 0 }

/-- EDGE_LANE_TRIAL_END (R395): the mapping on trial is kept, or the next lane is tried; after the last the EP is dead. -/
def effEdgeLaneTrialEnd (ep : Nat) (ok : Bool) (w : W) : W :=
  match w.flt.trials.find ep with
  | none => w
  | some l =>
    if ok then { w with flt.trials := w.flt.trials.del ep }
    else if l < 3 then { w.mapLane ep (l + 1) with flt.trials := w.flt.trials.put ep (l + 1) }
    else { (w.partDead (locEp ep)).noSpare with flt.trials := w.flt.trials.del ep }

/-- The plate lanes with entries in a row of 8 run entries of a port, or (port 63) of combine entries (R396). -/
def Section.rowLanes (x : Section) (port row : Nat) : Nat :=
  let rs := if port = 63 then x.runs.filter (fun r => r.acts.any (fun a => actKind a == 2 && actComb a / 8 == row))
    else ((x.runs.filter (fun r => r.port == port)).drop (8 * row)).take 8
  rs.foldl (fun m r => setBit m r.lane true) 0

/-- The image of a plate in memory still has its CRC (R396). -/
def W.imageSame (w : W) (p : Plate) : Bool :=
  match readImage okType (w.memRead (loff p.addr) p.length) (loff p.addr) p.length with
  | some x => x.crc == p.crc
  | none => false

/-- A plate memory row is replaced by a spare row at the next boundary, or its plate lanes are retired (R396). -/
def W.spareRow (w : W) (unit port row : Nat) (staged : Bool) : W :=
  match (if staged then w.plt.staged else w.plt.active) with
  | none => w
  | some p =>
    match p.secs.find unit with
    | none => w
    | some x =>
      let n := if port = 63 then 8 else 16
      let wait := (w.flt.rowPend.filter (fun r => r == (unit, port))).length
      let full := n ≤ Tbl.get 0 w.flt.rowsUsed (unit * 64 + port) + wait
      if !full ∧ w.imageSame p then { w with flt.rowPend := w.flt.rowPend ++ [(unit, port)] }
      else
        let w := if full then w.noSpare else w
        if staged then w else { w with plt.retirePend := w.plt.retirePend ||| x.rowLanes port row }

/-- Spare rows take their places (R396, R412, R413). -/
def W.rowsNow (w : W) : W :=
  let l := w.flt.rowPend
  { w with flt.rowPend := [], flt.rowLost := [] } |>.each l (fun w r =>
    let k := r.1 * 64 + r.2
    let w := { w with flt.rowsUsed := w.flt.rowsUsed.put k (Tbl.get 0 w.flt.rowsUsed k + 1) }
    match w.plateUnit r.1 with
    | none => w
    | some u =>
      let most := (List.range 63).foldl (fun m p => max m (Tbl.get 0 w.flt.rowsUsed (r.1 * 64 + p))) 0
      if 0x1000 ≤ u ∧ u < 0x2000 then w.wr (unitB u) KSTN_PROW.prow_free (16 - most)
      else if isTine u ∨ isBeam u then
        (w.wr (rtrB u) KRTR_PROW.prow_free (16 - most)).wr (rtrB u) KRTR_PROW.crow_free
          (8 - Tbl.get 0 w.flt.rowsUsed (r.1 * 64 + 63))
      else w)

/-- Rows that units found uncorrectable are taken up, each once (R385, R396). -/
def W.rowsPoll (w : W) : W :=
  if !w.flt.rowLost.any (fun x => !x.2) ∨ !w.miomusUp then w else
  let l : List ((Nat × Nat × Nat) × Bool) := w.flt.rowLost.filter (fun x => !x.2)
  let w := { w with flt.rowLost := w.flt.rowLost.map (fun (x : (Nat × Nat × Nat) × Bool) => (x.1, true)) }
  w.each l (fun w (x : (Nat × Nat × Nat) × Bool) => w.spareRow x.1.1 x.1.2.1 x.1.2.2 false)

/-- Miomus writes entries of configuration tables that read as invalid again from its own copy (R380). -/
def W.entriesPoll (w : W) : W :=
  if w.flt.badEnt = [] ∨ !w.miomusUp then w
  else { w with flt.badEnt := w.flt.badEnt.filter (fun x => w.fc ≤ x.2) }

/-- A station or its core fails: fenced for every context, then its region's spare is to take its place (R385). -/
def W.failStation (w : W) (n : Nat) : W :=
  match w.logi n with
  | none => w
  | some l =>
    let w := w.fenceAll n
    if posOfPhys n = 16 then w.noSpare else { w with flt.want := w.flt.want ++ [(0, l)] }

/-- A CR or RR fails: every station behind it is fenced, then the die is to move; its other stations are fenced for the
move when there is a free site (R385, R400). -/
def W.failRouter (w : W) (u : Nat) : W :=
  let behind := if isCR u then (List.range 4).map (fun i => physAt (u / 4) (u % 4 * 4 + i))
    else (List.range 17).map (fun i => physAt (u - 0x240) i)
  let site := if isCR u then u / 8 else (u - 0x240) / 2
  let w := w.each (behind.filter (fun n => (w.logi n).isSome)) (fun w n => w.fenceAll n)
  match w.dieOn site, w.freeSite with
  | some d, some _ =>
    let w := w.each (moved 1 d) (fun w l => w.fenceAll (w.phys l))
    { w with flt.want := w.flt.want ++ [(1, d)] }
  | some _, none => w.noSpare
  | none, _ => w

/-- The location that a failing part belongs to (R381). -/
def partLoc (loc : Nat) : FailedPart → Nat
  | .bondLane b _ _ _ => locRegion (b / 4)
  | .bondPort b => locRegion (b / 4)
  | .edgeLane e => locEp e
  | .plateRow k _ _ _ => (match k / 65536 with
    | 0 => locRegion (pregOfPhys (k % 65536))
    | 1 => locRegion (k % 65536 / 4)
    | 2 => locRegion (k % 65536)
    | 3 => locTine (k % 65536)
    | 5 => locMsp (k % 65536)
    | 6 => locEp (k % 65536)
    | _ => loc)
  | .station n => locRegion (pregOfPhys n)
  | .router u => locOf u
  | .baseLink t _ => locTine t
  | .whole => loc

/-- The first action of R385 for a failing part, and what follows when no spare is left. -/
def W.escalate (w : W) (loc : Nat) (part : FailedPart) : W :=
  match part with
  | .bondLane b d g l => w.steer b d g l
  | .bondPort b => (w.fault clLINK (locRegion (b / 4))).bondDead b
  | .edgeLane e => w.spareLane e
  | .plateRow k p r st => w.spareRow k p r st
  | .station n => w.failStation n
  | .router u => w.failRouter u
  | .baseLink t p => (w.fault clLINK (locTine t)).baseDead t p
  | .whole =>
    if loc / 32 = 6 then
      match w.beamBy (loc % 32) with
      | some k => { w with flt.want := w.flt.want ++ [(2, k)] }
      | none => w.partDead loc
    else if loc / 32 = 9 ∨ loc / 32 = 10 then w.partDead loc
    else if loc / 32 = 5 ∨ loc / 32 = 7 ∨ loc / 32 = 8 then w.partDead loc
    else w

/-- ESCALATION (R385): Miomus escalates a location that became lasting, or a LINK event, once, unless it is already dead;
a bond port or a wire of the base that lost its lane group is marked dead in hardware, whether or not Miomus runs. -/
def effEscalation (loc : Nat) (part : FailedPart) (w : W) : W :=
  let link := match part with
    | .bondPort _ => true
    | .baseLink _ _ => true
    | _ => false
  if partLoc loc part ≠ loc ∨ w.isDeadPart loc ∨ (!link ∧ (!w.flt.escal.contains loc ∨ !w.miomusUp)) then w
  else ({ w with flt.escal := w.flt.escal.erase loc }.escalate loc part).sparePoll

/-! ### The period boundary (R69, R86, R91, R92, R97, R99, R100, R387) -/

/-- A placement change at the boundary cancels an arm and a load and clears the staged buffer (R91). -/
def W.placeChange (w : W) (o : SpareOp) : W :=
  let lanes := match w.running with
    | some p => p.lanesAt (w.movedUnits o.kind o.what)
    | none => 0
  let w := ((w.armEnd ABORTED).loadEnd ABORTED).setStaged none
  let w := { w with plt.retirePend := w.plt.retirePend ||| lanes, flt.spare := some { o with stage := 2 } }
  if o.kind = 0 then w.placeCore o.what else w.placeDie o.what o.spare

/-- The substitution that waits for the boundary takes effect. -/
def W.spareBoundary (w : W) : W :=
  match w.flt.spare with
  | none => w
  | some o =>
    if o.stage ≠ 1 then w
    else if o.kind = 2 then (w.placeBeam o.what o.spare).spareEnd OK
    else w.placeChange o

/-- The q of the new period, and the record of the old one (R72, R102); a period that was cut counts as complete for
`paused_fc` (DESIGN CHOICE, log). -/
def W.nextQ (w : W) : W :=
  let old := w.rd hrdB KPLT_PAUSE.q_now
  let q := w.plt.qNext.getD old
  let w := (w.wr hrdB KPLT_PAUSE_LAST.paused_fc (w.plt.curN / 64 * old)).wr hrdB KPLT_PAUSE.q_now q
  let w := if q = old then w else w.tracePlt 5 q (w.rd hrdB KPLT_STATUS.active_plate_id)
  { w with plt.p0 := w.plateTime, plt.qNext := none }

/-- An abort, a lock loss or the fault state stops the plate at this boundary, or ends a pending arm (R97, R99, R387). -/
def W.stopPlate (w : W) (halt abort fault : Bool) : W :=
  let w := if abort || fault then w.armEnd ABORTED else w
  let w := { w with
    plt.haltPend := if halt then none else w.plt.haltPend
    plt.abortPend := if abort then none else w.plt.abortPend
    flt.entryPeriod := w.flt.entryPeriod && !fault }
  if !(halt || abort || fault) then w
  else if w.activeValid then
    match w.plt.drain with
    | none => w.startDrain halt abort fault
    | some _ => w
  else (w.abortsOk)

/-- Lanes that are retired at this boundary (R90, R91, R92, R403). -/
def State.retireNow (s : State) : Nat :=
  match s.running with
  | none => 0
  | some p => s.plt.killPend.foldl (fun m x => m ||| (match p.secs.find (s.plateKey x.1) with
      | some sec => sec.lanesOn x.2
      | none => 0)) s.plt.retirePend

/-- PERIOD_BOUNDARY (R69, R100): in the fc of slot 0. -/
def effPeriodBoundary (w : W) : W :=
  if !w.atBoundary ∨ w.isPaused ∨ w.plt.boundaryDone ∨ w.boot.clk = false then w else
  let t := w.plateTime
  let blocks := w.plt.curN / 64
  let halt := match w.plt.haltPend with | some f => decide (f < w.fc) | none => false
  let abort := match w.plt.abortPend with | some f => decide (f < w.fc) | none => false
  let fault := w.flt.entryPeriod && decide (w.flt.entered < w.fc)
  let place := match w.flt.spare with | some o => o.stage == 1 && o.kind != 2 | none => false
  let w := (w.nextQ.stopPlate halt abort fault).spareBoundary
  let w := match w.plt.arm with
    | some a => if w.plt.swapFire && !halt && !abort && !fault && !place then w.swap a else w
    | none => w
  let m := w.retireNow
  let w := w.retireLanes m
  let w := { w with plt.retirePend := 0, plt.killPend := [], plt.swapFire := false }
  let n := if w.plt.drain.isSome then 64 else match w.running with | some p => 64 * p.blocks | none => 64
  let w := { w with plt.curN := n, plt.decisionDone := w.plt.cut || (w.plt.drain.isSome && blocks != 1), plt.cut := false }
  { w.rowsNow.showPlate.sparePoll with plt.boundaryDone := true, plt.p0 := t, sch.lends := [] }

/-! ### The commands of this family -/

/-- SPARE_MAP_CORE (R397). -/
def execSpareMapCore (q slot : Nat) (s : State) : Host.Outcome State Fault Refusal :=
  run (effSpareMapCore q slot) s

/-- SPARE_MAP_DIE (R398). -/
def execSpareMapDie (q slot : Nat) (s : State) : Host.Outcome State Fault Refusal :=
  run (effSpareMapDie q slot) s

/-- SPARE_MAP_BEAM (R399). -/
def execSpareMapBeam (q slot : Nat) (s : State) : Host.Outcome State Fault Refusal :=
  run (effSpareMapBeam q slot) s

/-- PERIOD_BOUNDARY (R69). -/
def execPeriodBoundary (s : State) : Host.Outcome State Fault Refusal :=
  run (effPeriodBoundary) s

/-- COMMIT_EFFECT (R168). -/
def execCommitEffect (s : State) : Host.Outcome State Fault Refusal :=
  run (effCommitEffect) s

/-- ESCALATION (R385). -/
def execEscalation (loc : Nat) (part : FailedPart) (s : State) : Host.Outcome State Fault Refusal :=
  run (effEscalation loc part) s

/-- BOND_STEER_SWITCH (R394). -/
def execBondSteerSwitch (s : State) : Host.Outcome State Fault Refusal :=
  run (effBondSteerSwitch) s

/-- SITE_PROOF_END (R398). -/
def execSiteProofEnd (site : Nat) (ok : Bool) (s : State) : Host.Outcome State Fault Refusal :=
  run (effSiteProofEnd site ok) s

/-- EDGE_LANE_TRIAL_END (R395). -/
def execEdgeLaneTrialEnd (ep : Nat) (ok : Bool) (s : State) : Host.Outcome State Fault Refusal :=
  run (effEdgeLaneTrialEnd ep ok) s

end Sys2Proof.Machine
end

