-- ==== Sys2Proof/Machine/Ctx.lean ====
section
/-! DEFINITION. Contexts, their drains and removals, and the search for the one that hung an engine (chapter 12). -/

namespace Sys2Proof.Machine

/-! ### Contexts and grants (R414 to R418) -/

def State.ctxAt (s : State) (c : Nat) : Option Ctx := s.cx.ctx.find c
def W.setCtx (w : W) (c : Nat) (x : Ctx) : W := { w with cx.ctx := w.cx.ctx.put c x }

/-- Contexts neither FREE nor in QUARANTINE (R438). -/
def State.liveCount (s : State) : Nat := (s.cx.ctx.filter (fun e => e.2.state != 0 && e.2.state != 6)).length

/-- A grant entry of a context image (R417). -/
structure GrantEnt where
  kind : Nat
  unit : Nat
  first : Nat
  num : Nat
  base : Nat
  lim : Nat
  perm : Nat
  clean : Bool

def grantOf (b : List Byte) : GrantEnt :=
  let kind := bits (le b 0 1) 0 4
  let res := bits (le b 0 1) 4 4 != 0 || le b 1 1 != 0 || bits (le b 2 2) 12 4 != 0 || bits (le b 4 2) 12 4 != 0
    || bits (le b 6 2) 12 4 != 0 || bits (le b 24 1) 4 4 != 0 || le b 25 7 != 0
    || (kind == 8 && (le b 11 1 != 0 || le b 15 1 != 0))
  { kind := kind, unit := bits (le b 2 2) 0 12, first := bits (le b 4 2) 0 12, num := bits (le b 6 2) 0 12,
    base := le b 8 8, lim := le b 16 8, perm := bits (le b 24 1) 0 4, clean := !res }

/-- Objects of a grant kind at its unit. -/
def grantMax (kind : Nat) : Nat :=
  match kind with
  | 0 => 8 | 1 => 8 | 2 => 256 | 3 => 256 | 4 => 256 | 5 => 64 | 6 => 16 | 7 => 1024 | 8 => 256
  | _ => 0

/-- A grant's encoding, unit and index range (R418). -/
def State.grantOk (s : State) (remote : Bool) (g : GrantEnt) : Bool :=
  g.clean && g.kind ≤ 8 && 1 ≤ g.num && g.first + g.num ≤ grantMax g.kind
    && (if g.kind ≤ 6 then g.unit < s.nStations && !remote
        else if g.kind = 7 then g.unit == 0 && !bit g.perm 0 else g.unit < s.fuse.edgePorts)

/-- The object kind of Machine/Flags.lean for a grant kind at a station. -/
def grantObj (kind : Nat) : Nat :=
  match kind with
  | 4 => 5
  | 5 => 7
  | k => k

/-- Indexes that a grant names. -/
def GrantEnt.idx (g : GrantEnt) : List Nat := (List.range g.num).map (fun i => g.first + i)

/-- Some object of a grant belongs to a context already (R418). -/
def State.grantTaken (s : State) (g : GrantEnt) : Bool :=
  g.idx.any (fun i =>
    if g.kind ≤ 6 then s.objCtx (grantObj g.kind) (s.phys g.unit) i != 0
    else if g.kind = 7 then s.rd (sliceB 0) KMSP_WIN_CFG.wvalid i == 1
    else s.rd (epB g.unit) KEDG_RATE_CTX.shp_en i == 1 || s.rd (epB g.unit) KEDG_RATE_CTX.pol_en i == 1)

/-- Write a window entry: pages, permissions, validity. -/
def W.putWin (w : W) (b i : Nat) (lo hi llo lhi v r ww a : Fld) (g : GrantEnt) : W :=
  let w := (w.wr b lo (g.base / 2 ^ 12) i).wr b hi (g.base / 2 ^ 32) i
  let w := (w.wr b llo (g.lim / 2 ^ 12) i).wr b lhi (g.lim / 2 ^ 32) i
  let p (k : Nat) : Nat := bits g.perm k 1
  (((w.wr b v 1 i).wr b r (p 1) i).wr b ww (p 2) i).wr b a (p 3) i

/-- A granted queue, channel or ring starts disabled and empty; a window or rate entry starts valid (R417). -/
def W.startObj (w : W) (ctx : Nat) (g : GrantEnt) (i : Nat) : W :=
  if g.kind = 7 then
    w.each (List.range w.fuse.slices) (fun w s =>
      (w.putWin (sliceB s) i KMSP_WIN_BASE_LO.wbase_lo KMSP_WIN_BASE_HI.wbase_hi KMSP_WIN_LIM_LO.wlim_lo
        KMSP_WIN_LIM_HI.wlim_hi KMSP_WIN_CFG.wvalid KMSP_WIN_CFG.wr KMSP_WIN_CFG.ww KMSP_WIN_CFG.wa g).wr (sliceB s)
        KMSP_WIN_CFG.wctx ctx i)
  else if g.kind = 8 then
    let b := epB g.unit
    let s := bits g.base 0 32
    let p := bits g.base 32 32
    let w := ((w.wr b KEDG_RATE_CTX.rctx ctx i).wr b KEDG_RATE_CTX.shp_en 1 i).wr b KEDG_RATE_CTX.pol_en 1 i
    let w := (w.wr b KEDG_RATE_SHP.rate (bits s 0 16) i).wr b KEDG_RATE_POL.rate (bits p 0 16) i
    let w := if bits s 16 8 = 0 then w else w.wr b KEDG_RATE_SHP.burst (bits s 16 8) i
    let w := if bits p 16 8 = 0 then w else w.wr b KEDG_RATE_POL.burst (bits p 16 8) i
    w.epMod g.unit (fun x => { x with bucket := (x.bucket.del (2 * i)).del (2 * i + 1) })
  else
    let st := w.phys g.unit
    let b := stnB st
    let w := { w with sta.bind := w.sta.bind.put (objKey (grantObj g.kind) st i) ctx }
    match g.kind with
    | 0 => (((w.wr b KSTN_DQ_CFG.enable 0 i).wr b KSTN_DQ_HEAD.dq_head 0 i).wr b KSTN_DQ_TAIL.dq_tail 0 i)
    | 1 => w.cqClear st i
    | 2 => if w.rd b KSTN_CH_CFG.enable i = 0 then w else w.chanOff st i ABORTED
    | 3 => if w.rd b KSTN_RING_CFG.enable i = 0 then w else w.ringOff st i
    | 4 => w.wr b KSTN_CC.cc_value 0 i
    | 5 => w.wr b KSTN_PTAB_CFG.tvalid 0 i
    | _ =>
      (w.putWin b i KSTN_WIN_BASE_LO.wbase_lo KSTN_WIN_BASE_HI.wbase_hi KSTN_WIN_LIM_LO.wlim_lo KSTN_WIN_LIM_HI.wlim_hi
        KSTN_WIN_CFG.wvalid KSTN_WIN_CFG.wr KSTN_WIN_CFG.ww KSTN_WIN_CFG.wa g).wr b KSTN_WIN_CFG.wsram (bits g.perm 0 1) i

/-- Cut `n` entries of 32 B. -/
def cut32 : Nat → List Byte → List (List Byte)
  | 0, _ => []
  | n + 1, b => b.take 32 :: cut32 n (b.drop 32)

/-- A command of a context waits while a FUNC_REINIT runs (R435). -/
def State.ctxCmd (s : State) (q slot op : Nat) : Option Cmd := if s.cx.reinit.isSome then none else s.cmdAt q slot op

/-- CTX_CREATE (R417, R418, R513). -/
def effCtxCreate (q slot : Nat) (w : W) : W :=
  match w.ctxCmd q slot 0x0040 with
  | none => w
  | some c =>
    let a := le c.bytes 16 8
    if !w.rangeOk a 32 then w.answer q slot BADOP else
    let h := w.memRead (loff a) 32
    let n := bits (le h 4 2) 0 10
    if !w.rangeOk a (32 + 32 * n) then w.answer q slot BADOP else
    let ctx := c.ctx
    let early := firstOf [(ctx == 0, BADOP), ((w.ctxAt ctx).isSome || 256 ≤ w.liveCount, BUSY)]
    let got := w.imageStatus (loff a) (32 + 32 * n)
    if early ≠ OK ∧ (got ≠ OK ∨ early = BADOP) then w.answer q slot early
    else if got ≠ OK then w.answer q slot got
    else
      let gs := (cut32 n (w.memRead (loff a + 32) (32 * n))).map grantOf
      let remote := bit (le h 0 2) 15
      let lanes := le h 2 2
      let form := bits (le h 0 2) 0 12 == ctx && bits (le h 0 2) 12 3 == 0 && bits (le h 4 2) 10 6 == 0 && le h 6 26 == 0
        && 1 ≤ n && gs.all (w.grantOk remote) && !(remote && lanes != 0)
      let busy := early == BUSY || gs.any w.grantTaken || w.cx.ctx.any (fun e => e.2.lanes &&& lanes != 0)
      let st := firstOf [(!form, BADOP), (busy, BUSY)]
      if st ≠ OK then w.answer q slot st
      else
        let w := w.setCtx ctx { state := 1, remote := remote, lanes := lanes,
                                grants := gs.map (fun g => { kind := g.kind, unit := g.unit, first := g.first, num := g.num }) }
        (w.each gs (fun w g => w.each g.idx (fun w i => w.startObj ctx g i))).answer q slot OK

/-! ### Fence and drain (R419 to R421) -/

/-- Stations at which a context has an object. -/
def State.ctxStations (s : State) (ctx : Nat) : List Nat :=
  ((s.sta.bind.filter (fun e => e.2 == ctx)).map (fun e => e.1 / 1024 % 4096)).eraseDups

/-- Commands that wait on a context end. -/
def W.ctxReply (w : W) (ctx kind status : Nat) : W :=
  match w.ctxAt ctx with
  | none => w
  | some x =>
    let (out, keep) := x.waits.partition (fun y => y.2.2 == kind)
    (w.setCtx ctx { x with waits := keep }).each out (fun w y => w.answer y.1 y.2.1 status)

/-- Drain slots in use. -/
def State.drainSlots (s : State) : List Nat := (s.cx.ctx.filter (fun e => e.2.state == 2)).map (fun e => e.2.dslot)

/-- The route writer sets or clears a context's freeze bits and fence flags in every unit (R419, R422). -/
def W.fenceEverywhere (w : W) (ctx : Nat) (on : Bool) : W :=
  { w.keepFrz with
    ctxFence := Tbl.set false w.ctxFence ctx on
    fenceOver := w.fenceOver.filter (fun e => e.1 % 4096 != ctx)
    net.frz := Tbl.set false w.net.frz ctx on
    net.frzOver := w.net.frzOver.filter (fun e => e.1 % 4096 != ctx) }

/-- The context takes a drain slot; its freeze bit and fence flag are set in every unit, and each unit treats it as R420
says. What a guilty context has open ends TIMEOUT (R428). -/
def W.drainStart (w : W) (ctx : Nat) (x : Ctx) : W :=
  let slot := ((List.range 4).find? (fun i => !w.drainSlots.contains i)).getD 0
  let w := w.setCtx ctx { x with state := 2, dslot := slot, t0 := w.fc }
  let w := w.fenceEverywhere ctx true
  let w := w.each (w.ctxStations ctx) (fun w st => w.endWork st (fun c => c == ctx) (if x.guilty then TIMEOUT else FENCED) true)
  let w := w.heldCtxEnd (fun _ p => p.ctx == ctx) FENCED
  (w.poolCtxEnd ctx true).mrgCtxEnd ctx true

/-- Nothing of the list of R421 remains for the context at any unit. -/
def State.drained (s : State) (ctx : Nat) : Bool :=
  !s.net.req.any (fun e => e.2.pkt.ctx == ctx && !e.2.late)
    && !s.sta.posted.any (fun e => e.2.any (fun p => p.ctx == ctx))
    && !s.ep.any (fun e => e.2.conns.any (fun c => c.2.outst.any (fun o => o.pkt.ctx == ctx))
        || e.2.waitTx.any (fun x => x.2.2.ctx == ctx) || e.2.shaped.any (fun p => p.ctx == ctx)
        || e.2.proxies.any (fun p => p.2.ctx == ctx))
    && !s.col.mrg.any (fun e => e.2.first.ctx == ctx)

/-- The context's plate lanes in the plate in force. -/
def State.ctxPlateLanes (s : State) (ctx : Nat) : Nat :=
  match s.running with
  | none => 0
  | some p => (List.range 16).foldl (fun m l => match p.laneOf l with
      | some e => if e.ctx = ctx then setBit m l true else m
      | none => m) 0

/-- Step 2 of the removal at a station (R422): logged descriptors end; queues, rings and channels are left disabled and
empty; counters are 0; bank sources 0 to 7 of its queues are cleared. -/
def W.removeAt (w : W) (st ctx status : Nat) : W :=
  let b := stnB st
  let w := (w.endWork st (fun c => c == ctx) status false).clearBank st ctx
  let mine := (w.sta.bind.filter (fun e => e.2 == ctx && e.1 / 1024 % 4096 == st)).map (fun e => e.1)
  w.each mine (fun w k =>
    let i := k % 1024
    match k / 1024 / 4096 with
    | 0 =>
      let w := ((w.wr b KSTN_DQ_CFG.enable 0 i).wr b KSTN_DQ_HEAD.dq_head 0 i).wr b KSTN_DQ_TAIL.dq_tail 0 i
      w.wr b KSTN_DQ_HEAD.inflight 0 i
    | 1 => w.cqClear st i
    | 2 => w.chanOff st i status
    | 3 => w.ringOff st i
    | 5 => w.wr b KSTN_CC.cc_value 0 i
    | _ => w)

/-- Removal starts (R422). -/
def W.removeStart (w : W) (ctx status : Nat) : W :=
  let w := { w with plt.retirePend := w.plt.retirePend ||| w.ctxPlateLanes ctx }
  let w := w.each (w.ctxStations ctx) (fun w st => w.removeAt st ctx status)
  let w := w.each (w.col.fold.filter (fun e => e.2.ctx == ctx)) (fun w e => w.delFold (e.1 / 32) (e.1 % 32))
  let w := w.each (w.col.rctx.filter (fun e => e.2.pkt.ctx == ctx)) (fun w e =>
    { w with col.rctx := w.col.rctx.del e.1 }.rctxCount (e.1 / 512))
  let w := (w.poolCtxEnd ctx false).mrgCtxEnd ctx false
  let w := { w with msp.walks := w.msp.walks ++ (List.range w.fuse.slices).map (fun s => (s, ctx + 65536)) }
  w.each w.ep (fun w e => w.each (e.2.proxies.filter (fun p => p.2.ctx == ctx)) (fun w p => w.freeProxy e.1 p.1))

/-- A context enters RESETTING or DESTROYING. -/
def W.removing (w : W) (ctx : Nat) (x : Ctx) (state : Nat) : W :=
  (w.setCtx ctx { x with state := state, unbind := false }).removeStart ctx (if x.guilty then TIMEOUT else ABORTED)

/-- The drain has ended (R415). -/
def W.drainEnded (w : W) (ctx : Nat) : W :=
  let w := w.ctxReply ctx 0 OK
  match w.ctxAt ctx with
  | none => w
  | some x => if x.dpend && !x.rpend then w.removing ctx { x with dpend := false } 5
    else if x.rpend then w.removing ctx { x with rpend := false } 4
    else w.setCtx ctx { x with state := 3 }

/-- DRAIN_END (R421). -/
def effDrainEnd (ctx : Nat) (w : W) : W :=
  match w.ctxAt ctx with
  | none => w
  | some x => if x.state = 2 ∧ w.drained ctx ∧ w.miomusUp then w.drainEnded ctx else w

/-- Remaining items of a context end at once (R421). -/
def W.forceDrain (w : W) (ctx : Nat) : W :=
  let w := w.each (w.ctxStations ctx) (fun w st => w.endWork st (fun c => c == ctx) ABORTED false)
  let core := (w.sta.core.filter (fun e => e.2.ctx == ctx)).map (fun e => e.1)
  let req := w.net.req.map (fun (e : Nat × Req) => if e.2.pkt.ctx = ctx then (e.1, { e.2 with late := true, dropped := true }) else e)
  let posted := (w.sta.posted.map (fun e => (e.1, e.2.filter (fun p => p.ctx != ctx)))).filter (fun e => e.2 != [])
  let conn (c : Nat × Conn) : Nat × Conn := (c.1, { c.2 with outst := c.2.outst.filter (fun o => o.pkt.ctx != ctx) })
  let ep := w.ep.map (fun (e : Nat × Ep) => (e.1, { e.2 with
    conns := e.2.conns.map conn
    waitTx := e.2.waitTx.filter (fun x => x.2.2.ctx != ctx)
    shaped := e.2.shaped.filter (fun p => p.ctx != ctx) }))
  let w := { w with net.req := req, sta.posted := posted, ep := ep }
  let w := w.each core (fun w k => w.coreDone (k / 256) (k % 256) ABORTED 0 [] 0)
  let w := w.each w.ep (fun w e => w.each (e.2.proxies.filter (fun p => p.2.ctx == ctx)) (fun w p => w.freeProxy e.1 p.1))
  let ts := (w.col.mrg.filter (fun e => e.2.first.ctx == ctx)).map (fun e => e.1 / 512)
  w.each ts.dedup (fun w t => W.mrgCount { w with col.mrg := w.col.mrg.filter (fun (e : Nat × MrgEnt) => e.2.first.ctx != ctx) } t)

/-- DRAIN_FORCED_END (R421): not drained 400,000 fc after acceptance. -/
def effDrainForcedEnd (ctx : Nat) (w : W) : W :=
  match w.ctxAt ctx with
  | none => w
  | some x =>
    if x.state ≠ 2 ∨ w.fc < x.t0 + 400000 ∨ w.drained ctx then w else
    let w := (w.forceDrain ctx).inc gblB KGBL_CTX_CNT.drain_forced
    if w.miomusUp then w.drainEnded ctx else w

/-! ### CTX_FENCE, CTX_RESET, CTX_DESTROY (R415, R424) -/

/-- The status that a context command starts with: kind 0 fence, 1 reset, 2 destroy (R424). -/
def State.ctxStart (s : State) (ctx kind : Nat) : Nat :=
  match s.ctxAt ctx with
  | none => BADOP
  | some x =>
    match x.state with
    | 1 => if 4 ≤ s.drainSlots.length then BUSY else OK
    | 2 => if (x.rpend || x.dpend) && kind != 2 then BUSY else OK
    | 3 => if kind = 0 then ALREADY else OK
    | 4 => if kind = 2 then OK else BUSY
    | 5 => if kind = 2 then ALREADY else BUSY
    | _ => BADOP

/-- A suspect leaves the search that holds it (R436). -/
def W.leaveSearch (w : W) (ctx : Nat) : W :=
  { w.keepFrz with
    cx.hold := w.cx.hold.erase ctx
    cx.search := w.cx.search.map (fun (s : Search) => { s with wait := s.wait.erase ctx, run := s.run.erase ctx }) }

/-- A context command is accepted (R415). -/
def W.ctxAccept (w : W) (ctx kind : Nat) : W :=
  match w.ctxAt ctx with
  | none => w
  | some x =>
    let y := { x with rpend := x.rpend || kind == 1, dpend := x.dpend || kind == 2 }
    match x.state with
    | 1 => (w.leaveSearch ctx).drainStart ctx y
    | 2 => w.setCtx ctx y
    | 3 => if kind = 1 then w.removing ctx x 4 else w.removing ctx x 5
    | _ => w.setCtx ctx y

/-- A command on a context: refused, or accepted to wait for its end. -/
def W.ctxCommand (w : W) (q slot op kind : Nat) : W :=
  match w.ctxCmd q slot op with
  | none => w
  | some c =>
    let st := if c.ctx = 0 then BADOP else w.ctxStart c.ctx kind
    if st ≠ OK then w.answer q slot st else
    let w := match w.ctxAt c.ctx with
      | some x => w.setCtx c.ctx { x with waits := x.waits ++ [(q, slot, kind)] }
      | none => w
    (w.cmdStage q slot 1).ctxAccept c.ctx kind

/-- CTX_FENCE (R419). -/
def effCtxFence (q slot : Nat) (w : W) : W := w.ctxCommand q slot 0x0041 0
/-- CTX_RESET (R422). -/
def effCtxReset (q slot : Nat) (w : W) : W := w.ctxCommand q slot 0x0042 1
/-- CTX_DESTROY (R423). -/
def effCtxDestroy (q slot : Nat) (w : W) : W := w.ctxCommand q slot 0x0043 2

/-! ### Removal, unbinding, quarantine (R422, R423) -/

/-- The context's removal has nothing left to wait for: walks, and its plate lanes' boundary. -/
def State.removed (s : State) (ctx : Nat) : Bool :=
  !s.msp.walks.any (fun x => x.2 == ctx + 65536) && s.cx.reinit.isNone && (s.plt.retirePend &&& s.ctxPlateLanes ctx) == 0
    && s.miomusUp

/-- The fence and freeze of a context are lifted. -/
def W.liftFence (w : W) (ctx : Nat) : W := w.fenceEverywhere ctx false

/-- REMOVAL_END (R422): a reset context is LIVE again, unless a destroy is pending; a destroyed one goes on to unbinding. -/
def effRemovalEnd (ctx : Nat) (w : W) : W :=
  match w.ctxAt ctx with
  | none => w
  | some x =>
    if (x.state ≠ 4 ∧ x.state ≠ 5) ∨ x.unbind ∨ !w.removed ctx then w
    else if x.state = 5 then w.setCtx ctx { x with unbind := true }
    else if x.dpend then (w.setCtx ctx { x with state := 5, dpend := false, unbind := true }).ctxReply ctx 1 OK
    else ((w.liftFence ctx).setCtx ctx { x with state := 1, guilty := false }).ctxReply ctx 1 OK

/-- Everything granted to a context is bound to none; its herds and groups are released (R423). -/
def W.unbindAll (w : W) (ctx : Nat) : W :=
  let mine := (w.sta.bind.filter (fun e => e.2 == ctx)).map (fun e => e.1)
  let w := w.each mine (fun w k => if k / 1024 / 4096 = 6 then w.wr (stnB (k / 1024 % 4096)) KSTN_WIN_CFG.wvalid 0 (k % 1024) else w)
  let w := { w with sta.bind := w.sta.bind.filter (fun e => e.2 != ctx) }
  let gs := (match w.ctxAt ctx with | some x => x.grants | none => [])
  let w := w.each gs (fun w g => w.each ((List.range g.num).map (fun i => g.first + i)) (fun w i =>
    if g.kind = 7 then w.each (List.range w.fuse.slices) (fun w s => w.wr (sliceB s) KMSP_WIN_CFG.wvalid 0 i)
    else if g.kind = 8 then (w.wr (epB g.unit) KEDG_RATE_CTX.shp_en 0 i).wr (epB g.unit) KEDG_RATE_CTX.pol_en 0 i
    else w))
  let herds := ((w.hbank w.genCur).defs.filter (fun e => e.2.ctx == ctx)).map (fun e => e.1)
  let w := w.each herds (fun w h => w.setHerd h none)
  w.each ((w.col.grp.filter (fun e => e.2.ctx == ctx)).map (fun e => e.1)) (fun w g => w.releaseGroup g)

/-- UNBINDING_END (R423). -/
def effUnbindingEnd (ctx : Nat) (w : W) : W :=
  match w.ctxAt ctx with
  | none => w
  | some x =>
    if x.state ≠ 5 ∨ !x.unbind ∨ !w.miomusUp then w else
    let w := (w.unbindAll ctx).setCtx ctx { x with state := 6, tq := w.herdTime, lanes := 0, grants := [] }
    w.ctxReply ctx 2 OK

/-- QUARANTINE_END (R415): 2^21 ticks since entry; the tag is FREE, and nothing of its fence is left. -/
def effQuarantineEnd (ctx : Nat) (w : W) : W :=
  match w.ctxAt ctx with
  | none => w
  | some x =>
    if x.state = 6 ∧ 2 ^ 21 ≤ since w.herdTime x.tq then { w.liftFence ctx with cx.ctx := w.cx.ctx.del ctx } else w

/-! ### Hangs and the replay search (R426 to R430) -/

/-- A pool unit of Machine/StColl.lean: of a region, of a slice. -/
def poolUnit (cls index : Nat) : Nat := if cls = 2 then uRR index else uMsp (2 * index)

/-- The contexts of the work on an engine, one for each piece of work (R426). -/
def State.engineWork (s : State) (cls index : Nat) : List Nat :=
  match cls with
  | 0 => (s.sta.log.filter (fun e => e.1 / 512 == index && e.2.lstate == 2)).map (fun e => e.2.lctx)
  | 1 => (s.col.rctx.filter (fun e => e.1 / 512 == index)).map (fun e => e.2.pkt.ctx)
  | 2 => (s.col.pool.filter (fun e => e.1 / 1024 == poolUnit cls index)).map (fun e => e.2.pkt.ctx)
  | 3 => (s.col.pool.filter (fun e => e.1 / 1024 == poolUnit cls index)).map (fun e => e.2.pkt.ctx)
      ++ (s.col.rows.filter (fun e => e.2.port / 2 == index)).map (fun e => e.2.pkt.ctx)
  | 4 => (s.col.mrg.filter (fun e => e.1 / 512 == index)).map (fun e => e.2.first.ctx)
  | 5 => (s.msp.dir.filter (fun e => e.1 / 131072 == index)).filterMap (fun e => e.2.pend.map (fun p => p.2.ctx))
      ++ ((s.msp.defer.find index).getD []).map (fun p => p.2.ctx)
  | 6 => (s.epS index).conns.flatMap (fun c => c.2.outst.map (fun o => o.pkt.ctx))
      ++ (s.epS index).proxies.map (fun p => p.2.ctx) ++ ((s.epS index).waitTx.map (fun x => x.2.2) ++ (s.epS index).shaped).map (fun p => p.ctx)
  | _ => []

/-- The contexts that have work on an engine (R426). -/
def State.engineCtx (s : State) (cls index : Nat) : List Nat := (s.engineWork cls index).eraseDups

/-- The engine holds work. -/
def State.engineBusy (s : State) (cls index : Nat) : Bool :=
  match cls with
  | 7 => s.plt.load.isSome
  | 8 => s.net.commit.isSome
  | _ => s.engineCtx cls index != []

/-- What an engine holds, as numbers of which one goes when it completes or emits something (R426). -/
def State.engineItems (s : State) (cls index : Nat) : List Nat :=
  match cls with
  | 0 => (s.sta.log.filter (fun e => e.1 / 512 == index && e.2.lstate == 2)).map (fun e =>
      (e.2.dseq * 512 + e.1 % 512) * 2 ^ 40 + (match s.sta.job.find e.1 with | some j => j.left | none => 0))
  | 1 => (s.col.rctx.filter (fun e => e.1 / 512 == index)).map (fun e => e.1 * 2 ^ 64 + e.2.t0)
  | 2 => (s.col.pool.filter (fun e => e.1 / 1024 == poolUnit cls index)).map (fun e => e.1 * 2 ^ 64 + e.2.t0)
  | 3 => (s.col.pool.filter (fun e => e.1 / 1024 == poolUnit cls index)).map (fun e => e.1 * 2 ^ 64 + e.2.t0)
      ++ (s.col.rows.filter (fun e => e.2.port / 2 == index)).map (fun e => e.1)
  | 4 => (s.col.mrg.filter (fun e => e.1 / 512 == index)).map (fun e => (e.1 * 2 + e.2.wait.toNat) * 2 ^ 64 + e.2.t0)
  | 5 => (s.msp.dir.filter (fun e => e.1 / 131072 == index && e.2.pend.isSome)).map (fun e => e.1)
      ++ (List.range ((s.msp.defer.find index).getD []).length).map (fun i => 2 ^ 64 + i)
  | 6 =>
    let p := s.epS index
    p.conns.flatMap (fun c => c.2.outst.map (fun o => c.1 * 2 ^ 64 + o.hdr.psn))
      ++ p.proxies.map (fun x => 2 ^ 128 + x.1) ++ (List.range (p.waitTx.length + p.shaped.length)).map (fun i => 2 ^ 129 + i)
  | 7 => match s.plt.load with | some l => [l.left] | none => []
  | _ => if s.net.commit.isSome then [0] else []

/-- The engine waits only on a port outside the block (R426): a station on its core's write port, a slice's pool unit on
reads of memory, a directory on snooped cores, an edge port on the far end of its link. -/
def State.waitsOutside (s : State) (cls index : Nat) : Bool :=
  match cls with
  | 0 => (s.sta.dbuf.find index).isSome && !s.net.req.any (fun e => e.1 / 2 ^ 20 == uSt index)
  | 3 => !s.col.pool.any (fun e => e.1 / 1024 == poolUnit cls index)
  | 5 => (s.msp.dir.filter (fun e => e.1 / 131072 == index && e.2.pend.isSome)).all (fun e => e.2.acks != 0)
  | 6 => (s.epS index).proxies.isEmpty && (s.epS index).waitTx.isEmpty && (s.epS index).shaped.isEmpty
  | _ => false

/-- Engines that hold work, as class * 4096 + index. -/
def State.engines (s : State) : List Nat :=
  ((s.sta.log.filter (fun (e : Nat × LogEnt) => e.2.lstate == 2)).map (fun (e : Nat × LogEnt) => e.1 / 512)
    ++ s.col.rctx.map (fun (e : Nat × RCtx) => 4096 + e.1 / 512)
    ++ s.col.pool.map (fun (e : Nat × PoolCtx) => if isRR (e.1 / 1024) then 2 * 4096 + (e.1 / 1024 - 0x240) else 3 * 4096 + (e.1 / 1024 - 0x2000) / 2)
    ++ s.col.rows.map (fun (e : Nat × RowRead) => 3 * 4096 + e.2.port / 2)
    ++ s.col.mrg.map (fun (e : Nat × MrgEnt) => 4 * 4096 + e.1 / 512)
    ++ s.msp.dir.filterMap (fun (e : Nat × DirEnt) => if e.2.pend.isSome then some (5 * 4096 + e.1 / 131072) else none)
    ++ s.msp.defer.map (fun (e : Nat × List (Nat × Packet)) => 5 * 4096 + e.1)
    ++ (s.ep.map (fun (e : Nat × Ep) => 6 * 4096 + e.1)).filter (fun (k : Nat) => s.engineItems 6 (k % 4096) != [])
    ++ (if s.plt.load.isSome then [7 * 4096] else []) ++ (if s.net.commit.isSome then [8 * 4096] else [])).eraseDups

/-- The progress watchdogs of engines count (R426): an fc in which the engine holds work and completes and emits nothing,
but neither one in which it waits only on a port outside the block, nor a paused one. -/
def W.engineWatch (w : W) : W :=
  if w.isPaused then w else
  { w with cx.wd := w.engines.map (fun (k : Nat) =>
      let now := w.engineItems (k / 4096) (k % 4096)
      (k, match w.cx.wd.find k with
        | none => (0, now)
        | some (n, was) =>
          if was.any (fun i => !now.contains i) then (0, now)
          else if w.waitsOutside (k / 4096) (k % 4096) then (n, now) else (n + 1, now))) }

/-- An engine reset drops all the engine's work (R427). -/
def W.engineReset (w : W) (cls index : Nat) : W :=
  let late (f : Nat → Req → Bool) : Tbl Req := w.net.req.map (fun (e : Nat × Req) => if f e.1 e.2 then (e.1, { e.2 with late := true }) else e)
  match cls with
  | 0 => { w with net.req := late (fun k r => k / 2 ^ 20 == uSt index && (match r.own with | .desc _ _ _ => true | _ => false)) }
  | 1 => { w with col.rctx := w.col.rctx.filter (fun (e : Nat × RCtx) => e.1 / 512 != index) }.rctxCount index
  | 2 => { w with col.pool := w.col.pool.filter (fun (e : Nat × PoolCtx) => e.1 / 1024 != poolUnit cls index) }.poolCount (poolUnit cls index)
  | 3 => { w with
      col.pool := w.col.pool.filter (fun (e : Nat × PoolCtx) => e.1 / 1024 != poolUnit cls index)
      col.rows := w.col.rows.filter (fun (e : Nat × RowRead) => e.2.port / 2 != index) }.poolCount (poolUnit cls index)
  | 4 => { w with col.mrg := w.col.mrg.filter (fun (e : Nat × MrgEnt) => e.1 / 512 != index) }.mrgCount index
  | 5 => { w with
      msp.dir := w.msp.dir.map (fun (e : Nat × DirEnt) =>
        if e.1 / 131072 = index then (e.1, { e.2 with pend := none, busy := false, acks := 0 }) else e)
      msp.defer := w.msp.defer.del index }
  | 6 => (w.each (w.epS index).proxies (fun w p => w.freeProxy index p.1)).epMod index (fun p => { p with
      waitTx := []
      shaped := []
      eq := (p.eq.map (fun (q : Nat × List EOut) => (q.1, q.2.filter (fun x => x.sent != 0)))).filter
        (fun (q : Nat × List EOut) => !q.2.isEmpty)
      conns := p.conns.map (fun (c : Nat × Conn) => (c.1, Conn.advance 4096 { c.2 with outst := [], held := [] })) })
  | _ => w

/-- A started descriptor has work on an engine (R427). -/
def State.workOn (s : State) (cls index st e : Nat) (l : LogEnt) : Bool :=
  let k := le l.desc 0 1
  let merge := bit (le l.desc 33 1) 0
  let asks (f : Nat → Bool) : Bool := s.net.req.any (fun r => r.1 / 2 ^ 20 == uSt st && f r.2.pkt.dst
    && (match r.2.own with | .desc x _ _ => x == e | _ => false))
  l.lstate == 2 && (match cls with
    | 0 => st == index
    | 1 => k == 7 || k == 8
    | 2 => k == 6 && !(match s.bagOf st e with | some b => b.2.merge | none => merge)
    | 3 => k == 6 && !(match s.bagOf st e with | some b => b.2.merge | none => merge)
    | 4 => k == 6 && (match s.bagOf st e with | some b => b.2.merge | none => merge)
    | 5 => asks (fun d => d == 0x800 + 2 * index || d == 0x801 + 2 * index)
    | 6 => asks (fun d => d == 0x840 + index)
    | _ => false)

/-- Rewind a context's descriptor on an engine (R427): a READ, FENCE, NOP or gather returns to `lstate` 1, with its work
dropped; any other completes ABORTED. -/
def W.rewindOne (w : W) (st e : Nat) (l : LogEnt) : W :=
  let k := le l.desc 0 1
  let bag := w.bagOf st e
  let gather : Bool := match bag with | some b => !b.2.merge | none => false
  if k = 3 ∨ k = 5 ∨ k = 9 ∨ gather then
    let mine (o : Owner) : Bool := match o, bag with
      | .desc x _ _, _ => x == e
      | .bagRead i, some b => i == b.1
      | _, _ => false
    let w := { w with
      net.req := w.net.req.map (fun (r : Nat × Req) => if r.1 / 2 ^ 20 = uSt st ∧ mine r.2.own then (r.1, { r.2 with late := true }) else r)
      sta.job := w.sta.job.del (logKey st e) }
    let w := match bag with
      | some b => { w with col.bag := w.col.bag.del (bagKey st b.1) }.bagCount st
      | none => w
    w.setLog st e { l with lstate := 1 }
  else
    match bag, w.collAt st e with
    | some b, _ => w.bagEnd st b.1 ABORTED
    | none, some _ => w.collEnd st e ABORTED 0
    | none, none => w.complete st e ABORTED

/-- Rewind contexts on an engine. -/
def W.rewind (w : W) (l : List Nat) (cls index : Nat) : W :=
  w.each (w.sta.log.filter (fun e => l.contains e.2.lctx)) (fun w e =>
    if w.workOn cls index (e.1 / 512) (e.1 % 512) e.2 then w.rewindOne (e.1 / 512) (e.1 % 512) e.2 else w)

/-- Hold or release contexts (R428). -/
def W.holdCtx (w : W) (l : List Nat) : W := { w.keepFrz with cx.hold := w.cx.hold ++ l.filter (fun (c : Nat) => !w.cx.hold.contains c) }
def W.releaseCtx (w : W) (l : List Nat) : W := { w.keepFrz with cx.hold := w.cx.hold.filter (fun (c : Nat) => !l.contains c) }

/-- A search ends. -/
def W.searchEnd (w : W) : W := ({ w with cx.search := none }).wr gblB KGBL_HANG.search 0

/-- The engine hung again while `run` ran, so its last is guilty (R428, R430). -/
def W.foundGuilty (w : W) (s : Search) : W :=
  match s.run.getLast? with
  | none => w
  | some c =>
    let w := ((w.holdCtx s.run).engineReset s.cls s.index).rewind (s.run.filter (fun x => x != c)) s.cls s.index
    let w := (w.wr gblB KGBL_HANG.guilty_ctx c).wr gblB KGBL_HANG.guilty_v 1
    let w := match w.ctxAt c with
      | some x => w.setCtx c { x with guilty := true }
      | none => w
    let w := (w.releaseCtx (s.run ++ s.wait)).ctxAccept c 1
    w.searchEnd.inc gblB KGBL_HANG_CNT.guilty_found

/-- The contexts LIVE now, of a list, in rising order. -/
def State.liveOf (s : State) (l : List Nat) : List Nat :=
  (l.filter (fun c => match s.ctxAt c with | some x => x.state == 1 | none => false)).foldl (fun a c => insertUp c a) []

/-- The count of an engine's watchdog. -/
def State.engineCount (s : State) (cls index : Nat) : Nat :=
  match s.cx.wd.find (cls * 4096 + index) with
  | some x => x.1
  | none => 0

/-- ENGINE_WATCHDOG_BITE (R426): an engine that holds work made no progress for 2^`eng_wd_log2` fc. The plate loader's and
the route writer's operation completes TIMEOUT; any other engine's bite goes to the search, with the contexts that have work
on it. -/
def effEngineWatchdogBite (cls index : Nat) (w : W) : W :=
  if 8 < cls ∨ !w.engineBusy cls index ∨ w.engineCount cls index < 2 ^ w.rd gblB KGBL_ENGWD.eng_wd_log2 then w else
  let w := { w with cx.wd := w.cx.wd.del (cls * 4096 + index) }
  let w := ((w.wr gblB KGBL_HANG.eng_class cls).wr gblB KGBL_HANG.eng_index index).inc gblB KGBL_HANG_CNT.bites
  if cls = 7 then w.loadEnd TIMEOUT
  else if cls = 8 then
    match w.net.commit with
    | some c => { w with net.commit := none }.answer c.q c.slot TIMEOUT
    | none => w
  else
    match w.cx.search with
    | some s => if s.cls = cls ∧ s.index = index then (if w.miomusUp then w.foundGuilty s else w)
      else { w with cx.bites := w.cx.bites ++ [(cls, index, w.engineCtx cls index)] }
    | none => { w with cx.bites := w.cx.bites ++ [(cls, index, w.engineCtx cls index)] }

/-- REPLAY_SEARCH_START (R428): the suspects, LIVE contexts that had work on the engine at the bite, are held, the engine
reset, the suspects rewound, the first released. -/
def effReplaySearchStart (w : W) : W :=
  if w.cx.search.isSome ∨ !w.miomusUp then w else
  match w.cx.bites with
  | [] => w
  | (cls, index, work) :: rest =>
    let susp := w.liveOf work
    let w := { w with cx.bites := rest }.inc gblB KGBL_HANG_CNT.searches
    match susp with
    | [] => (w.engineReset cls index).inc gblB KGBL_HANG_CNT.unresolved
    | c :: more =>
      let w := ((w.holdCtx susp).engineReset cls index).rewind susp cls index
      { (w.releaseCtx [c]).wr gblB KGBL_HANG.search 1 with
          cx.search := some { cls := cls, index := index, wait := more, run := [c], t0 := w.fc } }

/-- REPLAY_WINDOW_EXPIRY (R428): 2^`replay_log2` fc have passed: the next suspect is released, or none hung the engine
again. -/
def effReplayWindowExpiry (w : W) : W :=
  match w.cx.search with
  | none => w
  | some s =>
    if w.fc < s.t0 + 2 ^ w.rd gblB KGBL_ENGWD.replay_log2 ∨ !w.miomusUp then w else
    match s.wait with
    | [] => w.searchEnd.inc gblB KGBL_HANG_CNT.unresolved
    | c :: more => { w.releaseCtx [c] with cx.search := some { s with wait := more, run := s.run ++ [c], t0 := w.fc } }

/-! ### The commands of this family -/

/-- CTX_CREATE (R417). -/
def execCtxCreate (q slot : Nat) (s : State) : Host.Outcome State Fault Refusal :=
  run (effCtxCreate q slot) s

/-- CTX_FENCE (R419). -/
def execCtxFence (q slot : Nat) (s : State) : Host.Outcome State Fault Refusal :=
  run (effCtxFence q slot) s

/-- CTX_RESET (R422). -/
def execCtxReset (q slot : Nat) (s : State) : Host.Outcome State Fault Refusal :=
  run (effCtxReset q slot) s

/-- CTX_DESTROY (R423). -/
def execCtxDestroy (q slot : Nat) (s : State) : Host.Outcome State Fault Refusal :=
  run (effCtxDestroy q slot) s

/-- DRAIN_END (R421). -/
def execDrainEnd (ctx : Nat) (s : State) : Host.Outcome State Fault Refusal :=
  run (effDrainEnd ctx) s

/-- DRAIN_FORCED_END (R421). -/
def execDrainForcedEnd (ctx : Nat) (s : State) : Host.Outcome State Fault Refusal :=
  run (effDrainForcedEnd ctx) s

/-- REMOVAL_END (R422). -/
def execRemovalEnd (ctx : Nat) (s : State) : Host.Outcome State Fault Refusal :=
  run (effRemovalEnd ctx) s

/-- QUARANTINE_END (R415). -/
def execQuarantineEnd (ctx : Nat) (s : State) : Host.Outcome State Fault Refusal :=
  run (effQuarantineEnd ctx) s

/-- ENGINE_WATCHDOG_BITE (R426). -/
def execEngineWatchdogBite (cls index : Nat) (s : State) : Host.Outcome State Fault Refusal :=
  run (effEngineWatchdogBite cls index) s

/-- REPLAY_SEARCH_START (R428). -/
def execReplaySearchStart (s : State) : Host.Outcome State Fault Refusal :=
  run (effReplaySearchStart) s

/-- REPLAY_WINDOW_EXPIRY (R428). -/
def execReplayWindowExpiry (s : State) : Host.Outcome State Fault Refusal :=
  run (effReplayWindowExpiry) s

/-- UNBINDING_END (R423). -/
def execUnbindingEnd (ctx : Nat) (s : State) : Host.Outcome State Fault Refusal :=
  run (effUnbindingEnd ctx) s

end Sys2Proof.Machine
end

