-- ==== Sys2Proof/Machine/Boot.lean ====
section
/-! DEFINITION. Start-up, proof, die power and resets (chapter 13: R441 to R449), the reset pins, and the herds that
start-up defines. -/

namespace Sys2Proof.Machine

/-! ### Resets (R435, R441) -/

/-- What PORST_N low leaves: everything at its reset value, nothing powered; the fuses, the test logic and what stands in
the memories stay (R435, R476). -/
def State.cold (s : State) : State :=
  { State.reset with
    fuse := s.fuse
    mem := s.mem
    freeCtr := s.freeCtr
    pending := s.pending
    plt := { State.reset.plt with pT := s.coef 7, pD := s.coef 7, pR := s.coef 7 }
    boot := { porstN := s.boot.porstN, pwrgd := s.boot.pwrgd, hrstN := s.boot.hrstN, clk := s.boot.clk, ir := s.boot.ir,
              sitesLeft := List.range s.fuse.cdSites } }

/-- A site is powered: `pd_good` has risen (R448). -/
def State.powered (s : State) (site : Nat) : Bool := s.rd gblB KGBL_SITE.pgood site == 1

/-- What BLOCK_RESET and HRST_N leave (R435, R441): as PORST_N, but herd time counts on, powered sites stay powered, and
`recoveries` stays (R389). Start-up begins at step 1. -/
def W.warm (w : W) : W :=
  let s := w.toState
  let sites := (List.range s.fuse.cdSites).filter s.powered
  let c : State := { s.cold with
    fc := s.fc
    herdTime := s.herdTime
    boot := { s.cold.boot with
      sitesLeft := (List.range s.fuse.cdSites).filter (fun x => !s.powered x)
      pdNext := s.fc + 4000000 } }
  let w' : W := { w with toState := c }
  let w' := w'.wr fltB KFLT_RCV.recoveries (s.rd fltB KFLT_RCV.recoveries)
  w'.each sites (fun w x => ((w.wr gblB KGBL_SITE.pon 1 x).wr gblB KGBL_SITE.pgood 1 x).wr gblB KGBL_SITE.slp_req
    (s.rd gblB KGBL_SITE.slp_req x) x)

/-- PORST_N_ASSERT (R441): the whole block is in reset. -/
def effPorstNAssert (w : W) : W :=
  let s := w.toState
  { w with toState := { s.cold with boot := { s.cold.boot with porstN := false } } }

/-- PORST_N_RELEASE (R58, R442): start-up begins at step 1, with herd time 0. -/
def effPorstNRelease (w : W) : W := { w with boot.porstN := true }

/-- PWRGD_IN_FALL (R441): as PORST_N asserted; the clock is not locked any more. -/
def effPwrgdInFall (w : W) : W :=
  let s := w.toState
  { w with toState := { s.cold with boot := { s.cold.boot with pwrgd := false, clk := false } } }

/-- FABRIC_CLOCK_LOCK (R440): with PWRGD_IN high the fabric clock locks, and the first fc runs. -/
def effFabricClockLock (w : W) : W := { w with boot.clk := true, boot.pwrgd := true }

/-- HRST_N_ASSERT (R441): HRST_N is low, for `lowFc` fc. At 2,000 fc or more the block resets as under BLOCK_RESET while it
stays low; whether a shorter pulse is taken is open. -/
def effHrstNAssert (lowFc : Nat) (w : W) : W :=
  let taken := 2000 ≤ lowFc || Config.shortPulseTaken w.freeCtr
  let w := if 2000 ≤ lowFc then w else { w with freeCtr := w.freeCtr + 1 }
  if !taken then w
  else if w.boot.porstN && w.boot.pwrgd then { w.warm with boot.hrstN := false }
  else { w with boot.hrstN := false }

/-- HRST_N_RELEASE (R442): start-up begins at step 1 while herd time keeps counting. -/
def effHrstNRelease (w : W) : W :=
  if w.boot.hrstN then w else { w with boot.hrstN := true, boot.pdNext := w.fc + 4000000 }

/-- BLOCK_RESET (R433, R441, R463): a BLOCK_RESET found among posted commands resets the block, without a reply. -/
def effBlockReset (q slot : Nat) (w : W) : W :=
  if w.boot.rstReq ∧ q < 4 ∧ le (w.slotBytes q slot) 0 2 = 0x61 then w.warm else w

/-! ### Site power (R442, R448) -/

/-- Every site of start-up has power or has failed. -/
def State.sitesDone (s : State) : Bool :=
  s.boot.sitesLeft == [] && (List.range s.fuse.cdSites).all (fun x => s.rd gblB KGBL_SITE.pon x == 0 || s.powered x)

/-- The next site's `pd_on` rises when its fc has come, 2^18 fc after the one before (R448); proof starts once every site
is powered or has failed. -/
def W.powerPoll (w : W) : W :=
  let w := match w.boot.sitesLeft with
    | [] => w
    | x :: rest =>
      if w.fc < w.boot.pdNext then w
      else { (w.wr gblB KGBL_SITE.pon 1 x).wr gblB KGBL_BOOT.stage 1 with
               boot.sitesLeft := rest, boot.pdNext := w.fc + 2 ^ 18, boot.pdT := w.boot.pdT.put x w.fc }
  if w.rd gblB KGBL_BOOT.stage ≤ 1 ∧ w.sitesDone then w.wr gblB KGBL_BOOT.stage 2 else w

/-- PD_GOOD_RISE (R448): a site that the block powers is in range. -/
def effPdGoodRise (site : Nat) (w : W) : W :=
  if w.rd gblB KGBL_SITE.pon site = 0 ∨ w.powered site then w
  else { w.wr gblB KGBL_SITE.pgood 1 site with boot.pdT := w.boot.pdT.del site }.powerPoll

/-- PD_GOOD_TIMEOUT (R448): 2^22 fc after the site's `pd_on` it is failed; a die substitution onto it ends (R398). -/
def effPdGoodTimeout (site : Nat) (w : W) : W :=
  match w.boot.pdT.find site with
  | none => w
  | some t =>
    if w.powered site ∨ w.fc < t + 2 ^ 22 then w else
    let w := { w.siteFail site with boot.pdT := w.boot.pdT.del site }
    let w := match w.flt.spare with
      | some o => if o.kind = 1 ∧ o.stage = 0 ∧ o.spare = site then w.spareEnd DEAD_TARGET else w
      | none => w
    w.powerPoll

/-! ### Proof (R443, R444, R446) -/

/-- Dead parts, fences and sparing as proof finds them: what was done for a record (R446 `ract`). -/
def actSpared : Nat := 0
def actDead : Nat := 1
def actFenced : Nat := 2
def actFail : Nat := 3
def actUntrained : Nat := 4

/-- A die site failed (R444): its die moves to the lowest free spare site when proof has moved none yet, else its logical
stations are dead endpoints. -/
def W.proofSite (w : W) (site : Nat) : W × Nat :=
  let w := w.wr gblB KGBL_SITE.sfailed 1 site
  match w.dieOn site with
  | none => (w, actDead)
  | some d =>
    let free := (List.range w.fuse.cdSites).find? (fun x => w.siteFree x && w.powered x)
    match free with
    | some x =>
      if w.flt.leftSites ≠ [] then (w.each (moved 1 d) W.epDead, actDead)
      else ({ w.wr fltB KFLT_DMAP.dsite x d with flt.leftSites := w.flt.leftSites ++ [site] }, actSpared)
    | none => (w.each (moved 1 d) W.epDead, actDead)

/-- A station failed: the region's spare takes its place, else it stays fenced (R385, R393). -/
def W.proofStation (w : W) (n : Nat) : W × Nat :=
  let p := pregOfPhys n
  match w.dieOn (n / 34) with
  | none => (w.wr gblB KGBL_SITE.sfailed 1 (n / 34), actDead)
  | some _ =>
    if posOfPhys n = 16 then (w.wr fltB KFLT_SMAP.sfail 1 p, actDead)
    else if !w.spareBound p && !w.spareFailed p then
      (((w.wr fltB KFLT_SMAP.spos (posOfPhys n) p).wr fltB KFLT_SMAP.sbound 1 p).irqR p 8, actSpared)
    else (w.noSpare.startFenced n true, actFenced)

/-- A beam failed: the lowest free spare beam takes its place (R393). -/
def W.proofBeam (w : W) (b : Nat) : W × Nat :=
  match w.beamBy b with
  | none => ({ w with flt.deadParts := w.flt.deadParts ++ [locBeam b] }, actDead)
  | some k =>
    match w.freeBeams with
    | x :: _ => (w.placeBeam k x, actSpared)
    | [] => (w.noSpare.partDead (locBeam b), actDead)

/-- What proof does for one failure (R443, R444). -/
def W.proofPart (w : W) (r : ProofRec) : W × Nat :=
  if r.step = 2 ∨ r.loc / 32 = 11 then (w, actFail) else
  match r.part with
  | .bondLane b d g _ =>
    let i := bondIdx b d g
    let n := w.rd fltB KFLT_BOND.bspares_used i
    if 2 ≤ n then ((w.setClass clLINK).bondDead b, actDead)
    else
      let w := w.wr fltB KFLT_BOND.bspares_used (n + 1) i
      (if n = 0 then w.wr fltB KFLT_BOND.bsteer0 r.detail i else w.wr fltB KFLT_BOND.bsteer1 r.detail i, actSpared)
  | .bondPort b => ((w.setClass clLINK).bondDead b, actDead)
  | .edgeLane e =>
    if w.rd (epB e) KEDG_LANE.sig = 0 then (w, actUntrained)
    else if w.rd (epB e) KEDG_LANE.spare_on = 0 then (w.mapLane e (r.detail % 4), actSpared)
    else ((w.setClass clLINK).partDead (locEp e), actDead)
  | .plateRow unit port _ _ =>
    let k := unit * 64 + port
    let n := Tbl.get 0 w.flt.rowsUsed k + (w.flt.rowPend.filter (fun x => x == (unit, port))).length
    if n < (if port = 63 then 8 else 16) then ({ w with flt.rowPend := w.flt.rowPend ++ [(unit, port)] }, actSpared)
    else (w.noSpare, actDead)
  | .station n => w.proofStation n
  | .router u => w.proofSite (if isCR u then u / 8 else (u - 0x240) / 2)
  | .baseLink t p =>
    let w := w.setClass clLINK
    (match w.beamOf (p - 21) with
    | some b => if 21 ≤ p then w.proofBeam b else (w.baseDead t p, actDead)
    | none => (w.baseDead t p, actDead))
  | .whole =>
    if r.loc < 5 * 32 then w.proofSite (r.loc / 2)
    else if r.loc / 32 = 6 then w.proofBeam (r.loc % 32)
    else (w.partDead r.loc, if r.loc = locTine 0 ∨ r.loc = locTine 16 then actFail else actDead)

/-- The order in which proof maps spares (R393). -/
def proofRank (r : ProofRec) : Nat :=
  match r.part with
  | .bondLane _ _ _ _ => 0
  | .edgeLane _ => 0
  | .bondPort _ => 0
  | .plateRow _ _ _ _ => 1
  | .station n => if posOfPhys n = 16 then 2 else 3
  | .router _ => 5
  | .baseLink _ _ => 4
  | .whole => if r.loc < 5 * 32 then 5 else if r.loc / 32 = 6 then (if 20 ≤ r.loc % 32 then 2 else 4) else 6

/-- Failures with what was done for each, in the order found; spares are mapped kind by kind, and each failure sets the sticky
bit of its location (R383, R393, R444). -/
def W.proofAll (w : W) (l : List ProofRec) : W × List (ProofRec × Nat) :=
  let ord := (List.range 7).flatMap (fun k => l.filter (fun r => proofRank r == k))
  let (w, done) := ord.foldl (fun (a : W × List (ProofRec × Nat)) r =>
    let w := (a.1.traceFlt r.loc 0xFE).sticky (r.loc / 32) (r.loc % 32)
    let (w, act) := w.proofPart r
    (w, a.2 ++ [(r, act)])) (w, [])
  (w, l.filterMap (fun r => done.find? (fun x => x.1 == r)))

/-- Sites that got no power are failures that proof finds (R448). -/
def State.unpowered (s : State) : List ProofRec :=
  ((List.range s.fuse.cdSites).filter (fun x => s.rd gblB KGBL_SITE.sfailed x == 1)).map (fun x =>
    { step := 3, loc := 2 * x, detail := x, stamp := s.herdTime, part := .whole })

/-- A record of the report (R446). -/
def recBytes (x : ProofRec × Nat) : List Byte :=
  toLE 2 x.1.loc ++ toLE 1 x.1.step ++ toLE 1 x.2 ++ toLE 4 x.1.detail ++ toLE 8 x.1.stamp

/-- The proof report (R446). -/
def reportBytes (presult pstep ptime : Nat) (l : List (ProofRec × Nat)) : List Byte :=
  let n (a : Nat) : Nat := (l.filter (fun x => x.2 == a)).length
  toLE 1 presult ++ toLE 1 pstep ++ toLE 2 (min 65535 l.length) ++ toLE 4 ptime ++ toLE 4 (n actSpared)
    ++ toLE 4 (n actDead + n actFenced) ++ List.replicate 16 0 ++ ((l.take 254).flatMap recBytes)

/-- Step 5 of start-up (R442): generation 0 is written for every pair of present endpoints, with the dead-endpoint vectors,
and the herds of the regions are defined. -/
def W.genZero (w : W) : W :=
  let pl := w.toState.place
  { w with net.rb0 := { zero := some pl }, net.hb0 := {}, net.deadEp := w.net.deadNext, net.deadOver := [] }.defRegions 0

/-- PROOF_END (R443 to R446, R442, R475): spares are mapped, the report is written, untaken spare sites are powered off
(R32). On a pass generation 0 is written and the management port is ready; on a failure the block is in proof hold. -/
def effProofEnd (recs : List ProofRec) (ptime : Nat) (w : W) : W :=
  if w.rd gblB KGBL_BOOT.stage ≠ 2 then w else
  let (w, l) := w.proofAll (w.unpowered ++ recs)
  let res := if l.any (fun x => x.2 == actFail) then 3 else if l.any (fun x => x.2 == actDead || x.2 == actFenced) then 2 else 1
  let pstep := l.foldl (fun m x => if m = 0 then x.1.step else min m x.1.step) 0
  let w := { w with boot.csram := putBytes w.boot.csram 0xC000 (reportBytes res pstep ptime l) }
  let w := w.each ((List.range w.fuse.cdSites).filter (fun x => (w.dieOn x).isNone)) (fun w x =>
    (w.wr gblB KGBL_SITE.pon 0 x).wr gblB KGBL_SITE.pgood 0 x)
  let w := ((w.wr gblB KGBL_BOOT.presult res).wr gblB KGBL_BOOT.pstep pstep).wr gblB KGBL_BOOT.ptime (ptime / 10)
  let w := w.rowsNow
  let w := if res = 3 then
      { (w.wr gblB KGBL_BOOT.stage 5).wr fltB KFLT_STATE.fstate 3 with
        sta.coreRst := (List.range (34 * w.fuse.cdSites)).map (fun n => (n, true)) }
    else w.genZero.wr gblB KGBL_BOOT.stage 4
  w.wr gblB KGBL_BOOT.mp_ready 1

/-! ### Sleep (R373, R374, R449) -/

/-- Every logical station on a site is fenced for every context with its walk ended (R449). -/
def State.sleepReady (s : State) (site : Nat) : Bool :=
  match s.dieOn site with
  | none => true
  | some d => !(moved 1 d).any s.notReady

/-- The tine region ports facing the 8 bond ports of a site become absorbing sinks, or cease to be (R449). -/
def W.siteSinks (w : W) (site : Nat) (on : Bool) : W :=
  w.each ((List.range 8).map (fun i => 8 * site + i)) (fun w x =>
    let b := rtrB (uTine (x % 32))
    w.wr b KRTR_SINK.sink_ports (setBit (w.rd b KRTR_SINK.sink_ports) (x / 32) on))

/-- SLEEP_REQUEST (R449): the integrator raises `pd_slp_req` of a powered site. -/
def effSleepRequest (site : Nat) (w : W) : W :=
  if !w.powered site ∨ w.rd gblB KGBL_SITE.slp_req site = 1 then w
  else (w.wr gblB KGBL_SITE.slp_req 1 site).wr gblB KGBL_SITE.slp_wait (if w.sleepReady site then 0 else 1) site

/-- The interrupt sources and stacks of a site: its stations' banks and its two region controllers. -/
def siteSrc (site k : Nat) : Bool :=
  match srcOrig k with
  | 1 => srcUnit k / 34 == site
  | 2 => srcUnit k / 2 == site
  | _ => false
def siteStk (site k : Nat) : Bool := k < 5000 && k / 16 / 2 == site

/-- SLEEP_SAVE (R373, R449): once the site's stations are fenced and their walks have ended, its bond ports' tine ports
become sinks, the interrupt state is saved, and `pd_slp_ack` rises. -/
def effSleepSave (site : Nat) (w : W) : W :=
  if w.rd gblB KGBL_SITE.slp_req site = 0 ∨ w.rd gblB KGBL_SITE.slp_ack site = 1 ∨ !w.sleepReady site then w else
  let w := w.siteSinks site true
  let (src, srcs) := w.irq.src.partition (fun e => siteSrc site e.1)
  let (stk, stks) := w.irq.stk.partition (fun e => siteStk site e.1)
  let w := { w with irq.src := srcs, irq.stk := stks, irq.saved := w.irq.saved.put site (src, stk) }
  (w.wr gblB KGBL_SITE.slp_wait 0 site).wr gblB KGBL_SITE.slp_ack 1 site

/-- A source restored from retention: one whose coalescing time passed during sleep is pending (R373). -/
def State.woken (s : State) (k : Nat) (i : IrqSrc) : IrqSrc :=
  if !srcLevel k && !i.pending && i.events != 0 && s.srcCtime k != 0 && s.srcCtime k * 64 ≤ since s.herdTime i.tstart then
    { i with pending := true, pendFc := s.fc }
  else i

/-- WAKE_REQUEST (R373, R449): `pd_slp_req` falls. Before the save this ends the request; after it the supply is back and
the saved state is restored. -/
def effWakeRequest (site : Nat) (w : W) : W :=
  if w.rd gblB KGBL_SITE.slp_req site = 0 then w else
  let w := (w.wr gblB KGBL_SITE.slp_req 0 site).wr gblB KGBL_SITE.slp_wait 0 site
  match w.irq.saved.find site with
  | none => w
  | some (src, stk) =>
    let w := { w with irq.saved := w.irq.saved.del site }
    let w := w.each src (fun w e => w.irqSet e.1 (w.woken e.1 e.2))
    w.each stk (fun w e => { w with irq.stk := w.irq.stk.put e.1 e.2 })

/-- BOND_RETRAIN_END (R449): the bonds of a woken site are retrained, the sinks are released, `pd_slp_ack` falls. The
stations stay fenced. -/
def effBondRetrainEnd (site : Nat) (w : W) : W :=
  if w.rd gblB KGBL_SITE.slp_ack site = 0 ∨ w.rd gblB KGBL_SITE.slp_req site = 1 then w
  else (w.siteSinks site false).wr gblB KGBL_SITE.slp_ack 0 site

/-- What the IDCODE register of the test access port reads as (R477). -/
def State.idcode (s : State) : Nat := 0x3 * 2 ^ 28 + 0x4B57 * 2 ^ 12 + s.fuse.idcodeMfr % 2 ^ 11 * 2 + 1

/-- TRST_N_ASSERT (R476): the test logic is reset: IDCODE is selected. -/
def effTrstNAssert (w : W) : W := { w with boot.ir := 1, boot.kdbgBusy := false }

/-! ### The commands of this family -/

/-- PORST_N_ASSERT (R441). -/
def execPorstNAssert (s : State) : Host.Outcome State Fault Refusal :=
  runPin (effPorstNAssert) s

/-- PORST_N_RELEASE (R442). -/
def execPorstNRelease (s : State) : Host.Outcome State Fault Refusal :=
  runPin (effPorstNRelease) s

/-- PWRGD_IN_FALL (R441). -/
def execPwrgdInFall (s : State) : Host.Outcome State Fault Refusal :=
  runPin (effPwrgdInFall) s

/-- HRST_N_ASSERT (R441). -/
def execHrstNAssert (lowFc : Nat) (s : State) : Host.Outcome State Fault Refusal :=
  runPin (effHrstNAssert lowFc) s

/-- HRST_N_RELEASE (R442). -/
def execHrstNRelease (s : State) : Host.Outcome State Fault Refusal :=
  runPin (effHrstNRelease) s

/-- FABRIC_CLOCK_LOCK (R440). -/
def execFabricClockLock (s : State) : Host.Outcome State Fault Refusal :=
  runPin (effFabricClockLock) s

/-- PD_GOOD_RISE (R448). -/
def execPdGoodRise (site : Nat) (s : State) : Host.Outcome State Fault Refusal :=
  run (effPdGoodRise site) s

/-- PD_GOOD_TIMEOUT (R448). -/
def execPdGoodTimeout (site : Nat) (s : State) : Host.Outcome State Fault Refusal :=
  run (effPdGoodTimeout site) s

/-- PROOF_END (R443). -/
def execProofEnd (recs : List ProofRec) (ptime : Nat) (s : State) : Host.Outcome State Fault Refusal :=
  run (effProofEnd recs ptime) s

/-- SLEEP_REQUEST (R449). -/
def execSleepRequest (site : Nat) (s : State) : Host.Outcome State Fault Refusal :=
  run (effSleepRequest site) s

/-- SLEEP_SAVE (R449). -/
def execSleepSave (site : Nat) (s : State) : Host.Outcome State Fault Refusal :=
  run (effSleepSave site) s

/-- WAKE_REQUEST (R449). -/
def execWakeRequest (site : Nat) (s : State) : Host.Outcome State Fault Refusal :=
  run (effWakeRequest site) s

/-- BOND_RETRAIN_END (R449). -/
def execBondRetrainEnd (site : Nat) (s : State) : Host.Outcome State Fault Refusal :=
  run (effBondRetrainEnd site) s

/-- TRST_N_ASSERT (R476). -/
def execTrstNAssert (s : State) : Host.Outcome State Fault Refusal :=
  runPin (effTrstNAssert) s

/-- BLOCK_RESET (R441). -/
def execBlockReset (q slot : Nat) (s : State) : Host.Outcome State Fault Refusal :=
  run (effBlockReset q slot) s

end Sys2Proof.Machine
end

