-- ==== Sys2Proof/Machine/Regs.lean ====
section
/-! DEFINITION. The register window: its map (R468, R469, R52), which registers stand in each unit's window, the values
that registers show of other state, who may see them (R5, R177, R179, R489), and reading one (R15, R483). -/

namespace Sys2Proof.Machine

/-! ### The map -/

/-- A part of the register window. -/
inductive Win where
  | none | gbl | csram | flt | intP | hrd | obs
  | cmd (q : Nat)
  | intR (p : Nat)
  | stn (n : Nat)
  | rtr (u : Nat)
  | msp (m : Nat)
  | ep (e : Nat)
  deriving DecidableEq, Repr

/-- The router with window number `k` of the router range (R469), in the numbering of Machine/StNet.lean. -/
def rtrOf (k : Nat) : Win :=
  if k < 528 then .rtr k
  else if 0x240 ≤ k ∧ k < 0x240 + 132 then .rtr k
  else if 0x300 ≤ k ∧ k < 0x320 then .rtr k
  else if 0x340 ≤ k ∧ k < 0x340 + 22 then .rtr k
  else .none

/-- The part that a register window address lies in (R468). -/
def winOf (a : Nat) : Win :=
  if a < 0x0100000 then .gbl
  else if a < 0x0110000 then .csram
  else if a < 0x0110400 then .cmd ((a - 0x0110000) / 0x100)
  else if a < 0x0200000 then .none
  else if a < 0x0300000 then .flt
  else if a < 0x0310000 then .intP
  else if a < 0x0310000 + 132 * 0x1000 then .intR ((a - 0x0310000) / 0x1000)
  else if a < 0x0400000 then .none
  else if a < 0x0500000 then .hrd
  else if a < 0x0600000 then .obs
  else if a < 0x1000000 then .none
  else if a < 0x1000000 + 2244 * 0x1000 then .stn ((a - 0x1000000) / 0x1000)
  else if a < 0x2000000 then .none
  else if a < 0x2800000 then rtrOf ((a - 0x2000000) / 0x1000)
  else if a < 0x2C00000 then .msp ((a - 0x2800000) / 0x10000)
  else if a < 0x3000000 then .ep ((a - 0x2C00000) / 0x10000)
  else .none

/-- First address of a part. -/
def Win.base : Win → Nat
  | .none => 0
  | .gbl => gblB
  | .csram => 0x0100000
  | .flt => fltB
  | .intP => intPB
  | .hrd => hrdB
  | .obs => obsB
  | .cmd q => cmdB q
  | .intR p => intRB p
  | .stn n => stnB n
  | .rtr u => rtrB u
  | .msp m => mspB m
  | .ep e => epB e

/-- The unit of the arbitrated plane whose window it is. -/
def Win.unit : Win → Nat
  | .stn n => uSt n
  | .rtr u => u
  | .msp m => uMsp m
  | .ep e => uEp e
  | _ => 0

/-- The two ports of a slice show one directory, one window table and one pool unit (R271, R314): the address under the
even port for the registers that they share. -/
def shareAddr (a : Nat) : Nat :=
  let o := a % 0x10000
  if 0x2800000 ≤ a ∧ a < 0x2C00000 ∧ a / 0x10000 % 2 = 1
      ∧ (0x108 ≤ o ∧ o < 0x118 ∨ 0x120 ≤ o ∧ o < 0x138 ∨ 0x700 ≤ o ∧ o < 0x710) then a - 0x10000 else a

/-- A unit of the package exists and its site is neither powered off nor asleep (R451, R491). -/
def State.siteUp (s : State) (site : Nat) : Bool :=
  site < s.fuse.cdSites && s.powered site && s.rd gblB KGBL_SITE.slp_ack site == 0
def State.winUp (s : State) : Win → Bool
  | .none => false
  | .stn n => s.siteUp (n / 34)
  | .rtr u => if isCR u then s.siteUp (u / 8) else if isRR u then s.siteUp ((u - 0x240) / 2)
              else if isTine u then u - 0x300 < s.fuse.tines else u - 0x340 < s.fuse.beams
  | .intR p => s.siteUp (p / 2)
  | .msp m => m < 2 * s.fuse.slices
  | .ep e => e < s.fuse.edgePorts
  | _ => true

/-- Registers that every MSP and EP holds besides its own (R177, R413). -/
def sharedFields : List Fld :=
  [KSTN_RT_SEL.rt_ep, KSTN_RT_SEL.rt_bank, KSTN_RT_DATA.rt_word, KSTN_HROOT.rstage, KSTN_HROOT.rindex, KSTN_GEN.gen_cur,
   KSTN_GEN.gen_drain, KSTN_GEN.draining, KSTN_GEN_INFL.hold0, KSTN_GEN_INFL.hold1, KSTN_STALE.stale_reissue,
   KSTN_STALE.stale_fail, KSTN_NOROUTE.noroute, KSTN_DEADEP_SEL.dep_word, KSTN_DEADEP.dead_ep]

/-- Arbiter settings that an EP holds (R326). -/
def epArbFields : List Fld :=
  [KRTR_TKW0.w_ctl, KRTR_TKW0.w_mrq, KRTR_TKW0.w_msg, KRTR_TKW1.w_cmp, KRTR_TKW1.w_crd, KRTR_TKW1.w_snp, KRTR_TKW2.w_wdt,
   KRTR_TKW2.w_msgl, KRTR_TKW2.w_fol, KRTR_TKW2.w_pool, KRTR_QUOTA.hp_mask, KRTR_QUOTA.q_win_log2, KRTR_QUOTA.q_max,
   KRTR_WDOG.wd_log2]

/-- Whether a router of this stage holds a register (R176, R240, R270, R412). -/
def rtrHolds (u : Nat) (f : Fld) : Bool :=
  let o := f.off
  if 0x600 ≤ o ∧ o < 0x620 then (o = 0x604 || o = 0x608) && !isCR u || isTine u
  else if 0x700 ≤ o ∧ o < 0x710 then isRR u
  else if 0x710 ≤ o ∧ o < 0x720 then isTine u
  else if o = 0xD00 ∨ o = 0xD04 then !isBeam u
  else if o = 0xD08 then isTine u || isBeam u
  else true

/-- The register fields of a part. -/
def Win.fields : Win → List Fld
  | .gbl => gblFields
  | .flt => fltFields
  | .intP => intPFields
  | .hrd => hrdFields
  | .obs => obsFields
  | .cmd _ => cmdFields
  | .intR _ => intRFields
  | .stn _ => stnFields ++ evcFields
  | .rtr u => rtrFields.filter (rtrHolds u) ++ evcFields
  | .msp _ => mspFields ++ sharedFields ++ evcFields
  | .ep _ => edgFields ++ epArbFields ++ sharedFields ++ evcFields
  | _ => []

/-- Entry of field `f`'s array that stands at offset `o`, if one does. -/
def Fld.here (f : Fld) (o : Nat) : Option Nat :=
  if f.stride = 0 then (if f.off = o then some 0 else none)
  else if f.off ≤ o ∧ (o - f.off) % f.stride = 0 ∧ (o - f.off) / f.stride < f.count then some ((o - f.off) / f.stride)
  else none

/-- The fields of the register at offset `o` of a part, with their place in their arrays. -/
def Win.at (wn : Win) (o : Nat) : List (Fld × Nat) :=
  wn.fields.filterMap (fun f => (f.here o).map (fun n => (f, n)))

/-- The object that a register shows, by its selector register. -/
def State.selIdx (s : State) (b : Nat) (f : Fld) : Nat :=
  match f.sel with
  | .none => 0
  | .dq => s.rd b KSTN_DQ_SEL.dq_sel
  | .cq => s.rd b KSTN_CQ_SEL.cq_sel
  | .ch => s.rd b KSTN_CH_SEL.ch_sel
  | .ring => s.rd b KSTN_RING_SEL.ring_sel
  | .ringSlot => s.rd b KSTN_RING_SEL.ring_sel * 16 + s.rd b KSTN_RING_SEL.slot_sel
  | .strm => s.rd b KSTN_STRM_SEL.sel
  | .grp => s.rd b KSTN_GRP_SEL.grp_slot
  | .ptab => s.rd b KSTN_PTAB_SEL.ptab_sel
  | .win => s.rd b KSTN_WIN_SEL.win_sel
  | .cc => s.rd b KSTN_CC_SEL.cc_sel
  | .mwin => s.rd b KMSP_WIN_SEL.mwin_sel
  | .path => s.rd b KEDG_PATH_SEL.path_sel
  | .rate => s.rd b KEDG_RATE_SEL.rate_sel
  | .spn => s.rd b KEDG_SPN_SEL.spn_sel
  | .spnSlot => s.rd b KEDG_SPN_SEL.spn_sel * 16 + s.rd b KEDG_SPN_SEL.spn_ssel
  | .arb => s.rd b KRTR_ARB_SEL.port + 64 * s.rd b KRTR_ARB_SEL.net
  | .lt => s.rd b KFLT_LT_SEL.lt_src
  | .dmap => s.rd b KFLT_DMAP_SEL.dmap_ldie
  | .smap => s.rd b KFLT_SMAP_SEL.smap_preg
  | .bond => if f = KFLT_BOND.bdead then s.rd b KFLT_BOND_SEL.bond
             else s.rd b KFLT_BOND_SEL.bond + 1024 * s.rd b KFLT_BOND_SEL.bdir + 2048 * s.rd b KFLT_BOND_SEL.bgrp
  | .site => s.rd b KGBL_SITE_SEL.site_sel
  | .emap => s.rd b KGBL_EMAP_SEL.emap_idx
  | .ctx => s.rd b KGBL_CTX_SEL.ctx_sel
  | .cap => s.rd b KOBS_CAP_SEL.cap_unit

/-! ### Values that registers show of other state -/

/-- The bits `f 0` to `f (n - 1)` as a number. -/
def bitsOf (n : Nat) (f : Nat → Bool) : Nat := (List.range n).foldl (fun m k => if f k then m + 2 ^ k else m) 0

/-- Saturating at `w` bits. -/
def sat (w n : Nat) : Nat := min (2 ^ w - 1) n

/-- A field's view: state, unit or window number, selected object, place in the array. -/
abbrev View := Fld × (State → Nat → Nat → Nat → Nat)

/-- The 96 bytes of a descriptor log entry (R188). -/
def LogEnt.bytes (l : LogEnt) : List Byte :=
  fit 64 l.desc ++ toLE 1 l.dq ++ toLE 1 l.lstate ++ toLE 2 l.lctx ++ toLE 4 l.dseq ++ toLE 8 l.astamp ++ List.replicate 16 0

/-- The 32 bytes of a trace record (R496). -/
def TrcRec.bytes (r : TrcRec) : List Byte :=
  toLE 8 r.stamp ++ toLE 1 (r.tkind + (if r.lk then 8 else 0) + (if r.gap then 16 else 0)) ++ toLE 1 r.tev ++ toLE 2 r.rctx
    ++ toLE 4 r.rsrc ++ fit 16 r.payload

/-- A context's record as KGBL_CTX shows it. -/
def State.ctxOr (s : State) (c : Nat) : Ctx := (s.cx.ctx.find c).getD { state := if c = 0 then 1 else 0 }

def gblViews : List View := [
  (KGBL_TOPO0.cd_sites, fun s _ _ _ => bits s.topo0Now 0 7), (KGBL_TOPO0.cd_active, fun s _ _ _ => bits s.topo0Now 8 7),
  (KGBL_TOPO0.slices, fun s _ _ _ => bits s.topo0Now 16 6), (KGBL_TOPO0.edge_ports, fun s _ _ _ => bits s.topo0Now 24 7),
  (KGBL_TOPO1.tines, fun s _ _ _ => bits s.topo1Now 0 6), (KGBL_TOPO1.beams, fun s _ _ _ => bits s.topo1Now 8 5),
  (KGBL_TOPO1.beams_active, fun s _ _ _ => bits s.topo1Now 16 5), (KGBL_TOPO1.regions_active, fun s _ _ _ => bits s.topo1Now 24 8),
  (KGBL_CTX.cstate, fun s _ c _ => (s.ctxOr c).state), (KGBL_CTX.cremote, fun s _ c _ => (s.ctxOr c).remote.toNat),
  (KGBL_CTX.suspect, fun s _ c _ => match s.cx.search with
    | some x => (x.wait.contains c || x.run.contains c).toNat
    | none => 0),
  (KGBL_CTX.rpend, fun s _ c _ => (s.ctxOr c).rpend.toNat), (KGBL_CTX.dpend, fun s _ c _ => (s.ctxOr c).dpend.toNat),
  (KGBL_CTX.guilty, fun s _ c _ => (s.ctxOr c).guilty.toNat), (KGBL_CTX.dslot, fun s _ c _ => (s.ctxOr c).dslot),
  (KGBL_CTX.clanes, fun s _ c _ => (s.ctxOr c).lanes), (KGBL_CTX_CNT.live_ctx, fun s _ _ _ => s.liveCount),
  (KGBL_CTX_CNT.drains, fun s _ _ _ => s.drainSlots.length),
  (KGBL_GOV.p_target, fun s _ _ _ => s.plt.pT / 1000), (KGBL_GOV.p_real, fun s _ _ _ => sat 10 (s.plt.pR / 1000)),
  (KGBL_GOV.lend_duty, fun s _ _ _ => s.plt.duty)]

def hrdViews : List View := [
  (KHRD_TIME_LO.time_lo, fun s _ _ _ => s.herdTime % 2 ^ 32),
  (KHRD_TIME_HI.time_hi, fun s _ _ _ => Tbl.get 0 s.obs.latch (hrdB + 0x00C)),
  (KPLT_SLOT.slot_index, fun s _ _ _ => s.slotIdx % 4096),
  (KPLT_SLOT.period_blocks, fun s _ _ _ => match s.plt.active with
    | some p => if s.activeValid then p.blocks else 0
    | none => 0)]

/-- A stream as the station's registers show it. -/
def strmViews : List View := [
  (KSTN_STRM_STATE.state, fun s n i _ => (s.strmAt n i).state), (KSTN_STRM_STATE.dir, fun s n i _ => (s.strmAt n i).recv.toNat),
  (KSTN_STRM_STATE.mode, fun s n i _ => (s.strmAt n i).timed.toNat),
  (KSTN_STRM_STATE.last_status, fun s n i _ => (s.strmAt n i).lastStatus), (KSTN_STRM_STATE.stag, fun s n i _ => (s.strmAt n i).stag),
  (KSTN_STRM_POS.ordinal, fun s n i _ => (s.strmAt n i).ordinal), (KSTN_STRM_AVAIL.avail, fun s n i _ => (s.strmAt n i).avail),
  (KSTN_STRM_RV_LO.rv_lo, fun s n i _ => bits (Tbl.get 0 s.sch.rvOut (n * 512 + i)) 0 32), (KSTN_STRM_RV_HI.rv_hi, fun s n i _ => bits (Tbl.get 0 s.sch.rvOut (n * 512 + i)) 32 32),
  (KSTN_STRM_BAD_LO.bad_lo, fun s n i _ => bits (Tbl.get 0 s.sch.rvOut (n * 512 + (256 + i))) 0 32),
  (KSTN_STRM_BAD_HI.bad_hi, fun s n i _ => bits (Tbl.get 0 s.sch.rvOut (n * 512 + (256 + i))) 32 32),
  (KSTN_STRM_CNT.late, fun s n i _ => (s.strmAt n i).late), (KSTN_STRM_CNT.dropped, fun s n i _ => (s.strmAt n i).dropped),
  (KSTN_STRM_SHORT.short, fun s n i _ => (s.strmAt n i).short), (KSTN_PTIME.ptime, fun s _ _ _ => s.plateTime % 2 ^ 32)]

/-- The route, herd and generation tables of an endpoint, and its dead-endpoint vector (R177, R413); `u` is the unit. -/
def sharedViews : List View := [
  (KSTN_RT_DATA.rt_word, fun s u _ n =>
    bits (s.routeEntry (s.rd (unitB u) KSTN_RT_SEL.rt_bank) (s.epOf u) (s.rd (unitB u) KSTN_RT_SEL.rt_ep)) (32 * n) 32),
  (KSTN_HROOT.rstage, fun s u _ _ => (s.herdRoot (s.rd (unitB u) KSTN_RT_SEL.rt_bank) u (s.rd (unitB u) KSTN_RT_SEL.rt_ep)).1),
  (KSTN_HROOT.rindex, fun s u _ _ => (s.herdRoot (s.rd (unitB u) KSTN_RT_SEL.rt_bank) u (s.rd (unitB u) KSTN_RT_SEL.rt_ep)).2),
  (KSTN_GEN.gen_cur, fun s _ _ _ => s.genCur), (KSTN_GEN.gen_drain, fun s _ _ _ => s.genDrain),
  (KSTN_GEN.draining, fun s _ _ _ => s.draining.toNat),
  (KSTN_GEN_INFL.hold0, fun s u _ _ => sat 16 (s.epInfl u 0)),
  (KSTN_GEN_INFL.hold1, fun s u _ _ => sat 16 (s.epInfl u 1)),
  (KSTN_DEADEP.dead_ep, fun s u _ _ =>
    bitsOf 32 (fun k => s.deadAt u (32 * s.rd (unitB u) KSTN_DEADEP_SEL.dep_word + k)))]

/-- Queues, channels and rings. -/
def queueViews : List View := [
  (KSTN_DQ_CFG.dq_ctx, fun s n i _ => s.objCtx 0 n i), (KSTN_CQ_CFG.cq_ctx, fun s n i _ => s.objCtx 1 n i),
  (KSTN_CH_CRED.credit, fun s n i _ => s.chNow n i), (KSTN_CH_CRED.ch_ctx, fun s n i _ => s.objCtx 2 n i), (KSTN_PTAB_ROWS_HI.ptab_ctx, fun s n i _ => s.objCtx 7 n i),
  (KSTN_WIN_CFG.wctx, fun s n i _ => s.objCtx 6 n i), (KSTN_CC_SEL.cc_ctx, fun s n i _ => s.objCtx 5 n i),
  (KSTN_LOG_DATA.log_data, fun s n _ _ => match s.logAt n (s.rd (stnB n) KSTN_LOG_SEL.log_entry) with
    | some l => le l.bytes (4 * s.rd (stnB n) KSTN_LOG_SEL.log_word) 4
    | none => 0),
  (KSTN_CH_TL.stall_fc, fun s n i _ => match s.sta.stallT.find (chKey n i) with
    | some t => bits (s.fc - t) 16 16
    | none => 0),
  (KSTN_RING_HEADENT0.hent0, fun s n i _ => if s.rd (stnB n) KSTN_RING_OCC.occ i = 0 then 0
    else le (W.headAt { toState := s, stores := [] } n i) 0 4),
  (KSTN_RING_HEADENT1.hent1, fun s n i _ => if s.rd (stnB n) KSTN_RING_OCC.occ i = 0 then 0
    else le (W.headAt { toState := s, stores := [] } n i) 4 4),
  (KSTN_DISP.in_handler, fun s n _ _ => (Tbl.get false s.sta.inHandler n).toNat),
  (KSTN_DISP.snd_blocked, fun s n _ _ => (s.sta.blocked.find n).isSome.toNat),
  (KSTN_DISP.blk_chan, fun s n _ _ => match s.sta.blocked.find n with
    | some d => d.chan
    | none => 0)]

/-- The group that a slot of a station's member table holds. -/
def State.groupIn (s : State) (n i : Nat) : Option (Nat × GroupDef) :=
  match s.col.memb.find (n * 64 + i) with
  | some g => (s.col.grp.find g).map (fun d => (g, d))
  | none => none

def grpView (f : State → Nat → Nat → GroupDef → Nat) : State → Nat → Nat → Nat → Nat := fun s n i _ =>
  match s.groupIn n i with
  | some (g, d) => f s n g d
  | none => 0

def collViews : List View := [
  (KSTN_GRP_DATA0.gidx, grpView (fun _ _ g _ => g)), (KSTN_GRP_DATA0.g_valid, grpView (fun _ _ _ _ => 1)),
  (KSTN_GRP_DATA0.g_ctx, grpView (fun _ _ _ d => d.ctx)), (KSTN_GRP_DATA1.gkey, grpView (fun _ _ _ d => d.gkey)),
  (KSTN_GRP_DATA2.lsize, grpView (fun _ _ _ d => d.lsize)), (KSTN_GRP_DATA2.rherd, grpView (fun _ _ _ d => d.rherd)),
  (KSTN_GRP_DATA3.home, grpView (fun _ _ _ d => d.home)),
  (KSTN_GRP_DATA3.rhops, grpView (fun s n _ d => (s.redRoute n s.genCur d).length)),
  (KSTN_GRP_DATA3.rroot, grpView (fun _ _ _ d => d.rroot)), (KSTN_GRP_SIZE.gsize, grpView (fun _ _ _ d => d.gsize))]

/-- Memory, interrupts and fences of a station. -/
def stnViews : List View := [
  (KSTN_MEM_CFG.sram_log2, fun s _ _ _ => s.fuse.sramLog2),
  (KSTN_MEM_OUT.posted_out, fun s n _ _ => sat 16 ((s.sta.posted.find n).getD []).length),
  (KSTN_MEM_OUT.req_out, fun s n _ _ => (s.net.req.filter (fun e => e.1 / 2 ^ 20 == uSt n)).length),
  (KSTN_IRQ_SRC.level, fun _ n _ k => (srcLevel (bankSrc n k)).toNat),
  (KSTN_IRQ_THR.run_bank, fun s n _ _ => s.runBank n), (KSTN_IRQ_THR.run_stack, fun s n _ _ => s.runStack n),
  (KSTN_IRQ_THR.depth, fun s n _ _ => (s.stkOf n).length),
  (KSTN_IRQ_PEND.pend, fun s n _ _ => bitsOf 32 (fun k => s.irqPending (bankSrc n k))),
  (KSTN_IRQ_ACT.act, fun s n _ _ => bitsOf 32 (fun k => (s.irq1 (bankSrc n k)).active)),
  (KSTN_FCTX.fctx, fun s n _ _ => bitsOf 32 (fun k => s.ctxFencedAt n (32 * s.rd (stnB n) KSTN_FCTX_SEL.fctx_word + k)))]

def rtrViews : List View := [
  (KRTR_ARB_LFSR.lfsr, fun s u i _ => (s.arb u (i % 64) (i / 64)).lfsr),
  (KRTR_ARB_LFSR.seed, fun s u i _ => s.arbSeed u (i % 64) (i / 64)),
  (KRTR_ARB_HOLD.held, fun s u i _ => ((s.arb u (i % 64) (i / 64)).holds.find (s.rd (rtrB u) KRTR_ARB_SEL.vc)).isSome.toNat),
  (KRTR_ARB_HOLD.progress, fun s u i _ => match (s.arb u (i % 64) (i / 64)).holds.find (s.rd (rtrB u) KRTR_ARB_SEL.vc) with
    | some h => sat 10 h.progress
    | none => 0),
  (KRTR_ARB_HOLD.hold_ctx, fun s u i _ => match (s.arb u (i % 64) (i / 64)).holds.find (s.rd (rtrB u) KRTR_ARB_SEL.vc) with
    | some h => h.ctx
    | none => 0),
  (KRTR_GEN.gen_cur, fun s _ _ _ => s.genCur), (KRTR_GEN.gen_drain, fun s _ _ _ => s.genDrain),
  (KRTR_GEN.draining, fun s _ _ _ => s.draining.toNat),
  (KRTR_GEN_INFL.infl0, fun s u _ _ => sat 16 (s.rtrInfl u 0)), (KRTR_GEN_INFL.infl1, fun s u _ _ => sat 16 (s.rtrInfl u 1)),
  (KRTR_FRZ_DATA.frz, fun s u _ _ => bitsOf 32 (fun k => s.frozen u (32 * s.rd (rtrB u) KRTR_FRZ_SEL.frz_word + k))),
  (KRTR_HERD_DATA0.mask, fun s u _ _ =>
    bits (s.herdEnt (s.rd (rtrB u) KRTR_HERD_SEL.bank) u (s.rd (rtrB u) KRTR_HERD_SEL.herd)).mask 0 32),
  (KRTR_HERD_DATA1.hctx, fun s u _ _ => (s.herdEnt (s.rd (rtrB u) KRTR_HERD_SEL.bank) u (s.rd (rtrB u) KRTR_HERD_SEL.herd)).hctx),
  (KRTR_HERD_DATA1.hvalid, fun s u _ _ =>
    (s.herdEnt (s.rd (rtrB u) KRTR_HERD_SEL.bank) u (s.rd (rtrB u) KRTR_HERD_SEL.herd)).hvalid.toNat)]

def mspViews : List View := [
  (KMSP_SLICE.slice_gib, fun s _ _ _ => s.fuse.sliceGib), (KMSP_SLICE.slice, fun _ m _ _ => m / 2),
  (KMSP_SLICE.port_q, fun _ m _ _ => m % 2)]

def intRViews : List View := [
  (KINT_RSRC_CFG.level, fun _ p _ k => (srcLevel (regSrc p k)).toNat),
  (KINT_RPEND_LO.rpend, fun s p _ _ => bitsOf 32 (fun k => s.irqPending (regSrc p k))),
  (KINT_RPEND_HI.rpend, fun s p _ _ => bitsOf 32 (fun k => s.irqPending (regSrc p (32 + k)))),
  (KINT_RACT_LO.ract, fun s p _ _ => bitsOf 32 (fun k => (s.irq1 (regSrc p k)).active)),
  (KINT_RACT_HI.ract, fun s p _ _ => bitsOf 32 (fun k => (s.irq1 (regSrc p (32 + k))).active)),
  (KINT_RSTK.sdepth, fun s p _ _ => ((s.irq.stk.find (p * 16 + s.rd (intRB p) KINT_RSTK_SEL.stk_core)).getD []).length),
  (KINT_RSTK.stop_prio, fun s p _ _ => match (s.irq.stk.find (p * 16 + s.rd (intRB p) KINT_RSTK_SEL.stk_core)).getD [] with
    | e :: _ => e.prio
    | [] => 0),
  (KINT_RSTK.stop_orig, fun s p _ _ => match (s.irq.stk.find (p * 16 + s.rd (intRB p) KINT_RSTK_SEL.stk_core)).getD [] with
    | e :: _ => e.orig
    | [] => 0),
  (KINT_RSTK.stop_num, fun s p _ _ => match (s.irq.stk.find (p * 16 + s.rd (intRB p) KINT_RSTK_SEL.stk_core)).getD [] with
    | e :: _ => e.num
    | [] => 0)]

def intPViews : List View := [
  (KINT_PSRC_CFG.level, fun _ _ _ k => (srcLevel (pkgSrc k)).toNat),
  (KINT_PPEND.ppend, fun s _ _ n => bitsOf 32 (fun k => s.irqPending (pkgSrc (32 * n + k)))),
  (KINT_PACT.pact, fun s _ _ n => bitsOf 32 (fun k => (s.irq1 (pkgSrc (32 * n + k))).active)),
  (KINT_FMP_THR.run, fun s _ _ _ => s.runStack 5000), (KINT_HOST_THR.run, fun s _ _ _ => s.runStack 5001)]

def fltViews : List View := [
  (KFLT_RCV.rc_win, fun s _ _ _ => s.rcWin), (KFLT_GROUPS.groups, fun s _ _ _ => s.fltGroups),
  (KFLT_STOT.stot_run, fun s _ _ _ => s.stotRun.toNat), (KFLT_STOT.hb_ok, fun s _ _ _ => s.hbOk.toNat),
  (KFLT_LT.lt_n, fun s _ i _ => (Tbl.get {} s.flt.loc i).n), (KFLT_LT.lasting, fun s _ i _ => (Tbl.get {} s.flt.loc i).lasting.toNat),
  (KFLT_SPARE.sites_free, fun s _ _ _ => ((List.range s.fuse.cdSites).filter s.siteFree).length),
  (KFLT_SPARE.beams_free, fun s _ _ _ => s.freeBeams.length),
  (KFLT_SPARE.stations_free, fun s _ _ _ =>
    ((List.range (2 * s.fuse.cdSites)).filter (fun p => !s.spareBound p && !s.spareFailed p)).length),
  (KFLT_BOND.bgroups, fun s _ _ _ => s.fuse.bgroups)]

def obsViews : List View := [
  (KOBS_TRC_RDATA.rdata, fun s _ _ _ =>
    match (Tbl.get {} s.obs.trc (s.rd obsB KOBS_TRC_RSEL.rsel_buf)).recs[s.rd obsB KOBS_TRC_RSEL.rsel_rec]? with
    | some r => le r.bytes (4 * s.rd obsB KOBS_TRC_RSEL.rsel_word) 4
    | none => 0)]

/-- The views of a part, and the number they are given. -/
def Win.views : Win → List View × Nat
  | .gbl => (gblViews, 0)
  | .hrd => (hrdViews, 0)
  | .flt => (fltViews, 0)
  | .obs => (obsViews, 0)
  | .intP => (intPViews, 0)
  | .intR p => (intRViews, p)
  | .stn n => (strmViews ++ queueViews ++ collViews ++ stnViews, n)
  | .rtr u => (rtrViews, u)
  | .msp m => (mspViews, m)
  | _ => ([], 0)

/-- The value of a field: a view of other state, or the register file's. -/
def State.fieldVal (s : State) (wn : Win) (f : Fld) (n i : Nat) : Nat :=
  match wn.views.1.find? (fun v => v.1 == f) with
  | some v => v.2 s wn.views.2 i n
  | none =>
    let shared := match wn with
      | .stn _ => sharedViews
      | .msp _ => sharedViews
      | .ep _ => sharedViews
      | _ => []
    match shared.find? (fun v => v.1 == f) with
    | some v => v.2 s wn.unit i n
    | none => s.rd wn.base (f.at n) i

/-! ### Who sees what -/

/-- Station registers that only privileged requesters reach (R177, R207, R413, R482). -/
def stnPrivate (o : Nat) : Bool :=
  o == 0x044 || o == 0x048 || (0xA00 ≤ o && o < 0xA1C) || (0xA20 ≤ o && o < 0xA2C) || o == 0xC04 || o == 0xC08 || o == 0xC0C

/-- The kind of the object that a field belongs to (R179). -/
def selKind : Sel → Option Nat
  | .dq => some 0
  | .cq => some 1
  | .ch => some 2
  | .ring => some 3
  | .ringSlot => some 3
  | .strm => some 4
  | .cc => some 5
  | .win => some 6
  | .ptab => some 7
  | _ => none

/-- The object's number: a ring's for one of its slots. -/
def selObj (f : Fld) (i : Nat) : Nat := if f.sel = .ringSlot then i / 16 else i

/-- An event counter of a station is scoped to a context bound to one of its descriptor queues (R489). -/
def State.evcScoped (s : State) (n k : Nat) : Bool :=
  s.rd (stnB n) (K_ECFG.ectx_en.at k) == 1
    && (List.range 8).any (fun q => s.owns 0 n q (s.rd (stnB n) (K_ECFG.ectx.at k)))

/-- Core software at station `st` acting for `ctx` may see a field (R126, R179, R239, R489). -/
def State.coreSees (s : State) (wn : Win) (f : Fld) (n i st ctx : Nat) : Bool :=
  match wn with
  | .stn m =>
    m == st && !stnPrivate f.off
      && (if 0xD10 ≤ f.off ∧ f.off < 0xD50 then s.evcScoped m n
          else if f.sel = .grp then (match s.groupIn m i with
            | some (_, d) => d.ctx == ctx
            | none => false)
          else if f = KSTN_RING_EVT.crd_drop then s.owns 3 m (s.selIdx wn.base KSTN_RING_EVT.pop_fault) ctx
          else match selKind f.sel with
            | some k => s.owns k m (selObj f i) ctx && (k != 4 || (s.strmAt m i).state != 0 || (s.strmAt m i).ctx == ctx)
            | none => true)
  | _ => false

def State.sees (s : State) (who : Who) (wn : Win) (f : Fld) (n i : Nat) : Bool :=
  match who with
  | .host => true
  | .miomus => true
  | .core st ctx => s.coreSees wn f n i st ctx

/-! ### Reading -/

/-- The utilisation counter at an offset of a unit's window (R482): the offset of its low word. -/
def utilLow (wn : Win) (o : Nat) : Option Nat :=
  if o < 0xD60 then none else
  let k := (o - 0xD60) / 8
  match wn with
  | .stn _ => if k < 4 then some (0xD60 + 8 * k) else none
  | .msp _ => if k < 4 then some (0xD60 + 8 * k) else none
  | .ep _ => if k < 4 then some (0xD60 + 8 * k) else none
  | .rtr u => if (portsOf u).contains (k / 2) then some (0xD60 + 8 * k) else none
  | _ => none

/-- The target that claims at an address (R375, R376). -/
def claimTarget (wn : Win) (o : Nat) : Option Nat :=
  match wn with
  | .stn n => if o = 0xB84 then some n else none
  | .intP => if o = 0x434 then some 5000 else if o = 0x444 then some 5001 else none
  | _ => none

/-- What a read of a register returns: fields the reader may not see, reserved bits, absent registers and registers of a
site that is absent, powered off or asleep read 0. -/
def State.regVal (s : State) (a : Nat) (who : Who) : Nat :=
  let a := shareAddr (a / 4 * 4)
  let wn := winOf a
  let o := a - wn.base
  if !s.winUp wn then 0
  else if wn = .csram then (if who.priv then le (getBytes s.boot.csram o 4) 0 4 else 0)
  else match utilLow wn o with
    | some lo =>
      if !who.priv then 0
      else if o = lo then s.rd wn.base (utilF lo) % 2 ^ 32
      else Tbl.get 0 s.obs.latch a
    | none => (wn.at o).foldl (fun v x =>
        let i := s.selIdx wn.base x.1
        if x.1.acc ≠ .wo ∧ s.sees who wn x.1 x.2 i then v + s.fieldVal wn x.1 x.2 i % 2 ^ x.1.width * 2 ^ x.1.lsb else v) 0

/-- The value a read returned, kept for its reader. -/
def W.out (w : W) (a v : Nat) : W := { w with sta.regOut := Tbl.set 0 w.sta.regOut a v }

/-- A register read (R15): it returns the value, clears RC fields, latches the high word of herd time or of a 64-bit
counter when the low word is read (R102, R483), and claims where the register is a claim register. -/
def W.regRead (w : W) (a : Nat) (who : Who) : W :=
  let a := shareAddr (a / 4 * 4)
  let wn := winOf a
  let o := a - wn.base
  let mine : Bool := match wn, who with
    | .stn n, .core st _ => n == st
    | _, _ => who.priv
  let v := w.regVal a who
  if !w.winUp wn then w.out a 0
  else match claimTarget wn o with
    | some t => if mine then effIrqClaim t w else w.out a 0
    | none =>
      let w0 := w
      let w := if a = hrdB + 0x008 ∧ who.priv then
          { w with obs.latch := w.obs.latch.put (hrdB + 0x00C) (w.herdTime / 2 ^ 32 % 2 ^ 32) }
        else match utilLow wn o with
          | some lo => if o = lo ∧ who.priv then
              { w with obs.latch := w.obs.latch.put (a + 4) (w.rd wn.base (utilF lo) / 2 ^ 32 % 2 ^ 32) } else w
          | none => w
      let w := w.each (wn.at o) (fun w x =>
        let i := w0.selIdx wn.base x.1
        if x.1.acc = .rc ∧ w0.sees who wn x.1 x.2 i then w.clearRc wn.base (x.1.at x.2) i else w)
      w.out a v

/-- KHRD_TIME_LO_READ (R102). -/
def effKhrdTimeLoRead (who : Who) (w : W) : W := w.regRead (hrdB + 0x008) who

/-- COUNTER_LOW_WORD_READ (R483). -/
def effCounterLowWordRead (addr : Nat) (who : Who) (w : W) : W := w.regRead addr who

/-- RC_FIELD_READ (R15). -/
def effRcFieldRead (addr : Nat) (who : Who) (w : W) : W := w.regRead addr who

/-! ### The commands of this family -/

/-- KHRD_TIME_LO_READ (R102). -/
def execKhrdTimeLoRead (who : Who) (s : State) : Host.Outcome State Fault Refusal :=
  run (effKhrdTimeLoRead who) s

/-- COUNTER_LOW_WORD_READ (R483). -/
def execCounterLowWordRead (addr : Nat) (who : Who) (s : State) : Host.Outcome State Fault Refusal :=
  run (effCounterLowWordRead addr who) s

/-- RC_FIELD_READ (R15). -/
def execRcFieldRead (addr : Nat) (who : Who) (s : State) : Host.Outcome State Fault Refusal :=
  run (effRcFieldRead addr who) s

end Sys2Proof.Machine
end

