-- ==== Sys2Proof/Machine/Obs.lean ====
section
/-! DEFINITION. Observability (chapter 14): counter reads, capture units and trace buffers. -/

namespace Sys2Proof.Machine

/-! ### Counter reads (R481, R484, R490, R491) -/

/-- The address names a counter: the low word of a utilisation counter, an event counter, or a register with a field of
access RC. -/
def isCounter (a : Nat) : Bool :=
  let wn := winOf (shareAddr a)
  let o := shareAddr a - wn.base
  match utilLow wn o with
  | some lo => o == lo
  | none => (wn.at o).any (fun x => x.1.acc == .rc || x.1 == K_ECNT.ecnt)

/-- A reader acting for context `c` may read the counter: a station's event counter scoped to it (R484). -/
def State.ctxCounter (s : State) (a c : Nat) : Bool :=
  match winOf a with
  | .stn n =>
    let o := a - stnB n
    match K_ECNT.ecnt.here o with
    | some k => s.rd (stnB n) (K_ECFG.ectx_en.at k) == 1 && s.rd (stnB n) (K_ECFG.ectx.at k) == c
    | none => false
  | _ => false

/-- The status of a counter read (R491). `none` asks as management. -/
def State.readStatus (s : State) (a : Nat) (ctx : Option Nat) : Nat :=
  let may := match ctx with
    | none => true
    | some c => c != 0 && s.ctxCounter a c
  firstOf [(!isCounter a, BADOP), (!may, DENIED), (!s.winUp (winOf a), DEAD_TARGET)]

/-- All the bits of a counter. -/
def State.counterVal (s : State) (a : Nat) : Nat :=
  let wn := winOf (shareAddr a)
  match utilLow wn (shareAddr a - wn.base) with
  | some lo => s.rd wn.base (utilF lo) % 2 ^ 64
  | none => s.regVal a .miomus

/-- Give a counter read's result to its asker. -/
def W.readDone (w : W) (r : RdReq) (status v : Nat) : W :=
  match r.who with
  | .command q slot =>
    (if status = DENIED then w.inc obsB KOBS_RD_STAT.rd_denied else w).answer q slot status
      (if status = OK ∨ status = DEAD_TARGET then toLE 8 v else [])
  | .package =>
    let w := if status = DENIED then w.inc obsB KOBS_RD_STAT.rd_denied else w
    let w := (w.wr obsB KOBS_RD_STAT.rd_busy 0).wr obsB KOBS_RD_STAT.rd_status status
    if status = OK ∨ status = DEAD_TARGET then
      (((w.wr obsB KOBS_RD_VAL_LO.rd_val v).wr obsB KOBS_RD_VAL_HI.rd_val (v / 2 ^ 32)).wr obsB KOBS_RD_STAMP_LO.rd_stamp
        w.herdTime).wr obsB KOBS_RD_STAMP_HI.rd_stamp (w.herdTime / 2 ^ 32)
    else w
  | .station n =>
    let b := stnB n
    let w := if status = DENIED then w.inc b KSTN_ORD_STAT.ord_denied else w
    let w := (w.wr b KSTN_ORD_STAT.ord_busy 0).wr b KSTN_ORD_STAT.ord_status status
    if status = OK ∨ status = DEAD_TARGET then
      ((w.wr b KSTN_ORD_VAL.ord_val v).wr b KSTN_ORD_STAMP_LO.ord_stamp w.herdTime).wr b KSTN_ORD_STAMP_HI.ord_stamp
        (w.herdTime / 2 ^ 32)
    else w

/-- The counter reads of this fc are sampled at its end, every addition of the fc included; an RC field is cleared as a
register read clears it (R490). -/
def W.sampleRead (w : W) (r : RdReq) : W :=
  let st := w.readStatus r.addr r.ctx
  let v := if st = OK then w.counterVal r.addr else 0
  let w := if st = OK ∧ (utilLow (winOf r.addr) (r.addr - (winOf r.addr).base)).isNone then w.regRead r.addr .miomus else w
  w.readDone r st v

def W.sampleReads (w : W) : W := ({ w with obs.samp := [] } : W).each w.obs.samp W.sampleRead

/-- COUNTER_SWEEP (R490): the sweeper takes the oldest read asked for; this fc is its sampling fc, and the read is done at
the fc's end (`W.sampleReads`). One read is sampled at a time. -/
def effCounterSweep (w : W) : W :=
  match w.obs.reads with
  | [] => w
  | r :: rest => if w.obs.samp = [] then { w with obs.reads := rest, obs.samp := [r] } else w

/-- COUNTER_READ (R465, R490): a read joins the sweeper's order; a nonzero `ctx` asks as that context. -/
def effCounterRead (q slot : Nat) (w : W) : W :=
  match w.cmdAt q slot 0x0070 with
  | none => w
  | some c =>
    let a := bits (le c.bytes 16 4) 0 26
    let ctx := if c.ctx = 0 then none else some c.ctx
    { w.cmdStage q slot 1 with obs.reads := w.obs.reads ++ [{ who := .command q slot, addr := a, ctx := ctx }] }

/-- PACKAGE_READ_REQUEST (R490, R502): a write of `rd_addr`, ignored while a read is in progress. -/
def effPackageReadRequest (addr : Nat) (w : W) : W :=
  if w.rd obsB KOBS_RD_STAT.rd_busy = 1 then w else
  let c := w.rd obsB KOBS_RD_CTX.rd_ctx
  let r : RdReq := { who := .package, addr := addr % 2 ^ 26, ctx := if c = 0 then none else some c }
  { w.wr obsB KOBS_RD_STAT.rd_busy 1 with obs.reads := w.obs.reads ++ [r] }

/-- STATION_READ_REQUEST (R490, R503): the reader is the context bound to descriptor queue `dq`. -/
def effStationReadRequest (st addr dq : Nat) (w : W) : W :=
  let b := stnB st
  if w.rd b KSTN_ORD_STAT.ord_busy = 1 then w else
  let r : RdReq := { who := .station st, addr := addr % 2 ^ 26, ctx := some (w.objCtx 0 st (dq % 8)) }
  { w.wr b KSTN_ORD_STAT.ord_busy 1 with obs.reads := w.obs.reads ++ [r] }

/-! ### Writes of records to memory -/

/-- Split bytes at 256 B granules: (address, bytes). -/
def splitGranules : Nat → Nat → List Byte → List (Nat × List Byte)
  | 0, _, _ => []
  | _ + 1, _, [] => []
  | f + 1, a, b :: bs =>
    let n := 256 - a % 256
    (a, (b :: bs).take n) :: splitGranules f (a + n) ((b :: bs).drop n)

/-- WRITE packets of the management processor to a local address (R494, R498). -/
def W.fmpWrite (w : W) (a : Nat) (d : List Byte) (own : Owner) : W :=
  w.each (splitGranules (d.length + 1) (loff a) d) (fun w p =>
    w.request uFmp { vc := if p.2.length ≤ 32 then 1 else 6, ack := true, op := 1, dst := 0x800 + portOf p.1,
                     gen := w.genCur, addr := p.1, len := p.2.length, data := p.2 } own)

/-! ### Capture units (R492 to R494) -/

/-- A capture unit's number names a unit (R492). -/
def State.capOk (s : State) (u : Nat) : Bool :=
  let sub := bits u 0 4
  let idx := bits u 4 12
  let kind := bits u 16 2
  bits u 18 14 == 0
    && (if kind = 0 then idx < 34 * s.fuse.cdSites && (sub ≤ 2 || (6 ≤ sub && sub ≤ 9))
        else kind == 1 && idx < s.fuse.edgePorts && sub ≤ 12)

/-- The record of a capture unit (R494). -/
def capRecord (u t : Nat) (c : Cap) : List Byte :=
  toLE 4 u ++ toLE 4 c.count ++ toLE 4 c.min_ ++ toLE 4 c.max_
    ++ (List.range 16).flatMap (fun k => toLE 4 (Tbl.get 0 c.bins k)) ++ toLE 8 c.tStart ++ toLE 8 t

/-- HISTO_READ (R494): reads and clears a capture unit; its record is written by WRITE packets and the command ends when
they are visible. -/
def effHistoRead (q slot : Nat) (w : W) : W :=
  match w.cmdAt q slot 0x0071 with
  | none => w
  | some c =>
    let u := le c.bytes 16 4
    let a := le c.bytes 24 8
    let up := if bits u 16 2 = 0 then w.winUp (.stn (bits u 4 12)) else true
    let st := firstOf [(!w.capOk u || a % 64 != 0 || !w.rangeOk a 96, BADOP),
      (c.ctx != 0 && (w.rd obsB KOBS_CAP_CFG.hctx_en u == 0 || w.rd obsB KOBS_CAP_CFG.hctx u != c.ctx), DENIED),
      (!up, DEAD_TARGET)]
    if st ≠ OK then w.answer q slot st else
    let d := capRecord u w.herdTime ((w.capAt u).seen w.fc)
    let w := { w with obs.cap := w.obs.cap.put u ((w.capAt u).cleared w.fc w.herdTime) }
    let n := (splitGranules 97 (loff a) d).length
    let w := { w with boot.cmds := w.boot.cmds.map (fun (x : Cmd) => if x = c then { x with stage := 1, a := n } else x) }
    w.fmpWrite a d (.cmdWrite q slot)

/-- Frames of an edge egress queue (R492). -/
def queueFrames (l : List EOut) : Nat := l.foldl (fun n o => n + (o.bytes.length - o.sent + 239) / 240) 0

/-- The depth of an EP's queue (R492). -/
def Ep.depth (p : Ep) (k : Nat) : Nat :=
  match k with
  | 9 => p.rtxBytes / 1024
  | 10 => p.reordLines
  | 11 => p.rxq.length
  | 12 => p.txq.length
  | vc => queueFrames ((p.eq.find (if vc ≤ 4 then vc else vc + 1)).getD [])

/-- EP_DEPTH_SAMPLE (R492): in an fc whose herd time is a multiple of 16, every EP's 13 depths are sampled. -/
def effEpDepthSample (w : W) : W :=
  if w.herdTime % 16 ≠ 0 then w else
  w.each (List.range w.fuse.edgePorts) (fun w e =>
    w.each (List.range 13) (fun w k => w.sample (capKey 1 e k) ((w.epS e).depth k) 0))

/-! ### Trace buffers (R495 to R498) -/

/-- TRACE_ARM (R497): checked, then the buffer is emptied and armed. -/
def effTraceArm (q slot : Nat) (w : W) : W :=
  match w.cmdAt q slot 0x0072 with
  | none => w
  | some c =>
    let b := le c.bytes 16 4
    let sel := le c.bytes 20 4
    let a := le c.bytes 24 8
    let mode := bits sel 0 2
    let post := bits sel 16 16
    let bad := 15 < b || mode == 3 || bits sel 2 6 != 0 || 2047 < post || 4 < w.rd obsB (KOBS_TRC_SRC.tkind.at (b % 16))
      || (a != 0 && (a % 64 != 0 || !w.rangeOk a (64 + 32 * 2048)))
    if bad then w.answer q slot BADOP else
    let t : Trc := { mode := mode, event := bits sel 8 8, post := post, dump := a }
    let w := { w with obs.trc := w.obs.trc.put b t }
    let w := ((w.wr obsB (KOBS_TRC_STAT.tstate.at b) 1).wr obsB (KOBS_TRC_STAT.tcount.at b) 0).wr obsB
      (KOBS_TRC_STAT.dumped.at b) 0
    w.answer q slot OK

/-- The header and records of a dump (R498). -/
def State.dumpBytes (s : State) (b : Nat) (t : Trc) : List Byte :=
  let stamp := s.rd obsB (KOBS_TRC_TSTAMP_LO.tstamp.at b) + 2 ^ 32 * s.rd obsB (KOBS_TRC_TSTAMP_HI.tstamp.at b)
  fit 64 (toLE 2 b ++ toLE 2 t.recs.length ++ toLE 4 (s.rd obsB (KOBS_TRC_STAT.trc_lost.at b))
      ++ toLE 8 (if t.trig.isSome then stamp else 0) ++ toLE 2 (t.trig.getD 0xFFFF))
    ++ t.recs.flatMap TrcRec.bytes

/-- TRACE_STOP (R498): a running buffer stops, full or by `tstop`, and is dumped when it has a dump address. -/
def effTraceStop (buf : Nat) (w : W) : W :=
  let st := w.rd obsB (KOBS_TRC_STAT.tstate.at buf)
  if 15 < buf ∨ (st ≠ 1 ∧ st ≠ 2) then w else
  let t := Tbl.get {} w.obs.trc buf
  let w := w.wr obsB (KOBS_TRC_STAT.tstate.at buf) 3
  let t := { t with cutFc := if st = 1 ∧ !t.stop then w.fc + 1 else 0 }
  if t.dump = 0 then { w with obs.trc := w.obs.trc.put buf { t with stop := true } } else
  let d := w.dumpBytes buf t
  let n := (splitGranules (d.length + 1) (loff t.dump) d).length
  { w with obs.trc := w.obs.trc.put buf { t with stop := true, writes := n } }.fmpWrite t.dump d (.dump buf)

/-! ### The commands of this family -/

/-- COUNTER_READ (R490). -/
def execCounterRead (q slot : Nat) (s : State) : Host.Outcome State Fault Refusal :=
  run (effCounterRead q slot) s

/-- HISTO_READ (R494). -/
def execHistoRead (q slot : Nat) (s : State) : Host.Outcome State Fault Refusal :=
  run (effHistoRead q slot) s

/-- TRACE_ARM (R497). -/
def execTraceArm (q slot : Nat) (s : State) : Host.Outcome State Fault Refusal :=
  run (effTraceArm q slot) s

/-- PACKAGE_READ_REQUEST (R490). -/
def execPackageReadRequest (addr : Nat) (s : State) : Host.Outcome State Fault Refusal :=
  run (effPackageReadRequest addr) s

/-- STATION_READ_REQUEST (R503). -/
def execStationReadRequest (st addr dq : Nat) (s : State) : Host.Outcome State Fault Refusal :=
  run (effStationReadRequest st addr dq) s

/-- COUNTER_SWEEP (R490). -/
def execCounterSweep (s : State) : Host.Outcome State Fault Refusal :=
  run (effCounterSweep) s

/-- TRACE_STOP (R498). -/
def execTraceStop (buf : Nat) (s : State) : Host.Outcome State Fault Refusal :=
  run (effTraceStop buf) s

/-- EP_DEPTH_SAMPLE (R492). -/
def execEpDepthSample (s : State) : Host.Outcome State Fault Refusal :=
  run (effEpDepthSample) s

end Sys2Proof.Machine
end

