-- ==== Sys2Proof/Machine/RegSet.lean ====
section
/-! DEFINITION. Register writes (R15, R17, R179): the checks of the registers that have their own, and the one
operation that performs a write at any address of the register window. -/

namespace Sys2Proof.Machine

/-! ### Fields -/

/-- The value a write leaves in an RW field (R15 and the tables). -/
def WRule.next (r : WRule) (old v : Nat) : Nat :=
  match r with
  | .any => v
  | .keep lo hi => if lo ≤ v ∧ v ≤ hi then v else old
  | .clamp m => min v m

/-- Fields marked "while disabled" or "while invalid" are locked now: the object's enable is 1 (R207, R269, R354). -/
def State.locked_ (s : State) (b : Nat) (f : Fld) (i : Nat) : Bool :=
  match f.sel with
  | .dq => f.guarded && s.rd b KSTN_DQ_CFG.enable i == 1
  | .cq => f.guarded && s.rd b KSTN_CQ_CFG.enable i == 1
  | .ch => f.guarded && s.rd b KSTN_CH_CFG.enable i == 1
  | .ring => f.guarded && s.rd b KSTN_RING_CFG.enable i == 1
  | .ringSlot => f.guarded && s.rd b KSTN_RING_CFG.enable (i / 16) == 1
  | .ptab => f.guarded && s.rd b KSTN_PTAB_CFG.tvalid i == 1
  | .spn => s.rd b KEDG_SPN_CFG.spn_en i == 1
  | .spnSlot => s.rd b KEDG_SPN_CFG.spn_en (i / 16) == 1
  | _ => false

/-- Fields whose write has a meaning of its own below. -/
def ownMeaning (f : Fld) : Bool :=
  f == KSTN_CH_CFG.enable || f == KSTN_RING_CFG.enable || f == KSTN_PTAB_CFG.tvalid || f == KSTN_STRM_AVAIL.avail
    || f == KEDG_SPN_CFG.spn_en || f == KGBL_PKG.pkg_num

/-- Reserved interrupt sources, whose `prio` ignores writes (R361, R364, R365, R375). -/
def irqReserved (wn : Win) (n : Nat) : Bool :=
  match wn with
  | .stn _ => 21 ≤ n && n ≤ 23
  | .intR _ => 25 ≤ n && n ≤ 31
  | .intP => (45 ≤ n && n ≤ 47)
  | _ => false

/-- One field of a register write. A completion queue whose head moves is full no more (R184). Settings of arbiters and of interrupt controllers act from the next fc (R164, R360). -/
def W.setField (w : W) (wn : Win) (f : Fld) (n i v : Nat) : W :=
  let b := wn.base
  let x := bits v f.lsb f.width
  match f.acc with
  | .rw =>
    if ownMeaning f then w
    else if f = KSTN_CQ_HEAD.cq_head then
      let st := (b - stnB 0) / 0x1000
      let full := Tbl.get false w.sta.cqFull (st * 8 + i) && x == w.rd b f i
      { w.wr b f x i with sta.cqFull := Tbl.set false w.sta.cqFull (st * 8 + i) full }
    else if f = KSTN_CH_CFG.herd_mode ∧ x = 1 ∧ i < 240 then w.wr b f 0 i
    else if (f = KSTN_IRQ_SRC.prio ∨ f = KINT_RSRC_CFG.prio ∨ f = KINT_PSRC_CFG.prio) ∧ irqReserved wn n then w
    else w.wrLate b (f.at n) (f.rule.next (w.rd b (f.at n) i) x) i
  | .w1c =>
    if f = KFLT_STICKY.sticky then effStickyClearWrite n x w
    else w.clearW1c b (f.at n) x i
  | _ => w

/-- The fields of one register that the writer may write (R179). -/
def W.setFields (w : W) (wn : Win) (o v : Nat) (who : Who) : W :=
  let s := w.toState
  w.each (wn.at o) (fun w x =>
    let i := s.selIdx wn.base x.1
    if s.sees who wn x.1 x.2 i ∧ !(s.locked_ wn.base x.1 i) then w.setField wn x.1 x.2 i v else w)

/-! ### Registers with checks of their own -/

/-- PKG_NUM_WRITE (R479): refused while a context other than 0x000 is live. -/
def effPkgNumWrite (val : Nat) (who : Who) (w : W) : W :=
  if !who.priv then w
  else if 0 < w.liveCount then w.flag gblB KGBL_PKG.pkg_reject
  else w.wr gblB KGBL_PKG.pkg_num val

/-- KGBL_ENGWD (R438): both fields or neither. -/
def W.engwdWrite (w : W) (v : Nat) : W :=
  let e := bits v 0 5
  let r := bits v 8 5
  if 16 ≤ e ∧ e ≤ 24 ∧ 17 ≤ r ∧ r ≤ 26 ∧ e < r then
    (w.wr gblB KGBL_ENGWD.eng_wd_log2 e).wr gblB KGBL_ENGWD.replay_log2 r
  else w

/-- The greatest W of an output of a router with the weights of state `s` (R155). -/
def State.maxTickets (s : State) (u : Nat) : Nat :=
  ((portsOf u).flatMap (fun p => (List.range 4).map (fun net =>
    (s.requesters u p net).foldl (fun n r => n + s.rd (rtrB u) (match r.2 with
      | 0 => KRTR_TKW0.w_ctl
      | 1 => KRTR_TKW0.w_mrq
      | 2 => KRTR_TKW0.w_msg
      | 3 => KRTR_TKW1.w_cmp
      | 4 => KRTR_TKW1.w_crd
      | 5 => KRTR_TKW1.w_snp
      | 6 => KRTR_TKW2.w_wdt
      | 7 => KRTR_TKW2.w_msgl
      | 8 => KRTR_TKW2.w_fol
      | _ => KRTR_TKW2.w_pool)) 0))).foldl max 0

/-- The W of an EP's arbiter with the weights of state `s`: each of its VCs is one requester (R155, R326). -/
def State.epTickets (s : State) (e : Nat) : Nat :=
  [KRTR_TKW0.w_ctl, KRTR_TKW0.w_mrq, KRTR_TKW0.w_msg, KRTR_TKW1.w_cmp, KRTR_TKW1.w_crd, KRTR_TKW2.w_wdt, KRTR_TKW2.w_msgl,
    KRTR_TKW2.w_fol, KRTR_TKW2.w_pool].foldl (fun n f => n + s.rd (epB e) f 0) 0

/-- TICKET_WEIGHT_WRITE (R155, R164): refused when a weight is 0 or some output's W would exceed 255. -/
def effTicketWeightWrite (addr val : Nat) (who : Who) (w : W) : W :=
  let wn := winOf addr
  let o := addr - wn.base
  if !who.priv ∨ !w.winUp wn then w else
  let fs := (wn.at o).filter (fun x => x.1.acc == .rw)
  let zero := fs.any (fun x => bits val x.1.lsb x.1.width == 0)
  match wn with
  | .rtr u =>
    if o ≠ 0x480 ∧ o ≠ 0x484 ∧ o ≠ 0x488 then w else
    let w' := w.each fs (fun w x => w.wrLate wn.base x.1 (bits val x.1.lsb x.1.width))
    if zero || 255 < w'.maxTickets u then w.flag wn.base KRTR_ARB_EVT.w_reject else w'
  | .ep e =>
    if o ≠ 0x480 ∧ o ≠ 0x484 ∧ o ≠ 0x488 then w else
    let w' := w.each fs (fun w x => w.wrLate wn.base x.1 (bits val x.1.lsb x.1.width))
    if zero || 255 < w'.epTickets e then w else w'
  | .msp _ =>
    if o ≠ 0x104 then w else
    if zero || 255 < fs.foldl (fun n x => n + bits val x.1.lsb x.1.width) 0 then w
    else w.each fs (fun w x => w.wrLate wn.base x.1 (bits val x.1.lsb x.1.width))
  | _ => w

/-- The unit type that an event code belongs to, whether it is a level, and whether it carries a context (R488). -/
def eventOf (code : Nat) : Option (Nat × Bool × Bool) :=
  if 0x01 ≤ code ∧ code ≤ 0x0D then some (0, decide (0x08 ≤ code), decide (code ≤ 0x0A) || code == 0x0D)
  else if 0x20 ≤ code ∧ code ≤ 0x25 then some (1, code == 0x22 || code == 0x23, code == 0x20 || code == 0x24)
  else if 0x40 ≤ code ∧ code ≤ 0x44 then some (2, 0x41 ≤ code && code ≤ 0x43, code == 0x40)
  else if 0x60 ≤ code ∧ code ≤ 0x65 then some (3, code == 0x62 || code == 0x63, code == 0x61 || code == 0x64)
  else none

/-- The unit type of a window for R488. -/
def Win.evType : Win → Option Nat
  | .stn _ => some 0
  | .rtr _ => some 1
  | .msp _ => some 2
  | .ep _ => some 3
  | _ => Option.none

/-- A configuration that an event counter refuses (R485). -/
def ecfgBad (ty k v : Nat) : Bool :=
  let code := bits v 0 8
  let mode := bits v 8 2
  let chain := bit v 10
  let en := bit v 11
  mode == 3 || (chain && k == 0)
    || (code != 0 && (match eventOf code with
        | none => true
        | some (t, level, ctx) => t != ty || ((mode == 1 || mode == 2) && !level) || (en && !ctx)))

/-- Core software at `st` may write counter `k`'s configuration (R489). -/
def State.coreEcfg (s : State) (wn : Win) (k v st : Nat) : Bool :=
  let b := stnB st
  let bound (c : Nat) : Bool := (List.range 8).any (fun q => s.owns 0 st q c)
  wn == .stn st && (s.rd b (K_ECFG.event.at k) == 0 && s.rd b (K_ECFG.chain.at k) == 0 || s.evcScoped st k)
    && bit v 11 && bound (bits v 12 12)

/-- ECFG_WRITE (R485, R489): a checked configuration write; counting starts from 0 in the next fc. -/
def effEcfgWrite (addr val : Nat) (who : Who) (w : W) : W :=
  let wn := winOf addr
  match K_ECFG.event.here (addr - wn.base), wn.evType with
  | some k, some ty =>
    let may : Bool := match who with
      | .core st _ => w.coreEcfg wn k val st
      | _ => true
    if !may ∨ !w.winUp wn then w
    else if ecfgBad ty k val then w.flag wn.base (K_ETHR.ecfg_reject.at k)
    else
      let b := wn.base
      let w := (w.wr b (K_ECFG.event.at k) (bits val 0 8)).wr b (K_ECFG.emode.at k) (bits val 8 2)
      let w := ((w.wr b (K_ECFG.chain.at k) (bits val 10 1)).wr b (K_ECFG.ectx_en.at k) (bits val 11 1)).wr b
        (K_ECFG.ectx.at k) (bits val 12 12)
      { w.wr b (K_ECNT.ecnt.at k) 0 with obs.cfgFc := w.obs.cfgFc.put (wn.unit * 4 + k) (w.fc + 1) }
  | _, _ => w

/-- A pool table entry's fields lie in their ranges (R241). -/
def State.ptabOk (s : State) (st i : Nat) : Bool :=
  let b := stnB st
  let rl := s.rd b KSTN_PTAB_CFG.rlines i
  let sd := s.rd b KSTN_PTAB_CFG.stride i
  let rows := s.rd b KSTN_PTAB_ROWS_LO.trows_lo i + 2 ^ 32 * s.rd b KSTN_PTAB_ROWS_HI.trows_hi i
  let base := s.rd2 b KSTN_PTAB_BASE_LO.tbase_lo KSTN_PTAB_BASE_HI.tbase_hi i
  1 ≤ rl && rl ≤ 64 && 1 ≤ s.rd b KSTN_PTAB_CFG.dtype i && s.rd b KSTN_PTAB_CFG.dtype i ≤ 5
    && (sd == 1 || sd == 2 || (sd % 4 == 0 && 4 ≤ sd && sd ≤ 65532)) && rl ≤ sd && 1 ≤ rows && rows ≤ 2 ^ 40
    && addrOk base && s.winOk st (s.objCtx 7 st i) false base ((rows - 1) * sd * 64 + 64 * rl) false false false

/-- POOL_TABLE_VALIDATE (R242): a write of `tvalid` 1. -/
def effPoolTableValidate (st entry : Nat) (who : Who) (w : W) : W :=
  let b := stnB st
  if !w.mayUse who 7 st entry ∨ w.rd b KSTN_PTAB_CFG.tvalid entry = 1 then w
  else if w.ptabOk st entry then w.wr b KSTN_PTAB_CFG.tvalid 1 entry
  else (w.flag b KSTN_PTAB_ROWS_HI.tcfg_reject 1 entry).irqB st 12

/-- KSTN_STRM_AVAIL (R126): a write below the current value or above `length` leaves it unchanged. -/
def W.availWrite (w : W) (st k v : Nat) (who : Who) : W :=
  let x := w.strmAt st k
  if w.mayUse who 4 st k ∧ x.avail ≤ v ∧ v ≤ x.length then w.setStrm st k { x with avail := v } else w

/-- A spine slot may be enabled (R192, R347): shares of 1 or more, in sum at most 256 − 63. -/
def State.spnCfgOk (s : State) (e k : Nat) : Bool :=
  let l := ((List.range 16).filter (fun i => s.rd (epB e) KEDG_SPN_SLOT0.s_valid (k * 16 + i) == 1)).map
    (fun i => s.rd (epB e) KEDG_SPN_SLOT2.s_share (k * 16 + i))
  l.all (fun n => 1 ≤ n) && l.foldl (fun (a : Nat) b => a + b) 0 ≤ 193

/-- `spn_en` is written (R192, R194, R347, R349): enabled, each valid sender slot gets its share as a CREDIT and the
result channel sends its CRESYNC; disabled, what the slot holds is dropped. -/
def W.spnEnable (w : W) (e k : Nat) (on : Bool) : W :=
  let b := epB e
  if !on then (w.wr b KEDG_SPN_CFG.spn_en 0 k).setSpn e k { mseq := (w.spnS e k).mseq }
  else if w.rd b KEDG_SPN_CFG.spn_en k = 1 ∨ !w.spnCfgOk e k then w
  else
    let w := (w.wr b KEDG_SPN_CFG.spn_en 1 k).setSpn e k { mseq := (w.spnS e k).mseq }
    let w := w.each ((List.range 16).filter (fun i => w.rd b KEDG_SPN_SLOT0.s_valid (k * 16 + i) == 1)) (fun w i =>
      let j := k * 16 + i
      (w.wr b KEDG_SPN_SLOT2.s_pend 0 j).spnCredit e 0 (w.rd b KEDG_SPN_SLOT2.s_share j) false
        (w.rd b KEDG_SPN_SLOT1.s_pkg j) (w.rd b KEDG_SPN_SLOT0.s_src j) (w.rd b KEDG_SPN_SLOT0.s_chan j))
    let x := w.spnS e k
    let head := msgHead 1 0 0 (w.epOf (uEp e)) k x.mseq w.pkgNum
    w.inject (uEp e)
      { vc := 2, herdMode := decide (w.rd b KEDG_SPN_CFG.res_herd k = 1), op := 0x22, dst := w.rd b KEDG_SPN_CFG.res_dst k,
        src := w.epOf (uEp e), tag := k + 256 * x.mseq, len := 16,
        addr := w.rd2 b KEDG_SPN_RADDR_LO.raddr_lo KEDG_SPN_RADDR_HI.raddr_hi k, aux := w.rd b KEDG_SPN_CFG.dring k,
        data := head, ref := 2 ^ 19 + k }

/-- The command queue hardware finds a BLOCK_RESET among newly posted slots (R463). -/
def State.postsReset (s : State) (q old new_ : Nat) : Bool :=
  (List.range ((new_ + 128 - old) % 128)).any (fun i => le (s.slotBytes q ((old + i) % 128)) 0 2 == 0x61)

/-- CTAIL_WRITE (R462, R463, R480): the host posts commands. -/
def effCtailWrite (q val : Nat) (who : Who) (w : W) : W :=
  if !who.priv ∨ 4 ≤ q then w else
  let b := cmdB q
  let new_ := val % 128
  let w := if w.postsReset q (w.rd b KCMD_QTAIL.ctail) new_ then { w with boot.rstReq := true } else w
  w.wr b KCMD_QTAIL.ctail new_

/-! ### A write at any address -/

/-- A station's registers. -/
def W.stnWrite (w : W) (n o v : Nat) (who : Who) : W :=
  let b := stnB n
  let mine : Bool := match who with
    | .core st _ => st == n
    | _ => true
  let wn : Win := .stn n
  let plain := w.setFields wn o v who
  if !mine then w
  else match o with
  | 0x218 => effRingPop n (w.rd b KSTN_RING_SEL.ring_sel) (v % 128) who w
  | 0xB88 => effIrqDone n (v % 32) w
  | 0xB8C => effIrqSet n (v % 2 ^ 32) w
  | 0xB98 => effEndOfInterrupt n (bits v 7 2) 0 (bits v 0 7) w
  | 0xD80 => effStationReadRequest n (bits v 0 26) (bits v 26 3) w
  | 0x80C => w.availWrite n (w.rd b KSTN_STRM_SEL.sel) (bits v 0 21) who
  | 0x104 =>
    let c := w.rd b KSTN_CH_SEL.ch_sel
    if bit v 13 then effChannelEnable n c who plain else effChannelDisable n c who plain
  | 0x20C =>
    let r := w.rd b KSTN_RING_SEL.ring_sel
    if bit v 15 then effRingEnable n r who plain else effRingDisable n r who plain
  | 0x70C =>
    let i := w.rd b KSTN_PTAB_SEL.ptab_sel
    if bit v 7 then effPoolTableValidate n i who plain
    else if w.mayUse who 7 n i then plain.wr b KSTN_PTAB_CFG.tvalid 0 i else plain
  | _ =>
    if (K_ECFG.event.here o).isSome then effEcfgWrite (b + o) v who w
    else plain

/-- A write of KRTR_QUOTA (R162, R164): quota counts whose window has ended are cleared, the others carry until the first
window boundary under the new `q_win_log2`. -/
def W.quotaWrite (w : W) (wn : Win) (o v : Nat) (who : Who) : W :=
  let b := wn.base
  let old (e : Nat × Arb) : Arb := if w.quotaStands b e.2 w.herdTime then e.2 else { e.2 with quota := [] }
  let w := { w with
    net.arbs := w.net.arbs.map (fun (e : Nat × Arb) => if setB (e.1 / 256) = b then (e.1, old e) else e)
    net.qWrite := w.net.qWrite.put b w.herdTime }
  w.setFields wn o v who

/-- A write of KEDG_SPRAY_LO or KEDG_SPRAY_HI: a label newly added has weight 256 and no estimate (R337). -/
def W.sprayWrite (w : W) (e o v : Nat) (who : Who) : W :=
  let b := epB e
  let old := w.sprayLabels e
  let w := w.setFields (.ep e) o v who
  w.each ((w.sprayLabels e).filter (fun p => !old.contains p)) (fun w p =>
    ((w.wr b KEDG_PATH.weight 256 p).wr b KEDG_PATH.samples 0 p).wr b KEDG_PATH.srtt 0 p)

/-- Registers outside the station windows; the writer is privileged. -/
def W.privWrite (w : W) (wn : Win) (o v : Nat) (who : Who) : W :=
  let a := wn.base + o
  let plain := w.setFields wn o v who
  match wn with
  | .gbl =>
    if o = 0x020 then effPkgNumWrite (bits v 0 17) who plain
    else if o = 0x410 then (if bit v 0 then effHeartbeat w else w)
    else if o = 0x420 then w.engwdWrite v
    else plain
  | .csram => { w with boot.csram := putBytes w.boot.csram o (toLE 4 v) }
  | .cmd q => if o = 0x004 then effCtailWrite q v who w else plain
  | .flt =>
    if o = 0x018 then
      let s := bits v 4 9
      ((w.iff (bit v 0) effInjFatal).iff (bit v 1) (effInjCorr s)).iff (bit v 2) (effInjUncorr s)
    else plain
  | .intR p =>
    if o = 0x210 then effSharedIrqSet p (v % 2 ^ 32) w else plain
  | .intP =>
    if o = 0x420 then effSharedIrqSet 132 (v % 2 ^ 16) w
    else if o = 0x438 then effEndOfInterrupt 5000 (bits v 7 2) (bits v 20 8) (bits v 0 7) w
    else if o = 0x448 then effEndOfInterrupt 5001 (bits v 7 2) (bits v 20 8) (bits v 0 7) w
    else plain
  | .obs =>
    if o = 0x000 then effPackageReadRequest (bits v 0 26) w
    else if 0x200 ≤ o ∧ o < 0x400 then
      let k := (o - 0x200) / 32
      let st := w.rd obsB (KOBS_TRC_STAT.tstate.at k)
      if o % 32 = 8 then (if bit v 3 then effTraceStop k w else w)
      else if st = 1 ∨ st = 2 then w else plain
    else plain
  | .rtr _ => if o = 0x480 ∨ o = 0x484 ∨ o = 0x488 then effTicketWeightWrite a v who w
              else if o = 0x48C then w.quotaWrite wn o v who
              else if (K_ECFG.event.here o).isSome then effEcfgWrite a v who w else plain
  | .msp _ => if o = 0x104 then effTicketWeightWrite a v who w
              else if (K_ECFG.event.here o).isSome then effEcfgWrite a v who w else plain
  | .ep e =>
    if o = 0x004 then effLaneMapWrite e v who w
    else if o = 0x480 ∨ o = 0x484 ∨ o = 0x488 then effTicketWeightWrite a v who w
    else if o = 0x48C then w.quotaWrite wn o v who
    else if o = KEDG_SPRAY_LO.spray_lo.off ∨ o = KEDG_SPRAY_HI.spray_hi.off then w.sprayWrite e o v who
    else if o = 0x0C4 then plain.spnEnable e (w.rd (epB e) KEDG_SPN_SEL.spn_sel) (bit v 13)
    else if (K_ECFG.event.here o).isSome then effEcfgWrite a v who w else plain
  | _ => plain

/-- A write of a 32-bit register. Reserved addresses, and registers of a site that is absent, powered off or asleep,
ignore it (R451, R468). -/
def W.regWrite (w : W) (a v : Nat) (who : Who) : W :=
  let a := shareAddr (a / 4 * 4)
  let wn := winOf a
  let o := a - wn.base
  if !w.winUp wn then w
  else match wn with
    | .stn n => w.stnWrite n o v who
    | _ => if who.priv then w.privWrite wn o v who else w

/-- REGISTER_WRITE (R15). -/
def effRegisterWrite (addr val : Nat) (who : Who) (w : W) : W := w.regWrite addr val who

/-- KDBG_UPDATE (R478): with `dbg_en` fused, one privileged access to the register window, dropped while one is under
way; after it the data register is KDBG's. -/
def effKdbgUpdate (dr : Nat) (w : W) : W :=
  if !w.fuse.dbgEn then w else
  let w := { w with boot.ir := 0x10 }
  if w.boot.kdbgBusy then w else
  let a := bits dr 32 24 * 4
  if bit dr 56 then { w.regWrite a (bits dr 0 32) .host with boot.kdbgBusy := true }
  else
    let w := w.regRead a .host
    { w with boot.kdbg := Tbl.get 0 w.sta.regOut (shareAddr a), boot.kdbgBusy := true }

/-! ### The commands of this family -/

/-- KDBG_UPDATE (R478). -/
def execKdbgUpdate (dr : Nat) (s : State) : Host.Outcome State Fault Refusal :=
  run (effKdbgUpdate dr) s

/-- CTAIL_WRITE (R463). -/
def execCtailWrite (q val : Nat) (who : Who) (s : State) : Host.Outcome State Fault Refusal :=
  run (effCtailWrite q val who) s

/-- ECFG_WRITE (R485). -/
def execEcfgWrite (addr val : Nat) (who : Who) (s : State) : Host.Outcome State Fault Refusal :=
  run (effEcfgWrite addr val who) s

/-- TICKET_WEIGHT_WRITE (R155). -/
def execTicketWeightWrite (addr val : Nat) (who : Who) (s : State) : Host.Outcome State Fault Refusal :=
  run (effTicketWeightWrite addr val who) s

/-- POOL_TABLE_VALIDATE (R242). -/
def execPoolTableValidate (st entry : Nat) (who : Who) (s : State) : Host.Outcome State Fault Refusal :=
  run (effPoolTableValidate st entry who) s

/-- PKG_NUM_WRITE (R479). -/
def execPkgNumWrite (val : Nat) (who : Who) (s : State) : Host.Outcome State Fault Refusal :=
  run (effPkgNumWrite val who) s

/-- REGISTER_WRITE (R15). -/
def execRegisterWrite (addr val : Nat) (who : Who) (s : State) : Host.Outcome State Fault Refusal :=
  run (effRegisterWrite addr val who) s

end Sys2Proof.Machine
end

