-- ==== Sys2Proof/Machine/Target.lean ====
section
/-! DEFINITION. Targets of READ, WRITE, CWRITE and ATOMIC (R136, R274, R277, R281 to R284, R290): memory ports, and
stations through the endpoint window. -/

namespace Sys2Proof.Machine

/-! ### The endpoint window at a station (R274) -/

/-- The access is to the station's register window, else to its core SRAM. -/
def toRegs (p : Packet) : Bool := bit p.addr 28

/-- Byte address in core SRAM, or register offset. -/
def soff (p : Packet) : Nat := bits p.addr 0 28

/-- The form of an access through the endpoint window (R136, R274, R280, R282): within 4 KiB, within the SRAM, and, for a
register, 4 B long and aligned. -/
def State.stnForm (s : State) (p : Packet) : Bool :=
  let n := opBytes p
  let a := soff p
  let shape : Bool := match p.op with
    | 0x0A => a % 8 == 0 && bits p.aux 0 4 ≤ 7 && p.len == (if bits p.aux 0 4 = 2 then 16 else 8)
    | 0x02 => 1 ≤ n && n ≤ 4096
    | 0x0C => 1 ≤ n && n ≤ 256
    | _ => 1 ≤ n && n ≤ 4096
  addrOk p.addr && isEpWin p.addr && s.addrPkg p.addr == s.pkgNum && shape && inBlock a n 4096
    && (if toRegs p then p.op != 0x0A && n == 4 && a % 4 == 0 && a < 4096
        else a + n ≤ 2 ^ s.fuse.sramLog2)

/-- The requester of a packet may reach station registers (R274). -/
def fromMgmt (p : Packet) : Bool := p.src == 0x880 || p.src == 0x881

/-- The register requester that a packet stands for (R5). -/
def whoOf (p : Packet) : Who := if p.src = 0x881 then .host else .miomus

/-- The status with which a station refuses an access through the endpoint window (R274, R290, R404), or OK. -/
def State.stnCheck (s : State) (st : Nat) (p : Packet) : Nat :=
  let denied : Bool := if toRegs p then !fromMgmt p
    else !mgmtPass p.src p.ctx && !s.winOk st p.ctx true (soff p) (opBytes p) false false false
  firstOf [(!s.stnForm p, BADOP), (denied, DENIED), (s.ctxFencedAt st p.ctx, FENCED)]

/-- An access at a station waits for an earlier one of its source to its granule, whatever its VC (R305); and a READ or an
ATOMIC for the lines of earlier writes to its granules that the core's write port has yet to take (R304). -/
def State.stnWaits (s : State) (st : Nat) (p : Packet) : Bool :=
  let l := (List.range 10).flatMap (fun vc => s.buf (uSt st) 0 vc)
  let a := soff p
  (match l.find? (fun b => b.pkt == p) with
    | some b => l.any (fun x => x.seq < b.seq && (x.pkt.op == 0x01 || x.pkt.op == 0x02 || x.pkt.op == 0x0A || x.pkt.op == 0x0C)
        && sameGran x.pkt p)
    | none => false)
  || ((p.op == 0x02 || p.op == 0x0A) && !toRegs p && ((s.sta.dbuf.find st).getD []).any (fun (d : DLine) =>
        a / 256 ≤ d.addr / 256 && d.addr / 256 ≤ (a + opBytes p - 1) / 256))

/-- Take the next access of operation `op` at a station and check it: refused, or handed to `f`. -/
def W.stnServe (w : W) (st op : Nat) (f : W → Packet → W) : W :=
  match w.takeAny (uSt st) (fun p => p.op == op && !w.stnWaits st p) with
  | none => w
  | some (p, w) =>
    let chk := w.stnCheck st p
    if chk ≠ OK then
      (w.winDenied st (chk == DENIED && !toRegs p)).cmp (uSt st) p chk
    else f w p

/-- An endpoint that is no target of memory operations answers BADOP (PRESUMED, log). -/
def W.noTarget (w : W) (u op : Nat) : W :=
  if u ≠ uFmp ∧ u ≠ uHost then w else
  match w.takeAny u (fun p => p.op == op) with
  | none => w
  | some (p, w) => w.cmp u p BADOP

/-- Serve the next access of operation `op` at whichever target the unit is. -/
def W.target (w : W) (u op : Nat) (mem stn : Nat → W → Packet → W) : W :=
  if 0x2000 ≤ u ∧ u < 0x2040 then w.serve (u - 0x2000) op (mem (u - 0x2000))
  else if 0x1000 ≤ u ∧ u < 0x2000 then w.stnServe (u - 0x1000) op (stn (u - 0x1000))
  else w.noTarget u op

/-! ### Performing an access at a station -/

/-- Poison of the 64 B chunks of a payload read from core SRAM. -/
def W.sramChunkPois (w : W) (st a n : Nat) : Nat :=
  (List.range ((n + 63) / 64)).foldl (fun m j =>
    if w.sramPois st (a + 64 * j) || w.sramPois st (a + min n (64 * j + 64) - 1) then m + 2 ^ j else m) 0

/-- A READ at a station (R281): one RDATA, POISON when any line read is poisoned; a register is read as R15 says. -/
def W.stnRead (w : W) (st : Nat) (p : Packet) : W :=
  let a := soff p
  let n := opBytes p
  let rdata (data : List Byte) (pois : Nat) : Packet := { ansTo p p.dst with
    vc := 6
    op := 0x03
    len := n
    addr := p.addr
    data := data
    pois := pois
    status := if pois = 0 then OK else POISON }
  if toRegs p then
    let w := w.regRead (stnB st + a) (whoOf p)
    w.reply (uSt st) (rdata (toLE 4 (Tbl.get 0 w.sta.regOut (stnB st + a))) 0)
  else w.reply (uSt st) (rdata (w.sramRead st a n) (w.sramChunkPois st a n))

/-- A WRITE or CWRITE at a station (R182, R304): its lines go through the core's write port, the last one making the
write visible; a register is written at once. -/
def W.stnWriteAt (w : W) (st : Nat) (p : Packet) : W :=
  let a := soff p
  if toRegs p then (w.regWrite (stnB st + a) (le p.data 0 4) (whoOf p)).visible (uSt st) p
  else
    let parts := splitLines (p.len + 1) a 0 p.data
    let act : OnWrite := if p.op = 0x0C then .counted p else if p.ack then .answer p else .posted p
    w.each parts (fun w x => w.toPort st x.1 x.2.1 (bit (linePois a p.pois) x.2.2) (x.1 % 64 == 0 && x.2.1.length == 64)
      (if x.2.2 + 1 = parts.length then act else .nothing))

/-- An ATOMIC at a station (R282): performed on core SRAM at once, answered with the value held before. -/
def W.stnAtomic (w : W) (st : Nat) (p : Packet) : W :=
  let a := soff p
  let old := w.sramRead st a 8
  let bad := w.sramPois st a
  let w := w.sramWrite st a (toLE 8 (atomicNew (bits p.aux 0 4) (le old 0 8) p.data)) p.pois
  w.reply (uSt st) { ansTo p p.dst with
    vc := 3
    op := 0x0B
    len := 8
    data := old
    pois := if bad then 1 else 0
    status := if bad then POISON else OK }

/-! ### The commands -/

/-- READ (R281). -/
def effRead (unit : Nat) (w : W) : W :=
  w.target unit 0x02 (fun port w p => w.readAt port p) (fun st w p => w.stnRead st p)

/-- WRITE (R136). -/
def effWrite (unit : Nat) (w : W) : W :=
  w.target unit 0x01 (fun port w p => w.writeAt port p) (fun st w p => w.stnWriteAt st p)

/-- CWRITE (R284). -/
def effCwrite (unit : Nat) (w : W) : W :=
  w.target unit 0x0C (fun port w p => w.writeAt port p) (fun st w p => w.stnWriteAt st p)

/-- ATOMIC (R282). -/
def effAtomic (unit : Nat) (w : W) : W :=
  w.target unit 0x0A (fun port w p => w.atomicAt port p) (fun st w p => w.stnAtomic st p)

/-! ### The commands of this family -/

/-- READ (R281). -/
def execRead (unit : Nat) (s : State) : Host.Outcome State Fault Refusal :=
  run (effRead unit) s

/-- WRITE (R136). -/
def execWrite (unit : Nat) (s : State) : Host.Outcome State Fault Refusal :=
  run (effWrite unit) s

/-- CWRITE (R284). -/
def execCwrite (unit : Nat) (s : State) : Host.Outcome State Fault Refusal :=
  run (effCwrite unit) s

/-- ATOMIC (R282). -/
def execAtomic (unit : Nat) (s : State) : Host.Outcome State Fault Refusal :=
  run (effAtomic unit) s

end Sys2Proof.Machine
end

