-- ==== Sys2Proof/Machine/Folio.lean ====
section
/-! DEFINITION. Folio packets and unit configuration space (R138, R139, R455, R456). -/

namespace Sys2Proof.Machine

/-! ### The extension (R138) -/

def foSpace (p : Packet) : Nat := bits (le p.ext 4 1) 0 2
def foCrc (p : Packet) : Nat := le p.ext 8 4

/-! ### Regions (R455)

A region of a unit is a row of entries of one length, read and written as little-endian numbers. -/

/-- A region: bytes of an entry, entries, how one is read and written, and whether it is read-back only. -/
structure Region where
  ent : Nat
  count : Nat
  rd : State → Nat → Nat
  wr : W → Nat → Nat → W
  ro : Bool := false

def Region.size (r : Region) : Nat := r.ent * r.count

/-- Bytes `off` to `off + n - 1` of a region. -/
def Region.read (r : Region) (s : State) (off n : Nat) : List Byte :=
  let a := off / r.ent
  let k := (off + n - 1) / r.ent - a + 1
  (((List.range k).flatMap (fun i => toLE r.ent (r.rd s (a + i)))).drop (off - a * r.ent)).take n

/-- Write bytes at `off` of a region, entry by entry. -/
def Region.write (r : Region) (w : W) (off : Nat) (d : List Byte) : W :=
  let a := off / r.ent
  let k := (off + d.length - 1) / r.ent - a + 1
  w.each (List.range k) (fun w i =>
    let at_ := (a + i) * r.ent
    let old := toLE r.ent (r.rd w.toState (a + i))
    let new_ := if off ≤ at_ then patch old 0 ((d.drop (at_ - off)).take r.ent)
      else patch old (off - at_) (d.take (r.ent - (off - at_)))
    r.wr w (a + i) (ofLE new_))

/-! ### Registers as entries -/

/-- The word of a register with selector index `i`, from its fields. -/
def wordAt (s : State) (b : Nat) (fs : List Fld) (o i : Nat) : Nat :=
  (fs.filter (fun f => f.off == o)).foldl (fun v f => v + s.rd b f i % 2 ^ f.width * 2 ^ f.lsb) 0

/-- Write the fields of such a word. -/
def W.wordPut (w : W) (b : Nat) (fs : List Fld) (o i v : Nat) : W :=
  w.each (fs.filter (fun f => f.off == o)) (fun w f => w.wr b f (f.rule.next (w.rd b f i) (bits v f.lsb f.width)) i)

/-- A region whose entry `i` is the registers at offsets `os` selected by `i`. -/
def selRegion (b : Nat) (fs : List Fld) (os : List Nat) (count : Nat) : Region :=
  { ent := 4 * os.length
    count := count
    rd := fun s i => (os.zipIdx).foldl (fun v (x : Nat × Nat) => v + wordAt s b fs x.1 i * 2 ^ (32 * x.2)) 0
    wr := fun w i v => w.each os.zipIdx (fun w (x : Nat × Nat) => w.wordPut b fs x.1 i (bits v (32 * x.2) 32)) }

/-- A region whose entries are the registers at the given offsets of a window. -/
def regRegion (b : Nat) (os : List Nat) : Region :=
  { ent := 4
    count := os.length
    rd := fun s i => s.regVal (b + os.getD i 0) .miomus
    wr := fun w i v => w.regWrite (b + os.getD i 0) v .miomus }

/-- A vector of one bit for each of 4,096 numbers. -/
def bitRegion (get : State → Nat → Bool) (set : W → Nat → Bool → W) : Region :=
  { ent := 4
    count := 128
    rd := fun s i => bitsOf 32 (fun k => get s (32 * i + k))
    wr := fun w i v => w.each (List.range 32) (fun w k =>
      if get w.toState (32 * i + k) = bit v k then w else set w (32 * i + k) (bit v k)) }

/-- A region whose layout the spec does not give: words that keep what was written (R455); those not written hold what
the implementation put there. -/
def rawRegion (u r count : Nat) : Region :=
  { ent := 4
    count := count
    rd := fun s i => match s.net.raw.find ((u * 256 + r) * 2 ^ 22 + i) with
      | some v => v
      | none => (Config.rawWord u r i).toNat
    wr := fun w i v => { w with net.raw := w.net.raw.put ((u * 256 + r) * 2 ^ 22 + i) v } }

/-! ### Plate buffers -/

/-- Write position `i` of a list, filling with `d` up to it. -/
def putAt {α : Type} (d : α) (l : List α) (i : Nat) (v : α) : List α :=
  if i < l.length then l.set i v else l ++ List.replicate (i - l.length) d ++ [v]

def Plate.sec (p : Plate) (k : Nat) : Section := (p.secs.find k).getD ⟨[], [], 0⟩

/-- The set of plate lanes that run entries name. -/
def lanesNamed (l : List RunEnt) : Nat := l.foldl (fun m r => if r.length = 0 then m else setBit m r.lane true) 0

def W.setBuffer (w : W) (staged : Bool) (p : Plate) : W :=
  if staged then { w with plt.staged := some p } else { w with plt.active := some p }

/-- The plate in a buffer. -/
def State.buffer (s : State) (staged : Bool) : Option Plate := if staged then s.plt.staged else s.plt.active

/-- A section of a plate buffer as a region: its entries in the order of the section (R76). A buffer that holds no plate
keeps the words written to it. -/
def plateRegion (k raw : Nat) (staged comb : Bool) (u count : Nat) : Region :=
  let words := rawRegion u raw (4 * count)
  let join (s : State) (i : Nat) : Nat :=
    (List.range 4).foldl (fun v j => v + words.rd s (4 * i + j) * 2 ^ (32 * j)) 0
  { ent := 16
    count := count
    rd := fun s i => match s.buffer staged with
      | none => join s i
      | some p => if comb then ((p.sec k).combs[i]?.map combNum).getD 0 else ((p.sec k).runs[i]?.map runNum).getD 0
    wr := fun w i v => match w.buffer staged with
      | none => w.each (List.range 4) (fun w j => words.wr w (4 * i + j) (bits v (32 * j) 32))
      | some p =>
        let x := p.sec k
        let b := toLE 16 v
        let x : Section := if comb then { x with combs := putAt (parseComb []) x.combs i (parseComb b) }
          else
            let runs := putAt (parseRun []) x.runs i (parseRun b)
            { x with runs := runs, laneMask := lanesNamed runs }
        w.setBuffer staged { p with secs := p.secs.put k x } }

/-! ### Route, herd and other tables -/

/-- A bank of a unit's route table (R143). -/
def routeRegion (u bank : Nat) : Region :=
  { ent := 16
    count := 0x882
    rd := fun s i => s.routeEntry bank (s.epOf u) i
    wr := fun w i v => w.setRbank bank { w.rbank bank with
      written := (w.rbank bank).written.put (w.epOf u * 4096 + i) v } }

/-- A bank of a unit's herd root table (R148), one byte padded to 4 B. -/
def rootRegion (u bank : Nat) : Region :=
  { ent := 4
    count := 4096
    rd := fun s i => let r := s.herdRoot bank u i; r.1 + 8 * r.2
    wr := fun w i v => w.setHbank bank { w.hbank bank with
      roots := (w.hbank bank).roots.put (w.epOf u * 4096 + i) (v % 256) } }

/-- A bank of a router's herd table (R147). -/
def herdRegion (u bank : Nat) : Region :=
  { ent := 8
    count := 4096
    rd := fun s i =>
      let e := s.herdEnt bank u i
      e.mask + e.hctx * 2 ^ 32 + (if e.hvalid then 2 ^ 48 else 0)
    wr := fun w i v => w.setHbank bank { w.hbank bank with
      written := (w.hbank bank).written.put (u * 4096 + i) ⟨bits v 0 32, bits v 32 12, bit v 48⟩ } }

/-- The dead-port marks of a router (R169). -/
def deadRegion (u : Nat) : Region :=
  { ent := 4
    count := 2
    rd := fun s i => if i = 0 then s.rd (rtrB u) KRTR_DEAD_LO.dead_lo else s.rd (rtrB u) KRTR_DEAD_HI.dead_hi
    wr := fun w i v =>
      let ports := (portsOf u).filter (fun p => p / 32 == i)
      let w := w.each (ports.filter (fun p => bit v (p % 32))) (fun w p => w.portDie u p)
      w.each (ports.filter (fun p => !bit v (p % 32))) (fun w p =>
        if p < 32 then w.wr (rtrB u) KRTR_DEAD_LO.dead_lo (setBit (w.rd (rtrB u) KRTR_DEAD_LO.dead_lo) p false)
        else w.wr (rtrB u) KRTR_DEAD_HI.dead_hi (setBit (w.rd (rtrB u) KRTR_DEAD_HI.dead_hi) (p - 32) false)) }

/-- Objects that contexts bind at a station, in the order of the grant kinds of R417: kind of Machine/Flags.lean and
index. -/
def bindOf (i : Nat) : Nat × Nat :=
  if i < 8 then (0, i) else if i < 16 then (1, i - 8) else if i < 272 then (2, i - 16) else if i < 528 then (3, i - 272)
  else if i < 784 then (5, i - 528) else if i < 848 then (7, i - 784) else (6, i - 848)

/-- Object bindings of a station (R179, R241, R284). -/
def bindRegion (st : Nat) : Region :=
  { ent := 4
    count := 864
    rd := fun s i => s.objCtx (bindOf i).1 st (bindOf i).2
    wr := fun w i v => { w with sta.bind := Tbl.set 0 w.sta.bind (objKey (bindOf i).1 st (bindOf i).2) (v % 4096) } }

/-- Window entries of a station (R289): the words of KSTN_WIN_*, with the context that the entry is bound to. -/
def stnWinRegion (st : Nat) : Region :=
  let r := selRegion (stnB st) stnFields [0x908, 0x90C, 0x910, 0x914, 0x918] 16
  { r with
    rd := fun s i =>
      let v := r.rd s i
      let c := bits v 144 12
      v - c * 2 ^ 144 + s.objCtx 6 st i * 2 ^ 144
    wr := fun w i v =>
      let w := r.wr w i v
      { w with sta.bind := Tbl.set 0 w.sta.bind (objKey 6 st i) (bits v 144 12) } }

/-- The member table of a station (R221): the words of KSTN_GRP_*; a write binds or frees the slot. -/
def memberRegion (st : Nat) : Region :=
  { ent := 20
    count := 64
    rd := fun s i => match s.groupIn st i with
      | none => 0
      | some (g, d) =>
        g + 2 ^ 10 + d.ctx * 2 ^ 20 + d.gkey * 2 ^ 32 + (d.lsize + d.rherd * 2 ^ 16) * 2 ^ 64
          + (d.home + (s.redRoute st s.genCur d).length * 32 + d.rroot * 256) * 2 ^ 96 + d.gsize * 2 ^ 128
    wr := fun w i v =>
      if bit v 10 then { w with col.memb := w.col.memb.put (st * 64 + i) (bits v 0 10) }
      else { w with col.memb := w.col.memb.del (st * 64 + i) } }

/-- The circuit window table of an EP (R344). -/
def circuitRegion (e : Nat) : Region :=
  { ent := 32
    count := 256
    rd := fun s i => match (s.epS e).cw.find i with
      | none => 0
      | some c => c.tOpen + c.tClose * 2 ^ 64 + (c.pkg + c.ep * 2 ^ 17 + 2 ^ 23) * 2 ^ 128
    wr := fun w i v =>
      let x := w.epS e
      let t : Tbl CwEnt := if bit v 151 then
          x.cw.put i { tOpen := bits v 0 64, tClose := bits v 64 64, pkg := bits v 128 17, ep := bits v 145 6 }
        else x.cw.del i
      w.setEp e { x with cw := t } }

/-- The descriptor log of a station (R188). -/
def logRegion (st : Nat) : Region :=
  { ent := 96
    count := 512
    ro := true
    rd := fun s i => match s.logAt st i with
      | some l => ofLE l.bytes
      | none => 0
    wr := fun w _ _ => w }

/-- A region of a unit, if the unit has it (R455). -/
def State.region (s : State) (u r : Nat) : Option Region :=
  let st := u - 0x1000
  let isSt : Bool := 0x1000 ≤ u && u < 0x2000
  let isMsp : Bool := 0x2000 ≤ u && u < 0x2040
  let isEp : Bool := 0x2040 ≤ u && u < 0x2080
  let isRt : Bool := u < 0x1000
  let plate : Bool := isSt || isRt || isMsp || isEp
  let comb : Bool := isRR u || isTine u || isBeam u
  let ports := (portsOf u).length + (if isEp then 1 else 0)
  let k := s.plateKey u
  match r with
  | 0x00 => if plate then some (plateRegion k 0x00 true false u (2048 * ports)) else none
  | 0x01 => if comb then some (plateRegion k 0x01 true true u 512) else none
  | 0x02 => if plate then some (plateRegion k 0x02 false false u (2048 * ports)) else none
  | 0x03 => if plate then some (rawRegion u 0x03 (512 * ports + 128)) else none
  | 0x10 => if !isRt then some (routeRegion u 0) else none
  | 0x11 => if !isRt then some (routeRegion u 1) else none
  | 0x12 => if !isRt then some (rootRegion u 0) else none
  | 0x13 => if !isRt then some (rootRegion u 1) else none
  | 0x14 => if isSt || isMsp || isEp then
      some (bitRegion (fun s e => s.deadAt u e)
        (fun w e b => { w with net.deadOver := w.net.deadOver.put (u * 4096 + e) b })) else none
  | 0x20 => if isRt then some (herdRegion u 0) else none
  | 0x21 => if isRt then some (herdRegion u 1) else none
  | 0x22 => if isRt then some (deadRegion u) else none
  | 0x30 => if isRt || isMsp || isEp then
      some (bitRegion (fun s c => s.frozen u c)
        (fun w c b => { w.keepFrz with net.frzOver := w.net.frzOver.put (u * 4096 + c) b })) else none
  | 0x31 => if isSt || isMsp || isEp then
      some (bitRegion (fun s c => s.pkgFenced u c)
        (fun w c b => { w with fenceOver := w.fenceOver.put (u * 4096 + c) b })) else none
  | 0x32 => if isSt then
      some (bitRegion (fun s c => Tbl.get false s.sta.fctx (st * 4096 + c))
        (fun w c b => { w with sta.fctx := Tbl.set false w.sta.fctx (st * 4096 + c) b })) else none
  | 0x40 => if isSt then some (bindRegion st) else none
  | 0x41 => if isSt then some (stnWinRegion st)
      else if isMsp then some (selRegion (sliceB ((u - 0x2000) / 2)) mspFields [0x124, 0x128, 0x12C, 0x130, 0x134] 1024)
      else none
  | 0x42 => if isSt then some (memberRegion st) else none
  | 0x43 => if isEp then some (selRegion (epB (u - 0x2040)) edgFields [0x084, 0x088, 0x08C] 256) else none
  | 0x44 => if isEp then some (circuitRegion (u - 0x2040)) else none
  | 0x50 => if isSt then some (logRegion st) else none
  | 0x60 => if isSt then some (regRegion (stnB st) ((List.range 33).map (fun i => 0xB00 + 4 * i)))
      else if isRR u then some (regRegion (intRB (u - 0x240)) ((List.range 128).map (fun i => 4 * i))) else none
  | 0x70 => if isRR u || isTine u || isEp then some (rawRegion u 0x70 (2 ^ 22)) else none
  | _ => none

/-! ### Performing a folio -/

/-- The register window of a unit (R468), and its bytes. -/
def State.folioWindow (s : State) (u : Nat) : Option (Nat × Nat) :=
  if !s.winUp (winOf (unitB u)) ∨ 0x2080 ≤ u then none
  else some (unitB u, if u < 0x2000 then 0x1000 else 0x10000)

/-- Address of a folio with `space` 0 at a station: an endpoint-window address, or an SRAM address itself. -/
def foSram (p : Packet) : Nat := if isEpWin p.addr then soff p else p.addr

/-- The form of a folio at its unit: what its space requires (R138, R451, R455). -/
def State.folioForm (s : State) (u : Nat) (p : Packet) : Bool :=
  1 ≤ p.len && p.len ≤ 8192 &&
  match foSpace p with
  | 0 =>
    if 0x2000 ≤ u ∧ u < 0x2040 then s.inMem p.addr p.len
    else 0x1000 ≤ u && u < 0x2000 && foSram p + p.len ≤ 2 ^ s.fuse.sramLog2 && !(isEpWin p.addr && toRegs p)
  | 1 => (match s.folioWindow u with
    | some (_, n) => p.addr % 4 == 0 && p.len % 4 == 0 && p.addr + p.len ≤ n
    | none => false)
  | 2 => (match s.region u (bits p.addr 24 8) with
    | some r => bits p.addr 32 31 == 0 && bits p.addr 0 24 + p.len ≤ r.size && (bit p.addr 63 || !r.ro)
    | none => false)
  | _ => false

/-- The status of a folio (R139, R455), or OK. -/
def State.folioCheck (s : State) (u : Nat) (p : Packet) : Nat :=
  firstOf [(!s.folioForm u p, BADOP), (0 < foSpace p && !fromMgmt p, DENIED),
    (p.bad || crc32 p.data != foCrc p, UNCORRECTABLE)]

/-- The answer of a read-back (R456): the same address, transfer and folio numbers, with the contents. -/
def folioBack (a p : Packet) (d : List Byte) : Packet :=
  { a with
    vc := 8
    op := 0x70
    len := d.length
    addr := p.addr % 2 ^ 63
    ext := patch (patch p.ext 5 [0]) 8 (toLE 4 (crc32 d))
    data := d }

/-- Perform a folio that passed its checks; `ans` makes the answer to it. A read-back answers with the contents, a write to
memory when it is visible, anything else with OK. -/
def W.folioDo (w : W) (u : Nat) (p : Packet) (ok : W → W) (back : W → List Byte → W) : W :=
  match foSpace p with
  | 0 =>
    if 0x2000 ≤ u ∧ u < 0x2040 then
      let a := loff p.addr
      let w := w.each (List.range 33) (fun w i =>
        let lo := max a ((a / 256 + i) * 256)
        let hi := min (a + p.len) ((a / 256 + i + 1) * 256)
        if hi ≤ lo then w
        else w.memIssue { port := u - 0x2000, addr := lo, data := (p.data.drop (lo - a)).take (hi - lo), poison := 0,
                          act := .answer { p with ack := true } })
      w.each (splitLines (p.len + 1) a 0 p.data) (fun w x => w.writeSnoops (portOf x.1) x.1 x.2.1)
    else
      let st := u - 0x1000
      let a := foSram p
      let parts := splitLines (p.len + 1) a 0 p.data
      w.each parts (fun w x => w.toPort st x.1 x.2.1 false (x.1 % 64 == 0 && x.2.1.length == 64)
        (if x.2.2 + 1 = parts.length then .answer p else .nothing))
  | 1 =>
    (match w.folioWindow u with
    | some (b, _) =>
      ok (w.each (List.range (p.len / 4)) (fun w i => w.regWrite (b + p.addr + 4 * i) (le p.data (4 * i) 4) (whoOf p)))
    | none => w)
  | _ =>
    (match w.region u (bits p.addr 24 8) with
    | none => w
    | some r =>
      let off := bits p.addr 0 24
      if bit p.addr 63 then back w (r.read w.toState off p.len) else ok (r.write w off p.data))

/-- The next folio for a router's own configuration space, on input `port`: `hop_ptr` has reached `hops` (R138). -/
def State.routerFolio (s : State) (u port : Nat) : Option (Nat × Buf) :=
  let l := s.buf u port 8
  match l.findIdx? (fun b => !b.routed && !b.drop) with
  | none => none
  | some i => match l[i]? with
    | none => none
    | some b => if unitStop b.pkt && b.pkt.hopPtr == b.pkt.hops && b.last && !b.pkt.herdMode then some (i, b) else none

/-- A memory port has a tag for a write of a folio (R291). -/
def State.folioRoom (s : State) (u : Nat) : Bool := !(0x2000 ≤ u && u < 0x2040) || s.memOpen (u - 0x2000) + 33 ≤ 1024

/-- FOLIO (R139, R455, R456): a target takes the next folio, or a router the folio that stops at it. A folio that answers a
read-back goes to its requester. -/
def effFolio (unit port : Nat) (w : W) : W :=
  if isRouter unit then
    match w.routerFolio unit port with
    | none => w
    | some (i, b) =>
      let p := b.pkt
      let w := w.dropNth unit port 8 i
      let chk := w.folioCheck unit p
      let hs := port :: (List.range p.hopPtr).reverse.map p.hopAt
      let a : Packet := { ansTo p p.dst with byRouter := true, hop := hopList hs, hops := p.hopPtr + 1, hopPtr := 1 }
      if chk ≠ OK then w.rtrAns unit port p chk
      else w.folioDo unit p (fun w => w.rtrAns unit port p OK) (fun w d =>
        let q := folioBack a p d
        w.pushBuf unit pAns { pkt := q, arrived := q.size, last := true, routed := true, copies := [{ port := port, pkt := q }] })
  else
    match w.takeAny unit (fun p => p.op == 0x70 && (p.ans != 0 || foSpace p != 0 || w.folioRoom unit)) with
    | none => w
    | some (p, w) =>
      if p.ans ≠ 0 then (if unit = uHost then { w with boot.toHost := w.boot.toHost ++ [p] } else w) else
      let chk := w.folioCheck unit p
      if chk ≠ OK then w.cmp unit p chk
      else w.folioDo unit p (fun w => w.cmp unit p OK) (fun w d => w.reply unit (folioBack (ansTo p p.dst) p d))

/-! ### The commands of this family -/

/-- FOLIO (R139). -/
def execFolio (unit port : Nat) (s : State) : Host.Outcome State Fault Refusal :=
  run (effFolio unit port) s

end Sys2Proof.Machine
end

