-- ==== Sys2Proof/Machine/Gov.lean ====
section
/-! DEFINITION. The current-step governor (R470 to R472, R474): the target's steps, the lend duty, the monitor. -/

namespace Sys2Proof.Machine

/-- The draw of the plate in force under the q of this period, with the block's own draw, in mW (R472). -/
def State.plateDraw (s : State) : Nat :=
  s.coef 7 + drawAt (match s.running with | some p => s.platePower p | none => 0) (s.rd hrdB KPLT_PAUSE.q_now)

/-- Lanes of the wide links of the package, both directions (R27): per active region 16 station links of one lane, 4
cluster uplinks and 4 region uplinks; then tine-beam, tine-MSP and tine-EP links. -/
def State.wideLanes (s : State) : Nat :=
  2 * (2 * s.fuse.cdActive * (16 + 16 + 16) + 4 * (s.fuse.tines * s.beamsLive.length + 2 * s.fuse.slices + s.fuse.edgePorts))

/-- Lane-slots that a plate reserves in a period (R473). -/
def Plate.laneSlots (p : Plate) : Nat :=
  p.secs.foldl (fun n e => n + e.2.runs.foldl (fun m r => m + r.length * r.lanes.length) 0) 0

/-- Free lanes of wide links, as an average over the period (R472). -/
def State.lanesFree (s : State) : Nat :=
  s.wideLanes - (match s.running with
    | some p => p.laneSlots / (64 * p.blocks)
    | none => 0)

/-- The lend duty of a block (R472): the largest d from 1 to 64 at which the DAT class may use d/64 of its free lanes in
full within the target. -/
def State.lendDuty (s : State) : Nat :=
  (((List.range 64).map (fun i => 64 - i)).find? (fun d => s.plateDraw + s.datPower s.lanesFree d ≤ s.plt.pT)).getD 1

/-- The governor's estimate of the block's own draw P_R, and the ballast that fills it up to P_T (R470, R471). -/
def W.estimate (w : W) : W :=
  let r := w.plateDraw + w.datPower w.datWaiting w.plt.duty
  { w with plt.pR := r, plt.ballast := w.plt.pT - r, plt.pD := w.demand }

/-- BLOCK_START (R472): in the first fc of a block of 64 slots the lend duty is set; a block below 64 counts. -/
def effBlockStart (w : W) : W :=
  if w.isPaused ∨ w.plt.blockDone ∨ w.slotIdx % 64 ≠ 0 then w else
  let d := w.lendDuty
  let w := { w with plt.duty := d, plt.blockDone := true }
  (if d < 64 then w.inc gblB KGBL_GOV_EVT.duty_cut else w).estimate

/-- P_T after one step of at most 1 W toward the demand, in whole watts (R470). -/
def stepToward (t d : Nat) : Nat :=
  if t + 1000 ≤ d then t + 1000 else if d + 1000 ≤ t then t - 1000 else t

/-- TARGET_STEP (R470, R471): every 125 fc P_T moves by at most 1 W toward P_D. -/
def effTargetStep (w : W) : W :=
  if w.fc < w.plt.govFc + 125 then w else
  { w with plt.pT := stepToward w.plt.pT w.demand, plt.govFc := w.fc }.estimate

/-- Two draws of consecutive microseconds differ by more than 20 W (R474). -/
def jumps (a b : Nat) : Bool := a + 20000 < b || b + 20000 < a

/-- GOV_MONITOR (R382, R474): each microsecond; a jump of the draw or a difference between request and control sets GOV,
which stays present as long as it is found. -/
def effGovMonitor (d : Draws) (w : W) : W :=
  if w.fc % 2000 ≠ 0 ∨ w.plt.monFc = w.fc + 1 then w else
  let found := d.differs || (match w.plt.monLast with
    | some x => jumps x d.measured
    | none => false)
  let w := { w with plt.monLast := some d.measured, plt.monFc := w.fc + 1 }
  if found then (w.setPresent clGOV true).fault clGOV (locPkg 6)
  else if bit w.flt.present clGOV then w.setPresent clGOV false else w

/-! ### The commands of this family -/

/-- BLOCK_START (R472). -/
def execBlockStart (s : State) : Host.Outcome State Fault Refusal :=
  run (effBlockStart) s

/-- TARGET_STEP (R470). -/
def execTargetStep (s : State) : Host.Outcome State Fault Refusal :=
  run (effTargetStep) s

/-- GOV_MONITOR (R474). -/
def execGovMonitor (d : Draws) (s : State) : Host.Outcome State Fault Refusal :=
  run (effGovMonitor d) s

end Sys2Proof.Machine
end

