-- ==== Sys2Proof/Machine/Crypto.lean ====
section
/-! DEFINITION. The cryptography that a patch image is checked with (R457, R458): SHA-384 and ECDSA over P-384. The spec
names the algorithms and gives no constants or steps: they are those of FIPS 180-4 and FIPS 186 (PRESUMED, log). -/

namespace Sys2Proof.Machine

/-- Big-endian number of bytes (R457). -/
def ofBE (b : List Byte) : Nat := b.foldl (fun n x => n * 256 + x.toNat) 0

/-! ### SHA-384 -/

def shaK0 : List Nat := [
  0x428A2F98D728AE22, 0x7137449123EF65CD, 0xB5C0FBCFEC4D3B2F,
   0xE9B5DBA58189DBBC, 0x3956C25BF348B538, 0x59F111F1B605D019,
   0x923F82A4AF194F9B, 0xAB1C5ED5DA6D8118, 0xD807AA98A3030242,
   0x12835B0145706FBE, 0x243185BE4EE4B28C, 0x550C7DC3D5FFB4E2,
   0x72BE5D74F27B896F, 0x80DEB1FE3B1696B1, 0x9BDC06A725C71235,
   0xC19BF174CF692694, 0xE49B69C19EF14AD2, 0xEFBE4786384F25E3,
   0x0FC19DC68B8CD5B5, 0x240CA1CC77AC9C65]
def shaK1 : List Nat := [
  0x2DE92C6F592B0275, 0x4A7484AA6EA6E483, 0x5CB0A9DCBD41FBD4,
   0x76F988DA831153B5, 0x983E5152EE66DFAB, 0xA831C66D2DB43210,
   0xB00327C898FB213F, 0xBF597FC7BEEF0EE4, 0xC6E00BF33DA88FC2,
   0xD5A79147930AA725, 0x06CA6351E003826F, 0x142929670A0E6E70,
   0x27B70A8546D22FFC, 0x2E1B21385C26C926, 0x4D2C6DFC5AC42AED,
   0x53380D139D95B3DF, 0x650A73548BAF63DE, 0x766A0ABB3C77B2A8,
   0x81C2C92E47EDAEE6, 0x92722C851482353B]
def shaK2 : List Nat := [
  0xA2BFE8A14CF10364, 0xA81A664BBC423001, 0xC24B8B70D0F89791,
   0xC76C51A30654BE30, 0xD192E819D6EF5218, 0xD69906245565A910,
   0xF40E35855771202A, 0x106AA07032BBD1B8, 0x19A4C116B8D2D0C8,
   0x1E376C085141AB53, 0x2748774CDF8EEB99, 0x34B0BCB5E19B48A8,
   0x391C0CB3C5C95A63, 0x4ED8AA4AE3418ACB, 0x5B9CCA4F7763E373,
   0x682E6FF3D6B2B8A3, 0x748F82EE5DEFB2FC, 0x78A5636F43172F60,
   0x84C87814A1F0AB72, 0x8CC702081A6439EC]
def shaK3 : List Nat := [
  0x90BEFFFA23631E28, 0xA4506CEBDE82BDE9, 0xBEF9A3F7B2C67915,
   0xC67178F2E372532B, 0xCA273ECEEA26619C, 0xD186B8C721C0C207,
   0xEADA7DD6CDE0EB1E, 0xF57D4F7FEE6ED178, 0x06F067AA72176FBA,
   0x0A637DC5A2C898A6, 0x113F9804BEF90DAE, 0x1B710B35131C471B,
   0x28DB77F523047D84, 0x32CAAB7B40C72493, 0x3C9EBE0A15C9BEBC,
   0x431D67C49C100D4C, 0x4CC5D4BECB3E42B6, 0x597F299CFC657E2A,
   0x5FCB6FAB3AD6FAEC, 0x6C44198C4A475817]

/-- The round constants. -/
def shaK : List Nat := shaK0 ++ shaK1 ++ shaK2 ++ shaK3

/-- The initial hash value of SHA-384. -/
def sha384Init : List Nat := [
  0xCBBB9D5DC1059ED8, 0x629A292A367CD507, 0x9159015A3070DD17,
   0x152FECD8F70E5939, 0x67332667FFC00B31, 0x8EB44A8768581511,
   0xDB0C2E0D64F98FA7, 0x47B5481DBEFA4FA4]

def rotr64 (x n : Nat) : Nat := x / 2 ^ n ||| (x * 2 ^ (64 - n) % 2 ^ 64)

/-- The message schedule, newest word first: `n` words more. -/
def shaSchedule : Nat → List Nat → List Nat
  | 0, w => w
  | n + 1, w =>
    let x := w.getD 14 0
    let y := w.getD 1 0
    let s0 := rotr64 x 1 ^^^ rotr64 x 8 ^^^ (x / 2 ^ 7)
    let s1 := rotr64 y 19 ^^^ rotr64 y 61 ^^^ (y / 2 ^ 6)
    shaSchedule n ((w.getD 15 0 + s0 + w.getD 6 0 + s1) % 2 ^ 64 :: w)

/-- One round on the eight working variables. -/
def shaRound (v : List Nat) (kw : Nat × Nat) : List Nat :=
  let a := v.getD 0 0
  let b := v.getD 1 0
  let c := v.getD 2 0
  let e := v.getD 4 0
  let f := v.getD 5 0
  let g := v.getD 6 0
  let ch := (e &&& f) ^^^ ((2 ^ 64 - 1 - e) &&& g)
  let maj := (a &&& b) ^^^ (a &&& c) ^^^ (b &&& c)
  let t1 := v.getD 7 0 + (rotr64 e 14 ^^^ rotr64 e 18 ^^^ rotr64 e 41) + ch + kw.1 + kw.2
  let t2 := (rotr64 a 28 ^^^ rotr64 a 34 ^^^ rotr64 a 39) + maj
  [(t1 + t2) % 2 ^ 64, a, b, c, (v.getD 3 0 + t1) % 2 ^ 64, e, f, g]

/-- Cut `n` words of 8 bytes. -/
def words8 : Nat → List Byte → List Nat
  | 0, _ => []
  | n + 1, b => ofBE (b.take 8) :: words8 n (b.drop 8)

/-- The compression of one block of 128 bytes. -/
def shaBlock (h : List Nat) (b : List Byte) : List Nat :=
  let w := (shaSchedule 64 (words8 16 b).reverse).reverse
  let v := (shaK.zip w).foldl shaRound h
  (h.zip v).map (fun x => (x.1 + x.2) % 2 ^ 64)

/-- Hash `n` blocks. -/
def shaBlocks : Nat → List Nat → List Byte → List Nat
  | 0, h, _ => h
  | n + 1, h, b => shaBlocks n (shaBlock h (b.take 128)) (b.drop 128)

/-- SHA-384 of a message, as a number. -/
def sha384 (m : List Byte) : Nat :=
  let z := (111 + 128 - m.length % 128) % 128
  let p := m ++ [0x80] ++ List.replicate z 0 ++ (toLE 16 (8 * m.length)).reverse
  ((shaBlocks (p.length / 128) sha384Init p).take 6).foldl (fun n x => n * 2 ^ 64 + x) 0

/-! ### ECDSA over P-384 -/

def p384 : Nat := 2 ^ 384 - 2 ^ 128 - 2 ^ 96 + 2 ^ 32 - 1
def p384n : Nat :=
  0xFFFFFFFFFFFFFFFFFFFFFFFFFFFFFFFFFFFFFFFFFFFFFFFFC7634D81F4372DDF581A0DB248B0A77AECEC196ACCC52973
def p384b : Nat :=
  0xB3312FA7E23EE7E4988E056BE3F82D19181D9C6EFE8141120314088F5013875AC656398D8A2ED19D2A85C8EDD3EC2AEF
def p384gx : Nat :=
  0xAA87CA22BE8B05378EB1C71EF320AD746E1D3B628BA79B9859F741E082542A385502F25DBF55296C3A545E3872760AB7
def p384gy : Nat :=
  0x3617DE4A96262C6F5D9E98BF9292DC29F8F41DBD289A147CE9DA3113B5F0B8C00A60B1CE1D7E819D7A431D7C90EA0E5F

/-- Powers modulo `m`, over the low bits of the exponent. -/
def powMod (m : Nat) : Nat → Nat → Nat → Nat → Nat
  | 0, _, _, acc => acc
  | f + 1, b, e, acc => powMod m f (b * b % m) (e / 2) (if e % 2 = 1 then acc * b % m else acc)

/-- The inverse modulo a prime. -/
def invMod (m a : Nat) : Nat := powMod m 384 (a % m) (m - 2) 1

/-- A point of the curve in three coordinates: (x, y, z) is the point (x / z², y / z³), and z = 0 the point at infinity. -/
structure Pt where
  x : Nat
  y : Nat
  z : Nat
  deriving DecidableEq, Repr

/-- The curve equation y² = x³ − 3x + b holds. -/
def onCurve (x y : Nat) : Bool := x < p384 && y < p384 && y * y % p384 == (x * x * x + (p384 - 3) * x + p384b) % p384

/-- Differences modulo the field's prime. -/
def subP (a b : Nat) : Nat := (a + p384 - b % p384) % p384

/-- A point added to itself. -/
def ptDouble (a : Pt) : Pt :=
  let yy := a.y * a.y % p384
  let zz := a.z * a.z % p384
  let m := 3 * ((a.x + zz) * subP a.x zz) % p384
  let s := 4 * a.x * yy % p384
  let x := subP (m * m) (2 * s)
  { x := x, y := subP (m * subP s x) (8 * yy * yy), z := 2 * a.y * a.z % p384 }

/-- Point addition. -/
def ptAdd (a b : Pt) : Pt :=
  if a.z = 0 then b else if b.z = 0 then a else
  let aa := a.z * a.z % p384
  let bb := b.z * b.z % p384
  let u := a.x * bb % p384
  let s := a.y * b.z * bb % p384
  let h := subP (b.x * aa) u
  let r := subP (b.y * a.z * aa) s
  if h = 0 then (if r = 0 then ptDouble a else { x := 1, y := 1, z := 0 }) else
  let hh := h * h % p384
  let v := u * hh % p384
  let x := subP (r * r) (hh * h + 2 * v)
  { x := x, y := subP (r * subP v x) (s * hh * h), z := a.z * b.z * h % p384 }

/-- Scalar multiplication over the low bits of the scalar. -/
def ptMul : Nat → Nat → Pt → Pt → Pt
  | 0, _, _, acc => acc
  | f + 1, k, q, acc => ptMul f (k / 2) (ptDouble q) (if k % 2 = 1 then ptAdd acc q else acc)

/-- A signature (r, s) of a hash `e` verifies under a public key. -/
def ecdsaOk (x y r s e : Nat) : Bool :=
  if !onCurve x y ∨ r = 0 ∨ p384n ≤ r ∨ s = 0 ∨ p384n ≤ s then false
  else
    let w := invMod p384n s
    let a := ptMul 384 (e * w % p384n) { x := p384gx, y := p384gy, z := 1 } { x := 1, y := 1, z := 0 }
    let q := ptMul 384 (r * w % p384n) { x := x, y := y, z := 1 } a
    q.z != 0 && q.x * invMod p384 (q.z * q.z) % p384 % p384n == r

end Sys2Proof.Machine
end

