-- ==== Sys2Proof/Machine/Mgmt.lean ====
section
/-! DEFINITION. The management port's packets (R132, R451), patches (R457, R458), and the circuit window table (R344). -/

namespace Sys2Proof.Machine

/-! ### Host packets -/

/-- Beats of 32 B that the host attachment holds for a VC (R451). -/
def State.hostBeats (s : State) (vc : Nat) : Nat :=
  (s.buf uHost pInj vc).foldl (fun n b => n + (b.pkt.size + 31) / 32) 0

/-- A packet that the host presents is well formed (R132, R133) and goes to a defined endpoint or a herd. -/
def hostOk (p : Packet) : Bool :=
  (p.ext.length == 0 || p.ext.length == 32) && opOk p && operandsOk p && (p.herdMode || p.dst ≤ 0x881) && p.dst < 4096

/-- The packet as the block takes it: 0x881 in `src`, its generation and route its own affair; a folio for a router keeps
the hop list that the host gives (R138). -/
def State.hostTaken (s : State) (p : Packet) : Packet :=
  let q : Packet := { p with src := 0x881, gen := s.genCur, hopPtr := 0, ans := 0, ref := 0, sref := 0, refs := [] }
  if unitStop q then q else { q with hops := 0, hop := 0 }

/-- HOST_PACKET (R132, R451): a packet from the management port, once the port is ready and its VC has room. -/
def effHostPacket (p : Packet) (w : W) : W :=
  if w.rd gblB KGBL_BOOT.mp_ready = 0 ∨ 64 ≤ w.hostBeats p.vc then w
  else
    let q := w.hostTaken p
    if !hostOk p then
      { w with boot.toHost := w.boot.toHost ++ [{ ansTo q q.dst with status := BADOP, hops := 0, hop := 0 }] }
    else w.inject uHost q (routed := unitStop q)

/-! ### Patches -/

/-- Hooks are well formed: reserved bits 0. -/
def hooksOk : Nat → List Byte → Bool
  | 0, _ => true
  | n + 1, b => le b 2 2 == 0 && hooksOk n (b.drop 8)

/-- The form of a patch image of `n` bytes (R457). -/
def patchForm (b : List Byte) (n : Nat) : Bool :=
  let body := le b 8 4
  let hooks := bits (le b 12 2) 0 7
  le b 0 4 == 0x4854504B && le b 4 2 == 0x0003 && body % 4 == 0 && hooks ≤ 64 && bits (le b 12 2) 7 9 == 0
    && le b 14 2 == 0 && le b 208 48 == 0 && body + 8 * hooks ≤ 131072 && n == 256 + 8 * hooks + body
    && hooksOk hooks (b.drop 256)

/-- The checks 1 to 3 of R458. -/
def State.patchSigned (s : State) (b : List Byte) : Bool :=
  let part (o n : Nat) : List Byte := (b.drop o).take n
  s.fuse.keyHash != 0 && sha384 (part 16 96) == s.fuse.keyHash && s.fuse.psvMin ≤ le b 6 2
    && ecdsaOk (ofBE (part 16 48)) (ofBE (part 64 48)) (ofBE (part 112 48)) (ofBE (part 160 48)) (sha384 (b.take 112 ++ b.drop 208))

/-- A refused PATCH_LOAD leaves the ROM, or the patch already loaded, in charge. -/
def W.patchRefuse (w : W) (q slot status : Nat) : W :=
  (if w.boot.patch.isNone then w.wr gblB KGBL_PATCH.pstate 3 else w).answer q slot status (toLE 2 (w.rd gblB KGBL_PATCH.psv))

/-- PATCH_LOAD (R457, R458, R513). -/
def effPatchLoad (q slot : Nat) (w : W) : W :=
  match w.cmdAt q slot 0x0003 with
  | none => w
  | some c =>
    let a := le c.bytes 16 8
    let n := le c.bytes 24 4
    let sized := 256 ≤ n && n ≤ 256 + 131072
    let early := firstOf [(!sized || !w.rangeOk a n, BADOP), (w.fuse.keyHash == 0, DENIED), (w.boot.patch.isSome, ALREADY)]
    if early = BADOP then w.patchRefuse q slot BADOP else
    let got := w.imageStatus (loff a) n
    if got ≠ OK then w.patchRefuse q slot (if early ≠ OK then early else got) else
    let b := w.memRead (loff a) n
    let st := firstOf [(!patchForm b n, BADOP), (!w.patchSigned b, DENIED), (w.boot.patch.isSome, ALREADY)]
    if st ≠ OK then w.patchRefuse q slot st
    else
      let psv := le b 6 2
      let w := (w.wr gblB KGBL_PATCH.pstate 2).wr gblB KGBL_PATCH.psv psv
      { w with boot.patch := some b }.answer q slot OK (toLE 2 psv)

/-! ### Circuit windows -/

/-- Two windows lie less than `g` ticks apart. -/
def closer (a b : CwEnt) (g : Nat) : Bool := a.tOpen < b.tClose + g && b.tOpen < a.tClose + g

/-- CIRCUIT_TABLE (R344). -/
def effCircuitTable (q slot : Nat) (w : W) : W :=
  match w.cmdAt q slot 0x0090 with
  | none => w
  | some c =>
    let e := bits (le c.bytes 16 1) 0 6
    let i := le c.bytes 17 1
    let word := le c.bytes 48 4
    let n : CwEnt := { tOpen := le c.bytes 32 8, tClose := le c.bytes 40 8, pkg := bits word 0 17, ep := bits word 17 6 }
    let lead := w.rd (epB e) KEDG_CW_CFG.cw_lead
    let d := since n.tClose n.tOpen
    let others := (w.epS e).cw.filter (fun x => x.1 != i)
    let form := e < w.fuse.edgePorts && bits word 24 8 == 0 && le c.bytes 52 12 == 0 && 4096 ≤ d && d ≤ 2 ^ 32
      && !others.any (fun x => closer n x.2 (lead + 2048))
    let busy : Bool := match (w.epS e).cw.find i with
      | some x => x.tOpen ≤ w.herdTime + lead && w.herdTime < x.tClose
      | none => false
    let st := firstOf [(!form, BADOP), (busy, BUSY)]
    if st ≠ OK then w.answer q slot st
    else
      let p := w.epS e
      let t : Tbl CwEnt := if bit word 23 then p.cw.put i n else p.cw.del i
      (w.setEp e { p with cw := t }).answer q slot OK

/-! ### The commands of this family -/

/-- HOST_PACKET (R451). -/
def execHostPacket (p : Packet) (s : State) : Host.Outcome State Fault Refusal :=
  run (effHostPacket p) s

/-- PATCH_LOAD (R458). -/
def execPatchLoad (q slot : Nat) (s : State) : Host.Outcome State Fault Refusal :=
  run (effPatchLoad q slot) s

/-- CIRCUIT_TABLE (R344). -/
def execCircuitTable (q slot : Nat) (s : State) : Host.Outcome State Fault Refusal :=
  run (effCircuitTable q slot) s

end Sys2Proof.Machine
end

