-- ==== Sys2Proof/Machine/Reinit.lean ====
section
/-! DEFINITION. FUNC_REINIT of the functions F1 to F6 (R101, R174, R238, R268, R312, R352, R501, R435 to R437). -/

namespace Sys2Proof.Machine

/-! ### F1: herd time and plates (R60, R69, R101) -/

/-- The period in progress is cut at the end of its block, and the first nominal period takes its q (R69). A period whose
slot 0 is still to come in this fc, or after it, is cut to its first block and fixes no q. -/
def W.cutPeriod (w : W) : W :=
  if w.running.isNone && w.plt.drain.isNone then w
  else if w.atBoundary then { w with plt.cut := true }
  else { w with plt.curN := (w.slotIdx / 64 + 1) * 64, plt.decisionDone := true, plt.qNext := none }

/-- Both buffers are cleared and nothing of a plate is left pending. -/
def W.clearPlates (w : W) : W :=
  let w := (w.cutPeriod.armEnd ABORTED).loadEnd ABORTED
  let l := w.plt.aborts
  let w := { w with plt.aborts := [], plt.abortPend := none }
  let w := w.each l (fun w x => w.answer x.1 x.2 ABORTED)
  let w := (w.strmsEnd (fun _ _ _ => true) ABORTED).setStaged none
  let w := { w with
    plt.active := none
    plt.drain := none
    plt.laneDrain := []
    plt.retirePend := 0
    plt.killPend := []
    plt.swapFire := false
    plt.haltPend := none
    plt.haltDone := true
    sch.flights := w.sch.flights.filter (fun f => f.cell.piece.isSome) }
  ((((w.wr hrdB KPLT_STATUS.active_valid 0).wr hrdB KPLT_STATUS.halted 0).wr hrdB KPLT_STATUS.active_plate_id 0).setRetired 0).showPlate

/-- FUNC_REINIT of F1. -/
def W.reinitPlates (w : W) : W :=
  let w := w.clearPlates
  let w := (w.setHtu 0).wr hrdB KHRD_STATUS.free_run 0
  match w.plt.reply with
  | some (q, sl) => { w with plt.reply := none }.answer q sl ABORTED
  | none => w

/-! ### F2: the arbitrated plane (R174, R437) -/

/-- The running search ends, when its engine is of one of the classes `sel` (R436). -/
def W.searchBreak (w : W) (sel : Nat → Bool) : W :=
  match w.cx.search with
  | none => w
  | some s => if sel s.cls then ({ w.keepFrz with cx.hold := [] }.searchEnd).inc gblB KGBL_HANG_CNT.unresolved else w

/-- Every outstanding request completes ABORTED at its requester, every posted write not counted too. -/
def W.abortRequests (w : W) : W :=
  let l := w.net.req
  let w := { w with net.req := l.filter (fun e => !e.2.late) }
  let w := w.each (l.filter (fun e => !e.2.late)) (fun w e =>
    w.deliver (e.1 / 2 ^ 20) { ansTo e.2.pkt e.2.pkt.dst with status := ABORTED, hops := 0 })
  let ps := w.sta.posted
  let w := { w with sta.posted := [] }
  w.each ps (fun w e => ((w.each e.2 (fun w x => match x.desc with
    | some d => w.xferAns e.1 d ABORTED 0
    | none => w)).irqB e.1 14).fences e.1)

/-- FUNC_REINIT of F2: its state after it is CURRENT g, with none draining, staged or to be committed (R167). A ROUTE_COMMIT
not yet in effect ends ABORTED (DEDUCED, log). -/
def W.reinitArb (w : W) : W :=
  let w := { w with net.q := [], net.used := [], net.owed := [], net.arbs := [], net.stale := [], sta.fresh := [],
                    sch.flights := w.sch.flights.filter (fun f => f.cell.piece.isNone) }
  let w := w.heldCtxEnd (fun _ _ => true) ABORTED
  let w := w.abortRequests
  let w := if w.draining then w.retireGen else w
  let w := w.wr gblB KGBL_RGEN.staging 0
  let w := match w.net.commit with
    | some c => { w with net.commit := none }.answer c.q c.slot ABORTED
    | none => w
  let w := w.loadEnd ABORTED
  let w := if w.flt.spare.isSome then w.spareEnd ABORTED else w
  w.searchBreak (fun _ => true)

/-! ### F3: reduction, pooling and merge (R238, R268) -/

/-- FUNC_REINIT of F3. -/
def W.reinitRed (w : W) : W :=
  let w := w.each (w.col.open_) (fun w e => w.collEnd (e.1 / 512) (e.1 % 512) ABORTED 0)
  let folds := w.col.fold
  let w := w.each folds (fun w e => w.delFold (e.1 / 32) (e.1 % 32))
  let rs := w.col.rctx
  let w := { w with col.rctx := [], sch.esig := [], net.q := w.net.q.filter (fun e => !(isTine (e.1 / 1024) && e.1 / 16 % 64 == pRin)) }
  let w := w.each rs (fun w e => w.rctxCount (e.1 / 512))
  let w := w.each w.col.bag (fun w b => w.bagEnd (b.1 / 64) (b.1 % 64) ABORTED)
  let ps := w.col.pool
  let w := { w with col.pool := [], col.rows := w.col.rows.filter (fun e => e.2.pkt.op != 0x40) }
  let w := w.each ps (fun w e => w.poolCount (e.1 / 1024))
  let w := w.each w.col.mrg (fun w e => w.mrgAnswer (e.1 / 512) e.1 ABORTED)
  w.searchBreak (fun c => 1 ≤ c && c ≤ 4)

/-! ### F4: coherence (R312) -/

/-- A coherent request of a near cache. -/
def nearOp (op : Nat) : Bool := op == 0x04 || op == 0x05 || op == 0x06

/-- Recall one entry: every holder is flushed; answers to snoops already out count too. -/
def W.recallOne (w : W) (key : Nat) : W :=
  match w.msp.dir.find key with
  | none => w
  | some e =>
    let w := w.snoop (portOf (e.line * 64)) key { e with pend := none } 0x52 e.ptrs none
    let w := w.setDir key (match w.msp.dir.find key with
      | some x => { x with acks := x.acks + e.acks, lost := e.lost, wbWait := e.wbWait, upd := e.upd }
      | none => e)
    w.dirFinish key

/-- Open coherent requests complete ABORTED at their cores, and leave the memory ports. -/
def W.abortCoherent (w : W) : W :=
  let mine (r : Req) : Bool := nearOp r.pkt.op && !r.late
  let cores := w.net.req.filterMap (fun e => match e.2.own with
    | .core tag _ => if mine e.2 then some (e.1 / 2 ^ 20 - 0x1000, tag) else none
    | _ => none)
  let w := { w with
    net.req := w.net.req.map (fun (e : Nat × Req) => if mine e.2 then (e.1, { e.2 with late := true }) else e)
    msp.defer := []
    msp.intake := (w.msp.intake.map (fun (e : Nat × List Packet) => (e.1, e.2.filter (fun (p : Packet) => !nearOp p.op)))).filter (fun e => e.2 != []) }
  w.each cores (fun w x => w.coreDone x.1 x.2 ABORTED 0 [] 0)

/-- Requests that wait on an entry or in a deferral pool, not of near caches: READ, ATOMIC, EVICT and POOL_READ. -/
def State.deferredOther (s : State) : List (Nat × Packet) :=
  (s.msp.defer.flatMap (fun e => e.2) ++ s.msp.dir.filterMap (fun e => e.2.pend)).filter (fun x => !nearOp x.2.op)

/-- FUNC_REINIT of F4 begins: every entry is recalled; walks are replaced. -/
def W.reinitCoh (w : W) : W :=
  let back := w.deferredOther
  let w := w.abortCoherent
  let w := w.each back (fun w x => w.cmp (uMsp x.1) x.2 ABORTED (if x.2.op = 0x40 then popc (pxMask x.2) 16 else 0))
  let w := { w with msp.walks := [] }
  let w := w.each (w.msp.dir.map (fun e => e.1)) (fun w k => w.recallOne k)
  let w := w.each (List.range w.fuse.slices) (fun w s => w.dirCount s)
  w.searchBreak (fun c => c == 5)

/-- The recall has ended: no entry waits for one. -/
def State.recalled (s : State) : Bool := !s.msp.dir.any (fun e => e.2.busy && e.2.pend.isNone)

/-- A FUNC_REINIT of F4 completes once the recall has ended; fences that its recall replaced complete too (R437). -/
def W.reinitPoll (w : W) : W :=
  match w.cx.reinit with
  | none => w
  | some (q, slot) => if w.recalled ∧ w.miomusUp then ({ w with cx.reinit := none }.answer q slot OK).fencePoll else w

/-! ### F6: observability (R501) -/

/-- A register key is an event counter's count or overflow flag. -/
def isEcnt (k : Nat) : Bool :=
  let a := k / 32 % 2 ^ 26
  let wn := winOf a
  wn.evType.isSome && ((K_ECNT.ecnt.here (a - wn.base)).isSome || (K_EOVF.eovf.here (a - wn.base)).isSome)

/-- FUNC_REINIT of F6. -/
def W.reinitObs (w : W) : W :=
  let rs := w.obs.samp ++ w.obs.reads
  let w := { w with
    regs := w.regs.filter (fun e => !isEcnt e.1)
    obs.cap := []
    obs.capT0 := w.herdTime
    obs.trc := []
    obs.reads := []
    obs.samp := [] }
  let w := w.each (List.range 16) (fun w b =>
    let st := w.rd obsB (KOBS_TRC_STAT.tstate.at b)
    let w := w.wr obsB (KOBS_TRC_STAT.tcount.at b) 0
    if st = 1 ∨ st = 2 then w.wr obsB (KOBS_TRC_STAT.tstate.at b) 3 else w)
  let w := w.each rs (fun w r => w.readDone r ABORTED 0)
  w.each (w.boot.cmds.filter (fun c => c.op == 0x71 || c.op == 0x72)) (fun w c => w.answer c.q c.slot ABORTED)

/-! ### The commands -/

/-- FUNC_REINIT of function `n` (R23, R435, R467): one at a time; function 0 or 7 is refused, with function 1's row. -/
def W.funcReinit (w : W) (q slot n : Nat) (f : W → W) : W :=
  match w.cmdAt q slot 0x0060 with
  | none => w
  | some c =>
    let fn := bits (le c.bytes 16 1) 0 3
    if fn ≠ n ∧ !(n = 1 ∧ (fn = 0 ∨ fn = 7)) then w
    else
      let st := firstOf [(fn == 0 || fn == 7, BADOP), (w.cx.reinit.isSome, BUSY)]
      if st ≠ OK then w.answer q slot st else f w

/-- FUNC_REINIT_F1 (R101). -/
def effFuncReinitF1 (q slot : Nat) (w : W) : W := w.funcReinit q slot 1 (fun w => w.reinitPlates.answer q slot OK)
/-- FUNC_REINIT_F2 (R174). -/
def effFuncReinitF2 (q slot : Nat) (w : W) : W := w.funcReinit q slot 2 (fun w => w.reinitArb.answer q slot OK)
/-- FUNC_REINIT_F3 (R238, R268). -/
def effFuncReinitF3 (q slot : Nat) (w : W) : W := w.funcReinit q slot 3 (fun w => w.reinitRed.answer q slot OK)
/-- FUNC_REINIT_F4 (R312): it completes when the recall has ended. -/
def effFuncReinitF4 (q slot : Nat) (w : W) : W :=
  w.funcReinit q slot 4 (fun w => ({ w.reinitCoh with cx.reinit := some (q, slot) }.cmdStage q slot 1).reinitPoll)
/-- FUNC_REINIT_F5 (R352). -/
def effFuncReinitF5 (q slot : Nat) (w : W) : W :=
  w.funcReinit q slot 5 (fun w => (w.reinitEdge.searchBreak (fun c => c == 6)).answer q slot OK)
/-- FUNC_REINIT_F6 (R501). -/
def effFuncReinitF6 (q slot : Nat) (w : W) : W := w.funcReinit q slot 6 (fun w => w.reinitObs.answer q slot OK)

/-! ### The commands of this family -/

/-- FUNC_REINIT_F1 (R101). -/
def execFuncReinitF1 (q slot : Nat) (s : State) : Host.Outcome State Fault Refusal :=
  run (effFuncReinitF1 q slot) s

/-- FUNC_REINIT_F2 (R174). -/
def execFuncReinitF2 (q slot : Nat) (s : State) : Host.Outcome State Fault Refusal :=
  run (effFuncReinitF2 q slot) s

/-- FUNC_REINIT_F3 (R238). -/
def execFuncReinitF3 (q slot : Nat) (s : State) : Host.Outcome State Fault Refusal :=
  run (effFuncReinitF3 q slot) s

/-- FUNC_REINIT_F4 (R312). -/
def execFuncReinitF4 (q slot : Nat) (s : State) : Host.Outcome State Fault Refusal :=
  run (effFuncReinitF4 q slot) s

/-- FUNC_REINIT_F5 (R352). -/
def execFuncReinitF5 (q slot : Nat) (s : State) : Host.Outcome State Fault Refusal :=
  run (effFuncReinitF5 q slot) s

/-- FUNC_REINIT_F6 (R501). -/
def execFuncReinitF6 (q slot : Nat) (s : State) : Host.Outcome State Fault Refusal :=
  run (effFuncReinitF6 q slot) s

end Sys2Proof.Machine
end

