-- ==== Sys2Proof/Machine/Dispatch.lean ====
section
/-! DEFINITION. The meaning of every command, one direct call each. -/

namespace Sys2Proof.Machine

/-- A command's effect on everything but the queue. -/
def exec (i : Instr) (s : State) : Host.Outcome State Fault Refusal :=
  match i with
  | .porstNAssert => Sys2Proof.Machine.execPorstNAssert s
  | .porstNRelease => Sys2Proof.Machine.execPorstNRelease s
  | .pwrgdInFall => Sys2Proof.Machine.execPwrgdInFall s
  | .hrstNAssert lowFc => Sys2Proof.Machine.execHrstNAssert lowFc s
  | .hrstNRelease => Sys2Proof.Machine.execHrstNRelease s
  | .fabricClockLock => Sys2Proof.Machine.execFabricClockLock s
  | .pdGoodRise site => Sys2Proof.Machine.execPdGoodRise site s
  | .pdGoodTimeout site => Sys2Proof.Machine.execPdGoodTimeout site s
  | .proofEnd recs ptime => Sys2Proof.Machine.execProofEnd recs ptime s
  | .sleepRequest site => Sys2Proof.Machine.execSleepRequest site s
  | .sleepSave site => Sys2Proof.Machine.execSleepSave site s
  | .wakeRequest site => Sys2Proof.Machine.execWakeRequest site s
  | .bondRetrainEnd site => Sys2Proof.Machine.execBondRetrainEnd site s
  | .trstNAssert => Sys2Proof.Machine.execTrstNAssert s
  | .kdbgUpdate dr => Sys2Proof.Machine.execKdbgUpdate dr s
  | .ctailWrite q val who => Sys2Proof.Machine.execCtailWrite q val who s
  | .commandFetch q => Sys2Proof.Machine.execCommandFetch q s
  | .hostPacket p => Sys2Proof.Machine.execHostPacket p s
  | .identify q slot => Sys2Proof.Machine.execIdentify q slot s
  | .proofReport q slot => Sys2Proof.Machine.execProofReport q slot s
  | .patchLoad q slot => Sys2Proof.Machine.execPatchLoad q slot s
  | .herdLockEdge q slot => Sys2Proof.Machine.execHerdLockEdge q slot s
  | .herdLockFreeRun q slot => Sys2Proof.Machine.execHerdLockFreeRun q slot s
  | .herdStatus q slot => Sys2Proof.Machine.execHerdStatus q slot s
  | .plateLoad q slot => Sys2Proof.Machine.execPlateLoad q slot s
  | .plateLoadAcked q slot => Sys2Proof.Machine.execPlateLoadAcked q slot s
  | .plateLoadTimeout q slot => Sys2Proof.Machine.execPlateLoadTimeout q slot s
  | .plateArm q slot => Sys2Proof.Machine.execPlateArm q slot s
  | .plateAbort q slot => Sys2Proof.Machine.execPlateAbort q slot s
  | .pauseSet q slot => Sys2Proof.Machine.execPauseSet q slot s
  | .routeWrite q slot => Sys2Proof.Machine.execRouteWrite q slot s
  | .routeCommit q slot => Sys2Proof.Machine.execRouteCommit q slot s
  | .ctxCreate q slot => Sys2Proof.Machine.execCtxCreate q slot s
  | .ctxFence q slot => Sys2Proof.Machine.execCtxFence q slot s
  | .ctxReset q slot => Sys2Proof.Machine.execCtxReset q slot s
  | .ctxDestroy q slot => Sys2Proof.Machine.execCtxDestroy q slot s
  | .stationFenceCtx q slot => Sys2Proof.Machine.execStationFenceCtx q slot s
  | .stationFenceAll q slot => Sys2Proof.Machine.execStationFenceAll q slot s
  | .stationUnfenceCtx q slot => Sys2Proof.Machine.execStationUnfenceCtx q slot s
  | .stationUnfenceAll q slot => Sys2Proof.Machine.execStationUnfenceAll q slot s
  | .spareMapCore q slot => Sys2Proof.Machine.execSpareMapCore q slot s
  | .spareMapDie q slot => Sys2Proof.Machine.execSpareMapDie q slot s
  | .spareMapBeam q slot => Sys2Proof.Machine.execSpareMapBeam q slot s
  | .funcReinitF1 q slot => Sys2Proof.Machine.execFuncReinitF1 q slot s
  | .funcReinitF2 q slot => Sys2Proof.Machine.execFuncReinitF2 q slot s
  | .funcReinitF3 q slot => Sys2Proof.Machine.execFuncReinitF3 q slot s
  | .funcReinitF4 q slot => Sys2Proof.Machine.execFuncReinitF4 q slot s
  | .funcReinitF5 q slot => Sys2Proof.Machine.execFuncReinitF5 q slot s
  | .funcReinitF6 q slot => Sys2Proof.Machine.execFuncReinitF6 q slot s
  | .blockReset q slot => Sys2Proof.Machine.execBlockReset q slot s
  | .counterRead q slot => Sys2Proof.Machine.execCounterRead q slot s
  | .histoRead q slot => Sys2Proof.Machine.execHistoRead q slot s
  | .traceArm q slot => Sys2Proof.Machine.execTraceArm q slot s
  | .faultRead q slot => Sys2Proof.Machine.execFaultRead q slot s
  | .faultClear q slot => Sys2Proof.Machine.execFaultClear q slot s
  | .circuitTable q slot => Sys2Proof.Machine.execCircuitTable q slot s
  | .groupDefine q slot => Sys2Proof.Machine.execGroupDefine q slot s
  | .herdDefine q slot => Sys2Proof.Machine.execHerdDefine q slot s
  | .timingWordReceive ep => Sys2Proof.Machine.execTimingWordReceive ep s
  | .lossWindowExpiry => Sys2Proof.Machine.execLossWindowExpiry s
  | .acquireTimeout => Sys2Proof.Machine.execAcquireTimeout s
  | .refPortChange => Sys2Proof.Machine.execRefPortChange s
  | .decisionFc throt => Sys2Proof.Machine.execDecisionFc throt s
  | .periodBoundary => Sys2Proof.Machine.execPeriodBoundary s
  | .laneDrainEnd => Sys2Proof.Machine.execLaneDrainEnd s
  | .slot lanes rows tables => Sys2Proof.Machine.execSlot lanes rows tables s
  | .streamTimeLimit st stream => Sys2Proof.Machine.execStreamTimeLimit st stream s
  | .arbiterDraw unit port net errs => Sys2Proof.Machine.execArbiterDraw unit port net errs s
  | .quotaWindowStart unit port net => Sys2Proof.Machine.execQuotaWindowStart unit port net s
  | .watchdogBite unit port net vc => Sys2Proof.Machine.execWatchdogBite unit port net vc s
  | .packetRoute router port vc errs => Sys2Proof.Machine.execPacketRoute router port vc errs s
  | .herdRoute router port vc => Sys2Proof.Machine.execHerdRoute router port vc s
  | .creditWordReceive unit port cvc cnt errs => Sys2Proof.Machine.execCreditWordReceive unit port cvc cnt errs s
  | .commitEffect => Sys2Proof.Machine.execCommitEffect s
  | .generationSweepEnd => Sys2Proof.Machine.execGenerationSweepEnd s
  | .drainLate => Sys2Proof.Machine.execDrainLate s
  | .staleGenAnswer unit => Sys2Proof.Machine.execStaleGenAnswer unit s
  | .staleHoldTimeout unit tag => Sys2Proof.Machine.execStaleHoldTimeout unit tag s
  | .cmpReceive unit => Sys2Proof.Machine.execCmpReceive unit s
  | .folio unit port => Sys2Proof.Machine.execFolio unit port s
  | .descriptorFetch st => Sys2Proof.Machine.execDescriptorFetch st s
  | .streamDescriptor st entry => Sys2Proof.Machine.execStreamDescriptor st entry s
  | .sendDescriptor st entry => Sys2Proof.Machine.execSendDescriptor st entry s
  | .readDescriptor st entry => Sys2Proof.Machine.execReadDescriptor st entry s
  | .writeDescriptor st entry => Sys2Proof.Machine.execWriteDescriptor st entry s
  | .fenceDescriptor st entry => Sys2Proof.Machine.execFenceDescriptor st entry s
  | .bagDescriptor st entry => Sys2Proof.Machine.execBagDescriptor st entry s
  | .collDescriptor st entry => Sys2Proof.Machine.execCollDescriptor st entry s
  | .countDescriptor st entry => Sys2Proof.Machine.execCountDescriptor st entry s
  | .nopDescriptor st entry => Sys2Proof.Machine.execNopDescriptor st entry s
  | .bagSlotAllocate st entry => Sys2Proof.Machine.execBagSlotAllocate st entry s
  | .directSend st chan addr blen ctx inHandler => Sys2Proof.Machine.execDirectSend st chan addr blen ctx inHandler s
  | .sendUnblock st => Sys2Proof.Machine.execSendUnblock st s
  | .sendWithdraw st => Sys2Proof.Machine.execSendWithdraw st s
  | .sendStallTimeout st chan => Sys2Proof.Machine.execSendStallTimeout st chan s
  | .messageReceive st => Sys2Proof.Machine.execMessageReceive st s
  | .inMemMessageWritten st ring => Sys2Proof.Machine.execInMemMessageWritten st ring s
  | .inMemPopData st ring => Sys2Proof.Machine.execInMemPopData st ring s
  | .creditReceive st => Sys2Proof.Machine.execCreditReceive st s
  | .cresyncReceive st => Sys2Proof.Machine.execCresyncReceive st s
  | .ringPop st ring npop who => Sys2Proof.Machine.execRingPop st ring npop who s
  | .creditReturnTimer st ring slot => Sys2Proof.Machine.execCreditReturnTimer st ring slot s
  | .ringEnable st ring who => Sys2Proof.Machine.execRingEnable st ring who s
  | .ringDisable st ring who => Sys2Proof.Machine.execRingDisable st ring who s
  | .channelEnable st chan who => Sys2Proof.Machine.execChannelEnable st chan who s
  | .channelDisable st chan who => Sys2Proof.Machine.execChannelDisable st chan who s
  | .dispatchOffer st => Sys2Proof.Machine.execDispatchOffer st s
  | .dispatchTake st => Sys2Proof.Machine.execDispatchTake st s
  | .coreMemoryRequest st r => Sys2Proof.Machine.execCoreMemoryRequest st r s
  | .coreFence st tag scope ctx => Sys2Proof.Machine.execCoreFence st tag scope ctx s
  | .requestTimeout st tag => Sys2Proof.Machine.execRequestTimeout st tag s
  | .read unit => Sys2Proof.Machine.execRead unit s
  | .write unit => Sys2Proof.Machine.execWrite unit s
  | .cwrite unit => Sys2Proof.Machine.execCwrite unit s
  | .atomic unit => Sys2Proof.Machine.execAtomic unit s
  | .rdS port => Sys2Proof.Machine.execRdS port s
  | .rdE port => Sys2Proof.Machine.execRdE port s
  | .upgrade port => Sys2Proof.Machine.execUpgrade port s
  | .wb port => Sys2Proof.Machine.execWb port s
  | .evict port => Sys2Proof.Machine.execEvict port s
  | .snpInv st => Sys2Proof.Machine.execSnpInv st s
  | .snpDown st => Sys2Proof.Machine.execSnpDown st s
  | .snpFlush st => Sys2Proof.Machine.execSnpFlush st s
  | .coreSnoopAnswer st id state dirty data => Sys2Proof.Machine.execCoreSnoopAnswer st id state dirty data s
  | .sack port => Sys2Proof.Machine.execSack port s
  | .sdata port => Sys2Proof.Machine.execSdata port s
  | .snoopTimeout slice key => Sys2Proof.Machine.execSnoopTimeout slice key s
  | .rdata unit => Sys2Proof.Machine.execRdata unit s
  | .ldata st => Sys2Proof.Machine.execLdata st s
  | .adata st => Sys2Proof.Machine.execAdata st s
  | .wcnt unit => Sys2Proof.Machine.execWcnt unit s
  | .wcntTimer unit src => Sys2Proof.Machine.execWcntTimer unit src s
  | .ccinc st => Sys2Proof.Machine.execCcinc st s
  | .memoryReadResponse port tag unc => Sys2Proof.Machine.execMemoryReadResponse port tag unc s
  | .memoryWriteAck port tag => Sys2Proof.Machine.execMemoryWriteAck port tag s
  | .directoryWalkEnd slice => Sys2Proof.Machine.execDirectoryWalkEnd slice s
  | .reduce tine => Sys2Proof.Machine.execReduce tine s
  | .barrier tine => Sys2Proof.Machine.execBarrier tine s
  | .count tine => Sys2Proof.Machine.execCount tine s
  | .lingerExpiry tine key => Sys2Proof.Machine.execLingerExpiry tine key s
  | .result st => Sys2Proof.Machine.execResult st s
  | .earlySlotExpiry st slot => Sys2Proof.Machine.execEarlySlotExpiry st slot s
  | .collTimeLimit st entry => Sys2Proof.Machine.execCollTimeLimit st entry s
  | .poolRead port => Sys2Proof.Machine.execPoolRead port s
  | .poolPart region => Sys2Proof.Machine.execPoolPart region s
  | .poolLingerExpiry unit key => Sys2Proof.Machine.execPoolLingerExpiry unit key s
  | .poolPartFold st => Sys2Proof.Machine.execPoolPartFold st s
  | .bagTimeLimit st slot => Sys2Proof.Machine.execBagTimeLimit st slot s
  | .mergeRow tine => Sys2Proof.Machine.execMergeRow tine s
  | .mergeWindowExpiry tine key => Sys2Proof.Machine.execMergeWindowExpiry tine key s
  | .mergeAnswer tine => Sys2Proof.Machine.execMergeAnswer tine s
  | .nearMemoryAccumulate port => Sys2Proof.Machine.execNearMemoryAccumulate port s
  | .laneLockGain ep lane => Sys2Proof.Machine.execLaneLockGain ep lane s
  | .laneLockLoss ep lane => Sys2Proof.Machine.execLaneLockLoss ep lane s
  | .oeReadyChange ep level => Sys2Proof.Machine.execOeReadyChange ep level s
  | .blockHeaderReceive ep rx => Sys2Proof.Machine.execBlockHeaderReceive ep rx s
  | .frameBoundary ep => Sys2Proof.Machine.execFrameBoundary ep s
  | .dataFrame ep => Sys2Proof.Machine.execDataFrame ep s
  | .edgePacketSend ep => Sys2Proof.Machine.execEdgePacketSend ep s
  | .edgePacketReceive ep => Sys2Proof.Machine.execEdgePacketReceive ep s
  | .ackPacket ep => Sys2Proof.Machine.execAckPacket ep s
  | .ackTimer ep peer => Sys2Proof.Machine.execAckTimer ep peer s
  | .rtoExpiry ep peer psn => Sys2Proof.Machine.execRtoExpiry ep peer psn s
  | .proxyAnswer ep => Sys2Proof.Machine.execProxyAnswer ep s
  | .proxyExpiry ep proxy => Sys2Proof.Machine.execProxyExpiry ep proxy s
  | .pathSuspendEnd ep path => Sys2Proof.Machine.execPathSuspendEnd ep path s
  | .shapingRelease ep => Sys2Proof.Machine.execShapingRelease ep s
  | .circFrame ep => Sys2Proof.Machine.execCircFrame ep s
  | .circuitSpanBegin ep => Sys2Proof.Machine.execCircuitSpanBegin ep s
  | .circuitOpen ep => Sys2Proof.Machine.execCircuitOpen ep s
  | .circuitClose ep => Sys2Proof.Machine.execCircuitClose ep s
  | .spineSlotMessage ep => Sys2Proof.Machine.execSpineSlotMessage ep s
  | .redxResult ep => Sys2Proof.Machine.execRedxResult ep s
  | .coalesceTimerExpiry src => Sys2Proof.Machine.execCoalesceTimerExpiry src s
  | .irqClaim target => Sys2Proof.Machine.execIrqClaim target s
  | .irqDone st num => Sys2Proof.Machine.execIrqDone st num s
  | .endOfInterrupt target orig reg num => Sys2Proof.Machine.execEndOfInterrupt target orig reg num s
  | .irqSet st mask => Sys2Proof.Machine.execIrqSet st mask s
  | .sharedIrqSet ctrl mask => Sys2Proof.Machine.execSharedIrqSet ctrl mask s
  | .faultEntry cls loc present => Sys2Proof.Machine.execFaultEntry cls loc present s
  | .quietTimerExpiry => Sys2Proof.Machine.execQuietTimerExpiry s
  | .escalation loc part => Sys2Proof.Machine.execEscalation loc part s
  | .bondSteerSwitch => Sys2Proof.Machine.execBondSteerSwitch s
  | .stotToggle => Sys2Proof.Machine.execStotToggle s
  | .injFatal => Sys2Proof.Machine.execInjFatal s
  | .injCorr src => Sys2Proof.Machine.execInjCorr src s
  | .injUncorr src => Sys2Proof.Machine.execInjUncorr src s
  | .stickyClearWrite grp mask => Sys2Proof.Machine.execStickyClearWrite grp mask s
  | .drainEnd ctx => Sys2Proof.Machine.execDrainEnd ctx s
  | .drainForcedEnd ctx => Sys2Proof.Machine.execDrainForcedEnd ctx s
  | .removalEnd ctx => Sys2Proof.Machine.execRemovalEnd ctx s
  | .quarantineEnd ctx => Sys2Proof.Machine.execQuarantineEnd ctx s
  | .heartbeat => Sys2Proof.Machine.execHeartbeat s
  | .heartbeatTimeout => Sys2Proof.Machine.execHeartbeatTimeout s
  | .engineWatchdogBite cls index => Sys2Proof.Machine.execEngineWatchdogBite cls index s
  | .replaySearchStart => Sys2Proof.Machine.execReplaySearchStart s
  | .replayWindowExpiry => Sys2Proof.Machine.execReplayWindowExpiry s
  | .blockStart => Sys2Proof.Machine.execBlockStart s
  | .targetStep => Sys2Proof.Machine.execTargetStep s
  | .govMonitor d => Sys2Proof.Machine.execGovMonitor d s
  | .packageReadRequest addr => Sys2Proof.Machine.execPackageReadRequest addr s
  | .stationReadRequest st addr dq => Sys2Proof.Machine.execStationReadRequest st addr dq s
  | .counterSweep => Sys2Proof.Machine.execCounterSweep s
  | .traceStop buf => Sys2Proof.Machine.execTraceStop buf s
  | .ecfgWrite addr val who => Sys2Proof.Machine.execEcfgWrite addr val who s
  | .ticketWeightWrite addr val who => Sys2Proof.Machine.execTicketWeightWrite addr val who s
  | .laneMapWrite ep val who => Sys2Proof.Machine.execLaneMapWrite ep val who s
  | .poolTableValidate st entry who => Sys2Proof.Machine.execPoolTableValidate st entry who s
  | .pkgNumWrite val who => Sys2Proof.Machine.execPkgNumWrite val who s
  | .khrdTimeLoRead who => Sys2Proof.Machine.execKhrdTimeLoRead who s
  | .counterLowWordRead addr who => Sys2Proof.Machine.execCounterLowWordRead addr who s
  | .rcFieldRead addr who => Sys2Proof.Machine.execRcFieldRead addr who s
  | .registerWrite addr val who => Sys2Proof.Machine.execRegisterWrite addr val who s
  | .writePortAccept st => Sys2Proof.Machine.execWritePortAccept st s
  | .descriptorTimeLimit st entry => Sys2Proof.Machine.execDescriptorTimeLimit st entry s
  | .siteProofEnd site ok => Sys2Proof.Machine.execSiteProofEnd site ok s
  | .unbindingEnd ctx => Sys2Proof.Machine.execUnbindingEnd ctx s
  | .edgeLaneTrialEnd ep ok => Sys2Proof.Machine.execEdgeLaneTrialEnd ep ok s
  | .epDepthSample => Sys2Proof.Machine.execEpDepthSample s

end Sys2Proof.Machine
end

