-- ==== Sys2Proof/Machine/Tick.lean ====
section
/-! DEFINITION. One fabric cycle with no command waiting (DESIGN CHOICE, log): what the block does of itself in a fabric
cycle and no command of this cycle has done yet, and then the next fabric cycle. -/

namespace Sys2Proof.Machine

/-! ### Levels that event counters integrate (R486, R488) -/

/-- The contexts of what a context-filtered level of a station counts, one for each. -/
def State.stnLevel (s : State) (n code : Nat) : List Nat :=
  match code with
  | 0x08 => (s.net.req.filter (fun e => e.1 / 2 ^ 20 == uSt n)).map (fun e => e.2.pkt.ctx)
  | 0x09 => (s.sta.log.filter (fun e => e.1 / 512 == n)).map (fun e => e.2.lctx)
  | 0x0A => (s.col.bag.filter (fun e => e.1 / 64 == n)).map (fun e => e.2.ctx)
  | 0x0D => (match s.sta.blocked.find n with
    | some d => [d.ctx]
    | none => [])
  | _ => []

/-- Phits that stand in the input buffer of a port: those sent and not yet owed as credit. -/
def State.occupied (s : State) (u p vc : Nat) : Nat :=
  match s.peer u p with
  | some (v, pv) => Tbl.get 0 s.net.used (qKey v pv vc) - Tbl.get 0 s.net.owed (qKey u p vc)
  | none => 0

/-- A requester of a VC is eligible at an output and has not the grant. -/
def State.passedOver (s : State) (u p vc : Nat) : Bool :=
  let n := netOf vc
  let a := s.arb u p n
  (s.requesters u p n).any (fun r => r.2 == vc && a.grant != some r && s.eligible u p n a r)

/-- The level that counter `k` of unit `u` watches, in this fc (R488). -/
def State.levelOf (s : State) (u k : Nat) : Nat :=
  let b := unitB u
  let code := s.rd b (K_ECFG.event.at k)
  let port := s.rd b (K_ETHR.eport.at k)
  let vc := s.rd b (K_ETHR.evc.at k)
  let idx := (s.utype u).2
  if code ≤ 0x0D then
    let n := u - 0x1000
    let own := s.stnLevel n code
    let one := s.rd b (K_ECFG.ectx_en.at k) == 1
    let c := s.rd b (K_ECFG.ectx.at k)
    match code with
    | 0x0B => ((s.sta.dbuf.find n).getD []).length
    | 0x0C => if (s.sta.dbuf.find n).isSome then 1 else 0
    | _ => (own.filter (fun x => !one || x == c)).length
  else match code with
    | 0x22 => s.occupied u port vc
    | 0x23 => if s.passedOver u port vc then 1 else 0
    | 0x41 => ((s.msp.defer.find (idx / 2)).getD []).length
    | 0x42 => (s.msp.opens.filter (fun e => e.1 / 1024 == idx)).length
    | 0x62 => ((s.epS idx).rtxBytes + 1023) / 1024
    | 0x63 => (s.epS idx).reordLines
    | _ => 0

/-- What a level adds to its counter (R486). -/
def levelAdd (mode level thr : Nat) : Nat :=
  match mode with
  | 0 => level
  | 1 => if thr < level then 1 else 0
  | _ => if level ≤ thr then 1 else 0

/-- Counters whose event is a level: (unit, counter). -/
def State.levelCounters (s : State) : List (Nat × Nat) :=
  s.regs.filterMap (fun e =>
    let wn := winOf (e.1 / 32)
    match eventOf e.2, wn.evType, K_ECFG.event.here (e.1 / 32 - wn.base) with
    | some (_, true, _), some _, some k => if e.1 % 32 = 0 then some (wn.unit, k) else none
    | _, _, _ => none)

/-- Every counter of a level takes this fc's level; one configured in this fc not yet (R486, R500). -/
def W.levels (w : W) : W :=
  w.each w.levelCounters (fun w x =>
    let b := unitB x.1
    if w.rd b (K_ECFG.chain.at x.2) = 1 ∨ Tbl.get 0 w.obs.cfgFc (x.1 * 4 + x.2) = w.fc + 1 then w
    else
      let n := levelAdd (w.rd b (K_ECFG.emode.at x.2)) (w.levelOf x.1 x.2) (w.rd b (K_ETHR.ethr.at x.2))
      if n = 0 then w else w.ecAdd b 4 x.2 n)

/-! ### What else happens by itself in a fabric cycle -/

/-- A holder has phits to send and none of them waits (R165); a pause counts for no link with lanes. -/
def State.starved (s : State) (u p net src vc : Nat) : Bool :=
  (s.cand s.fc u p net src vc).isNone && !(net == 3 && lanesOf u p != 0 && s.isPaused)

/-- The progress watchdogs count (R165). -/
def W.watchdogs (w : W) : W :=
  { w with net.arbs := w.net.arbs.map (fun (e : Nat × Arb) =>
      let u := e.1 / 256
      let p := e.1 / 4 % 64
      let n := e.1 % 4
      (e.1, { e.2 with holds := e.2.holds.map (fun (h : Nat × Hold) =>
        (h.1, if w.starved u p n h.2.src h.1 then { h.2 with emptyT := h.2.emptyT + 1 } else h.2)) })) }

/-- The arbiters with something to decide or to send: (unit, port, network). Port 1 of a memory port is its input. -/
def State.drawKeys (s : State) : List (Nat × Nat × Nat) :=
  (s.net.q.flatMap (fun (e : Nat × List Buf) =>
    let u := e.1 / 1024
    let src := e.1 / 16 % 64
    let net := netOf (e.1 % 16)
    (if src = pInj then [(u, 0, net)] else e.2.flatMap (fun (b : Buf) => b.copies.map (fun (c : Copy) => (u, c.port, net))))
      ++ (if 0x2000 ≤ u ∧ u < 0x2040 ∧ src = 0 then [(u, 1, 0)] else []))
    ++ (s.net.arbs.filter (fun (e : Nat × Arb) => e.2.grant != none)).map (fun (e : Nat × Arb) => (e.1 / 256, e.1 / 4 % 64, e.1 % 4))
    ++ s.msp.defer.flatMap (fun (e : Nat × List (Nat × Packet)) => [(uMsp (2 * e.1), 1, 0), (uMsp (2 * e.1 + 1), 1, 0)])).eraseDups

/-- Every arbiter that no command has made decide in this fc decides now (R158). -/
def W.drawAll (w : W) : W := w.each w.drawKeys (fun w k => effArbiterDraw k.1 k.2.1 k.2.2 [] w)

/-- Each station presents one vector change on its core port (R118, R183). -/
def W.presentVectors (w : W) : W :=
  w.each w.sch.rvq (fun w e =>
    match e.2 with
    | [] => { w with sch.rvq := w.sch.rvq.del e.1 }
    | n :: rest =>
      let x := w.strmAt e.1 (n % 256)
      let q : Tbl (List Nat) := if rest = [] then w.sch.rvq.del e.1 else w.sch.rvq.put e.1 rest
      { w with sch.rvq := q, sch.rvOut := Tbl.set 0 w.sch.rvOut (e.1 * 512 + n) (if n < 256 then x.rv else x.bad) })

/-- Trace buffers that have met their stop condition stop (R496, R498). -/
def W.stopTraces (w : W) : W :=
  w.each w.obs.trc (fun w e =>
    let st := w.rd obsB (KOBS_TRC_STAT.tstate.at e.1)
    if e.2.stop ∧ (st = 1 ∨ st = 2) then effTraceStop e.1 w else w)

/-- The plane's part of a fabric cycle (R68 to R73, R470, R472): each operation does nothing where a command of this cycle
has done it already, or where it is not due. -/
def W.planeFc (w : W) : W :=
  effSlot [] [] [] (effTargetStep (effBlockStart (effDecisionFc w.plt.throt (effLaneDrainEnd (effPeriodBoundary w)))))

/-- Polling that needs no moment of its own: fences, substitutions, rows and entries to write again, power-up,
re-initialisation, packets of edge ports that found no room, credits of spine slots. -/
def W.polls (w : W) : W :=
  let w := (w.fencePoll.sparePoll.rowsPoll.entriesPoll).powerPoll.reinitPoll.stopTraces
  w.each w.ep (fun w e => (w.retryAcross e.1).spnPoll e.1)

/-- The next fabric cycle (R58, R68, R71): fc and herd time advance, plate time unless the fc was paused; register values
kept for this fc's decisions go, and a fatal fault of this fc puts the block in FAULT (R386). -/
def W.advance (w : W) : W :=
  let w := w.irqRecount
  let n : State := w.toState.nextFc
  let moved := !w.isPaused
  let w := { w with plateTime := n.plateTime, plt.paused := n.plt.paused }
  let w := if moved then { w with plt.slotDone := false, plt.boundaryDone := false, plt.decisionDone := false, plt.blockDone := false } else w
  let w := { w with fc := w.fc + 1, herdTime := (w.herdTime + 1) % 2 ^ 64, shadow := [], evNow := [], sta.fresh := [], boot.kdbgBusy := false }
  if w.flt.entryFc.isSome ∧ w.rd fltB KFLT_STATE.fstate = 0 then w.enterFault else w

/-- One fabric cycle with no command. Without a clock or power nothing happens; with the host's reset low only fc and herd
time count (R59, R440). -/
def effTick (w : W) : W :=
  if !(w.boot.porstN && w.boot.pwrgd && w.boot.clk) then w
  else if !w.boot.hrstN then { w with fc := w.fc + 1, herdTime := (w.herdTime + 1) % 2 ^ 64 }
  else w.drawAll.planeFc.polls.levels.watchdogs.engineWatch.presentVectors.sampleReads.advance.releaseAll

end Sys2Proof.Machine
end

