-- ==== Sys2Proof/Safety.lean ====
section
/-! DEFINITION. What claims about the block's states use: the canonical form of the memories, running commands, and
what it means that a command has been answered. -/

namespace Sys2Proof.Machine

/-- The addressed memories are in canonical form: rising addresses, no entry that reads as an unlisted one does. -/
def Safe (s : State) : Prop := s.mem.wf = true

/-- Command `c` runs, at its start, in slot `slot` of queue `q` with opcode `op`, and no other command has that slot. -/
def State.Runs (s : State) (q slot op : Nat) (c : Cmd) : Prop := s.cmdAt q slot op = some c ∧ s.cmdOf q slot = some c

/-- A command's work on a state, before it has done anything. -/
def State.w0 (s : State) : W := { toState := s, stores := [] }

/-- Packet `p` is the first whole one with operation `op` at the unit's input; `w` is the state without it. -/
def State.Takes (s : State) (u op : Nat) (p : Packet) (w : W) : Prop := s.w0.takeAny u (fun x => x.op == op) = some (p, w)

/-- From `s` to `t` command `c` of queue `q` has ended with a status and result bytes: it runs no more, and its record,
which had no reply, holds the reply of R460, stamped with the herd time of `s`. -/
def Answered (s t : State) (q : Nat) (c : Cmd) (status : Nat) (rdata : List Byte) : Prop :=
  t.boot.cmds = s.boot.cmds.erase c
  ∧ ∀ r ∈ s.recsOf q, r.tag = c.tag → r.opcode = c.op → r.reply = none →
    { r with reply := some (replyBytes status 0 c.op c.tag s.herdTime rdata), slots := [] } ∈ t.recsOf q

/-- The form of a STREAM's body (R109, R110): its reserved bits, ranges and alignment, and, where it signs its cells, a COLL
that binds it. -/
def State.streamForm (s : State) (st : Nat) (d : List Byte) : Prop :=
  bits (le d 33 1) 4 4 = 0 ∧ bits (le d 34 1) 4 4 = 0 ∧ bits (le d 35 1) 5 3 = 0 ∧ le d 39 1 = 0 ∧ bits (le d 40 4) 21 11 = 0
    ∧ le d 52 12 = 0 ∧ bits (le d 34 1) 0 4 ≤ 14 ∧ 10 ≤ bits (le d 35 1) 0 5 ∧ bits (le d 35 1) 0 5 ≤ 30
    ∧ bits (le d 40 4) 0 21 ≠ 0 ∧ bits (le d 40 4) 0 21 ≤ 2 ^ 20 ∧ le d 48 4 % 64 = 0
    ∧ bits (le d 40 4) 0 21 ≤ 64 * 2 ^ bits (le d 34 1) 0 4
    ∧ (bit (le d 33 1) 0 = true → bit (le d 33 1) 2 = false ∧ bit (le d 33 1) 3 = false)
    ∧ (bit (le d 33 1) 0 = false → le d 38 1 = 0)
    ∧ (bit (le d 33 1) 3 = true → (s.collOfStream st (le d 32 1)).isSome = true)

/-- A STREAM's object, its addresses and its plate lane belong to its context (R110). -/
def State.streamOwned (s : State) (st : Nat) (l : LogEnt) : Prop :=
  s.owns 4 st (le l.desc 32 1) l.lctx = true
    ∧ s.winOk st l.lctx true (le l.desc 48 4) (64 * bits (le l.desc 40 4) 0 21) false false false = true
    ∧ s.platesNamed.any (fun p => match p.laneOf (le l.desc 36 2 / 4096) with | some x => x.ctx != l.lctx | none => false) = false

end Sys2Proof.Machine

namespace Sys2Proof

/-- A packet whose fields fit the header of R131 and whose extension and payload have the sizes it says. -/
def Packet.Wire (p : Packet) : Prop :=
  p.vc < 16 ∧ p.op < 256 ∧ p.dst < 4096 ∧ p.src < 4096 ∧ p.ctx < 4096 ∧ p.gen < 256 ∧ p.hops < 8 ∧ p.hopPtr < 8 ∧ p.hop < 2 ^ 42
    ∧ p.tag < 2 ^ 16 ∧ p.len < 2 ^ 14 ∧ p.addr < 2 ^ 64 ∧ p.aux < 2 ^ 16 ∧ p.status < 256 ∧ (p.ext = [] ∨ p.ext.length = 32)
    ∧ p.data.length = p.len

/-- The part of a packet that its header, extension and payload carry. -/
def Packet.carried (p : Packet) : Packet := { p with pois := 0, ans := 0, ref := 0, sref := 0, refs := [] }

/-- The events of the reset pins, the clock and the test reset (R440, R441, R476): they act on a block held in reset. -/
def Instr.isPin (i : Instr) : Prop :=
  i = .porstNAssert ∨ i = .porstNRelease ∨ i = .pwrgdInFall ∨ (∃ n, i = .hrstNAssert n) ∨ i = .hrstNRelease ∨ i = .fabricClockLock
    ∨ i = .trstNAssert

end Sys2Proof
end

