-- ==== Sys2Proof/Certificates/Slice0/Obligations.lean ====
section
/-! DEFINITION. The statements about the model. Those that say what a command does under the spec's conditions also say that
the command completes. -/

open Sys2Proof Sys2Proof.Machine

/-- A step takes the command at the front of the queue and runs it on the state with the queue's rest. -/
def Obligations.StepRunsFront : Prop :=
  ∀ (c : Instr) (rest : List Instr) (s : State), step { s with pending := c :: rest } = exec c { s with pending := rest }

/-- With no command waiting a step is one fabric cycle (the model's choice: assumption log row 1). -/
def Obligations.StepIdles : Prop :=
  ∀ s : State, s.pending = [] → step s = .next (s.after effTick)

/-- The reset pins and the clock (R440, R441, R442, R476). PORST_N low, or a fall of PWRGD_IN, puts the whole block in reset:
herd time and plate time 0, every register at its reset value, every plane, context and reservation empty; fuses and memories stay.
HRST_N low for 2,000 fc or more does the same but for herd time, which counts on. Each release only lifts its pin. -/
def Obligations.ResetPinsAct : Prop :=
  (∀ s, ∃ t, exec .porstNAssert s = .next t ∧ t.inReset = true ∧ t.boot.porstN = false ∧ t.herdTime = 0 ∧ t.plateTime = 0
    ∧ t.fc = 0 ∧ t.regs = [] ∧ t.net = {} ∧ t.sta = {} ∧ t.msp = {} ∧ t.irq = {} ∧ t.flt = {} ∧ t.sch = {} ∧ t.col = {} ∧ t.obs = {}
    ∧ t.ep = [] ∧ t.cx = {} ∧ t.ctxFence = [] ∧ t.fuse = s.fuse ∧ t.mem = s.mem)
  ∧ (∀ s, exec .porstNRelease s = .next { s with boot.porstN := true })
  ∧ (∀ s, ∃ t, exec .pwrgdInFall s = .next t ∧ t.inReset = true ∧ t.boot.pwrgd = false ∧ t.herdTime = 0 ∧ t.plateTime = 0
    ∧ t.regs = [] ∧ t.net = {} ∧ t.sta = {} ∧ t.cx = {} ∧ t.fuse = s.fuse ∧ t.mem = s.mem)
  ∧ (∀ s n, 2000 ≤ n → s.boot.porstN = true → s.boot.pwrgd = true →
    ∃ t, exec (.hrstNAssert n) s = .next t ∧ t.inReset = true ∧ t.boot.hrstN = false ∧ t.herdTime = s.herdTime ∧ t.fc = s.fc
      ∧ t.plateTime = 0 ∧ t.net = {} ∧ t.sta = {} ∧ t.irq = {} ∧ t.cx = {} ∧ t.fuse = s.fuse ∧ t.mem = s.mem)
  ∧ (∀ s, s.boot.hrstN = false → exec .hrstNRelease s = .next { s with boot.hrstN := true, boot.pdNext := s.fc + 4000000 })
  ∧ (∀ s, exec .fabricClockLock s = .next { s with boot.clk := true, boot.pwrgd := true })
  ∧ (∀ s, exec .trstNAssert s = .next { s with boot.ir := 1, boot.kdbgBusy := false })

/-- A BLOCK_RESET found among the posted commands resets the block as an HRST_N pulse does (R433, R441): herd time counts on,
fuses and memories stay, and start-up begins at step 1 with only the sites still to be powered that are not powered. -/
def Obligations.BlockResetActs : Prop :=
  ∀ s q slot, s.inReset = false → s.boot.rstReq = true → q < 4 → le (s.slotBytes q slot) 0 2 = 0x61 →
    ∃ t, exec (.blockReset q slot) s = .next t ∧ t.herdTime = s.herdTime ∧ t.fc = s.fc ∧ t.fuse = s.fuse ∧ t.mem = s.mem
      ∧ t.net = {} ∧ t.sta = {} ∧ t.msp = {} ∧ t.irq = {} ∧ t.cx = {} ∧ t.boot.cmds = [] ∧ t.boot.rstReq = false
      ∧ t.boot.sitesLeft = (List.range s.fuse.cdSites).filter (fun x => !s.powered x)

/-- Power, proof and sleep of die sites (R442, R444, R448, R449). -/
def Obligations.SitePowerActs : Prop :=
  (∀ s site, s.inReset = false → s.rd gblB KGBL_SITE.pon site ≠ 0 → s.powered site = false →
    exec (.pdGoodRise site) s = .next (s.after fun w =>
      ({ w.wr gblB KGBL_SITE.pgood 1 site with boot.pdT := w.boot.pdT.del site } : W).powerPoll))
  ∧ (∀ s site t0, s.inReset = false → s.boot.pdT.find site = some t0 → s.powered site = false → t0 + 2 ^ 22 ≤ s.fc →
    s.flt.spare = none →
    exec (.pdGoodTimeout site) s = .next (s.after fun w =>
      ({ w.siteFail site with boot.pdT := w.boot.pdT.del site } : W).powerPoll))
  ∧ (∀ s recs ptime, s.inReset = false → s.rd gblB KGBL_BOOT.stage = 2 →
    ∃ t, exec (.proofEnd recs ptime) s = .next t ∧ t.rd gblB KGBL_BOOT.mp_ready = 1)
  ∧ (∀ s site, s.inReset = false → s.powered site = true → s.rd gblB KGBL_SITE.slp_req site ≠ 1 →
    exec (.sleepRequest site) s = .next (s.after fun w =>
      (w.wr gblB KGBL_SITE.slp_req 1 site).wr gblB KGBL_SITE.slp_wait (if s.sleepReady site then 0 else 1) site))
  ∧ (∀ s site, s.inReset = false → s.rd gblB KGBL_SITE.slp_req site ≠ 0 → s.rd gblB KGBL_SITE.slp_ack site ≠ 1 →
    s.sleepReady site = true →
    ∃ t, exec (.sleepSave site) s = .next t ∧ t.rd gblB KGBL_SITE.slp_ack site = 1
      ∧ t.irq.saved.find site = some (s.irq.src.filter (fun e => siteSrc site e.1), s.irq.stk.filter (fun e => siteStk site e.1)))
  ∧ (∀ s site, s.inReset = false → s.rd gblB KGBL_SITE.slp_req site ≠ 0 →
    ∃ t, exec (.wakeRequest site) s = .next t ∧ t.rd gblB KGBL_SITE.slp_req site = 0 ∧ t.irq.saved.find site = none)
  ∧ (∀ s site, s.inReset = false → s.rd gblB KGBL_SITE.slp_ack site ≠ 0 → s.rd gblB KGBL_SITE.slp_req site ≠ 1 →
    exec (.bondRetrainEnd site) s = .next (s.after fun w => (w.siteSinks site false).wr gblB KGBL_SITE.slp_ack 0 site))

/-- Test access, the tail register, fetch and host packets (R462, R463, R465, R478). A fetched command that passes the first
checks, is no copy and is no BLOCK_RESET starts to run; a packet of the host that is well formed is in the host's injection queue. -/
def Obligations.ManagementInputs : Prop :=
  (∀ s dr, s.inReset = false → s.fuse.dbgEn = true → s.boot.kdbgBusy = false →
    ∃ t, exec (.kdbgUpdate dr) s = .next t ∧ t.boot.kdbgBusy = true)
  ∧ (∀ s q val who, s.inReset = false → who.priv = true → q < 4 →
    ∃ t, exec (.ctailWrite q val who) s = .next t ∧ t.rd (cmdB q) KCMD_QTAIL.ctail = val % 128)
  ∧ (∀ s q, s.inReset = false → q < 4 → s.rd gblB KGBL_BOOT.mp_ready ≠ 0 → s.rd (cmdB q) KCMD_QCFG.qen ≠ 0 →
    s.rd (cmdB q) KCMD_QHEAD.chead ≠ s.rd (cmdB q) KCMD_QTAIL.ctail → s.rd (cmdB q) KCMD_QHEAD.running < 8 →
    s.miomusUp = true → s.rd fltB KFLT_STATE.fstate ≠ 3 →
    cmdClean (s.slotBytes q (s.rd (cmdB q) KCMD_QHEAD.chead)) = true →
    le (s.slotBytes q (s.rd (cmdB q) KCMD_QHEAD.chead)) 0 2 ≠ 0x61 →
    (∀ r ∈ s.recsOf q, r.tag ≠ le (s.slotBytes q (s.rd (cmdB q) KCMD_QHEAD.chead)) 2 2) →
    ∃ t, exec (.commandFetch q) s = .next t
      ∧ t.boot.cmds = s.boot.cmds ++ [{ q := q, slot := s.rd (cmdB q) KCMD_QHEAD.chead,
                                        bytes := s.slotBytes q (s.rd (cmdB q) KCMD_QHEAD.chead), fc := s.fc }])
  ∧ (∀ s p, s.inReset = false → s.rd gblB KGBL_BOOT.mp_ready ≠ 0 → s.hostBeats p.vc < 64 → hostOk p = true →
    exec (.hostPacket p) s = .next (s.after fun w => w.inject uHost (s.hostTaken p) (routed := unitStop (s.hostTaken p))))

/-- The commands that only report end OK with the result bytes of R465: IDENTIFY the interface version, the fused topology and
the package number; PROOF_REPORT the first eight bytes of the report; HERD_STATUS and FAULT_READ the registers they name. Memory,
herd time, fc and every plane stay as they were. -/
def Obligations.ReportsAnswer : Prop :=
  (∀ s q slot c, s.inReset = false → s.Runs q slot 0x0001 c →
    ∃ t, exec (.identify q slot) s = .next t
      ∧ Answered s t q c OK (toLE 4 0x00030002 ++ toLE 4 s.topo0 ++ toLE 4 s.topo1 ++ toLE 4 s.pkgNum)
      ∧ t.mem = s.mem ∧ t.herdTime = s.herdTime ∧ t.net = s.net ∧ t.plt = s.plt ∧ t.cx = s.cx ∧ t.flt = s.flt)
  ∧ (∀ s q slot c, s.inReset = false → s.Runs q slot 0x0002 c →
    ∃ t, exec (.proofReport q slot) s = .next t ∧ Answered s t q c OK (getBytes s.boot.csram 0xC000 8)
      ∧ t.mem = s.mem ∧ t.herdTime = s.herdTime ∧ t.net = s.net ∧ t.plt = s.plt ∧ t.cx = s.cx ∧ t.flt = s.flt)
  ∧ (∀ s q slot c, s.inReset = false → s.Runs q slot 0x0011 c →
    ∃ t, exec (.herdStatus q slot) s = .next t
      ∧ Answered s t q c OK (toLE 4 s.hrdStatus ++ toLE 4 s.hrdOffset ++ toLE 2 (s.rd hrdB KHRD_LOSS_CNT.loss_count))
      ∧ t.mem = s.mem ∧ t.herdTime = s.herdTime ∧ t.net = s.net ∧ t.plt = s.plt ∧ t.cx = s.cx ∧ t.flt = s.flt)
  ∧ (∀ s q slot c, s.inReset = false → s.Runs q slot 0x0080 c →
    ∃ t, exec (.faultRead q slot) s = .next t
      ∧ Answered s t q c OK (toLE 4 s.fltGroups ++ toLE 4 (s.rd fltB (KFLT_STICKY.sticky.at 12))
          ++ toLE 2 (s.rd fltB KFLT_STATE.fstate) ++ toLE 2 (s.rd fltB KFLT_RCV.recoveries))
      ∧ t.mem = s.mem ∧ t.herdTime = s.herdTime ∧ t.net = s.net ∧ t.plt = s.plt ∧ t.cx = s.cx ∧ t.flt = s.flt)

/-- Settings of the host (R467, R458, R344). PAUSE_SET with a q of at most 64 for each field it sets ends OK with `q_now`; `host_q` is
the q it names, and `thr_q` is set only where its bit says so. PATCH_LOAD of a well-formed and signed image, with no patch loaded,
ends OK with the image's psv, and the image is the loaded patch. CIRCUIT_TABLE of a well-formed window that is far enough from every
other window of its port, and whose entry is not in its span, ends OK: the entry holds the window, or none where the valid bit is 0. -/
def Obligations.SettingsAnswer : Prop :=
  (∀ s q slot c, s.inReset = false → s.Runs q slot 0x0023 c → bits (le c.bytes 16 1) 0 7 ≤ 64 →
    (bit (le c.bytes 17 1) 7 = true → bits (le c.bytes 17 1) 0 7 ≤ 64) →
    ∃ t, exec (.pauseSet q slot) s = .next t ∧ Answered s t q c OK (toLE 1 (s.rd hrdB KPLT_PAUSE.q_now))
      ∧ t.rd hrdB KPLT_PAUSE.host_q = bits (le c.bytes 16 1) 0 7
      ∧ (bit (le c.bytes 17 1) 7 = true → t.rd hrdB KPLT_PAUSE.thr_q = bits (le c.bytes 17 1) 0 7)
      ∧ (bit (le c.bytes 17 1) 7 = false → t.rd hrdB KPLT_PAUSE.thr_q = s.rd hrdB KPLT_PAUSE.thr_q)
      ∧ t.mem = s.mem ∧ t.plt = s.plt ∧ t.net = s.net)
  ∧ (∀ s q slot c, s.inReset = false → s.Runs q slot 0x0003 c →
    256 ≤ le c.bytes 24 4 → le c.bytes 24 4 ≤ 256 + 131072 → s.rangeOk (le c.bytes 16 8) (le c.bytes 24 4) = true →
    s.fuse.keyHash ≠ 0 → s.boot.patch = none →
    s.w0.imageStatus (loff (le c.bytes 16 8)) (le c.bytes 24 4) = OK →
    patchForm (getBytes s.mem.cells (loff (le c.bytes 16 8)) (le c.bytes 24 4)) (le c.bytes 24 4) = true →
    s.patchSigned (getBytes s.mem.cells (loff (le c.bytes 16 8)) (le c.bytes 24 4)) = true →
    ∃ t, exec (.patchLoad q slot) s = .next t
      ∧ Answered s t q c OK (toLE 2 (le (getBytes s.mem.cells (loff (le c.bytes 16 8)) (le c.bytes 24 4)) 6 2))
      ∧ t.boot.patch = some (getBytes s.mem.cells (loff (le c.bytes 16 8)) (le c.bytes 24 4))
      ∧ t.rd gblB KGBL_PATCH.pstate = 2
      ∧ t.rd gblB KGBL_PATCH.psv = le (getBytes s.mem.cells (loff (le c.bytes 16 8)) (le c.bytes 24 4)) 6 2
      ∧ t.mem = s.mem ∧ t.net = s.net ∧ t.plt = s.plt ∧ t.cx = s.cx)
  ∧ (∀ s q slot c e i word lead, s.inReset = false → s.Runs q slot 0x0090 c →
    e = bits (le c.bytes 16 1) 0 6 → i = le c.bytes 17 1 → word = le c.bytes 48 4 → lead = s.rd (epB e) KEDG_CW_CFG.cw_lead →
    e < s.fuse.edgePorts → bits word 24 8 = 0 → le c.bytes 52 12 = 0 →
    4096 ≤ since (le c.bytes 40 8) (le c.bytes 32 8) → since (le c.bytes 40 8) (le c.bytes 32 8) ≤ 2 ^ 32 →
    (∀ x ∈ (s.epS e).cw, x.1 ≠ i →
      closer (CwEnt.mk (le c.bytes 32 8) (le c.bytes 40 8) (bits word 0 17) (bits word 17 6)) x.2 (lead + 2048) = false) →
    (∀ x ∈ (s.epS e).cw, x.1 = i → s.herdTime + lead < x.2.tOpen ∨ x.2.tClose ≤ s.herdTime) →
    ∃ t, exec (.circuitTable q slot) s = .next t ∧ Answered s t q c OK []
      ∧ (t.epS e).cw = (if bit word 23 then
          (s.epS e).cw.put i (CwEnt.mk (le c.bytes 32 8) (le c.bytes 40 8) (bits word 0 17) (bits word 17 6))
        else (s.epS e).cw.del i)
      ∧ t.mem = s.mem ∧ t.net = s.net ∧ t.plt = s.plt)

/-- The herd time unit (R60, R63, R64, R65, R329, R330). HERD_LOCK in edge mode, outside ACQUIRE and LOST, not locked in edge mode and
with no plate under a free run, enters ACQUIRE with its ports; locked in edge mode with another list of ports it ends OK and
`ref_port` is the best listed port with a valid word. HERD_LOCK in free-run mode locks a free run at once and ends OK. A received
timing word leaves its instants for the echo, and the first valid one of ACQUIRE steps herd time (the ticks that are added since its
receive instant are the model's choice: assumption log). Without valid words the unit goes from LOCKED to LOST; an
acquisition that takes 2^27 fc ends in LOST, or UNLOCKED with TIMEOUT; a silent reference port gives way to the best listed one. -/
def Obligations.HerdTimeActs : Prop :=
  (∀ s q slot c, s.inReset = false → s.Runs q slot 0x0010 c → bit (le c.bytes 16 1) 0 = false →
    s.htu ≠ 1 → s.htu ≠ 3 → (s.locked = true → s.freeRun = true ∧ s.plateBusy = false) → s.epsOf (le c.bytes 24 8) ≠ [] →
    ∃ t, exec (.herdLockEdge q slot) s = .next t ∧ t.htu = 1 ∧ t.rd hrdB KHRD_STATUS.free_run = 0
      ∧ t.plt.ports = le c.bytes 24 8 ∧ t.plt.acqT = s.fc ∧ t.plt.stepped = false ∧ t.plt.arm = none
      ∧ t.plt.reply = some (q, slot) ∧ t.herdTime = s.herdTime ∧ t.mem = s.mem ∧ t.net = s.net)
  ∧ (∀ s q slot c e, s.inReset = false → s.Runs q slot 0x0010 c → bit (le c.bytes 16 1) 0 = false → s.locked = true →
    s.freeRun = false → s.epsOf (le c.bytes 24 8) ≠ [] → s.plt.ports ≠ le c.bytes 24 8 → s.bestPort (le c.bytes 24 8) = some e →
    e < 64 →
    ∃ t, exec (.herdLockEdge q slot) s = .next t ∧ t.htu = 2 ∧ t.plt.ports = le c.bytes 24 8
      ∧ t.rd hrdB KHRD_STATUS.ref_port = e ∧ Answered s t q c OK (toLE 4 t.hrdStatus) ∧ t.herdTime = s.herdTime ∧ t.mem = s.mem
      ∧ t.net = s.net)
  ∧ (∀ s q slot c, s.inReset = false → s.Runs q slot 0x0010 c → bit (le c.bytes 16 1) 0 = true →
    s.htu ≠ 1 → s.htu ≠ 3 → (s.locked = true → s.freeRun = false ∧ s.plateBusy = false) →
    ∃ t, exec (.herdLockFreeRun q slot) s = .next t ∧ t.htu = 2 ∧ t.rd hrdB KHRD_STATUS.free_run = 1
      ∧ Answered s t q c OK (toLE 4 t.hrdStatus) ∧ t.herdTime = s.herdTime ∧ t.plt = s.plt ∧ t.mem = s.mem ∧ t.net = s.net)
  ∧ (∀ s ep x, s.inReset = false → s.nextFrame ep (fun f => f.good && f.type == 3) = some x →
    ∃ t, exec (.timingWordReceive ep) s = .next t ∧ (t.epS ep).peerTx = le x.bytes 16 8
      ∧ (t.epS ep).peerRecv = (x.at_ + 2 ^ 64 - s.rd (epB ep) KEDG_TIME_CFG.rx_lat) % 2 ^ 64
      ∧ (t.epS ep).rxFr = (s.epS ep).rxFr.drop 1)
  ∧ (∀ s ep x (t4 : Nat) (delay : Int), s.inReset = false → s.nextFrame ep (fun f => f.good && f.type == 3) = some x →
    t4 = (x.at_ + 2 ^ 64 - s.rd (epB ep) KEDG_TIME_CFG.rx_lat) % 2 ^ 64 →
    delay = (toS 64 (ofS 64 ((t4 : Int) - le x.bytes 24 8)) - toS 64 (ofS 64 ((le x.bytes 16 8 : Int) - le x.bytes 32 8))) / 2
      + toS 8 (s.rd (epB ep) KEDG_TIME_CFG.asym) → 0 ≤ delay → delay ≤ 2 ^ 20 → bit (le x.bytes 40 1) 0 = true → le x.bytes 24 8 ≠ 0 → since t4 (le x.bytes 24 8) < 2 ^ 16 →
    bit s.plt.ports ep = true → s.rd (epB ep) KEDG_STAT.cw_span = 0 → s.freeRun = false → s.htu = 1 → s.plt.stepped = false →
    ep < 64 →
    ∃ t, exec (.timingWordReceive ep) s = .next t ∧ t.htu = 1
      ∧ t.herdTime = (le x.bytes 16 8 + delay.toNat + since s.herdTime t4) % 2 ^ 64
      ∧ t.plt.stepped = true ∧ t.rd hrdB KHRD_STATUS.ref_port = ep ∧ t.fc = s.fc ∧ t.plateTime = s.plateTime)
  ∧ (∀ s, s.inReset = false → s.locked = true → s.freeRun = false → 2 ^ s.lossWin ≤ since s.herdTime s.plt.lastWord →
    ∃ t, exec .lossWindowExpiry s = .next t ∧ t.htu = 3 ∧ t.plt.arm = none
      ∧ (s.activeValid = true → t.plt.haltPend = some s.fc)
      ∧ t.rd hrdB KHRD_LOSS_CNT.loss_count = satAdd 16 (s.rd hrdB KHRD_LOSS_CNT.loss_count) 1
      ∧ t.herdTime = s.herdTime ∧ t.plt.active = s.plt.active ∧ t.mem = s.mem ∧ t.net = s.net)
  ∧ (∀ s, s.inReset = false → s.htu = 1 → s.plt.acqT + 2 ^ 27 ≤ s.fc → s.plt.fromLost = true →
    ∃ t, exec .acquireTimeout s = .next t ∧ t.htu = 3 ∧ t.plt = s.plt ∧ t.herdTime = s.herdTime ∧ t.mem = s.mem ∧ t.net = s.net)
  ∧ (∀ s q slot c, s.inReset = false → s.htu = 1 → s.plt.acqT + 2 ^ 27 ≤ s.fc → s.plt.fromLost = false →
    s.plt.reply = some (q, slot) → s.cmdOf q slot = some c → s.miomusUp = true →
    ∃ t, exec .acquireTimeout s = .next t ∧ t.htu = 0 ∧ t.plt.reply = none ∧ Answered s t q c TIMEOUT []
      ∧ t.herdTime = s.herdTime ∧ t.mem = s.mem ∧ t.net = s.net)
  ∧ (∀ s e, s.inReset = false → s.freeRun = false → s.htu = 1 ∨ s.htu = 2 →
    (∀ x ∈ s.plt.portWord, x.1 = s.rd hrdB KHRD_STATUS.ref_port →
      2 ^ (s.rd (epB x.1) KEDG_TIME_CFG.tw_log2 + 2) ≤ since s.herdTime x.2) → s.bestPort s.plt.ports = some e →
    exec .refPortChange s = .next (s.after fun w => w.wr hrdB KHRD_STATUS.ref_port e))

/-- Plate commands (R82, R84, R85, R99). A PLATE_LOAD that passes the checks of R82, with no load running and no arm pending, clears
the staged buffer and waits for as many acknowledgements as the plate has folio writes; with none left it ends OK and the plate is
staged; after 2^26 fc it ends TIMEOUT with no plate staged. A PLATE_ARM whose checks hold is pending at the epoch it names. A
PLATE_ABORT with a plate active or an arm pending waits for a boundary of a later fc. -/
def Obligations.PlateCommandsAct : Prop :=
  (∀ s q slot c p, s.inReset = false → s.Runs q slot 0x0020 c → s.rangeOk (le c.bytes 16 8) (le c.bytes 24 4) = true →
    s.plt.load = none → s.plt.arm = none →
    s.w0.imageStatus (loff (le c.bytes 16 8)) (le c.bytes 24 4) = OK →
    readImage okType (getBytes s.mem.cells (loff (le c.bytes 16 8)) (le c.bytes 24 4)) (loff (le c.bytes 16 8)) (le c.bytes 24 4) = some p →
    s.plateOk p = true → s.lanesOwned p = true →
    ∃ t, exec (.plateLoad q slot) s = .next t
      ∧ t.plt.load = some { plate := p, left := (s.plateWrites p).length, fc := s.fc, q := q, slot := slot }
      ∧ t.plt.staged = none ∧ t.rd hrdB KPLT_STATUS.staged_valid = 0 ∧ t.rd hrdB KPLT_STATUS.loading = 1
      ∧ t.plt.active = s.plt.active ∧ t.mem = s.mem)
  ∧ (∀ s q slot c l, s.inReset = false → s.cmdOf q slot = some c → s.miomusUp = true → s.plt.load = some l → l.q = q → l.slot = slot →
    l.left = 0 →
    ∃ t, exec (.plateLoadAcked q slot) s = .next t ∧ t.plt.load = none ∧ t.plt.staged = some l.plate
      ∧ t.rd hrdB KPLT_STATUS.staged_valid = 1 ∧ t.rd hrdB KPLT_STATUS.loading = 0 ∧ t.plt.active = s.plt.active
      ∧ Answered s t q c OK (toLE 2 l.plate.id ++ toLE 2 (min 1023 (s.platePower l.plate / 1000)))
      ∧ t.mem = s.mem ∧ t.net = s.net)
  ∧ (∀ s q slot c l, s.inReset = false → s.cmdOf q slot = some c → s.miomusUp = true → s.plt.load = some l → l.q = q → l.slot = slot →
    l.fc + 2 ^ 26 ≤ s.fc →
    ∃ t, exec (.plateLoadTimeout q slot) s = .next t ∧ t.plt.load = none ∧ t.plt.staged = none
      ∧ t.rd hrdB KPLT_STATUS.staged_valid = 0 ∧ t.plt.active = s.plt.active ∧ Answered s t q c TIMEOUT []
      ∧ t.mem = s.mem ∧ t.net = s.net)
  ∧ (∀ s q slot c p, s.inReset = false → s.Runs q slot 0x0021 c →
    (if bit (le c.bytes 18 1) 0 then (if s.halted then s.plt.active else none) else s.plt.staged) = some p →
    (∀ k < 20, bit p.beamMask k = true → (s.beamOf k).isSome = true) → s.locked = true → s.plt.load = none → s.plt.arm = none →
    s.inFault = false →
    2 ≤ (le c.bytes 16 2 + 2 ^ 16 - bits s.herdTime 16 16) % 2 ^ 16 →
    (le c.bytes 16 2 + 2 ^ 16 - bits s.herdTime 16 16) % 2 ^ 16 ≤ 32767 →
    ∃ t, exec (.plateArm q slot) s = .next t
      ∧ t.plt.arm = some { te := s.herdTime / 2 ^ 16 * 2 ^ 16 + (le c.bytes 16 2 + 2 ^ 16 - bits s.herdTime 16 16) % 2 ^ 16 * 2 ^ 16,
                           active := bit (le c.bytes 18 1) 0, q := q, slot := slot }
      ∧ t.rd hrdB KPLT_STATUS.arm_pending = 1 ∧ t.rd hrdB KPLT_ARM.arm_epoch = le c.bytes 16 2
      ∧ t.plt.active = s.plt.active ∧ t.plt.staged = s.plt.staged ∧ t.mem = s.mem ∧ t.net = s.net)
  ∧ (∀ s q slot c, s.inReset = false → s.Runs q slot 0x0022 c → (s.activeValid = true ∨ s.plt.arm.isSome = true) →
    ∃ t, exec (.plateAbort q slot) s = .next t ∧ t.plt.abortPend = some (s.plt.abortPend.getD s.fc) ∧ t.plt.aborts = s.plt.aborts ++ [(q, slot)]
      ∧ t.plt.active = s.plt.active ∧ t.mem = s.mem ∧ t.net = s.net)

/-- Slots, boundaries and decisions (R68, R69, R70, R72, R86, R88, R90, R112): in an unpaused fc each is done once. A decision fixes
whether the pending arm fires, and, for a next period without a plate, the q of that period. A boundary begins a period at this
plate time with the q decided; where the arm fires and nothing stops it, its plate is the active one. After a slot no
flight is overdue, and after LANE_DRAIN_END no lane's drain is. A stream whose limit has passed ends with the status that TIMEOUT gives it. -/
def Obligations.PlateTimeActs : Prop :=
  (∀ s throt, s.inReset = false → s.isPaused = false → s.plt.decisionDone = false → s.atBoundary = false →
    s.slotIdx + 64 = s.plt.curN →
    ∃ t, exec (.decisionFc throt) s = .next t ∧ t.plt.decisionDone = true ∧ t.plt.throt = throt
      ∧ (∀ a, s.plt.arm = some a → t.plt.swapFire = (s.locked && decide (a.te ≤ s.herdTime)))
      ∧ (s.plt.arm = none → t.plt.swapFire = false)
      ∧ (s.plt.arm = none → s.running = none → t.plt.qNext = some (max (s.qGov none)
          (max (s.rd hrdB KPLT_PAUSE.host_q) (if throt then s.rd hrdB KPLT_PAUSE.thr_q else 0))))
      ∧ t.plateTime = s.plateTime ∧ t.herdTime = s.herdTime ∧ t.mem = s.mem)
  ∧ (∀ s, s.inReset = false → s.isPaused = false → s.atBoundary = true → s.plt.boundaryDone = false →
    ∃ t, exec .periodBoundary s = .next t ∧ t.plt.boundaryDone = true ∧ t.plt.p0 = s.plateTime ∧ t.plt.qNext = none
      ∧ t.rd hrdB KPLT_PAUSE.q_now = (s.plt.qNext.getD (s.rd hrdB KPLT_PAUSE.q_now)) % 2 ^ 7)
  ∧ (∀ s a p, s.inReset = false → s.isPaused = false → s.atBoundary = true → s.plt.boundaryDone = false → s.plt.swapFire = true →
    s.plt.arm = some a → (if a.active then s.plt.active else s.plt.staged) = some p → s.plt.haltPend = none →
    s.plt.abortPend = none → s.flt.entryPeriod = false → s.flt.spare = none → s.plt.drain = none →
    ∃ t, exec .periodBoundary s = .next t ∧ t.plt.arm = none ∧ t.plt.active = some p ∧ t.rd hrdB KPLT_STATUS.active_valid = 1
      ∧ t.rd hrdB KPLT_STATUS.active_plate_id = p.id % 2 ^ 16 ∧ t.plt.curN = 64 * p.blocks ∧ t.herdTime = s.herdTime)
  ∧ (∀ s, s.inReset = false → s.isPaused = false → ∃ t, exec .laneDrainEnd s = .next t ∧ ∀ e ∈ t.plt.laneDrain, s.plateTime < e.2)
  ∧ (∀ s lanes rows tables, s.inReset = false → s.isPaused = false → s.plt.slotDone = false →
    ∃ t, exec (.slot lanes rows tables) s = .next t ∧ t.plt.slotDone = true ∧ ∀ f ∈ t.sch.flights, s.plateTime ≤ f.due)
  ∧ (∀ s st k, s.inReset = false → (s.strmAt st k).state = 2 → (s.strmAt st k).runFc + 2 ^ (s.strmAt st k).tlimit ≤ s.fc →
    ∃ t, exec (.streamTimeLimit st k) s = .next t ∧ (t.strmAt st k).state = 0
      ∧ (t.strmAt st k).lastStatus = (s.strmAt st k).status TIMEOUT)

/-- The route writer and the generations (R145, R150, R167, R168, R170, R171). A route image whose checks hold is staged and the command
ends OK with the staged generation; a commit with nothing draining and something staged is accepted at this herd time; a herd whose
checks hold is written, or released with no members named, and the command ends OK. A sweep that finds a packet of the draining
generation starts the count again; the second that finds none retires it; a drain of 2^24 fc sets `drain_late` and is a DRAIN fault.
A request answered STALE_GEN is held, or issued again at once when a newer generation is current; one held for 2^21 fc completes
STALE_GEN and is counted. -/
def Obligations.RouteWriterActs : Prop :=
  (∀ s q slot c, s.inReset = false → s.Runs q slot 0x0030 c →
    bits (le c.bytes 24 4) 0 19 ≠ 0 → bits (le c.bytes 24 4) 0 19 ≤ 262144 →
    s.rangeOk (le c.bytes 16 8) (32 * bits (le c.bytes 24 4) 0 19) = true → s.draining = false → s.net.commit = none →
    s.w0.imageStatus (loff (le c.bytes 16 8)) (32 * bits (le c.bytes 24 4) 0 19) = OK →
    (∀ r ∈ records (bits (le c.bytes 24 4) 0 19)
        (getBytes s.mem.cells (loff (le c.bytes 16 8)) (32 * bits (le c.bytes 24 4) 0 19)), s.recordOk r = true) →
    ∃ t, exec (.routeWrite q slot) s = .next t ∧ Answered s t q c OK (toLE 1 ((s.genCur + 1) % 256))
      ∧ t.rd gblB KGBL_RGEN.staging = 1
      ∧ (t.rbank (s.genCur + 1)).written = (records (bits (le c.bytes 24 4) 0 19)
          (getBytes s.mem.cells (loff (le c.bytes 16 8)) (32 * bits (le c.bytes 24 4) 0 19))).foldl
            (fun (x : Tbl Nat) r => x.put (bits (le r 0 2) 0 12 * 4096 + bits (le r 2 2) 0 12) (le r 16 16))
            (s.rbank (if s.rd gblB KGBL_RGEN.staging = 1 then s.genCur + 1 else s.genCur)).written
      ∧ t.rbank s.genCur = s.rbank s.genCur ∧ t.mem = s.mem)
  ∧ (∀ s q slot c, s.inReset = false → s.Runs q slot 0x0031 c → s.draining = false → s.net.commit = none →
    s.rd gblB KGBL_RGEN.staging ≠ 0 →
    ∃ t, exec (.routeCommit q slot) s = .next t ∧ t.net.commit = some { at_ := s.herdTime, q := q, slot := slot }
      ∧ t.regs = s.regs ∧ t.mem = s.mem ∧ t.plt = s.plt)
  ∧ (∀ s q slot c herd stage index n a ms, s.inReset = false → s.Runs q slot 0x00A1 c →
    herd = bits (le c.bytes 16 2) 0 12 → stage = bits (le c.bytes 18 1) 0 3 → index = bits (le c.bytes 18 1) 3 5 →
    n = bits (le c.bytes 20 2) 0 12 → a = le c.bytes 24 8 → herd < 0xF00 → n ≠ 0 → n ≤ 2048 →
    1 ≤ stage → stage ≤ 4 → (stage < 3 → index = 0) → (stage = 3 → index < s.fuse.tines) → (stage = 4 → index ≤ 19) →
    s.rangeOk a (2 * n) = true → s.ctxLive c.ctx = true → (s.hbank s.genCur).defs.find herd = none →
    s.w0.imageStatus (loff a) (2 * n) = OK →
    ms = (List.range n).map (fun i => bits (le (getBytes s.mem.cells (loff a) (2 * n)) (2 * i) 2) 0 12) →
    (∀ e ∈ ms, s.present e = true ∧ s.place.reaches stage index (ms.headD 0) e = true) → ms.Nodup →
    ∃ t, exec (.herdDefine q slot) s = .next t ∧ Answered s t q c OK []
      ∧ (t.hbank s.genCur).defs.find herd = some (HerdDef.mk c.ctx stage index ms s.place) ∧ t.mem = s.mem ∧ t.plt = s.plt)
  ∧ (∀ s q slot c herd d, s.inReset = false → s.Runs q slot 0x00A1 c → herd = bits (le c.bytes 16 2) 0 12 → herd < 0xF00 →
    bits (le c.bytes 20 2) 0 12 = 0 → s.ctxLive c.ctx = true → (s.hbank s.genCur).defs.find herd = some d → d.ctx = c.ctx →
    (∀ e ∈ s.col.grp, ¬(e.2.ctx = c.ctx ∧ e.2.rherd = herd)) →
    ∃ t, exec (.herdDefine q slot) s = .next t ∧ Answered s t q c OK []
      ∧ (t.hbank s.genCur).defs.find herd = none ∧ t.mem = s.mem ∧ t.plt = s.plt)
  ∧ (∀ s, s.inReset = false → s.draining = true → s.inFlight (s.genDrain % 2) ≠ 0 →
    exec .generationSweepEnd s = .next (s.after fun w => w.wr gblB KGBL_RGEN.zero_sweeps 0))
  ∧ (∀ s, s.inReset = false → s.draining = true → s.inFlight (s.genDrain % 2) = 0 → s.rd gblB KGBL_RGEN.zero_sweeps = 0 →
    exec .generationSweepEnd s = .next (s.after fun w => w.wr gblB KGBL_RGEN.zero_sweeps 1))
  ∧ (∀ s, s.inReset = false → s.draining = true → s.inFlight (s.genDrain % 2) = 0 → 1 ≤ s.rd gblB KGBL_RGEN.zero_sweeps →
    ∃ t, exec .generationSweepEnd s = .next t ∧ t.draining = false ∧ t.rd gblB KGBL_RGEN.zero_sweeps = 0 ∧ t.net = s.net
      ∧ t.mem = s.mem)
  ∧ (∀ s, s.inReset = false → s.draining = true → s.net.drainFc + 2 ^ 24 ≤ s.fc → s.net.lateTold = false →
    ∃ t, exec .drainLate s = .next t ∧ t.rd gblB KGBL_RGEN.drain_late = 1 ∧ t.net.lateTold = true
      ∧ bit (t.rd fltB (KFLT_STICKY.sticky.at 12)) clDRAIN = true ∧ t.mem = s.mem ∧ t.plt = s.plt)
  ∧ (∀ s unit a w1 p, s.inReset = false → 0x1000 ≤ unit → unit < 0x2000 →
    W.takeAny { toState := s, stores := [] } unit s.staleFirst = some (a, w1) → w1.net.stale.find a.sref = some p →
    w1.ctxFencedAt (unit - 0x1000) p.ctx = false → w1.fencedAll (unit - 0x1000) = false → w1.newerGen p = false →
    ∃ t, exec (.staleGenAnswer unit) s = .next t ∧ t.net.held = w1.net.held ++ [(unit, p, w1.fc)]
      ∧ t.net.stale = w1.net.stale.del a.sref)
  ∧ (∀ s unit a w1 p, s.inReset = false → 0x1000 ≤ unit → unit < 0x2000 →
    W.takeAny { toState := s, stores := [] } unit s.staleFirst = some (a, w1) → w1.net.stale.find a.sref = some p →
    w1.ctxFencedAt (unit - 0x1000) p.ctx = false → w1.fencedAll (unit - 0x1000) = false → w1.newerGen p = true →
    exec (.staleGenAnswer unit) s = .next (s.after fun _ => W.reissue { w1 with net.stale := w1.net.stale.del a.sref } unit p))
  ∧ (∀ s unit tag x, s.inReset = false → 0x1000 ≤ unit → unit < 0x2000 →
    s.net.held.find? (fun x => x.1 == unit && x.2.1.tag == tag && x.2.2 + 2 ^ 21 ≤ s.fc) = some x →
    exec (.staleHoldTimeout unit tag) s = .next (s.after fun w =>
      (W.inc { w with net.held := w.net.held.erase x } (unitB unit) KSTN_STALE.stale_fail).localAns unit x.2.1 STALE_GEN))

/-- Fences of a station (R404, R405, R407, R408), for a station of the package that no other fence, walk or substitution keeps busy. A
fence for one context that is not fenced sets its flag and ends with FENCED what is open of it, the descriptors with answers
outstanding when the last of these comes; one for every context fences the station at once. Removing a fence ends OK: the flag is
clear, or the station starts again. A walk that waits at a slice for a station without a logical number ends. -/
def Obligations.StationFencesAct : Prop :=
  (∀ s q slot c st, s.inReset = false → s.Runs q slot 0x0050 c → c.fenceEvery = false → st = s.phys c.fenceL →
    c.fenceL < s.nStations → c.ctx ≠ 0 → s.fenceRuns c.fenceL false = false → s.spareMoves c.fenceL = false →
    s.rd (stnB st) KSTN_FENCE.walk ≠ 1 → Tbl.get false s.sta.fctx (st * 4096 + c.ctx) = false →
    exec (.stationFenceCtx q slot) s = .next (s.after fun w =>
      ((W.endWork { w with sta.fctx := w.sta.fctx.put (st * 4096 + c.ctx) true } st (fun x => x == c.ctx) FENCED true).cmdStage
        q slot 1).fencePoll))
  ∧ (∀ s q slot c, s.inReset = false → s.Runs q slot 0x0050 c → c.fenceEvery = true → c.fenceL < s.nStations →
    s.fenceRuns c.fenceL true = false → s.spareMoves c.fenceL = false →
    s.rd (stnB (s.phys c.fenceL)) KSTN_FENCE.walk ≠ 1 → s.fencedAll (s.phys c.fenceL) = false →
    exec (.stationFenceAll q slot) s = .next (s.after fun w => ((w.fenceAll (s.phys c.fenceL)).cmdStage q slot 1).fencePoll))
  ∧ (∀ s q slot c st, s.inReset = false → s.Runs q slot 0x0051 c → c.fenceEvery = false → st = s.phys c.fenceL →
    c.fenceL < s.nStations → c.ctx ≠ 0 → s.fenceRuns c.fenceL false = false → s.spareMoves c.fenceL = false →
    s.rd (stnB st) KSTN_FENCE.walk ≠ 1 → Tbl.get false s.sta.fctx (st * 4096 + c.ctx) = true →
    ∃ t, exec (.stationUnfenceCtx q slot) s = .next t ∧ Answered s t q c OK []
      ∧ t.sta.fctx = s.sta.fctx.del (st * 4096 + c.ctx) ∧ t.mem = s.mem ∧ t.net = s.net)
  ∧ (∀ s q slot c, s.inReset = false → s.Runs q slot 0x0051 c → c.fenceEvery = true → c.fenceL < s.nStations →
    s.fenceRuns c.fenceL false = false → s.spareMoves c.fenceL = false →
    s.rd (stnB (s.phys c.fenceL)) KSTN_FENCE.walk ≠ 1 → s.fencedAll (s.phys c.fenceL) = true →
    exec (.stationUnfenceAll q slot) s = .next (s.after fun w =>
      let st := s.phys c.fenceL
      let w := (w.wr (stnB st) KSTN_FENCE.fenced_all 0).setSink st false
      (W.restart { w with sta.coreRst := w.sta.coreRst.del st } st).answer q slot OK))
  ∧ (∀ s slice x, s.inReset = false → s.msp.walks.find? (fun x => x.1 == slice) = some x → x.2 < 65536 → s.logi x.2 = none →
    exec (.directoryWalkEnd slice) s = .next (s.after fun w => (w.walkDone x).fencePoll))

/-- Routing in a router (R140, R142, R146, R149, R169, R406), of the first packet of an input VC whose header is not taken yet, with no
code error. One whose next hop entry names a live output that no sink closes goes on there, as one copy in which the router's input
port replaces that entry and no other and the pointer has moved by one, but for a pool part or a merge row that a unit of the router
takes whole; at a dead output it is absorbed as stale, at a sink that it does not pass it is absorbed there. One with a header that
R140 refuses is discarded and counted. A herd packet whose entry is valid and of its context goes to every output in use of its
herd's mask, all of them live and open. -/
def Obligations.RoutersRoute : Prop :=
  (∀ s router port vc i b out, s.inReset = false → isRouter router = true → port < 48 →
    (s.buf router port vc).findIdx? (fun b => !b.routed && !b.drop) = some i → (s.buf router port vc)[i]? = some b →
    hdrWrong router port vc b.pkt = false → b.pkt.hopPtr < b.pkt.hops → out = b.pkt.hopAt b.pkt.hopPtr →
    (out = 42 → b.pkt.op ≠ 0x60) → s.outOk router out b.pkt = true →
    s.portDead router out = false → (s.isSink router out = true → sinkPass b.pkt = true) →
    ¬(isRR router = true ∧ 5 ≤ port ∧ port ≤ 8 ∧ out ≤ 4 ∧ b.pkt.op = 0x41 ∧ pxFinal b.pkt = false) →
    ¬(isTine router = true ∧ (out = 17 ∨ out = 18) ∧ b.pkt.op = 0x42 ∧ mxMerged b.pkt = false) →
    exec (.packetRoute router port vc []) s = .next (s.after fun w =>
      w.setNth router port vc i { b with routed := true, copies := [Copy.mk out (hopOn b.pkt port) 0] }))
  ∧ (∀ s router port vc i b out, s.inReset = false → isRouter router = true → port < 48 →
    (s.buf router port vc).findIdx? (fun b => !b.routed && !b.drop) = some i → (s.buf router port vc)[i]? = some b →
    hdrWrong router port vc b.pkt = false → b.pkt.hopPtr < b.pkt.hops → out = b.pkt.hopAt b.pkt.hopPtr → b.pkt.op ≠ 0x60 →
    s.outOk router out b.pkt = true → s.portDead router out = false → s.isSink router out = false → b.last = true →
    (isRR router = true ∧ 5 ≤ port ∧ port ≤ 8 ∧ out ≤ 4 ∧ b.pkt.op = 0x41 ∧ pxFinal b.pkt = false) →
    exec (.packetRoute router port vc []) s = .next (s.after fun w =>
      (w.dropNth router port vc i).pushBuf router pPin { pkt := b.pkt, arrived := b.arrived, last := true, inp := port }))
  ∧ (∀ s router port vc i b out, s.inReset = false → isRouter router = true → port < 48 →
    (s.buf router port vc).findIdx? (fun b => !b.routed && !b.drop) = some i → (s.buf router port vc)[i]? = some b →
    hdrWrong router port vc b.pkt = false → b.pkt.hopPtr < b.pkt.hops → out = b.pkt.hopAt b.pkt.hopPtr → b.pkt.op ≠ 0x60 →
    s.outOk router out b.pkt = true → s.portDead router out = false → s.isSink router out = false → b.last = true →
    (isTine router = true ∧ (out = 17 ∨ out = 18) ∧ b.pkt.op = 0x42 ∧ mxMerged b.pkt = false) →
    exec (.packetRoute router port vc []) s = .next (s.after fun w =>
      (w.dropNth router port vc i).pushBuf router pMin { pkt := b.pkt, arrived := b.arrived, last := true, inp := port }))
  ∧ (∀ s router port vc i b out, s.inReset = false → isRouter router = true → port < 48 →
    (s.buf router port vc).findIdx? (fun b => !b.routed && !b.drop) = some i → (s.buf router port vc)[i]? = some b →
    hdrWrong router port vc b.pkt = false → b.pkt.hopPtr < b.pkt.hops → out = b.pkt.hopAt b.pkt.hopPtr →
    (out = 42 → b.pkt.op ≠ 0x60) → s.outOk router out b.pkt = true → s.portDead router out = true →
    exec (.packetRoute router port vc []) s = .next (s.after fun w => (w.dropNth router port vc i).staleGen router port b.pkt))
  ∧ (∀ s router port vc i b out, s.inReset = false → isRouter router = true → port < 48 →
    (s.buf router port vc).findIdx? (fun b => !b.routed && !b.drop) = some i → (s.buf router port vc)[i]? = some b →
    hdrWrong router port vc b.pkt = false → b.pkt.hopPtr < b.pkt.hops → out = b.pkt.hopAt b.pkt.hopPtr →
    (out = 42 → b.pkt.op ≠ 0x60) → s.outOk router out b.pkt = true → s.portDead router out = false →
    s.isSink router out = true → sinkPass b.pkt = false →
    exec (.packetRoute router port vc []) s = .next (s.after fun w => (w.dropNth router port vc i).sinkTake router port b.pkt))
  ∧ (∀ s router port vc i b, s.inReset = false → isRouter router = true → port < 48 →
    (s.buf router port vc).findIdx? (fun b => !b.routed && !b.drop) = some i → (s.buf router port vc)[i]? = some b →
    hdrWrong router port vc b.pkt = true →
    exec (.packetRoute router port vc []) s = .next (s.after fun w => (w.dropNth router port vc i).hdrBad router))
  ∧ (∀ s router port vc i b, s.inReset = false → isRouter router = true → port < 48 →
    (s.buf router port vc).findIdx? (fun b => !b.routed && !b.drop) = some i → (s.buf router port vc)[i]? = some b →
    b.pkt.herdMode = true → b.pkt.hopPtr = b.pkt.hops → b.pkt.hops < 7 →
    (s.herdEnt b.pkt.gen router b.pkt.dst).hvalid = true →
    (s.herdEnt b.pkt.gen router b.pkt.dst).hctx = b.pkt.ctx →
    (∀ o ∈ maskPorts router (s.herdEnt b.pkt.gen router b.pkt.dst).mask, s.outOk router o b.pkt = true ∧
      s.portDead router o = false ∧ s.isSink router o = false) →
    maskPorts router (s.herdEnt b.pkt.gen router b.pkt.dst).mask ≠ [] →
    exec (.herdRoute router port vc) s = .next (s.after fun w =>
      w.setNth router port vc i { b with
        routed := true
        copies := (maskPorts router (s.herdEnt b.pkt.gen router b.pkt.dst).mask).map (fun o =>
          Copy.mk o { b.pkt.setHop b.pkt.hopPtr port with hopPtr := b.pkt.hopPtr + 1, hops := b.pkt.hops + 1 } 0) }))
  ∧ (∀ (p : Packet) inp, p.hop < 2 ^ 42 → p.hopPtr < 7 → inp < 64 →
    (hopOn p inp).hopPtr = p.hopPtr + 1 ∧ (hopOn p inp).hopAt p.hopPtr = inp ∧ (hopOn p inp).hop < 2 ^ 42
      ∧ (∀ j, j < 7 → j ≠ p.hopPtr → (hopOn p inp).hopAt j = p.hopAt j)
      ∧ hopOn p inp = { p with hop := (hopOn p inp).hop, hopPtr := p.hopPtr + 1 })

/-- Substitutions (R168, R385, R394, R395, R397 to R400). A SPARE_MAP of a core, a die or a beam whose checks hold starts its
substitution: the core and the beam wait for the next boundary, the die's site is powered. The end of the site's proof lets it go on,
or ends it DEAD_TARGET with the site marked failed. A commit that is due makes the next generation current and the old one
drain, and its command ends OK with the new number. Due steers are in force. An edge lane that trains ends its trial; one that does not
is followed by the next lane. A part that Miomus is told of, or a bond port or base wire that its hardware gave up, is escalated. -/
def Obligations.SubstitutionsAct : Prop :=
  (∀ s q slot c what, s.inReset = false → s.Runs q slot 0x0052 c → bits (le c.bytes 16 1) 0 2 = 0 → what = bits (le c.bytes 18 2) 0 12 →
    what < s.nStations → s.posOf what ≠ 16 → s.spareBound (s.pregOf what) = false → s.spareFailed (s.pregOf what) = false →
    s.notReady what = false → s.flt.spare = none →
    ∃ t, exec (.spareMapCore q slot) s = .next t
      ∧ t.flt.spare = some { kind := 0, what := what, spare := 16, stage := 1, q := q, slot := slot } ∧ t.mem = s.mem ∧ t.net = s.net)
  ∧ (∀ s q slot c what site, s.inReset = false → s.Runs q slot 0x0052 c → bits (le c.bytes 16 1) 0 2 = 1 →
    what = bits (le c.bytes 18 2) 0 12 → what < s.fuse.cdActive → s.freeSite = some site →
    (∀ l ∈ moved 1 what, s.notReady l = false) → s.flt.spare = none →
    ∃ t, exec (.spareMapDie q slot) s = .next t
      ∧ t.flt.spare = some { kind := 1, what := what, spare := site, stage := 0, q := q, slot := slot }
      ∧ t.rd gblB KGBL_SITE.pon site = 1 ∧ t.boot.pdT.find site = some s.fc)
  ∧ (∀ s q slot c what b rest, s.inReset = false → s.Runs q slot 0x0052 c → bits (le c.bytes 16 1) 0 2 = 2 →
    what = bits (le c.bytes 18 2) 0 12 → what < 20 → s.freeBeams = b :: rest → s.flt.spare = none →
    ∃ t, exec (.spareMapBeam q slot) s = .next t
      ∧ t.flt.spare = some { kind := 2, what := what, spare := b, stage := 1, q := q, slot := slot } ∧ t.mem = s.mem)
  ∧ (∀ s site o, s.inReset = false → s.flt.spare = some o → o.kind = 1 → o.stage = 0 → o.spare = site →
    s.rd gblB KGBL_SITE.pgood site = 1 →
    exec (.siteProofEnd site true) s = .next { s with flt.spare := some { o with stage := 1 } })
  ∧ (∀ s site o c, s.inReset = false → s.flt.spare = some o → o.kind = 1 → o.stage = 0 → o.spare = site → s.cmdOf o.q o.slot = some c →
    s.miomusUp = true →
    ∃ t, exec (.siteProofEnd site false) s = .next t ∧ t.flt.spare = none ∧ t.rd gblB KGBL_SITE.sfailed site = 1
      ∧ t.rd gblB KGBL_SITE.pon site = 0 ∧ Answered s t o.q c DEAD_TARGET (s.spareData o) ∧ t.mem = s.mem ∧ t.net = s.net)
  ∧ (∀ s c, s.inReset = false → s.net.commit = some c → s.commitDue c = true →
    ∃ t, exec .commitEffect s = .next t ∧ t.net.commit = none ∧ t.genCur = (s.genCur + 1) % 256 ∧ t.genDrain = s.genCur
      ∧ t.draining = true ∧ t.rd gblB KGBL_RGEN.staging = 0 ∧ t.net.deadEp = s.net.deadNext ∧ t.net.drainFc = s.fc ∧ t.mem = s.mem)
  ∧ (∀ s c x, s.inReset = false → s.net.commit = some c → s.commitDue c = true → s.cmdOf c.q c.slot = some x → s.miomusUp = true →
    s.net.held = [] → s.flt.spare = none →
    ∃ t, exec .commitEffect s = .next t ∧ Answered s t c.q x OK (toLE 1 ((s.genCur + 1) % 256)))
  ∧ (∀ s, s.inReset = false →
    ∃ t, exec .bondSteerSwitch s = .next t ∧ t.flt.steers = s.flt.steers.filter (fun x => !notEarlier s.herdTime x.herd 64)
      ∧ t.mem = s.mem ∧ t.net = s.net ∧ t.sta = s.sta)
  ∧ (∀ s ep l, s.inReset = false → s.flt.trials.find ep = some l →
    exec (.edgeLaneTrialEnd ep true) s = .next { s with flt.trials := s.flt.trials.del ep })
  ∧ (∀ s ep l, s.inReset = false → s.flt.trials.find ep = some l → l < 3 →
    exec (.edgeLaneTrialEnd ep false) s = .next (s.after fun w =>
      { w.mapLane ep (l + 1) with flt.trials := s.flt.trials.put ep (l + 1) }))
  ∧ (∀ s loc part, s.inReset = false → partLoc loc part = loc → s.isDeadPart loc = false →
    (loc ∈ s.flt.escal ∧ s.miomusUp = true ∨ (∃ b, part = .bondPort b) ∨ ∃ u p, part = .baseLink u p) →
    exec (.escalation loc part) s = .next (s.after fun w =>
      (W.escalate { w with flt.escal := w.flt.escal.erase loc } loc part).sparePoll))

/-- Contexts (R415, R417, R419, R421 to R423), with no FUNC_REINIT of F4 running. A CTX_CREATE whose image passes its checks makes the
context LIVE with its grants and ends OK. CTX_FENCE of a live context, with a drain slot free, and CTX_RESET and CTX_DESTROY of a
fenced one are accepted and wait. A context drained, or drained by force after 400,000 fc, has ended its drain; a removal that has nothing
left to wait for makes a reset context LIVE, or lets a destroyed one be unbound; an unbound one is in quarantine and its
CTX_DESTROY ends OK; 2^21 ticks later its tag is FREE. -/
def Obligations.ContextsAct : Prop :=
  (∀ s q slot c a h n gs, s.inReset = false → s.cx.reinit = none → s.Runs q slot 0x0040 c → a = le c.bytes 16 8 →
    h = getBytes s.mem.cells (loff a) 32 → n = bits (le h 4 2) 0 10 →
    gs = (cut32 n (getBytes s.mem.cells (loff a + 32) (32 * n))).map grantOf →
    s.rangeOk a 32 = true → s.rangeOk a (32 + 32 * n) = true → c.ctx ≠ 0 → s.ctxAt c.ctx = none → s.liveCount < 256 →
    s.w0.imageStatus (loff a) (32 + 32 * n) = OK →
    bits (le h 0 2) 0 12 = c.ctx → bits (le h 0 2) 12 3 = 0 → bits (le h 4 2) 10 6 = 0 → le h 6 26 = 0 → 1 ≤ n →
    (∀ g ∈ gs, s.grantOk (bit (le h 0 2) 15) g = true) → (bit (le h 0 2) 15 = true → le h 2 2 = 0) →
    (∀ g ∈ gs, s.grantTaken g = false) → (∀ e ∈ s.cx.ctx, e.2.lanes &&& le h 2 2 = 0) →
    exec (.ctxCreate q slot) s = .next (s.after fun w =>
      let w := w.setCtx c.ctx { state := 1, remote := bit (le h 0 2) 15, lanes := le h 2 2,
                                grants := gs.map (fun g => { kind := g.kind, unit := g.unit, first := g.first, num := g.num }) }
      (w.each gs (fun w g => w.each g.idx (fun w i => w.startObj c.ctx g i))).answer q slot OK))
  ∧ (∀ s q slot c x, s.inReset = false → s.cx.reinit = none → s.Runs q slot 0x0041 c → c.ctx ≠ 0 → s.ctxAt c.ctx = some x →
    x.state = 1 → s.drainSlots.length < 4 →
    exec (.ctxFence q slot) s = .next (s.after fun w =>
      ((w.setCtx c.ctx { x with waits := x.waits ++ [(q, slot, 0)] }).cmdStage q slot 1).ctxAccept c.ctx 0))
  ∧ (∀ s q slot c x, s.inReset = false → s.cx.reinit = none → s.Runs q slot 0x0042 c → c.ctx ≠ 0 → s.ctxAt c.ctx = some x →
    x.state = 3 →
    exec (.ctxReset q slot) s = .next (s.after fun w =>
      ((w.setCtx c.ctx { x with waits := x.waits ++ [(q, slot, 1)] }).cmdStage q slot 1).ctxAccept c.ctx 1))
  ∧ (∀ s q slot c x, s.inReset = false → s.cx.reinit = none → s.Runs q slot 0x0043 c → c.ctx ≠ 0 → s.ctxAt c.ctx = some x →
    x.state = 3 →
    exec (.ctxDestroy q slot) s = .next (s.after fun w =>
      ((w.setCtx c.ctx { x with waits := x.waits ++ [(q, slot, 2)] }).cmdStage q slot 1).ctxAccept c.ctx 2))
  ∧ (∀ s ctx x, s.inReset = false → s.ctxAt ctx = some x → x.state = 2 → s.drained ctx = true → s.miomusUp = true →
    exec (.drainEnd ctx) s = .next (s.after fun w => w.drainEnded ctx))
  ∧ (∀ s ctx x, s.inReset = false → s.ctxAt ctx = some x → x.state = 2 → x.t0 + 400000 ≤ s.fc → s.drained ctx = false →
    exec (.drainForcedEnd ctx) s = .next (s.after fun w =>
      let w := (w.forceDrain ctx).inc gblB KGBL_CTX_CNT.drain_forced
      if w.miomusUp then w.drainEnded ctx else w))
  ∧ (∀ s ctx x, s.inReset = false → s.ctxAt ctx = some x → x.state = 4 → x.unbind = false → s.removed ctx = true → x.dpend = false →
    exec (.removalEnd ctx) s = .next (s.after fun w =>
      ((w.liftFence ctx).setCtx ctx { x with state := 1, guilty := false }).ctxReply ctx 1 OK))
  ∧ (∀ s ctx x, s.inReset = false → s.ctxAt ctx = some x → x.state = 5 → x.unbind = false → s.removed ctx = true →
    ∃ t, exec (.removalEnd ctx) s = .next t ∧ t.ctxAt ctx = some { x with unbind := true } ∧ t.mem = s.mem)
  ∧ (∀ s ctx x, s.inReset = false → s.ctxAt ctx = some x → x.state = 4 → x.unbind = false → s.removed ctx = true → x.dpend = true →
    exec (.removalEnd ctx) s = .next (s.after fun w =>
      (w.setCtx ctx { x with state := 5, dpend := false, unbind := true }).ctxReply ctx 1 OK))
  ∧ (∀ s ctx x, s.inReset = false → s.ctxAt ctx = some x → x.state = 5 → x.unbind = true → s.miomusUp = true →
    exec (.unbindingEnd ctx) s = .next (s.after fun w =>
      ((w.unbindAll ctx).setCtx ctx { x with state := 6, tq := (w.unbindAll ctx).herdTime, lanes := 0, grants := [] }).ctxReply ctx 2 OK))
  ∧ (∀ s ctx x, s.inReset = false → s.ctxAt ctx = some x → x.state = 6 → 2 ^ 21 ≤ since s.herdTime x.tq →
    ∃ t, exec (.quarantineEnd ctx) s = .next t ∧ t.ctxAt ctx = none ∧ t.mem = s.mem ∧ t.sta = s.sta)

/-- Hangs (R425, R426, R428). A heartbeat restarts the window; without one for 800,000 fc, once the management port was ready,
Miomus counts as hung. An engine that holds work and whose count has reached 2^`eng_wd_log2` bites: the plate loader's load and the route
writer's commit end, any other engine's bite waits for a search with the contexts that have work on it. A search with no suspect
left LIVE resets the engine and is unresolved; any other releases its suspects one by one, each after a window of 2^`replay_log2` fc,
and is unresolved when none is left. -/
def Obligations.HangsAct : Prop :=
  (∀ s, s.inReset = false →
    ∃ t, exec .heartbeat s = .next t ∧ t.flt.beat = some s.fc ∧ t.boot.hung = false ∧ t.mem = s.mem ∧ t.net = s.net)
  ∧ (∀ s, s.inReset = false → s.hbOk = false → s.boot.hung = false → s.rd gblB KGBL_BOOT.mp_ready ≠ 0 →
    (s.flt.beat = none → 800000 ≤ s.fc) →
    ∃ t, exec .heartbeatTimeout s = .next t ∧ t.boot.hung = true ∧ t.mem = s.mem ∧ t.net = s.net)
  ∧ (∀ s cls index, s.inReset = false → cls ≤ 6 → s.engineBusy cls index = true →
    2 ^ s.rd gblB KGBL_ENGWD.eng_wd_log2 ≤ s.engineCount cls index → s.cx.search = none →
    ∃ t, exec (.engineWatchdogBite cls index) s = .next t ∧ t.cx.bites = s.cx.bites ++ [(cls, index, s.engineCtx cls index)]
      ∧ t.mem = s.mem ∧ t.net = s.net)
  ∧ (∀ s index l, s.inReset = false → s.plt.load = some l → 2 ^ s.rd gblB KGBL_ENGWD.eng_wd_log2 ≤ s.engineCount 7 index →
    ∃ t, exec (.engineWatchdogBite 7 index) s = .next t ∧ t.plt.load = none ∧ t.plt.staged = none ∧ t.mem = s.mem ∧ t.net = s.net)
  ∧ (∀ s index c, s.inReset = false → s.net.commit = some c → 2 ^ s.rd gblB KGBL_ENGWD.eng_wd_log2 ≤ s.engineCount 8 index →
    ∃ t, exec (.engineWatchdogBite 8 index) s = .next t ∧ t.net.commit = none ∧ t.mem = s.mem ∧ t.plt = s.plt)
  ∧ (∀ s cls index work rest, s.inReset = false → s.cx.search = none → s.miomusUp = true → s.cx.bites = (cls, index, work) :: rest →
    s.liveOf work = [] →
    exec .replaySearchStart s = .next (s.after fun w =>
      ((W.inc { w with cx.bites := rest } gblB KGBL_HANG_CNT.searches).engineReset cls index).inc gblB KGBL_HANG_CNT.unresolved))
  ∧ (∀ s cls index work rest c more, s.inReset = false → s.cx.search = none → s.miomusUp = true →
    s.cx.bites = (cls, index, work) :: rest → s.liveOf work = c :: more →
    ∃ t, exec .replaySearchStart s = .next t ∧ t.rd gblB KGBL_HANG.search = 1 ∧ t.cx.bites = rest
      ∧ t.cx.search = some { cls := cls, index := index, wait := more, run := [c], t0 := s.fc })
  ∧ (∀ s x c more, s.inReset = false → s.cx.search = some x → x.t0 + 2 ^ s.rd gblB KGBL_ENGWD.replay_log2 ≤ s.fc → s.miomusUp = true →
    x.wait = c :: more →
    ∃ t, exec .replayWindowExpiry s = .next t ∧ t.cx.search = some { x with wait := more, run := x.run ++ [c], t0 := s.fc }
      ∧ t.mem = s.mem)
  ∧ (∀ s x, s.inReset = false → s.cx.search = some x → x.t0 + 2 ^ s.rd gblB KGBL_ENGWD.replay_log2 ≤ s.fc → s.miomusUp = true →
    x.wait = [] →
    ∃ t, exec .replayWindowExpiry s = .next t ∧ t.cx.search = none ∧ t.rd gblB KGBL_HANG.search = 0 ∧ t.mem = s.mem ∧ t.net = s.net)

/-- FUNC_REINIT (R101, R174, R238, R312, R352, R501), with none of F4 running: it re-initialises the function that it names and ends OK,
that of F4 when its recall has ended. -/
def Obligations.ReinitsAct : Prop :=
  ∀ s q slot c, s.inReset = false → s.Runs q slot 0x0060 c → s.cx.reinit = none →
    (bits (le c.bytes 16 1) 0 3 = 1 → exec (.funcReinitF1 q slot) s = .next (s.after fun w => w.reinitPlates.answer q slot OK))
    ∧ (bits (le c.bytes 16 1) 0 3 = 2 → exec (.funcReinitF2 q slot) s = .next (s.after fun w => w.reinitArb.answer q slot OK))
    ∧ (bits (le c.bytes 16 1) 0 3 = 3 → exec (.funcReinitF3 q slot) s = .next (s.after fun w => w.reinitRed.answer q slot OK))
    ∧ (bits (le c.bytes 16 1) 0 3 = 4 → exec (.funcReinitF4 q slot) s = .next (s.after fun w =>
        (W.cmdStage { w.reinitCoh with cx.reinit := some (q, slot) } q slot 1).reinitPoll))
    ∧ (bits (le c.bytes 16 1) 0 3 = 5 → exec (.funcReinitF5 q slot) s = .next (s.after fun w =>
        (w.reinitEdge.searchBreak (fun c => c == 6)).answer q slot OK))
    ∧ (bits (le c.bytes 16 1) 0 3 = 6 → exec (.funcReinitF6 q slot) s = .next (s.after fun w => w.reinitObs.answer q slot OK))

/-- Register accesses (R15, R16, R102, R179, R483). A read at an address of a part that is up, other than a claim register, returns the
register's value, and the RC fields it takes in that the reader may see hold after it what events of this fc counted; a claim
register read by a requester that may is a claim; a part that is not up reads 0. The low word of herd time, or of a 64-bit
counter, latches the high word. A write at any address of a part that is up is done by the part's own rules; on a part that is not
up it changes nothing. -/
def Obligations.RegisterAccessesAct : Prop :=
  (∀ s a who b wn, s.inReset = false → b = shareAddr (a / 4 * 4) → wn = winOf b → s.winUp wn = true →
    claimTarget wn (b - wn.base) = none →
    ∃ t, exec (.rcFieldRead a who) s = .next t ∧ Tbl.get 0 t.sta.regOut b = s.regVal b who
      ∧ (∀ x ∈ wn.at (b - wn.base), x.1.acc = .rc → s.sees who wn x.1 x.2 (s.selIdx wn.base x.1) = true →
          t.rd wn.base (x.1.at x.2) (s.selIdx wn.base x.1) = s.evSince wn.base (x.1.at x.2) (s.selIdx wn.base x.1) % 2 ^ x.1.width)
      ∧ t.mem = s.mem ∧ t.net = s.net ∧ t.flt = s.flt)
  ∧ (∀ s a who b wn tgt, s.inReset = false → b = shareAddr (a / 4 * 4) → wn = winOf b → s.winUp wn = true →
    claimTarget wn (b - wn.base) = some tgt → (who.priv = true ∨ ∃ n ctx, wn = .stn n ∧ who = .core n ctx) →
    exec (.rcFieldRead a who) s = .next (s.after (effIrqClaim tgt)))
  ∧ (∀ s a who b, s.inReset = false → b = shareAddr (a / 4 * 4) → s.winUp (winOf b) = false →
    exec (.rcFieldRead a who) s = .next { s with sta.regOut := Tbl.set 0 s.sta.regOut b 0 })
  ∧ (∀ s who, s.inReset = false → who.priv = true →
    ∃ t, exec (.khrdTimeLoRead who) s = .next t ∧ Tbl.get 0 t.sta.regOut (hrdB + 8) = s.herdTime % 2 ^ 32
      ∧ Tbl.get 0 t.obs.latch (hrdB + 12) = s.herdTime / 2 ^ 32 % 2 ^ 32 ∧ t.mem = s.mem ∧ t.herdTime = s.herdTime)
  ∧ (∀ s a who wn, s.inReset = false → who.priv = true → a = shareAddr (a / 4 * 4) → wn = winOf a → s.winUp wn = true →
    utilLow wn (a - wn.base) = some (a - wn.base) →
    ∃ t, exec (.counterLowWordRead a who) s = .next t
      ∧ Tbl.get 0 t.sta.regOut a = s.rd wn.base (utilF (a - wn.base)) % 2 ^ 32
      ∧ Tbl.get 0 t.obs.latch (a + 4) = s.rd wn.base (utilF (a - wn.base)) / 2 ^ 32 % 2 ^ 32
      ∧ t.mem = s.mem ∧ t.net = s.net)
  ∧ (∀ s a v who b, s.inReset = false → b = shareAddr (a / 4 * 4) → s.winUp (winOf b) = true →
    exec (.registerWrite a v who) s = .next (s.after fun w => match winOf b with
      | .stn n => w.stnWrite n (b - stnB n) v who
      | wn => if who.priv then w.privWrite wn (b - wn.base) v who else w))
  ∧ (∀ s a v who, s.inReset = false → s.winUp (winOf (shareAddr (a / 4 * 4))) = false → exec (.registerWrite a v who) s = .next s)

/-- Settings with checks of their own, as a privileged requester writes them, or for a pool table entry whoever may use it (R155, R164,
R241, R242, R317, R326, R479, R485). An accepted configuration of an event counter sets its fields and starts its count at 0 from the
next fc, a refused one sets `ecfg_reject` and leaves the count. Ticket weights of a router, an EP or a memory port that are at least 1,
with no W above 255, are written for the next fc; a router's that are not leave the weights and set `w_reject`. A pool table entry is
validated when its fields lie in their ranges, else `tcfg_reject` is set. The package number is written while no context is live, else
`pkg_reject` is set. A lane map write sets `spare_on` and `spare_lane`. -/
def Obligations.CheckedSettingsAct : Prop :=
  (∀ s a v who k ty, s.inReset = false → who.priv = true → K_ECFG.event.here (a - (winOf a).base) = some k →
    (winOf a).evType = some ty → s.winUp (winOf a) = true → ecfgBad ty k v = false →
    ∃ t, exec (.ecfgWrite a v who) s = .next t ∧ t.rd (winOf a).base (K_ECNT.ecnt.at k) = 0
      ∧ t.rd (winOf a).base (K_ECFG.event.at k) = bits v 0 8 ∧ t.rd (winOf a).base (K_ECFG.ectx.at k) = bits v 12 12
      ∧ Tbl.get 0 t.obs.cfgFc ((winOf a).unit * 4 + k) = s.fc + 1 ∧ t.mem = s.mem ∧ t.net = s.net ∧ t.sta = s.sta)
  ∧ (∀ s a v who k ty, s.inReset = false → who.priv = true → K_ECFG.event.here (a - (winOf a).base) = some k →
    (winOf a).evType = some ty → s.winUp (winOf a) = true → ecfgBad ty k v = true →
    ∃ t, exec (.ecfgWrite a v who) s = .next t ∧ t.rd (winOf a).base (K_ETHR.ecfg_reject.at k) = 1
      ∧ t.rd (winOf a).base (K_ECNT.ecnt.at k) = s.rd (winOf a).base (K_ECNT.ecnt.at k) ∧ t.obs = s.obs ∧ t.mem = s.mem)
  ∧ (∀ s u o v who fs, s.inReset = false → who.priv = true → (o = 0x480 ∨ o = 0x484 ∨ o = 0x488) → winOf (rtrB u + o) = .rtr u →
    s.winUp (.rtr u) = true → fs = ((Win.rtr u).at o).filter (fun x => x.1.acc == .rw) →
    (∀ x ∈ fs, 1 ≤ bits v x.1.lsb x.1.width) →
    State.maxTickets (s.after fun w => w.each fs (fun w x => w.wrLate (rtrB u) x.1 (bits v x.1.lsb x.1.width))) u ≤ 255 →
    exec (.ticketWeightWrite (rtrB u + o) v who) s = .next (s.after fun w =>
      w.each fs (fun w x => w.wrLate (rtrB u) x.1 (bits v x.1.lsb x.1.width))))
  ∧ (∀ s u o v who x, s.inReset = false → who.priv = true → (o = 0x480 ∨ o = 0x484 ∨ o = 0x488) → winOf (rtrB u + o) = .rtr u →
    s.winUp (.rtr u) = true → x ∈ (Win.rtr u).at o → x.1.acc = .rw → bits v x.1.lsb x.1.width = 0 →
    exec (.ticketWeightWrite (rtrB u + o) v who) s = .next (s.after fun w => w.flag (rtrB u) KRTR_ARB_EVT.w_reject))
  ∧ (∀ s e o v who fs, s.inReset = false → who.priv = true → (o = 0x480 ∨ o = 0x484 ∨ o = 0x488) → winOf (epB e + o) = .ep e →
    s.winUp (.ep e) = true → fs = ((Win.ep e).at o).filter (fun x => x.1.acc == .rw) →
    (∀ x ∈ fs, 1 ≤ bits v x.1.lsb x.1.width) →
    State.epTickets (s.after fun w => w.each fs (fun w x => w.wrLate (epB e) x.1 (bits v x.1.lsb x.1.width))) e ≤ 255 →
    exec (.ticketWeightWrite (epB e + o) v who) s = .next (s.after fun w =>
      w.each fs (fun w x => w.wrLate (epB e) x.1 (bits v x.1.lsb x.1.width))))
  ∧ (∀ s p v who, s.inReset = false → who.priv = true → winOf (mspB p + 0x104) = .msp p → s.winUp (.msp p) = true →
    (((Win.msp p).at 0x104).filter (fun x => x.1.acc == .rw)).all (fun x => 1 ≤ bits v x.1.lsb x.1.width) = true →
    (((Win.msp p).at 0x104).filter (fun x => x.1.acc == .rw)).foldl (fun n x => n + bits v x.1.lsb x.1.width) 0 ≤ 255 →
    exec (.ticketWeightWrite (mspB p + 0x104) v who) s = .next (s.after fun w =>
      w.each (((Win.msp p).at 0x104).filter (fun x => x.1.acc == .rw)) (fun w x => w.wrLate (mspB p) x.1 (bits v x.1.lsb x.1.width))))
  ∧ (∀ s st i who, s.inReset = false → s.mayUse who 7 st i = true → s.rd (stnB st) KSTN_PTAB_CFG.tvalid i ≠ 1 → s.ptabOk st i = true →
    ∃ t, exec (.poolTableValidate st i who) s = .next t ∧ t.rd (stnB st) KSTN_PTAB_CFG.tvalid i = 1 ∧ t.mem = s.mem
      ∧ t.net = s.net ∧ t.sta = s.sta ∧ t.irq = s.irq)
  ∧ (∀ s st i who, s.inReset = false → s.mayUse who 7 st i = true → s.rd (stnB st) KSTN_PTAB_CFG.tvalid i ≠ 1 → s.ptabOk st i = false →
    exec (.poolTableValidate st i who) s = .next (s.after fun w => (w.flag (stnB st) KSTN_PTAB_ROWS_HI.tcfg_reject 1 i).irqB st 12))
  ∧ (∀ s v who, s.inReset = false → who.priv = true → s.liveCount = 0 →
    ∃ t, exec (.pkgNumWrite v who) s = .next t ∧ t.rd gblB KGBL_PKG.pkg_num = v % 2 ^ 17 ∧ t.mem = s.mem ∧ t.net = s.net)
  ∧ (∀ s v who, s.inReset = false → who.priv = true → 0 < s.liveCount →
    ∃ t, exec (.pkgNumWrite v who) s = .next t ∧ t.rd gblB KGBL_PKG.pkg_reject = 1
      ∧ t.rd gblB KGBL_PKG.pkg_num = s.rd gblB KGBL_PKG.pkg_num ∧ t.mem = s.mem)
  ∧ (∀ s e v who, s.inReset = false → who.priv = true →
    ∃ t, exec (.laneMapWrite e v who) s = .next t ∧ t.rd (epB e) KEDG_LANE.spare_on = bits v 0 1
      ∧ t.rd (epB e) KEDG_LANE.spare_lane = bits v 1 2)

/-- Observability (R490 to R494, R497, R498, R500). COUNTER_READ and the requests of the package's and the stations' read ports, when
these are not busy, join the sweeper's order; the sweeper takes the first, one in an fc, and at the fc's end it is done: refused with
the status of its first check, or with the counter's value, an RC field being read as a register is. HISTO_READ whose checks
hold clears the unit, but for samples of this fc, and writes its record. TRACE_ARM whose checks hold empties and arms the buffer.
TRACE_STOP of a running buffer without a dump address stops it with its records kept, and one with a dump address sends the dump.
EP_DEPTH_SAMPLE samples each queue in an fc whose herd time is a multiple of 16. -/
def Obligations.ObservationsAct : Prop :=
  (∀ s q slot c, s.inReset = false → s.Runs q slot 0x0070 c →
    ∃ t, exec (.counterRead q slot) s = .next t
      ∧ t.obs.reads = s.obs.reads ++ [RdReq.mk (.command q slot) (bits (le c.bytes 16 4) 0 26) (if c.ctx = 0 then none else some c.ctx)]
      ∧ t.mem = s.mem ∧ t.net = s.net ∧ t.regs = s.regs)
  ∧ (∀ s a, s.inReset = false → s.rd obsB KOBS_RD_STAT.rd_busy ≠ 1 →
    ∃ t, exec (.packageReadRequest a) s = .next t ∧ t.rd obsB KOBS_RD_STAT.rd_busy = 1
      ∧ t.obs.reads = s.obs.reads ++ [RdReq.mk .package (a % 2 ^ 26) (if s.rd obsB KOBS_RD_CTX.rd_ctx = 0 then none else some (s.rd obsB KOBS_RD_CTX.rd_ctx))]
      ∧ t.mem = s.mem ∧ t.net = s.net)
  ∧ (∀ s st a dq, s.inReset = false → s.rd (stnB st) KSTN_ORD_STAT.ord_busy ≠ 1 →
    ∃ t, exec (.stationReadRequest st a dq) s = .next t ∧ t.rd (stnB st) KSTN_ORD_STAT.ord_busy = 1
      ∧ t.obs.reads = s.obs.reads ++ [RdReq.mk (.station st) (a % 2 ^ 26) (some (s.objCtx 0 st (dq % 8)))] ∧ t.mem = s.mem ∧ t.net = s.net)
  ∧ (∀ s r rest, s.inReset = false → s.obs.reads = r :: rest → s.obs.samp = [] →
    exec .counterSweep s = .next { s with obs.reads := rest, obs.samp := [r] })
  ∧ (∀ (w : W) r, w.obs.samp = [r] → w.readStatus r.addr r.ctx ≠ OK →
    w.sampleReads = W.readDone { w with obs.samp := [] } r (w.readStatus r.addr r.ctx) 0)
  ∧ (∀ (w : W) r, w.obs.samp = [r] → w.readStatus r.addr r.ctx = OK →
    utilLow (winOf r.addr) (r.addr - (winOf r.addr).base) = none →
    w.sampleReads = (W.regRead { w with obs.samp := [] } r.addr .miomus).readDone r OK (w.counterVal r.addr))
  ∧ (∀ (w : W) r, w.obs.samp = [r] → w.readStatus r.addr r.ctx = OK →
    utilLow (winOf r.addr) (r.addr - (winOf r.addr).base) ≠ none →
    w.sampleReads = W.readDone { w with obs.samp := [] } r OK (w.counterVal r.addr))
  ∧ (∀ s q slot c u a, s.inReset = false → s.Runs q slot 0x0071 c → u = le c.bytes 16 4 → a = le c.bytes 24 8 → s.capOk u = true →
    a % 64 = 0 → s.rangeOk a 96 = true →
    (c.ctx = 0 ∨ s.rd obsB KOBS_CAP_CFG.hctx_en u ≠ 0 ∧ s.rd obsB KOBS_CAP_CFG.hctx u = c.ctx) →
    (bits u 16 2 = 0 → s.winUp (.stn (bits u 4 12)) = true) →
    exec (.histoRead q slot) s = .next (s.after fun w =>
      let w : W := { w with obs.cap := w.obs.cap.put u (Cap.cleared (s.capAt u) s.fc s.herdTime) }
      let n := (splitGranules 97 (loff a) (capRecord u s.herdTime ((s.capAt u).seen s.fc))).length
      let w : W := { w with boot.cmds := w.boot.cmds.map (fun (x : Cmd) => if x = c then { x with stage := 1, a := n } else x) }
      w.fmpWrite a (capRecord u s.herdTime ((s.capAt u).seen s.fc)) (.cmdWrite q slot)))
  ∧ (∀ s q slot c b sel, s.inReset = false → s.Runs q slot 0x0072 c → b = le c.bytes 16 4 → sel = le c.bytes 20 4 → b ≤ 15 → bits sel 0 2 ≠ 3 →
    bits sel 2 6 = 0 → bits sel 16 16 ≤ 2047 → s.rd obsB (KOBS_TRC_SRC.tkind.at b) ≤ 4 →
    (le c.bytes 24 8 ≠ 0 → le c.bytes 24 8 % 64 = 0 ∧ s.rangeOk (le c.bytes 24 8) (64 + 32 * 2048) = true) →
    ∃ t, exec (.traceArm q slot) s = .next t ∧ Answered s t q c OK []
      ∧ Tbl.get {} t.obs.trc b = { mode := bits sel 0 2, event := bits sel 8 8, post := bits sel 16 16, dump := le c.bytes 24 8 }
      ∧ t.rd obsB (KOBS_TRC_STAT.tstate.at b) = 1 ∧ t.rd obsB (KOBS_TRC_STAT.tcount.at b) = 0 ∧ t.mem = s.mem ∧ t.net = s.net)
  ∧ (∀ s b, s.inReset = false → b ≤ 15 → (s.rd obsB (KOBS_TRC_STAT.tstate.at b) = 1 ∨ s.rd obsB (KOBS_TRC_STAT.tstate.at b) = 2) →
    (Tbl.get {} s.obs.trc b).dump = 0 →
    ∃ t, exec (.traceStop b) s = .next t ∧ t.rd obsB (KOBS_TRC_STAT.tstate.at b) = 3 ∧ (Tbl.get {} t.obs.trc b).stop = true
      ∧ (Tbl.get {} t.obs.trc b).recs = (Tbl.get {} s.obs.trc b).recs ∧ t.mem = s.mem ∧ t.net = s.net)
  ∧ (∀ s b d, s.inReset = false → b ≤ 15 → (s.rd obsB (KOBS_TRC_STAT.tstate.at b) = 1 ∨ s.rd obsB (KOBS_TRC_STAT.tstate.at b) = 2) →
    (Tbl.get {} s.obs.trc b).dump ≠ 0 → d = s.dumpBytes b (Tbl.get {} s.obs.trc b) →
    ∃ t, exec (.traceStop b) s = .next t ∧ t.rd obsB (KOBS_TRC_STAT.tstate.at b) = 3
      ∧ (Tbl.get {} t.obs.trc b).writes = (splitGranules (d.length + 1) (loff (Tbl.get {} s.obs.trc b).dump) d).length
      ∧ (Tbl.get {} t.obs.trc b).recs = (Tbl.get {} s.obs.trc b).recs)
  ∧ (∀ s, s.inReset = false → s.herdTime % 16 = 0 →
    exec .epDepthSample s = .next (s.after fun w => w.each (List.range s.fuse.edgePorts) (fun w e =>
      w.each (List.range 13) (fun w k => w.sample (capKey 1 e k) ((w.epS e).depth k) 0))))

/-- The fault collector (R379 to R392, R411). A report of a fatal class sets the sticky bit of its location and of its class, restarts
the quiet time, and outside the fault state makes the next fc the entry: then `fstate` is FAULT and the plate ends at the next
boundary. A condition is present until its detector takes it back. 20,000,000 quiet ticks release the block (held writes issue in
order, the recovery is stamped), or latch it at the ninth recovery in 2,000,000,000 ticks. Injected errors enter the windows as met
ones do. A W1C write clears the bits it names, but those that an event of this fc set. FAULT_CLEAR clears the groups it names and
answers the groups left; with `unlatch` it releases a latched block and forgets its recoveries, ends ALREADY where the block is
not latched and BUSY where a condition is present; more than five groups are BADOP. `stot` toggles at each multiple of 2,000,000 fc
while its conditions hold. -/
def Obligations.FaultsAct : Prop :=
  (∀ s cls loc, s.inReset = false → fatalClass cls = true → loc < 384 →
    ∃ t, exec (.faultEntry cls loc true) s = .next t ∧ t.rd fltB KFLT_STATE.fstate = s.rd fltB KFLT_STATE.fstate
      ∧ t.flt.entryFc = (if s.rd fltB KFLT_STATE.fstate = 0 ∧ s.flt.entryFc = none then some (s.fc + 1) else s.flt.entryFc)
      ∧ t.flt.lastFatal = s.herdTime ∧ bit (t.rd fltB (KFLT_STICKY.sticky.at 12)) cls = true
      ∧ bit (t.rd fltB (KFLT_STICKY.sticky.at (loc / 32))) (loc % 32) = true
      ∧ (isCondition cls = true → bit t.flt.present cls = true) ∧ (isCondition cls = false → t.flt.present = s.flt.present)
      ∧ t.mem = s.mem ∧ t.net = s.net ∧ t.plt = s.plt)
  ∧ (∀ s cls loc, s.inReset = false → isCondition cls = true → loc < 384 →
    ∃ t, exec (.faultEntry cls loc false) s = .next t ∧ bit t.flt.present cls = false ∧ t.flt.lastFatal = s.herdTime
      ∧ t.rd fltB KFLT_STATE.fatal_now = (if t.flt.present = 0 then 0 else 1)
      ∧ t.rd fltB KFLT_STATE.fstate = s.rd fltB KFLT_STATE.fstate ∧ t.flt.entryFc = s.flt.entryFc
      ∧ t.mem = s.mem ∧ t.net = s.net ∧ t.plt = s.plt)
  ∧ (∀ s : State, s.flt.entryFc.isSome = true → s.rd fltB KFLT_STATE.fstate = 0 →
    (s.after fun w => w.advance).rd fltB KFLT_STATE.fstate = 1 ∧ (s.after fun w => w.advance).flt.entryPeriod = true
      ∧ (s.after fun w => w.advance).flt.entered = s.fc + 1 ∧ (s.after fun w => w.advance).flt.entryFc = none)
  ∧ (∀ s, s.inReset = false → s.rd fltB KFLT_STATE.fstate = 1 → s.flt.present = 0 → 20000000 ≤ since s.herdTime s.flt.lastFatal →
    8 ≤ s.rcWin →
    ∃ t, exec .quietTimerExpiry s = .next t ∧ t.rd fltB KFLT_STATE.fstate = 2 ∧ t.flt = s.flt ∧ t.mem = s.mem ∧ t.net = s.net)
  ∧ (∀ s, s.inReset = false → s.rd fltB KFLT_STATE.fstate = 1 → s.flt.present = 0 → 20000000 ≤ since s.herdTime s.flt.lastFatal →
    s.rcWin < 8 →
    exec .quietTimerExpiry s = .next (s.after fun w =>
      { w.release.inc fltB KFLT_RCV.recoveries with
        flt.stamps := s.flt.stamps.filter (fun x => since s.herdTime x < 2000000000) ++ [s.herdTime] }))
  ∧ (∀ s, s.inReset = false → s.rd fltB KFLT_STATE.fstate = 1 → s.flt.present = 0 → 20000000 ≤ since s.herdTime s.flt.lastFatal →
    s.rcWin < 8 → s.msp.held = [] →
    ∃ t, exec .quietTimerExpiry s = .next t ∧ t.rd fltB KFLT_STATE.fstate = 0 ∧ t.flt.entryPeriod = false
      ∧ t.flt.stamps = s.flt.stamps.filter (fun x => since s.herdTime x < 2000000000) ++ [s.herdTime] ∧ t.mem = s.mem ∧ t.net = s.net)
  ∧ (∀ s, s.inReset = false → s.fc % 2000000 = 0 → s.flt.stotFc ≠ s.fc + 1 → s.stotRun = true → s.flt.entryFc = none →
    s.rd fltB KFLT_STOT.stot ≤ 1 →
    ∃ t, exec .stotToggle s = .next t ∧ t.rd fltB KFLT_STOT.stot = 1 - s.rd fltB KFLT_STOT.stot ∧ t.flt.stotFc = s.fc + 1
      ∧ t.mem = s.mem ∧ t.net = s.net)
  ∧ (∀ s, s.inReset = false →
    ∃ t, exec (.injFatal) s = .next t
      ∧ t.flt.entryFc = (if s.rd fltB KFLT_STATE.fstate = 0 ∧ s.flt.entryFc = none then some (s.fc + 1) else s.flt.entryFc)
      ∧ t.flt.lastFatal = s.herdTime ∧ bit (t.rd fltB (KFLT_STICKY.sticky.at 12)) clFORCED = true
      ∧ bit (t.rd fltB (KFLT_STICKY.sticky.at 11)) 7 = true ∧ t.mem = s.mem ∧ t.net = s.net)
  ∧ (∀ s src, s.inReset = false → src < 384 → exec (.injCorr src) s = .next (s.after fun w => w.onError src 1))
  ∧ (∀ s src, s.inReset = false → src < 384 → exec (.injUncorr src) s = .next (s.after fun w => (w.fault clUNCORR src).onError src 8))
  ∧ (∀ (s : State) src wt, src < 384 → (Tbl.get {} s.flt.loc src).lasting = false → (Tbl.get {} s.flt.loc src).n = 0 →
    wt ≤ 255 → wt ≤ s.rd fltB KFLT_CFG.lt_count →
    Tbl.get {} (s.after fun w => w.onError src wt).flt.loc src = { n := wt, t0 := s.herdTime, lasting := false })
  ∧ (∀ (s : State) src wt, src < 384 → (Tbl.get {} s.flt.loc src).lasting = false → (Tbl.get {} s.flt.loc src).n ≠ 0 →
    since s.herdTime (Tbl.get {} s.flt.loc src).t0 < s.rd fltB KFLT_CFG.lt_win * 2000 → (Tbl.get {} s.flt.loc src).n + wt ≤ 255 →
    s.rd fltB KFLT_CFG.lt_count < (Tbl.get {} s.flt.loc src).n + wt →
    (Tbl.get {} (s.after fun w => w.onError src wt).flt.loc src).lasting = true
      ∧ bit ((s.after fun w => w.onError src wt).rd fltB (KFLT_STICKY.sticky.at (src / 32))) (src % 32) = true
      ∧ bit ((s.after fun w => w.onError src wt).rd fltB (KFLT_STICKY.sticky.at 12)) clLASTING = true
      ∧ (s.after fun w => w.onError src wt).flt.escal = s.flt.escal ++ [src])
  ∧ (∀ s grp mask, s.inReset = false → grp < 32 →
    ∃ t, exec (.stickyClearWrite grp mask) s = .next t
      ∧ (∀ b, b < 32 → bit (t.rd fltB (KFLT_STICKY.sticky.at grp)) b
          = (bit (s.rd fltB (KFLT_STICKY.sticky.at grp)) b && !bit mask b
            || bit (s.evSince fltB (KFLT_STICKY.sticky.at grp)) b && bit mask b))
      ∧ (∀ g, g < 32 → g ≠ grp → t.rd fltB (KFLT_STICKY.sticky.at g) = s.rd fltB (KFLT_STICKY.sticky.at g))
      ∧ t.mem = s.mem ∧ t.net = s.net)
  ∧ (∀ s q slot c, s.inReset = false → s.Runs q slot 0x0081 c → 5 < bits (le c.bytes 17 1) 0 3 →
    ∃ t, exec (.faultClear q slot) s = .next t ∧ Answered s t q c BADOP (toLE 4 s.fltGroups) ∧ t.mem = s.mem ∧ t.net = s.net ∧ t.flt = s.flt)
  ∧ (∀ s q slot c, s.inReset = false → s.Runs q slot 0x0081 c → bits (le c.bytes 17 1) 0 3 = 0 → bit (le c.bytes 16 1) 0 = false →
    ∃ t, exec (.faultClear q slot) s = .next t ∧ Answered s t q c OK (toLE 4 s.fltGroups) ∧ t.mem = s.mem ∧ t.net = s.net ∧ t.flt = s.flt)
  ∧ (∀ s q slot c n st, s.inReset = false → s.Runs q slot 0x0081 c → n = bits (le c.bytes 17 1) 0 3 → n ≤ 5 →
    (bit (le c.bytes 16 1) 0 = false → st = OK) →
    (bit (le c.bytes 16 1) 0 = true → s.rd fltB KFLT_STATE.fstate ≠ 2 → st = ALREADY) →
    (bit (le c.bytes 16 1) 0 = true → s.rd fltB KFLT_STATE.fstate = 2 → s.flt.present ≠ 0 → st = BUSY) →
    (bit (le c.bytes 16 1) 0 = true → s.rd fltB KFLT_STATE.fstate = 2 → s.flt.present = 0 → False) →
    exec (.faultClear q slot) s = .next (s.after fun w =>
      let w := w.each (List.range n) (fun w i => w.clearSticky (bits (le c.bytes (24 + 8 * i) 4) 0 5) (le c.bytes (28 + 8 * i) 4))
      w.answer q slot st (toLE 4 w.fltGroups)))
  ∧ (∀ s q slot c n, s.inReset = false → s.Runs q slot 0x0081 c → n = bits (le c.bytes 17 1) 0 3 → n ≤ 5 → bit (le c.bytes 16 1) 0 = true →
    s.rd fltB KFLT_STATE.fstate = 2 → s.flt.present = 0 →
    exec (.faultClear q slot) s = .next (s.after fun w =>
      let w := w.each (List.range n) (fun w i => w.clearSticky (bits (le c.bytes (24 + 8 * i) 4) 0 5) (le c.bytes (28 + 8 * i) 4))
      W.answer { w.release with flt.stamps := [] } q slot OK (toLE 4 w.release.fltGroups)))

/-- The governor (R470 to R474): the lend duty is set at a block's first fc; every 125 fc the target moves by at most 1 W toward the
demand, and the ballast fills the draw up to it; at each whole microsecond the monitor raises GOV where two draws differ by more than
20 W or request and control differ, and takes it back where it finds neither. -/
def Obligations.GovernorActs : Prop :=
  (∀ s, s.inReset = false → s.isPaused = false → s.plt.blockDone = false → s.slotIdx % 64 = 0 →
    ∃ t, exec .blockStart s = .next t ∧ t.plt.duty = s.lendDuty ∧ t.plt.blockDone = true ∧ t.plt.pT = s.plt.pT
      ∧ t.mem = s.mem ∧ t.net = s.net ∧ t.flt = s.flt)
  ∧ (∀ s, s.inReset = false → s.plt.govFc + 125 ≤ s.fc →
    ∃ t, exec .targetStep s = .next t ∧ t.plt.pT = stepToward s.plt.pT s.demand ∧ t.plt.govFc = s.fc
      ∧ t.plt.ballast = t.plt.pT - t.plt.pR ∧ t.mem = s.mem ∧ t.regs = s.regs)
  ∧ (∀ s d, s.inReset = false → s.fc % 2000 = 0 → s.plt.monFc ≠ s.fc + 1 → d.differs = true →
    ∃ t, exec (.govMonitor d) s = .next t ∧ bit t.flt.present clGOV = true ∧ t.flt.lastFatal = s.herdTime
      ∧ t.plt.monLast = some d.measured ∧ t.plt.monFc = s.fc + 1 ∧ t.mem = s.mem)
  ∧ (∀ s d x, s.inReset = false → s.fc % 2000 = 0 → s.plt.monFc ≠ s.fc + 1 → s.plt.monLast = some x → jumps x d.measured = true →
    ∃ t, exec (.govMonitor d) s = .next t ∧ bit t.flt.present clGOV = true ∧ t.flt.lastFatal = s.herdTime
      ∧ t.plt.monLast = some d.measured ∧ t.plt.monFc = s.fc + 1 ∧ t.mem = s.mem)
  ∧ (∀ s d, s.inReset = false → s.fc % 2000 = 0 → s.plt.monFc ≠ s.fc + 1 → d.differs = false →
    (∀ x, s.plt.monLast = some x → jumps x d.measured = false) →
    ∃ t, exec (.govMonitor d) s = .next t ∧ bit t.flt.present clGOV = false ∧ t.plt.monLast = some d.measured
      ∧ t.mem = s.mem ∧ t.net = s.net)

/-- Interrupts (R356 to R371). An edge source with events whose time has come becomes pending. A claim with no winner reads 0; else it
makes the winner active with its events before this fc reported and those of this fc kept, and a shared source is pushed on the
target's stack. IRQ_DONE completes an active source of the bank, and counts `done_bad` on another; END_OF_INTERRUPT that matches the
top entry pops and completes it, and counts otherwise. Software sources raise what their mask names: numbers 24 to 31 of a bank, 32 to
63 of a region, 112 to 127 of the package. -/
def Obligations.InterruptsAct : Prop :=
  (∀ s k, s.inReset = false → srcLevel k = false → (s.irq1 k).pending = false → (s.irq1 k).events ≠ 0 → s.srcCtime k ≠ 0 →
    s.srcCtime k * 64 ≤ since s.herdTime (s.irq1 k).tstart →
    exec (.coalesceTimerExpiry k) s = .next (s.after fun w => w.irqSet k { w.toState.irq1 k with pending := true, pendFc := w.fc + 1 }))
  ∧ (∀ s target, s.inReset = false → targetOk target = true → s.irqWinner target = none →
    ∃ t, exec (.irqClaim target) s = .next t ∧ Tbl.get 0 t.sta.regOut (claimAddr target) = 0 ∧ t.irq = s.irq ∧ t.regs = s.regs
      ∧ t.mem = s.mem)
  ∧ (∀ s target k, s.inReset = false → targetOk target = true → s.irqWinner target = some k →
    ∃ t, exec (.irqClaim target) s = .next t ∧ (t.irq1 k).active = true ∧ (t.irq1 k).held = s.srcTarget k
      ∧ (t.irq1 k).events = (if srcLevel k then 0 else min 255 (if (s.irq1 k).nowFc = s.fc + 1 then (s.irq1 k).nowEv else 0))
      ∧ Tbl.get 0 t.sta.regOut (claimAddr target) = claimWord (srcNum k) (srcOrig k) (s.srcPrio k) (reported (s.irq1 k) (srcLevel k) s.fc)
          (if target = 5000 ∨ target = 5001 then (if srcOrig k = 2 then srcUnit k else 0) else 0)
      ∧ (srcOrig k ≠ 1 → t.irq.stk.find (s.stkKey target) = some (StkEnt.mk (srcOrig k) (if srcOrig k = 2 then srcUnit k else 0)
          (srcNum k) (s.srcPrio k) :: s.stkOf target))
      ∧ (srcOrig k = 1 → t.irq.stk = s.irq.stk) ∧ t.regs = s.regs ∧ t.mem = s.mem)
  ∧ (∀ s st n, s.inReset = false → n < 32 → (s.irq1 (bankSrc st n)).active = true →
    ∃ t, exec (.irqDone st n) s = .next t ∧ (t.irq1 (bankSrc st n)).active = false ∧ (t.irq1 (bankSrc st n)).doneFc = s.fc + 1
      ∧ (∀ k, k ≠ bankSrc st n → t.irq1 k = s.irq1 k) ∧ t.irq.stk = s.irq.stk ∧ t.regs = s.regs ∧ t.mem = s.mem)
  ∧ (∀ s st n, s.inReset = false → n < 32 → (s.irq1 (bankSrc st n)).active = false →
    exec (.irqDone st n) s = .next (s.after fun w => w.inc (stnB st) KSTN_IRQ_EVT.done_bad))
  ∧ (∀ s target e rest, s.inReset = false → targetOk target = true → s.stkOf target = e :: rest →
    ∃ t, exec (.endOfInterrupt target e.orig e.reg e.num) s = .next t ∧ t.stkOf target = rest ∧ (t.irq1 e.src).active = false
      ∧ (∀ k, k ≠ e.src → t.irq1 k = s.irq1 k) ∧ t.regs = s.regs ∧ t.mem = s.mem)
  ∧ (∀ s target orig reg num, s.inReset = false → targetOk target = true →
    (∀ e rest, s.stkOf target = e :: rest → e.orig ≠ orig ∨ e.num ≠ num ∨ (orig = 2 ∧ 5000 ≤ target ∧ e.reg ≠ reg)) →
    exec (.endOfInterrupt target orig reg num) s = .next (s.after fun w => w.eoiBad target))
  ∧ (∀ s st mask, s.inReset = false →
    exec (.irqSet st mask) s = .next (s.after fun w =>
      w.each ((List.range 8).filter (fun n => bit mask (24 + n))) (fun w n => w.irqB st (24 + n))))
  ∧ (∀ s st mask, s.inReset = false → (∀ n, n < 8 → bit mask (24 + n) = false) → exec (.irqSet st mask) s = .next s)
  ∧ (∀ s ctrl mask, s.inReset = false → ctrl < 132 →
    exec (.sharedIrqSet ctrl mask) s = .next (s.after fun w => w.each ((List.range 32).filter (bit mask)) (fun w n => w.irqR ctrl (32 + n))))
  ∧ (∀ s mask, s.inReset = false →
    exec (.sharedIrqSet 132 mask) s = .next (s.after fun w => w.each ((List.range 16).filter (bit mask)) (fun w n => w.irqP (112 + n))))

/-- The lottery arbiters (R151 to R165). A draw at an output makes, from the state without the packets that waited for a dead port, the
decision of its lottery for the next fc, once in an fc; a DAT output with no free lane to come decides nothing; a memory port's
input draws among its requesters. A window's start frees every quota of the arbiter. The watchdog ends a holder that waited too long:
its hold goes, and a packet sent in part is ended with one more phit. A credit word returns credits, and one whose codeword is
uncorrectable loses them. -/
def Obligations.ArbitersAct : Prop :=
  (∀ s u port net errs a s0, s.inReset = false → u < 0x2000 ∨ 0x2080 ≤ u ∨ port = 0 → s.peer u port ≠ none → net < 4 → a = s.arb u port net →
    a.drawn ≠ s.fc + 1 → s0 = (s.after fun w => w.absorbDead u port) → (net = 3 → s0.datOpen u port a = true) →
    ∃ t, exec (.arbiterDraw u port net errs) s = .next t ∧ (t.arb u port net).drawn = s.fc + 1
      ∧ (t.arb u port net).lfsr = (s0.draw u a (s0.requesters u port net) (s0.backOf u port net) (s0.eligible u port net a)).lfsr
      ∧ (t.arb u port net).grant = (s0.draw u a (s0.requesters u port net) (s0.backOf u port net) (s0.eligible u port net a)).grant)
  ∧ (∀ s u port errs a s0, s.inReset = false → u < 0x2000 ∨ 0x2080 ≤ u ∨ port = 0 → s.peer u port ≠ none → a = s.arb u port 3 →
    a.drawn ≠ s.fc + 1 → s0 = (s.after fun w => w.absorbDead u port) → s0.datOpen u port a = false → a.placing = [] →
    ∃ t, exec (.arbiterDraw u port 3 errs) s = .next t ∧ (t.arb u port 3).drawn = s.fc + 1
      ∧ (t.arb u port 3).lfsr = a.lfsr ∧ (t.arb u port 3).grant = none)
  ∧ (∀ s u port net errs, s.inReset = false → u < 0x2000 ∨ 0x2080 ≤ u ∨ port = 0 → s.peer u port ≠ none → net < 4 →
    (s.arb u port net).drawn = s.fc + 1 → exec (.arbiterDraw u port net errs) s = .next s)
  ∧ (∀ s m net errs, s.inReset = false → m < 64 → exec (.arbiterDraw (uMsp m) 1 net errs) s = .next (s.after fun w => w.mspDraw m))
  ∧ (∀ s u port net, s.inReset = false → s.herdTime % 2 ^ s.rdOld (setB u) KRTR_QUOTA.q_win_log2 = 0 →
    ∃ t, exec (.quotaWindowStart u port net) s = .next t ∧ (t.arb u port net).quota = []
      ∧ (t.arb u port net).lfsr = (s.arb u port net).lfsr ∧ (t.arb u port net).holds = (s.arb u port net).holds
      ∧ t.net.q = s.net.q ∧ t.regs = s.regs ∧ t.mem = s.mem)
  ∧ (∀ s u port net vc h i b c, s.inReset = false → (s.arb u port net).holds.find vc = some h →
    2 ^ s.rdOld (setB u) KRTR_WDOG.wd_log2 ≤ h.emptyT → Tbl.get 0 s.net.used (qKey u port vc) < vcDepth vc →
    (s.buf u h.src vc).findIdx? (fun b => b.copies.any (fun c => c.port == port && c.sent != 0)) = some i →
    (s.buf u h.src vc)[i]? = some b → b.copies.find? (fun c => c.port == port) = some c → c.pkt.vc = vc →
    ∃ t, exec (.watchdogBite u port net vc) s = .next t ∧ (t.arb u port net).holds.find vc = none
      ∧ Tbl.get 0 t.net.used (qKey u port vc) = Tbl.get 0 s.net.used (qKey u port vc) + 1
      ∧ bit (t.rd fltB (KFLT_STICKY.sticky.at 12)) clARB = true ∧ t.mem = s.mem)
  ∧ (∀ s u port net vc h, s.inReset = false → (s.arb u port net).holds.find vc = some h →
    2 ^ s.rdOld (setB u) KRTR_WDOG.wd_log2 ≤ h.emptyT → Tbl.get 0 s.net.used (qKey u port vc) < vcDepth vc →
    (s.buf u h.src vc).findIdx? (fun b => b.copies.any (fun c => c.port == port && c.sent != 0)) = none →
    ∃ t, exec (.watchdogBite u port net vc) s = .next t ∧ (t.arb u port net).holds.find vc = none ∧ t.net.used = s.net.used
      ∧ t.net.q = s.net.q ∧ bit (t.rd fltB (KFLT_STICKY.sticky.at 12)) clARB = true ∧ t.mem = s.mem)
  ∧ (∀ s u port cvc cnt errs v pv, s.inReset = false → s.peer u port = some (v, pv) → cvc < 16 → cnt ≤ 15 → errsOf errs 0 = [] →
    ∃ t, exec (.creditWordReceive u port cvc cnt errs) s = .next t
      ∧ Tbl.get 0 t.net.owed (qKey v pv cvc) = Tbl.get 0 s.net.owed (qKey v pv cvc) - cnt
      ∧ Tbl.get 0 t.net.used (qKey u port cvc)
          = Tbl.get 0 s.net.used (qKey u port cvc) - min cnt (Tbl.get 0 s.net.owed (qKey v pv cvc))
      ∧ t.net.q = s.net.q ∧ t.regs = s.regs ∧ t.mem = s.mem)
  ∧ (∀ s u port cvc cnt errs v pv n, s.inReset = false → s.peer u port = some (v, pv) → isRouter u = true → cvc < 16 → cnt ≤ 15 →
    n = min cnt (Tbl.get 0 s.net.owed (qKey v pv cvc)) → errsOf errs 0 ≠ [] →
    rxWord s.freeCtr (creditWord cvc n) (errsOf errs 0) = .lost →
    ∃ t, exec (.creditWordReceive u port cvc cnt errs) s = .next t
      ∧ Tbl.get 0 t.net.owed (qKey v pv cvc) = Tbl.get 0 s.net.owed (qKey v pv cvc) - n ∧ t.net.used = s.net.used
      ∧ t.rd (rtrB u) KRTR_ARB_EVT.credit_lost = 1 ∧ bit (t.rd fltB (KFLT_STICKY.sticky.at 12)) clARB = true
      ∧ bit (t.rd fltB (KFLT_STICKY.sticky.at 12)) clUNCORR = true ∧ t.mem = s.mem)

/-- READ, WRITE, CWRITE and ATOMIC at a target (R274, R277, R281 to R284, R290). The next one at a memory port that passes its checks
is performed, but a READ or ATOMIC of a busy line waits while the deferral pool is full (R298); one that is refused is answered with
its status. At a station the first that waits for no earlier access (R304, R305) is performed or refused. The FMP and the host are no
target: they answer BADOP (model's choice, log row 49). -/
def Obligations.TargetsAct : Prop :=
  (∀ s m p, s.inReset = false → m < 64 → s.nextReq m 0x02 = some p → s.memCheck m p = OK → s.deferBars m p = false →
    exec (.read (uMsp m)) s = .next (s.after fun w => (w.takeReq m p).readAt m p))
  ∧ (∀ s m p, s.inReset = false → m < 64 → s.nextReq m 0x01 = some p → s.memCheck m p = OK →
    exec (.write (uMsp m)) s = .next (s.after fun w => (w.takeReq m p).writeAt m p))
  ∧ (∀ s m p, s.inReset = false → m < 64 → s.nextReq m 0x0C = some p → s.memCheck m p = OK →
    exec (.cwrite (uMsp m)) s = .next (s.after fun w => (w.takeReq m p).writeAt m p))
  ∧ (∀ s m p, s.inReset = false → m < 64 → s.nextReq m 0x0A = some p → s.memCheck m p = OK → s.deferBars m p = false →
    exec (.atomic (uMsp m)) s = .next (s.after fun w => (w.takeReq m p).atomicAt m p))
  ∧ (∀ s m p, s.inReset = false → m < 64 → s.memCheck m p = OK → s.deferBars m p = true →
    (s.nextReq m 0x02 = some p → exec (.read (uMsp m)) s = .next s) ∧ (s.nextReq m 0x0A = some p → exec (.atomic (uMsp m)) s = .next s))
  ∧ (∀ s m p, s.inReset = false → m < 64 → s.memCheck m p ≠ OK →
    (s.nextReq m 0x02 = some p → exec (.read (uMsp m)) s = .next (s.after fun w => (w.takeReq m p).memRefuse m p (s.memCheck m p)))
    ∧ (s.nextReq m 0x01 = some p → exec (.write (uMsp m)) s = .next (s.after fun w => (w.takeReq m p).memRefuse m p (s.memCheck m p)))
    ∧ (s.nextReq m 0x0C = some p → exec (.cwrite (uMsp m)) s = .next (s.after fun w => (w.takeReq m p).memRefuse m p (s.memCheck m p)))
    ∧ (s.nextReq m 0x0A = some p → exec (.atomic (uMsp m)) s = .next (s.after fun w => (w.takeReq m p).memRefuse m p (s.memCheck m p))))
  ∧ (∀ s st p w, s.inReset = false → st < 4096 → s.w0.takeAny (uSt st) (fun x => x.op == 0x02 && !s.stnWaits st x) = some (p, w) →
    w.stnCheck st p = OK → exec (.read (uSt st)) s = .next (s.after fun _ => w.stnRead st p))
  ∧ (∀ s st p w, s.inReset = false → st < 4096 → s.w0.takeAny (uSt st) (fun x => x.op == 0x01 && !s.stnWaits st x) = some (p, w) →
    w.stnCheck st p = OK → exec (.write (uSt st)) s = .next (s.after fun _ => w.stnWriteAt st p))
  ∧ (∀ s st p w, s.inReset = false → st < 4096 → s.w0.takeAny (uSt st) (fun x => x.op == 0x0C && !s.stnWaits st x) = some (p, w) →
    w.stnCheck st p = OK → exec (.cwrite (uSt st)) s = .next (s.after fun _ => w.stnWriteAt st p))
  ∧ (∀ s st p w, s.inReset = false → st < 4096 → s.w0.takeAny (uSt st) (fun x => x.op == 0x0A && !s.stnWaits st x) = some (p, w) →
    w.stnCheck st p = OK → exec (.atomic (uSt st)) s = .next (s.after fun _ => w.stnAtomic st p))
  ∧ (∀ s st p w, s.inReset = false → st < 4096 → w.stnCheck st p ≠ OK →
    (s.w0.takeAny (uSt st) (fun x => x.op == 0x02 && !s.stnWaits st x) = some (p, w) → exec (.read (uSt st)) s
      = .next (s.after fun _ => (w.winDenied st (w.stnCheck st p == DENIED && !toRegs p)).cmp (uSt st) p (w.stnCheck st p)))
    ∧ (s.w0.takeAny (uSt st) (fun x => x.op == 0x01 && !s.stnWaits st x) = some (p, w) → exec (.write (uSt st)) s
      = .next (s.after fun _ => (w.winDenied st (w.stnCheck st p == DENIED && !toRegs p)).cmp (uSt st) p (w.stnCheck st p)))
    ∧ (s.w0.takeAny (uSt st) (fun x => x.op == 0x0C && !s.stnWaits st x) = some (p, w) → exec (.cwrite (uSt st)) s
      = .next (s.after fun _ => (w.winDenied st (w.stnCheck st p == DENIED && !toRegs p)).cmp (uSt st) p (w.stnCheck st p)))
    ∧ (s.w0.takeAny (uSt st) (fun x => x.op == 0x0A && !s.stnWaits st x) = some (p, w) → exec (.atomic (uSt st)) s
      = .next (s.after fun _ => (w.winDenied st (w.stnCheck st p == DENIED && !toRegs p)).cmp (uSt st) p (w.stnCheck st p))))
  ∧ (∀ s u p w, s.inReset = false → u = uFmp ∨ u = uHost →
    (s.Takes u 0x02 p w → exec (.read u) s = .next (s.after fun _ => w.cmp u p BADOP))
    ∧ (s.Takes u 0x01 p w → exec (.write u) s = .next (s.after fun _ => w.cmp u p BADOP))
    ∧ (s.Takes u 0x0C p w → exec (.cwrite u) s = .next (s.after fun _ => w.cmp u p BADOP))
    ∧ (s.Takes u 0x0A p w → exec (.atomic u) s = .next (s.after fun _ => w.cmp u p BADOP)))

/-- Visibility (R283, R284, R292, R304). 64 fc after the first uncounted visible write of a source its WCNT leaves. The controller's
acknowledgement makes a write visible: it is answered or counted, an ATOMIC is answered with the value before, a folio once the last of
its writes is acknowledged, and a directory entry that waited for its line goes on. A CCINC adds to its counter, or is counted where
its context does not own it. A core's write port takes up to two lines each fc, of the delivery buffer and then of the fold buffer. -/
def Obligations.VisibilityActs : Prop :=
  (∀ s u src c, s.inReset = false → s.msp.count.find (cntKey u src) = some c → c.fc + 64 ≤ s.fc →
    ∃ t, exec (.wcntTimer u src) s = .next t ∧ t.msp.count.find (cntKey u src) = none ∧ t.mem = s.mem ∧ t.regs = s.regs
      ∧ ∃ b, b ∈ t.buf u pInj 3 ∧ b.pkt.op = 0x0E ∧ b.pkt.dst = src ∧ b.pkt.aux = c.n)
  ∧ (∀ s port tag o p, s.inReset = false → s.msp.opens.find (port * 1024 + tag) = some o → o.we = true → o.act = .answer p →
    p.op ≠ 0x0A → p.op ≠ 0x07 →
    (p.op = 0x70 → (s.msp.opens.del (port * 1024 + tag)).any (fun x => x.2.we && x.2.act == .answer p) = false) →
    exec (.memoryWriteAck port tag) s = .next (s.after fun w =>
      W.visible { w with msp.opens := w.msp.opens.del (port * 1024 + tag) } (uMsp port) p))
  ∧ (∀ s port tag o p, s.inReset = false → s.msp.opens.find (port * 1024 + tag) = some o → o.we = true → o.act = .answer p →
    p.op = 0x0A →
    exec (.memoryWriteAck port tag) s = .next (s.after fun w =>
      W.reply { w with msp.opens := w.msp.opens.del (port * 1024 + tag) } (uMsp port)
        { ansTo p p.dst with vc := 3, op := 0x0B, len := 8, data := p.data, pois := p.pois, status := if p.bad then POISON else OK }))
  ∧ (∀ s port tag o key e, s.inReset = false → s.msp.opens.find (port * 1024 + tag) = some o → o.we = true → o.act = .line key →
    s.msp.dir.find key = some e →
    exec (.memoryWriteAck port tag) s = .next (s.after fun w =>
      (W.setDir { w with msp.opens := w.msp.opens.del (port * 1024 + tag) } key { e with upd := false }).dirFinish key))
  ∧ (∀ s st p w, s.inReset = false → s.Takes (uSt st) 0x0D p w → w.owns 5 st (p.aux % 256) p.ctx = true →
    ∃ t, exec (.ccinc st) s = .next t
      ∧ t.rd (stnB st) KSTN_CC.cc_value (p.aux % 256) = (w.rd (stnB st) KSTN_CC.cc_value (p.aux % 256) + p.addr) % 2 ^ 32)
  ∧ (∀ s st p w, s.inReset = false → s.Takes (uSt st) 0x0D p w → w.owns 5 st (p.aux % 256) p.ctx = false →
    exec (.ccinc st) s = .next (s.after fun _ => w.inc (stnB st) KSTN_MEM_EVT2.cc_denied))
  ∧ (∀ s st, s.inReset = false →
    exec (.writePortAccept st) s = .next (s.after fun w =>
      W.foldAccept (W.each ({ w with sta.dbuf := if ((w.sta.dbuf.find st).getD []).length ≤ 2 then w.sta.dbuf.del st
                                   else w.sta.dbuf.put st (((w.sta.dbuf.find st).getD []).drop 2) } : W)
        (((w.sta.dbuf.find st).getD []).take 2)
        (fun w x => (w.sramWrite st x.addr x.data (if x.poison then 1 else 0)).onWrite st x.act))
        st (2 - ((w.sta.dbuf.find st).getD []).length)))

/-- Folios (R139, R455, R456): at a router and at an endpoint, one that passes its checks is performed, and any other is answered with
the status of its check. -/
def Obligations.FoliosAct : Prop :=
  (∀ s u port i b w, s.inReset = false → isRouter u = true → s.routerFolio u port = some (i, b) → w = s.w0.dropNth u port 8 i →
    w.folioCheck u b.pkt ≠ OK →
    exec (.folio u port) s = .next (s.after fun _ => w.rtrAns u port b.pkt (w.folioCheck u b.pkt)))
  ∧ (∀ s u port i b w, s.inReset = false → isRouter u = true → s.routerFolio u port = some (i, b) → w = s.w0.dropNth u port 8 i →
    w.folioCheck u b.pkt = OK →
    exec (.folio u port) s = .next (s.after fun _ => w.folioDo u b.pkt (fun w => w.rtrAns u port b.pkt OK) (fun w d =>
      let hs := port :: (List.range b.pkt.hopPtr).reverse.map b.pkt.hopAt
      let q := folioBack { ansTo b.pkt b.pkt.dst with
        byRouter := true
        hop := hopList hs
        hops := b.pkt.hopPtr + 1
        hopPtr := 1 } b.pkt d
      w.pushBuf u pAns { pkt := q, arrived := q.size, last := true, routed := true, copies := [{ port := port, pkt := q }] })))
  ∧ (∀ s u port p w, s.inReset = false → isRouter u = false →
    s.w0.takeAny u (fun p => p.op == 0x70 && (p.ans != 0 || foSpace p != 0 || s.folioRoom u)) = some (p, w) → p.ans = 0 →
    w.folioCheck u p ≠ OK →
    exec (.folio u port) s = .next (s.after fun _ => w.cmp u p (w.folioCheck u p)))
  ∧ (∀ s u port p w, s.inReset = false → isRouter u = false →
    s.w0.takeAny u (fun p => p.op == 0x70 && (p.ans != 0 || foSpace p != 0 || s.folioRoom u)) = some (p, w) → p.ans = 0 →
    w.folioCheck u p = OK →
    exec (.folio u port) s = .next (s.after fun _ =>
      w.folioDo u p (fun w => w.cmp u p OK) (fun w d => w.reply u (folioBack (ansTo p p.dst) p d))))
  ∧ (∀ s port p w, s.inReset = false →
    s.w0.takeAny uHost (fun p => p.op == 0x70 && (p.ans != 0 || foSpace p != 0 || s.folioRoom uHost)) = some (p, w) → p.ans ≠ 0 →
    ∃ t, exec (.folio uHost port) s = .next t ∧ t.boot.toHost = s.boot.toHost ++ [p] ∧ t.mem = s.mem ∧ t.regs = s.regs)

/-- Coherent requests, write-backs, evictions and snoop answers at a memory port (R290, R295 to R303). A request of a near cache that
passes its checks is decided by the directory, one that fails them is refused, one that must be deferred while the pool is full waits. A
WB of the owner writes its line, for the snoop where one is out; of another station it is answered OK and ignored. An EVICT takes its
station from the holders, or is deferred while the line is busy. Each snoop answer counts down; data is written but for the bytes
written meanwhile. An owner that does not answer in time, with no answer waiting at the port, counts as lost. -/
def Obligations.DirectoryActs : Prop :=
  (∀ s m p, s.inReset = false → s.memCheck m p = OK → s.deferBars m p = false →
    (s.nextReq m 0x04 = some p → exec (.rdS m) s = .next (s.after fun w => (w.takeReq m p).coherent m p))
    ∧ (s.nextReq m 0x05 = some p → exec (.rdE m) s = .next (s.after fun w => (w.takeReq m p).coherent m p))
    ∧ (s.nextReq m 0x06 = some p → exec (.upgrade m) s = .next (s.after fun w => (w.takeReq m p).coherent m p)))
  ∧ (∀ s m p, s.inReset = false → s.memCheck m p ≠ OK →
    (s.nextReq m 0x04 = some p → exec (.rdS m) s = .next (s.after fun w => (w.takeReq m p).memRefuse m p (s.memCheck m p)))
    ∧ (s.nextReq m 0x05 = some p → exec (.rdE m) s = .next (s.after fun w => (w.takeReq m p).memRefuse m p (s.memCheck m p)))
    ∧ (s.nextReq m 0x06 = some p → exec (.upgrade m) s = .next (s.after fun w => (w.takeReq m p).memRefuse m p (s.memCheck m p))))
  ∧ (∀ s m p, s.inReset = false → s.memCheck m p = OK → s.deferBars m p = true →
    (s.nextReq m 0x04 = some p → exec (.rdS m) s = .next s) ∧ (s.nextReq m 0x05 = some p → exec (.rdE m) s = .next s)
    ∧ (s.nextReq m 0x06 = some p → exec (.upgrade m) s = .next s))
  ∧ (∀ s m p key e, s.inReset = false → s.nextReq m 0x07 = some p → s.memForm p = true → p.data.length = 64 →
    s.dirFind (m / 2) (loff p.addr / 64) = some (key, e) → 2 ≤ e.st → e.ptrs = [p.src] → e.busy = false →
    exec (.wb m) s = .next (s.after fun w => ((w.takeReq m p).delDir key).memIssue (heldOf m { p with aux := 0 })))
  ∧ (∀ s m p key e, s.inReset = false → s.nextReq m 0x07 = some p → s.memForm p = true → p.data.length = 64 →
    s.dirFind (m / 2) (loff p.addr / 64) = some (key, e) → 2 ≤ e.st → e.ptrs = [p.src] → e.busy = true → e.wbWait = true ∨ 0 < e.acks →
    exec (.wb m) s = .next (s.after fun w => ((w.takeReq m p).setDir key { e with ptrs := [], wbWait := false, upd := true }).memIssue
      (e.snoopWrite m p.data p.bad (.answer { p with aux := 1 }))))
  ∧ (∀ s m p, s.inReset = false → s.nextReq m 0x07 = some p → s.memForm p = true → p.data.length = 64 →
    (∀ key e, s.dirFind (m / 2) (loff p.addr / 64) = some (key, e) →
      e.st < 2 ∨ e.ptrs ≠ [p.src] ∨ (e.busy = true ∧ e.wbWait = false ∧ e.acks = 0)) →
    exec (.wb m) s = .next (s.after fun w => (w.takeReq m p).cmp (uMsp m) p OK))
  ∧ (∀ s m p key e l, s.inReset = false → s.nextReq m 0x08 = some p → s.memForm p = true →
    s.dirFind (m / 2) (loff p.addr / 64) = some (key, e) → e.vmode = false → p.src ∈ e.ptrs → l = e.ptrs.erase p.src → l ≠ [] → s.mustDefer m p = false →
    exec (.evict m) s = .next (s.after fun w => ((w.takeReq m p).setDir key { e with ptrs := l }).cmp (uMsp m) p OK))
  ∧ (∀ s m p key e, s.inReset = false → s.nextReq m 0x08 = some p → s.memForm p = true →
    s.dirFind (m / 2) (loff p.addr / 64) = some (key, e) → e.vmode = false → e.ptrs = [p.src] → s.mustDefer m p = false →
    exec (.evict m) s = .next (s.after fun w => ((w.takeReq m p).delDir key).cmp (uMsp m) p OK))
  ∧ (∀ s m p, s.inReset = false → s.nextReq m 0x08 = some p → s.memForm p = true →
    (∀ key e, s.dirFind (m / 2) (loff p.addr / 64) = some (key, e) → e.vmode = true ∨ p.src ∉ e.ptrs) → s.mustDefer m p = false →
    exec (.evict m) s = .next (s.after fun w => (w.takeReq m p).cmp (uMsp m) p OK))
  ∧ (∀ s m p, s.inReset = false → s.nextReq m 0x08 = some p → s.memForm p = true → s.mustDefer m p = true → s.deferFull m = false →
    exec (.evict m) s = .next (s.after fun w => (w.takeReq m p).defer m p))
  ∧ (∀ s m p w0 key w e, s.inReset = false → W.takeVc s.w0 (uMsp m) 3 (fun p => p.op == 0x58) = some (p, w0) →
    w0.snoopAns m p = (some key, w) → w.msp.dir.find key = some e → e.st = 1 →
    exec (.sack m) s = .next (s.after fun _ => (w.setDir key { e with acks := e.acks - 1 }).dirFinish key))
  ∧ (∀ s m p w0 key w e, s.inReset = false → W.takeVc s.w0 (uMsp m) 3 (fun p => p.op == 0x58) = some (p, w0) →
    w0.snoopAns m p = (some key, w) → w.msp.dir.find key = some e → 2 ≤ e.st →
    (bit p.aux 2 = true → e.ptrs ≠ [] →
      exec (.sack m) s = .next (s.after fun _ => (w.setDir key { e with acks := e.acks - 1, wbWait := true }).dirFinish key))
    ∧ (bit p.aux 2 = false → bits p.aux 0 2 = 0 →
      exec (.sack m) s = .next (s.after fun _ => (w.setDir key { e with acks := e.acks - 1, ptrs := [] }).dirFinish key))
    ∧ (bit p.aux 2 = false → bits p.aux 0 2 ≠ 0 →
      exec (.sack m) s = .next (s.after fun _ => (w.setDir key { e with acks := e.acks - 1 }).dirFinish key)))
  ∧ (∀ s m p key w e, s.inReset = false → s.nextReq m 0x59 = some p → W.snoopAns (s.w0.takeReq m p) m p = (some key, w) →
    w.msp.dir.find key = some e →
    exec (.sdata m) s = .next (s.after fun _ =>
      (w.setDir key { e with acks := e.acks - 1, upd := true }).memIssue (e.snoopWrite m p.data p.bad (.line key))))
  ∧ (∀ s m p key w e, s.inReset = false → s.nextReq m 0x59 = some p → W.snoopAns (s.w0.takeReq m p) m p = (some key, w) →
    w.msp.dir.find key = some e → e.wmask = 0 → e.ops = [] → p.data.length = 64 → w.inFault = false →
    ∃ t, exec (.sdata m) s = .next t ∧ getBytes t.mem.cells (e.line * 64) 64 = p.data
      ∧ ∀ x, (x < e.line * 64 ∨ e.line * 64 + 64 ≤ x) → Tbl.get 0 t.mem.cells x = Tbl.get 0 s.mem.cells x)
  ∧ (∀ s slice key e, s.inReset = false → s.msp.dir.find key = some e →
    e.acks ≤ (s.net.req.filter (fun (r : Nat × Req) => match r.2.own with
      | .snoop _ k => k == key
      | _ => false)).foldl (fun n r => n + min r.2.need (s.waitAns (portOf (e.line * 64)) (r.1 % 2 ^ 20))) 0 →
    exec (.snoopTimeout slice key) s = .next s)
  ∧ (∀ s slice key e, s.inReset = false → s.msp.dir.find key = some e → key / 131072 = slice → e.busy = true → e.acks ≠ 0 →
    e.snoopT + 2 ^ s.rd (sliceB slice) KMSP_DIR_CFG.snp_tl_log2 ≤ s.fc → (∀ ref, s.waitAns (portOf (e.line * 64)) ref = 0) →
    exec (.snoopTimeout slice key) s = .next (s.after fun w =>
      let w : W := { w with net.req := w.net.req.filter (fun (r : Nat × Req) => match r.2.own with
        | .snoop _ k => k != key
        | _ => true) }
      ((w.inc (sliceB slice) KMSP_DIR_EVT2.snp_tmo e.acks).fault clCOH (locMsp (portOf (e.line * 64)))).snoopLost
        (portOf (e.line * 64)) key e.acks))

/-- What the directory decides (R296, R297): an uncached line goes to its first reader as E, to a writer as M; a second reader of a shared
line becomes a sharer; a reader of a line that another station owns waits for that owner's snoop. -/
def Obligations.DirectoryDecides : Prop :=
  (∀ (s : State) m p key, s.dirFind (m / 2) (loff p.addr / 64) = none → s.freeWay (m / 2) (loff p.addr / 64) = some key →
    (s.after fun w => w.coherent m p).msp.dir.find key
      = some { line := loff p.addr / 64, st := if p.op = 4 then 2 else 3, ptrs := [p.src], lru := s.msp.lruSeq + 1 })
  ∧ (∀ (s : State) m p key e, s.dirFind (m / 2) (loff p.addr / 64) = some (key, e) → e.busy = false → e.st = 1 → p.op = 4 → e.vmode = false →
    e.ptrs.contains p.src = false → e.ptrs.length < 4 →
    (s.after fun w => w.coherent m p).msp.dir.find key = some { e with ptrs := e.ptrs ++ [p.src], lru := s.msp.lruSeq + 1 })
  ∧ (∀ (s : State) m p key e o, s.dirFind (m / 2) (loff p.addr / 64) = some (key, e) → e.busy = false → 2 ≤ e.st → e.ptrs = [o] → o ≠ p.src →
    e.vmode = false → p.op = 4 →
    ∃ x, (s.after fun w => w.coherent m p).msp.dir.find key = some x ∧ x.busy = true ∧ x.acks = 1 ∧ x.pend = some (m, p) ∧ x.st = e.st
      ∧ (s.after fun w => w.coherent m p).mem = s.mem)
  ∧ (∀ (s : State) m p key e, s.dirFind (m / 2) (loff p.addr / 64) = some (key, e) → e.busy = true →
    (s.after fun w => w.coherent m p).msp.dir = s.msp.dir
      ∧ (s.after fun w => w.coherent m p).msp.defer.find (m / 2) = some ((s.msp.defer.find (m / 2)).getD [] ++ [(m, p)]))

/-- The core's memory port (R285 to R289, R301, R307). A request is not taken while its tag is open, the core is held in reset, 256 are
open or no answer has room; one that fails its checks is refused and nothing is sent; one that passes sends its pieces, and a posted
WRITE, or one of which no byte is enabled, is answered at once. A fence waits for the core's writes. A request out of time is answered
with the worst of TIMEOUT and the statuses received. A snoop is presented to the core, or answered WBP while a WB of the line is out; the
core's answer leaves, and counts as late after 1,024 fc. A descriptor out of time ends TIMEOUT, and its answers to come are late. -/
def Obligations.CorePortActs : Prop :=
  (∀ s st r, s.inReset = false → r.op ≠ 8 → r.op ≠ 9 → s.coreBusy st r.tag (corePieces r).length = true →
    exec (.coreMemoryRequest st r) s = .next s)
  ∧ (∀ s st r, s.inReset = false → r.op ≠ 8 → r.op ≠ 9 → s.coreBusy st r.tag (corePieces r).length = false → s.coreCheck st r ≠ OK →
    exec (.coreMemoryRequest st r) s = .next (s.after fun w => w.coreRefuse st r.tag (s.coreCheck st r)))
  ∧ (∀ s st r, s.inReset = false → r.op ≠ 8 → r.op ≠ 9 → s.coreBusy st r.tag (corePieces r).length = false → s.coreCheck st r = OK →
    corePieces r ≠ [] → (r.op = 1 → r.posted = false) →
    exec (.coreMemoryRequest st r) s = .next (s.after fun w =>
      W.each { w with sta.core := w.sta.core.put (coreKey st r.tag)
                        { op := r.op, addr := r.addr, len := coreLen r, fc := w.fc, ctx := r.ctx, need := (corePieces r).length } }
        (corePieces r) (fun w x => w.request (uSt st) (w.corePacket r x.1 x.2) (.core r.tag x.1))))
  ∧ (∀ s st r, s.inReset = false → r.op = 0 → corePieces r = [(0, r.len)] → s.coreBusy st r.tag 1 = false → s.coreCheck st r = OK →
    exec (.coreMemoryRequest st r) s = .next (s.after fun w =>
      W.request { w with sta.core := w.sta.core.put (coreKey st r.tag) { op := 0, addr := r.addr, len := r.len, fc := w.fc, ctx := r.ctx } }
        (uSt st) { vc := 1, op := 0x02, dst := (s.dstOf r.addr).2, ctx := r.ctx, addr := r.addr, aux := r.len } (.core r.tag 0)))
  ∧ (∀ s st r, s.inReset = false → r.op = 1 → r.posted = true ∨ corePieces r = [] → s.coreBusy st r.tag (corePieces r).length = false →
    s.coreCheck st r = OK →
    exec (.coreMemoryRequest st r) s = .next (s.after fun w =>
      (w.each (corePieces r) (fun w x => w.postWrite st (w.corePacket r x.1 x.2) true)).coreResp st
        { tag := r.tag, status := OK, state := 0, data := [], poison := 0 }))
  ∧ (∀ s st tag scope ctx, s.inReset = false → s.coreAt st tag = none → s.coreHeld st = false →
    (s.sta.core.filter (fun e => e.1 / 256 == st)).length < 256 →
    exec (.coreFence st tag scope ctx) s = .next (s.after fun w =>
      W.fences { w with sta.core := w.sta.core.put (coreKey st tag)
                          { op := 8 + scope % 2, addr := 0, len := 0, fc := w.fc, ctx := ctx,
                            need := 2 ^ 20 + Tbl.get 0 w.sta.postSeq st, scope := scope % 2 } } st))
  ∧ (∀ s st tag c sts, s.inReset = false → s.coreAt st tag = some c → c.fc + 2 ^ s.rd (stnB st) KSTN_MEM_CFG.req_tl_log2 ≤ s.fc →
    sts = (s.net.req.filter (fun (r : Nat × Req) => r.1 / 2 ^ 20 == uSt st && !r.2.late && (match r.2.own with
      | .core t _ => t == tag
      | _ => false))).flatMap (fun r => r.2.sts) →
    ∃ t, exec (.requestTimeout st tag) s = .next t ∧ t.coreAt st tag = none
      ∧ (t.sta.resp.find st).getD [] = (s.sta.resp.find st).getD [] ++ [CoreResp.mk tag (worst (TIMEOUT :: sts)) 0 [] 0] ∧ t.mem = s.mem)
  ∧ (∀ s st i p w, s.inReset = false → (List.range 64).find? (fun i => (s.sta.snoops.find (snpKey st i)).isNone) = some i →
    s.wbOut st p.addr = false →
    (W.takeVc s.w0 (uSt st) 5 (fun p => p.op == 0x50) = some (p, w) →
      ∃ t, exec (.snpInv st) s = .next t ∧ t.sta.snoops.find (snpKey st i) = some { op := 0, addr := p.addr / 64, pkt := p, fc := s.fc }
        ∧ t.mem = s.mem ∧ t.regs = s.regs)
    ∧ (W.takeVc s.w0 (uSt st) 5 (fun p => p.op == 0x51) = some (p, w) →
      ∃ t, exec (.snpDown st) s = .next t ∧ t.sta.snoops.find (snpKey st i) = some { op := 1, addr := p.addr / 64, pkt := p, fc := s.fc }
        ∧ t.mem = s.mem ∧ t.regs = s.regs)
    ∧ (W.takeVc s.w0 (uSt st) 5 (fun p => p.op == 0x52) = some (p, w) →
      ∃ t, exec (.snpFlush st) s = .next t ∧ t.sta.snoops.find (snpKey st i) = some { op := 2, addr := p.addr / 64, pkt := p, fc := s.fc }
        ∧ t.mem = s.mem ∧ t.regs = s.regs))
  ∧ (∀ s st p w, s.inReset = false → ((List.range 64).find? (fun i => (s.sta.snoops.find (snpKey st i)).isNone)).isSome = true →
    s.wbOut st p.addr = true →
    (W.takeVc s.w0 (uSt st) 5 (fun p => p.op == 0x50) = some (p, w) →
      exec (.snpInv st) s = .next (s.after fun _ => w.snpAnswer st p 4 false []))
    ∧ (W.takeVc s.w0 (uSt st) 5 (fun p => p.op == 0x51) = some (p, w) →
      exec (.snpDown st) s = .next (s.after fun _ => w.snpAnswer st p 4 false []))
    ∧ (W.takeVc s.w0 (uSt st) 5 (fun p => p.op == 0x52) = some (p, w) →
      exec (.snpFlush st) s = .next (s.after fun _ => w.snpAnswer st p 4 false [])))
  ∧ (∀ s st id state dirty data x, s.inReset = false → s.sta.snoops.find (snpKey st id) = some x → x.fc + 1024 < s.fc →
    exec (.coreSnoopAnswer st id state dirty data) s = .next (s.after fun w =>
      let w := w.inc (stnB st) KSTN_MEM_EVT2.snp_late
      W.snpAnswer { w with sta.snoops := w.sta.snoops.del (snpKey st id) } st x.pkt (state % 4) dirty data))
  ∧ (∀ s st id state dirty data x, s.inReset = false → s.sta.snoops.find (snpKey st id) = some x → s.fc ≤ x.fc + 1024 →
    exec (.coreSnoopAnswer st id state dirty data) s = .next (s.after fun w =>
      W.snpAnswer { w with sta.snoops := w.sta.snoops.del (snpKey st id) } st x.pkt (state % 4) dirty data))
  ∧ (∀ s st e l j, s.inReset = false → s.logAt st e = some l → s.jobAt st e = some j → 3 ≤ le l.desc 0 1 → le l.desc 0 1 ≤ 5 → j.tl ≠ 0 →
    j.t0 + 2 ^ j.tl ≤ s.fc →
    exec (.descriptorTimeLimit st e) s = .next (s.after fun w =>
      let posts := ((w.sta.posted.find st).getD []).map (fun (x : PostRec) => if x.desc = some e then { x with desc := none } else x)
      let w : W := { w with sta.posted := if posts = [] then w.sta.posted else w.sta.posted.put st posts }
      let w : W := { w with net.req := w.net.req.map (fun (r : Nat × Req) =>
        if r.1 / 2 ^ 20 = uSt st ∧ (match r.2.own with | .desc x _ _ => x == e | _ => false) = true then (r.1, { r.2 with late := true }) else r) }
      (w.started st e).complete st e TIMEOUT j.b))

/-- Answers with data (R280 to R282) settle the request they name: the core's at its port, a descriptor's into core SRAM; one of a
station's request that timed out is late; one at the host attachment goes to the host. WCNT settles posted writes (R283). -/
def Obligations.DataAnswersAct : Prop :=
  (∀ s u p w ref r, s.inReset = false → u ≠ uHost → ¬ (0x2040 ≤ u ∧ u < 0x2080) → w.reqOf u p = some (ref, r) → r.late = false →
    W.takeAny s.w0 u (fun p => p.op == 0x03 && !s.forPop u p && !(0x2040 ≤ u && u < 0x2080)) = some (p, w) →
    exec (.rdata u) s = .next (s.after fun _ => (w.delReq u ref).dataFor u r p))
  ∧ (∀ s st p w ref r, s.inReset = false → st < 4096 → w.reqOf (uSt st) p = some (ref, r) → r.late = false →
    (W.takeAny s.w0 (uSt st) (fun p => p.op == 0x09 && !s.forPop (uSt st) p && !(0x2040 ≤ uSt st && uSt st < 0x2080)) = some (p, w) →
      exec (.ldata st) s = .next (s.after fun _ => (w.delReq (uSt st) ref).dataFor (uSt st) r p))
    ∧ (W.takeAny s.w0 (uSt st) (fun p => p.op == 0x0B && !s.forPop (uSt st) p && !(0x2040 ≤ uSt st && uSt st < 0x2080)) = some (p, w) →
      exec (.adata st) s = .next (s.after fun _ => (w.delReq (uSt st) ref).dataFor (uSt st) r p)))
  ∧ (∀ s st p w ref r, s.inReset = false → st < 4096 → w.reqOf (uSt st) p = some (ref, r) → r.late = true →
    W.takeAny s.w0 (uSt st) (fun p => p.op == 0x03 && !s.forPop (uSt st) p && !(0x2040 ≤ uSt st && uSt st < 0x2080)) = some (p, w) →
    exec (.rdata (uSt st)) s = .next (s.after fun _ => (w.delReq (uSt st) ref).lateAns st r))
  ∧ (∀ s p w, s.inReset = false → W.takeAny s.w0 uHost (fun p => p.op == 0x03 && !s.forPop uHost p && !(0x2040 ≤ uHost && uHost < 0x2080)) = some (p, w) →
    ∃ t, exec (.rdata uHost) s = .next t ∧ t.boot.toHost = s.boot.toHost ++ [p] ∧ t.mem = s.mem ∧ t.regs = s.regs)
  ∧ (∀ s st p w, s.inReset = false → st < 4096 →
    W.takeAny s.w0 (uSt st) (fun p => p.op == 0x0E && !(0x2040 ≤ uSt st && uSt st < 0x2080)) = some (p, w) →
    exec (.wcnt (uSt st)) s = .next (s.after fun _ => w.postCount st p.aux p.refs))

/-- Descriptors (R184 to R188, R203, R285, R307). The next queue that can fetch gets its descriptor into the log. A NOP that may start
completes; a reserved kind completes BADOP, and in a fenced context FENCED. A SEND sends, waits for credit, or completes with the
status of its check. A READ or WRITE starts its transfer, is refused BADOP or DENIED, or goes on. A FENCE completes once the writes
before it are visible, and waits until then. -/
def Obligations.DescriptorsAct : Prop :=
  (∀ s st q, s.inReset = false → s.nextDq st = some q →
    ∃ t e, exec (.descriptorFetch st) s = .next t
      ∧ t.logAt st e = some { desc := s.w0.sramRead st (s.rd (stnB st) KSTN_DQ_BASE.dq_base q * 64 + 64 * s.rd (stnB st) KSTN_DQ_HEAD.dq_head q) 64,
                              dq := q, lstate := 1, lctx := s.objCtx 0 st q, dseq := Tbl.get 0 s.sta.dseq (st * 8 + q), astamp := s.herdTime,
                              bad := s.w0.sramPois st (s.rd (stnB st) KSTN_DQ_BASE.dq_base q * 64 + 64 * s.rd (stnB st) KSTN_DQ_HEAD.dq_head q) }
      ∧ Tbl.get 0 t.sta.dseq (st * 8 + q) = (Tbl.get 0 s.sta.dseq (st * 8 + q) + 1) % 2 ^ 32
      ∧ t.sta.lastDq.find st = some q ∧ t.mem = s.mem ∧ t.net = s.net)
  ∧ (∀ s st e l, s.inReset = false → s.mayStart st e 9 = some l → s.ctxFencedAt st l.lctx = false →
    exec (.nopDescriptor st e) s = .next (s.after fun w => (w.started st e).complete st e OK))
  ∧ (∀ s st e l, s.inReset = false → s.mayStart st e 9 = some l → s.ctxFencedAt st l.lctx = true →
    exec (.nopDescriptor st e) s = .next (s.after fun w => (w.started st e).complete st e FENCED))
  ∧ (∀ s st e l, s.inReset = false → s.logAt st e = some l → l.lstate = 1 → kindReserved (le l.desc 0 1) = true →
    s.earlier st l.dq l.dseq = [] →
    exec (.nopDescriptor st e) s = .next (s.after fun w => (w.started st e).complete st e BADOP))
  ∧ (∀ s st e l c blen addr, s.inReset = false → s.mayStart st e 2 = some l → c = le l.desc 32 1 → blen = bits (le l.desc 34 2) 0 13 →
    addr = le l.desc 36 4 → sendBad l.desc = false → s.sendCheck st c addr blen l.lctx = OK → msgLines blen ≤ s.chCredit st c →
    exec (.sendDescriptor st e) s = .next (s.after fun w =>
      ((w.sendMsg st c addr blen).started st e).complete st e OK (s.rd (stnB st) KSTN_CH_REFUSE.mseq c + 256 * msgLines blen)))
  ∧ (∀ s st e l c blen addr, s.inReset = false → s.mayStart st e 2 = some l → c = le l.desc 32 1 → blen = bits (le l.desc 34 2) 0 13 →
    addr = le l.desc 36 4 → sendBad l.desc = false → s.sendCheck st c addr blen l.lctx = OK → s.chCredit st c < msgLines blen → bit (le l.desc 33 1) 0 = false →
    exec (.sendDescriptor st e) s = .next (s.after fun w =>
      (((w.inc (stnB st) KSTN_CH_STALL.nocredit 1 c).stall st c).started st e).complete st e NOCREDIT))
  ∧ (∀ s st e l c blen addr, s.inReset = false → s.mayStart st e 2 = some l → c = le l.desc 32 1 → blen = bits (le l.desc 34 2) 0 13 →
    addr = le l.desc 36 4 → sendBad l.desc = false → s.sendCheck st c addr blen l.lctx ≠ OK →
    exec (.sendDescriptor st e) s = .next (s.after fun w =>
      ((w.sendDenied st addr blen l.lctx (s.sendCheck st c addr blen l.lctx)).started st e).complete st e
        (s.sendCheck st c addr blen l.lctx)))
  ∧ (∀ s st e l c blen addr, s.inReset = false → s.mayStart st e 2 = some l → c = le l.desc 32 1 → blen = bits (le l.desc 34 2) 0 13 →
    addr = le l.desc 36 4 → sendBad l.desc = false → s.sendCheck st c addr blen l.lctx = OK → s.chCredit st c < msgLines blen →
    bit (le l.desc 33 1) 0 = true →
    (s.stallOver st c = false → s.jobAt st e = none → exec (.sendDescriptor st e) s = .next (s.after fun w =>
      ((w.setJob st e {}).inc (stnB st) KSTN_CH_STALL.stalls 1 c).stall st c))
    ∧ (s.stallOver st c = false → (s.jobAt st e).isSome = true → exec (.sendDescriptor st e) s = .next (s.after fun w => w.stall st c))
    ∧ (s.stallOver st c = true → exec (.sendDescriptor st e) s = .next (s.after fun w =>
      let w : W := { w with sta.stallT := w.sta.stallT.del (chKey st c) }
      ((w.started st e).complete st e TIMEOUT).irqB st 10)))
  ∧ (∀ s st e l, s.inReset = false → s.mayStart st e 2 = some l → sendBad l.desc = true →
    exec (.sendDescriptor st e) s = .next (s.after fun w => (w.started st e).complete st e BADOP))
  ∧ (∀ s st e l, s.inReset = false → xferLen l.desc = 0 →
    (s.mayStart st e 3 = some l → exec (.readDescriptor st e) s = .next (s.after fun w => (w.started st e).complete st e BADOP))
    ∧ (s.mayStart st e 4 = some l → exec (.writeDescriptor st e) s = .next (s.after fun w => (w.started st e).complete st e BADOP)))
  ∧ (∀ s st e l, s.inReset = false → s.logAt st e = some l → l.lstate = 2 →
    (le l.desc 0 1 = 3 → exec (.readDescriptor st e) s = .next (s.after fun w => w.xferGo st e l false))
    ∧ (le l.desc 0 1 = 4 → exec (.writeDescriptor st e) s = .next (s.after fun w => w.xferGo st e l true)))
  ∧ (∀ s st e l ga sa len tl, s.inReset = false → s.mayStart st e 3 = some l → ga = le l.desc 32 8 → sa = le l.desc 40 4 → len = xferLen l.desc →
    tl = bits (le l.desc 48 1) 0 5 → bits (le l.desc 44 4) 27 5 = 0 → bits (le l.desc 48 1) 5 3 = 0 → le l.desc 49 1 = 0 →
    bits (le l.desc 50 2) 12 4 = 0 → le l.desc 53 11 = 0 → len ≠ 0 → len ≤ 2 ^ 26 → 10 ≤ tl → tl ≤ 30 → (s.dstOf ga).1 = OK →
    (s.dstOf (ga + len - 1)).1 = OK → s.winOk st l.lctx false ga len true false false = false ∨
      s.winOk st l.lctx true sa len false true false = false → s.ctxFencedAt st l.lctx = false → s.fencedAll st = false →
    exec (.readDescriptor st e) s = .next (s.after fun w => ((w.started st e).winDenied st true).complete st e DENIED))
  ∧ (∀ s st e l ga sa len tl, s.inReset = false → s.mayStart st e 3 = some l → ga = le l.desc 32 8 → sa = le l.desc 40 4 → len = xferLen l.desc →
    tl = bits (le l.desc 48 1) 0 5 → bits (le l.desc 44 4) 27 5 = 0 → bits (le l.desc 48 1) 5 3 = 0 → le l.desc 49 1 = 0 →
    bits (le l.desc 50 2) 12 4 = 0 → le l.desc 53 11 = 0 → len ≠ 0 → len ≤ 2 ^ 26 → 10 ≤ tl → tl ≤ 30 → (s.dstOf ga).1 = OK →
    (s.dstOf (ga + len - 1)).1 = OK → s.winOk st l.lctx false ga len true false false = true →
    s.winOk st l.lctx true sa len false true false = true → s.ctxFencedAt st l.lctx = false → s.fencedAll st = false →
    exec (.readDescriptor st e) s = .next (s.after fun w =>
      ((w.started st e).setJob st e { left := len, t0 := s.fc, tl := tl }).xferGo st e l false))
  ∧ (∀ s st e l ga sa len tl, s.inReset = false → s.mayStart st e 4 = some l → ga = le l.desc 32 8 → sa = le l.desc 40 4 → len = xferLen l.desc →
    tl = bits (le l.desc 48 1) 0 5 → bits (le l.desc 44 4) 27 5 = 0 → bits (le l.desc 48 1) 5 3 = 0 → bits (le l.desc 49 1) 2 6 = 0 →
    bits (le l.desc 50 2) 12 4 = 0 → le l.desc 53 11 = 0 → len ≠ 0 → len ≤ 2 ^ 26 → 10 ≤ tl → tl ≤ 30 → (s.dstOf ga).1 = OK →
    (s.dstOf (ga + len - 1)).1 = OK → s.winOk st l.lctx false ga len false true false = false ∨
      s.winOk st l.lctx true sa len true false false = false → s.ctxFencedAt st l.lctx = false → s.fencedAll st = false →
    exec (.writeDescriptor st e) s = .next (s.after fun w => ((w.started st e).winDenied st true).complete st e DENIED))
  ∧ (∀ s st e l ga sa len tl, s.inReset = false → s.mayStart st e 4 = some l → ga = le l.desc 32 8 → sa = le l.desc 40 4 → len = xferLen l.desc →
    tl = bits (le l.desc 48 1) 0 5 → bits (le l.desc 44 4) 27 5 = 0 → bits (le l.desc 48 1) 5 3 = 0 → bits (le l.desc 49 1) 2 6 = 0 →
    bits (le l.desc 50 2) 12 4 = 0 → le l.desc 53 11 = 0 → len ≠ 0 → len ≤ 2 ^ 26 → 10 ≤ tl → tl ≤ 30 → (s.dstOf ga).1 = OK →
    (s.dstOf (ga + len - 1)).1 = OK → s.winOk st l.lctx false ga len false true false = true →
    s.winOk st l.lctx true sa len true false false = true → s.ctxFencedAt st l.lctx = false → s.fencedAll st = false →
    exec (.writeDescriptor st e) s = .next (s.after fun w =>
      ((w.started st e).setJob st e { left := len, t0 := s.fc, tl := tl }).xferGo st e l true))
  ∧ (∀ s st e l j, s.inReset = false → s.mayStart st e 5 = some l → s.jobAt st e = some j → bits (le l.desc 32 1) 1 7 = 0 →
    bits (le l.desc 33 1) 5 3 = 0 → le l.desc 34 30 = 0 → 10 ≤ bits (le l.desc 33 1) 0 5 → bits (le l.desc 33 1) 0 5 ≤ 30 →
    s.ctxFencedAt st l.lctx = false → s.writesOut st j.a j.done (some l.lctx) (bit (le l.desc 32 1) 0) = false →
    exec (.fenceDescriptor st e) s = .next (s.after fun w => (w.started st e).complete st e OK))
  ∧ (∀ s st e l j, s.inReset = false → s.mayStart st e 5 = some l → s.jobAt st e = some j → bits (le l.desc 32 1) 1 7 = 0 →
    bits (le l.desc 33 1) 5 3 = 0 → le l.desc 34 30 = 0 → 10 ≤ bits (le l.desc 33 1) 0 5 → bits (le l.desc 33 1) 0 5 ≤ 30 →
    s.ctxFencedAt st l.lctx = false → s.writesOut st j.a j.done (some l.lctx) (bit (le l.desc 32 1) 0) = true →
    exec (.fenceDescriptor st e) s = .next (s.after fun w =>
      if j.tl = 0 then w.setJob st e { j with t0 := s.fc, tl := bits (le l.desc 33 1) 0 5 } else w))

/-- A descriptor's completion (R187, R188): its record stands at the tail of its completion queue in core SRAM, stamped with
herd time, with the `detail` of R187 for a SEND that sent nothing; its log entry is free; no other byte of the memories changes. -/
def Obligations.CompletionRecord : Prop :=
  ∀ (s : State) st e l status detail a, s.logAt st e = some l →
    a = sramKey st (s.rd (stnB st) KSTN_CQ_BASE.cq_base (s.rd (stnB st) KSTN_DQ_CFG.dq_cq l.dq) * 32
          + 32 * s.rd (stnB st) KSTN_CQ_TAIL.cq_tail (s.rd (stnB st) KSTN_DQ_CFG.dq_cq l.dq)) →
    ∃ t, t = s.after (fun w => w.complete st e status detail) ∧ t.logAt st e = none ∧ t.jobAt st e = none
      ∧ getBytes t.mem.sram a 32 = cqRecord status (le l.desc 0 1) l.dq
          (s.rd (stnB st) KSTN_CQ_TAIL.cq_phase (s.rd (stnB st) KSTN_DQ_CFG.dq_cq l.dq)) l.dseq (le l.desc 8 8) s.herdTime
          (if le l.desc 0 1 = 2 ∧ status ≠ OK then s.sendDetail st l.desc else detail)
      ∧ (∀ x, (x < a ∨ a + 32 ≤ x) → Tbl.get 0 t.mem.sram x = Tbl.get 0 s.mem.sram x)
      ∧ t.mem.cells = s.mem.cells ∧ t.net = s.net ∧ t.flt = s.flt

/-- Direct sends (R201, R202, R206). A send is refused with the status of the first check that fails, sent when the channel has the
credit, NOCREDIT in a handler, TIMEOUT once the channel's stall timer has run out, else blocked. A blocked send is decided again: taken
when credit has arrived, ended when a check fails; or it is withdrawn. The stall timer ends the blocked send and the waiting SENDs of its
channel; with none of them it stands. -/
def Obligations.SendsAct : Prop :=
  (∀ s st c addr blen ctx h, s.inReset = false → s.sendCheck st c addr blen ctx ≠ OK →
    exec (.directSend st c addr blen ctx h) s = .next (s.after fun w =>
      (W.sendDenied { w with sta.inHandler := Tbl.set false w.sta.inHandler st h } st addr blen ctx
        (s.sendCheck st c addr blen ctx)).sndAck st (s.sendCheck st c addr blen ctx)))
  ∧ (∀ s st c addr blen ctx h, s.inReset = false → s.sendCheck st c addr blen ctx = OK → msgLines blen ≤ s.chCredit st c →
    exec (.directSend st c addr blen ctx h) s = .next (s.after fun w =>
      (W.sendMsg { w with sta.inHandler := Tbl.set false w.sta.inHandler st h } st c addr blen).sndAck st OK))
  ∧ (∀ s st c addr blen ctx, s.inReset = false → s.sendCheck st c addr blen ctx = OK → s.chCredit st c < msgLines blen →
    ∃ t, exec (.directSend st c addr blen ctx true) s = .next t ∧ t.sta.sndAck.find st = some NOCREDIT ∧ t.sta.blocked.find st = none
      ∧ t.mem = s.mem ∧ t.net = s.net)
  ∧ (∀ s st c addr blen ctx, s.inReset = false → s.sendCheck st c addr blen ctx = OK → s.chCredit st c < msgLines blen →
    s.stallOver st c = false →
    ∃ t, exec (.directSend st c addr blen ctx false) s = .next t
      ∧ t.sta.blocked.find st = some { chan := c, addr := addr, blen := blen, ctx := ctx } ∧ t.sta.sndAck.find st = none
      ∧ t.mem = s.mem ∧ t.net = s.net)
  ∧ (∀ s st c addr blen ctx, s.inReset = false → s.sendCheck st c addr blen ctx = OK → s.chCredit st c < msgLines blen →
    s.stallOver st c = true →
    ∃ t, exec (.directSend st c addr blen ctx false) s = .next t ∧ t.sta.sndAck.find st = some TIMEOUT ∧ t.sta.blocked.find st = none
      ∧ t.sta.stallT.find (chKey st c) = none ∧ t.mem = s.mem ∧ t.net = s.net)
  ∧ (∀ s st d, s.inReset = false → s.sta.blocked.find st = some d → s.sendCheck st d.chan d.addr d.blen d.ctx = OK →
    s.chCredit st d.chan < msgLines d.blen → exec (.sendUnblock st) s = .next s)
  ∧ (∀ s st d, s.inReset = false → s.sta.blocked.find st = some d → s.sendCheck st d.chan d.addr d.blen d.ctx = OK →
    msgLines d.blen ≤ s.chCredit st d.chan →
    exec (.sendUnblock st) s = .next (s.after fun w =>
      ((w.wr (stnB st) KSTN_CH_CRED.blocked 0 d.chan).sendMsg st d.chan d.addr d.blen).sndAck st OK))
  ∧ (∀ s st d, s.inReset = false → s.sta.blocked.find st = some d → s.sendCheck st d.chan d.addr d.blen d.ctx ≠ OK →
    ∃ t, exec (.sendUnblock st) s = .next t ∧ t.sta.blocked.find st = none
      ∧ t.sta.sndAck.find st = some (s.sendCheck st d.chan d.addr d.blen d.ctx) ∧ t.rd (stnB st) KSTN_CH_CRED.blocked d.chan = 0
      ∧ t.mem = s.mem ∧ t.net = s.net)
  ∧ (∀ s st d, s.inReset = false → s.sta.blocked.find st = some d →
    ∃ t, exec (.sendWithdraw st) s = .next t ∧ t.sta.blocked.find st = none ∧ t.sta.sndAck = s.sta.sndAck
      ∧ t.rd (stnB st) KSTN_CH_CRED.blocked d.chan = 0 ∧ t.mem = s.mem ∧ t.net = s.net)
  ∧ (∀ s st c d, s.inReset = false → s.stallOver st c = true → s.sta.blocked.find st = some d → d.chan = c →
    ∃ t, exec (.sendStallTimeout st c) s = .next t ∧ t.sta.stallT.find (chKey st c) = none ∧ t.sta.blocked.find st = none
      ∧ t.sta.sndAck.find st = some TIMEOUT ∧ t.net = s.net)
  ∧ (∀ s st c, s.inReset = false → s.stallOver st c = true → (∀ d, s.sta.blocked.find st = some d → d.chan ≠ c) →
    s.waitingSends st c ≠ [] →
    exec (.sendStallTimeout st c) s = .next (s.after fun w =>
      W.each { w with sta.stallT := w.sta.stallT.del (chKey st c) } (s.waitingSends st c)
        (fun w e => ((w.started st e).complete st e TIMEOUT).irqB st 10)))
  ∧ (∀ s st c, s.inReset = false → (∀ d, s.sta.blocked.find st = some d → d.chan ≠ c) → s.waitingSends st c = [] →
    exec (.sendStallTimeout st c) s = .next s)

/-- Messages, credits and dispatch (R193 to R200, R204). A message that its ring accepts is placed; one of a wrong form is refused BADOP,
one whose ring or sender does not admit it DENIED, each with its lines refunded. The pop data of an `in_mem` ring pop its message, or
refuse what remains of its write. A CREDIT counts for a unicast channel, sets its count with `resync`, and is dropped before the answer
to a CRESYNC or for a disabled channel. A CRESYNC is answered with the slot's lines, or with 0. What is offered is the first visible
message of the one ring that has any, and the core takes it. -/
def Obligations.MessagesAct : Prop :=
  (∀ s st p w r m i, s.inReset = false → s.Takes (uSt st) 0x20 p w → p.aux < 256 → r = p.aux → m = hdLines p.data → m ≠ 0 →
    m ≤ w.rd (stnB st) KSTN_RING_CFG.max_lines r → p.len = 16 + hdBlen p.data → w.ringOn st r = true →
    w.ringAddrOk st r p.addr = true → w.owns 3 st r p.ctx = true → w.slotOf st r (hdPkg p.data) (hdSrc p.data) (hdChan p.data) = some i →
    w.ctxFencedAt st p.ctx = false →
    exec (.messageReceive st) s = .next (s.after fun _ =>
      (w.place st r (p.data.take 16) (p.data.drop 16) m p.bad i).iff p.ack (fun w => w.cmp (uSt st) p OK)))
  ∧ (∀ s st p w, s.inReset = false → s.Takes (uSt st) 0x20 p w → 256 ≤ p.aux →
    exec (.messageReceive st) s = .next (s.after fun _ => w.refuseMsg st p (msgLines (p.len - 16)) BADOP))
  ∧ (∀ s st p w r m, s.inReset = false → s.Takes (uSt st) 0x20 p w → p.aux < 256 → r = p.aux → m = hdLines p.data → m ≠ 0 →
    m ≤ w.rd (stnB st) KSTN_RING_CFG.max_lines r → p.len = 16 + hdBlen p.data →
    w.ringOn st r = false ∨ w.ringAddrOk st r p.addr = false ∨ w.owns 3 st r p.ctx = false
      ∨ w.slotOf st r (hdPkg p.data) (hdSrc p.data) (hdChan p.data) = none →
    exec (.messageReceive st) s = .next (s.after fun _ => w.refuseMsg st p (msgLines (p.len - 16)) DENIED))
  ∧ (∀ s st r m, s.inReset = false → (s.msgsOf st r).find? (fun m => !m.written && m.writes == 0) = some m →
    s.rd (stnB st) KSTN_RING_CFG.in_mem r = 1 →
    exec (.inMemMessageWritten st r) s = .next (s.after fun w => w.msgWritten st r m.seq))
  ∧ (∀ s st r k q p w w' l, s.inReset = false → s.net.req.find? (fun e => e.1 / 2 ^ 20 == uSt st && e.2.own == .ringPop r) = some (k, q) →
    s.w0.takeAny (uSt st) (fun p => (p.op == 0x03 || p.op == 0x60) && p.ref == k % 2 ^ 20 && p.ans == 2) = some (p, w) →
    w' = w.delReq (uSt st) (k % 2 ^ 20) → l = Tbl.get [] w'.sta.pops (chKey st r) →
    (∀ w1, p.op = 0x03 → p.status = OK → w'.popOne st r p.data = some w1 →
      exec (.inMemPopData st r) s = .next (s.after fun _ =>
        w1.popNext st r (if l.headD 0 ≤ 1 then l.drop 1 else (l.headD 0 - 1) :: l.drop 1)))
    ∧ (p.op ≠ 0x03 ∨ p.status ≠ OK ∨ w'.popOne st r p.data = none →
      exec (.inMemPopData st r) s = .next (s.after fun _ => (w'.popRefused st r).popNext st r (l.drop 1))))
  ∧ (∀ s st p w c, s.inReset = false → s.Takes (uSt st) 0x21 p w → c = p.tag % 256 → w.rd (stnB st) KSTN_CH_CFG.enable c ≠ 0 →
    w.rd (stnB st) KSTN_CH_CFG.herd_mode c ≠ 1 →
    (bit p.tag 8 = true →
      ∃ t, exec (.creditReceive st) s = .next t ∧ t.rd (stnB st) KSTN_CH_CRED.credit c = p.aux % 2 ^ KSTN_CH_CRED.credit.width
        ∧ t.sta.resync.find (chKey st c) = none)
    ∧ (bit p.tag 8 = false → Tbl.get false w.sta.resync (chKey st c) = false →
      exec (.creditReceive st) s = .next (s.after fun _ => w.addCredit st c p.src p.aux))
    ∧ (bit p.tag 8 = false → Tbl.get false w.sta.resync (chKey st c) = true →
      exec (.creditReceive st) s = .next (s.after fun _ => w.inc (stnB st) KSTN_RING_EVT.crd_drop)))
  ∧ (∀ s st p w c, s.inReset = false → s.Takes (uSt st) 0x21 p w → c = p.tag % 256 → w.rd (stnB st) KSTN_CH_CFG.enable c = 0 →
    exec (.creditReceive st) s = .next (s.after fun _ => w.inc (stnB st) KSTN_RING_EVT.crd_drop))
  ∧ (∀ s st p w i r, s.inReset = false → s.Takes (uSt st) 0x22 p w → r = p.aux % 256 →
    w.slotOf st r (hdPkg p.data) (hdSrc p.data) (hdChan p.data) = some i → w.ringOn st r = true →
    exec (.cresyncReceive st) s = .next (s.after fun _ =>
      let w : W := { (w.wr (stnB st) KSTN_RING_SLOT2.s_pend 0 (r * 16 + i)) with sta.pendT := w.sta.pendT.del (slotKey st r i) }
      w.sendCredit st r i (w.rd (stnB st) KSTN_RING_SLOT2.s_share (r * 16 + i) - Tbl.get 0 w.sta.placed (slotKey st r i)) true
        (hdPkg p.data) (hdSrc p.data) (hdChan p.data)))
  ∧ (∀ s st p w r, s.inReset = false → s.Takes (uSt st) 0x22 p w → r = p.aux % 256 →
    w.slotOf st r (hdPkg p.data) (hdSrc p.data) (hdChan p.data) = none ∨ w.ringOn st r = false →
    exec (.cresyncReceive st) s = .next (s.after fun _ =>
      (w.sendCredit st r 0 0 true (hdPkg p.data) (hdSrc p.data) (hdChan p.data)).inc (stnB st) KSTN_RING_EVT.refused_in 1 r))
  ∧ (∀ s st r m, s.inReset = false → s.sta.offer.find st = none → s.fencedAll st = false → r < 256 → s.dispMsg st r = some m →
    (∀ x, x ≠ r → s.dispMsg st x = none) →
    ∃ t, exec (.dispatchOffer st) s = .next t
      ∧ t.sta.offer.find st = some { ring := r, seq := m.seq, bytes := dispRecord r (s.rd (stnB st) KSTN_RING_CFG.cls r) m }
      ∧ t.mem = s.mem ∧ t.net = s.net ∧ t.regs = s.regs)
  ∧ (∀ s st o, s.inReset = false → s.sta.offer.find st = some o →
    ∃ t, exec (.dispatchTake st) s = .next t ∧ t.sta.offer.find st = none
      ∧ t.msgsOf st o.ring = (s.msgsOf st o.ring).map (fun m => if m.seq = o.seq then { m with taken := true } else m)
      ∧ t.mem = s.mem ∧ t.net = s.net)

/-- Rings and channels (R192 to R197, R206). A pop of a ring in core SRAM pops at once; one of an `in_mem` ring reads the header at its
head first, or waits behind the pops before it. A pending return is sent 512 fc after its first line. A ring whose configuration is
right is enabled, empty; else `cfg_reject` is set. A ring disabled is empty. A channel enabled has no credit and sends a CRESYNC; one
disabled ends its sends DENIED. -/
def Obligations.RingsChannelsAct : Prop :=
  (∀ s st r n who, s.inReset = false → 1 ≤ n → n ≤ 64 → s.mayUse who 3 st r = true → s.rd (stnB st) KSTN_RING_CFG.in_mem r = 0 →
    exec (.ringPop st r n who) s = .next (s.after fun w => w.popMany st r n))
  ∧ (∀ s st r n who, s.inReset = false → 1 ≤ n → n ≤ 64 → s.mayUse who 3 st r = true → s.rd (stnB st) KSTN_RING_CFG.in_mem r ≠ 0 →
    Tbl.get [] s.sta.pops (chKey st r) = [] → s.rd (stnB st) KSTN_RING_OCC.occ r ≠ 0 →
    exec (.ringPop st r n who) s = .next (s.after fun w => W.popRead { w with sta.pops := w.sta.pops.put (chKey st r) [n] } st r))
  ∧ (∀ s st r n who l, s.inReset = false → 1 ≤ n → n ≤ 64 → s.mayUse who 3 st r = true → s.rd (stnB st) KSTN_RING_CFG.in_mem r ≠ 0 →
    l = Tbl.get [] s.sta.pops (chKey st r) → l ≠ [] →
    ∃ t, exec (.ringPop st r n who) s = .next t ∧ Tbl.get [] t.sta.pops (chKey st r) = l ++ [n] ∧ t.mem = s.mem ∧ t.net = s.net
      ∧ t.regs = s.regs)
  ∧ (∀ s st r i t0, s.inReset = false → s.sta.pendT.find (slotKey st r i) = some t0 → t0 + 512 ≤ s.fc →
    s.ctxFencedAt st (s.objCtx 3 st r) = false →
    exec (.creditReturnTimer st r i) s = .next (s.after fun w => w.flushReturn st r i))
  ∧ (∀ s st r who, s.inReset = false → s.mayUse who 3 st r = true → s.rd (stnB st) KSTN_RING_CFG.enable r ≠ 1 → s.ringCfgOk st r = true →
    ∃ t, exec (.ringEnable st r who) s = .next t ∧ t.rd (stnB st) KSTN_RING_CFG.enable r = 1 ∧ t.rd (stnB st) KSTN_RING_PTR.head r = 0
      ∧ t.rd (stnB st) KSTN_RING_PTR.tail r = 0 ∧ t.rd (stnB st) KSTN_RING_OCC.occ r = 0 ∧ t.msgsOf st r = [] ∧ t.mem = s.mem)
  ∧ (∀ s st r who, s.inReset = false → s.mayUse who 3 st r = true → s.rd (stnB st) KSTN_RING_CFG.enable r ≠ 1 → s.ringCfgOk st r = false →
    ∃ t, exec (.ringEnable st r who) s = .next t ∧ t.rd (stnB st) KSTN_RING_CFG.cfg_reject r = 1
      ∧ t.rd (stnB st) KSTN_RING_CFG.enable r = s.rd (stnB st) KSTN_RING_CFG.enable r ∧ t.mem = s.mem ∧ t.net = s.net)
  ∧ (∀ s st r who, s.inReset = false → s.mayUse who 3 st r = true → s.rd (stnB st) KSTN_RING_CFG.enable r ≠ 0 →
    ∃ t, exec (.ringDisable st r who) s = .next t ∧ t.rd (stnB st) KSTN_RING_CFG.enable r = 0 ∧ t.rd (stnB st) KSTN_RING_OCC.occ r = 0
      ∧ t.msgsOf st r = [] ∧ t.mem = s.mem ∧ t.net = s.net)
  ∧ (∀ s st c who, s.inReset = false → s.mayUse who 2 st c = true → s.rd (stnB st) KSTN_CH_CFG.enable c ≠ 1 →
    ∃ t, exec (.channelEnable st c who) s = .next t ∧ t.rd (stnB st) KSTN_CH_CFG.enable c = 1 ∧ t.rd (stnB st) KSTN_CH_CRED.credit c = 0
      ∧ Tbl.get false t.sta.resync (chKey st c) = true ∧ t.mem = s.mem
      ∧ ∃ b, b ∈ t.buf (uSt st) pInj 2 ∧ b.pkt.op = 0x22 ∧ b.pkt.aux = s.rd (stnB st) KSTN_CH_CFG.dring c)
  ∧ (∀ s st c who, s.inReset = false → s.mayUse who 2 st c = true → s.rd (stnB st) KSTN_CH_CFG.enable c ≠ 0 →
    exec (.channelDisable st c who) s = .next (s.after fun w => w.chanOff st c DENIED))

/-- A CMP settles the request that it names (R137, R149, R172, R198, R288, R297). At a station its owner gets the worst status once every
CMP that is due has come; before that the CMP is counted; a late one is discarded; one of no request is a posted write's or a message's,
with its refund. At a memory port one that answers a snoop counts for a lost holder. At the host attachment it goes to the host. -/
def Obligations.CmpSettles : Prop :=
  (∀ s st p w ref r, s.inReset = false → st < 4096 →
    s.w0.takeAny (uSt st) (fun p => p.op == 0x60 && !s.forPop (uSt st) p && !s.staleFirst p && !(0x2040 ≤ uSt st && uSt st < 0x2080)) = some (p, w) →
    (p.status ≠ STALE_GEN ∨ p.byRouter = false) → p.ref < 2 ^ 20 → w.ofMessage (uSt st) p = false → w.reqOf (uSt st) p = some (ref, r) →
    (∀ sl key, r.own ≠ .snoop sl key) → (∀ b, r.own ≠ .dump b) → (∀ q sl, r.own ≠ .cmdWrite q sl) → (∀ q sl, r.own ≠ .plateWrite q sl) →
    (r.need ≤ 1 → r.late = false →
      exec (.cmpReceive (uSt st)) s = .next (s.after fun _ => (w.delReq (uSt st) ref).settle st r (worst (r.sts ++ [p.status])) p.aux))
    ∧ (r.need ≤ 1 → r.late = true → exec (.cmpReceive (uSt st)) s = .next (s.after fun _ => (w.delReq (uSt st) ref).lateAns st r))
    ∧ (1 < r.need → p.hops ≠ 0 →
      exec (.cmpReceive (uSt st)) s = .next (s.after fun _ =>
        w.setReq (uSt st) ref { r with need := r.need - 1, sts := r.sts ++ [p.status] })))
  ∧ (∀ s st p w, s.inReset = false → st < 4096 →
    s.w0.takeAny (uSt st) (fun p => p.op == 0x60 && !s.forPop (uSt st) p && !s.staleFirst p && !(0x2040 ≤ uSt st && uSt st < 0x2080)) = some (p, w) →
    (p.status ≠ STALE_GEN ∨ p.byRouter = false) → 2 ^ 20 ≤ p.ref ∨ w.ofMessage (uSt st) p = true ∨ w.reqOf (uSt st) p = none →
    exec (.cmpReceive (uSt st)) s = .next (s.after fun _ => w.settleFree st p))
  ∧ (∀ s m p w ref r sl key, s.inReset = false → m < 64 →
    s.w0.takeAny (uMsp m) (fun p => p.op == 0x60 && !s.forPop (uMsp m) p && !s.staleFirst p && !(0x2040 ≤ uMsp m && uMsp m < 0x2080)) = some (p, w) →
    p.status ≠ STALE_GEN → p.ref < 2 ^ 20 → w.ofMessage (uMsp m) p = false → w.reqOf (uMsp m) p = some (ref, r) → r.own = .snoop sl key →
    r.need = 1 →
    exec (.cmpReceive (uMsp m)) s = .next (s.after fun _ => (w.delReq (uMsp m) ref).snoopLost m key 1))
  ∧ (∀ s p w, s.inReset = false →
    s.w0.takeAny uHost (fun p => p.op == 0x60 && !s.forPop uHost p && !s.staleFirst p && !(0x2040 ≤ uHost && uHost < 0x2080)) = some (p, w) →
    (p.status ≠ STALE_GEN ∨ p.byRouter = false) →
    exec (.cmpReceive uHost) s = .next (s.after fun _ => { w with boot.toHost := w.boot.toHost ++ [p] }))

/-- STREAM descriptors (R109, R110, R112): one that fails its checks completes with the status of the first; one that passes arms its
stream with the fields of its body. -/
def Obligations.StreamDescriptorsAct : Prop :=
  (∀ s st e l, s.inReset = false → s.mayStart st e 1 = some l → ¬ s.streamForm st l.desc →
    exec (.streamDescriptor st e) s = .next (s.after fun w => (w.started st e).complete st e BADOP))
  ∧ (∀ s st e l, s.inReset = false → s.mayStart st e 1 = some l → s.streamForm st l.desc → ¬ s.streamOwned st l →
    exec (.streamDescriptor st e) s = .next (s.after fun w =>
      ((w.winDenied st (!w.winOk st l.lctx true (le l.desc 48 4) (64 * bits (le l.desc 40 4) 0 21) false false false)).started st e).complete
        st e DENIED))
  ∧ (∀ s st e l, s.inReset = false → s.mayStart st e 1 = some l → s.streamForm st l.desc → s.streamOwned st l → s.locked = true →
    s.laneLive (le l.desc 36 2 / 4096) l.lctx = false →
    exec (.streamDescriptor st e) s = .next (s.after fun w => (w.started st e).complete st e NOPLATE))
  ∧ (∀ s st e l, s.inReset = false → s.mayStart st e 1 = some l → s.streamForm st l.desc → s.streamOwned st l →
    (s.locked = true → s.laneLive (le l.desc 36 2 / 4096) l.lctx = true) → (s.strmAt st (le l.desc 32 1)).state ≠ 0 →
    exec (.streamDescriptor st e) s = .next (s.after fun w => (w.started st e).complete st e BUSY))
  ∧ (∀ s st e l, s.inReset = false → s.mayStart st e 1 = some l → s.streamForm st l.desc → s.streamOwned st l → s.locked = false →
    (s.strmAt st (le l.desc 32 1)).state = 0 →
    exec (.streamDescriptor st e) s = .next (s.after fun w => ((w.started st e).complete st e NOHERD).irqB st 18))
  ∧ (∀ s st e l x, s.inReset = false → s.mayStart st e 1 = some l → s.streamForm st l.desc → s.streamOwned st l → s.locked = true →
    s.laneLive (le l.desc 36 2 / 4096) l.lctx = true → (s.strmAt st (le l.desc 32 1)).state = 0 →
    x = (le l.desc 44 4 + 2 ^ 32 - s.plateTime % 2 ^ 32) % 2 ^ 32 → x = 0 ∨ 2 ^ 31 ≤ x →
    exec (.streamDescriptor st e) s = .next (s.after fun w => (w.started st e).complete st e TIMEOUT))
  ∧ (∀ s st e l x, s.inReset = false → s.mayStart st e 1 = some l → s.streamForm st l.desc → s.streamOwned st l → s.locked = true →
    s.laneLive (le l.desc 36 2 / 4096) l.lctx = true → (s.strmAt st (le l.desc 32 1)).state = 0 →
    x = (le l.desc 44 4 + 2 ^ 32 - s.plateTime % 2 ^ 32) % 2 ^ 32 → x ≠ 0 → x < 2 ^ 31 →
    ∃ t y, exec (.streamDescriptor st e) s = .next t ∧ t.strmAt st (le l.desc 32 1) = y ∧ y.state = 1
      ∧ y.recv = bit (le l.desc 33 1) 0 ∧ y.timed = bit (le l.desc 33 1) 1 ∧ y.gate = bit (le l.desc 33 1) 2
      ∧ y.sigEn = bit (le l.desc 33 1) 3 ∧ y.chunkLog2 = bits (le l.desc 34 1) 0 4 ∧ y.tlimit = bits (le l.desc 35 1) 0 5
      ∧ y.stag = le l.desc 36 2 ∧ y.expect = le l.desc 38 1 ∧ y.length = bits (le l.desc 40 4) 0 21 ∧ y.tFirst = le l.desc 44 4
      ∧ y.addr = le l.desc 48 4 ∧ y.ctx = l.lctx ∧ y.entry = e ∧ y.ordinal = 0 ∧ t.logAt st e = some { l with lstate := 2 }
      ∧ t.mem = s.mem ∧ t.net = s.net)

/-- Collectives (R219 to R235). A group that is well formed is defined. A contribution enters its tine's reduction unit while the plate
leaves an adder; a context that lingers emits. A result folds at the station, or is discarded; an early slot expires. A collective out
of time ends TIMEOUT, or SHORT or MISMATCH where results have come. A COUNT that passes its checks opens with its contribution, and a
COLL opens, scheduled over one stream or arbitrated with its contribution. -/
def Obligations.CollectivesAct : Prop :=
  (∀ s q slot c b gi g d, s.inReset = false → s.Runs q slot 0x00A0 c → b = (c.bytes.drop 16).take 32 → gi = bits (le b 0 2) 0 10 →
    g = { groupOf b with rroot := s.rootByte s.genCur (groupOf b).rherd } → (g.regMask ≠ 0 ∨ g.clMask ≠ 0 ∨ g.coreMask ≠ 0) →
    g.pkgLo ≤ g.pkgHi → g.pkgStep ≠ 0 → g.dieLo ≤ g.dieHi → g.dieStep ≠ 0 → g.dieHi < s.fuse.cdActive →
    (axis g.pkgLo g.pkgHi g.pkgStep).contains s.pkgNum = true → g.home < s.fuse.tines → groupClean b = true → c.ctx = g.ctx →
    (s.hbank s.genCur).defs.find g.rherd = some d → d.ctx = g.ctx → d.members.length = g.lsize →
    (d.stage = 3 ∧ d.index = g.home ∨ d.stage = 4) → s.ctxLive g.ctx = true → s.col.grp.find gi = none →
    (∀ l ∈ g.members, (s.groupSlot (s.phys l) gi).isNone = true → ∃ i, i < 64 ∧ s.col.memb.find (s.phys l * 64 + i) = none) →
    ∃ t, exec (.groupDefine q slot) s = .next t ∧ Answered s t q c OK (toLE 4 g.gsize ++ toLE 2 g.lsize) ∧ t.col.grp.find gi = some g
      ∧ t.mem = s.mem)
  ∧ (∀ s tine p w, s.inReset = false → s.combLanes (uTine tine) < 4 →
    (s.w0.takeIn (uTine tine) pRin (fun p => p.op == 0x30) = some (p, w) → exec (.reduce tine) s = .next (s.after fun _ => w.redTake tine p))
    ∧ (s.w0.takeIn (uTine tine) pRin (fun p => p.op == 0x31) = some (p, w) → exec (.barrier tine) s = .next (s.after fun _ => w.redTake tine p))
    ∧ (s.w0.takeIn (uTine tine) pRin (fun p => p.op == 0x32) = some (p, w) → exec (.count tine) s = .next (s.after fun _ => w.redTake tine p)))
  ∧ (∀ s tine key c, s.inReset = false → s.col.rctx.find key = some c → key / 512 = tine →
    c.t0 + 2 ^ s.rd (rtrB (uTine tine)) KRTR_RED_CFG.linger_log2 ≤ s.fc →
    s.w0.takeIn (uTine tine) pRin (fun p => p.ctx == c.pkt.ctx && rxKey p == rxKey c.pkt && rxSeq p == rxSeq c.pkt) = none →
    exec (.lingerExpiry tine key) s = .next (s.after fun w => (w.inc (rtrB (uTine tine)) KRTR_RBYP.linger_emit).redEmit tine key c))
  ∧ (∀ s st p w k f, s.inReset = false → s.Takes (uSt st) 0x33 p w → w.ctxFencedAt st p.ctx = false →
    (0 < (asResult p).length → w.winOk st p.ctx true p.addr (asResult p).length false true false = true) →
    Tbl.findBy (fun _ f => f.ctx == p.ctx && f.gkey == rxKey p && f.seq == rxSeq p) (w.col.fold.filter (fun e => e.1 / 32 == st)) = some (k, f) →
    exec (.result st) s = .next (s.after fun _ => w.foldIn st (k % 32) f p))
  ∧ (∀ s st p w, s.inReset = false → s.Takes (uSt st) 0x33 p w → w.ctxFencedAt st p.ctx = true →
    exec (.result st) s = .next (s.after fun _ => w.collOrphan st))
  ∧ (∀ s st slot f, s.inReset = false → s.col.fold.find (foldKey st slot) = some f → f.entry = none → f.t0 + 2 ^ 24 ≤ s.fc →
    ∃ t, exec (.earlySlotExpiry st slot) s = .next t ∧ t.col.fold = s.col.fold.del (foldKey st slot) ∧ t.mem = s.mem ∧ t.net = s.net)
  ∧ (∀ s st e c f, s.inReset = false → s.collAt st e = some c → c.tEnd ≤ s.fc → c.sched = false →
    s.col.fold.find (foldKey st c.slot) = some f → f.count ≠ 0 → f.mm = false →
    exec (.collTimeLimit st e) s = .next (s.after fun w => w.collEnd st e SHORT f.count))
  ∧ (∀ s st e c f, s.inReset = false → s.collAt st e = some c → c.tEnd ≤ s.fc → c.sched = false →
    s.col.fold.find (foldKey st c.slot) = some f → f.count ≠ 0 → f.mm = true →
    exec (.collTimeLimit st e) s = .next (s.after fun w => w.collEnd st e MISMATCH f.count))
  ∧ (∀ s st e c f, s.inReset = false → s.collAt st e = some c → c.tEnd ≤ s.fc → c.sched = false →
    s.col.fold.find (foldKey st c.slot) = some f → f.count = 0 →
    exec (.collTimeLimit st e) s = .next (s.after fun w => w.collEnd st e TIMEOUT 0))
  ∧ (∀ s st e c, s.inReset = false → s.collAt st e = some c → c.tEnd ≤ s.fc → c.sched = true →
    exec (.collTimeLimit st e) s = .next (s.after fun w => w.collEnd st e TIMEOUT 0))
  ∧ (∀ s st e l g cop tl seq, s.inReset = false → s.mayStart st e 8 = some l → cop = bits (le l.desc 32 1) 0 2 → tl = bits (le l.desc 33 1) 0 5 →
    seq = le l.desc 36 4 → bits (le l.desc 32 1) 2 6 = 0 → bits (le l.desc 33 1) 5 3 = 0 → 10 ≤ tl → tl ≤ 30 → bits (le l.desc 34 2) 10 6 = 0 →
    le l.desc 44 20 = 0 → (cop = 0 → le l.desc 40 4 = 0) → s.groupAt st (bits (le l.desc 34 2) 0 10) = some g → g.ctx = l.lctx →
    s.ctxFencedAt st l.lctx = false → s.foldRoom st g seq = true →
    exec (.countDescriptor st e) s = .next (s.after fun w =>
      let sig := signature (0x10 + cop) (if cop = 0 then 0 else 8) 0 l.lctx g.gkey (if cop = 0 then 0 else 1) seq
      w.collOpen st e g seq
        { sched := false, streams := [], sig := sig, lsize := g.lsize, group := bits (le l.desc 34 2) 0 10, count := cop != 0, tEnd := w.fc + 2 ^ tl }
        { vc := 0, op := if cop = 0 then 0x31 else 0x32, addr := le l.desc 40 4,
          ext := redExt g.gkey seq cop (if cop = 0 then 0 else 8) 0 (if cop = 0 then 0 else 1) sig 1 g.lsize g.rherd g.rroot }))
  ∧ (∀ s st e l g k, s.inReset = false → s.mayStart st e 7 = some l → le l.desc 32 1 = 0 → bits (le l.desc 33 1) 3 5 = 0 →
    bits (le l.desc 33 1) 0 3 ≤ 5 → okType (le l.desc 34 1) (bits (le l.desc 33 1) 0 3) false = true → le l.desc 35 1 = 0 → le l.desc 36 4 ≠ 0 →
    bits (le l.desc 40 2) 10 6 = 0 → 10 ≤ le l.desc 42 1 → le l.desc 42 1 ≤ 30 → le l.desc 43 1 = 0 → le l.desc 48 1 = k → k ≠ 0xFF →
    le l.desc 49 1 = 0xFF → le l.desc 50 1 = 0xFF → le l.desc 51 1 = 0 → le l.desc 52 4 = 0 → le l.desc 56 4 = 0 → le l.desc 60 4 = 0 →
    s.groupAt st (bits (le l.desc 40 2) 0 10) = some g → g.ctx = l.lctx → s.ctxFencedAt st l.lctx = false → s.collOfStream st k = none →
    ∃ t c, exec (.collDescriptor st e) s = .next t ∧ t.collAt st e = some c ∧ c.sched = true ∧ c.streams = [(k, false)]
      ∧ c.lsize = g.lsize ∧ c.tEnd = s.fc + 2 ^ le l.desc 42 1 ∧ t.logAt st e = some { l with lstate := 2 } ∧ t.mem = s.mem ∧ t.net = s.net)
  ∧ (∀ s st e l g op ty wd n sa ra seq len sig, s.inReset = false → s.mayStart st e 7 = some l → le l.desc 32 1 = 1 →
    bits (le l.desc 33 1) 3 5 = 0 → op = bits (le l.desc 33 1) 0 3 → op ≤ 5 → ty = le l.desc 34 1 → wd = bit (le l.desc 35 1) 0 →
    okType ty op wd = true → bits (le l.desc 35 1) 1 7 = 0 → n = le l.desc 36 4 → n ≠ 0 → bits (le l.desc 40 2) 10 6 = 0 →
    10 ≤ le l.desc 42 1 → le l.desc 42 1 ≤ 30 → le l.desc 43 1 = 0 → seq = le l.desc 44 4 → le l.desc 48 4 = 0x00FFFFFF →
    sa = le l.desc 52 4 → ra = le l.desc 56 4 → le l.desc 60 4 = 0 → sa % 64 = 0 → ra % 64 = 0 → len = contribLen ty n → len ≤ 1024 →
    s.groupAt st (bits (le l.desc 40 2) 0 10) = some g → g.ctx = l.lctx → s.winOk st l.lctx true sa len true false false = true →
    s.winOk st l.lctx true ra (if wd then 2 * len else len) false true false = true → s.ctxFencedAt st l.lctx = false →
    s.foldRoom st g seq = true → sig = signature op ty (if wd then 1 else 0) l.lctx g.gkey n seq →
    exec (.collDescriptor st e) s = .next (s.after fun w => w.collOpen st e g seq
      { sched := false, streams := [], sig := sig, lsize := g.lsize, group := bits (le l.desc 40 2) 0 10, addr := ra,
        tEnd := s.fc + 2 ^ le l.desc 42 1 }
      { vc := 6, op := 0x30, addr := ra, len := len, data := (cells64 (len + 1) (w.sramRead st sa len)).flatMap (padCell ty),
        pois := w.sramPoisMask st sa len,
        ext := redExt g.gkey seq op ty (if wd then 1 else 0) n sig 1 g.lsize g.rherd g.rroot }))

/-- What a reduction unit does with a contribution (R231, R232): with a context of its collective open it joins it; otherwise it
opens one; a context whose count reaches the group's size in this package emits its result at once. -/
def Obligations.ReductionsJoin : Prop :=
  (∀ (s : State) t p, rxLsize p ≤ rxCount p →
    Tbl.findBy (fun _ c => c.pkt.ctx == p.ctx && rxKey c.pkt == rxKey p && rxSeq c.pkt == rxSeq p)
      (s.col.rctx.filter (fun e => e.1 / 512 == t)) = none →
    (s.col.rctx.filter (fun e => e.1 / 512 == t)).length < 512 →
    ∃ k c, c.pkt = p ∧ c.data = asResult p ∧ c.count = rxCount p ∧ c.mm = false
      ∧ (s.after fun w => w.redTake t p) = s.after fun w => w.redEmit t k c)
  ∧ (∀ (s : State) t p key c,
    Tbl.findBy (fun _ c => c.pkt.ctx == p.ctx && rxKey c.pkt == rxKey p && rxSeq c.pkt == rxSeq p)
      (s.col.rctx.filter (fun e => e.1 / 512 == t)) = some (key, c) → rxSig p = rxSig c.pkt → rxSig p ≠ sigMARK →
    c.count + rxCount p < rxLsize c.pkt →
    (s.after fun w => w.redTake t p).col.rctx.find key = some (c.join p s.fc)
      ∧ (c.join p s.fc).count = c.count + rxCount p ∧ (s.after fun w => w.redTake t p).mem = s.mem)
  ∧ (∀ (s : State) t p,
    Tbl.findBy (fun _ c => c.pkt.ctx == p.ctx && rxKey c.pkt == rxKey p && rxSeq c.pkt == rxSeq p)
      (s.col.rctx.filter (fun e => e.1 / 512 == t)) = none →
    512 ≤ (s.col.rctx.filter (fun e => e.1 / 512 == t)).length →
    (s.after fun w => w.redTake t p) = s.after fun w => (w.inc (rtrB (uTine t)) KRTR_RBYP.bypass).resultOut t p)

/-- Bags, pool units and merge units (R243 to R267). A BAG takes the lowest free slot; a list with no row is BADOP; a gather of one row that
passes its checks is sent. The station folds the partials that its buffer has room for; a bag out of time ends. A region's partials and
a tine's rows go to their units, whose contexts emit when they linger. A POOL_READ or a MERGE_ROW of a wrong form is refused; else the
segments are read, or added into memory, and an answered read leaves. -/
def Obligations.PoolsAct : Prop :=
  (∀ s st e l i, s.inReset = false → s.mayStart st e 6 = some l → (List.range 64).find? (fun i => (s.bagAt st i).isNone) = some i →
    ∃ t, exec (.bagSlotAllocate st e) s = .next t
      ∧ t.bagAt st i = some { entry := e, seq := (Tbl.get 0 s.col.bseq (bagKey st i) + 1) % 256, ctx := l.lctx, t0 := s.fc }
      ∧ t.logAt st e = some { l with lstate := 2 } ∧ t.mem = s.mem ∧ t.net = s.net)
  ∧ (∀ s st e l i bag, s.inReset = false → s.logAt st e = some l → s.bagOf st e = some (i, bag) → bag.sent = false →
    bits (le l.desc 34 2) 0 9 = 0 →
    exec (.bagDescriptor st e) s = .next (s.after fun w => w.bagEnd st i BADOP))
  ∧ (∀ s st e l i bag row, s.inReset = false → s.logAt st e = some l → s.bagOf st e = some (i, bag) → bag.sent = false →
    s.bagAt st i = some bag →
    bits (le l.desc 34 2) 0 9 = 1 → bits (le l.desc 34 2) 9 7 = 0 → le l.desc 32 1 = 0 → bits (le l.desc 36 1) 5 3 = 0 → le l.desc 37 3 = 0 →
    le l.desc 48 16 = 0 → 10 ≤ bits (le l.desc 36 1) 0 5 → bits (le l.desc 36 1) 0 5 ≤ 30 → le l.desc 40 4 % 64 = 0 → le l.desc 44 4 % 64 = 0 →
    row = bagRow (s.w0.sramRead st (le l.desc 40 4) 16) → row.clean = true →
    row.row < s.rd (stnB st) KSTN_PTAB_ROWS_LO.trows_lo row.table + s.rd (stnB st) KSTN_PTAB_ROWS_HI.trows_hi row.table * 2 ^ 32 →
    1 ≤ le l.desc 33 1 → le l.desc 33 1 ≤ 3 →
    outLen (s.rd (stnB st) KSTN_PTAB_CFG.rlines row.table) (s.rd (stnB st) KSTN_PTAB_CFG.dtype row.table) (le l.desc 33 1) ≤ 4096 →
    s.rd (stnB st) KSTN_PTAB_CFG.tvalid row.table ≠ 0 → s.entryBad (.pool st row.table) = false → s.owns 7 st row.table l.lctx = true →
    s.winOk st l.lctx true (le l.desc 40 4) 16 true false false = true →
    s.winOk st l.lctx true (le l.desc 44 4) (outLen (s.rd (stnB st) KSTN_PTAB_CFG.rlines row.table)
      (s.rd (stnB st) KSTN_PTAB_CFG.dtype row.table) (le l.desc 33 1)) false true false = true →
    s.ctxFencedAt st l.lctx = false → s.fencedAll st = false →
    ∃ t b, exec (.bagDescriptor st e) s = .next t ∧ t.bagAt st i = some b ∧ b.sent = true ∧ b.merge = false
      ∧ b.pieces = nSegs (s.rd (stnB st) KSTN_PTAB_CFG.rlines row.table) ∧ b.addr = le l.desc 44 4
      ∧ b.t0 = bag.t0 + 2 ^ bits (le l.desc 36 1) 0 5 ∧ t.mem = s.mem)
  ∧ (∀ s st p w, s.inReset = false → s.w0.takeAny (uSt st) (fun x => x.op == 0x41 && s.partRoom st x) = some (p, w) →
    exec (.poolPartFold st) s = .next (s.after fun _ => w.partFold st p))
  ∧ (∀ s st i b, s.inReset = false → s.bagAt st i = some b → b.sent = true → b.t0 ≤ s.fc → b.merge = true →
    exec (.bagTimeLimit st i) s = .next (s.after fun w => w.bagEnd st i TIMEOUT))
  ∧ (∀ s st i b, s.inReset = false → s.bagAt st i = some b → b.sent = true → b.t0 ≤ s.fc → b.merge = false →
    s.w0.takeAny (uSt st) (fun p => p.op == 0x41 && pxSlot p == i) = none →
    exec (.bagTimeLimit st i) s = .next (s.after fun w => w.bagEnd st i (if b.folded = 0 then TIMEOUT else SHORT)))
  ∧ (∀ s region p inp w, s.inReset = false → s.w0.takeBuf (uRR region) pPin 9 (fun _ => true) = some (p, inp, w) →
    exec (.poolPart region) s = .next (s.after fun _ => w.regionPart (uRR region) p inp))
  ∧ (∀ s u key c, s.inReset = false → isRouter u = false → s.col.pool.find (poolKey u key) = some c →
    c.t0 + 2 ^ s.rd (unitB u) KMSP_POOL_CFG.plinger_log2 ≤ s.fc →
    exec (.poolLingerExpiry u key) s = .next (s.after fun w => (w.inc (unitB u) KMSP_POOL_EVT.pool_linger).poolEmit (poolKey u key)))
  ∧ (∀ s region key c, s.inReset = false → region < 192 → s.col.pool.find (poolKey (uRR region) key) = some c →
    c.t0 + 2 ^ s.rd (rtrB (uRR region)) KRTR_POOL_CFG.plinger_log2 ≤ s.fc →
    s.w0.takeBuf (uRR region) pPin 9 (fun p => samePool p c.pkt) = none →
    exec (.poolLingerExpiry (uRR region) key) s = .next (s.after fun w =>
      (w.inc (rtrB (uRR region)) KRTR_POOL_EVT.pool_linger).poolEmit (poolKey (uRR region) key)))
  ∧ (∀ s port p, s.inReset = false → s.nextReq port 0x40 = some p → s.poolForm port p = true → mgmtPass p.src p.ctx = false →
    (∃ i ∈ maskSegs (pxMask p), s.mwinOk (port / 2) p.ctx (p.addr + 256 * i) (segLen (pxRl p) i) true false false = false) →
    exec (.poolRead port) s = .next (s.after fun w =>
      (((w.takeReq port p).inc (sliceB (port / 2)) KMSP_POOL_EVT2.pool_refuse).inc (mspB port) KMSP_EVT.win_denied).cmp (uMsp port) p DENIED
        (popc (pxMask p) 16)))
  ∧ (∀ s port p, s.inReset = false → s.nextReq port 0x40 = some p → s.poolForm port p = false →
    exec (.poolRead port) s = .next (s.after fun w =>
      ((w.takeReq port p).inc (sliceB (port / 2)) KMSP_POOL_EVT2.pool_refuse).cmp (uMsp port) p BADOP (popc (pxMask p) 16)))
  ∧ (∀ s port p, s.inReset = false → s.nextReq port 0x40 = some p → s.poolForm port p = true → s.pkgFenced (uMsp port) p.ctx = false →
    (∀ i ∈ maskSegs (pxMask p), s.mwinOk (port / 2) p.ctx (p.addr + 256 * i) (segLen (pxRl p) i) true false false = true
      ∧ s.lineBusy (port / 2) (loff p.addr + 256 * i) (segLen (pxRl p) i) = false
      ∧ ∀ l ∈ linesOf (loff p.addr + 256 * i) (segLen (pxRl p) i), s.dirFind (port / 2) l = none) →
    ∃ t key r, exec (.poolRead port) s = .next t ∧ t.col.rows.find key = some r ∧ r.pkt = p ∧ r.port = port
      ∧ r.segs = (maskSegs (pxMask p)).map (fun i => (i, s.w0.memRead (loff p.addr + 256 * i) (segLen (pxRl p) i)))
      ∧ r.left = (maskSegs (pxMask p)).length ∧ t.mem = s.mem)
  ∧ (∀ s port tag o p unc, s.inReset = false → s.msp.opens.find (port * 1024 + tag) = some o → o.we = false → o.act = .read p → p.pois = 0 →
    o.lines = 1 → unc = 0 → s.w0.memPois (o.loff / 64 * 64) = false →
    exec (.memoryReadResponse port tag unc) s = .next (s.after fun w =>
      (W.inc { w with msp.opens := w.msp.opens.del (port * 1024 + tag) } (mspB port) KMSP_EVT.uncorr_rd 0).reply (uMsp port)
        { ansTo p p.dst with vc := 6, op := 0x03, len := p.data.length, addr := p.addr, data := p.data, pois := 0, status := OK }))
  ∧ (∀ s port tag o p st, s.inReset = false → s.msp.opens.find (port * 1024 + tag) = some o → o.we = false → o.act = .grant p st →
    p.pois = 0 → o.lines = 1 → s.w0.memPois (o.loff / 64 * 64) = false →
    exec (.memoryReadResponse port tag 0) s = .next (s.after fun w =>
      (W.inc { w with msp.opens := w.msp.opens.del (port * 1024 + tag) } (mspB port) KMSP_EVT.uncorr_rd 0).reply (uMsp port)
        { ansTo p p.dst with vc := 6, op := 0x09, len := 64, addr := p.addr, data := p.data, pois := 0, aux := st, status := OK }))
  ∧ (∀ s tine p inp w, s.inReset = false → s.w0.takeBuf (uTine tine) pMin 9 (fun p => p.op == 0x42) = some (p, inp, w) →
    exec (.mergeRow tine) s = .next (s.after fun _ => w.mergeTake tine p inp))
  ∧ (∀ s tine key e, s.inReset = false → s.col.mrg.find (mrgKey tine key) = some e → e.wait = false →
    e.t0 + 2 ^ s.rd (rtrB (uTine tine)) KRTR_MRG_CFG.mwin_log2 ≤ s.fc →
    s.w0.takeBuf (uTine tine) pMin 9 (fun p => p.op == 0x42 && p.ctx == e.first.ctx && p.addr == e.first.addr) = none →
    exec (.mergeWindowExpiry tine key) s = .next (s.after fun w => w.mrgEmit tine (mrgKey tine key)))
  ∧ (∀ s tine p inp w key e, s.inReset = false → s.w0.takeBuf (uTine tine) pMin 3 (fun p => p.op == 0x60) = some (p, inp, w) →
    Tbl.findBy (fun k e => k / 512 == tine && e.wait && e.first.src == p.dst && e.first.tag == p.tag && e.first.ctx == p.ctx) w.col.mrg = some (key, e) →
    exec (.mergeAnswer tine) s = .next (s.after fun _ => w.mrgAnswer tine key p.status))
  ∧ (∀ s port p, s.inReset = false → s.nextReq port 0x42 = some p → s.mergeForm port p = false →
    exec (.nearMemoryAccumulate port) s = .next (s.after fun w => (w.takeReq port p).memRefuse port p BADOP))
  ∧ (∀ s port p, s.inReset = false → s.nextReq port 0x42 = some p → s.mergeForm port p = true → mxMask p = 1 → s.pkgFenced (uMsp port) p.ctx = false →
    s.mwinOk (port / 2) p.ctx p.addr (segLen (mxRl p) 0) false true false = true → s.inFault = false → p.bad = false → p.data.length = p.len →
    (∀ l ∈ linesOf (loff p.addr) (segLen (mxRl p) 0), s.dirFind (port / 2) l = none) →
    ∃ t, exec (.nearMemoryAccumulate port) s = .next t
      ∧ getBytes t.mem.cells (loff p.addr) (segLen (mxRl p) 0)
        = combineRow (mxType p) 0 (getBytes s.mem.cells (loff p.addr) (segLen (mxRl p) 0)) (p.data.take (segLen (mxRl p) 0))
      ∧ ∀ x, (x < loff p.addr ∨ loff p.addr + segLen (mxRl p) 0 ≤ x) → Tbl.get 0 t.mem.cells x = Tbl.get 0 s.mem.cells x)

/-- Lanes and blocks of an EP (R317, R320, R324, R350): lock is gained after four good blocks, and the link starts with the frames of its
receive buffers that are free as credits to the peer; lock is lost after four bad blocks, when signal falls on a lane in use or when the
optical engine is not ready, which stops the link and raises class LINK; a received block's codewords are decoded and counted, its header
counts towards lock and, when it decoded, gives the peer's identity and readiness, and with lock its 25 frames wait to be taken. -/
def Obligations.LanesLock : Prop :=
  (∀ s e lane, s.inReset = false → e < 64 → 4 ≤ (s.epS e).good → (s.epS e).oeReady = true → s.rd (epB e) KEDG_STAT.lane_lock ≠ 1 →
    ∃ t, exec (.laneLockGain e lane) s = .next t ∧ t.rd (epB e) KEDG_STAT.lane_lock = 1
      ∧ (t.epS e).owed = (List.range 12).map (fun v =>
          (v, 32 - ((s.epS e).inq.filter (fun x => x.1 == v)).foldl (fun n x => n + x.2.1) 0))
      ∧ (t.epS e).replay = [] ∧ (t.epS e).cred = [] ∧ (t.epS e).txSeq = 0 ∧ (t.epS e).rxSeq = 4095 ∧ (t.epS e).rxValid = false
      ∧ (t.epS e).inq = (s.epS e).inq ∧ (t.epS e).conns = (s.epS e).conns ∧ t.mem = s.mem ∧ t.net = s.net)
  ∧ (∀ s e lane, s.inReset = false → e < 64 → lane < 5 →
    (s.epS e).good < 4 ∨ (s.epS e).oeReady = false ∨ s.rd (epB e) KEDG_STAT.lane_lock = 1 →
    ∃ t, exec (.laneLockGain e lane) s = .next t
      ∧ t.rd (epB e) KEDG_LANE.sig = setBit (s.rd (epB e) KEDG_LANE.sig) lane true % 2 ^ KEDG_LANE.sig.width
      ∧ t.ep = s.ep ∧ t.mem = s.mem ∧ t.net = s.net)
  ∧ (∀ s e lane, s.inReset = false → 5 ≤ lane → 4 ≤ (s.epS e).badN → s.rd (epB e) KEDG_STAT.lane_lock ≠ 0 →
    exec (.laneLockLoss e lane) s = .next (s.after fun w =>
      { (w.lockLoss e).fault clLINK (locEp e) with flt.escal := ((w.lockLoss e).fault clLINK (locEp e)).flt.escal ++ [locEp e] }))
  ∧ (∀ s e lane, s.inReset = false → 5 ≤ lane → (s.epS e).badN < 4 ∨ s.rd (epB e) KEDG_STAT.lane_lock = 0 →
    exec (.laneLockLoss e lane) s = .next s)
  ∧ (∀ s e lane, s.inReset = false → e < 64 → lane < 5 → (s.lanesUsed e).contains lane = false →
    ∃ t, exec (.laneLockLoss e lane) s = .next t
      ∧ t.rd (epB e) KEDG_LANE.sig = setBit (s.rd (epB e) KEDG_LANE.sig) lane false % 2 ^ KEDG_LANE.sig.width
      ∧ t.ep = s.ep ∧ t.mem = s.mem ∧ t.net = s.net)
  ∧ (∀ s e lane, s.inReset = false → e < 64 → lane < 5 → (s.lanesUsed e).contains lane = true →
    exec (.laneLockLoss e lane) s = .next (s.after fun w =>
      (w.wr (epB e) KEDG_LANE.sig (setBit (s.rd (epB e) KEDG_LANE.sig) lane false)).lockFault e))
  ∧ (∀ (s : State) e, s.rd (epB e) KEDG_STAT.lane_lock ≠ 0 →
    ((s.after fun w => w.lockLoss e).epS e).replay = [] ∧ ((s.after fun w => w.lockLoss e).epS e).cred = []
      ∧ ((s.after fun w => w.lockLoss e).epS e).good = 0 ∧ ((s.after fun w => w.lockLoss e).epS e).rxFr = []
      ∧ ((s.after fun w => w.lockLoss e).epS e).asm_ = [] ∧ ((s.after fun w => w.lockLoss e).epS e).conns = (s.epS e).conns)
  ∧ (∀ s e, s.inReset = false → ∃ t, exec (.oeReadyChange e true) s = .next t ∧ (t.epS e).oeReady = true ∧ (t.epS e).oeRst = false
      ∧ (t.epS e).txEn = (s.lanesUsed e).foldl (fun m l => setBit m l true) 0 ∧ t.mem = s.mem ∧ t.net = s.net)
  ∧ (∀ s e, s.inReset = false → s.rd (epB e) KEDG_STAT.lane_lock = 0 → ∃ t, exec (.oeReadyChange e false) s = .next t
      ∧ (t.epS e).oeReady = false ∧ (t.epS e).txEn = 0 ∧ t.mem = s.mem ∧ t.net = s.net)
  ∧ (∀ s e, s.inReset = false → exec (.oeReadyChange e false) s = .next (s.after fun w =>
      (w.epMod e (fun p => { p with oeReady := false, oeRst := false, txEn := 0 })).lockFault e))
  ∧ (∀ s e rx blk, s.inReset = false →
    blk = decodeBlock (rxSyms (s.rd (epB e) KEDG_LANE.spare_on == 1) (s.rd (epB e) KEDG_LANE.spare_lane) rx) → le blk.hdr 0 6 ≠ 0x9E2B71C4D5A8 →
    ∃ t, exec (.blockHeaderReceive e rx) s = .next t
      ∧ (t.epS e).good = 0 ∧ (t.epS e).badN = min 4 ((s.epS e).badN + 1) ∧ (t.epS e).peerPkg = (s.epS e).peerPkg ∧ t.mem = s.mem)
  ∧ (∀ s e rx blk, s.inReset = false → e < 64 →
    blk = decodeBlock (rxSyms (s.rd (epB e) KEDG_LANE.spare_on == 1) (s.rd (epB e) KEDG_LANE.spare_lane) rx) → le blk.hdr 0 6 = 0x9E2B71C4D5A8 →
    ∃ t, exec (.blockHeaderReceive e rx) s = .next t ∧ (t.epS e).good = min 4 ((s.epS e).good + 1) ∧ (t.epS e).badN = 0 ∧ t.mem = s.mem
      ∧ ((blk.frames.map (fun f => f.2)).headD false = true →
        (t.epS e).peerPkg = bits (le blk.hdr 9 3) 0 17 ∧ (t.epS e).peerEp = bits (le blk.hdr 9 3) 17 6
          ∧ t.rd (epB e) KEDG_STAT.peer_nready = bits (le blk.hdr 8 1) 0 1)
      ∧ ((blk.frames.map (fun f => f.2)).headD false = false → (t.epS e).peerPkg = (s.epS e).peerPkg ∧ (t.epS e).peerEp = (s.epS e).peerEp))
  ∧ (∀ s e rx on sl blk, s.inReset = false → on = (s.rd (epB e) KEDG_LANE.spare_on == 1) → sl = s.rd (epB e) KEDG_LANE.spare_lane →
    blk = decodeBlock (rxSyms on sl rx) →
    ∃ t, exec (.blockHeaderReceive e rx) s = .next t ∧ (t.epS e).rxFr = (s.epS e).rxFr
      ++ (if s.rd (epB e) KEDG_STAT.lane_lock = 1 then (blk.frames.zip (List.range 25)).map (fun x =>
          { bytes := x.1.1, ok := x.1.2, at_ := (s.herdTime + 2 ^ 64 - (rx.length - 1 - frameFc on sl rx x.2)) % 2 ^ 64 }) else [])
      ∧ (s.rd (epB e) KEDG_STAT.lane_lock ≠ 1 →
        t = s.after fun w => (w.fecCount e blk.corr blk.uncorr).takeHeader e blk.hdr ((blk.frames.head?.map (fun f => f.2)).getD false)))
  ∧ (∀ (s : State) e n m, e < 64 →
    (s.after fun w => w.fecCount e n m).rd (epB e) KEDG_FEC.fec_uncorr
      = satAdd KEDG_FEC.fec_uncorr.width (s.rd (epB e) KEDG_FEC.fec_uncorr) m % 2 ^ KEDG_FEC.fec_uncorr.width)

/-- Frames (R322 to R326, R328, R345, R346, R350): a boundary sends from the first source of R326 that has something: in the fault state IDLE
frames only, then a TIME frame that is due, circuit cells inside an open window, frames to resend, a high-priority VC, an ACK. A received
frame that is not good is counted; one in sequence joins its packet, one out of sequence is discarded and `lnak` set; its control cell
frees frames, gives credits and asks for a resend; circuit frames fill the circuit buffer. -/
def Obligations.FramesAct : Prop :=
  (∀ s e, s.inReset = false → (s.epS e).oeReady = false ∨ (s.epS e).txEn = 0 → exec (.frameBoundary e) s = .next s)
  ∧ (∀ s e, s.inReset = false → (s.epS e).oeReady = true → (s.epS e).txEn ≠ 0 → s.edgeFault = true →
    exec (.frameBoundary e) s = .next (s.after fun w => w.sendFrame e 0 0 (s.epS e).txSeq false false []))
  ∧ (∀ s e n mlk hops, s.inReset = false → (s.epS e).oeReady = true → (s.epS e).txEn ≠ 0 → s.edgeFault = false →
    n = s.herdTime / 2 ^ s.rd (epB e) KEDG_TIME_CFG.tw_log2 → n ≠ (s.epS e).timeFc →
    mlk = (s.rd hrdB KHRD_STATUS.state == 2 && s.rd hrdB KHRD_STATUS.free_run == 0) →
    hops = (if mlk then min 255 (s.rd (epB (s.rd hrdB KHRD_STATUS.ref_port)) KEDG_TIME_STAT.thops + 1) else 255) →
    exec (.frameBoundary e) s = .next (s.after fun w => (w.epMod e (fun p => { p with timeFc := n })).sendFrame e 3 0 (s.epS e).txSeq false false
      (toLE 8 (s.herdTime + s.rd (epB e) KEDG_TIME_CFG.tx_lat) ++ toLE 8 (s.epS e).peerTx ++ toLE 8 (s.epS e).peerRecv
        ++ toLE 1 (if mlk then 1 else 0) ++ toLE 1 hops)))
  ∧ (∀ s e c, s.inReset = false → (s.epS e).oeReady = true → (s.epS e).txEn ≠ 0 → s.edgeFault = false → s.edgeHold = false →
    s.herdTime / 2 ^ s.rd (epB e) KEDG_TIME_CFG.tw_log2 = (s.epS e).timeFc → (s.epS e).cwPhase = 2 →
    (s.epS e).cw.find (s.rd (epB e) KEDG_CW_STAT.cw_next) = some c → c.tOpen + 8 ≤ s.herdTime → s.herdTime + 8 < c.tClose →
    (s.epS e).txq ≠ [] → s.rd hrdB KHRD_STATUS.state = 2 → s.rd hrdB KHRD_STATUS.free_run = 0 →
    exec (.frameBoundary e) s = .next (s.after fun w => ((w.epMod e (fun p => { p with txq := p.txq.drop 3 })).wr (epB e) KEDG_CW_STAT.cw_txq
      ((s.epS e).txq.length - ((s.epS e).txq.take 3).length)).sendFrame e 4 0 (s.epS e).txSeq false false
        (((s.epS e).txq.take 3).flatMap Cell.bytes)))
  ∧ (∀ s e f rest, s.inReset = false → (s.epS e).oeReady = true → (s.epS e).txEn ≠ 0 →
    s.herdTime / 2 ^ s.rd (epB e) KEDG_TIME_CFG.tw_log2 = (s.epS e).timeFc → s.seqOk e = true → (s.epS e).resend = f :: rest →
    exec (.frameBoundary e) s = .next (s.after fun w =>
      (w.sendFrame e f.ftype f.vc f.lseq f.sof f.eof f.body).epMod e (fun p => { p with resend := rest })))
  ∧ (∀ s e a, s.inReset = false → (s.epS e).oeReady = true → (s.epS e).txEn ≠ 0 →
    s.herdTime / 2 ^ s.rd (epB e) KEDG_TIME_CFG.tw_log2 = (s.epS e).timeFc → s.seqOk e = true → (s.epS e).resend = [] →
    a = s.arb (uEp e) 1 0 →
    (∀ vc, [0, 1, 2, 3, 4, 6, 7, 8, 9].find? (fun vc =>
        bit (s.rdOld (epB e) KRTR_QUOTA.hp_mask) vc && s.fragOk e vc && !s.qMasked (epB e) a 0 vc s.herdTime) = some vc →
      exec (.frameBoundary e) s = .next (s.after fun w =>
        (w.sendFrag e vc).setArb (uEp e) 1 0 (w.countGrant (epB e) a 0 vc s.herdTime)))
    ∧ ([0, 1, 2, 3, 4, 6, 7, 8, 9].find? (fun vc =>
        bit (s.rdOld (epB e) KRTR_QUOTA.hp_mask) vc && s.fragOk e vc && !s.qMasked (epB e) a 0 vc s.herdTime) = none → s.fragOk e 10 = true →
      exec (.frameBoundary e) s = .next (s.after fun w => w.sendFrag e 10)))
  ∧ (∀ (s : State) e vc o l body, (s.epS e).eq.find vc = some (o :: l) → body = (o.bytes.drop o.sent).take 240 →
    ((s.after fun w => w.sendFrag e vc).epS e).txSeq = ((s.epS e).txSeq + 1) % 4096
      ∧ ((s.after fun w => w.sendFrag e vc).epS e).replay = (s.epS e).replay
        ++ [{ lseq := (s.epS e).txSeq, ftype := if vc = 10 then 2 else if vc = 11 then 5 else 1, vc := vc, sof := o.sent == 0
              eof := decide (o.bytes.length ≤ o.sent + body.length), body := body }]
      ∧ Tbl.get 0 ((s.after fun w => w.sendFrag e vc).epS e).cred vc = Tbl.get 0 (s.epS e).cred vc - 1)
  ∧ (∀ s e, s.inReset = false → s.nextFrame e (fun f => !(f.good && (f.type == 3 || f.type == 4))) = none → exec (.dataFrame e) s = .next s)
  ∧ (∀ s e f, s.inReset = false → s.nextFrame e (fun f => !(f.good && (f.type == 3 || f.type == 4))) = some f → f.good = false ∨ 5 < f.type →
    exec (.dataFrame e) s = .next (s.after fun w => (w.dropFrame e).inc (epB e) KEDG_LINK.crc_bad))
  ∧ (∀ s e f, s.inReset = false → s.nextFrame e (fun f => !(f.good && (f.type == 3 || f.type == 4))) = some f → f.good = true → f.type = 0 →
    exec (.dataFrame e) s = .next (s.after fun w => (w.dropFrame e).takeControl e f.bytes))
  ∧ (∀ s e f, s.inReset = false → s.nextFrame e (fun f => !(f.good && (f.type == 3 || f.type == 4))) = some f → f.good = true →
    (f.type = 1 ∨ f.type = 2 ∨ f.type = 5) → bits (le f.bytes 4 2) 0 12 = ((s.epS e).rxSeq + 1) % 4096 →
    exec (.dataFrame e) s = .next (s.after fun w =>
      (((w.dropFrame e).util (uEp e) 0xD78 256).takeControl e f.bytes).acceptFrame e f.bytes))
  ∧ (∀ s e f, s.inReset = false → s.nextFrame e (fun f => !(f.good && (f.type == 3 || f.type == 4))) = some f → f.good = true →
    (f.type = 1 ∨ f.type = 2 ∨ f.type = 5) → bits (le f.bytes 4 2) 0 12 ≠ ((s.epS e).rxSeq + 1) % 4096 →
    ∃ t, exec (.dataFrame e) s = .next t ∧ (t.epS e).nak = true ∧ (t.epS e).inq = (s.epS e).inq ∧ (t.epS e).asm_ = (s.epS e).asm_
      ∧ (t.epS e).rxSeq = (s.epS e).rxSeq ∧ (t.epS e).rxFr = (s.epS e).rxFr.drop 1 ∧ t.mem = s.mem ∧ t.net = s.net)
  ∧ (∀ (s : State) e f vc old n, vc = bits (le f 1 1) 0 4 → bit (le f 0 1) 5 = true →
    (bit (le f 0 1) 4 = true ∧ old = [] ∧ n = 0 ∨ bit (le f 0 1) 4 = false ∧ (s.epS e).asm_.find vc = some (old, n)) →
    ((s.after fun w => w.acceptFrame e f).epS e).inq = (s.epS e).inq ++ [(vc, n + 1, old ++ (f.drop 16).take (le f 2 1))]
      ∧ ((s.after fun w => w.acceptFrame e f).epS e).rxSeq = bits (le f 4 2) 0 12
      ∧ ((s.after fun w => w.acceptFrame e f).epS e).rxValid = true
      ∧ ((s.after fun w => w.acceptFrame e f).epS e).asm_ = (s.epS e).asm_.del vc)
  ∧ (∀ (s : State) e f vc, vc = bits (le f 1 1) 0 4 → bit (le f 0 1) 5 = false → bit (le f 0 1) 4 = true →
    (s.epS e).heldFrames vc < 31 → (s.epS e).asm_.find vc = none →
    (s.after fun w => w.acceptFrame e f).epS e = { s.epS e with
      rxSeq := bits (le f 4 2) 0 12, rxValid := true, owed := Tbl.set 0 (s.epS e).owed vc (Tbl.get 0 (s.epS e).owed vc)
      asm_ := (s.epS e).asm_.put vc ((f.drop 16).take (le f 2 1), 1) })
  ∧ (∀ (s : State) e f, bit (le f 6 2) 12 = false →
    ((s.after fun w => w.takeControl e f).epS e).replay
        = (if bit (le f 6 2) 13 then (s.epS e).replay.filter (fun x => !notEarlier (bits (le f 6 2) 0 12) x.lseq 12) else (s.epS e).replay)
      ∧ Tbl.get 0 ((s.after fun w => w.takeControl e f).epS e).cred (bits (le f 8 2) 0 4)
        = Tbl.get 0 (s.epS e).cred (bits (le f 8 2) 0 4) + bits (le f 8 2) 4 4)
  ∧ (∀ (s : State) e f, bit (le f 6 2) 12 = true → bit (le f 6 2) 13 = false → (s.epS e).replay ≠ [] →
    ((s.after fun w => w.takeControl e f).epS e).resend = (s.epS e).replay)
  ∧ (∀ s e x, s.inReset = false → s.nextFrame e (fun f => f.good && f.type == 4) = some x →
    (s.epS e).cwBad = false → (s.epS e).cwPhase = 2 → (s.epS e).rxq.length + min 3 (le x.bytes 2 1 / 76) ≤ 1024 →
    ∃ t, exec (.circFrame e) s = .next t
      ∧ (t.epS e).rxq = (s.epS e).rxq ++ (List.range (min 3 (le x.bytes 2 1 / 76))).map (fun i => cellOf ((x.bytes.drop (16 + 76 * i)).take 76))
      ∧ (t.epS e).rxFr = (s.epS e).rxFr.drop 1 ∧ t.mem = s.mem ∧ t.net = s.net)
  ∧ (∀ s e x, s.inReset = false → s.nextFrame e (fun f => f.good && f.type == 4) = some x →
    (s.epS e).cwBad = true ∨ (s.epS e).cwPhase ≠ 2 →
    exec (.circFrame e) s = .next (s.after fun w => ((w.dropFrame e).util (uEp e) 0xD78 256).takeControl e x.bytes))

/-- Edge packets (R331 to R334, R336, R339, R341, R343): an EP sends a packet across in a connection, refuses one that does not cross, and sets
one aside whose bucket is short; of what arrives, packets of unknown connections are reset, stale ones and those outside the window counted,
duplicates acknowledged again, and the next in order is taken: policed, refused, held for its predecessor, or delivered. Proxies (R335): the answer to a
proxied packet frees its proxy and goes back to the sender; an answer to none, and a proxy that waits 2^22 fc, are counted. -/
def Obligations.EdgePacketsAct : Prop :=
  (∀ s e p rest w u, s.inReset = false → s.edgeWaiting e = p :: rest → s.w0.takeVc (uEp e) p.vc (fun q => q == p) = some (p, w) →
    crossOp p.op = true → s.setAside e p = false →
    (if shapedVc p.vc then w.takeTokens e p false else w).sendNew e (s.crossDst p).1 (s.crossDst p).2.1 (s.crossDst p).2.2 = some u →
    exec (.edgePacketSend e) s = .next (s.after fun _ => u))
  ∧ (∀ s e p rest w, s.inReset = false → s.edgeWaiting e = p :: rest → s.w0.takeVc (uEp e) p.vc (fun q => q == p) = some (p, w) →
    crossOp p.op = false → exec (.edgePacketSend e) s = .next (s.after fun _ => w.cmp (uEp e) p BADOP))
  ∧ (∀ s e p rest w, s.inReset = false → s.edgeWaiting e = p :: rest → s.w0.takeVc (uEp e) p.vc (fun q => q == p) = some (p, w) →
    crossOp p.op = true → s.setAside e p = true → (s.epS e).shaped.foldl (fun n x => n + x.size) 0 + p.size ≤ 256 * 1024 →
    exec (.edgePacketSend e) s = .next (s.after fun _ => (w.inc (epB e) KEDG_RATE_CNT.shp_held 1 ((s.rateEnt e p.ctx false).getD 0)).epMod e
      (fun x => { x with shaped := x.shaped ++ [p] })))
  ∧ (∀ s e p rest w, s.inReset = false → s.edgeWaiting e = p :: rest → s.w0.takeVc (uEp e) p.vc (fun q => q == p) = some (p, w) →
    s.w0.edgeGo w e p = none → s.setAside e p = false → (∀ q ∈ rest, crossOp q.op = true ∧ (s.crossDst q).1 = (s.crossDst p).1) →
    exec (.edgePacketSend e) s = .next s)
  ∧ (∀ s e x, s.inReset = false → (s.epS e).inq.find? (fun x => decide (x.1 < 10)) = some x →
    (s.epS e).conns.find (ehdrOf x.2.2).spkg = none → (ehdrOf x.2.2).syn = false →
    exec (.edgePacketReceive e) s = .next (s.after fun w => (w.takeEdge e x).sendAck e
      (ehdrOf x.2.2).spkg (ehdrOf x.2.2).sep (ehdrOf x.2.2).inc true 0 []))
  ∧ (∀ s e x h p c i q, s.inReset = false → (s.epS e).inq.find? (fun x => decide (x.1 < 10)) = some x → h = ehdrOf x.2.2 →
    p = crossRead (pktOf (x.2.2.drop 24)) → (s.epS e).conns.find h.spkg = some c → c.recv = true → c.rinc = h.inc → h.psn = (c.cum + 1) % 2 ^ 24 →
    c.cum < 2 ^ 24 → c.got = [] → c.held = [] → p.vc < 10 → s.rateOk e p true = true → s.crossBad h p = false → s.pkgFenced (uEp e) p.ctx = false →
    h.cpv = false → proxied p.op = true → crossReply h p = false → (s.epS e).proxies.free 16384 = some i →
    q = { spkg := h.spkg, sep := h.sep, src := p.src, tag := p.tag, ack := p.ack, op := p.op, ctx := p.ctx, fc := s.fc,
          lines := if p.op = 0x20 then msgLines (p.len - 16) else 0 } →
    ∃ t d, exec (.edgePacketReceive e) s = .next t ∧ (t.epS e).proxies.find i = some q ∧ (t.epS e).conns.find h.spkg = some d
      ∧ d.cum = h.psn ∧ d.got = [] ∧ d.ackDue = true ∧ d.outst = c.outst ∧ (t.epS e).inq = (s.epS e).inq.erase x)
  ∧ (∀ s e x h c, s.inReset = false → (s.epS e).inq.find? (fun x => decide (x.1 < 10)) = some x → h = ehdrOf x.2.2 →
    (s.epS e).conns.find h.spkg = some c → c.recv = true → c.rinc = h.inc → notEarlier c.cum h.psn 24 = true ∨ c.got.contains h.psn = true →
    exec (.edgePacketReceive e) s = .next (s.after fun w =>
      (((w.takeEdge e x).epMod e (fun y => { y with
        conns := y.conns.modify h.spkg (fun c => { c with lastArr := s.fc, used := s.fc }) })).inc (epB e) KEDG_XEVT2.rx_dup).ackNow e h.spkg))
  ∧ (∀ s e x h c, s.inReset = false → (s.epS e).inq.find? (fun x => decide (x.1 < 10)) = some x → h = ehdrOf x.2.2 →
    (s.epS e).conns.find h.spkg = some c → c.recv = true → c.rinc ≠ h.inc → h.syn = false →
    exec (.edgePacketReceive e) s = .next (s.after fun w =>
      ((w.takeEdge e x).epMod e (fun y => { y with
        conns := y.conns.modify h.spkg (fun c => { c with lastArr := s.fc, used := s.fc }) })).inc (epB e) KEDG_XEVT3.rx_stale))
  ∧ (∀ s e x h c, s.inReset = false → (s.epS e).inq.find? (fun x => decide (x.1 < 10)) = some x → h = ehdrOf x.2.2 →
    (s.epS e).conns.find h.spkg = some c → c.recv = true → c.rinc = h.inc → notEarlier c.cum h.psn 24 = false → c.got.contains h.psn = false →
    2 ^ 22 < (h.psn + 2 ^ 24 - c.cum) % 2 ^ 24 ∨ 4 < (Conn.ranges { c with got := h.psn :: c.got }).length →
    exec (.edgePacketReceive e) s = .next (s.after fun w =>
      ((w.takeEdge e x).epMod e (fun y => { y with
        conns := y.conns.modify h.spkg (fun c => { c with lastArr := s.fc, used := s.fc }) })).inc (epB e) KEDG_XEVT2.rx_window))
  ∧ (∀ (s : State) e peer c h p, p.vc < 10 →
    (s.rateOk e p true = false → s.w0.crossIn e peer c h p = some
      (let w := (((s.w0.inc (epB e) KEDG_RATE_CNT.pol_drop 1 ((s.rateEnt e p.ctx true).getD 0)).ev (uEp e) 0x64 1 p.ctx).traceEp e 5 p.ctx peer h.psn)
       if wantsAns p ∨ p.op = 0x20 then w.cmpAcross e peer p DROPPED else w))
    ∧ (s.rateOk e p true = true → s.crossBad h p = true → s.w0.crossIn e peer c h p = some
      (if crossTold h p then (s.w0.takeTokens e p true).cmpAcross e peer p BADOP else s.w0.takeTokens e p true)))
  ∧ (∀ (s : State) e peer c h p, 10 ≤ p.vc → s.w0.crossIn e peer c h p = some (s.w0.fault clARB (locEp e)))
  ∧ (∀ (s : State) e peer c h p, p.vc < 10 → s.rateEnt e p.ctx true = none → s.crossBad h p = false →
    (s.pkgFenced (uEp e) p.ctx = true → proxied p.op = true → crossReply h p = false →
      s.w0.crossIn e peer c h p = some (s.w0.cmpAcross e peer p FENCED))
    ∧ (p.op = 0x22 → h.cpv = true → c.delivered h.cpred = false → (s.epS e).reordLines + (p.size + 63) / 64 ≤ 4096 →
      ∃ w, s.w0.crossIn e peer c h p = some w ∧ (w.epS e).conns = (s.epS e).conns.modify peer (fun c => { c with
        held := c.held ++ [{ psn := h.psn, cpred := h.cpred, pkt := p, sep := h.sep, proxy := none }] }))
    ∧ (proxied p.op = true → crossReply h p = false → s.pkgFenced (uEp e) p.ctx = false → (s.epS e).proxies.free 16384 = none →
      s.w0.crossIn e peer c h p = none))
  ∧ (∀ s e p w i x, s.inReset = false → s.w0.takeAny (uEp e) (fun p => proxyAns p && !s.staleFirst p) = some (p, w) → p.ref < 2 ^ 19 →
    w.proxyLive e p.tag = true → i = p.tag % 2 ^ 14 → (w.epS e).proxies.find i = some x →
    x.ack = true ∨ (p.op = 0x60 ∧ p.status ≠ OK) ∨ ([0x01, 0x0C, 0x20, 0x40].contains x.op = false) →
    exec (.proxyAnswer e) s = .next (s.after fun _ => (w.freeProxy e i).answerAcross e x.spkg x.src
      { p with tag := x.tag, src := (w.freeProxy e i).epOf (uEp e), hops := 0, hopPtr := 0, hop := 0, gen := 0, ans := x.op }))
  ∧ (∀ s e p w i x, s.inReset = false → s.w0.takeAny (uEp e) (fun p => proxyAns p && !s.staleFirst p) = some (p, w) → p.ref < 2 ^ 19 →
    w.proxyLive e p.tag = true → i = p.tag % 2 ^ 14 → (w.epS e).proxies.find i = some x → x.ack = false → p.op = 0x60 → p.status = OK →
    (x.op = 0x01 ∨ x.op = 0x0C → exec (.proxyAnswer e) s = .next (s.after fun _ => (w.freeProxy e i).answerAcross e x.spkg x.src
      { p with tag := x.tag, src := (w.freeProxy e i).epOf (uEp e), hops := 0, hopPtr := 0, hop := 0, gen := 0, ans := x.op
               op := 0x0E, vc := 3, aux := 1, status := 0, data := [], len := 0 }))
    ∧ (x.op = 0x20 ∨ x.op = 0x40 → exec (.proxyAnswer e) s = .next (s.after fun _ => w.freeProxy e i)))
  ∧ (∀ s e p w, s.inReset = false → s.w0.takeAny (uEp e) (fun p => proxyAns p && !s.staleFirst p) = some (p, w) → p.ref < 2 ^ 19 →
    w.proxyLive e p.tag = false →
    exec (.proxyAnswer e) s = .next (s.after fun _ => w.inc (epB e) KEDG_PROXY.proxy_expire))
  ∧ (∀ s e p w, s.inReset = false → s.w0.takeAny (uEp e) (fun p => proxyAns p && !s.staleFirst p) = some (p, w) → 2 ^ 19 ≤ p.ref →
    exec (.proxyAnswer e) s = .next (s.after fun _ => w.spnRefund e p))
  ∧ (∀ s e i x, s.inReset = false → (s.epS e).proxies.find i = some x → x.fc + 2 ^ 22 ≤ s.fc → s.edgeFault = false →
    s.answerWaits e (s.proxyTag e i) = false →
    ∃ t, exec (.proxyExpiry e i) s = .next t ∧ (t.epS e).proxies = (s.epS e).proxies.del i
      ∧ (t.epS e).useCnt = Tbl.set 0 (s.epS e).useCnt i ((Tbl.get 0 (s.epS e).useCnt i + 1) % 4) ∧ t.mem = s.mem)
  ∧ (∀ s e i, s.inReset = false →
    (∀ x, (s.epS e).proxies.find i = some x → s.fc < x.fc + 2 ^ 22 ∨ s.edgeFault = true ∨ s.answerWaits e (s.proxyTag e i) = true) →
    exec (.proxyExpiry e i) s = .next s)

/-- Acknowledgement, retransmission and the spread over paths (R336 to R338, R340, R342, R343, R351): an ACK settles what it covers and its `rst`
ends the connection; an unacknowledged packet is retransmitted after its rto, on another path where one is live, and fails its connection when it
was sent `rtx_max` + 1 times; a path that fails `path_fail` times is suspended and returns; a packet set aside leaves when its tokens suffice. -/
def Obligations.TransportAct : Prop :=
  (∀ s e x c h r, s.inReset = false → (s.epS e).inq.find? (fun x => x.1 == 10) = some x → h = ehdrOf x.2.2 → r = x.2.2.drop 24 →
    (s.epS e).conns.find h.spkg = some c → bits (le r 0 4) 0 17 = s.pkgNum → c.send = true → bits (le r 0 4) 17 4 = c.inc →
    bit (le r 0 4) 21 = true →
    exec (.ackPacket e) s = .next (s.after fun w => (w.takeEdge e x).closeSend e h.spkg ABORTED false))
  ∧ (∀ s e x h r, s.inReset = false → (s.epS e).inq.find? (fun x => x.1 == 10) = some x → h = ehdrOf x.2.2 → r = x.2.2.drop 24 →
    (∀ c, (s.epS e).conns.find h.spkg = some c → bits (le r 0 4) 0 17 ≠ s.pkgNum ∨ c.send = false ∨ bits (le r 0 4) 17 4 ≠ c.inc) →
    exec (.ackPacket e) s = .next (s.after fun w => w.takeEdge e x))
  ∧ (∀ s e x c h r, s.inReset = false → (s.epS e).inq.find? (fun x => x.1 == 10) = some x → h = ehdrOf x.2.2 → r = x.2.2.drop 24 →
    (s.epS e).conns.find h.spkg = some c → bits (le r 0 4) 0 17 = s.pkgNum → c.send = true → bits (le r 0 4) 17 4 = c.inc →
    bit (le r 0 4) 21 = false → (∀ o ∈ c.outst, 0 < o.sends ∧ ackCovers r o.hdr.psn = true) →
    ∃ t d, exec (.ackPacket e) s = .next t ∧ (t.epS e).conns.find h.spkg = some d ∧ d.outst = [] ∧ d.acked = true
      ∧ d.scum = bits (le r 4 4) 0 24 ∧ (t.epS e).inq = (s.epS e).inq.erase x ∧ t.mem = s.mem)
  ∧ (∀ s e x c h r, s.inReset = false → (s.epS e).inq.find? (fun x => x.1 == 10) = some x → h = ehdrOf x.2.2 → r = x.2.2.drop 24 →
    (s.epS e).conns.find h.spkg = some c → bits (le r 0 4) 0 17 = s.pkgNum → c.send = true → bits (le r 0 4) 17 4 = c.inc →
    bit (le r 0 4) 21 = false → (∀ o ∈ c.outst, ackCovers r o.hdr.psn = false ∧ o.passed < 3) →
    ∃ t d, exec (.ackPacket e) s = .next t ∧ (t.epS e).conns.find h.spkg = some d ∧ d.outst = c.outst ∧ d.acked = true)
  ∧ (∀ s e peer c, s.inReset = false → (s.epS e).conns.find peer = some c → c.ackDue = true →
    c.ackFc + 2 ^ s.rd (epB e) KEDG_XPORT.ack_log2 ≤ s.fc → s.edgeFault = false →
    ∃ t, exec (.ackTimer e peer) s = .next t ∧ (t.epS e).conns.find peer = some { c with ackFc := s.fc, ackDue := false }
      ∧ (∃ o, (t.epS e).eq.find 10 = some (((s.epS e).eq.find 10).getD [] ++ [o]) ∧ o.peer = peer) ∧ t.mem = s.mem ∧ t.net = s.net)
  ∧ (∀ s e peer psn c o, s.inReset = false → s.edgeFault = false → (s.epS e).conns.find peer = some c →
    c.outst.find? (fun o => o.hdr.psn == psn) = some o → (s.epS e).queued peer psn = false → o.lastFc + c.rto ≤ s.fc →
    s.ackWaits e peer c.inc psn = false →
    Tbl.get 0 (s.epS e).pfail o.path + 1 < s.rd (epB e) KEDG_XPORT.path_fail → o.sends < s.rd (epB e) KEDG_XPORT.rtx_max + 1 →
    exec (.rtoExpiry e peer psn) s = .next (s.after fun w =>
      (w.epMod e (fun x => { x with pfail := Tbl.set 0 x.pfail o.path (Tbl.get 0 x.pfail o.path + 1) })).retransmit e peer o false))
  ∧ (∀ s e peer psn c o, s.inReset = false → s.edgeFault = false → (s.epS e).conns.find peer = some c →
    c.outst.find? (fun o => o.hdr.psn == psn) = some o → (s.epS e).queued peer psn = false → o.lastFc + c.rto ≤ s.fc →
    s.ackWaits e peer c.inc psn = false →
    s.rd (epB e) KEDG_XPORT.path_fail ≤ Tbl.get 0 (s.epS e).pfail o.path + 1 → o.sends < s.rd (epB e) KEDG_XPORT.rtx_max + 1 →
    exec (.rtoExpiry e peer psn) s = .next (s.after fun w =>
      ((w.epMod e (fun x => { x with pfail := Tbl.set 0 x.pfail o.path 0, psusp := x.psusp.put o.path (s.fc + 2 ^ 20) })).wr (epB e)
        KEDG_PATH.suspended 1 o.path).retransmit e peer o false))
  ∧ (∀ s e peer psn c o, s.inReset = false → s.edgeFault = false → (s.epS e).conns.find peer = some c →
    c.outst.find? (fun o => o.hdr.psn == psn) = some o → (s.epS e).queued peer psn = false → o.lastFc + c.rto ≤ s.fc →
    s.ackWaits e peer c.inc psn = false →
    Tbl.get 0 (s.epS e).pfail o.path + 1 < s.rd (epB e) KEDG_XPORT.path_fail → s.rd (epB e) KEDG_XPORT.rtx_max + 1 ≤ o.sends →
    exec (.rtoExpiry e peer psn) s = .next (s.after fun w =>
      ((w.epMod e (fun x => { x with pfail := Tbl.set 0 x.pfail o.path (Tbl.get 0 x.pfail o.path + 1) })).closeSend e peer TIMEOUT
        false).traceEp e 3 o.pkt.ctx peer psn))
  ∧ (∀ s e peer psn, s.inReset = false →
    (∀ c o, (s.epS e).conns.find peer = some c → c.outst.find? (fun o => o.hdr.psn == psn) = some o →
      s.edgeFault = true ∨ (s.epS e).queued peer psn = true ∨ s.fc < o.lastFc + c.rto ∨ s.ackWaits e peer c.inc psn = true) →
    exec (.rtoExpiry e peer psn) s = .next s)
  ∧ (∀ s e path t0, s.inReset = false → e < 64 → (s.epS e).psusp.find path = some t0 → t0 ≤ s.fc →
    ∃ t, exec (.pathSuspendEnd e path) s = .next t ∧ t.rd (epB e) KEDG_PATH.suspended path = 0 ∧ t.rd (epB e) KEDG_PATH.weight path = 256
      ∧ t.rd (epB e) KEDG_PATH.samples path = 0 ∧ t.rd (epB e) KEDG_PATH.srtt path = 0
      ∧ (t.epS e).psusp = (s.epS e).psusp.del path ∧ (t.epS e).prtt = (s.epS e).prtt.del path
      ∧ t.mem = s.mem ∧ t.net = s.net)
  ∧ (∀ (s : State) e skip, e < 64 → s.sprayLabels e ≠ [] →
    (s.w0.pickPath e skip).1 ∈ s.sprayLabels e
      ∧ ((∃ p ∈ s.sprayLabels e, s.rd (epB e) KEDG_PATH.suspended p = 0) → s.rd (epB e) KEDG_PATH.suspended (s.w0.pickPath e skip).1 = 0)
      ∧ (∀ k, skip = some k → (∃ p ∈ s.sprayLabels e, p ≠ k ∧ s.rd (epB e) KEDG_PATH.suspended p = 0) → (s.w0.pickPath e skip).1 ≠ k))
  ∧ (∀ s e p rest u, s.inReset = false → (s.epS e).shaped = p :: rest → s.rateOk e p false = true →
    ((s.w0.takeTokens e p false).epMod e (fun x => { x with shaped := x.shaped.erase p })).sendNew e (s.crossDst p).1 (s.crossDst p).2.1
      (s.crossDst p).2.2 = some u →
    exec (.shapingRelease e) s = .next (s.after fun _ => u))
  ∧ (∀ s e, s.inReset = false → (∀ p ∈ (s.epS e).shaped, s.rateOk e p false = false) → exec (.shapingRelease e) s = .next s)

/-- Circuit windows (R344, R345): the span begins `cw_lead` before `t_open`, the window opens at `t_open` and checks the peer, and its
entry is freed at `t_close`. Spine slots (R194, R196, R347 to R349): a message to a slot goes out as one REDX packet; one to a slot that is not
enabled is refused; a CRESYNC is answered with the free lines; a message that has gone is popped, and its lines are returned; a returned
result joins the results held. -/
def Obligations.WindowsAndSlotsAct : Prop :=
  (∀ s e i c, s.inReset = false → e < 64 → (s.epS e).nextCw = some (i, c) → i < 256 → (s.epS e).cwPhase = 0 →
    c.tOpen ≤ s.herdTime + s.rd (epB e) KEDG_CW_CFG.cw_lead →
    ∃ t, exec (.circuitSpanBegin e) s = .next t ∧ (t.epS e).cwPhase = 1 ∧ t.rd (epB e) KEDG_STAT.cw_span = 1
      ∧ t.rd (epB e) KEDG_CW_STAT.cw_next = i ∧ (t.epS e).cw = (s.epS e).cw ∧ t.mem = s.mem ∧ t.net = s.net)
  ∧ (∀ s e, s.inReset = false →
    (∀ i c, (s.epS e).nextCw = some (i, c) → (s.epS e).cwPhase ≠ 0 ∨ s.herdTime + s.rd (epB e) KEDG_CW_CFG.cw_lead < c.tOpen) →
    exec (.circuitSpanBegin e) s = .next s)
  ∧ (∀ s e c, s.inReset = false → (s.epS e).cw.find (s.rd (epB e) KEDG_CW_STAT.cw_next) = some c → (s.epS e).cwPhase = 1 →
    c.tOpen ≤ s.herdTime →
    ∃ t, exec (.circuitOpen e) s = .next t ∧ (t.epS e).cwPhase = 2
      ∧ (t.epS e).cwBad = decide ((s.epS e).peerPkg ≠ c.pkg ∨ (s.epS e).peerEp ≠ c.ep) ∧ (t.epS e).replay = []
      ∧ t.mem = s.mem ∧ t.net = s.net)
  ∧ (∀ s e c i, s.inReset = false → i = s.rd (epB e) KEDG_CW_STAT.cw_next → (s.epS e).cw.find i = some c → (s.epS e).cwPhase = 2 →
    c.tClose ≤ s.herdTime →
    ∃ t, exec (.circuitClose e) s = .next t ∧ (t.epS e).cwPhase = 0 ∧ (t.epS e).cw = (s.epS e).cw.del i ∧ (t.epS e).cwBad = false
      ∧ (t.epS e).replay = [] ∧ (t.epS e).owed = (List.range 12).map (fun v =>
          (v, 32 - ((s.epS e).inq.filter (fun x => x.1 == v)).foldl (fun n x => n + x.2.1) 0)) ∧ t.mem = s.mem ∧ t.net = s.net)
  ∧ (∀ s e, s.inReset = false → (∀ c, (s.epS e).cw.find (s.rd (epB e) KEDG_CW_STAT.cw_next) = some c →
      ((s.epS e).cwPhase = 1 → s.herdTime < c.tOpen) ∧ ((s.epS e).cwPhase = 2 → s.herdTime < c.tClose)) →
    exec (.circuitOpen e) s = .next s ∧ exec (.circuitClose e) s = .next s)
  ∧ (∀ s e p w, s.inReset = false → s.w0.takeAny (uEp e) (fun p => (p.op == 0x20 || p.op == 0x22) && p.addr == 0) = some (p, w) → p.op = 0x20 →
    p.aux ≤ 15 → 1 ≤ hdLines p.data → hdLines p.data ≤ 64 → p.len = 16 + hdBlen p.data → 33 ≤ hdBlen p.data → hdBlen p.data ≤ 4080 →
    w.rd (epB e) KEDG_SPN_CFG.spn_en p.aux ≠ 1 ∨ w.spnSlotOf e p.aux (hdPkg p.data) (hdSrc p.data) (hdChan p.data) = none →
    exec (.spineSlotMessage e) s = .next (s.after fun _ => w.cmp (uEp e) p DENIED (msgLines (p.len - 16))))
  ∧ (∀ s e p w, s.inReset = false → s.w0.takeAny (uEp e) (fun p => (p.op == 0x20 || p.op == 0x22) && p.addr == 0) = some (p, w) → p.op = 0x20 →
    15 < p.aux ∨ 64 < hdLines p.data ∨ p.len ≠ 16 + hdBlen p.data ∨ hdLines p.data = 0 ∨ hdBlen p.data < 33 ∨ 4080 < hdBlen p.data →
    exec (.spineSlotMessage e) s = .next (s.after fun _ => w.cmp (uEp e) p BADOP (msgLines (p.len - 16))))
  ∧ (∀ s e p w i m v, s.inReset = false → s.w0.takeAny (uEp e) (fun p => (p.op == 0x20 || p.op == 0x22) && p.addr == 0) = some (p, w) →
    p.op = 0x20 → p.aux ≤ 15 → m = hdLines p.data → 1 ≤ m → m ≤ 64 → p.len = 16 + hdBlen p.data → 33 ≤ hdBlen p.data → hdBlen p.data ≤ 4080 →
    w.rd (epB e) KEDG_SPN_CFG.spn_en p.aux = 1 →
    w.spnSlotOf e p.aux (hdPkg p.data) (hdSrc p.data) (hdChan p.data) = some i →
    v = w.egress e 11 { vc := 11, bytes := EHdr.bytes { dpkg := 0, dep := 0, spkg := w.pkgNum, sep := e } ++ p.data.drop 16,
                        peer := p.aux * 16 + i, psn := m, ctx := p.ctx } →
    exec (.spineSlotMessage e) s = .next (s.after fun _ => if p.ack then v.cmp (uEp e) p OK else v))
  ∧ (∀ s e p w i k, s.inReset = false → s.w0.takeAny (uEp e) (fun p => (p.op == 0x20 || p.op == 0x22) && p.addr == 0) = some (p, w) →
    p.op = 0x22 → k = p.aux % 256 → k < 16 → w.rd (epB e) KEDG_SPN_CFG.spn_en k = 1 →
    w.spnSlotOf e k (hdPkg p.data) (hdSrc p.data) (hdChan p.data) = some i →
    exec (.spineSlotMessage e) s = .next (s.after fun _ =>
      let v := (w.wr (epB e) KEDG_SPN_SLOT2.s_pend 0 (k * 16 + i)).setSpn e k { w.spnS e k with pendT := (w.spnS e k).pendT.del (k * 16 + i) }
      v.spnCredit e p.ctx (v.rd (epB e) KEDG_SPN_SLOT2.s_share (k * 16 + i) - (v.epS e).spnPlaced (k * 16 + i)) true
        (hdPkg p.data) (hdSrc p.data) (hdChan p.data)))
  ∧ (∀ (s : State) e j m, e < 64 → j < 256 → s.rd (epB e) KEDG_SPN_SLOT2.s_pend j + m < 8 →
    (s.after fun w => w.spnPop e (j, m)).rd (epB e) KEDG_SPN_SLOT2.s_pend j = s.rd (epB e) KEDG_SPN_SLOT2.s_pend j + m)
  ∧ (∀ s e x, s.inReset = false → s.w0.takeAny (uEp e) (fun p => p.op == 0x21 && p.ext == []) = none →
    (s.epS e).inq.find? (fun x => x.1 == 11) = some x →
    exec (.redxResult e) s = .next (s.after fun w => (w.spnResultIn e x).each (List.range 16) (fun w k => w.spnTrySend e k)))
  ∧ (∀ s e p w k, s.inReset = false → s.w0.takeAny (uEp e) (fun p => p.op == 0x21 && p.ext == []) = some (p, w) →
    (w.epS e).inq.find? (fun x => x.1 == 11) = none → k = p.tag % 256 → k < 16 →
    exec (.redxResult e) s = .next (s.after fun _ => (w.setSpn e k (spnCreditIn (w.spnS e k)
      (if w.rd (epB e) KEDG_SPN_CFG.res_herd k = 1 then w.rd (epB e) KEDG_SPN_CFG.members k else 1) p.src p.aux (bit p.tag 8))).each
        (List.range 16) (fun w k => w.spnTrySend e k)))
  ∧ (∀ (s : State) e x k, k = bits (le (x.2.2.drop 24) 11 1) 0 4 →
    (s.rd (epB e) KEDG_SPN_CFG.spn_en k ≠ 0 → spnHeldLines (s.spnS e k) + msgLines (x.2.2.drop 24).length ≤ 64 →
      ((s.after fun w => w.spnResultIn e x).spnS e k).results = (s.spnS e k).results ++ [x.2.2.drop 24])
    ∧ (s.rd (epB e) KEDG_SPN_CFG.spn_en k = 0 ∨ 64 < spnHeldLines (s.spnS e k) + msgLines (x.2.2.drop 24).length →
      s.after (fun w => w.spnResultIn e x) = s.after fun w => (w.takeEdge e x).inc (epB e) KEDG_SPN_EVT.redx_drop 1 k)
    ∧ ((s.after fun w => w.spnResultIn e x).epS e).inq = (s.epS e).inq.erase x)

/-- An end-of-interrupt write that matches the top entry pops it and completes its source; any other changes nothing and
is counted (R368). -/
def Obligations.EndOfInterrupt : Prop :=
  (∀ s target orig reg num e rest, s.inReset = false → targetOk target = true → s.stkOf target = e :: rest → e.orig = orig → e.num = num →
    (orig = 2 → (target = 5000 ∨ target = 5001) → e.reg = reg) →
    ∃ t, exec (.endOfInterrupt target orig reg num) s = .next t ∧ t.stkOf target = rest ∧ (t.irq1 e.src).active = false
      ∧ (∀ k, k ≠ e.src → t.irq1 k = s.irq1 k) ∧ t.regs = s.regs)
  ∧ (∀ s target orig reg num, s.inReset = false → targetOk target = true →
    (∀ e rest, s.stkOf target = e :: rest →
      e.orig ≠ orig ∨ e.num ≠ num ∨ (orig = 2 ∧ (target = 5000 ∨ target = 5001) ∧ e.reg ≠ reg)) →
    ∃ t, exec (.endOfInterrupt target orig reg num) s = .next t ∧ t.irq = s.irq ∧ t = { s with regs := t.regs, evNow := t.evNow }
      ∧ (target = 5000 → t.rd intPB KINT_PEVT.eoi_bad_fmp
          = satAdd KINT_PEVT.eoi_bad_fmp.width (s.rd intPB KINT_PEVT.eoi_bad_fmp) 1 % 2 ^ KINT_PEVT.eoi_bad_fmp.width)
      ∧ (target = 5001 → t.rd intPB KINT_PEVT.eoi_bad_host
          = satAdd KINT_PEVT.eoi_bad_host.width (s.rd intPB KINT_PEVT.eoi_bad_host) 1 % 2 ^ KINT_PEVT.eoi_bad_host.width)
      ∧ (target ≠ 5000 → target ≠ 5001 → t.rd (stnB target) KSTN_IRQ_EVT.eoi_bad
          = satAdd KSTN_IRQ_EVT.eoi_bad.width (s.rd (stnB target) KSTN_IRQ_EVT.eoi_bad) 1 % 2 ^ KSTN_IRQ_EVT.eoi_bad.width))

/-- Status codes and their precedence (R19): each code has its number and precedence, and where several conditions hold the code with the
smallest precedence number is carried; with none, OK. -/
def Obligations.StatusPrecedence : Prop :=
  ([BADOP, DENIED, NOPLATE, NOROUTE, FENCED, DEAD_TARGET, NOCREDIT, BUSY, ALREADY, ABORTED, NOHERD, TIMEOUT, STALE_GEN, MISMATCH,
      UNCORRECTABLE, POISON, SHORT, DROPPED, OK]
    = [0x0A, 0x0E, 0x0D, 0x11, 0x04, 0x05, 0x01, 0x02, 0x12, 0x0B, 0x09, 0x03, 0x07, 0x08, 0x0F, 0x06, 0x10, 0x0C, 0x00])
  ∧ ([BADOP, DENIED, NOPLATE, NOROUTE, FENCED, DEAD_TARGET, NOCREDIT, BUSY, ALREADY, ABORTED, NOHERD, TIMEOUT, STALE_GEN, MISMATCH,
      UNCORRECTABLE, POISON, SHORT, DROPPED, OK].map statusPrec = (List.range 19).map (fun i => i + 1))
  ∧ (∀ l : List (Bool × Nat), (∀ c ∈ l, c.1 = false) → firstOf l = OK)
  ∧ (∀ (l : List (Bool × Nat)) (c : Bool × Nat), (∀ d ∈ l, d.2 ≤ 0x12) → c ∈ l → c.1 = true →
      (∃ d ∈ l, d.1 = true ∧ firstOf l = d.2) ∧ statusPrec (firstOf l) ≤ statusPrec c.2)

/-- The IDCODE register (R477). -/
def Obligations.IdcodeReads : Prop :=
  ∀ s : State, s.fuse.idcodeMfr < 2 ^ 11 → bits s.idcode 28 4 = 0x3 ∧ bits s.idcode 12 16 = 0x4B57 ∧ bits s.idcode 1 11 = s.fuse.idcodeMfr
    ∧ bits s.idcode 0 1 = 1 ∧ s.idcode < 2 ^ 32

/-- Arbiters are seeded (R156): after PORST_N each holds the seed that the fused number and its own numbers give; a register that is not 0
never becomes 0, and its sequence repeats every 255 steps and no sooner. -/
def Obligations.ArbitersSeeded : Prop :=
  (∀ s, ∃ t, exec .porstNAssert s = .next t ∧ ∀ u port net, (t.arb u port net).lfsr = t.arbSeed u port net ∧ t.fuse.arbSeed = s.fuse.arbSeed)
  ∧ (∀ (s : State) u port net, 1 ≤ s.arbSeed u port net ∧ s.arbSeed u port net ≤ 255)
  ∧ (∀ x, x < 256 → lfsrStep x = ((x <<< 1) ||| ((x >>> 7) ^^^ (x >>> 3) ^^^ (x >>> 2) ^^^ (x >>> 1)) % 2) &&& 0xFF)
  ∧ (∀ x n, 1 ≤ x → x ≤ 255 → 1 ≤ Nat.repeat lfsrStep n x ∧ Nat.repeat lfsrStep n x ≤ 255)
  ∧ (∀ x, 1 ≤ x → x ≤ 255 → Nat.repeat lfsrStep 255 x = x ∧ ∀ n, 1 ≤ n → n < 255 → Nat.repeat lfsrStep n x ≠ x)

/-- A packet's bytes carry it (R131): what its header, extension and payload hold is read back, every field at every value it may have. -/
def Obligations.PacketBytes : Prop :=
  ∀ p : Packet, p.Wire → pktOf (pktBytes p) = p.carried ∧ (pktBytes p).length = p.size
    ∧ (pktBytes p).drop (if p.ext = [] then 32 else 64) = p.data

/-- Edge headers and scheduled cells are read back from their bytes (R103, R321, R332, R346). -/
def Obligations.EdgeBytes : Prop :=
  (∀ h : EHdr, h.dpkg < 2 ^ 17 → h.dep < 64 → h.path < 64 → h.spkg < 2 ^ 17 → h.sep < 64 → h.inc < 16 → h.psn < 2 ^ 24 → h.edst < 4096 →
    h.cpred < 2 ^ 24 → ∀ rest, ehdrOf (h.bytes ++ rest) = h ∧ (h.bytes ++ rest).drop 24 = rest)
  ∧ (∀ c : Cell, c.stag < 2 ^ 16 → c.count < 256 → c.sigval < 2 ^ 64 → (c.sig = false → c.sigval = 0) → c.data.length = 64 → c.piece = none →
    cellOf c.bytes = c ∧ c.bytes.length = 76)

/-- A frame as it is sent is good where it arrives, and its fields are read back (R321, R323). -/
def Obligations.FramesCheck : Prop :=
  ∀ ftype vc lseq lack lcred sof eof nak lackV body, ftype < 16 → vc < 16 → lseq < 4096 → lack < 4096 → lcred < 2 ^ 16 → body.length ≤ 240 →
    ∀ f, f = frameBytes ftype vc lseq lack sof eof nak lackV lcred body → f.length = 256 ∧ frameOk f = true
      ∧ bits (le f 0 1) 0 4 = ftype ∧ bit (le f 0 1) 4 = sof ∧ bit (le f 0 1) 5 = eof ∧ bits (le f 1 1) 0 4 = vc ∧ le f 2 1 = body.length
      ∧ bits (le f 4 2) 0 12 = lseq ∧ bits (le f 6 2) 0 12 = lack ∧ bit (le f 6 2) 12 = nak ∧ bit (le f 6 2) 13 = lackV
      ∧ le f 8 2 = lcred ∧ (f.drop 16).take body.length = body

/-- Stores to the memory window (R282, R284, R294): a WRITE, a CWRITE or an ATOMIC that a memory port takes, with no near copy of its lines,
leaves its bytes in memory and every other byte of every memory as it was. -/
def Obligations.MemoryStores : Prop :=
  (∀ s m p, s.inReset = false → m < 64 → s.memCheck m p = OK →
    s.inFault = false → p.data.length = p.len → (∀ l ∈ linesOf (loff p.addr) p.len, s.dirFind (m / 2) l = none) →
    (p.op = 0x01 → s.nextReq m 0x01 = some p → ∃ t, exec (.write (uMsp m)) s = .next t ∧ getBytes t.mem.cells (loff p.addr) p.len = p.data
      ∧ (∀ x, (x < loff p.addr ∨ loff p.addr + p.len ≤ x) → Tbl.get 0 t.mem.cells x = Tbl.get 0 s.mem.cells x) ∧ t.mem.sram = s.mem.sram)
    ∧ (p.op = 0x0C → s.nextReq m 0x0C = some p → ∃ t, exec (.cwrite (uMsp m)) s = .next t ∧ getBytes t.mem.cells (loff p.addr) p.len = p.data
      ∧ (∀ x, (x < loff p.addr ∨ loff p.addr + p.len ≤ x) → Tbl.get 0 t.mem.cells x = Tbl.get 0 s.mem.cells x) ∧ t.mem.sram = s.mem.sram))
  ∧ (∀ s m p, s.inReset = false → m < 64 → s.nextReq m 0x0A = some p → p.op = 0x0A → s.memCheck m p = OK →
    s.inFault = false → s.dirFind (m / 2) (loff p.addr / 64) = none →
    ∃ t, exec (.atomic (uMsp m)) s = .next t
      ∧ getBytes t.mem.cells (loff p.addr) 8
          = toLE 8 (atomicNew (bits p.aux 0 4) (le (getBytes s.mem.cells (loff p.addr) 8) 0 8) p.data)
      ∧ (∀ x, (x < loff p.addr ∨ loff p.addr + 8 ≤ x) → Tbl.get 0 t.mem.cells x = Tbl.get 0 s.mem.cells x) ∧ t.mem.sram = s.mem.sram)

/-- The memories are in canonical form after reset. -/
def Obligations.ResetIsSafe : Prop := Safe State.reset ∧ State.reset.pending = [] ∧ State.reset.herdTime = 0 ∧ State.reset.plateTime = 0

/-- Every step from a state whose memories are in canonical form leaves them so, whatever command it runs. -/
def Obligations.StepKeepsSafe : Prop := ∀ s t, Safe s → step s = .next t → Safe t

/-- A block that is held in reset takes no command (R440, R441): only the pins, the clock and the test reset act on it. -/
def Obligations.ResetHolds : Prop := ∀ (c : Instr) (s : State), ¬ c.isPin → s.inReset = true → exec c s = .next s

/-- A fabric cycle (R58, R440): without power or a clock nothing counts; with the host's reset low only fc and herd time do; the cycle's end
counts both by one and gives up the register values that were kept for its decisions. -/
def Obligations.CycleCounts : Prop :=
  (∀ s, s.pending = [] → (s.boot.porstN = false ∨ s.boot.pwrgd = false ∨ s.boot.clk = false) → step s = .next s)
  ∧ (∀ s, s.pending = [] → s.boot.porstN = true → s.boot.pwrgd = true → s.boot.clk = true → s.boot.hrstN = false →
    step s = .next { s with fc := s.fc + 1, herdTime := (s.herdTime + 1) % 2 ^ 64 })
  ∧ (∀ s : State, s.flt.entryFc = none → (s.after fun w => w.advance).fc = s.fc + 1
    ∧ (s.after fun w => w.advance).herdTime = (s.herdTime + 1) % 2 ^ 64 ∧ (s.after fun w => w.advance).shadow = []
    ∧ (s.after fun w => w.advance).mem = s.mem ∧ (s.after fun w => w.advance).regs = s.regs)

/-- Every command completes: none ends in a fault or a refusal, in any state, and none changes the queue of waiting commands (the model's
reading that no rule of the spec stops the block, and the model's own queue: NOTES.md, Stops; assumption log row 1). -/
def Obligations.EveryCommandCompletes : Prop := ∀ (c : Instr) (s : State), ∃ t, exec c s = .next t ∧ t.pending = s.pending
end

