-- ==== Sys2Proof/Laws/Tbl.lean ====
section
/-! SUPPORT. Laws of sparse tables: reading after writing, and that writing keeps the canonical form. -/

namespace Sys2Proof.Machine

variable {α : Type}

/-- What was stored under a key is found under it. -/
@[simp] theorem Tbl.find_put_self (t : Tbl α) (k : Nat) (v : α) : (t.put k v).find k = some v := by
  induction t with
  | nil => simp [Tbl.put, Tbl.find]
  | cons e t ih =>
    obtain ⟨j, w⟩ := e
    simp only [Tbl.put]
    split
    · simp [Tbl.find]
    · split
      · simp [Tbl.find]
      · simp [Tbl.find, *]

/-- Storing under one key leaves what is found under another. -/
theorem Tbl.find_put_ne (t : Tbl α) {k j : Nat} (v : α) (h : j ≠ k) : (t.put k v).find j = t.find j := by
  induction t with
  | nil => simp [Tbl.put, Tbl.find, Ne.symm h]
  | cons e t ih =>
    obtain ⟨i, w⟩ := e
    simp only [Tbl.put]
    split
    · rename_i hik
      subst hik
      simp [Tbl.find, Ne.symm h]
    · split
      · simp [Tbl.find, Ne.symm h]
      · simp [Tbl.find, ih]

/-- Nothing is found under a key that was removed. -/
@[simp] theorem Tbl.find_del_self (t : Tbl α) (k : Nat) : (t.del k).find k = none := by
  induction t with
  | nil => simp [Tbl.del, Tbl.find]
  | cons e t ih =>
    obtain ⟨i, w⟩ := e
    simp only [Tbl.del]
    split
    · exact ih
    · simp [Tbl.find, *]

/-- Removing one key leaves what is found under another. -/
theorem Tbl.find_del_ne (t : Tbl α) {k j : Nat} (h : j ≠ k) : (t.del k).find j = t.find j := by
  induction t with
  | nil => simp [Tbl.del, Tbl.find]
  | cons e t ih =>
    obtain ⟨i, w⟩ := e
    simp only [Tbl.del]
    split
    · rename_i hik
      subst hik
      simp [Tbl.find, Ne.symm h, ih]
    · simp [Tbl.find, ih]

/-- A table read at the key just written gives the value written. -/
@[simp] theorem Tbl.get_set_self [DecidableEq α] (d : α) (t : Tbl α) (k : Nat) (v : α) : (Tbl.set d t k v).get d k = v := by
  simp only [Tbl.set]
  split <;> simp [Tbl.get, *]

/-- A write of one key leaves what is read at another. -/
theorem Tbl.get_set_ne [DecidableEq α] (d e : α) (t : Tbl α) {k j : Nat} (v : α) (h : j ≠ k) :
    (Tbl.set d t k v).get e j = t.get e j := by
  simp only [Tbl.set]
  split <;> simp [Tbl.get, Tbl.find_put_ne, Tbl.find_del_ne, h]

/-- Reading a stored key. -/
@[simp] theorem Tbl.get_put_self (d : α) (t : Tbl α) (k : Nat) (v : α) : (t.put k v).get d k = v := by simp [Tbl.get]

/-- Reading another key than the one stored. -/
theorem Tbl.get_put_ne (d : α) (t : Tbl α) {k j : Nat} (v : α) (h : j ≠ k) : (t.put k v).get d j = t.get d j := by
  simp [Tbl.get, Tbl.find_put_ne, h]

/-! ### The canonical form -/

theorem Tbl.all_put {p : Nat × α → Bool} {t : Tbl α} {k : Nat} {v : α} (h : t.all p) (hv : p (k, v)) : (t.put k v).all p := by
  induction t with
  | nil => simpa [Tbl.put] using hv
  | cons e t ih =>
    obtain ⟨i, w⟩ := e
    simp only [List.all_cons, Bool.and_eq_true] at h
    simp only [Tbl.put]
    split
    · simp [h.2, hv]
    · split
      · simp [h.1, h.2, hv]
      · simp [h.1, ih h.2]

theorem Tbl.all_del {p : Nat × α → Bool} {t : Tbl α} {k : Nat} (h : t.all p) : (t.del k).all p := by
  induction t with
  | nil => simp [Tbl.del]
  | cons e t ih =>
    obtain ⟨i, w⟩ := e
    simp only [List.all_cons, Bool.and_eq_true] at h
    simp only [Tbl.del]
    split
    · exact ih h.2
    · simp [h.1, ih h.2]

/-- Storing keeps the keys strictly rising. -/
theorem Tbl.wf_put {t : Tbl α} (k : Nat) (v : α) (h : t.wf) : (t.put k v).wf := by
  induction t with
  | nil => simp [Tbl.put, Tbl.wf]
  | cons e t ih =>
    obtain ⟨i, w⟩ := e
    simp only [Tbl.wf, Bool.and_eq_true] at h
    simp only [Tbl.put]
    split
    · rename_i hik
      subst hik
      simp only [Tbl.wf, Bool.and_eq_true]
      exact h
    · split
      · rename_i hki
        simp only [Tbl.wf, Bool.and_eq_true, List.all_cons, decide_eq_true_eq]
        refine ⟨⟨hki, ?_⟩, h.1, h.2⟩
        have := h.1
        simp only [List.all_eq_true, decide_eq_true_eq] at this ⊢
        exact fun x hx => Nat.lt_trans hki (this x hx)
      · rename_i hne hlt
        simp only [Tbl.wf, Bool.and_eq_true]
        refine ⟨Tbl.all_put h.1 ?_, ih h.2⟩
        simp only [decide_eq_true_eq]
        omega

/-- Removing keeps the keys strictly rising. -/
theorem Tbl.wf_del {t : Tbl α} (k : Nat) (h : t.wf) : (t.del k).wf := by
  induction t with
  | nil => simp [Tbl.del, Tbl.wf]
  | cons e t ih =>
    obtain ⟨i, w⟩ := e
    simp only [Tbl.wf, Bool.and_eq_true] at h
    simp only [Tbl.del]
    split
    · exact ih h.2
    · simp only [Tbl.wf, Bool.and_eq_true]
      exact ⟨Tbl.all_del h.1, ih h.2⟩

/-- A write keeps the canonical form: keys rising, no entry equal to what an unlisted key reads as. -/
theorem Tbl.wfd_set [DecidableEq α] (d : α) {t : Tbl α} (k : Nat) (v : α) (h : Tbl.wfd d t) : Tbl.wfd d (Tbl.set d t k v) := by
  simp only [Tbl.wfd, Bool.and_eq_true] at h ⊢
  simp only [Tbl.set]
  split
  · exact ⟨Tbl.wf_del k h.1, Tbl.all_del h.2⟩
  · rename_i hv
    exact ⟨Tbl.wf_put k v h.1, Tbl.all_put h.2 (by simpa using hv)⟩

end Sys2Proof.Machine
end

