-- ==== Sys2Proof/Laws/Mem.lean ====
section
/-! SUPPORT. Laws of the memories: every store keeps the canonical form, a byte stored is read back, other bytes stay. -/

namespace Sys2Proof.Machine

/-- Writing bytes keeps the canonical form. -/
theorem putBytes_wfd {m : List Host.Cell} (a : Nat) (d : List Byte) (h : Tbl.wfd (0 : Byte) m) : Tbl.wfd (0 : Byte) (putBytes m a d) := by
  induction d generalizing m a with
  | nil => exact h
  | cons b bs ih => exact ih (a + 1) (Tbl.wfd_set 0 a b h)

/-- Bytes outside those written stay. -/
theorem putBytes_out {m : List Host.Cell} (a : Nat) (d : List Byte) (x : Nat) (h : x < a ∨ a + d.length ≤ x) :
    Tbl.get (0 : Byte) (putBytes m a d) x = Tbl.get (0 : Byte) m x := by
  induction d generalizing m a with
  | nil => rfl
  | cons b bs ih =>
    simp only [List.length_cons] at h
    rw [putBytes, ih (a + 1) (by omega), Tbl.get_set_ne _ _ _ _ (by omega)]

/-- A byte written is read back. -/
theorem putBytes_in {m : List Host.Cell} (a : Nat) (d : List Byte) (i : Nat) (h : i < d.length) :
    Tbl.get (0 : Byte) (putBytes m a d) (a + i) = d[i] := by
  induction d generalizing m a i with
  | nil => simp at h
  | cons b bs ih =>
    cases i with
    | zero => rw [Nat.add_zero, putBytes, putBytes_out (a + 1) bs a (by omega)]; simp
    | succ i =>
      have := ih (m := Tbl.set (0 : Byte) m a b) (a + 1) i (by simpa using h)
      simpa [putBytes, Nat.add_assoc, Nat.add_comm 1 i] using this

@[simp] theorem getBytes_length (m : List Host.Cell) (a n : Nat) : (getBytes m a n).length = n := by
  induction n generalizing a with
  | zero => rfl
  | succ n ih => simp [getBytes, ih]

/-- The bytes just written are read back. -/
theorem getBytes_putBytes (m : List Host.Cell) (a : Nat) (d : List Byte) : getBytes (putBytes m a d) a d.length = d := by
  induction d generalizing m a with
  | nil => rfl
  | cons b bs ih =>
    simp only [List.length_cons, getBytes, putBytes]
    rw [putBytes_out (a + 1) bs a (by omega), ih]
    simp

/-- One store keeps the canonical form of the memories. -/
theorem Memory.store_wf {m : Memory} (st : Store) (h : m.wf) : (m.store st).wf := by
  simp only [Memory.wf, Bool.and_eq_true] at h
  obtain ⟨⟨⟨h1, h2⟩, h3⟩, h4⟩ := h
  cases st with
  | bytes s a d => cases s <;> simp only [Memory.store, Memory.wf, putBytes_wfd _ _ h1, putBytes_wfd _ _ h3, h1, h2, h3, h4, Bool.and_self]
  | poison s l p => cases s <;> simp only [Memory.store, Memory.wf, Tbl.wfd_set false _ _ h2, Tbl.wfd_set false _ _ h4, h1, h2, h3, h4, Bool.and_self]

/-- A command's stores keep the canonical form of the memories. -/
theorem Memory.apply_wf {m : Memory} (l : List Store) (h : m.wf) : (m.apply l).wf := by
  induction l generalizing m with
  | nil => exact h
  | cons st l ih => exact ih (m.store_wf st h)

@[simp] theorem Memory.apply_nil (m : Memory) : m.apply [] = m := rfl
@[simp] theorem Memory.apply_append (m : Memory) (a b : List Store) : m.apply (a ++ b) = (m.apply a).apply b := by
  simp [Memory.apply]

end Sys2Proof.Machine
end

