-- ==== Sys2Proof/Laws/State.lean ====
section
/-! SUPPORT. What each basic update leaves as it was: one lemma for each field and update; register fields read back. -/

namespace Sys2Proof.Machine

/-! ### The state after an effect -/

theorem run_up {s : State} (f : W → W) (h : s.inReset = false) : run f s = .next (s.after f) := by simp [run, runPin, h]
theorem run_down {s : State} (f : W → W) (h : s.inReset = true) : run f s = .next s := by simp [run, h]
/-- Two effects that agree on a state leave the same state. -/
theorem State.after_congr {s : State} {f g : W → W} (e : f { toState := s, stores := [] } = g { toState := s, stores := [] }) :
    s.after f = s.after g := by unfold State.after; rw [e]
/-- A command whose effect on `s` agrees with `g` answers the state after `g`. -/
theorem run_eq {s : State} {f g : W → W} (h : s.inReset = false) (e : f { toState := s, stores := [] } = g { toState := s, stores := [] }) :
    run f s = .next (s.after g) := (run_up f h).trans (congrArg _ (State.after_congr e))
theorem State.after_rd (s : State) (f : W → W) (b : Nat) (g : Fld) (i : Nat) :
    (s.after f).rd b g i = (f { toState := s, stores := [] }).rd b g i := rfl
@[simp] theorem State.after_pending (s : State) (f : W → W) : (s.after f).pending = s.pending := rfl
theorem State.after_mem (s : State) (f : W → W) : (s.after f).mem = s.mem.apply (f { toState := s, stores := [] }).stores := rfl
@[simp] theorem State.after_fc (s : State) (f : W → W) : (s.after f).fc = (f { toState := s, stores := [] }).fc := rfl
@[simp] theorem State.after_herdTime (s : State) (f : W → W) : (s.after f).herdTime = (f { toState := s, stores := [] }).herdTime := rfl
@[simp] theorem State.after_plateTime (s : State) (f : W → W) : (s.after f).plateTime = (f { toState := s, stores := [] }).plateTime := rfl
@[simp] theorem State.after_freeCtr (s : State) (f : W → W) : (s.after f).freeCtr = (f { toState := s, stores := [] }).freeCtr := rfl
@[simp] theorem State.after_regs (s : State) (f : W → W) : (s.after f).regs = (f { toState := s, stores := [] }).regs := rfl
@[simp] theorem State.after_shadow (s : State) (f : W → W) : (s.after f).shadow = (f { toState := s, stores := [] }).shadow := rfl
@[simp] theorem State.after_evNow (s : State) (f : W → W) : (s.after f).evNow = (f { toState := s, stores := [] }).evNow := rfl
@[simp] theorem State.after_fuse (s : State) (f : W → W) : (s.after f).fuse = (f { toState := s, stores := [] }).fuse := rfl
@[simp] theorem State.after_net (s : State) (f : W → W) : (s.after f).net = (f { toState := s, stores := [] }).net := rfl
@[simp] theorem State.after_sta (s : State) (f : W → W) : (s.after f).sta = (f { toState := s, stores := [] }).sta := rfl
@[simp] theorem State.after_msp (s : State) (f : W → W) : (s.after f).msp = (f { toState := s, stores := [] }).msp := rfl
@[simp] theorem State.after_irq (s : State) (f : W → W) : (s.after f).irq = (f { toState := s, stores := [] }).irq := rfl
@[simp] theorem State.after_flt (s : State) (f : W → W) : (s.after f).flt = (f { toState := s, stores := [] }).flt := rfl
@[simp] theorem State.after_plt (s : State) (f : W → W) : (s.after f).plt = (f { toState := s, stores := [] }).plt := rfl
@[simp] theorem State.after_sch (s : State) (f : W → W) : (s.after f).sch = (f { toState := s, stores := [] }).sch := rfl
@[simp] theorem State.after_col (s : State) (f : W → W) : (s.after f).col = (f { toState := s, stores := [] }).col := rfl
@[simp] theorem State.after_obs (s : State) (f : W → W) : (s.after f).obs = (f { toState := s, stores := [] }).obs := rfl
@[simp] theorem State.after_ep (s : State) (f : W → W) : (s.after f).ep = (f { toState := s, stores := [] }).ep := rfl
@[simp] theorem State.after_cx (s : State) (f : W → W) : (s.after f).cx = (f { toState := s, stores := [] }).cx := rfl
@[simp] theorem State.after_boot (s : State) (f : W → W) : (s.after f).boot = (f { toState := s, stores := [] }).boot := rfl
@[simp] theorem State.after_ctxFence (s : State) (f : W → W) : (s.after f).ctxFence = (f { toState := s, stores := [] }).ctxFence := rfl
@[simp] theorem State.after_fenceOver (s : State) (f : W → W) : (s.after f).fenceOver = (f { toState := s, stores := [] }).fenceOver := rfl

/-! ### Writing a register field -/

@[simp] theorem W.wr_pending (w : W) (b : Nat) (f : Fld) (v i : Nat) : (w.wr b f v i).pending = w.pending := rfl
@[simp] theorem W.wr_fc (w : W) (b : Nat) (f : Fld) (v i : Nat) : (w.wr b f v i).fc = w.fc := rfl
@[simp] theorem W.wr_herdTime (w : W) (b : Nat) (f : Fld) (v i : Nat) : (w.wr b f v i).herdTime = w.herdTime := rfl
@[simp] theorem W.wr_plateTime (w : W) (b : Nat) (f : Fld) (v i : Nat) : (w.wr b f v i).plateTime = w.plateTime := rfl
@[simp] theorem W.wr_freeCtr (w : W) (b : Nat) (f : Fld) (v i : Nat) : (w.wr b f v i).freeCtr = w.freeCtr := rfl
@[simp] theorem W.wr_shadow (w : W) (b : Nat) (f : Fld) (v i : Nat) : (w.wr b f v i).shadow = w.shadow := rfl
@[simp] theorem W.wr_evNow (w : W) (b : Nat) (f : Fld) (v i : Nat) : (w.wr b f v i).evNow = w.evNow := rfl
@[simp] theorem W.wr_mem (w : W) (b : Nat) (f : Fld) (v i : Nat) : (w.wr b f v i).mem = w.mem := rfl
@[simp] theorem W.wr_fuse (w : W) (b : Nat) (f : Fld) (v i : Nat) : (w.wr b f v i).fuse = w.fuse := rfl
@[simp] theorem W.wr_net (w : W) (b : Nat) (f : Fld) (v i : Nat) : (w.wr b f v i).net = w.net := rfl
@[simp] theorem W.wr_sta (w : W) (b : Nat) (f : Fld) (v i : Nat) : (w.wr b f v i).sta = w.sta := rfl
@[simp] theorem W.wr_msp (w : W) (b : Nat) (f : Fld) (v i : Nat) : (w.wr b f v i).msp = w.msp := rfl
@[simp] theorem W.wr_irq (w : W) (b : Nat) (f : Fld) (v i : Nat) : (w.wr b f v i).irq = w.irq := rfl
@[simp] theorem W.wr_flt (w : W) (b : Nat) (f : Fld) (v i : Nat) : (w.wr b f v i).flt = w.flt := rfl
@[simp] theorem W.wr_plt (w : W) (b : Nat) (f : Fld) (v i : Nat) : (w.wr b f v i).plt = w.plt := rfl
@[simp] theorem W.wr_sch (w : W) (b : Nat) (f : Fld) (v i : Nat) : (w.wr b f v i).sch = w.sch := rfl
@[simp] theorem W.wr_col (w : W) (b : Nat) (f : Fld) (v i : Nat) : (w.wr b f v i).col = w.col := rfl
@[simp] theorem W.wr_obs (w : W) (b : Nat) (f : Fld) (v i : Nat) : (w.wr b f v i).obs = w.obs := rfl
@[simp] theorem W.wr_ep (w : W) (b : Nat) (f : Fld) (v i : Nat) : (w.wr b f v i).ep = w.ep := rfl
@[simp] theorem W.wr_cx (w : W) (b : Nat) (f : Fld) (v i : Nat) : (w.wr b f v i).cx = w.cx := rfl
@[simp] theorem W.wr_boot (w : W) (b : Nat) (f : Fld) (v i : Nat) : (w.wr b f v i).boot = w.boot := rfl
@[simp] theorem W.wr_ctxFence (w : W) (b : Nat) (f : Fld) (v i : Nat) : (w.wr b f v i).ctxFence = w.ctxFence := rfl
@[simp] theorem W.wr_fenceOver (w : W) (b : Nat) (f : Fld) (v i : Nat) : (w.wr b f v i).fenceOver = w.fenceOver := rfl
@[simp] theorem W.wr_stores (w : W) (b : Nat) (f : Fld) (v i : Nat) : (w.wr b f v i).stores = w.stores := rfl

/-! ### Adding to a counter field -/

@[simp] theorem W.inc_pending (w : W) (b : Nat) (f : Fld) (v i : Nat) : (w.inc b f v i).pending = w.pending := rfl
@[simp] theorem W.inc_fc (w : W) (b : Nat) (f : Fld) (v i : Nat) : (w.inc b f v i).fc = w.fc := rfl
@[simp] theorem W.inc_herdTime (w : W) (b : Nat) (f : Fld) (v i : Nat) : (w.inc b f v i).herdTime = w.herdTime := rfl
@[simp] theorem W.inc_plateTime (w : W) (b : Nat) (f : Fld) (v i : Nat) : (w.inc b f v i).plateTime = w.plateTime := rfl
@[simp] theorem W.inc_freeCtr (w : W) (b : Nat) (f : Fld) (v i : Nat) : (w.inc b f v i).freeCtr = w.freeCtr := rfl
@[simp] theorem W.inc_shadow (w : W) (b : Nat) (f : Fld) (v i : Nat) : (w.inc b f v i).shadow = w.shadow := rfl
@[simp] theorem W.inc_mem (w : W) (b : Nat) (f : Fld) (v i : Nat) : (w.inc b f v i).mem = w.mem := rfl
@[simp] theorem W.inc_fuse (w : W) (b : Nat) (f : Fld) (v i : Nat) : (w.inc b f v i).fuse = w.fuse := rfl
@[simp] theorem W.inc_net (w : W) (b : Nat) (f : Fld) (v i : Nat) : (w.inc b f v i).net = w.net := rfl
@[simp] theorem W.inc_sta (w : W) (b : Nat) (f : Fld) (v i : Nat) : (w.inc b f v i).sta = w.sta := rfl
@[simp] theorem W.inc_msp (w : W) (b : Nat) (f : Fld) (v i : Nat) : (w.inc b f v i).msp = w.msp := rfl
@[simp] theorem W.inc_irq (w : W) (b : Nat) (f : Fld) (v i : Nat) : (w.inc b f v i).irq = w.irq := rfl
@[simp] theorem W.inc_flt (w : W) (b : Nat) (f : Fld) (v i : Nat) : (w.inc b f v i).flt = w.flt := rfl
@[simp] theorem W.inc_plt (w : W) (b : Nat) (f : Fld) (v i : Nat) : (w.inc b f v i).plt = w.plt := rfl
@[simp] theorem W.inc_sch (w : W) (b : Nat) (f : Fld) (v i : Nat) : (w.inc b f v i).sch = w.sch := rfl
@[simp] theorem W.inc_col (w : W) (b : Nat) (f : Fld) (v i : Nat) : (w.inc b f v i).col = w.col := rfl
@[simp] theorem W.inc_obs (w : W) (b : Nat) (f : Fld) (v i : Nat) : (w.inc b f v i).obs = w.obs := rfl
@[simp] theorem W.inc_ep (w : W) (b : Nat) (f : Fld) (v i : Nat) : (w.inc b f v i).ep = w.ep := rfl
@[simp] theorem W.inc_cx (w : W) (b : Nat) (f : Fld) (v i : Nat) : (w.inc b f v i).cx = w.cx := rfl
@[simp] theorem W.inc_boot (w : W) (b : Nat) (f : Fld) (v i : Nat) : (w.inc b f v i).boot = w.boot := rfl
@[simp] theorem W.inc_ctxFence (w : W) (b : Nat) (f : Fld) (v i : Nat) : (w.inc b f v i).ctxFence = w.ctxFence := rfl
@[simp] theorem W.inc_fenceOver (w : W) (b : Nat) (f : Fld) (v i : Nat) : (w.inc b f v i).fenceOver = w.fenceOver := rfl
@[simp] theorem W.inc_stores (w : W) (b : Nat) (f : Fld) (v i : Nat) : (w.inc b f v i).stores = w.stores := rfl

/-! ### Bits that an event sets -/

@[simp] theorem W.flag_pending (w : W) (b : Nat) (f : Fld) (v i : Nat) : (w.flag b f v i).pending = w.pending := rfl
@[simp] theorem W.flag_fc (w : W) (b : Nat) (f : Fld) (v i : Nat) : (w.flag b f v i).fc = w.fc := rfl
@[simp] theorem W.flag_herdTime (w : W) (b : Nat) (f : Fld) (v i : Nat) : (w.flag b f v i).herdTime = w.herdTime := rfl
@[simp] theorem W.flag_plateTime (w : W) (b : Nat) (f : Fld) (v i : Nat) : (w.flag b f v i).plateTime = w.plateTime := rfl
@[simp] theorem W.flag_freeCtr (w : W) (b : Nat) (f : Fld) (v i : Nat) : (w.flag b f v i).freeCtr = w.freeCtr := rfl
@[simp] theorem W.flag_shadow (w : W) (b : Nat) (f : Fld) (v i : Nat) : (w.flag b f v i).shadow = w.shadow := rfl
@[simp] theorem W.flag_mem (w : W) (b : Nat) (f : Fld) (v i : Nat) : (w.flag b f v i).mem = w.mem := rfl
@[simp] theorem W.flag_fuse (w : W) (b : Nat) (f : Fld) (v i : Nat) : (w.flag b f v i).fuse = w.fuse := rfl
@[simp] theorem W.flag_net (w : W) (b : Nat) (f : Fld) (v i : Nat) : (w.flag b f v i).net = w.net := rfl
@[simp] theorem W.flag_sta (w : W) (b : Nat) (f : Fld) (v i : Nat) : (w.flag b f v i).sta = w.sta := rfl
@[simp] theorem W.flag_msp (w : W) (b : Nat) (f : Fld) (v i : Nat) : (w.flag b f v i).msp = w.msp := rfl
@[simp] theorem W.flag_irq (w : W) (b : Nat) (f : Fld) (v i : Nat) : (w.flag b f v i).irq = w.irq := rfl
@[simp] theorem W.flag_flt (w : W) (b : Nat) (f : Fld) (v i : Nat) : (w.flag b f v i).flt = w.flt := rfl
@[simp] theorem W.flag_plt (w : W) (b : Nat) (f : Fld) (v i : Nat) : (w.flag b f v i).plt = w.plt := rfl
@[simp] theorem W.flag_sch (w : W) (b : Nat) (f : Fld) (v i : Nat) : (w.flag b f v i).sch = w.sch := rfl
@[simp] theorem W.flag_col (w : W) (b : Nat) (f : Fld) (v i : Nat) : (w.flag b f v i).col = w.col := rfl
@[simp] theorem W.flag_obs (w : W) (b : Nat) (f : Fld) (v i : Nat) : (w.flag b f v i).obs = w.obs := rfl
@[simp] theorem W.flag_ep (w : W) (b : Nat) (f : Fld) (v i : Nat) : (w.flag b f v i).ep = w.ep := rfl
@[simp] theorem W.flag_cx (w : W) (b : Nat) (f : Fld) (v i : Nat) : (w.flag b f v i).cx = w.cx := rfl
@[simp] theorem W.flag_boot (w : W) (b : Nat) (f : Fld) (v i : Nat) : (w.flag b f v i).boot = w.boot := rfl
@[simp] theorem W.flag_ctxFence (w : W) (b : Nat) (f : Fld) (v i : Nat) : (w.flag b f v i).ctxFence = w.ctxFence := rfl
@[simp] theorem W.flag_fenceOver (w : W) (b : Nat) (f : Fld) (v i : Nat) : (w.flag b f v i).fenceOver = w.fenceOver := rfl
@[simp] theorem W.flag_stores (w : W) (b : Nat) (f : Fld) (v i : Nat) : (w.flag b f v i).stores = w.stores := rfl

/-! ### A count that a read clears -/

@[simp] theorem W.clearRc_pending (w : W) (b : Nat) (f : Fld) (i : Nat) : (w.clearRc b f i).pending = w.pending := rfl
@[simp] theorem W.clearRc_fc (w : W) (b : Nat) (f : Fld) (i : Nat) : (w.clearRc b f i).fc = w.fc := rfl
@[simp] theorem W.clearRc_herdTime (w : W) (b : Nat) (f : Fld) (i : Nat) : (w.clearRc b f i).herdTime = w.herdTime := rfl
@[simp] theorem W.clearRc_plateTime (w : W) (b : Nat) (f : Fld) (i : Nat) : (w.clearRc b f i).plateTime = w.plateTime := rfl
@[simp] theorem W.clearRc_freeCtr (w : W) (b : Nat) (f : Fld) (i : Nat) : (w.clearRc b f i).freeCtr = w.freeCtr := rfl
@[simp] theorem W.clearRc_shadow (w : W) (b : Nat) (f : Fld) (i : Nat) : (w.clearRc b f i).shadow = w.shadow := rfl
@[simp] theorem W.clearRc_mem (w : W) (b : Nat) (f : Fld) (i : Nat) : (w.clearRc b f i).mem = w.mem := rfl
@[simp] theorem W.clearRc_fuse (w : W) (b : Nat) (f : Fld) (i : Nat) : (w.clearRc b f i).fuse = w.fuse := rfl
@[simp] theorem W.clearRc_net (w : W) (b : Nat) (f : Fld) (i : Nat) : (w.clearRc b f i).net = w.net := rfl
@[simp] theorem W.clearRc_sta (w : W) (b : Nat) (f : Fld) (i : Nat) : (w.clearRc b f i).sta = w.sta := rfl
@[simp] theorem W.clearRc_msp (w : W) (b : Nat) (f : Fld) (i : Nat) : (w.clearRc b f i).msp = w.msp := rfl
@[simp] theorem W.clearRc_irq (w : W) (b : Nat) (f : Fld) (i : Nat) : (w.clearRc b f i).irq = w.irq := rfl
@[simp] theorem W.clearRc_flt (w : W) (b : Nat) (f : Fld) (i : Nat) : (w.clearRc b f i).flt = w.flt := rfl
@[simp] theorem W.clearRc_plt (w : W) (b : Nat) (f : Fld) (i : Nat) : (w.clearRc b f i).plt = w.plt := rfl
@[simp] theorem W.clearRc_sch (w : W) (b : Nat) (f : Fld) (i : Nat) : (w.clearRc b f i).sch = w.sch := rfl
@[simp] theorem W.clearRc_col (w : W) (b : Nat) (f : Fld) (i : Nat) : (w.clearRc b f i).col = w.col := rfl
@[simp] theorem W.clearRc_obs (w : W) (b : Nat) (f : Fld) (i : Nat) : (w.clearRc b f i).obs = w.obs := rfl
@[simp] theorem W.clearRc_ep (w : W) (b : Nat) (f : Fld) (i : Nat) : (w.clearRc b f i).ep = w.ep := rfl
@[simp] theorem W.clearRc_cx (w : W) (b : Nat) (f : Fld) (i : Nat) : (w.clearRc b f i).cx = w.cx := rfl
@[simp] theorem W.clearRc_boot (w : W) (b : Nat) (f : Fld) (i : Nat) : (w.clearRc b f i).boot = w.boot := rfl
@[simp] theorem W.clearRc_ctxFence (w : W) (b : Nat) (f : Fld) (i : Nat) : (w.clearRc b f i).ctxFence = w.ctxFence := rfl
@[simp] theorem W.clearRc_fenceOver (w : W) (b : Nat) (f : Fld) (i : Nat) : (w.clearRc b f i).fenceOver = w.fenceOver := rfl
@[simp] theorem W.clearRc_stores (w : W) (b : Nat) (f : Fld) (i : Nat) : (w.clearRc b f i).stores = w.stores := rfl
@[simp] theorem W.clearRc_evNow (w : W) (b : Nat) (f : Fld) (i : Nat) : (w.clearRc b f i).evNow = w.evNow := rfl

/-! ### Bits that a write clears -/

@[simp] theorem W.clearW1c_pending (w : W) (b : Nat) (f : Fld) (m i : Nat) : (w.clearW1c b f m i).pending = w.pending := rfl
@[simp] theorem W.clearW1c_fc (w : W) (b : Nat) (f : Fld) (m i : Nat) : (w.clearW1c b f m i).fc = w.fc := rfl
@[simp] theorem W.clearW1c_herdTime (w : W) (b : Nat) (f : Fld) (m i : Nat) : (w.clearW1c b f m i).herdTime = w.herdTime := rfl
@[simp] theorem W.clearW1c_plateTime (w : W) (b : Nat) (f : Fld) (m i : Nat) : (w.clearW1c b f m i).plateTime = w.plateTime := rfl
@[simp] theorem W.clearW1c_freeCtr (w : W) (b : Nat) (f : Fld) (m i : Nat) : (w.clearW1c b f m i).freeCtr = w.freeCtr := rfl
@[simp] theorem W.clearW1c_shadow (w : W) (b : Nat) (f : Fld) (m i : Nat) : (w.clearW1c b f m i).shadow = w.shadow := rfl
@[simp] theorem W.clearW1c_mem (w : W) (b : Nat) (f : Fld) (m i : Nat) : (w.clearW1c b f m i).mem = w.mem := rfl
@[simp] theorem W.clearW1c_fuse (w : W) (b : Nat) (f : Fld) (m i : Nat) : (w.clearW1c b f m i).fuse = w.fuse := rfl
@[simp] theorem W.clearW1c_net (w : W) (b : Nat) (f : Fld) (m i : Nat) : (w.clearW1c b f m i).net = w.net := rfl
@[simp] theorem W.clearW1c_sta (w : W) (b : Nat) (f : Fld) (m i : Nat) : (w.clearW1c b f m i).sta = w.sta := rfl
@[simp] theorem W.clearW1c_msp (w : W) (b : Nat) (f : Fld) (m i : Nat) : (w.clearW1c b f m i).msp = w.msp := rfl
@[simp] theorem W.clearW1c_irq (w : W) (b : Nat) (f : Fld) (m i : Nat) : (w.clearW1c b f m i).irq = w.irq := rfl
@[simp] theorem W.clearW1c_flt (w : W) (b : Nat) (f : Fld) (m i : Nat) : (w.clearW1c b f m i).flt = w.flt := rfl
@[simp] theorem W.clearW1c_plt (w : W) (b : Nat) (f : Fld) (m i : Nat) : (w.clearW1c b f m i).plt = w.plt := rfl
@[simp] theorem W.clearW1c_sch (w : W) (b : Nat) (f : Fld) (m i : Nat) : (w.clearW1c b f m i).sch = w.sch := rfl
@[simp] theorem W.clearW1c_col (w : W) (b : Nat) (f : Fld) (m i : Nat) : (w.clearW1c b f m i).col = w.col := rfl
@[simp] theorem W.clearW1c_obs (w : W) (b : Nat) (f : Fld) (m i : Nat) : (w.clearW1c b f m i).obs = w.obs := rfl
@[simp] theorem W.clearW1c_ep (w : W) (b : Nat) (f : Fld) (m i : Nat) : (w.clearW1c b f m i).ep = w.ep := rfl
@[simp] theorem W.clearW1c_cx (w : W) (b : Nat) (f : Fld) (m i : Nat) : (w.clearW1c b f m i).cx = w.cx := rfl
@[simp] theorem W.clearW1c_boot (w : W) (b : Nat) (f : Fld) (m i : Nat) : (w.clearW1c b f m i).boot = w.boot := rfl
@[simp] theorem W.clearW1c_ctxFence (w : W) (b : Nat) (f : Fld) (m i : Nat) : (w.clearW1c b f m i).ctxFence = w.ctxFence := rfl
@[simp] theorem W.clearW1c_fenceOver (w : W) (b : Nat) (f : Fld) (m i : Nat) : (w.clearW1c b f m i).fenceOver = w.fenceOver := rfl
@[simp] theorem W.clearW1c_stores (w : W) (b : Nat) (f : Fld) (m i : Nat) : (w.clearW1c b f m i).stores = w.stores := rfl
@[simp] theorem W.clearW1c_evNow (w : W) (b : Nat) (f : Fld) (m i : Nat) : (w.clearW1c b f m i).evNow = w.evNow := rfl

/-! ### Subtracting from a field -/

@[simp] theorem W.dec_pending (w : W) (b : Nat) (f : Fld) (v i : Nat) : (w.dec b f v i).pending = w.pending := rfl
@[simp] theorem W.dec_fc (w : W) (b : Nat) (f : Fld) (v i : Nat) : (w.dec b f v i).fc = w.fc := rfl
@[simp] theorem W.dec_herdTime (w : W) (b : Nat) (f : Fld) (v i : Nat) : (w.dec b f v i).herdTime = w.herdTime := rfl
@[simp] theorem W.dec_plateTime (w : W) (b : Nat) (f : Fld) (v i : Nat) : (w.dec b f v i).plateTime = w.plateTime := rfl
@[simp] theorem W.dec_freeCtr (w : W) (b : Nat) (f : Fld) (v i : Nat) : (w.dec b f v i).freeCtr = w.freeCtr := rfl
@[simp] theorem W.dec_shadow (w : W) (b : Nat) (f : Fld) (v i : Nat) : (w.dec b f v i).shadow = w.shadow := rfl
@[simp] theorem W.dec_evNow (w : W) (b : Nat) (f : Fld) (v i : Nat) : (w.dec b f v i).evNow = w.evNow := rfl
@[simp] theorem W.dec_mem (w : W) (b : Nat) (f : Fld) (v i : Nat) : (w.dec b f v i).mem = w.mem := rfl
@[simp] theorem W.dec_fuse (w : W) (b : Nat) (f : Fld) (v i : Nat) : (w.dec b f v i).fuse = w.fuse := rfl
@[simp] theorem W.dec_net (w : W) (b : Nat) (f : Fld) (v i : Nat) : (w.dec b f v i).net = w.net := rfl
@[simp] theorem W.dec_sta (w : W) (b : Nat) (f : Fld) (v i : Nat) : (w.dec b f v i).sta = w.sta := rfl
@[simp] theorem W.dec_msp (w : W) (b : Nat) (f : Fld) (v i : Nat) : (w.dec b f v i).msp = w.msp := rfl
@[simp] theorem W.dec_irq (w : W) (b : Nat) (f : Fld) (v i : Nat) : (w.dec b f v i).irq = w.irq := rfl
@[simp] theorem W.dec_flt (w : W) (b : Nat) (f : Fld) (v i : Nat) : (w.dec b f v i).flt = w.flt := rfl
@[simp] theorem W.dec_plt (w : W) (b : Nat) (f : Fld) (v i : Nat) : (w.dec b f v i).plt = w.plt := rfl
@[simp] theorem W.dec_sch (w : W) (b : Nat) (f : Fld) (v i : Nat) : (w.dec b f v i).sch = w.sch := rfl
@[simp] theorem W.dec_col (w : W) (b : Nat) (f : Fld) (v i : Nat) : (w.dec b f v i).col = w.col := rfl
@[simp] theorem W.dec_obs (w : W) (b : Nat) (f : Fld) (v i : Nat) : (w.dec b f v i).obs = w.obs := rfl
@[simp] theorem W.dec_ep (w : W) (b : Nat) (f : Fld) (v i : Nat) : (w.dec b f v i).ep = w.ep := rfl
@[simp] theorem W.dec_cx (w : W) (b : Nat) (f : Fld) (v i : Nat) : (w.dec b f v i).cx = w.cx := rfl
@[simp] theorem W.dec_boot (w : W) (b : Nat) (f : Fld) (v i : Nat) : (w.dec b f v i).boot = w.boot := rfl
@[simp] theorem W.dec_ctxFence (w : W) (b : Nat) (f : Fld) (v i : Nat) : (w.dec b f v i).ctxFence = w.ctxFence := rfl
@[simp] theorem W.dec_fenceOver (w : W) (b : Nat) (f : Fld) (v i : Nat) : (w.dec b f v i).fenceOver = w.fenceOver := rfl
@[simp] theorem W.dec_stores (w : W) (b : Nat) (f : Fld) (v i : Nat) : (w.dec b f v i).stores = w.stores := rfl

/-! ### Raising a maximum field -/

@[simp] theorem W.high_pending (w : W) (b : Nat) (f : Fld) (v i : Nat) : (w.high b f v i).pending = w.pending := by unfold W.high; split <;> rfl
@[simp] theorem W.high_fc (w : W) (b : Nat) (f : Fld) (v i : Nat) : (w.high b f v i).fc = w.fc := by unfold W.high; split <;> rfl
@[simp] theorem W.high_herdTime (w : W) (b : Nat) (f : Fld) (v i : Nat) : (w.high b f v i).herdTime = w.herdTime := by unfold W.high; split <;> rfl
@[simp] theorem W.high_plateTime (w : W) (b : Nat) (f : Fld) (v i : Nat) : (w.high b f v i).plateTime = w.plateTime := by unfold W.high; split <;> rfl
@[simp] theorem W.high_freeCtr (w : W) (b : Nat) (f : Fld) (v i : Nat) : (w.high b f v i).freeCtr = w.freeCtr := by unfold W.high; split <;> rfl
@[simp] theorem W.high_shadow (w : W) (b : Nat) (f : Fld) (v i : Nat) : (w.high b f v i).shadow = w.shadow := by unfold W.high; split <;> rfl
@[simp] theorem W.high_mem (w : W) (b : Nat) (f : Fld) (v i : Nat) : (w.high b f v i).mem = w.mem := by unfold W.high; split <;> rfl
@[simp] theorem W.high_fuse (w : W) (b : Nat) (f : Fld) (v i : Nat) : (w.high b f v i).fuse = w.fuse := by unfold W.high; split <;> rfl
@[simp] theorem W.high_net (w : W) (b : Nat) (f : Fld) (v i : Nat) : (w.high b f v i).net = w.net := by unfold W.high; split <;> rfl
@[simp] theorem W.high_sta (w : W) (b : Nat) (f : Fld) (v i : Nat) : (w.high b f v i).sta = w.sta := by unfold W.high; split <;> rfl
@[simp] theorem W.high_msp (w : W) (b : Nat) (f : Fld) (v i : Nat) : (w.high b f v i).msp = w.msp := by unfold W.high; split <;> rfl
@[simp] theorem W.high_irq (w : W) (b : Nat) (f : Fld) (v i : Nat) : (w.high b f v i).irq = w.irq := by unfold W.high; split <;> rfl
@[simp] theorem W.high_flt (w : W) (b : Nat) (f : Fld) (v i : Nat) : (w.high b f v i).flt = w.flt := by unfold W.high; split <;> rfl
@[simp] theorem W.high_plt (w : W) (b : Nat) (f : Fld) (v i : Nat) : (w.high b f v i).plt = w.plt := by unfold W.high; split <;> rfl
@[simp] theorem W.high_sch (w : W) (b : Nat) (f : Fld) (v i : Nat) : (w.high b f v i).sch = w.sch := by unfold W.high; split <;> rfl
@[simp] theorem W.high_col (w : W) (b : Nat) (f : Fld) (v i : Nat) : (w.high b f v i).col = w.col := by unfold W.high; split <;> rfl
@[simp] theorem W.high_obs (w : W) (b : Nat) (f : Fld) (v i : Nat) : (w.high b f v i).obs = w.obs := by unfold W.high; split <;> rfl
@[simp] theorem W.high_ep (w : W) (b : Nat) (f : Fld) (v i : Nat) : (w.high b f v i).ep = w.ep := by unfold W.high; split <;> rfl
@[simp] theorem W.high_cx (w : W) (b : Nat) (f : Fld) (v i : Nat) : (w.high b f v i).cx = w.cx := by unfold W.high; split <;> rfl
@[simp] theorem W.high_boot (w : W) (b : Nat) (f : Fld) (v i : Nat) : (w.high b f v i).boot = w.boot := by unfold W.high; split <;> rfl
@[simp] theorem W.high_ctxFence (w : W) (b : Nat) (f : Fld) (v i : Nat) : (w.high b f v i).ctxFence = w.ctxFence := by unfold W.high; split <;> rfl
@[simp] theorem W.high_fenceOver (w : W) (b : Nat) (f : Fld) (v i : Nat) : (w.high b f v i).fenceOver = w.fenceOver := by unfold W.high; split <;> rfl
@[simp] theorem W.high_stores (w : W) (b : Nat) (f : Fld) (v i : Nat) : (w.high b f v i).stores = w.stores := by unfold W.high; split <;> rfl

/-! ### A late register write -/

@[simp] theorem W.wrLate_pending (w : W) (b : Nat) (f : Fld) (v i : Nat) : (w.wrLate b f v i).pending = w.pending := rfl
@[simp] theorem W.wrLate_fc (w : W) (b : Nat) (f : Fld) (v i : Nat) : (w.wrLate b f v i).fc = w.fc := rfl
@[simp] theorem W.wrLate_herdTime (w : W) (b : Nat) (f : Fld) (v i : Nat) : (w.wrLate b f v i).herdTime = w.herdTime := rfl
@[simp] theorem W.wrLate_plateTime (w : W) (b : Nat) (f : Fld) (v i : Nat) : (w.wrLate b f v i).plateTime = w.plateTime := rfl
@[simp] theorem W.wrLate_freeCtr (w : W) (b : Nat) (f : Fld) (v i : Nat) : (w.wrLate b f v i).freeCtr = w.freeCtr := rfl
@[simp] theorem W.wrLate_evNow (w : W) (b : Nat) (f : Fld) (v i : Nat) : (w.wrLate b f v i).evNow = w.evNow := rfl
@[simp] theorem W.wrLate_mem (w : W) (b : Nat) (f : Fld) (v i : Nat) : (w.wrLate b f v i).mem = w.mem := rfl
@[simp] theorem W.wrLate_fuse (w : W) (b : Nat) (f : Fld) (v i : Nat) : (w.wrLate b f v i).fuse = w.fuse := rfl
@[simp] theorem W.wrLate_net (w : W) (b : Nat) (f : Fld) (v i : Nat) : (w.wrLate b f v i).net = w.net := rfl
@[simp] theorem W.wrLate_sta (w : W) (b : Nat) (f : Fld) (v i : Nat) : (w.wrLate b f v i).sta = w.sta := rfl
@[simp] theorem W.wrLate_msp (w : W) (b : Nat) (f : Fld) (v i : Nat) : (w.wrLate b f v i).msp = w.msp := rfl
@[simp] theorem W.wrLate_irq (w : W) (b : Nat) (f : Fld) (v i : Nat) : (w.wrLate b f v i).irq = w.irq := rfl
@[simp] theorem W.wrLate_flt (w : W) (b : Nat) (f : Fld) (v i : Nat) : (w.wrLate b f v i).flt = w.flt := rfl
@[simp] theorem W.wrLate_plt (w : W) (b : Nat) (f : Fld) (v i : Nat) : (w.wrLate b f v i).plt = w.plt := rfl
@[simp] theorem W.wrLate_sch (w : W) (b : Nat) (f : Fld) (v i : Nat) : (w.wrLate b f v i).sch = w.sch := rfl
@[simp] theorem W.wrLate_col (w : W) (b : Nat) (f : Fld) (v i : Nat) : (w.wrLate b f v i).col = w.col := rfl
@[simp] theorem W.wrLate_obs (w : W) (b : Nat) (f : Fld) (v i : Nat) : (w.wrLate b f v i).obs = w.obs := rfl
@[simp] theorem W.wrLate_ep (w : W) (b : Nat) (f : Fld) (v i : Nat) : (w.wrLate b f v i).ep = w.ep := rfl
@[simp] theorem W.wrLate_cx (w : W) (b : Nat) (f : Fld) (v i : Nat) : (w.wrLate b f v i).cx = w.cx := rfl
@[simp] theorem W.wrLate_boot (w : W) (b : Nat) (f : Fld) (v i : Nat) : (w.wrLate b f v i).boot = w.boot := rfl
@[simp] theorem W.wrLate_ctxFence (w : W) (b : Nat) (f : Fld) (v i : Nat) : (w.wrLate b f v i).ctxFence = w.ctxFence := rfl
@[simp] theorem W.wrLate_fenceOver (w : W) (b : Nat) (f : Fld) (v i : Nat) : (w.wrLate b f v i).fenceOver = w.fenceOver := rfl
@[simp] theorem W.wrLate_stores (w : W) (b : Nat) (f : Fld) (v i : Nat) : (w.wrLate b f v i).stores = w.stores := rfl

/-! ### A store -/

@[simp] theorem W.put_pending (w : W) (st : Store) : (w.put st).pending = w.pending := rfl
@[simp] theorem W.put_fc (w : W) (st : Store) : (w.put st).fc = w.fc := rfl
@[simp] theorem W.put_herdTime (w : W) (st : Store) : (w.put st).herdTime = w.herdTime := rfl
@[simp] theorem W.put_plateTime (w : W) (st : Store) : (w.put st).plateTime = w.plateTime := rfl
@[simp] theorem W.put_freeCtr (w : W) (st : Store) : (w.put st).freeCtr = w.freeCtr := rfl
@[simp] theorem W.put_regs (w : W) (st : Store) : (w.put st).regs = w.regs := rfl
@[simp] theorem W.put_shadow (w : W) (st : Store) : (w.put st).shadow = w.shadow := rfl
@[simp] theorem W.put_evNow (w : W) (st : Store) : (w.put st).evNow = w.evNow := rfl
@[simp] theorem W.put_mem (w : W) (st : Store) : (w.put st).mem = w.mem := rfl
@[simp] theorem W.put_fuse (w : W) (st : Store) : (w.put st).fuse = w.fuse := rfl
@[simp] theorem W.put_net (w : W) (st : Store) : (w.put st).net = w.net := rfl
@[simp] theorem W.put_sta (w : W) (st : Store) : (w.put st).sta = w.sta := rfl
@[simp] theorem W.put_msp (w : W) (st : Store) : (w.put st).msp = w.msp := rfl
@[simp] theorem W.put_irq (w : W) (st : Store) : (w.put st).irq = w.irq := rfl
@[simp] theorem W.put_flt (w : W) (st : Store) : (w.put st).flt = w.flt := rfl
@[simp] theorem W.put_plt (w : W) (st : Store) : (w.put st).plt = w.plt := rfl
@[simp] theorem W.put_sch (w : W) (st : Store) : (w.put st).sch = w.sch := rfl
@[simp] theorem W.put_col (w : W) (st : Store) : (w.put st).col = w.col := rfl
@[simp] theorem W.put_obs (w : W) (st : Store) : (w.put st).obs = w.obs := rfl
@[simp] theorem W.put_ep (w : W) (st : Store) : (w.put st).ep = w.ep := rfl
@[simp] theorem W.put_cx (w : W) (st : Store) : (w.put st).cx = w.cx := rfl
@[simp] theorem W.put_boot (w : W) (st : Store) : (w.put st).boot = w.boot := rfl
@[simp] theorem W.put_ctxFence (w : W) (st : Store) : (w.put st).ctxFence = w.ctxFence := rfl
@[simp] theorem W.put_fenceOver (w : W) (st : Store) : (w.put st).fenceOver = w.fenceOver := rfl

/-! ### An interrupt source -/

@[simp] theorem W.irqSet_pending (w : W) (k : Nat) (v : IrqSrc) : (w.irqSet k v).pending = w.pending := rfl
@[simp] theorem W.irqSet_fc (w : W) (k : Nat) (v : IrqSrc) : (w.irqSet k v).fc = w.fc := rfl
@[simp] theorem W.irqSet_herdTime (w : W) (k : Nat) (v : IrqSrc) : (w.irqSet k v).herdTime = w.herdTime := rfl
@[simp] theorem W.irqSet_plateTime (w : W) (k : Nat) (v : IrqSrc) : (w.irqSet k v).plateTime = w.plateTime := rfl
@[simp] theorem W.irqSet_freeCtr (w : W) (k : Nat) (v : IrqSrc) : (w.irqSet k v).freeCtr = w.freeCtr := rfl
@[simp] theorem W.irqSet_regs (w : W) (k : Nat) (v : IrqSrc) : (w.irqSet k v).regs = w.regs := rfl
@[simp] theorem W.irqSet_shadow (w : W) (k : Nat) (v : IrqSrc) : (w.irqSet k v).shadow = w.shadow := rfl
@[simp] theorem W.irqSet_evNow (w : W) (k : Nat) (v : IrqSrc) : (w.irqSet k v).evNow = w.evNow := rfl
@[simp] theorem W.irqSet_mem (w : W) (k : Nat) (v : IrqSrc) : (w.irqSet k v).mem = w.mem := rfl
@[simp] theorem W.irqSet_fuse (w : W) (k : Nat) (v : IrqSrc) : (w.irqSet k v).fuse = w.fuse := rfl
@[simp] theorem W.irqSet_net (w : W) (k : Nat) (v : IrqSrc) : (w.irqSet k v).net = w.net := rfl
@[simp] theorem W.irqSet_sta (w : W) (k : Nat) (v : IrqSrc) : (w.irqSet k v).sta = w.sta := rfl
@[simp] theorem W.irqSet_msp (w : W) (k : Nat) (v : IrqSrc) : (w.irqSet k v).msp = w.msp := rfl
@[simp] theorem W.irqSet_flt (w : W) (k : Nat) (v : IrqSrc) : (w.irqSet k v).flt = w.flt := rfl
@[simp] theorem W.irqSet_plt (w : W) (k : Nat) (v : IrqSrc) : (w.irqSet k v).plt = w.plt := rfl
@[simp] theorem W.irqSet_sch (w : W) (k : Nat) (v : IrqSrc) : (w.irqSet k v).sch = w.sch := rfl
@[simp] theorem W.irqSet_col (w : W) (k : Nat) (v : IrqSrc) : (w.irqSet k v).col = w.col := rfl
@[simp] theorem W.irqSet_obs (w : W) (k : Nat) (v : IrqSrc) : (w.irqSet k v).obs = w.obs := rfl
@[simp] theorem W.irqSet_ep (w : W) (k : Nat) (v : IrqSrc) : (w.irqSet k v).ep = w.ep := rfl
@[simp] theorem W.irqSet_cx (w : W) (k : Nat) (v : IrqSrc) : (w.irqSet k v).cx = w.cx := rfl
@[simp] theorem W.irqSet_boot (w : W) (k : Nat) (v : IrqSrc) : (w.irqSet k v).boot = w.boot := rfl
@[simp] theorem W.irqSet_ctxFence (w : W) (k : Nat) (v : IrqSrc) : (w.irqSet k v).ctxFence = w.ctxFence := rfl
@[simp] theorem W.irqSet_fenceOver (w : W) (k : Nat) (v : IrqSrc) : (w.irqSet k v).fenceOver = w.fenceOver := rfl
@[simp] theorem W.irqSet_stores (w : W) (k : Nat) (v : IrqSrc) : (w.irqSet k v).stores = w.stores := rfl

@[simp] theorem W.put_stores (w : W) (st : Store) : (w.put st).stores = w.stores ++ [st] := rfl

/-! ### Register fields read back -/

/-- A field just written reads as the value, cut to its width. -/
@[simp] theorem W.rd_wr_self (w : W) (b : Nat) (f : Fld) (v i : Nat) : (w.wr b f v i).rd b f i = v % 2 ^ f.width := by
  simp [State.rd, W.wr]

theorem W.rd_wr_val (w : W) (b : Nat) (f : Fld) (v i x : Nat) (h : v % 2 ^ f.width = x) : (w.wr b f v i).rd b f i = x :=
  (W.rd_wr_self ..).trans h

/-- What an event, a clearing read and a clearing write leave in the field. -/
theorem W.rd_inc_self (w : W) (b : Nat) (f : Fld) (k i : Nat) :
    (w.inc b f k i).rd b f i = satAdd f.width (w.rd b f i) k % 2 ^ f.width := W.rd_wr_self ..
theorem W.rd_flag_self (w : W) (b : Nat) (f : Fld) (v i : Nat) :
    (w.flag b f v i).rd b f i = (w.rd b f i ||| v) % 2 ^ f.width := W.rd_wr_self ..
theorem W.rd_clearRc_self (w : W) (b : Nat) (f : Fld) (i : Nat) :
    (w.clearRc b f i).rd b f i = w.evSince b f i % 2 ^ f.width := W.rd_wr_self ..
theorem W.rd_clearW1c_self (w : W) (b : Nat) (f : Fld) (m i : Nat) :
    (w.clearW1c b f m i).rd b f i = (w.rd b f i - (w.rd b f i &&& m) ||| (w.evSince b f i &&& m)) % 2 ^ f.width :=
  W.rd_wr_self ..

/-- A field at another key reads as before. -/
theorem W.rd_wr_ne (w : W) (b c : Nat) (f g : Fld) (v i j : Nat) (h : g.key c j ≠ f.key b i) :
    (w.wr b f v i).rd c g j = w.rd c g j := by
  simp [State.rd, W.wr, Tbl.get_set_ne, h]

/-- An event in another field, or a clearing of one, leaves a field as it was. -/
theorem W.rd_inc_ne (w : W) (b c : Nat) (f g : Fld) (k i j : Nat) (h : g.key c j ≠ f.key b i) :
    (w.inc b f k i).rd c g j = w.rd c g j := W.rd_wr_ne _ _ _ _ _ _ _ _ h
theorem W.rd_flag_ne (w : W) (b c : Nat) (f g : Fld) (v i j : Nat) (h : g.key c j ≠ f.key b i) :
    (w.flag b f v i).rd c g j = w.rd c g j := W.rd_wr_ne _ _ _ _ _ _ _ _ h

/-- Two fields of one window that differ in register or place have different keys. -/
theorem Fld.key_ne {f g : Fld} (b i : Nat) (hf : f.lsb < 32) (hg : g.lsb < 32) (h : f.off ≠ g.off ∨ f.lsb ≠ g.lsb) :
    f.key b i ≠ g.key b i := by
  unfold Fld.key
  omega

/-- Fields at different addresses, places or entries have different keys. -/
theorem Fld.key_ne_of (f g : Fld) (b c i j : Nat) (hf : f.lsb < 32) (hg : g.lsb < 32) (h1 : b + f.off < 2 ^ 26)
    (h2 : c + g.off < 2 ^ 26) (h : b + f.off ≠ c + g.off ∨ f.lsb ≠ g.lsb ∨ i ≠ j) : f.key b i ≠ g.key c j := by
  unfold Fld.key
  omega

/-- A field of the same window with another place reads as before. -/
theorem W.rd_wr_other (w : W) (b : Nat) (f g : Fld) (v i j : Nat) (hf : f.lsb < 32) (hg : g.lsb < 32) (h1 : b + f.off < 2 ^ 26)
    (h2 : b + g.off < 2 ^ 26) (h : f.off ≠ g.off ∨ f.lsb ≠ g.lsb ∨ i ≠ j) : (w.wr b f v i).rd b g j = w.rd b g j :=
  W.rd_wr_ne _ _ _ _ _ _ _ _ (Fld.key_ne_of g f b b j i hg hf h2 h1 (by omega))

end Sys2Proof.Machine
end

