-- ==== Sys2Proof/Laws/Frame.lean ====
section
/-! SUPPORT. What the reports of events can touch: registers, interrupt sources and observability; and, for fault events,
the fault collector. -/

namespace Sys2Proof.Machine

/-- A state without what reports touch. -/
def W.bare (w : W) : W := { w with regs := [], shadow := [], evNow := [], irq := {}, obs := {} }

/-- A state without what fault events touch. -/
def W.bareF (w : W) : W := { w with regs := [], shadow := [], evNow := [], irq := {}, obs := {}, flt := {} }

theorem W.bareF_of {v w : W} (h : v.bare = w.bare) : v.bareF = w.bareF := by
  have := congrArg (fun x : W => { x with flt := {} }) h
  exact this

theorem W.each_nil {α : Type} (w : W) (f : W → α → W) : w.each [] f = w := rfl
theorem W.each_cons {α : Type} (w : W) (a : α) (l : List α) (f : W → α → W) : w.each (a :: l) f = (f w a).each l f := rfl

/-- What every element's step keeps, the whole list keeps. -/
theorem W.each_inv {α : Type} (P : W → Prop) (l : List α) (f : W → α → W) (w : W) (h0 : P w)
    (h : ∀ v a, a ∈ l → P v → P (f v a)) : P (w.each l f) := by
  induction l generalizing w with
  | nil => exact h0
  | cons a l ih => exact ih (f w a) (h w a (by simp) h0) (fun v x hx => h v x (by simp [hx]))

theorem W.each_bare {α : Type} (l : List α) (f : W → α → W) (w : W) (h : ∀ v a, (f v a).bare = v.bare) :
    (w.each l f).bare = w.bare :=
  W.each_inv (fun v => v.bare = w.bare) l f w rfl (fun v a _ hv => (h v a).trans hv)

theorem W.each_bareF {α : Type} (l : List α) (f : W → α → W) (w : W) (h : ∀ v a, (f v a).bareF = v.bareF) :
    (w.each l f).bareF = w.bareF :=
  W.each_inv (fun v => v.bareF = w.bareF) l f w rfl (fun v a _ hv => (h v a).trans hv)

@[simp] theorem W.wr_bare (w : W) (b : Nat) (f : Fld) (v i : Nat) : (w.wr b f v i).bare = w.bare := rfl
@[simp] theorem W.inc_bare (w : W) (b : Nat) (f : Fld) (v i : Nat) : (w.inc b f v i).bare = w.bare := rfl
@[simp] theorem W.flag_bare (w : W) (b : Nat) (f : Fld) (v i : Nat) : (w.flag b f v i).bare = w.bare := rfl
@[simp] theorem W.clearRc_bare (w : W) (b : Nat) (f : Fld) (i : Nat) : (w.clearRc b f i).bare = w.bare := rfl
@[simp] theorem W.clearW1c_bare (w : W) (b : Nat) (f : Fld) (m i : Nat) : (w.clearW1c b f m i).bare = w.bare := rfl
@[simp] theorem W.dec_bare (w : W) (b : Nat) (f : Fld) (v i : Nat) : (w.dec b f v i).bare = w.bare := rfl
@[simp] theorem W.high_bare (w : W) (b : Nat) (f : Fld) (v i : Nat) : (w.high b f v i).bare = w.bare := by
  unfold W.high; split <;> rfl
@[simp] theorem W.wrLate_bare (w : W) (b : Nat) (f : Fld) (v i : Nat) : (w.wrLate b f v i).bare = w.bare := rfl
@[simp] theorem W.irqSet_bare (w : W) (k : Nat) (v : IrqSrc) : (w.irqSet k v).bare = w.bare := rfl

/-- An interrupt event touches interrupt state alone. -/
@[simp] theorem W.irq1_bare (w : W) (k n : Nat) : (w.irq1 k n).bare = w.bare := by
  unfold W.irq1
  split <;> rfl
@[simp] theorem W.irqB_bare (w : W) (st n : Nat) : (w.irqB st n).bare = w.bare := W.irq1_bare ..
@[simp] theorem W.irqR_bare (w : W) (p n : Nat) : (w.irqR p n).bare = w.bare := W.irq1_bare ..
@[simp] theorem W.irqP_bare (w : W) (n : Nat) : (w.irqP n).bare = w.bare := W.irq1_bare ..
@[simp] theorem W.irqRecount_bare (w : W) : (w.irqRecount).bare = w.bare := by
  unfold W.irqRecount
  dsimp only
  split <;> rfl

@[simp] theorem W.ecAdd_bare (w : W) (b f k n : Nat) : (w.ecAdd b f k n).bare = w.bare := by
  induction f generalizing w k n with
  | zero => rfl
  | succ f ih =>
    unfold W.ecAdd
    simp only
    split
    · rfl
    · split
      · rw [ih]; rfl
      · simp

/-- An occurrence touches registers and interrupt state alone. -/
@[simp] theorem W.ev_bare (w : W) (u code n ctx port vc : Nat) : (w.ev u code n ctx port vc).bare = w.bare := by
  unfold W.ev
  exact W.each_bare _ _ _ (fun v a => by split <;> simp)

@[simp] theorem W.sample_bare (w : W) (k v ctx : Nat) : (w.sample k v ctx).bare = w.bare := by
  unfold W.sample
  split
  · rfl
  · split <;> rfl

@[simp] theorem W.trcStamp_bare (w : W) (b t : Nat) : (w.trcStamp b t).bare = w.bare := by
  unfold W.trcStamp
  rw [W.irqP_bare]
  rfl

@[simp] theorem W.trcPush_bare (w : W) (b : Nat) (r : TrcRec) : (w.trcPush b r).bare = w.bare := by
  unfold W.trcPush
  simp only
  split
  · split
    · exact W.trcStamp_bare ..
    · rfl
  · split
    · rfl
    · split
      · split
        · exact W.trcStamp_bare ..
        · rfl
      · simp only [W.bare, W.wr]
        split
        · exact W.trcStamp_bare (w.wr obsB (KOBS_TRC_STAT.tstate.at b) 2) b r.stamp
        · rfl

@[simp] theorem W.trace_bare (w : W) (kind ev ctx : Nat) (p : List Byte) (on : Nat → Nat → Nat → Nat → Bool) :
    (w.trace kind ev ctx p on).bare = w.bare := by
  unfold W.trace
  refine W.each_bare _ _ _ (fun v a => ?_)
  simp only
  split
  · exact W.trcPush_bare ..
  · rfl

@[simp] theorem W.traceCmd_bare (w : W) (e o t s q : Nat) : (w.traceCmd e o t s q).bare = w.bare := W.trace_bare ..
@[simp] theorem W.tracePlt_bare (w : W) (e v i : Nat) : (w.tracePlt e v i).bare = w.bare := W.trace_bare ..
@[simp] theorem W.traceEp_bare (w : W) (e v c p n : Nat) : (w.traceEp e v c p n).bare = w.bare := W.trace_bare ..
@[simp] theorem W.traceFlt_bare (w : W) (l c : Nat) : (w.traceFlt l c).bare = w.bare := W.trace_bare ..
@[simp] theorem W.sticky_bare (w : W) (g b : Nat) : (w.sticky g b).bare = w.bare := rfl

@[simp] theorem W.setClass_bareF (w : W) (c : Nat) : (w.setClass c).bareF = w.bareF := by
  unfold W.setClass
  simp only
  split
  · rfl
  · split <;> rfl

/-- A fault event touches reports and the fault collector alone. -/
@[simp] theorem W.fault_bareF (w : W) (c l : Nat) : (w.fault c l).bareF = w.bareF := by
  unfold W.fault
  rw [W.setClass_bareF, W.bareF_of (W.sticky_bare ..), W.bareF_of (W.traceFlt_bare ..)]

end Sys2Proof.Machine
end

