-- ==== Sys2Proof/Laws/Fields.lean ====
section
/-! SUPPORT. The fields that reports of events and fault events leave as they were. -/

namespace Sys2Proof.Machine

theorem W.pending_of_bare {v w : W} (h : v.bare = w.bare) : v.pending = w.pending := by have e := congrArg (fun x : W => x.pending) h; exact e
theorem W.pending_of_bareF {v w : W} (h : v.bareF = w.bareF) : v.pending = w.pending := by have e := congrArg (fun x : W => x.pending) h; exact e
theorem W.fc_of_bare {v w : W} (h : v.bare = w.bare) : v.fc = w.fc := by have e := congrArg (fun x : W => x.fc) h; exact e
theorem W.fc_of_bareF {v w : W} (h : v.bareF = w.bareF) : v.fc = w.fc := by have e := congrArg (fun x : W => x.fc) h; exact e
theorem W.herdTime_of_bare {v w : W} (h : v.bare = w.bare) : v.herdTime = w.herdTime := by have e := congrArg (fun x : W => x.herdTime) h; exact e
theorem W.herdTime_of_bareF {v w : W} (h : v.bareF = w.bareF) : v.herdTime = w.herdTime := by have e := congrArg (fun x : W => x.herdTime) h; exact e
theorem W.plateTime_of_bare {v w : W} (h : v.bare = w.bare) : v.plateTime = w.plateTime := by have e := congrArg (fun x : W => x.plateTime) h; exact e
theorem W.plateTime_of_bareF {v w : W} (h : v.bareF = w.bareF) : v.plateTime = w.plateTime := by have e := congrArg (fun x : W => x.plateTime) h; exact e
theorem W.freeCtr_of_bare {v w : W} (h : v.bare = w.bare) : v.freeCtr = w.freeCtr := by have e := congrArg (fun x : W => x.freeCtr) h; exact e
theorem W.freeCtr_of_bareF {v w : W} (h : v.bareF = w.bareF) : v.freeCtr = w.freeCtr := by have e := congrArg (fun x : W => x.freeCtr) h; exact e
theorem W.mem_of_bare {v w : W} (h : v.bare = w.bare) : v.mem = w.mem := by have e := congrArg (fun x : W => x.mem) h; exact e
theorem W.mem_of_bareF {v w : W} (h : v.bareF = w.bareF) : v.mem = w.mem := by have e := congrArg (fun x : W => x.mem) h; exact e
theorem W.fuse_of_bare {v w : W} (h : v.bare = w.bare) : v.fuse = w.fuse := by have e := congrArg (fun x : W => x.fuse) h; exact e
theorem W.fuse_of_bareF {v w : W} (h : v.bareF = w.bareF) : v.fuse = w.fuse := by have e := congrArg (fun x : W => x.fuse) h; exact e
theorem W.net_of_bare {v w : W} (h : v.bare = w.bare) : v.net = w.net := by have e := congrArg (fun x : W => x.net) h; exact e
theorem W.net_of_bareF {v w : W} (h : v.bareF = w.bareF) : v.net = w.net := by have e := congrArg (fun x : W => x.net) h; exact e
theorem W.sta_of_bare {v w : W} (h : v.bare = w.bare) : v.sta = w.sta := by have e := congrArg (fun x : W => x.sta) h; exact e
theorem W.sta_of_bareF {v w : W} (h : v.bareF = w.bareF) : v.sta = w.sta := by have e := congrArg (fun x : W => x.sta) h; exact e
theorem W.msp_of_bare {v w : W} (h : v.bare = w.bare) : v.msp = w.msp := by have e := congrArg (fun x : W => x.msp) h; exact e
theorem W.msp_of_bareF {v w : W} (h : v.bareF = w.bareF) : v.msp = w.msp := by have e := congrArg (fun x : W => x.msp) h; exact e
theorem W.flt_of_bare {v w : W} (h : v.bare = w.bare) : v.flt = w.flt := by have e := congrArg (fun x : W => x.flt) h; exact e
theorem W.plt_of_bare {v w : W} (h : v.bare = w.bare) : v.plt = w.plt := by have e := congrArg (fun x : W => x.plt) h; exact e
theorem W.plt_of_bareF {v w : W} (h : v.bareF = w.bareF) : v.plt = w.plt := by have e := congrArg (fun x : W => x.plt) h; exact e
theorem W.sch_of_bare {v w : W} (h : v.bare = w.bare) : v.sch = w.sch := by have e := congrArg (fun x : W => x.sch) h; exact e
theorem W.sch_of_bareF {v w : W} (h : v.bareF = w.bareF) : v.sch = w.sch := by have e := congrArg (fun x : W => x.sch) h; exact e
theorem W.col_of_bare {v w : W} (h : v.bare = w.bare) : v.col = w.col := by have e := congrArg (fun x : W => x.col) h; exact e
theorem W.col_of_bareF {v w : W} (h : v.bareF = w.bareF) : v.col = w.col := by have e := congrArg (fun x : W => x.col) h; exact e
theorem W.ep_of_bare {v w : W} (h : v.bare = w.bare) : v.ep = w.ep := by have e := congrArg (fun x : W => x.ep) h; exact e
theorem W.ep_of_bareF {v w : W} (h : v.bareF = w.bareF) : v.ep = w.ep := by have e := congrArg (fun x : W => x.ep) h; exact e
theorem W.cx_of_bare {v w : W} (h : v.bare = w.bare) : v.cx = w.cx := by have e := congrArg (fun x : W => x.cx) h; exact e
theorem W.cx_of_bareF {v w : W} (h : v.bareF = w.bareF) : v.cx = w.cx := by have e := congrArg (fun x : W => x.cx) h; exact e
theorem W.boot_of_bare {v w : W} (h : v.bare = w.bare) : v.boot = w.boot := by have e := congrArg (fun x : W => x.boot) h; exact e
theorem W.boot_of_bareF {v w : W} (h : v.bareF = w.bareF) : v.boot = w.boot := by have e := congrArg (fun x : W => x.boot) h; exact e
theorem W.ctxFence_of_bare {v w : W} (h : v.bare = w.bare) : v.ctxFence = w.ctxFence := by have e := congrArg (fun x : W => x.ctxFence) h; exact e
theorem W.ctxFence_of_bareF {v w : W} (h : v.bareF = w.bareF) : v.ctxFence = w.ctxFence := by have e := congrArg (fun x : W => x.ctxFence) h; exact e
theorem W.fenceOver_of_bare {v w : W} (h : v.bare = w.bare) : v.fenceOver = w.fenceOver := by have e := congrArg (fun x : W => x.fenceOver) h; exact e
theorem W.fenceOver_of_bareF {v w : W} (h : v.bareF = w.bareF) : v.fenceOver = w.fenceOver := by have e := congrArg (fun x : W => x.fenceOver) h; exact e
theorem W.stores_of_bare {v w : W} (h : v.bare = w.bare) : v.stores = w.stores := by have e := congrArg (fun x : W => x.stores) h; exact e
theorem W.stores_of_bareF {v w : W} (h : v.bareF = w.bareF) : v.stores = w.stores := by have e := congrArg (fun x : W => x.stores) h; exact e

@[simp] theorem W.irq1_pending (w : W) (k n : Nat) : (w.irq1 k n).pending = w.pending := W.pending_of_bare (W.irq1_bare ..)
@[simp] theorem W.irq1_fc (w : W) (k n : Nat) : (w.irq1 k n).fc = w.fc := W.fc_of_bare (W.irq1_bare ..)
@[simp] theorem W.irq1_herdTime (w : W) (k n : Nat) : (w.irq1 k n).herdTime = w.herdTime := W.herdTime_of_bare (W.irq1_bare ..)
@[simp] theorem W.irq1_plateTime (w : W) (k n : Nat) : (w.irq1 k n).plateTime = w.plateTime := W.plateTime_of_bare (W.irq1_bare ..)
@[simp] theorem W.irq1_freeCtr (w : W) (k n : Nat) : (w.irq1 k n).freeCtr = w.freeCtr := W.freeCtr_of_bare (W.irq1_bare ..)
@[simp] theorem W.irq1_mem (w : W) (k n : Nat) : (w.irq1 k n).mem = w.mem := W.mem_of_bare (W.irq1_bare ..)
@[simp] theorem W.irq1_fuse (w : W) (k n : Nat) : (w.irq1 k n).fuse = w.fuse := W.fuse_of_bare (W.irq1_bare ..)
@[simp] theorem W.irq1_net (w : W) (k n : Nat) : (w.irq1 k n).net = w.net := W.net_of_bare (W.irq1_bare ..)
@[simp] theorem W.irq1_sta (w : W) (k n : Nat) : (w.irq1 k n).sta = w.sta := W.sta_of_bare (W.irq1_bare ..)
@[simp] theorem W.irq1_msp (w : W) (k n : Nat) : (w.irq1 k n).msp = w.msp := W.msp_of_bare (W.irq1_bare ..)
@[simp] theorem W.irq1_flt (w : W) (k n : Nat) : (w.irq1 k n).flt = w.flt := W.flt_of_bare (W.irq1_bare ..)
@[simp] theorem W.irq1_plt (w : W) (k n : Nat) : (w.irq1 k n).plt = w.plt := W.plt_of_bare (W.irq1_bare ..)
@[simp] theorem W.irq1_sch (w : W) (k n : Nat) : (w.irq1 k n).sch = w.sch := W.sch_of_bare (W.irq1_bare ..)
@[simp] theorem W.irq1_col (w : W) (k n : Nat) : (w.irq1 k n).col = w.col := W.col_of_bare (W.irq1_bare ..)
@[simp] theorem W.irq1_ep (w : W) (k n : Nat) : (w.irq1 k n).ep = w.ep := W.ep_of_bare (W.irq1_bare ..)
@[simp] theorem W.irq1_cx (w : W) (k n : Nat) : (w.irq1 k n).cx = w.cx := W.cx_of_bare (W.irq1_bare ..)
@[simp] theorem W.irq1_boot (w : W) (k n : Nat) : (w.irq1 k n).boot = w.boot := W.boot_of_bare (W.irq1_bare ..)
@[simp] theorem W.irq1_ctxFence (w : W) (k n : Nat) : (w.irq1 k n).ctxFence = w.ctxFence := W.ctxFence_of_bare (W.irq1_bare ..)
@[simp] theorem W.irq1_fenceOver (w : W) (k n : Nat) : (w.irq1 k n).fenceOver = w.fenceOver := W.fenceOver_of_bare (W.irq1_bare ..)
@[simp] theorem W.irq1_stores (w : W) (k n : Nat) : (w.irq1 k n).stores = w.stores := W.stores_of_bare (W.irq1_bare ..)

@[simp] theorem W.irqB_pending (w : W) (k n : Nat) : (w.irqB k n).pending = w.pending := W.pending_of_bare (W.irqB_bare ..)
@[simp] theorem W.irqB_fc (w : W) (k n : Nat) : (w.irqB k n).fc = w.fc := W.fc_of_bare (W.irqB_bare ..)
@[simp] theorem W.irqB_herdTime (w : W) (k n : Nat) : (w.irqB k n).herdTime = w.herdTime := W.herdTime_of_bare (W.irqB_bare ..)
@[simp] theorem W.irqB_plateTime (w : W) (k n : Nat) : (w.irqB k n).plateTime = w.plateTime := W.plateTime_of_bare (W.irqB_bare ..)
@[simp] theorem W.irqB_freeCtr (w : W) (k n : Nat) : (w.irqB k n).freeCtr = w.freeCtr := W.freeCtr_of_bare (W.irqB_bare ..)
@[simp] theorem W.irqB_mem (w : W) (k n : Nat) : (w.irqB k n).mem = w.mem := W.mem_of_bare (W.irqB_bare ..)
@[simp] theorem W.irqB_fuse (w : W) (k n : Nat) : (w.irqB k n).fuse = w.fuse := W.fuse_of_bare (W.irqB_bare ..)
@[simp] theorem W.irqB_net (w : W) (k n : Nat) : (w.irqB k n).net = w.net := W.net_of_bare (W.irqB_bare ..)
@[simp] theorem W.irqB_sta (w : W) (k n : Nat) : (w.irqB k n).sta = w.sta := W.sta_of_bare (W.irqB_bare ..)
@[simp] theorem W.irqB_msp (w : W) (k n : Nat) : (w.irqB k n).msp = w.msp := W.msp_of_bare (W.irqB_bare ..)
@[simp] theorem W.irqB_flt (w : W) (k n : Nat) : (w.irqB k n).flt = w.flt := W.flt_of_bare (W.irqB_bare ..)
@[simp] theorem W.irqB_plt (w : W) (k n : Nat) : (w.irqB k n).plt = w.plt := W.plt_of_bare (W.irqB_bare ..)
@[simp] theorem W.irqB_sch (w : W) (k n : Nat) : (w.irqB k n).sch = w.sch := W.sch_of_bare (W.irqB_bare ..)
@[simp] theorem W.irqB_col (w : W) (k n : Nat) : (w.irqB k n).col = w.col := W.col_of_bare (W.irqB_bare ..)
@[simp] theorem W.irqB_ep (w : W) (k n : Nat) : (w.irqB k n).ep = w.ep := W.ep_of_bare (W.irqB_bare ..)
@[simp] theorem W.irqB_cx (w : W) (k n : Nat) : (w.irqB k n).cx = w.cx := W.cx_of_bare (W.irqB_bare ..)
@[simp] theorem W.irqB_boot (w : W) (k n : Nat) : (w.irqB k n).boot = w.boot := W.boot_of_bare (W.irqB_bare ..)
@[simp] theorem W.irqB_ctxFence (w : W) (k n : Nat) : (w.irqB k n).ctxFence = w.ctxFence := W.ctxFence_of_bare (W.irqB_bare ..)
@[simp] theorem W.irqB_fenceOver (w : W) (k n : Nat) : (w.irqB k n).fenceOver = w.fenceOver := W.fenceOver_of_bare (W.irqB_bare ..)
@[simp] theorem W.irqB_stores (w : W) (k n : Nat) : (w.irqB k n).stores = w.stores := W.stores_of_bare (W.irqB_bare ..)

@[simp] theorem W.irqR_pending (w : W) (k n : Nat) : (w.irqR k n).pending = w.pending := W.pending_of_bare (W.irqR_bare ..)
@[simp] theorem W.irqR_fc (w : W) (k n : Nat) : (w.irqR k n).fc = w.fc := W.fc_of_bare (W.irqR_bare ..)
@[simp] theorem W.irqR_herdTime (w : W) (k n : Nat) : (w.irqR k n).herdTime = w.herdTime := W.herdTime_of_bare (W.irqR_bare ..)
@[simp] theorem W.irqR_plateTime (w : W) (k n : Nat) : (w.irqR k n).plateTime = w.plateTime := W.plateTime_of_bare (W.irqR_bare ..)
@[simp] theorem W.irqR_freeCtr (w : W) (k n : Nat) : (w.irqR k n).freeCtr = w.freeCtr := W.freeCtr_of_bare (W.irqR_bare ..)
@[simp] theorem W.irqR_mem (w : W) (k n : Nat) : (w.irqR k n).mem = w.mem := W.mem_of_bare (W.irqR_bare ..)
@[simp] theorem W.irqR_fuse (w : W) (k n : Nat) : (w.irqR k n).fuse = w.fuse := W.fuse_of_bare (W.irqR_bare ..)
@[simp] theorem W.irqR_net (w : W) (k n : Nat) : (w.irqR k n).net = w.net := W.net_of_bare (W.irqR_bare ..)
@[simp] theorem W.irqR_sta (w : W) (k n : Nat) : (w.irqR k n).sta = w.sta := W.sta_of_bare (W.irqR_bare ..)
@[simp] theorem W.irqR_msp (w : W) (k n : Nat) : (w.irqR k n).msp = w.msp := W.msp_of_bare (W.irqR_bare ..)
@[simp] theorem W.irqR_flt (w : W) (k n : Nat) : (w.irqR k n).flt = w.flt := W.flt_of_bare (W.irqR_bare ..)
@[simp] theorem W.irqR_plt (w : W) (k n : Nat) : (w.irqR k n).plt = w.plt := W.plt_of_bare (W.irqR_bare ..)
@[simp] theorem W.irqR_sch (w : W) (k n : Nat) : (w.irqR k n).sch = w.sch := W.sch_of_bare (W.irqR_bare ..)
@[simp] theorem W.irqR_col (w : W) (k n : Nat) : (w.irqR k n).col = w.col := W.col_of_bare (W.irqR_bare ..)
@[simp] theorem W.irqR_ep (w : W) (k n : Nat) : (w.irqR k n).ep = w.ep := W.ep_of_bare (W.irqR_bare ..)
@[simp] theorem W.irqR_cx (w : W) (k n : Nat) : (w.irqR k n).cx = w.cx := W.cx_of_bare (W.irqR_bare ..)
@[simp] theorem W.irqR_boot (w : W) (k n : Nat) : (w.irqR k n).boot = w.boot := W.boot_of_bare (W.irqR_bare ..)
@[simp] theorem W.irqR_ctxFence (w : W) (k n : Nat) : (w.irqR k n).ctxFence = w.ctxFence := W.ctxFence_of_bare (W.irqR_bare ..)
@[simp] theorem W.irqR_fenceOver (w : W) (k n : Nat) : (w.irqR k n).fenceOver = w.fenceOver := W.fenceOver_of_bare (W.irqR_bare ..)
@[simp] theorem W.irqR_stores (w : W) (k n : Nat) : (w.irqR k n).stores = w.stores := W.stores_of_bare (W.irqR_bare ..)

@[simp] theorem W.irqP_pending (w : W) (n : Nat) : (w.irqP n).pending = w.pending := W.pending_of_bare (W.irqP_bare ..)
@[simp] theorem W.irqP_fc (w : W) (n : Nat) : (w.irqP n).fc = w.fc := W.fc_of_bare (W.irqP_bare ..)
@[simp] theorem W.irqP_herdTime (w : W) (n : Nat) : (w.irqP n).herdTime = w.herdTime := W.herdTime_of_bare (W.irqP_bare ..)
@[simp] theorem W.irqP_plateTime (w : W) (n : Nat) : (w.irqP n).plateTime = w.plateTime := W.plateTime_of_bare (W.irqP_bare ..)
@[simp] theorem W.irqP_freeCtr (w : W) (n : Nat) : (w.irqP n).freeCtr = w.freeCtr := W.freeCtr_of_bare (W.irqP_bare ..)
@[simp] theorem W.irqP_mem (w : W) (n : Nat) : (w.irqP n).mem = w.mem := W.mem_of_bare (W.irqP_bare ..)
@[simp] theorem W.irqP_fuse (w : W) (n : Nat) : (w.irqP n).fuse = w.fuse := W.fuse_of_bare (W.irqP_bare ..)
@[simp] theorem W.irqP_net (w : W) (n : Nat) : (w.irqP n).net = w.net := W.net_of_bare (W.irqP_bare ..)
@[simp] theorem W.irqP_sta (w : W) (n : Nat) : (w.irqP n).sta = w.sta := W.sta_of_bare (W.irqP_bare ..)
@[simp] theorem W.irqP_msp (w : W) (n : Nat) : (w.irqP n).msp = w.msp := W.msp_of_bare (W.irqP_bare ..)
@[simp] theorem W.irqP_flt (w : W) (n : Nat) : (w.irqP n).flt = w.flt := W.flt_of_bare (W.irqP_bare ..)
@[simp] theorem W.irqP_plt (w : W) (n : Nat) : (w.irqP n).plt = w.plt := W.plt_of_bare (W.irqP_bare ..)
@[simp] theorem W.irqP_sch (w : W) (n : Nat) : (w.irqP n).sch = w.sch := W.sch_of_bare (W.irqP_bare ..)
@[simp] theorem W.irqP_col (w : W) (n : Nat) : (w.irqP n).col = w.col := W.col_of_bare (W.irqP_bare ..)
@[simp] theorem W.irqP_ep (w : W) (n : Nat) : (w.irqP n).ep = w.ep := W.ep_of_bare (W.irqP_bare ..)
@[simp] theorem W.irqP_cx (w : W) (n : Nat) : (w.irqP n).cx = w.cx := W.cx_of_bare (W.irqP_bare ..)
@[simp] theorem W.irqP_boot (w : W) (n : Nat) : (w.irqP n).boot = w.boot := W.boot_of_bare (W.irqP_bare ..)
@[simp] theorem W.irqP_ctxFence (w : W) (n : Nat) : (w.irqP n).ctxFence = w.ctxFence := W.ctxFence_of_bare (W.irqP_bare ..)
@[simp] theorem W.irqP_fenceOver (w : W) (n : Nat) : (w.irqP n).fenceOver = w.fenceOver := W.fenceOver_of_bare (W.irqP_bare ..)
@[simp] theorem W.irqP_stores (w : W) (n : Nat) : (w.irqP n).stores = w.stores := W.stores_of_bare (W.irqP_bare ..)

@[simp] theorem W.ev_pending (w : W) (u c n x p v : Nat) : (w.ev u c n x p v).pending = w.pending := W.pending_of_bare (W.ev_bare ..)
@[simp] theorem W.ev_fc (w : W) (u c n x p v : Nat) : (w.ev u c n x p v).fc = w.fc := W.fc_of_bare (W.ev_bare ..)
@[simp] theorem W.ev_herdTime (w : W) (u c n x p v : Nat) : (w.ev u c n x p v).herdTime = w.herdTime := W.herdTime_of_bare (W.ev_bare ..)
@[simp] theorem W.ev_plateTime (w : W) (u c n x p v : Nat) : (w.ev u c n x p v).plateTime = w.plateTime := W.plateTime_of_bare (W.ev_bare ..)
@[simp] theorem W.ev_freeCtr (w : W) (u c n x p v : Nat) : (w.ev u c n x p v).freeCtr = w.freeCtr := W.freeCtr_of_bare (W.ev_bare ..)
@[simp] theorem W.ev_mem (w : W) (u c n x p v : Nat) : (w.ev u c n x p v).mem = w.mem := W.mem_of_bare (W.ev_bare ..)
@[simp] theorem W.ev_fuse (w : W) (u c n x p v : Nat) : (w.ev u c n x p v).fuse = w.fuse := W.fuse_of_bare (W.ev_bare ..)
@[simp] theorem W.ev_net (w : W) (u c n x p v : Nat) : (w.ev u c n x p v).net = w.net := W.net_of_bare (W.ev_bare ..)
@[simp] theorem W.ev_sta (w : W) (u c n x p v : Nat) : (w.ev u c n x p v).sta = w.sta := W.sta_of_bare (W.ev_bare ..)
@[simp] theorem W.ev_msp (w : W) (u c n x p v : Nat) : (w.ev u c n x p v).msp = w.msp := W.msp_of_bare (W.ev_bare ..)
@[simp] theorem W.ev_flt (w : W) (u c n x p v : Nat) : (w.ev u c n x p v).flt = w.flt := W.flt_of_bare (W.ev_bare ..)
@[simp] theorem W.ev_plt (w : W) (u c n x p v : Nat) : (w.ev u c n x p v).plt = w.plt := W.plt_of_bare (W.ev_bare ..)
@[simp] theorem W.ev_sch (w : W) (u c n x p v : Nat) : (w.ev u c n x p v).sch = w.sch := W.sch_of_bare (W.ev_bare ..)
@[simp] theorem W.ev_col (w : W) (u c n x p v : Nat) : (w.ev u c n x p v).col = w.col := W.col_of_bare (W.ev_bare ..)
@[simp] theorem W.ev_ep (w : W) (u c n x p v : Nat) : (w.ev u c n x p v).ep = w.ep := W.ep_of_bare (W.ev_bare ..)
@[simp] theorem W.ev_cx (w : W) (u c n x p v : Nat) : (w.ev u c n x p v).cx = w.cx := W.cx_of_bare (W.ev_bare ..)
@[simp] theorem W.ev_boot (w : W) (u c n x p v : Nat) : (w.ev u c n x p v).boot = w.boot := W.boot_of_bare (W.ev_bare ..)
@[simp] theorem W.ev_ctxFence (w : W) (u c n x p v : Nat) : (w.ev u c n x p v).ctxFence = w.ctxFence := W.ctxFence_of_bare (W.ev_bare ..)
@[simp] theorem W.ev_fenceOver (w : W) (u c n x p v : Nat) : (w.ev u c n x p v).fenceOver = w.fenceOver := W.fenceOver_of_bare (W.ev_bare ..)
@[simp] theorem W.ev_stores (w : W) (u c n x p v : Nat) : (w.ev u c n x p v).stores = w.stores := W.stores_of_bare (W.ev_bare ..)

@[simp] theorem W.sample_pending (w : W) (k v c : Nat) : (w.sample k v c).pending = w.pending := W.pending_of_bare (W.sample_bare ..)
@[simp] theorem W.sample_fc (w : W) (k v c : Nat) : (w.sample k v c).fc = w.fc := W.fc_of_bare (W.sample_bare ..)
@[simp] theorem W.sample_herdTime (w : W) (k v c : Nat) : (w.sample k v c).herdTime = w.herdTime := W.herdTime_of_bare (W.sample_bare ..)
@[simp] theorem W.sample_plateTime (w : W) (k v c : Nat) : (w.sample k v c).plateTime = w.plateTime := W.plateTime_of_bare (W.sample_bare ..)
@[simp] theorem W.sample_freeCtr (w : W) (k v c : Nat) : (w.sample k v c).freeCtr = w.freeCtr := W.freeCtr_of_bare (W.sample_bare ..)
@[simp] theorem W.sample_mem (w : W) (k v c : Nat) : (w.sample k v c).mem = w.mem := W.mem_of_bare (W.sample_bare ..)
@[simp] theorem W.sample_fuse (w : W) (k v c : Nat) : (w.sample k v c).fuse = w.fuse := W.fuse_of_bare (W.sample_bare ..)
@[simp] theorem W.sample_net (w : W) (k v c : Nat) : (w.sample k v c).net = w.net := W.net_of_bare (W.sample_bare ..)
@[simp] theorem W.sample_sta (w : W) (k v c : Nat) : (w.sample k v c).sta = w.sta := W.sta_of_bare (W.sample_bare ..)
@[simp] theorem W.sample_msp (w : W) (k v c : Nat) : (w.sample k v c).msp = w.msp := W.msp_of_bare (W.sample_bare ..)
@[simp] theorem W.sample_flt (w : W) (k v c : Nat) : (w.sample k v c).flt = w.flt := W.flt_of_bare (W.sample_bare ..)
@[simp] theorem W.sample_plt (w : W) (k v c : Nat) : (w.sample k v c).plt = w.plt := W.plt_of_bare (W.sample_bare ..)
@[simp] theorem W.sample_sch (w : W) (k v c : Nat) : (w.sample k v c).sch = w.sch := W.sch_of_bare (W.sample_bare ..)
@[simp] theorem W.sample_col (w : W) (k v c : Nat) : (w.sample k v c).col = w.col := W.col_of_bare (W.sample_bare ..)
@[simp] theorem W.sample_ep (w : W) (k v c : Nat) : (w.sample k v c).ep = w.ep := W.ep_of_bare (W.sample_bare ..)
@[simp] theorem W.sample_cx (w : W) (k v c : Nat) : (w.sample k v c).cx = w.cx := W.cx_of_bare (W.sample_bare ..)
@[simp] theorem W.sample_boot (w : W) (k v c : Nat) : (w.sample k v c).boot = w.boot := W.boot_of_bare (W.sample_bare ..)
@[simp] theorem W.sample_ctxFence (w : W) (k v c : Nat) : (w.sample k v c).ctxFence = w.ctxFence := W.ctxFence_of_bare (W.sample_bare ..)
@[simp] theorem W.sample_fenceOver (w : W) (k v c : Nat) : (w.sample k v c).fenceOver = w.fenceOver := W.fenceOver_of_bare (W.sample_bare ..)
@[simp] theorem W.sample_stores (w : W) (k v c : Nat) : (w.sample k v c).stores = w.stores := W.stores_of_bare (W.sample_bare ..)

@[simp] theorem W.traceCmd_pending (w : W) (e o t s q : Nat) : (w.traceCmd e o t s q).pending = w.pending := W.pending_of_bare (W.traceCmd_bare ..)
@[simp] theorem W.traceCmd_fc (w : W) (e o t s q : Nat) : (w.traceCmd e o t s q).fc = w.fc := W.fc_of_bare (W.traceCmd_bare ..)
@[simp] theorem W.traceCmd_herdTime (w : W) (e o t s q : Nat) : (w.traceCmd e o t s q).herdTime = w.herdTime := W.herdTime_of_bare (W.traceCmd_bare ..)
@[simp] theorem W.traceCmd_plateTime (w : W) (e o t s q : Nat) : (w.traceCmd e o t s q).plateTime = w.plateTime := W.plateTime_of_bare (W.traceCmd_bare ..)
@[simp] theorem W.traceCmd_freeCtr (w : W) (e o t s q : Nat) : (w.traceCmd e o t s q).freeCtr = w.freeCtr := W.freeCtr_of_bare (W.traceCmd_bare ..)
@[simp] theorem W.traceCmd_mem (w : W) (e o t s q : Nat) : (w.traceCmd e o t s q).mem = w.mem := W.mem_of_bare (W.traceCmd_bare ..)
@[simp] theorem W.traceCmd_fuse (w : W) (e o t s q : Nat) : (w.traceCmd e o t s q).fuse = w.fuse := W.fuse_of_bare (W.traceCmd_bare ..)
@[simp] theorem W.traceCmd_net (w : W) (e o t s q : Nat) : (w.traceCmd e o t s q).net = w.net := W.net_of_bare (W.traceCmd_bare ..)
@[simp] theorem W.traceCmd_sta (w : W) (e o t s q : Nat) : (w.traceCmd e o t s q).sta = w.sta := W.sta_of_bare (W.traceCmd_bare ..)
@[simp] theorem W.traceCmd_msp (w : W) (e o t s q : Nat) : (w.traceCmd e o t s q).msp = w.msp := W.msp_of_bare (W.traceCmd_bare ..)
@[simp] theorem W.traceCmd_flt (w : W) (e o t s q : Nat) : (w.traceCmd e o t s q).flt = w.flt := W.flt_of_bare (W.traceCmd_bare ..)
@[simp] theorem W.traceCmd_plt (w : W) (e o t s q : Nat) : (w.traceCmd e o t s q).plt = w.plt := W.plt_of_bare (W.traceCmd_bare ..)
@[simp] theorem W.traceCmd_sch (w : W) (e o t s q : Nat) : (w.traceCmd e o t s q).sch = w.sch := W.sch_of_bare (W.traceCmd_bare ..)
@[simp] theorem W.traceCmd_col (w : W) (e o t s q : Nat) : (w.traceCmd e o t s q).col = w.col := W.col_of_bare (W.traceCmd_bare ..)
@[simp] theorem W.traceCmd_ep (w : W) (e o t s q : Nat) : (w.traceCmd e o t s q).ep = w.ep := W.ep_of_bare (W.traceCmd_bare ..)
@[simp] theorem W.traceCmd_cx (w : W) (e o t s q : Nat) : (w.traceCmd e o t s q).cx = w.cx := W.cx_of_bare (W.traceCmd_bare ..)
@[simp] theorem W.traceCmd_boot (w : W) (e o t s q : Nat) : (w.traceCmd e o t s q).boot = w.boot := W.boot_of_bare (W.traceCmd_bare ..)
@[simp] theorem W.traceCmd_ctxFence (w : W) (e o t s q : Nat) : (w.traceCmd e o t s q).ctxFence = w.ctxFence := W.ctxFence_of_bare (W.traceCmd_bare ..)
@[simp] theorem W.traceCmd_fenceOver (w : W) (e o t s q : Nat) : (w.traceCmd e o t s q).fenceOver = w.fenceOver := W.fenceOver_of_bare (W.traceCmd_bare ..)
@[simp] theorem W.traceCmd_stores (w : W) (e o t s q : Nat) : (w.traceCmd e o t s q).stores = w.stores := W.stores_of_bare (W.traceCmd_bare ..)

@[simp] theorem W.tracePlt_pending (w : W) (e v i : Nat) : (w.tracePlt e v i).pending = w.pending := W.pending_of_bare (W.tracePlt_bare ..)
@[simp] theorem W.tracePlt_fc (w : W) (e v i : Nat) : (w.tracePlt e v i).fc = w.fc := W.fc_of_bare (W.tracePlt_bare ..)
@[simp] theorem W.tracePlt_herdTime (w : W) (e v i : Nat) : (w.tracePlt e v i).herdTime = w.herdTime := W.herdTime_of_bare (W.tracePlt_bare ..)
@[simp] theorem W.tracePlt_plateTime (w : W) (e v i : Nat) : (w.tracePlt e v i).plateTime = w.plateTime := W.plateTime_of_bare (W.tracePlt_bare ..)
@[simp] theorem W.tracePlt_freeCtr (w : W) (e v i : Nat) : (w.tracePlt e v i).freeCtr = w.freeCtr := W.freeCtr_of_bare (W.tracePlt_bare ..)
@[simp] theorem W.tracePlt_mem (w : W) (e v i : Nat) : (w.tracePlt e v i).mem = w.mem := W.mem_of_bare (W.tracePlt_bare ..)
@[simp] theorem W.tracePlt_fuse (w : W) (e v i : Nat) : (w.tracePlt e v i).fuse = w.fuse := W.fuse_of_bare (W.tracePlt_bare ..)
@[simp] theorem W.tracePlt_net (w : W) (e v i : Nat) : (w.tracePlt e v i).net = w.net := W.net_of_bare (W.tracePlt_bare ..)
@[simp] theorem W.tracePlt_sta (w : W) (e v i : Nat) : (w.tracePlt e v i).sta = w.sta := W.sta_of_bare (W.tracePlt_bare ..)
@[simp] theorem W.tracePlt_msp (w : W) (e v i : Nat) : (w.tracePlt e v i).msp = w.msp := W.msp_of_bare (W.tracePlt_bare ..)
@[simp] theorem W.tracePlt_flt (w : W) (e v i : Nat) : (w.tracePlt e v i).flt = w.flt := W.flt_of_bare (W.tracePlt_bare ..)
@[simp] theorem W.tracePlt_plt (w : W) (e v i : Nat) : (w.tracePlt e v i).plt = w.plt := W.plt_of_bare (W.tracePlt_bare ..)
@[simp] theorem W.tracePlt_sch (w : W) (e v i : Nat) : (w.tracePlt e v i).sch = w.sch := W.sch_of_bare (W.tracePlt_bare ..)
@[simp] theorem W.tracePlt_col (w : W) (e v i : Nat) : (w.tracePlt e v i).col = w.col := W.col_of_bare (W.tracePlt_bare ..)
@[simp] theorem W.tracePlt_ep (w : W) (e v i : Nat) : (w.tracePlt e v i).ep = w.ep := W.ep_of_bare (W.tracePlt_bare ..)
@[simp] theorem W.tracePlt_cx (w : W) (e v i : Nat) : (w.tracePlt e v i).cx = w.cx := W.cx_of_bare (W.tracePlt_bare ..)
@[simp] theorem W.tracePlt_boot (w : W) (e v i : Nat) : (w.tracePlt e v i).boot = w.boot := W.boot_of_bare (W.tracePlt_bare ..)
@[simp] theorem W.tracePlt_ctxFence (w : W) (e v i : Nat) : (w.tracePlt e v i).ctxFence = w.ctxFence := W.ctxFence_of_bare (W.tracePlt_bare ..)
@[simp] theorem W.tracePlt_fenceOver (w : W) (e v i : Nat) : (w.tracePlt e v i).fenceOver = w.fenceOver := W.fenceOver_of_bare (W.tracePlt_bare ..)
@[simp] theorem W.tracePlt_stores (w : W) (e v i : Nat) : (w.tracePlt e v i).stores = w.stores := W.stores_of_bare (W.tracePlt_bare ..)

@[simp] theorem W.traceEp_pending (w : W) (e v c p n : Nat) : (w.traceEp e v c p n).pending = w.pending := W.pending_of_bare (W.traceEp_bare ..)
@[simp] theorem W.traceEp_fc (w : W) (e v c p n : Nat) : (w.traceEp e v c p n).fc = w.fc := W.fc_of_bare (W.traceEp_bare ..)
@[simp] theorem W.traceEp_herdTime (w : W) (e v c p n : Nat) : (w.traceEp e v c p n).herdTime = w.herdTime := W.herdTime_of_bare (W.traceEp_bare ..)
@[simp] theorem W.traceEp_plateTime (w : W) (e v c p n : Nat) : (w.traceEp e v c p n).plateTime = w.plateTime := W.plateTime_of_bare (W.traceEp_bare ..)
@[simp] theorem W.traceEp_freeCtr (w : W) (e v c p n : Nat) : (w.traceEp e v c p n).freeCtr = w.freeCtr := W.freeCtr_of_bare (W.traceEp_bare ..)
@[simp] theorem W.traceEp_mem (w : W) (e v c p n : Nat) : (w.traceEp e v c p n).mem = w.mem := W.mem_of_bare (W.traceEp_bare ..)
@[simp] theorem W.traceEp_fuse (w : W) (e v c p n : Nat) : (w.traceEp e v c p n).fuse = w.fuse := W.fuse_of_bare (W.traceEp_bare ..)
@[simp] theorem W.traceEp_net (w : W) (e v c p n : Nat) : (w.traceEp e v c p n).net = w.net := W.net_of_bare (W.traceEp_bare ..)
@[simp] theorem W.traceEp_sta (w : W) (e v c p n : Nat) : (w.traceEp e v c p n).sta = w.sta := W.sta_of_bare (W.traceEp_bare ..)
@[simp] theorem W.traceEp_msp (w : W) (e v c p n : Nat) : (w.traceEp e v c p n).msp = w.msp := W.msp_of_bare (W.traceEp_bare ..)
@[simp] theorem W.traceEp_flt (w : W) (e v c p n : Nat) : (w.traceEp e v c p n).flt = w.flt := W.flt_of_bare (W.traceEp_bare ..)
@[simp] theorem W.traceEp_plt (w : W) (e v c p n : Nat) : (w.traceEp e v c p n).plt = w.plt := W.plt_of_bare (W.traceEp_bare ..)
@[simp] theorem W.traceEp_sch (w : W) (e v c p n : Nat) : (w.traceEp e v c p n).sch = w.sch := W.sch_of_bare (W.traceEp_bare ..)
@[simp] theorem W.traceEp_col (w : W) (e v c p n : Nat) : (w.traceEp e v c p n).col = w.col := W.col_of_bare (W.traceEp_bare ..)
@[simp] theorem W.traceEp_ep (w : W) (e v c p n : Nat) : (w.traceEp e v c p n).ep = w.ep := W.ep_of_bare (W.traceEp_bare ..)
@[simp] theorem W.traceEp_cx (w : W) (e v c p n : Nat) : (w.traceEp e v c p n).cx = w.cx := W.cx_of_bare (W.traceEp_bare ..)
@[simp] theorem W.traceEp_boot (w : W) (e v c p n : Nat) : (w.traceEp e v c p n).boot = w.boot := W.boot_of_bare (W.traceEp_bare ..)
@[simp] theorem W.traceEp_ctxFence (w : W) (e v c p n : Nat) : (w.traceEp e v c p n).ctxFence = w.ctxFence := W.ctxFence_of_bare (W.traceEp_bare ..)
@[simp] theorem W.traceEp_fenceOver (w : W) (e v c p n : Nat) : (w.traceEp e v c p n).fenceOver = w.fenceOver := W.fenceOver_of_bare (W.traceEp_bare ..)
@[simp] theorem W.traceEp_stores (w : W) (e v c p n : Nat) : (w.traceEp e v c p n).stores = w.stores := W.stores_of_bare (W.traceEp_bare ..)

@[simp] theorem W.traceFlt_pending (w : W) (l c : Nat) : (w.traceFlt l c).pending = w.pending := W.pending_of_bare (W.traceFlt_bare ..)
@[simp] theorem W.traceFlt_fc (w : W) (l c : Nat) : (w.traceFlt l c).fc = w.fc := W.fc_of_bare (W.traceFlt_bare ..)
@[simp] theorem W.traceFlt_herdTime (w : W) (l c : Nat) : (w.traceFlt l c).herdTime = w.herdTime := W.herdTime_of_bare (W.traceFlt_bare ..)
@[simp] theorem W.traceFlt_plateTime (w : W) (l c : Nat) : (w.traceFlt l c).plateTime = w.plateTime := W.plateTime_of_bare (W.traceFlt_bare ..)
@[simp] theorem W.traceFlt_freeCtr (w : W) (l c : Nat) : (w.traceFlt l c).freeCtr = w.freeCtr := W.freeCtr_of_bare (W.traceFlt_bare ..)
@[simp] theorem W.traceFlt_mem (w : W) (l c : Nat) : (w.traceFlt l c).mem = w.mem := W.mem_of_bare (W.traceFlt_bare ..)
@[simp] theorem W.traceFlt_fuse (w : W) (l c : Nat) : (w.traceFlt l c).fuse = w.fuse := W.fuse_of_bare (W.traceFlt_bare ..)
@[simp] theorem W.traceFlt_net (w : W) (l c : Nat) : (w.traceFlt l c).net = w.net := W.net_of_bare (W.traceFlt_bare ..)
@[simp] theorem W.traceFlt_sta (w : W) (l c : Nat) : (w.traceFlt l c).sta = w.sta := W.sta_of_bare (W.traceFlt_bare ..)
@[simp] theorem W.traceFlt_msp (w : W) (l c : Nat) : (w.traceFlt l c).msp = w.msp := W.msp_of_bare (W.traceFlt_bare ..)
@[simp] theorem W.traceFlt_flt (w : W) (l c : Nat) : (w.traceFlt l c).flt = w.flt := W.flt_of_bare (W.traceFlt_bare ..)
@[simp] theorem W.traceFlt_plt (w : W) (l c : Nat) : (w.traceFlt l c).plt = w.plt := W.plt_of_bare (W.traceFlt_bare ..)
@[simp] theorem W.traceFlt_sch (w : W) (l c : Nat) : (w.traceFlt l c).sch = w.sch := W.sch_of_bare (W.traceFlt_bare ..)
@[simp] theorem W.traceFlt_col (w : W) (l c : Nat) : (w.traceFlt l c).col = w.col := W.col_of_bare (W.traceFlt_bare ..)
@[simp] theorem W.traceFlt_ep (w : W) (l c : Nat) : (w.traceFlt l c).ep = w.ep := W.ep_of_bare (W.traceFlt_bare ..)
@[simp] theorem W.traceFlt_cx (w : W) (l c : Nat) : (w.traceFlt l c).cx = w.cx := W.cx_of_bare (W.traceFlt_bare ..)
@[simp] theorem W.traceFlt_boot (w : W) (l c : Nat) : (w.traceFlt l c).boot = w.boot := W.boot_of_bare (W.traceFlt_bare ..)
@[simp] theorem W.traceFlt_ctxFence (w : W) (l c : Nat) : (w.traceFlt l c).ctxFence = w.ctxFence := W.ctxFence_of_bare (W.traceFlt_bare ..)
@[simp] theorem W.traceFlt_fenceOver (w : W) (l c : Nat) : (w.traceFlt l c).fenceOver = w.fenceOver := W.fenceOver_of_bare (W.traceFlt_bare ..)
@[simp] theorem W.traceFlt_stores (w : W) (l c : Nat) : (w.traceFlt l c).stores = w.stores := W.stores_of_bare (W.traceFlt_bare ..)

@[simp] theorem W.sticky_pending (w : W) (g b : Nat) : (w.sticky g b).pending = w.pending := W.pending_of_bare (W.sticky_bare ..)
@[simp] theorem W.sticky_fc (w : W) (g b : Nat) : (w.sticky g b).fc = w.fc := W.fc_of_bare (W.sticky_bare ..)
@[simp] theorem W.sticky_herdTime (w : W) (g b : Nat) : (w.sticky g b).herdTime = w.herdTime := W.herdTime_of_bare (W.sticky_bare ..)
@[simp] theorem W.sticky_plateTime (w : W) (g b : Nat) : (w.sticky g b).plateTime = w.plateTime := W.plateTime_of_bare (W.sticky_bare ..)
@[simp] theorem W.sticky_freeCtr (w : W) (g b : Nat) : (w.sticky g b).freeCtr = w.freeCtr := W.freeCtr_of_bare (W.sticky_bare ..)
@[simp] theorem W.sticky_mem (w : W) (g b : Nat) : (w.sticky g b).mem = w.mem := W.mem_of_bare (W.sticky_bare ..)
@[simp] theorem W.sticky_fuse (w : W) (g b : Nat) : (w.sticky g b).fuse = w.fuse := W.fuse_of_bare (W.sticky_bare ..)
@[simp] theorem W.sticky_net (w : W) (g b : Nat) : (w.sticky g b).net = w.net := W.net_of_bare (W.sticky_bare ..)
@[simp] theorem W.sticky_sta (w : W) (g b : Nat) : (w.sticky g b).sta = w.sta := W.sta_of_bare (W.sticky_bare ..)
@[simp] theorem W.sticky_msp (w : W) (g b : Nat) : (w.sticky g b).msp = w.msp := W.msp_of_bare (W.sticky_bare ..)
@[simp] theorem W.sticky_flt (w : W) (g b : Nat) : (w.sticky g b).flt = w.flt := W.flt_of_bare (W.sticky_bare ..)
@[simp] theorem W.sticky_plt (w : W) (g b : Nat) : (w.sticky g b).plt = w.plt := W.plt_of_bare (W.sticky_bare ..)
@[simp] theorem W.sticky_sch (w : W) (g b : Nat) : (w.sticky g b).sch = w.sch := W.sch_of_bare (W.sticky_bare ..)
@[simp] theorem W.sticky_col (w : W) (g b : Nat) : (w.sticky g b).col = w.col := W.col_of_bare (W.sticky_bare ..)
@[simp] theorem W.sticky_ep (w : W) (g b : Nat) : (w.sticky g b).ep = w.ep := W.ep_of_bare (W.sticky_bare ..)
@[simp] theorem W.sticky_cx (w : W) (g b : Nat) : (w.sticky g b).cx = w.cx := W.cx_of_bare (W.sticky_bare ..)
@[simp] theorem W.sticky_boot (w : W) (g b : Nat) : (w.sticky g b).boot = w.boot := W.boot_of_bare (W.sticky_bare ..)
@[simp] theorem W.sticky_ctxFence (w : W) (g b : Nat) : (w.sticky g b).ctxFence = w.ctxFence := W.ctxFence_of_bare (W.sticky_bare ..)
@[simp] theorem W.sticky_fenceOver (w : W) (g b : Nat) : (w.sticky g b).fenceOver = w.fenceOver := W.fenceOver_of_bare (W.sticky_bare ..)
@[simp] theorem W.sticky_stores (w : W) (g b : Nat) : (w.sticky g b).stores = w.stores := W.stores_of_bare (W.sticky_bare ..)

@[simp] theorem W.setClass_pending (w : W) (c : Nat) : (w.setClass c).pending = w.pending := W.pending_of_bareF (W.setClass_bareF ..)
@[simp] theorem W.setClass_fc (w : W) (c : Nat) : (w.setClass c).fc = w.fc := W.fc_of_bareF (W.setClass_bareF ..)
@[simp] theorem W.setClass_herdTime (w : W) (c : Nat) : (w.setClass c).herdTime = w.herdTime := W.herdTime_of_bareF (W.setClass_bareF ..)
@[simp] theorem W.setClass_plateTime (w : W) (c : Nat) : (w.setClass c).plateTime = w.plateTime := W.plateTime_of_bareF (W.setClass_bareF ..)
@[simp] theorem W.setClass_freeCtr (w : W) (c : Nat) : (w.setClass c).freeCtr = w.freeCtr := W.freeCtr_of_bareF (W.setClass_bareF ..)
@[simp] theorem W.setClass_mem (w : W) (c : Nat) : (w.setClass c).mem = w.mem := W.mem_of_bareF (W.setClass_bareF ..)
@[simp] theorem W.setClass_fuse (w : W) (c : Nat) : (w.setClass c).fuse = w.fuse := W.fuse_of_bareF (W.setClass_bareF ..)
@[simp] theorem W.setClass_net (w : W) (c : Nat) : (w.setClass c).net = w.net := W.net_of_bareF (W.setClass_bareF ..)
@[simp] theorem W.setClass_sta (w : W) (c : Nat) : (w.setClass c).sta = w.sta := W.sta_of_bareF (W.setClass_bareF ..)
@[simp] theorem W.setClass_msp (w : W) (c : Nat) : (w.setClass c).msp = w.msp := W.msp_of_bareF (W.setClass_bareF ..)
@[simp] theorem W.setClass_plt (w : W) (c : Nat) : (w.setClass c).plt = w.plt := W.plt_of_bareF (W.setClass_bareF ..)
@[simp] theorem W.setClass_sch (w : W) (c : Nat) : (w.setClass c).sch = w.sch := W.sch_of_bareF (W.setClass_bareF ..)
@[simp] theorem W.setClass_col (w : W) (c : Nat) : (w.setClass c).col = w.col := W.col_of_bareF (W.setClass_bareF ..)
@[simp] theorem W.setClass_ep (w : W) (c : Nat) : (w.setClass c).ep = w.ep := W.ep_of_bareF (W.setClass_bareF ..)
@[simp] theorem W.setClass_cx (w : W) (c : Nat) : (w.setClass c).cx = w.cx := W.cx_of_bareF (W.setClass_bareF ..)
@[simp] theorem W.setClass_boot (w : W) (c : Nat) : (w.setClass c).boot = w.boot := W.boot_of_bareF (W.setClass_bareF ..)
@[simp] theorem W.setClass_ctxFence (w : W) (c : Nat) : (w.setClass c).ctxFence = w.ctxFence := W.ctxFence_of_bareF (W.setClass_bareF ..)
@[simp] theorem W.setClass_fenceOver (w : W) (c : Nat) : (w.setClass c).fenceOver = w.fenceOver := W.fenceOver_of_bareF (W.setClass_bareF ..)
@[simp] theorem W.setClass_stores (w : W) (c : Nat) : (w.setClass c).stores = w.stores := W.stores_of_bareF (W.setClass_bareF ..)

@[simp] theorem W.fault_pending (w : W) (c l : Nat) : (w.fault c l).pending = w.pending := W.pending_of_bareF (W.fault_bareF ..)
@[simp] theorem W.fault_fc (w : W) (c l : Nat) : (w.fault c l).fc = w.fc := W.fc_of_bareF (W.fault_bareF ..)
@[simp] theorem W.fault_herdTime (w : W) (c l : Nat) : (w.fault c l).herdTime = w.herdTime := W.herdTime_of_bareF (W.fault_bareF ..)
@[simp] theorem W.fault_plateTime (w : W) (c l : Nat) : (w.fault c l).plateTime = w.plateTime := W.plateTime_of_bareF (W.fault_bareF ..)
@[simp] theorem W.fault_freeCtr (w : W) (c l : Nat) : (w.fault c l).freeCtr = w.freeCtr := W.freeCtr_of_bareF (W.fault_bareF ..)
@[simp] theorem W.fault_mem (w : W) (c l : Nat) : (w.fault c l).mem = w.mem := W.mem_of_bareF (W.fault_bareF ..)
@[simp] theorem W.fault_fuse (w : W) (c l : Nat) : (w.fault c l).fuse = w.fuse := W.fuse_of_bareF (W.fault_bareF ..)
@[simp] theorem W.fault_net (w : W) (c l : Nat) : (w.fault c l).net = w.net := W.net_of_bareF (W.fault_bareF ..)
@[simp] theorem W.fault_sta (w : W) (c l : Nat) : (w.fault c l).sta = w.sta := W.sta_of_bareF (W.fault_bareF ..)
@[simp] theorem W.fault_msp (w : W) (c l : Nat) : (w.fault c l).msp = w.msp := W.msp_of_bareF (W.fault_bareF ..)
@[simp] theorem W.fault_plt (w : W) (c l : Nat) : (w.fault c l).plt = w.plt := W.plt_of_bareF (W.fault_bareF ..)
@[simp] theorem W.fault_sch (w : W) (c l : Nat) : (w.fault c l).sch = w.sch := W.sch_of_bareF (W.fault_bareF ..)
@[simp] theorem W.fault_col (w : W) (c l : Nat) : (w.fault c l).col = w.col := W.col_of_bareF (W.fault_bareF ..)
@[simp] theorem W.fault_ep (w : W) (c l : Nat) : (w.fault c l).ep = w.ep := W.ep_of_bareF (W.fault_bareF ..)
@[simp] theorem W.fault_cx (w : W) (c l : Nat) : (w.fault c l).cx = w.cx := W.cx_of_bareF (W.fault_bareF ..)
@[simp] theorem W.fault_boot (w : W) (c l : Nat) : (w.fault c l).boot = w.boot := W.boot_of_bareF (W.fault_bareF ..)
@[simp] theorem W.fault_ctxFence (w : W) (c l : Nat) : (w.fault c l).ctxFence = w.ctxFence := W.ctxFence_of_bareF (W.fault_bareF ..)
@[simp] theorem W.fault_fenceOver (w : W) (c l : Nat) : (w.fault c l).fenceOver = w.fenceOver := W.fenceOver_of_bareF (W.fault_bareF ..)
@[simp] theorem W.fault_stores (w : W) (c l : Nat) : (w.fault c l).stores = w.stores := W.stores_of_bareF (W.fault_bareF ..)

end Sys2Proof.Machine
end

