-- ==== Sys2Proof/Laws/Regs.lean ====
section
/-! SUPPORT. Which register fields the reports of events can change, and what every other field then reads as. -/

namespace Sys2Proof.Machine

@[simp] theorem W.irq1_regs (w : W) (k n : Nat) : (w.irq1 k n).regs = w.regs := by
  unfold W.irq1
  split <;> rfl
@[simp] theorem W.irqB_regs (w : W) (st n : Nat) : (w.irqB st n).regs = w.regs := W.irq1_regs ..
@[simp] theorem W.irqR_regs (w : W) (p n : Nat) : (w.irqR p n).regs = w.regs := W.irq1_regs ..
@[simp] theorem W.irqP_regs (w : W) (n : Nat) : (w.irqP n).regs = w.regs := W.irq1_regs ..

/-- Reading a field depends on the register file alone. -/
theorem State.rd_congr {v w : State} (h : v.regs = w.regs) (c : Nat) (g : Fld) (j : Nat) : v.rd c g j = w.rd c g j := by
  simp [State.rd, h]

@[simp] theorem W.irqB_rd (w : W) (st n c : Nat) (g : Fld) (j : Nat) : (w.irqB st n).rd c g j = w.rd c g j :=
  State.rd_congr (W.irqB_regs ..) ..
@[simp] theorem W.irqR_rd (w : W) (p n c : Nat) (g : Fld) (j : Nat) : (w.irqR p n).rd c g j = w.rd c g j :=
  State.rd_congr (W.irqR_regs ..) ..
@[simp] theorem W.irqP_rd (w : W) (n c : Nat) (g : Fld) (j : Nat) : (w.irqP n).rd c g j = w.rd c g j :=
  State.rd_congr (W.irqP_regs ..) ..

/-- The field is no register of a trace buffer. -/
def offTrace (c : Nat) (g : Fld) : Prop := g.lsb < 32 ∧ (c + g.off < 0x500200 ∨ 0x500400 ≤ c + g.off)

theorem W.trcPush_rd (w : W) (b : Nat) (r : TrcRec) (hb : b < 16) (c : Nat) (g : Fld) (j : Nat) (h : offTrace c g) :
    (w.trcPush b r).rd c g j = w.rd c g j := by
  have k (f : Fld) (hf : f.lsb < 32) (h1 : 0x200 ≤ f.off) (h2 : f.off + f.stride * b < 0x400) (v : W) (x : Nat) :
      (v.wr obsB (f.at b) x).rd c g j = v.rd c g j := by
    apply W.rd_wr_ne
    obtain ⟨h3, h4⟩ := h
    simp only [Fld.key, Fld.at]
    unfold obsB
    omega
  have k1 (v : W) (x : Nat) := k KOBS_TRC_STAT.tstate (by decide) (by decide) (by simp only [KOBS_TRC_STAT.tstate]; omega) v x
  have k2 (v : W) (x : Nat) := k KOBS_TRC_TSTAMP_LO.tstamp (by decide) (by decide) (by simp only [KOBS_TRC_TSTAMP_LO.tstamp]; omega) v x
  have k3 (v : W) (x : Nat) := k KOBS_TRC_TSTAMP_HI.tstamp (by decide) (by decide) (by simp only [KOBS_TRC_TSTAMP_HI.tstamp]; omega) v x
  have k4 (v : W) (x : Nat) := k KOBS_TRC_STAT.tcount (by decide) (by decide) (by simp only [KOBS_TRC_STAT.tcount]; omega) v x
  have k5 (v : W) (x : Nat) := k KOBS_TRC_STAT.trc_lost (by decide) (by decide) (by simp only [KOBS_TRC_STAT.trc_lost]; omega) v x
  have k6 (v : W) (x : Nat) (o : Obs) : ({ (v.wr obsB (KOBS_TRC_STAT.tcount.at b) x) with obs := o } : W).rd c g j = v.rd c g j :=
    (State.rd_congr rfl c g j).trans (k4 v x)
  have k7 (v : W) (x : Nat) : (v.trcStamp b x).rd c g j = v.rd c g j := by
    unfold W.trcStamp
    rw [W.irqP_rd, k3, k2]
  unfold W.trcPush
  dsimp only
  split
  · split
    · exact k7 ..
    · rfl
  · split
    · refine (State.rd_congr ?_ c g j).trans (k5 w (satAdd KOBS_TRC_STAT.trc_lost.width (w.rd obsB (KOBS_TRC_STAT.trc_lost.at b)) 1))
      rfl
    · split
      · split
        · rw [k7, k1]
        · rfl
      · rw [k6]
        split
        · rw [k7, k1]
        · rfl

theorem W.trace_rd (w : W) (kind ev ctx : Nat) (p : List Byte) (on : Nat → Nat → Nat → Nat → Bool) (c : Nat) (g : Fld) (j : Nat)
    (h : offTrace c g) : (w.trace kind ev ctx p on).rd c g j = w.rd c g j := by
  unfold W.trace
  refine W.each_inv (fun v => v.rd c g j = w.rd c g j) _ _ w rfl (fun v a ha hv => ?_)
  dsimp only
  split
  · exact (W.trcPush_rd v a _ (List.mem_range.mp ha) c g j h).trans hv
  · exact hv

theorem W.traceCmd_rd (w : W) (e o t s q c : Nat) (g : Fld) (j : Nat) (h : offTrace c g) :
    (w.traceCmd e o t s q).rd c g j = w.rd c g j := W.trace_rd _ _ _ _ _ _ _ _ _ h
theorem W.tracePlt_rd (w : W) (e v i c : Nat) (g : Fld) (j : Nat) (h : offTrace c g) :
    (w.tracePlt e v i).rd c g j = w.rd c g j := W.trace_rd _ _ _ _ _ _ _ _ _ h
theorem W.traceEp_rd (w : W) (e v x p n c : Nat) (g : Fld) (j : Nat) (h : offTrace c g) :
    (w.traceEp e v x p n).rd c g j = w.rd c g j := W.trace_rd _ _ _ _ _ _ _ _ _ h
theorem W.traceFlt_rd (w : W) (l k c : Nat) (g : Fld) (j : Nat) (h : offTrace c g) :
    (w.traceFlt l k).rd c g j = w.rd c g j := W.trace_rd _ _ _ _ _ _ _ _ _ h

/-- The field is no register of an event counter: its place in a window of 4 KiB lies outside theirs. -/
def offEvent (c : Nat) (g : Fld) : Prop := g.lsb < 32 ∧ ((c + g.off) % 4096 < 0xD10 ∨ 0xD50 ≤ (c + g.off) % 4096)

theorem unitB_page (u : Nat) : unitB u % 4096 = 0 := by
  unfold unitB rtrB stnB mspB epB
  split
  · omega
  · split
    · omega
    · split <;> omega

theorem W.ecAdd_rd (w : W) (b f k n : Nat) (hb : b % 4096 = 0) (hk : k < 4) (c : Nat) (g : Fld) (j : Nat) (h : offEvent c g) :
    (w.ecAdd b f k n).rd c g j = w.rd c g j := by
  have e (x : Fld) (hx : x.lsb < 32) (h1 : 0xD10 ≤ x.off) (h2 : x.off < 0xD50) (v : W) (y : Nat) :
      (v.wr b x y).rd c g j = v.rd c g j := by
    apply W.rd_wr_ne
    obtain ⟨h3, h4⟩ := h
    unfold Fld.key
    omega
  induction f generalizing w k n with
  | zero => rfl
  | succ f ih =>
    have a1 (y : Nat) (v : W) := e (K_ECNT.ecnt.at k) (by simp [Fld.at, K_ECNT.ecnt]) (by simp [Fld.at, K_ECNT.ecnt]; omega) (by simp [Fld.at, K_ECNT.ecnt]; omega) v y
    have a2 (v : W) : (v.flag b (K_EOVF.eovf.at k)).rd c g j = v.rd c g j := e (K_EOVF.eovf.at k) (by simp [Fld.at, K_EOVF.eovf]) (by simp [Fld.at, K_EOVF.eovf]; omega) (by simp [Fld.at, K_EOVF.eovf]; omega) v _
    unfold W.ecAdd
    dsimp only
    split
    · exact a1 _ _
    · split
      · rename_i hc
        rw [ih _ _ _ (by omega), a1]
      · rw [W.irqP_rd, a2, a1]

theorem W.ev_rd (w : W) (u code n ctx port vc c : Nat) (g : Fld) (j : Nat) (h : offEvent c g) :
    (w.ev u code n ctx port vc).rd c g j = w.rd c g j := by
  unfold W.ev
  refine W.each_inv (fun v => v.rd c g j = w.rd c g j) _ _ w rfl (fun v a ha hv => ?_)
  split
  · exact (W.ecAdd_rd v _ 4 a _ (unitB_page u) (List.mem_range.mp ha) c g j h).trans hv
  · exact hv

end Sys2Proof.Machine
end

