-- ==== Sys2Proof/Laws/Answer.lean ====
section
/-! SUPPORT. What ending a command does: its reply, its record, and what it leaves as it was. -/

namespace Sys2Proof.Machine

/-- A state without what the end of a command touches. -/
def W.bareB (w : W) : W := { w with regs := [], shadow := [], evNow := [], irq := {}, obs := {}, boot := {} }

theorem W.bareB_of {v w : W} (h : v.bare = w.bare) : v.bareB = w.bareB := by
  have e := congrArg (fun x : W => { x with boot := {} }) h
  exact e

/-- Writing a reply changes the command SRAM, and beside it reports alone. -/
theorem W.putReply_boot (w : W) (q sl : Nat) (r : List Byte) : (w.putReply q sl r).boot =
    { w.boot with csram := putBytes w.boot.csram (0x8000 + 0x1000 * q + 32 * (sl % 128)) (patch r 1 (toLE 1 (sl / 128))) } := by
  simp [W.putReply]

theorem W.putReply_bareB (w : W) (q sl : Nat) (r : List Byte) : (w.putReply q sl r).bareB = w.bareB := by
  unfold W.putReply
  dsimp only
  rw [W.bareB_of (W.irqP_bare ..), W.bareB_of (W.traceCmd_bare ..)]
  rfl

theorem W.each_putReply_boot (w : W) (q : Nat) (r : List Byte) (l : List Nat) :
    let b := (w.each l (fun w sl => w.putReply q sl r)).boot
    b.cmds = w.boot.cmds ∧ b.recsQ = w.boot.recsQ :=
  W.each_inv (fun v => v.boot.cmds = w.boot.cmds ∧ v.boot.recsQ = w.boot.recsQ) l _ w ⟨rfl, rfl⟩
    (fun v a _ h => by rw [W.putReply_boot]; exact h)

theorem W.replyTo_bareB (w : W) (q slot st stamp : Nat) (rd : List Byte) : (w.replyTo q slot st stamp rd).bareB = w.bareB := by
  unfold W.replyTo
  split
  · rfl
  · dsimp only
    refine W.each_inv (fun v => v.bareB = w.bareB) _ _ _ rfl (fun v a _ h => (W.putReply_bareB ..).trans h)

/-- While Miomus runs, the end of a command is its reply (R425). -/
theorem W.answerAt_up (w : W) (q slot st stamp : Nat) (rd : List Byte) (h : w.miomusUp = true) :
    w.answerAt q slot st stamp rd = w.replyTo q slot st stamp rd := by
  simp [W.answerAt, h]

theorem W.answerAt_bareB (w : W) (q slot st stamp : Nat) (rd : List Byte) : (w.answerAt q slot st stamp rd).bareB = w.bareB := by
  unfold W.answerAt
  split
  · exact W.replyTo_bareB ..
  · split <;> rfl

theorem W.answer_bareB (w : W) (q slot st : Nat) (rd : List Byte) : (w.answer q slot st rd).bareB = w.bareB := W.answerAt_bareB ..

/-- What the end of a command does to commands and records. -/
theorem W.answerAt_boot (w : W) (q slot st stamp : Nat) (rd : List Byte) (c : Cmd) (h : w.cmdOf q slot = some c)
    (up : w.miomusUp = true) :
    let t := w.answerAt q slot st stamp rd
    let mine (x : CmdRec) : Bool := x.tag == c.tag && x.opcode == c.op && x.reply.isNone
    t.boot.cmds = w.boot.cmds.erase c
    ∧ t.recsOf q = (w.recsOf q).map (fun x =>
        if mine x then { x with reply := some (replyBytes st 0 c.op c.tag stamp rd), slots := [] } else x) := by
  simp only [W.answerAt_up _ _ _ _ _ _ up, W.replyTo, h]
  have e := fun (v : W) (r : List Byte) (l : List Nat) => W.each_putReply_boot v q r l
  refine ⟨(e _ _ _).1, ?_⟩
  unfold State.recsOf
  rw [(e _ _ _).2]
  simp

/-- A command that is answered in a state with the commands, records and herd time of `s`, Miomus running, is `Answered`. -/
theorem answered_of (s : State) (w : W) (q slot st : Nat) (rd : List Byte) (c : Cmd) (hc : s.cmdOf q slot = some c)
    (up : s.miomusUp = true) (hb : w.boot = s.boot) (ht : w.herdTime = s.herdTime) : Answered s (w.answer q slot st rd).toState q c st rd := by
  have h : w.cmdOf q slot = some c := by simpa [State.cmdOf, hb] using hc
  have u : w.miomusUp = true := by simpa [State.miomusUp, hb] using up
  obtain ⟨h1, h2⟩ := W.answerAt_boot w q slot st w.herdTime rd c h u
  refine ⟨by rw [W.answer, h1, hb], ?_⟩
  intro r hr h3 h4 h5
  rw [W.answer, h2]
  refine List.mem_map.mpr ⟨r, by simpa [State.recsOf, hb] using hr, ?_⟩
  simp [h3, h4, h5, ht]

/-- `Answered` looks at commands and records alone. -/
theorem Answered.congr {s t u : State} {q : Nat} {c : Cmd} {st : Nat} {rd : List Byte} (h : Answered s t q c st rd)
    (e : u.boot = t.boot) : Answered s u q c st rd := by
  unfold Answered at *
  simpa [State.recsOf, e] using h

/-! ### The fields that the end of a command leaves -/

theorem W.pending_of_bareB {v w : W} (h : v.bareB = w.bareB) : v.pending = w.pending := by have e := congrArg (fun x : W => x.pending) h; exact e
theorem W.fc_of_bareB {v w : W} (h : v.bareB = w.bareB) : v.fc = w.fc := by have e := congrArg (fun x : W => x.fc) h; exact e
theorem W.herdTime_of_bareB {v w : W} (h : v.bareB = w.bareB) : v.herdTime = w.herdTime := by have e := congrArg (fun x : W => x.herdTime) h; exact e
theorem W.plateTime_of_bareB {v w : W} (h : v.bareB = w.bareB) : v.plateTime = w.plateTime := by have e := congrArg (fun x : W => x.plateTime) h; exact e
theorem W.freeCtr_of_bareB {v w : W} (h : v.bareB = w.bareB) : v.freeCtr = w.freeCtr := by have e := congrArg (fun x : W => x.freeCtr) h; exact e
theorem W.mem_of_bareB {v w : W} (h : v.bareB = w.bareB) : v.mem = w.mem := by have e := congrArg (fun x : W => x.mem) h; exact e
theorem W.fuse_of_bareB {v w : W} (h : v.bareB = w.bareB) : v.fuse = w.fuse := by have e := congrArg (fun x : W => x.fuse) h; exact e
theorem W.net_of_bareB {v w : W} (h : v.bareB = w.bareB) : v.net = w.net := by have e := congrArg (fun x : W => x.net) h; exact e
theorem W.sta_of_bareB {v w : W} (h : v.bareB = w.bareB) : v.sta = w.sta := by have e := congrArg (fun x : W => x.sta) h; exact e
theorem W.msp_of_bareB {v w : W} (h : v.bareB = w.bareB) : v.msp = w.msp := by have e := congrArg (fun x : W => x.msp) h; exact e
theorem W.flt_of_bareB {v w : W} (h : v.bareB = w.bareB) : v.flt = w.flt := by have e := congrArg (fun x : W => x.flt) h; exact e
theorem W.plt_of_bareB {v w : W} (h : v.bareB = w.bareB) : v.plt = w.plt := by have e := congrArg (fun x : W => x.plt) h; exact e
theorem W.sch_of_bareB {v w : W} (h : v.bareB = w.bareB) : v.sch = w.sch := by have e := congrArg (fun x : W => x.sch) h; exact e
theorem W.col_of_bareB {v w : W} (h : v.bareB = w.bareB) : v.col = w.col := by have e := congrArg (fun x : W => x.col) h; exact e
theorem W.ep_of_bareB {v w : W} (h : v.bareB = w.bareB) : v.ep = w.ep := by have e := congrArg (fun x : W => x.ep) h; exact e
theorem W.cx_of_bareB {v w : W} (h : v.bareB = w.bareB) : v.cx = w.cx := by have e := congrArg (fun x : W => x.cx) h; exact e
theorem W.ctxFence_of_bareB {v w : W} (h : v.bareB = w.bareB) : v.ctxFence = w.ctxFence := by have e := congrArg (fun x : W => x.ctxFence) h; exact e
theorem W.fenceOver_of_bareB {v w : W} (h : v.bareB = w.bareB) : v.fenceOver = w.fenceOver := by have e := congrArg (fun x : W => x.fenceOver) h; exact e
theorem W.stores_of_bareB {v w : W} (h : v.bareB = w.bareB) : v.stores = w.stores := by have e := congrArg (fun x : W => x.stores) h; exact e

@[simp] theorem W.putReply_pending (w : W) (q sl : Nat) (r : List Byte) : (w.putReply q sl r).pending = w.pending := W.pending_of_bareB (W.putReply_bareB ..)
@[simp] theorem W.putReply_fc (w : W) (q sl : Nat) (r : List Byte) : (w.putReply q sl r).fc = w.fc := W.fc_of_bareB (W.putReply_bareB ..)
@[simp] theorem W.putReply_herdTime (w : W) (q sl : Nat) (r : List Byte) : (w.putReply q sl r).herdTime = w.herdTime := W.herdTime_of_bareB (W.putReply_bareB ..)
@[simp] theorem W.putReply_plateTime (w : W) (q sl : Nat) (r : List Byte) : (w.putReply q sl r).plateTime = w.plateTime := W.plateTime_of_bareB (W.putReply_bareB ..)
@[simp] theorem W.putReply_freeCtr (w : W) (q sl : Nat) (r : List Byte) : (w.putReply q sl r).freeCtr = w.freeCtr := W.freeCtr_of_bareB (W.putReply_bareB ..)
@[simp] theorem W.putReply_mem (w : W) (q sl : Nat) (r : List Byte) : (w.putReply q sl r).mem = w.mem := W.mem_of_bareB (W.putReply_bareB ..)
@[simp] theorem W.putReply_fuse (w : W) (q sl : Nat) (r : List Byte) : (w.putReply q sl r).fuse = w.fuse := W.fuse_of_bareB (W.putReply_bareB ..)
@[simp] theorem W.putReply_net (w : W) (q sl : Nat) (r : List Byte) : (w.putReply q sl r).net = w.net := W.net_of_bareB (W.putReply_bareB ..)
@[simp] theorem W.putReply_sta (w : W) (q sl : Nat) (r : List Byte) : (w.putReply q sl r).sta = w.sta := W.sta_of_bareB (W.putReply_bareB ..)
@[simp] theorem W.putReply_msp (w : W) (q sl : Nat) (r : List Byte) : (w.putReply q sl r).msp = w.msp := W.msp_of_bareB (W.putReply_bareB ..)
@[simp] theorem W.putReply_flt (w : W) (q sl : Nat) (r : List Byte) : (w.putReply q sl r).flt = w.flt := W.flt_of_bareB (W.putReply_bareB ..)
@[simp] theorem W.putReply_plt (w : W) (q sl : Nat) (r : List Byte) : (w.putReply q sl r).plt = w.plt := W.plt_of_bareB (W.putReply_bareB ..)
@[simp] theorem W.putReply_sch (w : W) (q sl : Nat) (r : List Byte) : (w.putReply q sl r).sch = w.sch := W.sch_of_bareB (W.putReply_bareB ..)
@[simp] theorem W.putReply_col (w : W) (q sl : Nat) (r : List Byte) : (w.putReply q sl r).col = w.col := W.col_of_bareB (W.putReply_bareB ..)
@[simp] theorem W.putReply_ep (w : W) (q sl : Nat) (r : List Byte) : (w.putReply q sl r).ep = w.ep := W.ep_of_bareB (W.putReply_bareB ..)
@[simp] theorem W.putReply_cx (w : W) (q sl : Nat) (r : List Byte) : (w.putReply q sl r).cx = w.cx := W.cx_of_bareB (W.putReply_bareB ..)
@[simp] theorem W.putReply_ctxFence (w : W) (q sl : Nat) (r : List Byte) : (w.putReply q sl r).ctxFence = w.ctxFence := W.ctxFence_of_bareB (W.putReply_bareB ..)
@[simp] theorem W.putReply_fenceOver (w : W) (q sl : Nat) (r : List Byte) : (w.putReply q sl r).fenceOver = w.fenceOver := W.fenceOver_of_bareB (W.putReply_bareB ..)
@[simp] theorem W.putReply_stores (w : W) (q sl : Nat) (r : List Byte) : (w.putReply q sl r).stores = w.stores := W.stores_of_bareB (W.putReply_bareB ..)

@[simp] theorem W.answerAt_pending (w : W) (q l st p : Nat) (rd : List Byte) : (w.answerAt q l st p rd).pending = w.pending := W.pending_of_bareB (W.answerAt_bareB ..)
@[simp] theorem W.answerAt_fc (w : W) (q l st p : Nat) (rd : List Byte) : (w.answerAt q l st p rd).fc = w.fc := W.fc_of_bareB (W.answerAt_bareB ..)
@[simp] theorem W.answerAt_herdTime (w : W) (q l st p : Nat) (rd : List Byte) : (w.answerAt q l st p rd).herdTime = w.herdTime := W.herdTime_of_bareB (W.answerAt_bareB ..)
@[simp] theorem W.answerAt_plateTime (w : W) (q l st p : Nat) (rd : List Byte) : (w.answerAt q l st p rd).plateTime = w.plateTime := W.plateTime_of_bareB (W.answerAt_bareB ..)
@[simp] theorem W.answerAt_freeCtr (w : W) (q l st p : Nat) (rd : List Byte) : (w.answerAt q l st p rd).freeCtr = w.freeCtr := W.freeCtr_of_bareB (W.answerAt_bareB ..)
@[simp] theorem W.answerAt_mem (w : W) (q l st p : Nat) (rd : List Byte) : (w.answerAt q l st p rd).mem = w.mem := W.mem_of_bareB (W.answerAt_bareB ..)
@[simp] theorem W.answerAt_fuse (w : W) (q l st p : Nat) (rd : List Byte) : (w.answerAt q l st p rd).fuse = w.fuse := W.fuse_of_bareB (W.answerAt_bareB ..)
@[simp] theorem W.answerAt_net (w : W) (q l st p : Nat) (rd : List Byte) : (w.answerAt q l st p rd).net = w.net := W.net_of_bareB (W.answerAt_bareB ..)
@[simp] theorem W.answerAt_sta (w : W) (q l st p : Nat) (rd : List Byte) : (w.answerAt q l st p rd).sta = w.sta := W.sta_of_bareB (W.answerAt_bareB ..)
@[simp] theorem W.answerAt_msp (w : W) (q l st p : Nat) (rd : List Byte) : (w.answerAt q l st p rd).msp = w.msp := W.msp_of_bareB (W.answerAt_bareB ..)
@[simp] theorem W.answerAt_flt (w : W) (q l st p : Nat) (rd : List Byte) : (w.answerAt q l st p rd).flt = w.flt := W.flt_of_bareB (W.answerAt_bareB ..)
@[simp] theorem W.answerAt_plt (w : W) (q l st p : Nat) (rd : List Byte) : (w.answerAt q l st p rd).plt = w.plt := W.plt_of_bareB (W.answerAt_bareB ..)
@[simp] theorem W.answerAt_sch (w : W) (q l st p : Nat) (rd : List Byte) : (w.answerAt q l st p rd).sch = w.sch := W.sch_of_bareB (W.answerAt_bareB ..)
@[simp] theorem W.answerAt_col (w : W) (q l st p : Nat) (rd : List Byte) : (w.answerAt q l st p rd).col = w.col := W.col_of_bareB (W.answerAt_bareB ..)
@[simp] theorem W.answerAt_ep (w : W) (q l st p : Nat) (rd : List Byte) : (w.answerAt q l st p rd).ep = w.ep := W.ep_of_bareB (W.answerAt_bareB ..)
@[simp] theorem W.answerAt_cx (w : W) (q l st p : Nat) (rd : List Byte) : (w.answerAt q l st p rd).cx = w.cx := W.cx_of_bareB (W.answerAt_bareB ..)
@[simp] theorem W.answerAt_ctxFence (w : W) (q l st p : Nat) (rd : List Byte) : (w.answerAt q l st p rd).ctxFence = w.ctxFence := W.ctxFence_of_bareB (W.answerAt_bareB ..)
@[simp] theorem W.answerAt_fenceOver (w : W) (q l st p : Nat) (rd : List Byte) : (w.answerAt q l st p rd).fenceOver = w.fenceOver := W.fenceOver_of_bareB (W.answerAt_bareB ..)
@[simp] theorem W.answerAt_stores (w : W) (q l st p : Nat) (rd : List Byte) : (w.answerAt q l st p rd).stores = w.stores := W.stores_of_bareB (W.answerAt_bareB ..)

@[simp] theorem W.answer_pending (w : W) (q l st : Nat) (rd : List Byte) : (w.answer q l st rd).pending = w.pending := W.pending_of_bareB (W.answer_bareB ..)
@[simp] theorem W.answer_fc (w : W) (q l st : Nat) (rd : List Byte) : (w.answer q l st rd).fc = w.fc := W.fc_of_bareB (W.answer_bareB ..)
@[simp] theorem W.answer_herdTime (w : W) (q l st : Nat) (rd : List Byte) : (w.answer q l st rd).herdTime = w.herdTime := W.herdTime_of_bareB (W.answer_bareB ..)
@[simp] theorem W.answer_plateTime (w : W) (q l st : Nat) (rd : List Byte) : (w.answer q l st rd).plateTime = w.plateTime := W.plateTime_of_bareB (W.answer_bareB ..)
@[simp] theorem W.answer_freeCtr (w : W) (q l st : Nat) (rd : List Byte) : (w.answer q l st rd).freeCtr = w.freeCtr := W.freeCtr_of_bareB (W.answer_bareB ..)
@[simp] theorem W.answer_mem (w : W) (q l st : Nat) (rd : List Byte) : (w.answer q l st rd).mem = w.mem := W.mem_of_bareB (W.answer_bareB ..)
@[simp] theorem W.answer_fuse (w : W) (q l st : Nat) (rd : List Byte) : (w.answer q l st rd).fuse = w.fuse := W.fuse_of_bareB (W.answer_bareB ..)
@[simp] theorem W.answer_net (w : W) (q l st : Nat) (rd : List Byte) : (w.answer q l st rd).net = w.net := W.net_of_bareB (W.answer_bareB ..)
@[simp] theorem W.answer_sta (w : W) (q l st : Nat) (rd : List Byte) : (w.answer q l st rd).sta = w.sta := W.sta_of_bareB (W.answer_bareB ..)
@[simp] theorem W.answer_msp (w : W) (q l st : Nat) (rd : List Byte) : (w.answer q l st rd).msp = w.msp := W.msp_of_bareB (W.answer_bareB ..)
@[simp] theorem W.answer_flt (w : W) (q l st : Nat) (rd : List Byte) : (w.answer q l st rd).flt = w.flt := W.flt_of_bareB (W.answer_bareB ..)
@[simp] theorem W.answer_plt (w : W) (q l st : Nat) (rd : List Byte) : (w.answer q l st rd).plt = w.plt := W.plt_of_bareB (W.answer_bareB ..)
@[simp] theorem W.answer_sch (w : W) (q l st : Nat) (rd : List Byte) : (w.answer q l st rd).sch = w.sch := W.sch_of_bareB (W.answer_bareB ..)
@[simp] theorem W.answer_col (w : W) (q l st : Nat) (rd : List Byte) : (w.answer q l st rd).col = w.col := W.col_of_bareB (W.answer_bareB ..)
@[simp] theorem W.answer_ep (w : W) (q l st : Nat) (rd : List Byte) : (w.answer q l st rd).ep = w.ep := W.ep_of_bareB (W.answer_bareB ..)
@[simp] theorem W.answer_cx (w : W) (q l st : Nat) (rd : List Byte) : (w.answer q l st rd).cx = w.cx := W.cx_of_bareB (W.answer_bareB ..)
@[simp] theorem W.answer_ctxFence (w : W) (q l st : Nat) (rd : List Byte) : (w.answer q l st rd).ctxFence = w.ctxFence := W.ctxFence_of_bareB (W.answer_bareB ..)
@[simp] theorem W.answer_fenceOver (w : W) (q l st : Nat) (rd : List Byte) : (w.answer q l st rd).fenceOver = w.fenceOver := W.fenceOver_of_bareB (W.answer_bareB ..)
@[simp] theorem W.answer_stores (w : W) (q l st : Nat) (rd : List Byte) : (w.answer q l st rd).stores = w.stores := W.stores_of_bareB (W.answer_bareB ..)

/-- A reply leaves the registers outside the trace buffers. -/
theorem W.putReply_rd (w : W) (q sl : Nat) (r : List Byte) (c : Nat) (g : Fld) (j : Nat) (h : offTrace c g) :
    (w.putReply q sl r).rd c g j = w.rd c g j := by
  unfold W.putReply
  dsimp only
  rw [W.irqP_rd, W.traceCmd_rd _ _ _ _ _ _ _ _ _ h]
  exact State.rd_congr rfl c g j

theorem W.replyTo_rd (w : W) (q slot st stamp : Nat) (rd : List Byte) (c : Nat) (g : Fld) (j : Nat) (h : offTrace c g)
    (hr : g.key c j ≠ KCMD_QHEAD.running.key (cmdB q) 0) : (w.replyTo q slot st stamp rd).rd c g j = w.rd c g j := by
  unfold W.replyTo
  split
  · rfl
  · dsimp only
    refine W.each_inv (fun v => v.rd c g j = w.rd c g j) _ _ _ ?_ (fun v a _ hv => (W.putReply_rd _ _ _ _ _ _ _ h).trans hv)
    exact (W.rd_wr_ne _ _ _ _ _ _ _ _ hr).trans (State.rd_congr rfl c g j)

/-- The end of a command leaves every register but the count of running commands and the trace buffers'. -/
theorem W.answerAt_rd (w : W) (q slot st stamp : Nat) (rd : List Byte) (c : Nat) (g : Fld) (j : Nat) (h : offTrace c g)
    (hr : g.key c j ≠ KCMD_QHEAD.running.key (cmdB q) 0) : (w.answerAt q slot st stamp rd).rd c g j = w.rd c g j := by
  unfold W.answerAt
  split
  · exact W.replyTo_rd _ _ _ _ _ _ _ _ _ h hr
  · split <;> exact State.rd_congr rfl c g j

theorem W.answer_rd (w : W) (q slot st : Nat) (rd : List Byte) (c : Nat) (g : Fld) (j : Nat) (h : offTrace c g)
    (hr : g.key c j ≠ KCMD_QHEAD.running.key (cmdB q) 0) : (w.answer q slot st rd).rd c g j = w.rd c g j :=
  W.answerAt_rd _ _ _ _ _ _ _ _ _ h hr

end Sys2Proof.Machine
end

