-- ==== Sys2Proof/Laws/Boot.lean ====
section
/-! SUPPORT. What a warm reset leaves. -/

namespace Sys2Proof.Machine

/-- A state without its registers. -/
def W.noRegs (w : W) : W := { w with regs := [] }

/-- Apart from registers a warm reset leaves the cold state, with fc, herd time and the powered sites' place kept. -/
theorem W.warm_noRegs (w : W) : w.warm.noRegs = W.noRegs { w with toState := { w.toState.cold with
    fc := w.fc
    herdTime := w.herdTime
    boot := { w.toState.cold.boot with
      sitesLeft := (List.range w.fuse.cdSites).filter (fun x => !w.powered x)
      pdNext := w.fc + 4000000 } } } := by
  unfold W.warm
  dsimp only
  exact W.each_inv (fun v => v.noRegs = _) _ _ _ rfl (fun v a _ h => h)

end Sys2Proof.Machine
end

