-- ==== Sys2Proof/Laws/Exec.lean ====
section
/-! SUPPORT. Every command's meaning as an effect on the state: `exec` unfolded, one lemma a command. -/

namespace Sys2Proof.Machine

theorem exec_porstNAssert (s : State) : exec (.porstNAssert) s = runPin (effPorstNAssert) s := rfl
theorem exec_porstNRelease (s : State) : exec (.porstNRelease) s = runPin (effPorstNRelease) s := rfl
theorem exec_pwrgdInFall (s : State) : exec (.pwrgdInFall) s = runPin (effPwrgdInFall) s := rfl
theorem exec_hrstNAssert (lowFc : Nat) (s : State) : exec (.hrstNAssert lowFc) s = runPin (effHrstNAssert lowFc) s := rfl
theorem exec_hrstNRelease (s : State) : exec (.hrstNRelease) s = runPin (effHrstNRelease) s := rfl
theorem exec_fabricClockLock (s : State) : exec (.fabricClockLock) s = runPin (effFabricClockLock) s := rfl
theorem exec_pdGoodRise (site : Nat) (s : State) : exec (.pdGoodRise site) s = run (effPdGoodRise site) s := rfl
theorem exec_pdGoodTimeout (site : Nat) (s : State) : exec (.pdGoodTimeout site) s = run (effPdGoodTimeout site) s := rfl
theorem exec_proofEnd (recs : List ProofRec) (ptime : Nat) (s : State) : exec (.proofEnd recs ptime) s = run (effProofEnd recs ptime) s := rfl
theorem exec_sleepRequest (site : Nat) (s : State) : exec (.sleepRequest site) s = run (effSleepRequest site) s := rfl
theorem exec_sleepSave (site : Nat) (s : State) : exec (.sleepSave site) s = run (effSleepSave site) s := rfl
theorem exec_wakeRequest (site : Nat) (s : State) : exec (.wakeRequest site) s = run (effWakeRequest site) s := rfl
theorem exec_bondRetrainEnd (site : Nat) (s : State) : exec (.bondRetrainEnd site) s = run (effBondRetrainEnd site) s := rfl
theorem exec_trstNAssert (s : State) : exec (.trstNAssert) s = runPin (effTrstNAssert) s := rfl
theorem exec_kdbgUpdate (dr : Nat) (s : State) : exec (.kdbgUpdate dr) s = run (effKdbgUpdate dr) s := rfl
theorem exec_ctailWrite (q val : Nat) (who : Who) (s : State) : exec (.ctailWrite q val who) s = run (effCtailWrite q val who) s := rfl
theorem exec_commandFetch (q : Nat) (s : State) : exec (.commandFetch q) s = run (effCommandFetch q) s := rfl
theorem exec_hostPacket (p : Packet) (s : State) : exec (.hostPacket p) s = run (effHostPacket p) s := rfl
theorem exec_identify (q slot : Nat) (s : State) : exec (.identify q slot) s = run (effIdentify q slot) s := rfl
theorem exec_proofReport (q slot : Nat) (s : State) : exec (.proofReport q slot) s = run (effProofReport q slot) s := rfl
theorem exec_patchLoad (q slot : Nat) (s : State) : exec (.patchLoad q slot) s = run (effPatchLoad q slot) s := rfl
theorem exec_herdLockEdge (q slot : Nat) (s : State) : exec (.herdLockEdge q slot) s = run (effHerdLockEdge q slot) s := rfl
theorem exec_herdLockFreeRun (q slot : Nat) (s : State) : exec (.herdLockFreeRun q slot) s = run (effHerdLockFreeRun q slot) s := rfl
theorem exec_herdStatus (q slot : Nat) (s : State) : exec (.herdStatus q slot) s = run (effHerdStatus q slot) s := rfl
theorem exec_plateLoad (q slot : Nat) (s : State) : exec (.plateLoad q slot) s = run (effPlateLoad q slot) s := rfl
theorem exec_plateLoadAcked (q slot : Nat) (s : State) : exec (.plateLoadAcked q slot) s = run (effPlateLoadAcked q slot) s := rfl
theorem exec_plateLoadTimeout (q slot : Nat) (s : State) : exec (.plateLoadTimeout q slot) s = run (effPlateLoadTimeout q slot) s := rfl
theorem exec_plateArm (q slot : Nat) (s : State) : exec (.plateArm q slot) s = run (effPlateArm q slot) s := rfl
theorem exec_plateAbort (q slot : Nat) (s : State) : exec (.plateAbort q slot) s = run (effPlateAbort q slot) s := rfl
theorem exec_pauseSet (q slot : Nat) (s : State) : exec (.pauseSet q slot) s = run (effPauseSet q slot) s := rfl
theorem exec_routeWrite (q slot : Nat) (s : State) : exec (.routeWrite q slot) s = run (effRouteWrite q slot) s := rfl
theorem exec_routeCommit (q slot : Nat) (s : State) : exec (.routeCommit q slot) s = run (effRouteCommit q slot) s := rfl
theorem exec_ctxCreate (q slot : Nat) (s : State) : exec (.ctxCreate q slot) s = run (effCtxCreate q slot) s := rfl
theorem exec_ctxFence (q slot : Nat) (s : State) : exec (.ctxFence q slot) s = run (effCtxFence q slot) s := rfl
theorem exec_ctxReset (q slot : Nat) (s : State) : exec (.ctxReset q slot) s = run (effCtxReset q slot) s := rfl
theorem exec_ctxDestroy (q slot : Nat) (s : State) : exec (.ctxDestroy q slot) s = run (effCtxDestroy q slot) s := rfl
theorem exec_stationFenceCtx (q slot : Nat) (s : State) : exec (.stationFenceCtx q slot) s = run (effStationFenceCtx q slot) s := rfl
theorem exec_stationFenceAll (q slot : Nat) (s : State) : exec (.stationFenceAll q slot) s = run (effStationFenceAll q slot) s := rfl
theorem exec_stationUnfenceCtx (q slot : Nat) (s : State) : exec (.stationUnfenceCtx q slot) s = run (effStationUnfenceCtx q slot) s := rfl
theorem exec_stationUnfenceAll (q slot : Nat) (s : State) : exec (.stationUnfenceAll q slot) s = run (effStationUnfenceAll q slot) s := rfl
theorem exec_spareMapCore (q slot : Nat) (s : State) : exec (.spareMapCore q slot) s = run (effSpareMapCore q slot) s := rfl
theorem exec_spareMapDie (q slot : Nat) (s : State) : exec (.spareMapDie q slot) s = run (effSpareMapDie q slot) s := rfl
theorem exec_spareMapBeam (q slot : Nat) (s : State) : exec (.spareMapBeam q slot) s = run (effSpareMapBeam q slot) s := rfl
theorem exec_funcReinitF1 (q slot : Nat) (s : State) : exec (.funcReinitF1 q slot) s = run (effFuncReinitF1 q slot) s := rfl
theorem exec_funcReinitF2 (q slot : Nat) (s : State) : exec (.funcReinitF2 q slot) s = run (effFuncReinitF2 q slot) s := rfl
theorem exec_funcReinitF3 (q slot : Nat) (s : State) : exec (.funcReinitF3 q slot) s = run (effFuncReinitF3 q slot) s := rfl
theorem exec_funcReinitF4 (q slot : Nat) (s : State) : exec (.funcReinitF4 q slot) s = run (effFuncReinitF4 q slot) s := rfl
theorem exec_funcReinitF5 (q slot : Nat) (s : State) : exec (.funcReinitF5 q slot) s = run (effFuncReinitF5 q slot) s := rfl
theorem exec_funcReinitF6 (q slot : Nat) (s : State) : exec (.funcReinitF6 q slot) s = run (effFuncReinitF6 q slot) s := rfl
theorem exec_blockReset (q slot : Nat) (s : State) : exec (.blockReset q slot) s = run (effBlockReset q slot) s := rfl
theorem exec_counterRead (q slot : Nat) (s : State) : exec (.counterRead q slot) s = run (effCounterRead q slot) s := rfl
theorem exec_histoRead (q slot : Nat) (s : State) : exec (.histoRead q slot) s = run (effHistoRead q slot) s := rfl
theorem exec_traceArm (q slot : Nat) (s : State) : exec (.traceArm q slot) s = run (effTraceArm q slot) s := rfl
theorem exec_faultRead (q slot : Nat) (s : State) : exec (.faultRead q slot) s = run (effFaultRead q slot) s := rfl
theorem exec_faultClear (q slot : Nat) (s : State) : exec (.faultClear q slot) s = run (effFaultClear q slot) s := rfl
theorem exec_circuitTable (q slot : Nat) (s : State) : exec (.circuitTable q slot) s = run (effCircuitTable q slot) s := rfl
theorem exec_groupDefine (q slot : Nat) (s : State) : exec (.groupDefine q slot) s = run (effGroupDefine q slot) s := rfl
theorem exec_herdDefine (q slot : Nat) (s : State) : exec (.herdDefine q slot) s = run (effHerdDefine q slot) s := rfl
theorem exec_timingWordReceive (ep : Nat) (s : State) : exec (.timingWordReceive ep) s = run (effTimingWordReceive ep) s := rfl
theorem exec_lossWindowExpiry (s : State) : exec (.lossWindowExpiry) s = run (effLossWindowExpiry) s := rfl
theorem exec_acquireTimeout (s : State) : exec (.acquireTimeout) s = run (effAcquireTimeout) s := rfl
theorem exec_refPortChange (s : State) : exec (.refPortChange) s = run (effRefPortChange) s := rfl
theorem exec_decisionFc (throt : Bool) (s : State) : exec (.decisionFc throt) s = run (effDecisionFc throt) s := rfl
theorem exec_periodBoundary (s : State) : exec (.periodBoundary) s = run (effPeriodBoundary) s := rfl
theorem exec_laneDrainEnd (s : State) : exec (.laneDrainEnd) s = run (effLaneDrainEnd) s := rfl
theorem exec_slot (lanes : List LaneErr) (rows : List RowErr) (tables : List TblEntry) (s : State) : exec (.slot lanes rows tables) s = run (effSlot lanes rows tables) s := rfl
theorem exec_streamTimeLimit (st stream : Nat) (s : State) : exec (.streamTimeLimit st stream) s = run (effStreamTimeLimit st stream) s := rfl
theorem exec_arbiterDraw (unit port net : Nat) (errs : List Err) (s : State) : exec (.arbiterDraw unit port net errs) s = run (effArbiterDraw unit port net errs) s := rfl
theorem exec_quotaWindowStart (unit port net : Nat) (s : State) : exec (.quotaWindowStart unit port net) s = run (effQuotaWindowStart unit port net) s := rfl
theorem exec_watchdogBite (unit port net vc : Nat) (s : State) : exec (.watchdogBite unit port net vc) s = run (effWatchdogBite unit port net vc) s := rfl
theorem exec_packetRoute (router port vc : Nat) (errs : List Err) (s : State) : exec (.packetRoute router port vc errs) s = run (effPacketRoute router port vc errs) s := rfl
theorem exec_herdRoute (router port vc : Nat) (s : State) : exec (.herdRoute router port vc) s = run (effHerdRoute router port vc) s := rfl
theorem exec_creditWordReceive (unit port cvc cnt : Nat) (errs : List Err) (s : State) : exec (.creditWordReceive unit port cvc cnt errs) s = run (effCreditWordReceive unit port cvc cnt errs) s := rfl
theorem exec_commitEffect (s : State) : exec (.commitEffect) s = run (effCommitEffect) s := rfl
theorem exec_generationSweepEnd (s : State) : exec (.generationSweepEnd) s = run (effGenerationSweepEnd) s := rfl
theorem exec_drainLate (s : State) : exec (.drainLate) s = run (effDrainLate) s := rfl
theorem exec_staleGenAnswer (unit : Nat) (s : State) : exec (.staleGenAnswer unit) s = run (effStaleGenAnswer unit) s := rfl
theorem exec_staleHoldTimeout (unit tag : Nat) (s : State) : exec (.staleHoldTimeout unit tag) s = run (effStaleHoldTimeout unit tag) s := rfl
theorem exec_cmpReceive (unit : Nat) (s : State) : exec (.cmpReceive unit) s = run (effCmpReceive unit) s := rfl
theorem exec_folio (unit port : Nat) (s : State) : exec (.folio unit port) s = run (effFolio unit port) s := rfl
theorem exec_descriptorFetch (st : Nat) (s : State) : exec (.descriptorFetch st) s = run (effDescriptorFetch st) s := rfl
theorem exec_streamDescriptor (st entry : Nat) (s : State) : exec (.streamDescriptor st entry) s = run (effStreamDescriptor st entry) s := rfl
theorem exec_sendDescriptor (st entry : Nat) (s : State) : exec (.sendDescriptor st entry) s = run (effSendDescriptor st entry) s := rfl
theorem exec_readDescriptor (st entry : Nat) (s : State) : exec (.readDescriptor st entry) s = run (effReadDescriptor st entry) s := rfl
theorem exec_writeDescriptor (st entry : Nat) (s : State) : exec (.writeDescriptor st entry) s = run (effWriteDescriptor st entry) s := rfl
theorem exec_fenceDescriptor (st entry : Nat) (s : State) : exec (.fenceDescriptor st entry) s = run (effFenceDescriptor st entry) s := rfl
theorem exec_bagDescriptor (st entry : Nat) (s : State) : exec (.bagDescriptor st entry) s = run (effBagDescriptor st entry) s := rfl
theorem exec_collDescriptor (st entry : Nat) (s : State) : exec (.collDescriptor st entry) s = run (effCollDescriptor st entry) s := rfl
theorem exec_countDescriptor (st entry : Nat) (s : State) : exec (.countDescriptor st entry) s = run (effCountDescriptor st entry) s := rfl
theorem exec_nopDescriptor (st entry : Nat) (s : State) : exec (.nopDescriptor st entry) s = run (effNopDescriptor st entry) s := rfl
theorem exec_bagSlotAllocate (st entry : Nat) (s : State) : exec (.bagSlotAllocate st entry) s = run (effBagSlotAllocate st entry) s := rfl
theorem exec_directSend (st chan addr blen ctx : Nat) (inHandler : Bool) (s : State) : exec (.directSend st chan addr blen ctx inHandler) s = run (effDirectSend st chan addr blen ctx inHandler) s := rfl
theorem exec_sendUnblock (st : Nat) (s : State) : exec (.sendUnblock st) s = run (effSendUnblock st) s := rfl
theorem exec_sendWithdraw (st : Nat) (s : State) : exec (.sendWithdraw st) s = run (effSendWithdraw st) s := rfl
theorem exec_sendStallTimeout (st chan : Nat) (s : State) : exec (.sendStallTimeout st chan) s = run (effSendStallTimeout st chan) s := rfl
theorem exec_messageReceive (st : Nat) (s : State) : exec (.messageReceive st) s = run (effMessageReceive st) s := rfl
theorem exec_inMemMessageWritten (st ring : Nat) (s : State) : exec (.inMemMessageWritten st ring) s = run (effInMemMessageWritten st ring) s := rfl
theorem exec_inMemPopData (st ring : Nat) (s : State) : exec (.inMemPopData st ring) s = run (effInMemPopData st ring) s := rfl
theorem exec_creditReceive (st : Nat) (s : State) : exec (.creditReceive st) s = run (effCreditReceive st) s := rfl
theorem exec_cresyncReceive (st : Nat) (s : State) : exec (.cresyncReceive st) s = run (effCresyncReceive st) s := rfl
theorem exec_ringPop (st ring npop : Nat) (who : Who) (s : State) : exec (.ringPop st ring npop who) s = run (effRingPop st ring npop who) s := rfl
theorem exec_creditReturnTimer (st ring slot : Nat) (s : State) : exec (.creditReturnTimer st ring slot) s = run (effCreditReturnTimer st ring slot) s := rfl
theorem exec_ringEnable (st ring : Nat) (who : Who) (s : State) : exec (.ringEnable st ring who) s = run (effRingEnable st ring who) s := rfl
theorem exec_ringDisable (st ring : Nat) (who : Who) (s : State) : exec (.ringDisable st ring who) s = run (effRingDisable st ring who) s := rfl
theorem exec_channelEnable (st chan : Nat) (who : Who) (s : State) : exec (.channelEnable st chan who) s = run (effChannelEnable st chan who) s := rfl
theorem exec_channelDisable (st chan : Nat) (who : Who) (s : State) : exec (.channelDisable st chan who) s = run (effChannelDisable st chan who) s := rfl
theorem exec_dispatchOffer (st : Nat) (s : State) : exec (.dispatchOffer st) s = run (effDispatchOffer st) s := rfl
theorem exec_dispatchTake (st : Nat) (s : State) : exec (.dispatchTake st) s = run (effDispatchTake st) s := rfl
theorem exec_coreMemoryRequest (st : Nat) (r : CoreReq) (s : State) : exec (.coreMemoryRequest st r) s = run (effCoreMemoryRequest st r) s := rfl
theorem exec_coreFence (st tag scope ctx : Nat) (s : State) : exec (.coreFence st tag scope ctx) s = run (effCoreFence st tag scope ctx) s := rfl
theorem exec_requestTimeout (st tag : Nat) (s : State) : exec (.requestTimeout st tag) s = run (effRequestTimeout st tag) s := rfl
theorem exec_read (unit : Nat) (s : State) : exec (.read unit) s = run (effRead unit) s := rfl
theorem exec_write (unit : Nat) (s : State) : exec (.write unit) s = run (effWrite unit) s := rfl
theorem exec_cwrite (unit : Nat) (s : State) : exec (.cwrite unit) s = run (effCwrite unit) s := rfl
theorem exec_atomic (unit : Nat) (s : State) : exec (.atomic unit) s = run (effAtomic unit) s := rfl
theorem exec_rdS (port : Nat) (s : State) : exec (.rdS port) s = run (effRdS port) s := rfl
theorem exec_rdE (port : Nat) (s : State) : exec (.rdE port) s = run (effRdE port) s := rfl
theorem exec_upgrade (port : Nat) (s : State) : exec (.upgrade port) s = run (effUpgrade port) s := rfl
theorem exec_wb (port : Nat) (s : State) : exec (.wb port) s = run (effWb port) s := rfl
theorem exec_evict (port : Nat) (s : State) : exec (.evict port) s = run (effEvict port) s := rfl
theorem exec_snpInv (st : Nat) (s : State) : exec (.snpInv st) s = run (effSnpInv st) s := rfl
theorem exec_snpDown (st : Nat) (s : State) : exec (.snpDown st) s = run (effSnpDown st) s := rfl
theorem exec_snpFlush (st : Nat) (s : State) : exec (.snpFlush st) s = run (effSnpFlush st) s := rfl
theorem exec_coreSnoopAnswer (st id state : Nat) (dirty : Bool) (data : List Byte) (s : State) : exec (.coreSnoopAnswer st id state dirty data) s = run (effCoreSnoopAnswer st id state dirty data) s := rfl
theorem exec_sack (port : Nat) (s : State) : exec (.sack port) s = run (effSack port) s := rfl
theorem exec_sdata (port : Nat) (s : State) : exec (.sdata port) s = run (effSdata port) s := rfl
theorem exec_snoopTimeout (slice key : Nat) (s : State) : exec (.snoopTimeout slice key) s = run (effSnoopTimeout slice key) s := rfl
theorem exec_rdata (unit : Nat) (s : State) : exec (.rdata unit) s = run (effRdata unit) s := rfl
theorem exec_ldata (st : Nat) (s : State) : exec (.ldata st) s = run (effLdata st) s := rfl
theorem exec_adata (st : Nat) (s : State) : exec (.adata st) s = run (effAdata st) s := rfl
theorem exec_wcnt (unit : Nat) (s : State) : exec (.wcnt unit) s = run (effWcnt unit) s := rfl
theorem exec_wcntTimer (unit src : Nat) (s : State) : exec (.wcntTimer unit src) s = run (effWcntTimer unit src) s := rfl
theorem exec_ccinc (st : Nat) (s : State) : exec (.ccinc st) s = run (effCcinc st) s := rfl
theorem exec_memoryReadResponse (port tag unc : Nat) (s : State) : exec (.memoryReadResponse port tag unc) s = run (effMemoryReadResponse port tag unc) s := rfl
theorem exec_memoryWriteAck (port tag : Nat) (s : State) : exec (.memoryWriteAck port tag) s = run (effMemoryWriteAck port tag) s := rfl
theorem exec_directoryWalkEnd (slice : Nat) (s : State) : exec (.directoryWalkEnd slice) s = run (effDirectoryWalkEnd slice) s := rfl
theorem exec_reduce (tine : Nat) (s : State) : exec (.reduce tine) s = run (effReduce tine) s := rfl
theorem exec_barrier (tine : Nat) (s : State) : exec (.barrier tine) s = run (effBarrier tine) s := rfl
theorem exec_count (tine : Nat) (s : State) : exec (.count tine) s = run (effCount tine) s := rfl
theorem exec_lingerExpiry (tine key : Nat) (s : State) : exec (.lingerExpiry tine key) s = run (effLingerExpiry tine key) s := rfl
theorem exec_result (st : Nat) (s : State) : exec (.result st) s = run (effResult st) s := rfl
theorem exec_earlySlotExpiry (st slot : Nat) (s : State) : exec (.earlySlotExpiry st slot) s = run (effEarlySlotExpiry st slot) s := rfl
theorem exec_collTimeLimit (st entry : Nat) (s : State) : exec (.collTimeLimit st entry) s = run (effCollTimeLimit st entry) s := rfl
theorem exec_poolRead (port : Nat) (s : State) : exec (.poolRead port) s = run (effPoolRead port) s := rfl
theorem exec_poolPart (region : Nat) (s : State) : exec (.poolPart region) s = run (effPoolPart region) s := rfl
theorem exec_poolLingerExpiry (unit key : Nat) (s : State) : exec (.poolLingerExpiry unit key) s = run (effPoolLingerExpiry unit key) s := rfl
theorem exec_poolPartFold (st : Nat) (s : State) : exec (.poolPartFold st) s = run (effPoolPartFold st) s := rfl
theorem exec_bagTimeLimit (st slot : Nat) (s : State) : exec (.bagTimeLimit st slot) s = run (effBagTimeLimit st slot) s := rfl
theorem exec_mergeRow (tine : Nat) (s : State) : exec (.mergeRow tine) s = run (effMergeRow tine) s := rfl
theorem exec_mergeWindowExpiry (tine key : Nat) (s : State) : exec (.mergeWindowExpiry tine key) s = run (effMergeWindowExpiry tine key) s := rfl
theorem exec_mergeAnswer (tine : Nat) (s : State) : exec (.mergeAnswer tine) s = run (effMergeAnswer tine) s := rfl
theorem exec_nearMemoryAccumulate (port : Nat) (s : State) : exec (.nearMemoryAccumulate port) s = run (effNearMemoryAccumulate port) s := rfl
theorem exec_laneLockGain (ep lane : Nat) (s : State) : exec (.laneLockGain ep lane) s = run (effLaneLockGain ep lane) s := rfl
theorem exec_laneLockLoss (ep lane : Nat) (s : State) : exec (.laneLockLoss ep lane) s = run (effLaneLockLoss ep lane) s := rfl
theorem exec_oeReadyChange (ep : Nat) (level : Bool) (s : State) : exec (.oeReadyChange ep level) s = run (effOeReadyChange ep level) s := rfl
theorem exec_blockHeaderReceive (ep : Nat) (rx : List (List (List Nat))) (s : State) : exec (.blockHeaderReceive ep rx) s = run (effBlockHeaderReceive ep rx) s := rfl
theorem exec_frameBoundary (ep : Nat) (s : State) : exec (.frameBoundary ep) s = run (effFrameBoundary ep) s := rfl
theorem exec_dataFrame (ep : Nat) (s : State) : exec (.dataFrame ep) s = run (effDataFrame ep) s := rfl
theorem exec_edgePacketSend (ep : Nat) (s : State) : exec (.edgePacketSend ep) s = run (effEdgePacketSend ep) s := rfl
theorem exec_edgePacketReceive (ep : Nat) (s : State) : exec (.edgePacketReceive ep) s = run (effEdgePacketReceive ep) s := rfl
theorem exec_ackPacket (ep : Nat) (s : State) : exec (.ackPacket ep) s = run (effAckPacket ep) s := rfl
theorem exec_ackTimer (ep peer : Nat) (s : State) : exec (.ackTimer ep peer) s = run (effAckTimer ep peer) s := rfl
theorem exec_rtoExpiry (ep peer psn : Nat) (s : State) : exec (.rtoExpiry ep peer psn) s = run (effRtoExpiry ep peer psn) s := rfl
theorem exec_proxyAnswer (ep : Nat) (s : State) : exec (.proxyAnswer ep) s = run (effProxyAnswer ep) s := rfl
theorem exec_proxyExpiry (ep proxy : Nat) (s : State) : exec (.proxyExpiry ep proxy) s = run (effProxyExpiry ep proxy) s := rfl
theorem exec_pathSuspendEnd (ep path : Nat) (s : State) : exec (.pathSuspendEnd ep path) s = run (effPathSuspendEnd ep path) s := rfl
theorem exec_shapingRelease (ep : Nat) (s : State) : exec (.shapingRelease ep) s = run (effShapingRelease ep) s := rfl
theorem exec_circFrame (ep : Nat) (s : State) : exec (.circFrame ep) s = run (effCircFrame ep) s := rfl
theorem exec_circuitSpanBegin (ep : Nat) (s : State) : exec (.circuitSpanBegin ep) s = run (effCircuitSpanBegin ep) s := rfl
theorem exec_circuitOpen (ep : Nat) (s : State) : exec (.circuitOpen ep) s = run (effCircuitOpen ep) s := rfl
theorem exec_circuitClose (ep : Nat) (s : State) : exec (.circuitClose ep) s = run (effCircuitClose ep) s := rfl
theorem exec_spineSlotMessage (ep : Nat) (s : State) : exec (.spineSlotMessage ep) s = run (effSpineSlotMessage ep) s := rfl
theorem exec_redxResult (ep : Nat) (s : State) : exec (.redxResult ep) s = run (effRedxResult ep) s := rfl
theorem exec_coalesceTimerExpiry (src : Nat) (s : State) : exec (.coalesceTimerExpiry src) s = run (effCoalesceTimerExpiry src) s := rfl
theorem exec_irqClaim (target : Nat) (s : State) : exec (.irqClaim target) s = run (effIrqClaim target) s := rfl
theorem exec_irqDone (st num : Nat) (s : State) : exec (.irqDone st num) s = run (effIrqDone st num) s := rfl
theorem exec_endOfInterrupt (target orig reg num : Nat) (s : State) : exec (.endOfInterrupt target orig reg num) s = run (effEndOfInterrupt target orig reg num) s := rfl
theorem exec_irqSet (st mask : Nat) (s : State) : exec (.irqSet st mask) s = run (effIrqSet st mask) s := rfl
theorem exec_sharedIrqSet (ctrl mask : Nat) (s : State) : exec (.sharedIrqSet ctrl mask) s = run (effSharedIrqSet ctrl mask) s := rfl
theorem exec_faultEntry (cls loc : Nat) (present : Bool) (s : State) : exec (.faultEntry cls loc present) s = run (effFaultEntry cls loc present) s := rfl
theorem exec_quietTimerExpiry (s : State) : exec (.quietTimerExpiry) s = run (effQuietTimerExpiry) s := rfl
theorem exec_escalation (loc : Nat) (part : FailedPart) (s : State) : exec (.escalation loc part) s = run (effEscalation loc part) s := rfl
theorem exec_bondSteerSwitch (s : State) : exec (.bondSteerSwitch) s = run (effBondSteerSwitch) s := rfl
theorem exec_stotToggle (s : State) : exec (.stotToggle) s = run (effStotToggle) s := rfl
theorem exec_injFatal (s : State) : exec (.injFatal) s = run (effInjFatal) s := rfl
theorem exec_injCorr (src : Nat) (s : State) : exec (.injCorr src) s = run (effInjCorr src) s := rfl
theorem exec_injUncorr (src : Nat) (s : State) : exec (.injUncorr src) s = run (effInjUncorr src) s := rfl
theorem exec_stickyClearWrite (grp mask : Nat) (s : State) : exec (.stickyClearWrite grp mask) s = run (effStickyClearWrite grp mask) s := rfl
theorem exec_drainEnd (ctx : Nat) (s : State) : exec (.drainEnd ctx) s = run (effDrainEnd ctx) s := rfl
theorem exec_drainForcedEnd (ctx : Nat) (s : State) : exec (.drainForcedEnd ctx) s = run (effDrainForcedEnd ctx) s := rfl
theorem exec_removalEnd (ctx : Nat) (s : State) : exec (.removalEnd ctx) s = run (effRemovalEnd ctx) s := rfl
theorem exec_quarantineEnd (ctx : Nat) (s : State) : exec (.quarantineEnd ctx) s = run (effQuarantineEnd ctx) s := rfl
theorem exec_heartbeat (s : State) : exec (.heartbeat) s = run (effHeartbeat) s := rfl
theorem exec_heartbeatTimeout (s : State) : exec (.heartbeatTimeout) s = run (effHeartbeatTimeout) s := rfl
theorem exec_engineWatchdogBite (cls index : Nat) (s : State) : exec (.engineWatchdogBite cls index) s = run (effEngineWatchdogBite cls index) s := rfl
theorem exec_replaySearchStart (s : State) : exec (.replaySearchStart) s = run (effReplaySearchStart) s := rfl
theorem exec_replayWindowExpiry (s : State) : exec (.replayWindowExpiry) s = run (effReplayWindowExpiry) s := rfl
theorem exec_blockStart (s : State) : exec (.blockStart) s = run (effBlockStart) s := rfl
theorem exec_targetStep (s : State) : exec (.targetStep) s = run (effTargetStep) s := rfl
theorem exec_govMonitor (d : Draws) (s : State) : exec (.govMonitor d) s = run (effGovMonitor d) s := rfl
theorem exec_packageReadRequest (addr : Nat) (s : State) : exec (.packageReadRequest addr) s = run (effPackageReadRequest addr) s := rfl
theorem exec_stationReadRequest (st addr dq : Nat) (s : State) : exec (.stationReadRequest st addr dq) s = run (effStationReadRequest st addr dq) s := rfl
theorem exec_counterSweep (s : State) : exec (.counterSweep) s = run (effCounterSweep) s := rfl
theorem exec_traceStop (buf : Nat) (s : State) : exec (.traceStop buf) s = run (effTraceStop buf) s := rfl
theorem exec_ecfgWrite (addr val : Nat) (who : Who) (s : State) : exec (.ecfgWrite addr val who) s = run (effEcfgWrite addr val who) s := rfl
theorem exec_ticketWeightWrite (addr val : Nat) (who : Who) (s : State) : exec (.ticketWeightWrite addr val who) s = run (effTicketWeightWrite addr val who) s := rfl
theorem exec_laneMapWrite (ep val : Nat) (who : Who) (s : State) : exec (.laneMapWrite ep val who) s = run (effLaneMapWrite ep val who) s := rfl
theorem exec_poolTableValidate (st entry : Nat) (who : Who) (s : State) : exec (.poolTableValidate st entry who) s = run (effPoolTableValidate st entry who) s := rfl
theorem exec_pkgNumWrite (val : Nat) (who : Who) (s : State) : exec (.pkgNumWrite val who) s = run (effPkgNumWrite val who) s := rfl
theorem exec_khrdTimeLoRead (who : Who) (s : State) : exec (.khrdTimeLoRead who) s = run (effKhrdTimeLoRead who) s := rfl
theorem exec_counterLowWordRead (addr : Nat) (who : Who) (s : State) : exec (.counterLowWordRead addr who) s = run (effCounterLowWordRead addr who) s := rfl
theorem exec_rcFieldRead (addr : Nat) (who : Who) (s : State) : exec (.rcFieldRead addr who) s = run (effRcFieldRead addr who) s := rfl
theorem exec_registerWrite (addr val : Nat) (who : Who) (s : State) : exec (.registerWrite addr val who) s = run (effRegisterWrite addr val who) s := rfl
theorem exec_writePortAccept (st : Nat) (s : State) : exec (.writePortAccept st) s = run (effWritePortAccept st) s := rfl
theorem exec_descriptorTimeLimit (st entry : Nat) (s : State) : exec (.descriptorTimeLimit st entry) s = run (effDescriptorTimeLimit st entry) s := rfl
theorem exec_siteProofEnd (site : Nat) (ok : Bool) (s : State) : exec (.siteProofEnd site ok) s = run (effSiteProofEnd site ok) s := rfl
theorem exec_unbindingEnd (ctx : Nat) (s : State) : exec (.unbindingEnd ctx) s = run (effUnbindingEnd ctx) s := rfl
theorem exec_edgeLaneTrialEnd (ep : Nat) (ok : Bool) (s : State) : exec (.edgeLaneTrialEnd ep ok) s = run (effEdgeLaneTrialEnd ep ok) s := rfl
theorem exec_epDepthSample (s : State) : exec (.epDepthSample) s = run (effEpDepthSample) s := rfl

end Sys2Proof.Machine
end

