-- ==== Sys2Proof/Tests/Slice0.lean ====
section
/-! SUPPORT. Tests of the model: an ill-formed command for each check of WellFormed, worked cases of the spec, and, for every
statement with hypotheses, concrete states and operands that meet them, for each of its clauses. -/

open Sys2Proof Sys2Proof.Machine

namespace Sys2Proof.Tests

set_option Elab.async false
set_option linter.unusedVariables false

/-! ### Well-formedness -/

/-- A core of a station that no package has, and parts, packets, requests and records that are not well formed. -/
def badCore : Who := .core 2244 0
def badParts : List FailedPart :=
  [.bondLane 528 0 0 0, .bondLane 0 2 0 0, .bondLane 0 0 64 0, .bondLane 0 0 0 64, .bondPort 528, .edgeLane 64, .plateRow 458752 0 0 true,
    .plateRow 0 64 0 true, .plateRow 0 0 256 true, .station 2244, .router 0x300, .baseLink 32 17, .baseLink 0 16, .baseLink 0 41]
def badPackets : List Packet :=
  [{ vc := 10 }, { op := 256 }, { dst := 4096 }, { ctx := 4096 }, { len := 1 }, { len := 2 ^ 14, data := [] }, { ext := [0] }, { addr := 2 ^ 64 }]
def badReqs : List CoreReq :=
  [{ op := 0, addr := 0, tag := 256 }, { op := 0, addr := 0, ctx := 4096 }, { op := 0, addr := 2 ^ 64 }, { op := 0, addr := 0, len := 4097 }]
def badRecs : List ProofRec :=
  [⟨0, 0, 0, 0, .whole⟩, ⟨8, 0, 0, 0, .whole⟩, ⟨1, 384, 0, 0, .whole⟩, ⟨1, 0, 2 ^ 32, 0, .whole⟩, ⟨1, 0, 0, 2 ^ 64, .whole⟩, ⟨1, 0, 0, 0, .bondPort 528⟩]

theorem test_bad_units : [0x356, 0x1000 + 2244, 0x1FFF, 0x2082].all (fun u => !unitOk u) = true := by decide
theorem test_good_units : [0, 0x355, 0x1000, 0x1000 + 2243, 0x2000, 0x2081].all unitOk = true := by decide
theorem test_bad_cores : [badCore, .core 0 4096].all (fun w => !whoOk w) = true := by decide
theorem test_bad_parts : badParts.all (fun p => !partOk p) = true := by decide
theorem test_bad_tables :
    [TblEntry.route 2 0 0, .root 0 0 4096, .herd 0 0x356 0, .window 0 32, .group 1024, .pool 2244 0, .ring 0 256].all
      (fun t => !tblOk t) = true := by decide
theorem test_bad_packets : badPackets.all (fun p => !packetOk p) = true := by decide
theorem test_bad_requests : badReqs.all (fun r => !reqOk r) = true := by decide
theorem test_bad_records : badRecs.all (fun r => !recOk r) = true := by decide

/-- Commands with one operand that its check refuses. -/
def badCommands0 : List Instr :=
  [.hrstNAssert (2 ^ 32), .pdGoodRise 66, .pdGoodTimeout 66, .proofEnd ([⟨0, 0, 0, 0, .whole⟩]) 0, .proofEnd [] (2 ^ 32), .sleepRequest 66,
    .sleepSave 66, .wakeRequest 66, .bondRetrainEnd 66, .kdbgUpdate (2 ^ 72), .ctailWrite 4 0 .host, .ctailWrite 0 (2 ^ 32) .host,
    .ctailWrite 0 0 badCore, .commandFetch 4, .hostPacket { vc := 10 }, .identify 4 0, .identify 0 128, .proofReport 4 0, .proofReport 0 128,
    .patchLoad 4 0, .patchLoad 0 128, .herdLockEdge 4 0, .herdLockEdge 0 128, .herdLockFreeRun 4 0, .herdLockFreeRun 0 128, .herdStatus 4 0,
    .herdStatus 0 128, .plateLoad 4 0, .plateLoad 0 128, .plateLoadAcked 4 0, .plateLoadAcked 0 128, .plateLoadTimeout 4 0, .plateLoadTimeout 0 128,
    .plateArm 4 0, .plateArm 0 128, .plateAbort 4 0, .plateAbort 0 128, .pauseSet 4 0, .pauseSet 0 128, .routeWrite 4 0, .routeWrite 0 128,
    .routeCommit 4 0, .routeCommit 0 128, .ctxCreate 4 0, .ctxCreate 0 128]
def badCommands1 : List Instr :=
  [.ctxFence 4 0, .ctxFence 0 128, .ctxReset 4 0, .ctxReset 0 128, .ctxDestroy 4 0, .ctxDestroy 0 128, .stationFenceCtx 4 0, .stationFenceCtx 0 128,
    .stationFenceAll 4 0, .stationFenceAll 0 128, .stationUnfenceCtx 4 0, .stationUnfenceCtx 0 128, .stationUnfenceAll 4 0, .stationUnfenceAll 0 128,
    .spareMapCore 4 0, .spareMapCore 0 128, .spareMapDie 4 0, .spareMapDie 0 128, .spareMapBeam 4 0, .spareMapBeam 0 128, .funcReinitF1 4 0,
    .funcReinitF1 0 128, .funcReinitF2 4 0, .funcReinitF2 0 128, .funcReinitF3 4 0, .funcReinitF3 0 128, .funcReinitF4 4 0, .funcReinitF4 0 128,
    .funcReinitF5 4 0, .funcReinitF5 0 128, .funcReinitF6 4 0, .funcReinitF6 0 128, .blockReset 4 0, .blockReset 0 128, .counterRead 4 0,
    .counterRead 0 128, .histoRead 4 0, .histoRead 0 128, .traceArm 4 0, .traceArm 0 128, .faultRead 4 0, .faultRead 0 128, .faultClear 4 0,
    .faultClear 0 128, .circuitTable 4 0]
def badCommands2 : List Instr :=
  [.circuitTable 0 128, .groupDefine 4 0, .groupDefine 0 128, .herdDefine 4 0, .herdDefine 0 128, .timingWordReceive 64,
    .streamTimeLimit 2244 0, .streamTimeLimit 0 256, .arbiterDraw 0x356 0 0 [], .arbiterDraw 0 64 0 [], .arbiterDraw 0 0 4 [],
    .quotaWindowStart 0x356 0 0, .quotaWindowStart 0 64 0, .quotaWindowStart 0 0 4, .watchdogBite 0x356 0 0 0, .watchdogBite 0 64 0 0,
    .watchdogBite 0 0 4 0, .watchdogBite 0 0 0 10, .packetRoute 0x356 0 0 [], .packetRoute 0 64 0 [], .packetRoute 0 0 10 [], .herdRoute 0x356 0 0,
    .herdRoute 0 64 0, .herdRoute 0 0 10, .creditWordReceive 0x356 0 0 0 [], .creditWordReceive 0 64 0 0 [], .creditWordReceive 0 0 16 0 [],
    .creditWordReceive 0 0 0 16 [], .staleGenAnswer 0x356, .staleHoldTimeout 0x356 0, .staleHoldTimeout 0 65536, .cmpReceive 0x356,
    .folio 0x356 0, .folio 0 64, .descriptorFetch 2244, .streamDescriptor 2244 0, .streamDescriptor 0 512, .sendDescriptor 2244 0,
    .sendDescriptor 0 512, .readDescriptor 2244 0, .readDescriptor 0 512, .writeDescriptor 2244 0, .writeDescriptor 0 512, .fenceDescriptor 2244 0]
def badCommands3 : List Instr :=
  [.fenceDescriptor 0 512, .bagDescriptor 2244 0, .bagDescriptor 0 512, .collDescriptor 2244 0, .collDescriptor 0 512, .countDescriptor 2244 0,
    .countDescriptor 0 512, .nopDescriptor 2244 0, .nopDescriptor 0 512, .bagSlotAllocate 2244 0, .bagSlotAllocate 0 512,
    .directSend 2244 0 0 0 0 false, .directSend 0 256 0 0 0 false, .directSend 0 0 (2 ^ 32) 0 0 false, .directSend 0 0 0 8192 0 false,
    .directSend 0 0 0 0 4096 false, .sendUnblock 2244, .sendWithdraw 2244, .sendStallTimeout 2244 0, .sendStallTimeout 0 256, .messageReceive 2244,
    .inMemMessageWritten 2244 0, .inMemMessageWritten 0 256, .inMemPopData 2244 0, .inMemPopData 0 256, .creditReceive 2244, .cresyncReceive 2244,
    .ringPop 2244 0 0 .host, .ringPop 0 256 0 .host, .ringPop 0 0 (2 ^ 32) .host, .ringPop 0 0 0 badCore, .creditReturnTimer 2244 0 0,
    .creditReturnTimer 0 256 0, .creditReturnTimer 0 0 16, .ringEnable 2244 0 .host, .ringEnable 0 256 .host, .ringEnable 0 0 badCore,
    .ringDisable 2244 0 .host, .ringDisable 0 256 .host, .ringDisable 0 0 badCore, .channelEnable 2244 0 .host, .channelEnable 0 256 .host,
    .channelEnable 0 0 badCore, .channelDisable 2244 0 .host, .channelDisable 0 256 .host]
def badCommands4 : List Instr :=
  [.channelDisable 0 0 badCore, .dispatchOffer 2244, .dispatchTake 2244, .coreMemoryRequest 2244 { op := 0, addr := 0 },
    .coreMemoryRequest 0 { op := 0, addr := 0, tag := 256 }, .coreFence 2244 0 0 0, .coreFence 0 256 0 0, .coreFence 0 0 2 0, .coreFence 0 0 0 4096,
    .requestTimeout 2244 0, .requestTimeout 0 256, .read 0x356, .write 0x356, .cwrite 0x356, .atomic 0x356, .rdS 64, .rdE 64, .upgrade 64, .wb 64,
    .evict 64, .snpInv 2244, .snpDown 2244, .snpFlush 2244, .coreSnoopAnswer 2244 0 0 false [], .coreSnoopAnswer 0 64 0 false [],
    .coreSnoopAnswer 0 0 4 false [], .coreSnoopAnswer 0 0 0 false [0], .sack 64, .sdata 64, .snoopTimeout 32 0, .snoopTimeout 0 (2 ^ 22),
    .rdata 0x356, .ldata 2244, .adata 2244, .wcnt 0x356, .wcntTimer 0x356 0, .wcntTimer 0 4096, .ccinc 2244, .memoryReadResponse 64 0 0,
    .memoryReadResponse 0 1024 0, .memoryReadResponse 0 0 16, .memoryWriteAck 64 0, .memoryWriteAck 0 1024, .directoryWalkEnd 32, .reduce 32]
def badCommands5 : List Instr :=
  [.barrier 32, .count 32, .lingerExpiry 32 0, .lingerExpiry 0 512, .result 2244, .earlySlotExpiry 2244 0, .earlySlotExpiry 0 32,
    .collTimeLimit 2244 0, .collTimeLimit 0 512, .poolRead 64, .poolPart 132, .poolLingerExpiry 0x356 0, .poolLingerExpiry 0 512, .poolPartFold 2244,
    .bagTimeLimit 2244 0, .bagTimeLimit 0 64, .mergeRow 32, .mergeWindowExpiry 32 0, .mergeWindowExpiry 0 512, .mergeAnswer 32,
    .nearMemoryAccumulate 64, .laneLockGain 64 0, .laneLockGain 0 6, .laneLockLoss 64 0, .laneLockLoss 0 6, .oeReadyChange 64 false,
    .blockHeaderReceive 64 [], .blockHeaderReceive 0 [[[1]]], .blockHeaderReceive 0 [[[], [], [], [], [], []]],
    .blockHeaderReceive 0 [[List.replicate 10 1024]], .frameBoundary 64, .dataFrame 64,
    .edgePacketSend 64, .edgePacketReceive 64, .ackPacket 64, .ackTimer 64 0, .ackTimer 0 (2 ^ 17), .rtoExpiry 64 0 0,
    .rtoExpiry 0 (2 ^ 17) 0, .rtoExpiry 0 0 (2 ^ 24), .proxyAnswer 64, .proxyExpiry 64 0, .proxyExpiry 0 16384, .pathSuspendEnd 64 0,
    .pathSuspendEnd 0 64, .shapingRelease 64]
def badCommands6 : List Instr :=
  [.circFrame 64, .circuitSpanBegin 64, .circuitOpen 64, .circuitClose 64, .spineSlotMessage 64,
    .redxResult 64, .coalesceTimerExpiry (2 ^ 18), .irqClaim 2244, .irqClaim 5002, .irqDone 2244 0, .irqDone 0 32, .endOfInterrupt 2244 0 0 0,
    .endOfInterrupt 5002 0 0 0, .endOfInterrupt 0 4 0 0, .endOfInterrupt 0 0 256 0, .endOfInterrupt 0 0 0 128, .irqSet 2244 0, .irqSet 0 (2 ^ 32),
    .sharedIrqSet 133 0, .sharedIrqSet 0 (2 ^ 32), .faultEntry 32 0 false, .faultEntry 0 384 false, .escalation 384 .whole,
    .escalation 0 (.bondPort 528), .injCorr 384, .injUncorr 384, .stickyClearWrite 32 0, .stickyClearWrite 0 (2 ^ 32), .drainEnd 4096,
    .drainForcedEnd 4096, .removalEnd 4096, .quarantineEnd 4096, .engineWatchdogBite 9 0, .engineWatchdogBite 0 4096, .packageReadRequest (2 ^ 26),
    .stationReadRequest 2244 0 0, .stationReadRequest 0 (2 ^ 26) 0, .stationReadRequest 0 0 8, .traceStop 16, .ecfgWrite (2 ^ 26) 0 .host,
    .ecfgWrite 0 (2 ^ 32) .host, .ecfgWrite 0 0 badCore, .ticketWeightWrite (2 ^ 26) 0 .host, .ticketWeightWrite 0 (2 ^ 32) .host]
def badCommands7 : List Instr :=
  [.ticketWeightWrite 0 0 badCore, .laneMapWrite 64 0 .host, .laneMapWrite 0 (2 ^ 32) .host, .laneMapWrite 0 0 badCore,
    .poolTableValidate 2244 0 .host, .poolTableValidate 0 64 .host, .poolTableValidate 0 0 badCore, .pkgNumWrite (2 ^ 32) .host,
    .pkgNumWrite 0 badCore, .khrdTimeLoRead badCore, .counterLowWordRead (2 ^ 26) .host, .counterLowWordRead 0 badCore, .rcFieldRead (2 ^ 26) .host,
    .rcFieldRead 0 badCore, .registerWrite (2 ^ 26) 0 .host, .registerWrite 0 (2 ^ 32) .host, .registerWrite 0 0 badCore, .writePortAccept 2244,
    .descriptorTimeLimit 2244 0, .descriptorTimeLimit 0 512, .siteProofEnd 66 false, .unbindingEnd 4096, .edgeLaneTrialEnd 64 false,
    .arbiterDraw 0 0 0 [⟨2, 0, 1⟩], .packetRoute 0 0 0 [⟨0, 70, 1⟩], .creditWordReceive 0 0 0 0 [⟨0, 70, 1⟩], .slot [⟨0x356, 0, 0, []⟩] [] [],
    .slot [] [⟨7 * 65536, 0, 0, []⟩] [], .slot [] [] [.group 1024]]

theorem test_bad_commands0 : badCommands0.all (fun c => !commandOk c) = true := by decide +kernel
theorem test_bad_commands1 : badCommands1.all (fun c => !commandOk c) = true := by decide +kernel
theorem test_bad_commands2 : badCommands2.all (fun c => !commandOk c) = true := by decide +kernel
theorem test_bad_commands3 : badCommands3.all (fun c => !commandOk c) = true := by decide +kernel
theorem test_bad_commands4 : badCommands4.all (fun c => !commandOk c) = true := by decide +kernel
theorem test_bad_commands5 : badCommands5.all (fun c => !commandOk c) = true := by decide +kernel
theorem test_bad_commands6 : badCommands6.all (fun c => !commandOk c) = true := by decide +kernel
theorem test_bad_commands7 : badCommands7.all (fun c => !commandOk c) = true := by decide +kernel


/-! ### Worked cases of the spec -/

/-- The granule of row 0x0A1_3C07 (chapter 8, worked case): package 0x00412, slice 10, port 0. -/
theorem test_granule_home :
    bits 0x81048100A13C0700 46 17 = 0x412 ∧ loff 0x81048100A13C0700 = 0x100A13C0700 ∧ sliceOf 0x100A13C0700 = (10, 0)
      ∧ portOf 0x100A13C0740 = 20 := by decide +kernel

/-- The port of slice 10's port 0 is tine 10, port 17 (R35). -/
theorem test_port_tine : State.reset.peer (uMsp 20) 0 = some (uTine 10, 17) := by decide +kernel

/-- A stream that meets a foreign signature and its time limit ends TIMEOUT; one that meets the signature and misses cells ends
MISMATCH (chapter 0). -/
theorem test_stream_status :
    Strm.status { recv := true, mismatch := true } TIMEOUT = TIMEOUT ∧ Strm.status { recv := true, mismatch := true, short := 4 } OK = MISMATCH := by
  decide +kernel

/-- Completion detail of a message refused is in the CMP: a message of `blen` 48 takes one line, one of 49 takes two (R189). -/
theorem test_message_lines : msgLines 48 = 1 ∧ msgLines 49 = 2 := by decide


/-! ### States for the witnesses -/

/-- Reset with these register fields written: (window, field, value, entry). -/
def regs (l : List (Nat × Fld × Nat × Nat)) (s : State := State.reset) : State :=
  (l.foldl (fun (w : W) x => w.wr x.1 x.2.1 x.2.2.1 x.2.2.2) s.w0).toState

/-- Bytes from a list of (offset, bytes, value). -/
def fields (n : Nat) (l : List (Nat × Nat × Nat)) : List Byte :=
  l.foldl (fun b x => patch b x.1 (toLE x.2.1 x.2.2)) (List.replicate n 0)

/-- A command in slot 0 of queue 0, for context `ctx`. -/
def cmd (op ctx : Nat) (l : List (Nat × Nat × Nat) := []) : Cmd :=
  { q := 0, slot := 0, bytes := fields 64 ([(0, 2, op), (2, 2, 7), (4, 2, ctx)] ++ l), fc := 0 }

/-- The command runs. -/
def running (c : Cmd) (s : State := State.reset) : State :=
  { s with boot.cmds := [c], boot.recsQ := [(0, [{ tag := 7, opcode := c.op, reply := none, slots := [0] }])] }

/-- A whole packet waits at input port 0 of a unit. -/
def waits (u : Nat) (p : Packet) (s : State := State.reset) : State :=
  { s with net.q := s.net.q.put (qKey u 0 p.vc) [{ pkt := p, arrived := p.size, last := true }] }

/-- The state without the first packet that fits. -/
def taken (s : State) (u : Nat) (f : Packet → Bool) : W :=
  match s.w0.takeAny u f with
  | some x => x.2
  | none => s.w0

def s1 : State := regs [(gblB, KGBL_SITE.pon, 1, 3)]

/-- `n` bytes of a number, most significant first. -/
def be (n v : Nat) : List Byte := (toLE n v).reverse

/-- A patch image of 256 bytes with neither body nor hooks, signed with the key 5 (made with other software). -/
def image : List Byte :=
  fields 16 [(0, 4, 0x4854504B), (4, 2, 3)]
    ++ be 48 0x11de24a2c251c777573cac5ea025e467f208e51dbff98fc54f6661cbe56583b037882f4a1ca297e60abcdbc3836d84bc
    ++ be 48 0x8fa696c77440f92d0f5837e90a00e7c5284b447754d5dee88c986533b6901aeb3177686d0ae8fb33184414abe6c1713a
    ++ be 48 0x99056e27da7b998da1eeec2904816c57fe935ed5837c37456c9fd14892d3f8c4749b66e3afb81d626356f3b55b4ddd8
    ++ be 48 0x98edcc3a0dca1261b2075dc1d2f9a95156f2abfac617cd41d5b01657dd11f7653c4de0738ae41deb311f5e87f6634042 ++ List.replicate 48 0

/-- A command that names the image at address 0, and the state in which it runs. -/
def patchCmd : Cmd := cmd 3 0 [(24, 4, 256)]
def patchState : State :=
  { running patchCmd with
    mem := { cells := putBytes [] 0 image, pois := [], sram := [], spois := [] }
    fuse.keyHash := 0x3966d6c7e6a199e21807f0f8347406aa40aa59c18578b061c2bcafb3da86b24ecd4da2100402993d56c9b5e1f6b0f369 }

/-- A plate image of one block with one empty section, that of tine 0 (its CRC made with other software). -/
def plateImage : List Byte :=
  fields 208 [(0, 4, 0x54504C4B), (4, 2, 3), (6, 2, 1), (14, 2, 1), (16, 4, 208), (28, 4, 0x5ffa164d), (192, 1, 3), (196, 4, 208)]

/-- The plate of the image. -/
def plate0 : Plate :=
  { blocks := 1, slack := 0, id := 0, placeId := 0, beamMask := 0, lanes := List.replicate 16 ⟨0, false, false⟩,
    secs := [(196608, { runs := [], combs := [], laneMask := 0 })], addr := 0, length := 208, crc := 0x5ffa164d }

/-- Bytes stand at the bottom of the memory window. -/
def holding (b : List Byte) (s : State := State.reset) : State :=
  { s with mem := { cells := putBytes [] 0 b, pois := [], sram := [], spois := [] } }

/-- A context in a state. -/
def withCtx (ctx : Nat) (x : Ctx) (s : State := State.reset) : State := { s with cx.ctx := [(ctx, x)] }

/-- A generation drains. -/
def drains (l : List (Nat × Fld × Nat × Nat) := []) : State := regs ([(gblB, KGBL_RGEN.draining, 1, 0)] ++ l)

/-- A timing frame. -/
def timeFrame : List Byte := frameBytes 3 0 0 0 false false false false 0 (toLE 8 5 ++ toLE 8 6 ++ toLE 8 7 ++ [1, 2])

/-- A context image with one grant: queue 0 of station 0. -/
def ctxImage : List Byte := fields 64 [(0, 2, 5), (4, 2, 1), (38, 2, 1)]

/-- A router's answer STALE_GEN to a request that station 0 sent. -/
def staleAns : Packet := { vc := 3, op := 0x60, status := STALE_GEN, byRouter := true, sref := 4 }
def staleState : State :=
  waits 0x1000 staleAns { State.reset with net.stale := [(4, { op := 2, vc := 1, dst := 5 })] }

/-- A packet waits at an input of region router 0. -/
def atRouter (p : Packet) (s : State := State.reset) : State :=
  { s with net.q := s.net.q.put (qKey 0x240 1 1) [{ pkt := p, arrived := p.size, last := true }] }
def hopPkt : Packet := { op := 2, vc := 1, hops := 2, hop := hopList [5, 3] }
def herdPkt : Packet := { op := 1, vc := 1, hops := 1, hopPtr := 1, herdMode := true, dst := 9 }
def herdBanks : HBank := { written := [(0x240 * 4096 + 9, { mask := 3, hctx := 0, hvalid := true })] }

/-- Station 0 is fenced for every context, with its walk ended. -/
def fenced0 : List (Nat × Fld × Nat × Nat) := [(stnB 0, KSTN_FENCE.fenced_all, 1, 0)]
/-- A packet waits at an input of a router. -/
def atPort (u port vc : Nat) (p : Packet) (s : State := State.reset) : State :=
  { s with net.q := s.net.q.put (qKey u port vc) [{ pkt := p, arrived := p.size, last := true }] }
/-- EP 2 has lock and has received a TIME frame, while herd time is acquired from it. -/
def timeAt : State :=
  { regs [(epB 2, KEDG_STAT.lane_lock, 1, 0), (hrdB, KHRD_STATUS.state, 1, 0)] with
    ep := [(2, { rxFr := [{ bytes := timeFrame, ok := true, at_ := 10 }] })], plt.ports := 4, herdTime := 10 }

/-- Objects bound to contexts: (kind, station, index, context). -/
def binds (l : List (Nat × Nat × Nat × Nat)) (s : State := State.reset) : State :=
  { s with sta.bind := l.foldl (fun (b : Tbl Nat) x => b.put (objKey x.1 x.2.1 x.2.2.1) x.2.2.2) s.sta.bind }

/-- A window entry of station 3 and a pool table entry that lies in it, both of context 5. -/
def tableState : State :=
  binds [(6, 3, 0, 5), (7, 3, 2, 5)] (regs [(stnB 3, KSTN_WIN_CFG.wvalid, 1, 0), (stnB 3, KSTN_WIN_LIM_LO.wlim_lo, 1, 0),
    (stnB 3, KSTN_PTAB_CFG.rlines, 1, 2), (stnB 3, KSTN_PTAB_CFG.dtype, 1, 2), (stnB 3, KSTN_PTAB_CFG.stride, 1, 2),
    (stnB 3, KSTN_PTAB_ROWS_LO.trows_lo, 8, 2)])

/-- A request stands in the intake of memory port 0, and a whole packet at port 0 of a router. -/
def intake (p : Packet) (s : State := State.reset) : State := { s with msp.intake := [(0, [p])] }
def rtrWaits (u : Nat) (p : Packet) (s : State := State.reset) : State :=
  { s with net.q := s.net.q.put (qKey u 0 8) [{ pkt := p, arrived := p.size, last := true }] }

/-- Requests to memory and to the SRAM of station 0. -/
def mRead : Packet := { src := 0x881, op := 0x02, aux := 64, addr := 2 ^ 63 }
def mWrite : Packet := { src := 0x881, op := 0x01, len := 4, data := [1, 2, 3, 4], addr := 2 ^ 63 }
def mCwrite : Packet := { src := 0x881, op := 0x0C, len := 4, data := [1, 2, 3, 4], addr := 2 ^ 63 }
def mAtomic : Packet := { src := 0x881, op := 0x0A, aux := 0, len := 8, data := toLE 8 5, addr := 2 ^ 63 }
def toSram (p : Packet) : Packet := { p with addr := 0x3F * 2 ^ 40 }
def cc7 : Packet := { op := 0x0D, ctx := 5, aux := 7, addr := 3 }
def wait0 (p : Packet) (s : State := State.reset) : State := waits 0x1000 p s

/-- Folios: one with wrong contents, and a write of one register of router 0x300 or of 4 bytes of station 0's SRAM. -/
def badFolio : Packet := { vc := 8, op := 0x70, ext := fields 32 [(5, 1, 1)] }
def regFolio : Packet :=
  { vc := 8, op := 0x70, src := 0x880, len := 4, addr := 0x490, data := [12, 0, 0, 0],
    ext := fields 32 [(4, 1, 1), (5, 1, 1), (8, 4, crc32 [12, 0, 0, 0])] }
def sramFolio : Packet := { vc := 8, op := 0x70, len := 4, addr := 64, data := [12, 0, 0, 0], ext := fields 32 [(8, 4, crc32 [12, 0, 0, 0])] }
def folioTaken (s : State) (u : Nat) : W := taken s u (fun p => p.op == 0x70 && (p.ans != 0 || foSpace p != 0 || s.folioRoom u))

/-- Line 0 of memory is busy and the deferral pool of slice 0 is full, while a request stands in the intake. -/
def poolFull (p : Packet) (s : State := State.reset) : State :=
  { s with msp.dir := [(dirSet 0 0, { line := 0, st := 2, ptrs := [9], busy := true })]
           msp.defer := [(0, List.replicate 64 (0, p))], msp.intake := [(0, [p])] }
/-- Context 0 may read, write and modify the first 4 KiB of memory. -/
def memOpen (s : State := State.reset) : State :=
  regs [(sliceB 0, KMSP_WIN_CFG.wvalid, 1, 0), (sliceB 0, KMSP_WIN_CFG.wr, 1, 0), (sliceB 0, KMSP_WIN_CFG.ww, 1, 0), (sliceB 0, KMSP_WIN_CFG.wa, 1, 0)] s


/-- Coherent requests for line 0 of memory, and the directory entry of that line in a state, held by some endpoints. -/
def coh (op src : Nat) : Packet := { op := op, addr := 2 ^ 63, src := src }
def line0 : Nat := dirSet 0 0
def wbPkt : Packet := { coh 7 5 with vc := 6, len := 64, data := List.replicate 64 9 }
def dirWith (e : DirEnt) (s : State := State.reset) : State := { s with msp.dir := [(line0, e)] }
def ent (st : Nat) (l : List Nat) : DirEnt := { line := 0, st := st, ptrs := l }

/-- A snoop of line 0 that waits for an answer under reference 9. -/
def snoopOpen (s : State) : State :=
  { s with net.req := [(uMsp 0 * 2 ^ 20 + 9, { pkt := { op := 0x51, tag := 9 }, own := .snoop 0 line0, fc := 0 })] }
def sackPkt : Packet := { vc := 3, op := 0x58, ref := 9, tag := 9 }
def sdataPkt : Packet := { vc := 6, op := 0x59, ref := 9, tag := 9, len := 64, data := List.replicate 64 7, addr := 2 ^ 63 }
def sackTaken (s : State) : W := match W.takeVc s.w0 (uMsp 0) 3 (fun p => p.op == 0x58) with | some x => x.2 | none => s.w0

/-- Context 5 may read and write the first 4 KiB of memory and of the SRAM of station 3, and owns its queue 0. -/
def owner (s : State := State.reset) (l : List (Nat × Nat × Nat × Nat) := []) : State :=
  binds ([(0, 3, 0, 5), (6, 3, 0, 5), (6, 3, 1, 5)] ++ l)
    (regs ([0, 1].flatMap (fun i => [(stnB 3, KSTN_WIN_CFG.wvalid, 1, i), (stnB 3, KSTN_WIN_CFG.wr, 1, i), (stnB 3, KSTN_WIN_CFG.ww, 1, i),
      (stnB 3, KSTN_WIN_CFG.wsram, i, i)])) s)
def rdReq (n : Nat) : CoreReq := { op := 0, addr := 0, len := n, tag := 1, ctx := 5 }
def wrReq : CoreReq := { op := 1, addr := 0, len := 4, posted := true, tag := 1, ctx := 5, data := [1, 2, 3, 4] }

/-- A descriptor, and the log entry 2 of station 3 that holds one of queue 0 and context 5. -/
def desc (kind : Nat) (l : List (Nat × Nat × Nat) := []) : List Byte := fields 64 ([(0, 1, kind)] ++ l)
def entry (d : List Byte) (lstate : Nat := 1) : LogEnt := { desc := d, dq := 0, lstate := lstate, lctx := 5, dseq := 1, astamp := 0 }
def logged (l : LogEnt) (s : State := owner) : State := { s with sta.log := [(logKey 3 2, l)] }
def xferDesc (kind : Nat) : List Byte := desc kind [(44, 4, 256), (48, 1, 10)]
def jobOf (j : Job) (s : State) : State := { s with sta.job := [(logKey 3 2, j)] }

/-- An answer waits at station 3 for its request under reference 9. -/
def answer3 (p : Packet) (own : Owner := .core 1 0) (late : Bool := false) : State :=
  waits (uSt 3) p { State.reset with net.req := [(uSt 3 * 2 ^ 20 + 9, { pkt := { op := 2, tag := 9 }, own := own, fc := 0, late := late })] }
def ansTaken (op : Nat) (p : Packet) (late : Bool := false) : W :=
  taken (answer3 p (.core 1 0) late) (uSt 3) (fun x => x.op == op && !(answer3 p (.core 1 0) late).forPop (uSt 3) x)
def dataAns (op : Nat) : Packet := { vc := 6, op := op, ref := 9, tag := 9, len := 8, data := toLE 8 3 }

/-- Channel 4 of station 3, of context 5, with credit for `n` lines. -/
def channel (n : Nat) (s : State := State.reset) (l : List (Nat × Fld × Nat × Nat) := []) : State :=
  owner (regs ([(stnB 3, KSTN_CH_CFG.enable, 1, 4), (stnB 3, KSTN_CH_CFG.max_lines, 8, 4), (stnB 3, KSTN_CH_CRED.credit, n, 4)] ++ l) s)
    [(2, 3, 4, 5)]

/-- Ring 6 of station 3, of context 5, of 8 lines at SRAM address 0, whose slot 0 is bound to channel 4 of station 7. -/
def ring (s : State := State.reset) (l : List (Nat × Fld × Nat × Nat) := []) : State :=
  owner (regs ([(stnB 3, KSTN_RING_CFG.enable, 1, 6), (stnB 3, KSTN_RING_CFG.max_lines, 2, 6), (stnB 3, KSTN_RING_CFG.ring_lines, 8, 6),
    (stnB 3, KSTN_RING_SLOT0.s_valid, 1, 96), (stnB 3, KSTN_RING_SLOT0.s_src, 7, 96), (stnB 3, KSTN_RING_SLOT0.s_chan, 4, 96),
    (stnB 3, KSTN_RING_SLOT2.s_share, 4, 96)] ++ l) s) [(3, 3, 6, 5)]
def head6 : List Byte := msgHead 1 1 0 7 4 0 0
def msg6 : Packet := { vc := 2, op := 0x20, aux := 6, ctx := 5, src := 7, len := 16, data := head6 }
def placed6 : Msg := { line := 0, lines := 1, head := head6, skipped := false, poison := false, written := true, taken := false, seq := 0 }
def at3 (p : Packet) (s : State) : State := waits (uSt 3) p s
def got3 (p : Packet) (s : State) : W := taken (at3 p s) (uSt 3) (fun x => x.op == p.op)
def resyncs (s : State) : State := { s with sta.resync := [(chKey 3 4, true)] }
def popAns : Packet := { vc := 6, op := 0x03, ref := 9, tag := 9, ans := 2, len := 16, data := head6 }
def popState : State :=
  at3 popAns { ring State.reset [(stnB 3, KSTN_RING_OCC.occ, 1, 6)] with
    net.req := [(uSt 3 * 2 ^ 20 + 9, { pkt := { op := 2, tag := 9 }, own := .ringPop 6, fc := 0 })]
    sta.pops := [(chKey 3 6, [1])] }
def popTaken : W := taken popState (uSt 3) (fun p => (p.op == 0x03 || p.op == 0x60) && p.ref == 9 && p.ans == 2)


/-- Plate 0 is in force, and its lane 0 is context 5's. -/
def playing (s : State) : State :=
  { s with
    regs := s.w0.regs
    plt.active := some { plate0 with lanes := ⟨5, true, false⟩ :: List.replicate 15 ⟨0, false, false⟩ } }
def streamDesc : List Byte := desc 1 [(32, 1, 4), (33, 1, 1), (35, 1, 10), (40, 4, 1), (44, 4, 5)]
def streamState : State :=
  playing (logged (entry streamDesc) (owner (regs [(hrdB, KHRD_STATUS.state, 2, 0), (hrdB, KPLT_STATUS.active_valid, 1, 0)]) [(4, 3, 4, 5)]))

/-- A group of one station, its command, and a state in which it can be defined. -/
def groupBytes : List Byte := fields 32 [(2, 2, 5), (4, 4, 77), (16, 4, 1), (22, 1, 1), (23, 1, 1), (24, 1, 0x11), (26, 2, 9)]
def groupCmd : Cmd := { cmd 0xA0 5 with bytes := patch (cmd 0xA0 5).bytes 16 groupBytes }
def group0 : GroupDef := { groupOf groupBytes with rroot := 3 }
def groupHerd : HerdDef := ⟨5, 3, 0, [0], {}⟩
def groupState : State := { running groupCmd (withCtx 5 { state := 1 }) with net.hb0 := { defs := [(9, groupHerd)] } }

/-- The group holds station 3. -/
def member3 (s : State := owner) : State := { s with col.memb := [(3 * 64, 0)], col.grp := [(0, group0)] }

/-- A contribution of one, of a group of one and of two. -/
def contrib (op n : Nat) : Packet :=
  { vc := 0, op := op, ctx := 5, addr := 0, len := 64, data := List.replicate 64 1, ext := redExt 77 1 0 8 0 16 99 1 n 9 3 }
def unitWaits (u port vc : Nat) (p : Packet) (s : State := State.reset) : State :=
  { s with net.q := s.net.q.put (qKey u port vc) [{ pkt := p, arrived := p.size, last := true }] }
def inTaken (s : State) (u port : Nat) (f : Packet → Bool) : W := match s.w0.takeIn u port f with | some x => x.2 | none => s.w0
def bufTaken (s : State) (u port vc : Nat) (f : Packet → Bool) : W :=
  match s.w0.takeBuf u port vc f with | some x => x.2.2 | none => s.w0
def rctx1 : RCtx := { pkt := contrib 0x30 2, data := List.replicate 64 1, value := 0, count := 0, mm := false, bad := false, t0 := 0 }
def open1 : State := { State.reset with col.rctx := [(0, rctx1)] }
def fullUnit : State := { State.reset with col.rctx := (List.range 512).map (fun i => (i, { rctx1 with pkt := { contrib 0x31 2 with ctx := 6 } })) }
def result1 : Packet := { contrib 0x33 1 with data := [], len := 0 }
def fold1 : Fold := { ctx := 5, gkey := 77, seq := 1 }
def folding (f : Fold) (s : State := State.reset) : State := { s with col.fold := [(foldKey 3 0, f)] }
def coll1 (sched : Bool) : Coll := { sched := sched, streams := [], sig := 0, lsize := 1, group := 0, tEnd := 0 }
def countDesc : List Byte := desc 8 [(33, 1, 10)]
def collDesc : List Byte := desc 7 [(34, 1, 8), (36, 4, 16), (42, 1, 10), (48, 1, 4), (49, 1, 255), (50, 1, 255)]

/-- A bag of one row of the table of context 5, and its slot. -/
def bagDesc (n : Nat) : List Byte := desc 6 [(33, 1, 1), (34, 2, n), (36, 1, 10)]
def bag0 : Bag := { entry := 2, seq := 1, ctx := 5, t0 := 0 }
def bagState (n : Nat) : State :=
  { logged (entry (bagDesc n) 2) (owner (regs [(stnB 3, KSTN_PTAB_CFG.tvalid, 1, 0), (stnB 3, KSTN_PTAB_CFG.rlines, 1, 0),
      (stnB 3, KSTN_PTAB_CFG.dtype, 1, 0), (stnB 3, KSTN_PTAB_CFG.stride, 1, 0), (stnB 3, KSTN_PTAB_ROWS_LO.trows_lo, 8, 0)]) [(7, 3, 0, 5)])
    with col.bag := [(bagKey 3 0, bag0)] }
def sentBag : Bag := { bag0 with sent := true, merge := true }
def poolPkt : Packet :=
  { op := 0x40, ctx := 0, addr := 2 ^ 63,
    ext := fields 32 [(9, 1, 1), (10, 1, 1), (11, 1, 1), (12, 2, 1), (20, 2, 1), (22, 2, 1)] }
def pctx0 : PoolCtx := { pkt := poolPkt, acc := [], smask := 1, pieces := 1, target := 2, bad := false, t0 := 0, port := 0 }
def mergePkt (vc : Nat) : Packet :=
  { vc := vc, op := 0x42, addr := 2 ^ 63, len := 64, data := List.replicate 64 1, ext := mergeExt 1 1 1 1 false }
def mrg0 (wait : Bool) : MrgEnt :=
  { first := { mergePkt 9 with src := 5, tag := 9 }, data := List.replicate 64 1, bad := false, contrib := [], wait := wait, t0 := 0 }
def mergeCmp : Packet := { vc := 3, op := 0x60, dst := 5, tag := 9 }


/-- Edge port 2 with this content, and its lanes locked. -/
def epWith (p : Ep) (s : State := State.reset) : State := { s with ep := [(2, p)] }
def lockedEp (p : Ep := {}) (l : List (Nat × Fld × Nat × Nat) := []) : State := epWith p (regs ([(epB 2, KEDG_STAT.lane_lock, 1, 0)] ++ l))
def goodHeader : List Byte := fields 240 [(0, 6, 0x9E2B71C4D5A8), (9, 3, 5)]
def eframe : EFrame := { lseq := 3, ftype := 2, vc := 10, sof := true, eof := true, body := [1] }
def eout : EOut := { vc := 10, bytes := List.replicate 56 1 }
def frameAt (ftype lseq : Nat) (body : List Byte := [1, 2, 3]) : List Byte := frameBytes ftype 3 lseq 0 true true false false 0 body
def circBody : List Byte := Cell.bytes { stag := 5, data := List.replicate 64 1 }
def epWaits (vc : Nat) (p : Packet) (s : State := State.reset) : State := unitWaits (uEp 2) 0 vc p s
def epTaken (s : State) (f : Packet → Bool) : W := taken s (uEp 2) f
def epTakenVc (s : State) (vc : Nat) (f : Packet → Bool) : W := match s.w0.takeVc (uEp 2) vc f with | some x => x.2 | none => s.w0
def orElse (x : Option W) (w : W) : W := match x with | some y => y | none => w

/-- A read that leaves for package 7, one that came from it, and the connection with it. -/
def goes : Packet := { vc := 1, op := 2, ack := true, addr := 2 ^ 63 + 7 * 2 ^ 46, aux := 64, src := 5, ctx := 5, tag := 3 }
def ehdr7 : EHdr := { dpkg := 0, dep := 2, spkg := 7, sep := 1, inc := 3, psn := 5 }
def came : List Byte := ehdr7.bytes ++ pktBytes { vc := 1, op := 2, ack := true, addr := 2 ^ 63, aux := 64, src := 5, ctx := 5, tag := 3 }
def conn7 : Conn := { recv := true, rinc := 3, cum := 4 }
def sendConn (l : List EPkt) : Conn := { send := true, inc := 3, outst := l }
def sentPkt (sends : Nat) : EPkt := { hdr := { psn := 1 }, pkt := {}, sends := sends, lastFc := 0, path := 0, passed := 0, fast := false, size := 64 }
def ackIn (rst : Bool) : List Byte := EHdr.bytes { spkg := 7 } ++ ackBytes 0 3 rst 1 []
def answerPkt : Packet := { vc := 3, op := 0x60, tag := 9 }
def proxy9 : Proxy := { spkg := 7, sep := 1, src := 5, tag := 3, ack := true, op := 2, ctx := 5, fc := 0, lines := 0 }
def shapes : List (Nat × Fld × Nat × Nat) := [(epB 2, KEDG_STAT.link_up, 1, 0), (epB 2, KEDG_STAT.peer_nready, 0, 0)]
def cw1 : CwEnt := { tOpen := 0, tClose := 0, pkg := 7, ep := 1 }

/-- A message to spine slot 3, and the slot enabled for its sender. -/
def spnMsg : Packet := { vc := 7, op := 0x20, aux := 3, src := 7, ctx := 5, len := 64, data := msgHead 1 1 48 7 4 0 0 ++ List.replicate 48 2 }
def spnOn : State :=
  regs [(epB 2, KEDG_SPN_CFG.spn_en, 1, 3), (epB 2, KEDG_SPN_SLOT0.s_valid, 1, 48), (epB 2, KEDG_SPN_SLOT0.s_src, 7, 48),
    (epB 2, KEDG_SPN_SLOT0.s_chan, 4, 48)]
def spnResult : Nat × Nat × List Byte := (11, 1, EHdr.bytes { spkg := 7 } ++ fields 64 [(11, 1, 3)])


/-- A first codeword, shortened to six message symbols, whose header holds only the sync word, and what the lanes bring of it. -/
def syncWord : List Nat :=
  [424, 309, 796, 173, 158, 0,
   583, 840, 852, 435, 112, 969, 926, 40, 568, 322, 84, 444, 895, 911, 48, 990, 893, 669, 539, 672, 287, 686, 185, 948,
   862, 1012, 613, 898, 624, 771]
def syncRx : List (List (List Nat)) := [(List.range 4).map (laneSyms syncWord)]
/-- Edge port 2 with lock holds a received frame. -/
def rxFrame (f : List Byte) (ok : Bool := true) : RxFrame := { bytes := f, ok := ok, at_ := 0 }
def rxEp (f : List Byte) (p : Ep := {}) : State := lockedEp { p with rxFr := [rxFrame f] }
/-- Package packets as the edge egress takes them. -/
def goTaken (s : State) (p : Packet) : W := match W.takeVc s.w0 (uEp 2) p.vc (fun q => q == p) with | some x => x.2 | none => s.w0
def cresyncIn : Packet := { vc := 2, op := 0x22, ack := false, addr := 2 ^ 63, src := 5, ctx := 5 }
def prxTaken (s : State) : W := taken s (uEp 2) (fun p => proxyAns p && !s.staleFirst p)
def spnTaken (s : State) : W := taken s (uEp 2) (fun p => (p.op == 0x20 || p.op == 0x22) && p.addr == 0)
def shaper : List (Nat × Fld × Nat × Nat) :=
  [(epB 2, KEDG_RATE_CTX.rctx, 5, 0), (epB 2, KEDG_RATE_CTX.shp_en, 1, 0), (epB 2, KEDG_RATE_SHP.rate, 1, 0)]
theorem find_listed (x : Proxy) (k : Nat) : ∀ l : List Nat, k ∈ l → (Tbl.find (l.map (fun i => (i, x))) k).isSome = true
  | [], h => nomatch h
  | a :: t, h => by
    simp only [List.map_cons, Tbl.find]
    split
    · rfl
    · next n => exact find_listed x k t ((List.mem_cons.1 h).resolve_left (fun e => n e.symm))
theorem freeFrom_none (t : Tbl Proxy) : ∀ n k, (∀ j, k ≤ j → j < k + n → (t.find j).isSome = true) → t.freeFrom n k = none
  | 0, _, _ => rfl
  | n + 1, k, h => by
    simp only [Tbl.freeFrom]
    have a := h k (Nat.le_refl k) (by omega)
    rw [if_neg (by cases h : t.find k <;> simp_all)]
    exact freeFrom_none t n (k + 1) (fun j u v => h j (by omega) (by omega))
/-- Every proxy entry is in use. -/
def proxies : Nat → Tbl Proxy := fun n => (List.range n).map (fun i => (i, proxy9))
theorem proxies_free (n : Nat) : (proxies n).free n = none :=
  freeFrom_none _ n 0 (fun j _ h => find_listed proxy9 j _ (List.mem_range.2 (by omega)))
def fullPx (n : Nat) : State := lockedEp { proxies := proxies n }
theorem fullPx_free (n : Nat) : ((fullPx n).epS 2).proxies.free n = none := proxies_free n


/-! ### Witnesses of the statements' hypotheses -/

theorem wit_StepIdles :
    (∃ (s : State), s.pending = []) :=
  ⟨(State.reset), (by decide +kernel)⟩

theorem wit_ResetPinsAct :
    (∃ (s : State) (n : Nat), 2000 ≤ n ∧ s.boot.porstN = true ∧ s.boot.pwrgd = true)
    ∧ (∃ (s : State), s.boot.hrstN = false) :=
  ⟨⟨(State.reset), 2000, (by decide +kernel), (by decide +kernel), (by decide +kernel)⟩,
    ⟨({ State.reset with boot.hrstN := false }), (by decide +kernel)⟩⟩

theorem wit_BlockResetActs :
    (∃ (s : State) (q : Nat) (slot : Nat), s.inReset = false ∧ s.boot.rstReq = true ∧ q < 4 ∧ le (s.slotBytes q slot) 0 2 = 0x61) :=
  ⟨({ State.reset with boot.rstReq := true, boot.csram := [(0, 0x61)] }), 0, 0, (by decide +kernel), (by decide +kernel), (by decide +kernel),
    (by decide +kernel)⟩

theorem wit_SitePowerActs :
    (∃ (s : State) (site : Nat), s.inReset = false ∧ s.rd gblB KGBL_SITE.pon site ≠ 0 ∧ s.powered site = false)
    ∧ (∃ (s : State) (site : Nat) (t0 : Nat), s.inReset = false ∧ s.boot.pdT.find site = some t0 ∧ s.powered site = false ∧ t0 + 2 ^ 22 ≤ s.fc ∧
      s.flt.spare = none)
    ∧ (∃ (s : State) (recs : List ProofRec) (ptime : Nat), s.inReset = false ∧ s.rd gblB KGBL_BOOT.stage = 2)
    ∧ (∃ (s : State) (site : Nat), s.inReset = false ∧ s.powered site = true ∧ s.rd gblB KGBL_SITE.slp_req site ≠ 1)
    ∧ (∃ (s : State) (site : Nat), s.inReset = false ∧ s.rd gblB KGBL_SITE.slp_req site ≠ 0 ∧ s.rd gblB KGBL_SITE.slp_ack site ≠ 1 ∧
      s.sleepReady site = true)
    ∧ (∃ (s : State) (site : Nat), s.inReset = false ∧ s.rd gblB KGBL_SITE.slp_req site ≠ 0)
    ∧ (∃ (s : State) (site : Nat), s.inReset = false ∧ s.rd gblB KGBL_SITE.slp_ack site ≠ 0 ∧ s.rd gblB KGBL_SITE.slp_req site ≠ 1) :=
  ⟨⟨(regs [(gblB, KGBL_SITE.pon, 1, 3)]), 3, (by decide +kernel), (by decide +kernel), (by decide +kernel)⟩,
    ⟨({ State.reset with boot.pdT := [(3, 0)], fc := 2 ^ 22 }), 3, 0, (by decide +kernel), (by decide +kernel), (by decide +kernel),
      (by decide +kernel), (by decide +kernel)⟩,
    ⟨(regs [(gblB, KGBL_BOOT.stage, 2, 0)]), ([]), 0, (by decide +kernel), (by decide +kernel)⟩,
    ⟨(regs [(gblB, KGBL_SITE.pgood, 1, 3)]), 3, (by decide +kernel), (by decide +kernel), (by decide +kernel)⟩,
    ⟨(regs [(gblB, KGBL_SITE.slp_req, 1, 65)]), 65, (by decide +kernel), (by decide +kernel), (by decide +kernel), (by decide +kernel)⟩,
    ⟨(regs [(gblB, KGBL_SITE.slp_req, 1, 65)]), 65, (by decide +kernel), (by decide +kernel)⟩,
    ⟨(regs [(gblB, KGBL_SITE.slp_ack, 1, 65)]), 65, (by decide +kernel), (by decide +kernel), (by decide +kernel)⟩⟩

theorem wit_ManagementInputs :
    (∃ (s : State) (dr : Nat), s.inReset = false ∧ s.fuse.dbgEn = true ∧ s.boot.kdbgBusy = false)
    ∧ (∃ (s : State) (q : Nat) (val : Nat) (who : Who), s.inReset = false ∧ who.priv = true ∧ q < 4)
    ∧ (∃ (s : State) (q : Nat), s.inReset = false ∧ q < 4 ∧ s.rd gblB KGBL_BOOT.mp_ready ≠ 0 ∧ s.rd (cmdB q) KCMD_QCFG.qen ≠ 0 ∧
      s.rd (cmdB q) KCMD_QHEAD.chead ≠ s.rd (cmdB q) KCMD_QTAIL.ctail ∧ s.rd (cmdB q) KCMD_QHEAD.running < 8 ∧ s.miomusUp = true ∧
      s.rd fltB KFLT_STATE.fstate ≠ 3 ∧ cmdClean (s.slotBytes q (s.rd (cmdB q) KCMD_QHEAD.chead)) = true ∧
      le (s.slotBytes q (s.rd (cmdB q) KCMD_QHEAD.chead)) 0 2 ≠ 0x61 ∧ (∀ r ∈ s.recsOf q,
      r.tag ≠ le (s.slotBytes q (s.rd (cmdB q) KCMD_QHEAD.chead)) 2 2))
    ∧ (∃ (s : State) (p : Packet), s.inReset = false ∧ s.rd gblB KGBL_BOOT.mp_ready ≠ 0 ∧ s.hostBeats p.vc < 64 ∧ hostOk p = true) :=
  ⟨⟨({ State.reset with fuse.dbgEn := true }), 0, (by decide +kernel), (by decide +kernel), (by decide +kernel)⟩,
    ⟨(State.reset), 0, 5, (.host), (by decide +kernel), (by decide +kernel), (by decide +kernel)⟩,
    ⟨({ regs [(gblB, KGBL_BOOT.mp_ready, 1, 0), (cmdB 0, KCMD_QTAIL.ctail, 1, 0)] with boot.csram := [(0, 1)] }), 0, (by decide +kernel),
      (by decide +kernel), (by decide +kernel), (by decide +kernel), (by decide +kernel), (by decide +kernel), (by decide +kernel),
      (by decide +kernel), (by decide +kernel), (by decide +kernel), (by decide +kernel)⟩,
    ⟨(regs [(gblB, KGBL_BOOT.mp_ready, 1, 0)]), ({ vc := 1, op := 2, dst := 0x20, aux := 8 }), (by decide +kernel), (by decide +kernel),
      (by decide +kernel), (by decide +kernel)⟩⟩

theorem wit_ReportsAnswer :
    (∃ (s : State) (q : Nat) (slot : Nat) (c : Cmd), s.inReset = false ∧ s.Runs q slot 0x0001 c)
    ∧ (∃ (s : State) (q : Nat) (slot : Nat) (c : Cmd), s.inReset = false ∧ s.Runs q slot 0x0002 c)
    ∧ (∃ (s : State) (q : Nat) (slot : Nat) (c : Cmd), s.inReset = false ∧ s.Runs q slot 0x0011 c)
    ∧ (∃ (s : State) (q : Nat) (slot : Nat) (c : Cmd), s.inReset = false ∧ s.Runs q slot 0x0080 c) :=
  ⟨⟨(running (cmd 0x0001 0)), 0, 0, (cmd 0x0001 0), (by decide +kernel), (And.intro (by decide +kernel) (by decide +kernel))⟩,
    ⟨(running (cmd 0x0002 0)), 0, 0, (cmd 0x0002 0), (by decide +kernel), (And.intro (by decide +kernel) (by decide +kernel))⟩,
    ⟨(running (cmd 0x0011 0)), 0, 0, (cmd 0x0011 0), (by decide +kernel), (And.intro (by decide +kernel) (by decide +kernel))⟩,
    ⟨(running (cmd 0x0080 0)), 0, 0, (cmd 0x0080 0), (by decide +kernel), (And.intro (by decide +kernel) (by decide +kernel))⟩⟩

theorem wit_SettingsAnswer :
    (∃ (s : State) (q : Nat) (slot : Nat) (c : Cmd), s.inReset = false ∧ s.Runs q slot 0x0023 c ∧ bits (le c.bytes 16 1) 0 7 ≤ 64 ∧
      (bit (le c.bytes 17 1) 7 = true → bits (le c.bytes 17 1) 0 7 ≤ 64))
    ∧ (∃ (s : State) (q : Nat) (slot : Nat) (c : Cmd), s.inReset = false ∧ s.Runs q slot 0x0003 c ∧ 256 ≤ le c.bytes 24 4 ∧
      le c.bytes 24 4 ≤ 256 + 131072 ∧ s.rangeOk (le c.bytes 16 8) (le c.bytes 24 4) = true ∧ s.fuse.keyHash ≠ 0 ∧ s.boot.patch = none ∧
      s.w0.imageStatus (loff (le c.bytes 16 8)) (le c.bytes 24 4) = OK ∧
      patchForm (getBytes s.mem.cells (loff (le c.bytes 16 8)) (le c.bytes 24 4)) (le c.bytes 24 4) = true ∧
      s.patchSigned (getBytes s.mem.cells (loff (le c.bytes 16 8)) (le c.bytes 24 4)) = true)
    ∧ (∃ (s : State) (q : Nat) (slot : Nat) (c : Cmd) (e : Nat) (i : Nat) (word : Nat) (lead : Nat), s.inReset = false ∧ s.Runs q slot 0x0090 c ∧
      e = bits (le c.bytes 16 1) 0 6 ∧ i = le c.bytes 17 1 ∧ word = le c.bytes 48 4 ∧ lead = s.rd (epB e) KEDG_CW_CFG.cw_lead ∧
      e < s.fuse.edgePorts ∧ bits word 24 8 = 0 ∧ le c.bytes 52 12 = 0 ∧ 4096 ≤ since (le c.bytes 40 8) (le c.bytes 32 8) ∧
      since (le c.bytes 40 8) (le c.bytes 32 8) ≤ 2 ^ 32 ∧ (∀ x ∈ (s.epS e).cw,
      x.1 ≠ i → closer (CwEnt.mk (le c.bytes 32 8) (le c.bytes 40 8) (bits word 0 17) (bits word 17 6)) x.2 (lead + 2048) = false) ∧
      (∀ x ∈ (s.epS e).cw, x.1 = i → s.herdTime + lead < x.2.tOpen ∨ x.2.tClose ≤ s.herdTime)) :=
  ⟨⟨(running (cmd 0x23 0 [(16, 1, 4), (17, 1, 0x83)])), 0, 0, (cmd 0x23 0 [(16, 1, 4), (17, 1, 0x83)]), (by decide +kernel),
      (And.intro (by decide +kernel) (by decide +kernel)), (by decide +kernel), (by decide +kernel)⟩,
    ⟨patchState, 0, 0, patchCmd, (by decide +kernel), (And.intro (by decide +kernel) (by decide +kernel)), (by decide +kernel), (by decide +kernel),
      (by decide +kernel), (by decide +kernel), (by decide +kernel), (by decide +kernel), (by decide +kernel), (by decide +kernel)⟩,
    ⟨(running (cmd 0x90 0 [(40, 8, 4096), (48, 4, 0x800005)])), 0, 0, (cmd 0x90 0 [(40, 8, 4096), (48, 4, 0x800005)]), 0, 0, 0x800005,
      (State.reset.rd (epB 0) KEDG_CW_CFG.cw_lead), (by decide +kernel), (And.intro (by decide +kernel) (by decide +kernel)), (by decide +kernel),
      (by decide +kernel), (by decide +kernel), (by decide +kernel), (by decide +kernel), (by decide +kernel), (by decide +kernel),
      (by decide +kernel), (by decide +kernel), (by decide +kernel), (by decide +kernel)⟩⟩

theorem wit_HerdTimeActs :
    (∃ (s : State) (q : Nat) (slot : Nat) (c : Cmd), s.inReset = false ∧ s.Runs q slot 0x0010 c ∧ bit (le c.bytes 16 1) 0 = false ∧ s.htu ≠ 1 ∧
      s.htu ≠ 3 ∧ (s.locked = true → s.freeRun = true ∧ s.plateBusy = false) ∧ s.epsOf (le c.bytes 24 8) ≠ [])
    ∧ (∃ (s : State) (q : Nat) (slot : Nat) (c : Cmd) (e : Nat), s.inReset = false ∧ s.Runs q slot 0x0010 c ∧ bit (le c.bytes 16 1) 0 = false ∧
      s.locked = true ∧ s.freeRun = false ∧ s.epsOf (le c.bytes 24 8) ≠ [] ∧ s.plt.ports ≠ le c.bytes 24 8 ∧ s.bestPort (le c.bytes 24 8) = some e ∧
      e < 64)
    ∧ (∃ (s : State) (q : Nat) (slot : Nat) (c : Cmd), s.inReset = false ∧ s.Runs q slot 0x0010 c ∧ bit (le c.bytes 16 1) 0 = true ∧ s.htu ≠ 1 ∧
      s.htu ≠ 3 ∧ (s.locked = true → s.freeRun = false ∧ s.plateBusy = false))
    ∧ (∃ (s : State) (ep : Nat) (x : RxFrame), s.inReset = false ∧ s.nextFrame ep (fun f => f.good && f.type == 3) = some x)
    ∧ (∃ (s : State) (ep : Nat) (x : RxFrame) (t4 : Nat) (delay : Int), s.inReset = false ∧
      s.nextFrame ep (fun f => f.good && f.type == 3) = some x ∧ t4 = (x.at_ + 2 ^ 64 - s.rd (epB ep) KEDG_TIME_CFG.rx_lat) % 2 ^ 64 ∧
      delay = (toS 64 (ofS 64 ((t4 : Int) - le x.bytes 24 8)) - toS 64 (ofS 64 ((le x.bytes 16 8 : Int) - le x.bytes 32 8))) / 2 + toS 8 (s.rd (epB ep) KEDG_TIME_CFG.asym) ∧
      0 ≤ delay ∧ delay ≤ 2 ^ 20 ∧ bit (le x.bytes 40 1) 0 = true ∧ le x.bytes 24 8 ≠ 0 ∧ since t4 (le x.bytes 24 8) < 2 ^ 16 ∧
      bit s.plt.ports ep = true ∧ s.rd (epB ep) KEDG_STAT.cw_span = 0 ∧ s.freeRun = false ∧ s.htu = 1 ∧ s.plt.stepped = false ∧ ep < 64)
    ∧ (∃ (s : State), s.inReset = false ∧ s.locked = true ∧ s.freeRun = false ∧ 2 ^ s.lossWin ≤ since s.herdTime s.plt.lastWord)
    ∧ (∃ (s : State), s.inReset = false ∧ s.htu = 1 ∧ s.plt.acqT + 2 ^ 27 ≤ s.fc ∧ s.plt.fromLost = true)
    ∧ (∃ (s : State) (q : Nat) (slot : Nat) (c : Cmd), s.inReset = false ∧ s.htu = 1 ∧ s.plt.acqT + 2 ^ 27 ≤ s.fc ∧ s.plt.fromLost = false ∧
      s.plt.reply = some (q, slot) ∧ s.cmdOf q slot = some c ∧ s.miomusUp = true)
    ∧ (∃ (s : State) (e : Nat), s.inReset = false ∧ s.freeRun = false ∧ (s.htu = 1 ∨ s.htu = 2) ∧ (∀ x ∈ s.plt.portWord,
      x.1 = s.rd hrdB KHRD_STATUS.ref_port → 2 ^ (s.rd (epB x.1) KEDG_TIME_CFG.tw_log2 + 2) ≤ since s.herdTime x.2) ∧ s.bestPort s.plt.ports = some e) :=
  ⟨⟨(running (cmd 0x10 0 [(24, 8, 5)])), 0, 0, (cmd 0x10 0 [(24, 8, 5)]), (by decide +kernel), (And.intro (by decide +kernel) (by decide +kernel)),
      (by decide +kernel), (by decide +kernel), (by decide +kernel), (by decide +kernel), (by decide +kernel)⟩,
    ⟨(running (cmd 0x10 0 [(24, 8, 8)]) ({ regs [(hrdB, KHRD_STATUS.state, 2, 0)] with plt.ports := 4, plt.portWord := [(3, 0)] })), 0, 0,
      (cmd 0x10 0 [(24, 8, 8)]), 3, (by decide +kernel), (And.intro (by decide +kernel) (by decide +kernel)), (by decide +kernel),
      (by decide +kernel), (by decide +kernel), (by decide +kernel), (by decide +kernel), (by decide +kernel), (by decide +kernel)⟩,
    ⟨(running (cmd 0x10 0 [(16, 1, 1)])), 0, 0, (cmd 0x10 0 [(16, 1, 1)]), (by decide +kernel), (And.intro (by decide +kernel) (by decide +kernel)),
      (by decide +kernel), (by decide +kernel), (by decide +kernel), (by decide +kernel)⟩,
    ⟨timeAt, 2, ({ bytes := timeFrame, ok := true, at_ := 10 }), (by decide +kernel), (by decide +kernel)⟩,
    ⟨timeAt, 2, ({ bytes := timeFrame, ok := true, at_ := 10 }), 10, 3, (by decide +kernel), (by decide +kernel), (by decide +kernel),
      (by decide +kernel), (by decide +kernel), (by decide +kernel), (by decide +kernel), (by decide +kernel), (by decide +kernel),
      (by decide +kernel), (by decide +kernel), (by decide +kernel), (by decide +kernel), (by decide +kernel), (by decide +kernel)⟩,
    ⟨({ regs [(hrdB, KHRD_STATUS.state, 2, 0)] with herdTime := 2 ^ 40 }), (by decide +kernel), (by decide +kernel), (by decide +kernel),
      (by decide +kernel)⟩,
    ⟨({ regs [(hrdB, KHRD_STATUS.state, 1, 0)] with fc := 2 ^ 27, plt.fromLost := true }), (by decide +kernel), (by decide +kernel),
      (by decide +kernel), (by decide +kernel)⟩,
    ⟨(running (cmd 0x10 0 [(24, 8, 5)]) ({ regs [(hrdB, KHRD_STATUS.state, 1, 0)] with fc := 2 ^ 27, plt.reply := some (0, 0) })), 0, 0,
      (cmd 0x10 0 [(24, 8, 5)]), (by decide +kernel), (by decide +kernel), (by decide +kernel), (by decide +kernel), (by decide +kernel),
      (by decide +kernel), (by decide +kernel)⟩,
    ⟨({ regs [(hrdB, KHRD_STATUS.state, 1, 0)] with plt.ports := 8, plt.portWord := [(3, 0)] }), 3, (by decide +kernel), (by decide +kernel),
      (by decide +kernel), (by decide +kernel), (by decide +kernel)⟩⟩

theorem wit_PlateCommandsAct :
    (∃ (s : State) (q : Nat) (slot : Nat) (c : Cmd) (p : Plate), s.inReset = false ∧ s.Runs q slot 0x0020 c ∧
      s.rangeOk (le c.bytes 16 8) (le c.bytes 24 4) = true ∧ s.plt.load = none ∧ s.plt.arm = none ∧
      s.w0.imageStatus (loff (le c.bytes 16 8)) (le c.bytes 24 4) = OK ∧
      readImage okType (getBytes s.mem.cells (loff (le c.bytes 16 8)) (le c.bytes 24 4)) (loff (le c.bytes 16 8)) (le c.bytes 24 4) = some p ∧
      s.plateOk p = true ∧ s.lanesOwned p = true)
    ∧ (∃ (s : State) (q : Nat) (slot : Nat) (c : Cmd) (l : Load), s.inReset = false ∧ s.cmdOf q slot = some c ∧ s.miomusUp = true ∧
      s.plt.load = some l ∧ l.q = q ∧ l.slot = slot ∧ l.left = 0)
    ∧ (∃ (s : State) (q : Nat) (slot : Nat) (c : Cmd) (l : Load), s.inReset = false ∧ s.cmdOf q slot = some c ∧ s.miomusUp = true ∧
      s.plt.load = some l ∧ l.q = q ∧ l.slot = slot ∧ l.fc + 2 ^ 26 ≤ s.fc)
    ∧ (∃ (s : State) (q : Nat) (slot : Nat) (c : Cmd) (p : Plate), s.inReset = false ∧ s.Runs q slot 0x0021 c ∧
      (if bit (le c.bytes 18 1) 0 then (if s.halted then s.plt.active else none) else s.plt.staged) = some p ∧ (∀ k < 20,
      bit p.beamMask k = true → (s.beamOf k).isSome = true) ∧ s.locked = true ∧ s.plt.load = none ∧ s.plt.arm = none ∧ s.inFault = false ∧
      2 ≤ (le c.bytes 16 2 + 2 ^ 16 - bits s.herdTime 16 16) % 2 ^ 16 ∧ (le c.bytes 16 2 + 2 ^ 16 - bits s.herdTime 16 16) % 2 ^ 16 ≤ 32767)
    ∧ (∃ (s : State) (q : Nat) (slot : Nat) (c : Cmd), s.inReset = false ∧ s.Runs q slot 0x0022 c ∧ (s.activeValid = true ∨ s.plt.arm.isSome = true)) :=
  ⟨⟨(running (cmd 0x20 0 [(24, 4, 208)]) (holding plateImage)), 0, 0, (cmd 0x20 0 [(24, 4, 208)]), plate0, (by decide +kernel),
      (And.intro (by decide +kernel) (by decide +kernel)), (by decide +kernel), (by decide +kernel), (by decide +kernel), (by decide +kernel),
      (by decide +kernel), (by decide +kernel), (by decide +kernel)⟩,
    ⟨(running (cmd 0x20 0 [(24, 4, 208)]) ({ State.reset with plt.load := some ⟨plate0, 0, 0, 0, 0⟩ })), 0, 0, (cmd 0x20 0 [(24, 4, 208)]), (⟨plate0,
      0, 0, 0, 0⟩), (by decide +kernel), (by decide +kernel), (by decide +kernel), (by decide +kernel), (by decide +kernel), (by decide +kernel),
      (by decide +kernel)⟩,
    ⟨(running (cmd 0x20 0 [(24, 4, 208)]) ({ State.reset with plt.load := some ⟨plate0, 3, 0, 0, 0⟩, fc := 2 ^ 26 })), 0, 0, (cmd 0x20 0 [(24, 4,
      208)]), (⟨plate0, 3, 0, 0, 0⟩), (by decide +kernel), (by decide +kernel), (by decide +kernel), (by decide +kernel), (by decide +kernel),
      (by decide +kernel), (by decide +kernel)⟩,
    ⟨(running (cmd 0x21 0 [(16, 2, 5)]) ({ regs [(hrdB, KHRD_STATUS.state, 2, 0)] with plt.staged := some plate0 })), 0, 0, (cmd 0x21 0 [(16, 2,
      5)]), plate0, (by decide +kernel), (And.intro (by decide +kernel) (by decide +kernel)), (by decide +kernel), (by decide +kernel),
      (by decide +kernel), (by decide +kernel), (by decide +kernel), (by decide +kernel), (by decide +kernel), (by decide +kernel)⟩,
    ⟨(running (cmd 0x22 0) (regs [(hrdB, KPLT_STATUS.active_valid, 1, 0)])), 0, 0, (cmd 0x22 0), (by decide +kernel),
      (And.intro (by decide +kernel) (by decide +kernel)), (by decide +kernel)⟩⟩

theorem wit_PlateTimeActs :
    (∃ (s : State) (throt : Bool), s.inReset = false ∧ s.isPaused = false ∧ s.plt.decisionDone = false ∧ s.atBoundary = false ∧
      s.slotIdx + 64 = s.plt.curN)
    ∧ (∃ (s : State), s.inReset = false ∧ s.isPaused = false ∧ s.atBoundary = true ∧ s.plt.boundaryDone = false)
    ∧ (∃ (s : State) (a : Arm) (p : Plate), s.inReset = false ∧ s.isPaused = false ∧ s.atBoundary = true ∧ s.plt.boundaryDone = false ∧
      s.plt.swapFire = true ∧ s.plt.arm = some a ∧ (if a.active then s.plt.active else s.plt.staged) = some p ∧ s.plt.haltPend = none ∧
      s.plt.abortPend = none ∧ s.flt.entryPeriod = false ∧ s.flt.spare = none ∧ s.plt.drain = none)
    ∧ (∃ (s : State), s.inReset = false ∧ s.isPaused = false)
    ∧ (∃ (s : State) (lanes : List LaneErr) (rows : List RowErr) (tables : List TblEntry), s.inReset = false ∧ s.isPaused = false ∧
      s.plt.slotDone = false)
    ∧ (∃ (s : State) (st : Nat) (k : Nat), s.inReset = false ∧ (s.strmAt st k).state = 2 ∧ (s.strmAt st k).runFc + 2 ^ (s.strmAt st k).tlimit ≤ s.fc) :=
  ⟨⟨(State.reset), true, (by decide +kernel), (by decide +kernel), (by decide +kernel), (by decide +kernel), (by decide +kernel)⟩,
    ⟨({ State.reset with plateTime := 64, plt.boundaryDone := false }), (by decide +kernel), (by decide +kernel), (by decide +kernel),
      (by decide +kernel)⟩,
    ⟨({ State.reset with plateTime := 64, plt.boundaryDone := false, plt.swapFire := true, plt.arm := some ⟨0, false, 0, 0⟩, plt.staged := some plate0 }),
      (⟨0, false, 0, 0⟩), plate0, (by decide +kernel), (by decide +kernel), (by decide +kernel), (by decide +kernel), (by decide +kernel),
      (by decide +kernel), (by decide +kernel), (by decide +kernel), (by decide +kernel), (by decide +kernel), (by decide +kernel),
      (by decide +kernel)⟩,
    ⟨({ State.reset with plateTime := 64, plt.laneDrain := [(1, 5), (2, 100)] }), (by decide +kernel), (by decide +kernel)⟩,
    ⟨(State.reset), ([]), ([]), ([]), (by decide +kernel), (by decide +kernel), (by decide +kernel)⟩,
    ⟨({ State.reset with sch.strm := [(strmKey 1 2, { state := 2, tlimit := 10 })], fc := 1024 }), 1, 2, (by decide +kernel), (by decide +kernel),
      (by decide +kernel)⟩⟩

theorem wit_RouteWriterActs :
    (∃ (s : State) (q : Nat) (slot : Nat) (c : Cmd), s.inReset = false ∧ s.Runs q slot 0x0030 c ∧ bits (le c.bytes 24 4) 0 19 ≠ 0 ∧
      bits (le c.bytes 24 4) 0 19 ≤ 262144 ∧ s.rangeOk (le c.bytes 16 8) (32 * bits (le c.bytes 24 4) 0 19) = true ∧ s.draining = false ∧
      s.net.commit = none ∧ s.w0.imageStatus (loff (le c.bytes 16 8)) (32 * bits (le c.bytes 24 4) 0 19) = OK ∧
      (∀ r ∈ records (bits (le c.bytes 24 4) 0 19) (getBytes s.mem.cells (loff (le c.bytes 16 8)) (32 * bits (le c.bytes 24 4) 0 19)),
      s.recordOk r = true))
    ∧ (∃ (s : State) (q : Nat) (slot : Nat) (c : Cmd), s.inReset = false ∧ s.Runs q slot 0x0031 c ∧ s.draining = false ∧ s.net.commit = none ∧
      s.rd gblB KGBL_RGEN.staging ≠ 0)
    ∧ (∃ (s : State) (q : Nat) (slot : Nat) (c : Cmd) (herd : Nat) (stage : Nat) (index : Nat) (n : Nat) (a : Nat) (ms : List Nat),
      s.inReset = false ∧ s.Runs q slot 0x00A1 c ∧ herd = bits (le c.bytes 16 2) 0 12 ∧ stage = bits (le c.bytes 18 1) 0 3 ∧
      index = bits (le c.bytes 18 1) 3 5 ∧ n = bits (le c.bytes 20 2) 0 12 ∧ a = le c.bytes 24 8 ∧ herd < 0xF00 ∧ n ≠ 0 ∧ n ≤ 2048 ∧ 1 ≤ stage ∧
      stage ≤ 4 ∧ (stage < 3 → index = 0) ∧ (stage = 3 → index < s.fuse.tines) ∧ (stage = 4 → index ≤ 19) ∧ s.rangeOk a (2 * n) = true ∧
      s.ctxLive c.ctx = true ∧ (s.hbank s.genCur).defs.find herd = none ∧ s.w0.imageStatus (loff a) (2 * n) = OK ∧
      ms = (List.range n).map (fun i => bits (le (getBytes s.mem.cells (loff a) (2 * n)) (2 * i) 2) 0 12) ∧ (∀ e ∈ ms, s.present e = true ∧
      s.place.reaches stage index (ms.headD 0) e = true) ∧ ms.Nodup)
    ∧ (∃ (s : State) (q : Nat) (slot : Nat) (c : Cmd) (herd : Nat) (d : HerdDef), s.inReset = false ∧ s.Runs q slot 0x00A1 c ∧
      herd = bits (le c.bytes 16 2) 0 12 ∧ herd < 0xF00 ∧ bits (le c.bytes 20 2) 0 12 = 0 ∧ s.ctxLive c.ctx = true ∧
      (s.hbank s.genCur).defs.find herd = some d ∧ d.ctx = c.ctx ∧ (∀ e ∈ s.col.grp, ¬(e.2.ctx = c.ctx ∧ e.2.rherd = herd)))
    ∧ (∃ (s : State), s.inReset = false ∧ s.draining = true ∧ s.inFlight (s.genDrain % 2) ≠ 0)
    ∧ (∃ (s : State), s.inReset = false ∧ s.draining = true ∧ s.inFlight (s.genDrain % 2) = 0 ∧ s.rd gblB KGBL_RGEN.zero_sweeps = 0)
    ∧ (∃ (s : State), s.inReset = false ∧ s.draining = true ∧ s.inFlight (s.genDrain % 2) = 0 ∧ 1 ≤ s.rd gblB KGBL_RGEN.zero_sweeps)
    ∧ (∃ (s : State), s.inReset = false ∧ s.draining = true ∧ s.net.drainFc + 2 ^ 24 ≤ s.fc ∧ s.net.lateTold = false)
    ∧ (∃ (s : State) (unit : Nat) (a : Packet) (w1 : W) (p : Packet), s.inReset = false ∧ 0x1000 ≤ unit ∧ unit < 0x2000 ∧
      W.takeAny { toState := s, stores := [] } unit s.staleFirst = some (a, w1) ∧ w1.net.stale.find a.sref = some p ∧
      w1.ctxFencedAt (unit - 0x1000) p.ctx = false ∧ w1.fencedAll (unit - 0x1000) = false ∧ w1.newerGen p = false)
    ∧ (∃ (s : State) (unit : Nat) (a : Packet) (w1 : W) (p : Packet), s.inReset = false ∧ 0x1000 ≤ unit ∧ unit < 0x2000 ∧
      W.takeAny { toState := s, stores := [] } unit s.staleFirst = some (a, w1) ∧ w1.net.stale.find a.sref = some p ∧
      w1.ctxFencedAt (unit - 0x1000) p.ctx = false ∧ w1.fencedAll (unit - 0x1000) = false ∧ w1.newerGen p = true)
    ∧ (∃ (s : State) (unit : Nat) (tag : Nat) (x : Nat × Packet × Nat), s.inReset = false ∧ 0x1000 ≤ unit ∧ unit < 0x2000 ∧
      s.net.held.find? (fun x => x.1 == unit && x.2.1.tag == tag && x.2.2 + 2 ^ 21 ≤ s.fc) = some x) :=
  ⟨⟨(running (cmd 0x30 0 [(24, 4, 1)])), 0, 0, (cmd 0x30 0 [(24, 4, 1)]), (by decide +kernel), (And.intro (by decide +kernel) (by decide +kernel)),
      (by decide +kernel), (by decide +kernel), (by decide +kernel), (by decide +kernel), (by decide +kernel), (by decide +kernel),
      (by decide +kernel)⟩,
    ⟨(running (cmd 0x31 0) (regs [(gblB, KGBL_RGEN.staging, 1, 0)])), 0, 0, (cmd 0x31 0), (by decide +kernel),
      (And.intro (by decide +kernel) (by decide +kernel)), (by decide +kernel), (by decide +kernel), (by decide +kernel)⟩,
    ⟨(running (cmd 0xA1 5 [(16, 2, 9), (18, 1, 2), (20, 2, 2)]) (withCtx 5 { state := 1 } (holding (fields 4 [(0, 2, 1), (2, 2, 3)])))), 0, 0,
      (cmd 0xA1 5 [(16, 2, 9), (18, 1, 2), (20, 2, 2)]), 9, 2, 0, 2, 0, ([1, 3]), (by decide +kernel),
      (And.intro (by decide +kernel) (by decide +kernel)), (by decide +kernel), (by decide +kernel), (by decide +kernel), (by decide +kernel),
      (by decide +kernel), (by decide +kernel), (by decide +kernel), (by decide +kernel), (by decide +kernel), (by decide +kernel),
      (by decide +kernel), (by decide +kernel), (by decide +kernel), (by decide +kernel), (by decide +kernel), (by decide +kernel),
      (by decide +kernel), (by decide +kernel), (by decide +kernel), (by decide +kernel)⟩,
    ⟨(running (cmd 0xA1 5 [(16, 2,
      9)]) (withCtx 5 { state := 1 } { State.reset with net.hb0 := { defs := [(9, ⟨5, 2, 0, [1, 3], State.reset.place⟩)] } })), 0, 0,
      (cmd 0xA1 5 [(16, 2, 9)]), 9, (⟨5, 2, 0, [1, 3], State.reset.place⟩), (by decide +kernel), (And.intro (by decide +kernel) (by decide +kernel)),
      (by decide +kernel), (by decide +kernel), (by decide +kernel), (by decide +kernel), (by decide +kernel), (by decide +kernel),
      (by decide +kernel)⟩,
    ⟨({ drains with net.q := [(0, [{ pkt := {}, routed := true }])] }), (by decide +kernel), (by decide +kernel), (by decide +kernel)⟩,
    ⟨drains, (by decide +kernel), (by decide +kernel), (by decide +kernel), (by decide +kernel)⟩,
    ⟨(drains [(gblB, KGBL_RGEN.zero_sweeps, 1, 0)]), (by decide +kernel), (by decide +kernel), (by decide +kernel), (by decide +kernel)⟩,
    ⟨({ drains with fc := 2 ^ 24 }), (by decide +kernel), (by decide +kernel), (by decide +kernel), (by decide +kernel)⟩,
    ⟨staleState, 0x1000, staleAns, (taken staleState 0x1000 staleState.staleFirst), ({ op := 2, vc := 1, dst := 5 }), (by decide +kernel),
      (by decide +kernel), (by decide +kernel), rfl, (by decide +kernel), (by decide +kernel), (by decide +kernel), (by decide +kernel)⟩,
    ⟨({ staleState with regs := (drains [(gblB, KGBL_RGEN.gen_cur, 1, 0)]).regs, net.stale := [(4, { op := 2, vc := 1, dst := 5 })] }), 0x1000,
      staleAns,
      (taken ({ staleState with regs := (drains [(gblB, KGBL_RGEN.gen_cur, 1, 0)]).regs, net.stale := [(4, { op := 2, vc := 1, dst := 5 })] }) 0x1000 (State.staleFirst ({ staleState with regs := (drains [(gblB, KGBL_RGEN.gen_cur, 1, 0)]).regs, net.stale := [(4, { op := 2, vc := 1, dst := 5 })] }))),
      ({ op := 2, vc := 1, dst := 5 }), (by decide +kernel), (by decide +kernel), (by decide +kernel), rfl, (by decide +kernel), (by decide +kernel),
      (by decide +kernel), (by decide +kernel)⟩,
    ⟨({ State.reset with net.held := [(0x1000, { tag := 3 }, 0)], fc := 2 ^ 21 }), 0x1000, 3, ((0x1000, { tag := 3 }, 0)), (by decide +kernel),
      (by decide +kernel), (by decide +kernel), (by decide +kernel)⟩⟩

theorem wit_StationFencesAct :
    (∃ (s : State) (q : Nat) (slot : Nat) (c : Cmd) (st : Nat), s.inReset = false ∧ s.Runs q slot 0x0050 c ∧ c.fenceEvery = false ∧
      st = s.phys c.fenceL ∧ c.fenceL < s.nStations ∧ c.ctx ≠ 0 ∧ s.fenceRuns c.fenceL false = false ∧ s.spareMoves c.fenceL = false ∧
      s.rd (stnB st) KSTN_FENCE.walk ≠ 1 ∧ Tbl.get false s.sta.fctx (st * 4096 + c.ctx) = false)
    ∧ (∃ (s : State) (q : Nat) (slot : Nat) (c : Cmd), s.inReset = false ∧ s.Runs q slot 0x0050 c ∧ c.fenceEvery = true ∧ c.fenceL < s.nStations ∧
      s.fenceRuns c.fenceL true = false ∧ s.spareMoves c.fenceL = false ∧ s.rd (stnB (s.phys c.fenceL)) KSTN_FENCE.walk ≠ 1 ∧
      s.fencedAll (s.phys c.fenceL) = false)
    ∧ (∃ (s : State) (q : Nat) (slot : Nat) (c : Cmd) (st : Nat), s.inReset = false ∧ s.Runs q slot 0x0051 c ∧ c.fenceEvery = false ∧
      st = s.phys c.fenceL ∧ c.fenceL < s.nStations ∧ c.ctx ≠ 0 ∧ s.fenceRuns c.fenceL false = false ∧ s.spareMoves c.fenceL = false ∧
      s.rd (stnB st) KSTN_FENCE.walk ≠ 1 ∧ Tbl.get false s.sta.fctx (st * 4096 + c.ctx) = true)
    ∧ (∃ (s : State) (q : Nat) (slot : Nat) (c : Cmd), s.inReset = false ∧ s.Runs q slot 0x0051 c ∧ c.fenceEvery = true ∧ c.fenceL < s.nStations ∧
      s.fenceRuns c.fenceL false = false ∧ s.spareMoves c.fenceL = false ∧ s.rd (stnB (s.phys c.fenceL)) KSTN_FENCE.walk ≠ 1 ∧
      s.fencedAll (s.phys c.fenceL) = true)
    ∧ (∃ (s : State) (slice : Nat) (x : Nat × Nat), s.inReset = false ∧ s.msp.walks.find? (fun x => x.1 == slice) = some x ∧ x.2 < 65536 ∧
      s.logi x.2 = none) :=
  ⟨⟨(running (cmd 0x50 5)), 0, 0, (cmd 0x50 5), 0, (by decide +kernel), (And.intro (by decide +kernel) (by decide +kernel)), (by decide +kernel),
      (by decide +kernel), (by decide +kernel), (by decide +kernel), (by decide +kernel), (by decide +kernel), (by decide +kernel),
      (by decide +kernel)⟩,
    ⟨(running (cmd 0x50 0 [(18, 1, 1)])), 0, 0, (cmd 0x50 0 [(18, 1, 1)]), (by decide +kernel), (And.intro (by decide +kernel) (by decide +kernel)),
      (by decide +kernel), (by decide +kernel), (by decide +kernel), (by decide +kernel), (by decide +kernel), (by decide +kernel)⟩,
    ⟨(running (cmd 0x51 5) ({ State.reset with sta.fctx := [(5, true)] })), 0, 0, (cmd 0x51 5), 0, (by decide +kernel),
      (And.intro (by decide +kernel) (by decide +kernel)), (by decide +kernel), (by decide +kernel), (by decide +kernel), (by decide +kernel),
      (by decide +kernel), (by decide +kernel), (by decide +kernel), (by decide +kernel)⟩,
    ⟨(running (cmd 0x51 0 [(18, 1, 1)]) (regs fenced0)), 0, 0, (cmd 0x51 0 [(18, 1, 1)]), (by decide +kernel),
      (And.intro (by decide +kernel) (by decide +kernel)), (by decide +kernel), (by decide +kernel), (by decide +kernel), (by decide +kernel),
      (by decide +kernel), (by decide +kernel)⟩,
    ⟨({ State.reset with msp.walks := [(0, 2243)] }), 0, ((0, 2243)), (by decide +kernel), (by decide +kernel), (by decide +kernel),
      (by decide +kernel)⟩⟩

theorem wit_RoutersRoute :
    (∃ (s : State) (router : Nat) (port : Nat) (vc : Nat) (i : Nat) (b : Buf) (out : Nat), s.inReset = false ∧ isRouter router = true ∧ port < 48 ∧
      (s.buf router port vc).findIdx? (fun b => !b.routed && !b.drop) = some i ∧ (s.buf router port vc)[i]? = some b ∧
      hdrWrong router port vc b.pkt = false ∧ b.pkt.hopPtr < b.pkt.hops ∧ out = b.pkt.hopAt b.pkt.hopPtr ∧ (out = 42 → b.pkt.op ≠ 0x60) ∧
      s.outOk router out b.pkt = true ∧ s.portDead router out = false ∧ (s.isSink router out = true → sinkPass b.pkt = true) ∧ ¬(isRR router = true ∧
      5 ≤ port ∧ port ≤ 8 ∧ out ≤ 4 ∧ b.pkt.op = 0x41 ∧ pxFinal b.pkt = false) ∧ (¬(isTine router = true ∧ (out = 17 ∨ out = 18) ∧ b.pkt.op = 0x42 ∧
      mxMerged b.pkt = false)))
    ∧ (∃ (s : State) (router : Nat) (port : Nat) (vc : Nat) (i : Nat) (b : Buf) (out : Nat), s.inReset = false ∧ isRouter router = true ∧ port < 48 ∧
      (s.buf router port vc).findIdx? (fun b => !b.routed && !b.drop) = some i ∧ (s.buf router port vc)[i]? = some b ∧
      hdrWrong router port vc b.pkt = false ∧ b.pkt.hopPtr < b.pkt.hops ∧ out = b.pkt.hopAt b.pkt.hopPtr ∧ b.pkt.op ≠ 0x60 ∧
      s.outOk router out b.pkt = true ∧ s.portDead router out = false ∧ s.isSink router out = false ∧ b.last = true ∧ (isRR router = true ∧
      5 ≤ port ∧ port ≤ 8 ∧ out ≤ 4 ∧ b.pkt.op = 0x41 ∧ pxFinal b.pkt = false))
    ∧ (∃ (s : State) (router : Nat) (port : Nat) (vc : Nat) (i : Nat) (b : Buf) (out : Nat), s.inReset = false ∧ isRouter router = true ∧ port < 48 ∧
      (s.buf router port vc).findIdx? (fun b => !b.routed && !b.drop) = some i ∧ (s.buf router port vc)[i]? = some b ∧
      hdrWrong router port vc b.pkt = false ∧ b.pkt.hopPtr < b.pkt.hops ∧ out = b.pkt.hopAt b.pkt.hopPtr ∧ b.pkt.op ≠ 0x60 ∧
      s.outOk router out b.pkt = true ∧ s.portDead router out = false ∧ s.isSink router out = false ∧ b.last = true ∧ (isTine router = true ∧
      (out = 17 ∨ out = 18) ∧ b.pkt.op = 0x42 ∧ mxMerged b.pkt = false))
    ∧ (∃ (s : State) (router : Nat) (port : Nat) (vc : Nat) (i : Nat) (b : Buf) (out : Nat), s.inReset = false ∧ isRouter router = true ∧ port < 48 ∧
      (s.buf router port vc).findIdx? (fun b => !b.routed && !b.drop) = some i ∧ (s.buf router port vc)[i]? = some b ∧
      hdrWrong router port vc b.pkt = false ∧ b.pkt.hopPtr < b.pkt.hops ∧ out = b.pkt.hopAt b.pkt.hopPtr ∧ (out = 42 → b.pkt.op ≠ 0x60) ∧
      s.outOk router out b.pkt = true ∧ s.portDead router out = true)
    ∧ (∃ (s : State) (router : Nat) (port : Nat) (vc : Nat) (i : Nat) (b : Buf) (out : Nat), s.inReset = false ∧ isRouter router = true ∧ port < 48 ∧
      (s.buf router port vc).findIdx? (fun b => !b.routed && !b.drop) = some i ∧ (s.buf router port vc)[i]? = some b ∧
      hdrWrong router port vc b.pkt = false ∧ b.pkt.hopPtr < b.pkt.hops ∧ out = b.pkt.hopAt b.pkt.hopPtr ∧ (out = 42 → b.pkt.op ≠ 0x60) ∧
      s.outOk router out b.pkt = true ∧ s.portDead router out = false ∧ s.isSink router out = true ∧ sinkPass b.pkt = false)
    ∧ (∃ (s : State) (router : Nat) (port : Nat) (vc : Nat) (i : Nat) (b : Buf), s.inReset = false ∧ isRouter router = true ∧ port < 48 ∧
      (s.buf router port vc).findIdx? (fun b => !b.routed && !b.drop) = some i ∧ (s.buf router port vc)[i]? = some b ∧
      hdrWrong router port vc b.pkt = true)
    ∧ (∃ (s : State) (router : Nat) (port : Nat) (vc : Nat) (i : Nat) (b : Buf), s.inReset = false ∧ isRouter router = true ∧ port < 48 ∧
      (s.buf router port vc).findIdx? (fun b => !b.routed && !b.drop) = some i ∧ (s.buf router port vc)[i]? = some b ∧ b.pkt.herdMode = true ∧
      b.pkt.hopPtr = b.pkt.hops ∧ b.pkt.hops < 7 ∧ (s.herdEnt b.pkt.gen router b.pkt.dst).hvalid = true ∧
      (s.herdEnt b.pkt.gen router b.pkt.dst).hctx = b.pkt.ctx ∧ (∀ o ∈ maskPorts router (s.herdEnt b.pkt.gen router b.pkt.dst).mask,
      s.outOk router o b.pkt = true ∧ s.portDead router o = false ∧ s.isSink router o = false) ∧
      maskPorts router (s.herdEnt b.pkt.gen router b.pkt.dst).mask ≠ [])
    ∧ (∃ (p : Packet) (inp : Nat), p.hop < 2 ^ 42 ∧ p.hopPtr < 7 ∧ inp < 64) :=
  ⟨⟨(atPort 0x240 1 1 (hopPkt) (State.reset)), 0x240, 1, 1, 0, ({ pkt := hopPkt, arrived := 32, last := true }), 5, (by decide +kernel),
      (by decide +kernel), (by decide +kernel), (by decide +kernel), (by decide +kernel), (by decide +kernel), (by decide +kernel),
      (by decide +kernel), (by decide +kernel), (by decide +kernel), (by decide +kernel), (by decide +kernel), (by decide +kernel),
      (by decide +kernel)⟩,
    ⟨(atPort 0x240 5 7 ({ hopPkt with op := 0x41, vc := 7, hop := 0 }) (State.reset)), 0x240, 5, 7, 0,
      ({ pkt := { hopPkt with op := 0x41, vc := 7, hop := 0 }, arrived := 32, last := true }), 0, (by decide +kernel), (by decide +kernel),
      (by decide +kernel), (by decide +kernel), (by decide +kernel), (by decide +kernel), (by decide +kernel), (by decide +kernel),
      (by decide +kernel), (by decide +kernel), (by decide +kernel), (by decide +kernel), (by decide +kernel), (by decide +kernel)⟩,
    ⟨(atPort 0x300 1 7 ({ hopPkt with op := 0x42, vc := 7, hop := hopList [17] }) (State.reset)), 0x300, 1, 7, 0,
      ({ pkt := { hopPkt with op := 0x42, vc := 7, hop := hopList [17] }, arrived := 32, last := true }), 17, (by decide +kernel),
      (by decide +kernel), (by decide +kernel), (by decide +kernel), (by decide +kernel), (by decide +kernel), (by decide +kernel),
      (by decide +kernel), (by decide +kernel), (by decide +kernel), (by decide +kernel), (by decide +kernel), (by decide +kernel),
      (by decide +kernel)⟩,
    ⟨(atPort 0x240 1 1 (hopPkt) (regs [(rtrB 0x240, KRTR_DEAD_LO.dead_lo, 32, 0)])), 0x240, 1, 1, 0,
      ({ pkt := hopPkt, arrived := 32, last := true }), 5, (by decide +kernel), (by decide +kernel), (by decide +kernel), (by decide +kernel),
      (by decide +kernel), (by decide +kernel), (by decide +kernel), (by decide +kernel), (by decide +kernel), (by decide +kernel),
      (by decide +kernel)⟩,
    ⟨(atPort 0x240 1 1 (hopPkt) (regs [(rtrB 0x240, KRTR_SINK.sink_ports, 32, 0)])), 0x240, 1, 1, 0,
      ({ pkt := hopPkt, arrived := 32, last := true }), 5, (by decide +kernel), (by decide +kernel), (by decide +kernel), (by decide +kernel),
      (by decide +kernel), (by decide +kernel), (by decide +kernel), (by decide +kernel), (by decide +kernel), (by decide +kernel),
      (by decide +kernel), (by decide +kernel), (by decide +kernel)⟩,
    ⟨(atPort 0x240 1 1 ({ hopPkt with hopPtr := 3 }) (State.reset)), 0x240, 1, 1, 0,
      ({ pkt := { hopPkt with hopPtr := 3 }, arrived := 32, last := true }), (by decide +kernel), (by decide +kernel), (by decide +kernel),
      (by decide +kernel), (by decide +kernel), (by decide +kernel)⟩,
    ⟨(atPort 0x240 1 1 (herdPkt) ({ State.reset with net.hb0 := herdBanks })), 0x240, 1, 1, 0, ({ pkt := herdPkt, arrived := 32, last := true }),
      (by decide +kernel), (by decide +kernel), (by decide +kernel), (by decide +kernel), (by decide +kernel), (by decide +kernel),
      (by decide +kernel), (by decide +kernel), (by decide +kernel), (by decide +kernel), (by decide +kernel), (by decide +kernel)⟩,
    ⟨hopPkt, 63, (by decide +kernel), (by decide +kernel), (by decide +kernel)⟩⟩

theorem wit_SubstitutionsAct :
    (∃ (s : State) (q : Nat) (slot : Nat) (c : Cmd) (what : Nat), s.inReset = false ∧ s.Runs q slot 0x0052 c ∧ bits (le c.bytes 16 1) 0 2 = 0 ∧
      what = bits (le c.bytes 18 2) 0 12 ∧ what < s.nStations ∧ s.posOf what ≠ 16 ∧ s.spareBound (s.pregOf what) = false ∧
      s.spareFailed (s.pregOf what) = false ∧ s.notReady what = false ∧ s.flt.spare = none)
    ∧ (∃ (s : State) (q : Nat) (slot : Nat) (c : Cmd) (what : Nat) (site : Nat), s.inReset = false ∧ s.Runs q slot 0x0052 c ∧
      bits (le c.bytes 16 1) 0 2 = 1 ∧ what = bits (le c.bytes 18 2) 0 12 ∧ what < s.fuse.cdActive ∧ s.freeSite = some site ∧ (∀ l ∈ moved 1 what,
      s.notReady l = false) ∧ s.flt.spare = none)
    ∧ (∃ (s : State) (q : Nat) (slot : Nat) (c : Cmd) (what : Nat) (b : Nat) (rest : List Nat), s.inReset = false ∧ s.Runs q slot 0x0052 c ∧
      bits (le c.bytes 16 1) 0 2 = 2 ∧ what = bits (le c.bytes 18 2) 0 12 ∧ what < 20 ∧ s.freeBeams = b :: rest ∧ s.flt.spare = none)
    ∧ (∃ (s : State) (site : Nat) (o : SpareOp), s.inReset = false ∧ s.flt.spare = some o ∧ o.kind = 1 ∧ o.stage = 0 ∧ o.spare = site ∧
      s.rd gblB KGBL_SITE.pgood site = 1)
    ∧ (∃ (s : State) (site : Nat) (o : SpareOp) (c : Cmd), s.inReset = false ∧ s.flt.spare = some o ∧ o.kind = 1 ∧ o.stage = 0 ∧ o.spare = site ∧
      s.cmdOf o.q o.slot = some c ∧ s.miomusUp = true)
    ∧ (∃ (s : State) (c : Commit), s.inReset = false ∧ s.net.commit = some c ∧ s.commitDue c = true)
    ∧ (∃ (s : State) (c : Commit) (x : Cmd), s.inReset = false ∧ s.net.commit = some c ∧ s.commitDue c = true ∧ s.cmdOf c.q c.slot = some x ∧
      s.miomusUp = true ∧ s.net.held = [] ∧ s.flt.spare = none)
    ∧ (∃ (s : State), s.inReset = false)
    ∧ (∃ (s : State) (ep : Nat) (l : Nat), s.inReset = false ∧ s.flt.trials.find ep = some l)
    ∧ (∃ (s : State) (ep : Nat) (l : Nat), s.inReset = false ∧ s.flt.trials.find ep = some l ∧ l < 3)
    ∧ (∃ (s : State) (loc : Nat) (part : FailedPart), s.inReset = false ∧ partLoc loc part = loc ∧ s.isDeadPart loc = false ∧ (loc ∈ s.flt.escal ∧
      s.miomusUp = true ∨ (∃ b, part = .bondPort b) ∨ ∃ u p, part = .baseLink u p)) :=
  ⟨⟨(running (cmd 0x52 0 [(18, 2, 0)]) (regs fenced0)), 0, 0, (cmd 0x52 0 [(18, 2, 0)]), 0, (by decide +kernel),
      (And.intro (by decide +kernel) (by decide +kernel)), (by decide +kernel), (by decide +kernel), (by decide +kernel), (by decide +kernel),
      (by decide +kernel), (by decide +kernel), (by decide +kernel), (by decide +kernel)⟩,
    ⟨(running (cmd 0x52 0 [(16, 1, 1), (18, 2, 3)]) (regs ((List.range 34).map (fun i => (stnB (3 * 34 + i), KSTN_FENCE.fenced_all, 1, 0))))), 0, 0,
      (cmd 0x52 0 [(16, 1, 1), (18, 2, 3)]), 3, 64, (by decide +kernel), (And.intro (by decide +kernel) (by decide +kernel)), (by decide +kernel),
      (by decide +kernel), (by decide +kernel), (by decide +kernel), (by decide +kernel), (by decide +kernel)⟩,
    ⟨(running (cmd 0x52 0 [(16, 1, 2), (18, 2, 3)])), 0, 0, (cmd 0x52 0 [(16, 1, 2), (18, 2, 3)]), 3, 20, ([21]), (by decide +kernel),
      (And.intro (by decide +kernel) (by decide +kernel)), (by decide +kernel), (by decide +kernel), (by decide +kernel), (by decide +kernel),
      (by decide +kernel)⟩,
    ⟨({ regs [(gblB, KGBL_SITE.pgood, 1, 64)] with flt.spare := some { kind := 1, what := 3, spare := 64, stage := 0, q := 0, slot := 0 } }), 64,
      ({ kind := 1, what := 3, spare := 64, stage := 0, q := 0, slot := 0 }), (by decide +kernel), (by decide +kernel), (by decide +kernel),
      (by decide +kernel), (by decide +kernel), (by decide +kernel)⟩,
    ⟨(running (cmd 0x52 0 [(16, 1, 1), (18, 2,
      3)]) ({ regs [(gblB, KGBL_SITE.pgood, 1, 64)] with flt.spare := some { kind := 1, what := 3, spare := 64, stage := 0, q := 0, slot := 0 } })),
      64, ({ kind := 1, what := 3, spare := 64, stage := 0, q := 0, slot := 0 }), (cmd 0x52 0 [(16, 1, 1), (18, 2, 3)]), (by decide +kernel),
      (by decide +kernel), (by decide +kernel), (by decide +kernel), (by decide +kernel), (by decide +kernel), (by decide +kernel)⟩,
    ⟨({ State.reset with net.commit := some ⟨0, 0, 0, true⟩ }), (⟨0, 0, 0, true⟩), (by decide +kernel), (by decide +kernel), (by decide +kernel)⟩,
    ⟨(running (cmd 0x31 0) { State.reset with net.commit := some ⟨0, 0, 0, true⟩ }), (⟨0, 0, 0, true⟩), (cmd 0x31 0), (by decide +kernel),
      (by decide +kernel), (by decide +kernel), (by decide +kernel), (by decide +kernel), (by decide +kernel), (by decide +kernel)⟩,
    ⟨({ State.reset with flt.steers := [⟨1, 0, 0, 0, 0⟩, ⟨2, 0, 0, 0, 9⟩] }), (by decide +kernel)⟩,
    ⟨({ State.reset with flt.trials := [(3, 1)] }), 3, 1, (by decide +kernel), (by decide +kernel)⟩,
    ⟨({ State.reset with flt.trials := [(3, 1)] }), 3, 1, (by decide +kernel), (by decide +kernel), (by decide +kernel)⟩,
    ⟨({ State.reset with flt.escal := [locEp 3] }), (locEp 3), (.edgeLane 3), (by decide +kernel), (by decide +kernel), (by decide +kernel),
      (by exact Or.inl (by decide))⟩⟩

theorem wit_ContextsAct :
    (∃ (s : State) (q : Nat) (slot : Nat) (c : Cmd) (a : Nat) (h : List Byte) (n : Nat) (gs : List GrantEnt), s.inReset = false ∧
      s.cx.reinit = none ∧ s.Runs q slot 0x0040 c ∧ a = le c.bytes 16 8 ∧ h = getBytes s.mem.cells (loff a) 32 ∧ n = bits (le h 4 2) 0 10 ∧
      gs = (cut32 n (getBytes s.mem.cells (loff a + 32) (32 * n))).map grantOf ∧ s.rangeOk a 32 = true ∧ s.rangeOk a (32 + 32 * n) = true ∧
      c.ctx ≠ 0 ∧ s.ctxAt c.ctx = none ∧ s.liveCount < 256 ∧ s.w0.imageStatus (loff a) (32 + 32 * n) = OK ∧ bits (le h 0 2) 0 12 = c.ctx ∧
      bits (le h 0 2) 12 3 = 0 ∧ bits (le h 4 2) 10 6 = 0 ∧ le h 6 26 = 0 ∧ 1 ≤ n ∧ (∀ g ∈ gs, s.grantOk (bit (le h 0 2) 15) g = true) ∧
      (bit (le h 0 2) 15 = true → le h 2 2 = 0) ∧ (∀ g ∈ gs, s.grantTaken g = false) ∧ (∀ e ∈ s.cx.ctx, e.2.lanes &&& le h 2 2 = 0))
    ∧ (∃ (s : State) (q : Nat) (slot : Nat) (c : Cmd) (x : Ctx), s.inReset = false ∧ s.cx.reinit = none ∧ s.Runs q slot 0x0041 c ∧ c.ctx ≠ 0 ∧
      s.ctxAt c.ctx = some x ∧ x.state = 1 ∧ s.drainSlots.length < 4)
    ∧ (∃ (s : State) (q : Nat) (slot : Nat) (c : Cmd) (x : Ctx), s.inReset = false ∧ s.cx.reinit = none ∧ s.Runs q slot 0x0042 c ∧ c.ctx ≠ 0 ∧
      s.ctxAt c.ctx = some x ∧ x.state = 3)
    ∧ (∃ (s : State) (q : Nat) (slot : Nat) (c : Cmd) (x : Ctx), s.inReset = false ∧ s.cx.reinit = none ∧ s.Runs q slot 0x0043 c ∧ c.ctx ≠ 0 ∧
      s.ctxAt c.ctx = some x ∧ x.state = 3)
    ∧ (∃ (s : State) (ctx : Nat) (x : Ctx), s.inReset = false ∧ s.ctxAt ctx = some x ∧ x.state = 2 ∧ s.drained ctx = true ∧ s.miomusUp = true)
    ∧ (∃ (s : State) (ctx : Nat) (x : Ctx), s.inReset = false ∧ s.ctxAt ctx = some x ∧ x.state = 2 ∧ x.t0 + 400000 ≤ s.fc ∧ s.drained ctx = false)
    ∧ (∃ (s : State) (ctx : Nat) (x : Ctx), s.inReset = false ∧ s.ctxAt ctx = some x ∧ x.state = 4 ∧ x.unbind = false ∧ s.removed ctx = true ∧
      x.dpend = false)
    ∧ (∃ (s : State) (ctx : Nat) (x : Ctx), s.inReset = false ∧ s.ctxAt ctx = some x ∧ x.state = 5 ∧ x.unbind = false ∧ s.removed ctx = true)
    ∧ (∃ (s : State) (ctx : Nat) (x : Ctx), s.inReset = false ∧ s.ctxAt ctx = some x ∧ x.state = 4 ∧ x.unbind = false ∧ s.removed ctx = true ∧
      x.dpend = true)
    ∧ (∃ (s : State) (ctx : Nat) (x : Ctx), s.inReset = false ∧ s.ctxAt ctx = some x ∧ x.state = 5 ∧ x.unbind = true ∧ s.miomusUp = true)
    ∧ (∃ (s : State) (ctx : Nat) (x : Ctx), s.inReset = false ∧ s.ctxAt ctx = some x ∧ x.state = 6 ∧ 2 ^ 21 ≤ since s.herdTime x.tq) :=
  ⟨⟨(running (cmd 0x40 5) (holding ctxImage)), 0, 0, (cmd 0x40 5), 0, (ctxImage.take 32), 1, ([grantOf (ctxImage.drop 32)]), (by decide +kernel),
      (by decide +kernel), (And.intro (by decide +kernel) (by decide +kernel)), (by decide +kernel), (by decide +kernel), (by decide +kernel),
      (by rfl), (by decide +kernel), (by decide +kernel), (by decide +kernel), (by decide +kernel), (by decide +kernel), (by decide +kernel),
      (by decide +kernel), (by decide +kernel), (by decide +kernel), (by decide +kernel), (by decide +kernel), (by decide +kernel),
      (by decide +kernel), (by decide +kernel), (by decide +kernel)⟩,
    ⟨(running (cmd 0x41 5) (withCtx 5 { state := 1 })), 0, 0, (cmd 0x41 5), ({ state := 1 }), (by decide +kernel), (by decide +kernel),
      (And.intro (by decide +kernel) (by decide +kernel)), (by decide +kernel), (by decide +kernel), (by decide +kernel), (by decide +kernel)⟩,
    ⟨(running (cmd 0x42 5) (withCtx 5 { state := 3 })), 0, 0, (cmd 0x42 5), ({ state := 3 }), (by decide +kernel), (by decide +kernel),
      (And.intro (by decide +kernel) (by decide +kernel)), (by decide +kernel), (by decide +kernel), (by decide +kernel)⟩,
    ⟨(running (cmd 0x43 5) (withCtx 5 { state := 3 })), 0, 0, (cmd 0x43 5), ({ state := 3 }), (by decide +kernel), (by decide +kernel),
      (And.intro (by decide +kernel) (by decide +kernel)), (by decide +kernel), (by decide +kernel), (by decide +kernel)⟩,
    ⟨(withCtx 5 { state := 2 }), 5, ({ state := 2 }), (by decide +kernel), (by decide +kernel), (by decide +kernel), (by decide +kernel),
      (by decide +kernel)⟩,
    ⟨(withCtx 5 { state := 2 } { State.reset with fc := 400000, net.req := [(0x1000 * 2 ^ 20, { pkt := { ctx := 5 }, own := .none, fc := 0 })] }), 5,
      ({ state := 2 }), (by decide +kernel), (by decide +kernel), (by decide +kernel), (by decide +kernel), (by decide +kernel)⟩,
    ⟨(withCtx 5 { state := 4 } ), 5, ({ state := 4 }), (by decide +kernel), (by decide +kernel), (by decide +kernel), (by decide +kernel),
      (by decide +kernel), (by decide +kernel)⟩,
    ⟨(withCtx 5 { state := 5 } ), 5, ({ state := 5 }), (by decide +kernel), (by decide +kernel), (by decide +kernel), (by decide +kernel),
      (by decide +kernel)⟩,
    ⟨(withCtx 5 { state := 4, dpend := true } ), 5, ({ state := 4, dpend := true }), (by decide +kernel), (by decide +kernel), (by decide +kernel),
      (by decide +kernel), (by decide +kernel), (by decide +kernel)⟩,
    ⟨(withCtx 5 { state := 5, unbind := true } ), 5, ({ state := 5, unbind := true }), (by decide +kernel), (by decide +kernel), (by decide +kernel),
      (by decide +kernel), (by decide +kernel)⟩,
    ⟨(withCtx 5 { state := 6 } { State.reset with herdTime := 2 ^ 21 }), 5, ({ state := 6 }), (by decide +kernel), (by decide +kernel),
      (by decide +kernel), (by decide +kernel)⟩⟩

theorem wit_HangsAct :
    (∃ (s : State), s.inReset = false)
    ∧ (∃ (s : State), s.inReset = false ∧ s.hbOk = false ∧ s.boot.hung = false ∧ s.rd gblB KGBL_BOOT.mp_ready ≠ 0 ∧
      (s.flt.beat = none → 800000 ≤ s.fc))
    ∧ (∃ (s : State) (cls : Nat) (index : Nat), s.inReset = false ∧ cls ≤ 6 ∧ s.engineBusy cls index = true ∧
      2 ^ s.rd gblB KGBL_ENGWD.eng_wd_log2 ≤ s.engineCount cls index ∧ s.cx.search = none)
    ∧ (∃ (s : State) (index : Nat) (l : Load), s.inReset = false ∧ s.plt.load = some l ∧ 2 ^ s.rd gblB KGBL_ENGWD.eng_wd_log2 ≤ s.engineCount 7 index)
    ∧ (∃ (s : State) (index : Nat) (c : Commit), s.inReset = false ∧ s.net.commit = some c ∧
      2 ^ s.rd gblB KGBL_ENGWD.eng_wd_log2 ≤ s.engineCount 8 index)
    ∧ (∃ (s : State) (cls : Nat) (index : Nat) (work : List Nat) (rest : List (Nat × Nat × List Nat)), s.inReset = false ∧ s.cx.search = none ∧
      s.miomusUp = true ∧ s.cx.bites = (cls, index, work) :: rest ∧ s.liveOf work = [])
    ∧ (∃ (s : State) (cls : Nat) (index : Nat) (work : List Nat) (rest : List (Nat × Nat × List Nat)) (c : Nat) (more : List Nat),
      s.inReset = false ∧ s.cx.search = none ∧ s.miomusUp = true ∧ s.cx.bites = (cls, index, work) :: rest ∧ s.liveOf work = c :: more)
    ∧ (∃ (s : State) (x : Search) (c : Nat) (more : List Nat), s.inReset = false ∧ s.cx.search = some x ∧
      x.t0 + 2 ^ s.rd gblB KGBL_ENGWD.replay_log2 ≤ s.fc ∧ s.miomusUp = true ∧ x.wait = c :: more)
    ∧ (∃ (s : State) (x : Search), s.inReset = false ∧ s.cx.search = some x ∧ x.t0 + 2 ^ s.rd gblB KGBL_ENGWD.replay_log2 ≤ s.fc ∧
      s.miomusUp = true ∧ x.wait = []) :=
  ⟨⟨(State.reset), (by decide +kernel)⟩,
    ⟨({ regs [(gblB, KGBL_BOOT.mp_ready, 1, 0)] with fc := 800000 }), (by decide +kernel), (by decide +kernel), (by decide +kernel),
      (by decide +kernel), (by decide +kernel)⟩,
    ⟨({ State.reset with sta.log := [(0, { desc := [], dq := 0, lctx := 5, lstate := 2, dseq := 0, astamp := 0 })], cx.wd := [(0 * 4096, (2 ^ 40, []))] }),
      0, 0, (by decide +kernel), (by decide +kernel), (by decide +kernel), (by decide +kernel), (by decide +kernel)⟩,
    ⟨({ State.reset with plt.load := some ⟨plate0, 3, 0, 0, 0⟩, cx.wd := [(7 * 4096, (2 ^ 40, []))] }), 0, (⟨plate0, 3, 0, 0, 0⟩),
      (by decide +kernel), (by decide +kernel), (by decide +kernel)⟩,
    ⟨({ State.reset with net.commit := some ⟨0, 0, 0, true⟩, cx.wd := [(8 * 4096, (2 ^ 40, []))] }), 0, (⟨0, 0, 0, true⟩), (by decide +kernel),
      (by decide +kernel), (by decide +kernel)⟩,
    ⟨({ State.reset with cx.bites := [(0, 0, [5])] }), 0, 0, ([5]), ([]), (by decide +kernel), (by decide +kernel), (by decide +kernel),
      (by decide +kernel), (by decide +kernel)⟩,
    ⟨(withCtx 5 { state := 1 } { State.reset with sta.log := [(0, { desc := [], dq := 0, lctx := 5, lstate := 2, dseq := 0, astamp := 0 })], cx.bites := [(0, 0, [5])] }),
      0, 0, ([5]), ([]), 5, ([]), (by decide +kernel), (by decide +kernel), (by decide +kernel), (by decide +kernel), (by decide +kernel)⟩,
    ⟨(withCtx 5 { state := 1 } { State.reset with cx.search := some ⟨0, 0, [5], [], 0⟩, fc := 2 ^ 31 }), (⟨0, 0, [5], [], 0⟩), 5, ([]),
      (by decide +kernel), (by decide +kernel), (by decide +kernel), (by decide +kernel), (by decide +kernel)⟩,
    ⟨(withCtx 5 { state := 1 } { State.reset with cx.search := some ⟨0, 0, [], [], 0⟩, fc := 2 ^ 31 }), (⟨0, 0, [], [], 0⟩), (by decide +kernel),
      (by decide +kernel), (by decide +kernel), (by decide +kernel), (by decide +kernel)⟩⟩

theorem wit_ReinitsAct :
    (∃ (s : State) (q : Nat) (slot : Nat) (c : Cmd), s.inReset = false ∧ s.Runs q slot 0x0060 c ∧ s.cx.reinit = none ∧ bits (le c.bytes 16 1) 0 3 = 1)
    ∧ (∃ (s : State) (q : Nat) (slot : Nat) (c : Cmd), s.inReset = false ∧ s.Runs q slot 0x0060 c ∧ s.cx.reinit = none ∧
      bits (le c.bytes 16 1) 0 3 = 2)
    ∧ (∃ (s : State) (q : Nat) (slot : Nat) (c : Cmd), s.inReset = false ∧ s.Runs q slot 0x0060 c ∧ s.cx.reinit = none ∧
      bits (le c.bytes 16 1) 0 3 = 3)
    ∧ (∃ (s : State) (q : Nat) (slot : Nat) (c : Cmd), s.inReset = false ∧ s.Runs q slot 0x0060 c ∧ s.cx.reinit = none ∧
      bits (le c.bytes 16 1) 0 3 = 4)
    ∧ (∃ (s : State) (q : Nat) (slot : Nat) (c : Cmd), s.inReset = false ∧ s.Runs q slot 0x0060 c ∧ s.cx.reinit = none ∧
      bits (le c.bytes 16 1) 0 3 = 5)
    ∧ (∃ (s : State) (q : Nat) (slot : Nat) (c : Cmd), s.inReset = false ∧ s.Runs q slot 0x0060 c ∧ s.cx.reinit = none ∧
      bits (le c.bytes 16 1) 0 3 = 6) :=
  ⟨⟨(running (cmd 0x60 0 [(16, 1, 1)])), 0, 0, (cmd 0x60 0 [(16, 1, 1)]), (by decide +kernel), (And.intro (by decide +kernel) (by decide +kernel)),
      (by decide +kernel), (by decide +kernel)⟩,
    ⟨(running (cmd 0x60 0 [(16, 1, 2)])), 0, 0, (cmd 0x60 0 [(16, 1, 2)]), (by decide +kernel), (And.intro (by decide +kernel) (by decide +kernel)),
      (by decide +kernel), (by decide +kernel)⟩,
    ⟨(running (cmd 0x60 0 [(16, 1, 3)])), 0, 0, (cmd 0x60 0 [(16, 1, 3)]), (by decide +kernel), (And.intro (by decide +kernel) (by decide +kernel)),
      (by decide +kernel), (by decide +kernel)⟩,
    ⟨(running (cmd 0x60 0 [(16, 1, 4)])), 0, 0, (cmd 0x60 0 [(16, 1, 4)]), (by decide +kernel), (And.intro (by decide +kernel) (by decide +kernel)),
      (by decide +kernel), (by decide +kernel)⟩,
    ⟨(running (cmd 0x60 0 [(16, 1, 5)])), 0, 0, (cmd 0x60 0 [(16, 1, 5)]), (by decide +kernel), (And.intro (by decide +kernel) (by decide +kernel)),
      (by decide +kernel), (by decide +kernel)⟩,
    ⟨(running (cmd 0x60 0 [(16, 1, 6)])), 0, 0, (cmd 0x60 0 [(16, 1, 6)]), (by decide +kernel), (And.intro (by decide +kernel) (by decide +kernel)),
      (by decide +kernel), (by decide +kernel)⟩⟩

theorem wit_RegisterAccessesAct :
    (∃ (s : State) (a : Nat) (who : Who) (b : Nat) (wn : Win), s.inReset = false ∧ b = shareAddr (a / 4 * 4) ∧ wn = winOf b ∧ s.winUp wn = true ∧
      claimTarget wn (b - wn.base) = none)
    ∧ (∃ (s : State) (a : Nat) (who : Who) (b : Nat) (wn : Win) (tgt : Nat), s.inReset = false ∧ b = shareAddr (a / 4 * 4) ∧ wn = winOf b ∧
      s.winUp wn = true ∧ claimTarget wn (b - wn.base) = some tgt ∧ (who.priv = true ∨ ∃ n ctx, wn = .stn n ∧ who = .core n ctx))
    ∧ (∃ (s : State) (a : Nat) (who : Who) (b : Nat), s.inReset = false ∧ b = shareAddr (a / 4 * 4) ∧ s.winUp (winOf b) = false)
    ∧ (∃ (s : State) (who : Who), s.inReset = false ∧ who.priv = true)
    ∧ (∃ (s : State) (a : Nat) (who : Who) (wn : Win), s.inReset = false ∧ who.priv = true ∧ a = shareAddr (a / 4 * 4) ∧ wn = winOf a ∧
      s.winUp wn = true ∧ utilLow wn (a - wn.base) = some (a - wn.base))
    ∧ (∃ (s : State) (a : Nat) (v : Nat) (who : Who) (b : Nat), s.inReset = false ∧ b = shareAddr (a / 4 * 4) ∧ s.winUp (winOf b) = true)
    ∧ (∃ (s : State) (a : Nat) (v : Nat) (who : Who), s.inReset = false ∧ s.winUp (winOf (shareAddr (a / 4 * 4))) = false) :=
  ⟨⟨(regs [(gblB, KGBL_PKG.pkg_reject, 1, 0)]), (gblB + KGBL_PKG.pkg_reject.off), (.host), (gblB + KGBL_PKG.pkg_reject.off / 4 * 4), (.gbl),
      (by decide +kernel), (by decide +kernel), (by decide +kernel), (by decide +kernel), (by decide +kernel)⟩,
    ⟨(regs [(gblB, KGBL_SITE.pgood, 1, 0)]), (stnB 0 + 0xB84), (.host), (stnB 0 + 0xB84), (.stn 0), 0, (by decide +kernel), (by decide +kernel),
      (by decide +kernel), (by decide +kernel), (by decide +kernel), (by exact Or.inl (by decide))⟩,
    ⟨(State.reset), (stnB 5 + 4), (.host), (stnB 5 + 4), (by decide +kernel), (by decide +kernel), (by decide +kernel)⟩,
    ⟨({ State.reset with herdTime := 2 ^ 33 + 5 }), (.host), (by decide +kernel), (by decide +kernel)⟩,
    ⟨((regs [(gblB, KGBL_SITE.pgood, 1, 0)]).after (fun w => w.wr (stnB 3) (utilF 0xD68) (2 ^ 40 + 7))), (stnB 3 + 0xD68), (.miomus), (.stn 3),
      (by decide +kernel), (by decide +kernel), (by decide +kernel), (by decide +kernel), (by decide +kernel), (by decide +kernel)⟩,
    ⟨(State.reset), (gblB + 0x40), 1, (.host), (gblB + 0x40), (by decide +kernel), (by decide +kernel), (by decide +kernel)⟩,
    ⟨(State.reset), (stnB 5), 1, (.host), (by decide +kernel), (by decide +kernel)⟩⟩

theorem wit_CheckedSettingsAct :
    (∃ (s : State) (a : Nat) (v : Nat) (who : Who) (k : Nat) (ty : Nat), s.inReset = false ∧ who.priv = true ∧
      K_ECFG.event.here (a - (winOf a).base) = some k ∧ (winOf a).evType = some ty ∧ s.winUp (winOf a) = true ∧ ecfgBad ty k v = false)
    ∧ (∃ (s : State) (a : Nat) (v : Nat) (who : Who) (k : Nat) (ty : Nat), s.inReset = false ∧ who.priv = true ∧
      K_ECFG.event.here (a - (winOf a).base) = some k ∧ (winOf a).evType = some ty ∧ s.winUp (winOf a) = true ∧ ecfgBad ty k v = true)
    ∧ (∃ (s : State) (u : Nat) (o : Nat) (v : Nat) (who : Who) (fs : List (Fld × Nat)), s.inReset = false ∧ who.priv = true ∧
      (o = 0x480 ∨ o = 0x484 ∨ o = 0x488) ∧ winOf (rtrB u + o) = .rtr u ∧ s.winUp (.rtr u) = true ∧
      fs = ((Win.rtr u).at o).filter (fun x => x.1.acc == .rw) ∧ (∀ x ∈ fs, 1 ≤ bits v x.1.lsb x.1.width) ∧
      State.maxTickets (s.after fun w => w.each fs (fun w x => w.wrLate (rtrB u) x.1 (bits v x.1.lsb x.1.width))) u ≤ 255)
    ∧ (∃ (s : State) (u : Nat) (o : Nat) (v : Nat) (who : Who) (x : Fld × Nat), s.inReset = false ∧ who.priv = true ∧
      (o = 0x480 ∨ o = 0x484 ∨ o = 0x488) ∧ winOf (rtrB u + o) = .rtr u ∧ s.winUp (.rtr u) = true ∧ x ∈ (Win.rtr u).at o ∧ x.1.acc = .rw ∧
      bits v x.1.lsb x.1.width = 0)
    ∧ (∃ (s : State) (e : Nat) (o : Nat) (v : Nat) (who : Who) (fs : List (Fld × Nat)), s.inReset = false ∧ who.priv = true ∧
      (o = 0x480 ∨ o = 0x484 ∨ o = 0x488) ∧ winOf (epB e + o) = .ep e ∧ s.winUp (.ep e) = true ∧
      fs = ((Win.ep e).at o).filter (fun x => x.1.acc == .rw) ∧ (∀ x ∈ fs, 1 ≤ bits v x.1.lsb x.1.width) ∧
      State.epTickets (s.after fun w => w.each fs (fun w x => w.wrLate (epB e) x.1 (bits v x.1.lsb x.1.width))) e ≤ 255)
    ∧ (∃ (s : State) (p : Nat) (v : Nat) (who : Who), s.inReset = false ∧ who.priv = true ∧ winOf (mspB p + 0x104) = .msp p ∧
      s.winUp (.msp p) = true ∧ (((Win.msp p).at 0x104).filter (fun x => x.1.acc == .rw)).all (fun x => 1 ≤ bits v x.1.lsb x.1.width) = true ∧
      (((Win.msp p).at 0x104).filter (fun x => x.1.acc == .rw)).foldl (fun n x => n + bits v x.1.lsb x.1.width) 0 ≤ 255)
    ∧ (∃ (s : State) (st : Nat) (i : Nat) (who : Who), s.inReset = false ∧ s.mayUse who 7 st i = true ∧ s.rd (stnB st) KSTN_PTAB_CFG.tvalid i ≠ 1 ∧
      s.ptabOk st i = true)
    ∧ (∃ (s : State) (st : Nat) (i : Nat) (who : Who), s.inReset = false ∧ s.mayUse who 7 st i = true ∧ s.rd (stnB st) KSTN_PTAB_CFG.tvalid i ≠ 1 ∧
      s.ptabOk st i = false)
    ∧ (∃ (s : State) (v : Nat) (who : Who), s.inReset = false ∧ who.priv = true ∧ s.liveCount = 0)
    ∧ (∃ (s : State) (v : Nat) (who : Who), s.inReset = false ∧ who.priv = true ∧ 0 < s.liveCount)
    ∧ (∃ (s : State) (e : Nat) (v : Nat) (who : Who), s.inReset = false ∧ who.priv = true) :=
  ⟨⟨(regs [(gblB, KGBL_SITE.pgood, 1, 0)]), (stnB 3 + K_ECFG.event.off), 0x5801, (.host), 0, 0, (by decide +kernel), (by decide +kernel),
      (by decide +kernel), (by decide +kernel), (by decide +kernel), (by decide +kernel)⟩,
    ⟨(regs [(gblB, KGBL_SITE.pgood, 1, 0)]), (stnB 3 + K_ECFG.event.off), 0x20, (.host), 0, 0, (by decide +kernel), (by decide +kernel),
      (by decide +kernel), (by decide +kernel), (by decide +kernel), (by decide +kernel)⟩,
    ⟨(regs [(gblB, KGBL_SITE.pgood, 1, 0)]), 0, 0x480, 0x010101, (.host), (((Win.rtr 0).at 0x480).filter (fun x => x.1.acc == .rw)),
      (by decide +kernel), (by decide +kernel), (by exact Or.inl rfl), (by decide +kernel), (by decide +kernel), (by decide +kernel),
      (by decide +kernel), (by decide +kernel)⟩,
    ⟨(regs [(gblB, KGBL_SITE.pgood, 1, 0)]), 0, 0x480, 0x010001, (.host), ((KRTR_TKW0.w_mrq, 0)), (by decide +kernel), (by decide +kernel),
      (by exact Or.inl rfl), (by decide +kernel), (by decide +kernel), (by decide +kernel), (by decide +kernel), (by decide +kernel)⟩,
    ⟨(State.reset), 3, 0x480, 0x010101, (.host), (((Win.ep 3).at 0x480).filter (fun x => x.1.acc == .rw)), (by decide +kernel), (by decide +kernel),
      (by exact Or.inl rfl), (by decide +kernel), (by decide +kernel), (by decide +kernel), (by decide +kernel), (by decide +kernel)⟩,
    ⟨(State.reset), 5, 0x02010101, (.host), (by decide +kernel), (by decide +kernel), (by decide +kernel), (by decide +kernel), (by decide +kernel),
      (by decide +kernel)⟩,
    ⟨tableState, 3, 2, (.host), (by decide +kernel), (by decide +kernel), (by decide +kernel), (by decide +kernel)⟩,
    ⟨(State.reset), 3, 2, (.host), (by decide +kernel), (by decide +kernel), (by decide +kernel), (by decide +kernel)⟩,
    ⟨(State.reset), 77, (.host), (by decide +kernel), (by decide +kernel), (by decide +kernel)⟩,
    ⟨(withCtx 5 { state := 1 }), 77, (.host), (by decide +kernel), (by decide +kernel), (by decide +kernel)⟩,
    ⟨(State.reset), 3, 5, (.host), (by decide +kernel), (by decide +kernel)⟩⟩

theorem wit_ObservationsAct :
    (∃ (s : State) (q : Nat) (slot : Nat) (c : Cmd), s.inReset = false ∧ s.Runs q slot 0x0070 c)
    ∧ (∃ (s : State) (a : Nat), s.inReset = false ∧ s.rd obsB KOBS_RD_STAT.rd_busy ≠ 1)
    ∧ (∃ (s : State) (st : Nat) (a : Nat) (dq : Nat), s.inReset = false ∧ s.rd (stnB st) KSTN_ORD_STAT.ord_busy ≠ 1)
    ∧ (∃ (s : State) (r : RdReq) (rest : List RdReq), s.inReset = false ∧ s.obs.reads = r :: rest ∧ s.obs.samp = [])
    ∧ (∃ (w : W) (r : RdReq), w.obs.samp = [r] ∧ w.readStatus r.addr r.ctx ≠ OK)
    ∧ (∃ (w : W) (r : RdReq), w.obs.samp = [r] ∧ w.readStatus r.addr r.ctx = OK ∧ utilLow (winOf r.addr) (r.addr - (winOf r.addr).base) = none)
    ∧ (∃ (w : W) (r : RdReq), w.obs.samp = [r] ∧ w.readStatus r.addr r.ctx = OK ∧ utilLow (winOf r.addr) (r.addr - (winOf r.addr).base) ≠ none)
    ∧ (∃ (s : State) (q : Nat) (slot : Nat) (c : Cmd) (u : Nat) (a : Nat), s.inReset = false ∧ s.Runs q slot 0x0071 c ∧ u = le c.bytes 16 4 ∧
      a = le c.bytes 24 8 ∧ s.capOk u = true ∧ a % 64 = 0 ∧ s.rangeOk a 96 = true ∧ (c.ctx = 0 ∨ s.rd obsB KOBS_CAP_CFG.hctx_en u ≠ 0 ∧
      s.rd obsB KOBS_CAP_CFG.hctx u = c.ctx) ∧ (bits u 16 2 = 0 → s.winUp (.stn (bits u 4 12)) = true))
    ∧ (∃ (s : State) (q : Nat) (slot : Nat) (c : Cmd) (b : Nat) (sel : Nat), s.inReset = false ∧ s.Runs q slot 0x0072 c ∧ b = le c.bytes 16 4 ∧
      sel = le c.bytes 20 4 ∧ b ≤ 15 ∧ bits sel 0 2 ≠ 3 ∧ bits sel 2 6 = 0 ∧ bits sel 16 16 ≤ 2047 ∧ s.rd obsB (KOBS_TRC_SRC.tkind.at b) ≤ 4 ∧
      (le c.bytes 24 8 ≠ 0 → le c.bytes 24 8 % 64 = 0 ∧ s.rangeOk (le c.bytes 24 8) (64 + 32 * 2048) = true))
    ∧ (∃ (s : State) (b : Nat), s.inReset = false ∧ b ≤ 15 ∧
      (s.rd obsB (KOBS_TRC_STAT.tstate.at b) = 1 ∨ s.rd obsB (KOBS_TRC_STAT.tstate.at b) = 2) ∧ (Tbl.get {} s.obs.trc b).dump = 0)
    ∧ (∃ (s : State) (b : Nat) (d : List Byte), s.inReset = false ∧ b ≤ 15 ∧
      (s.rd obsB (KOBS_TRC_STAT.tstate.at b) = 1 ∨ s.rd obsB (KOBS_TRC_STAT.tstate.at b) = 2) ∧ (Tbl.get {} s.obs.trc b).dump ≠ 0 ∧
      d = s.dumpBytes b (Tbl.get {} s.obs.trc b))
    ∧ (∃ (s : State), s.inReset = false ∧ s.herdTime % 16 = 0) :=
  ⟨⟨(running (cmd 0x70 5 [(16, 4, 0x1000D00)])), 0, 0, (cmd 0x70 5 [(16, 4, 0x1000D00)]), (by decide +kernel),
      (And.intro (by decide +kernel) (by decide +kernel))⟩,
    ⟨(State.reset), 0x1000D00, (by decide +kernel), (by decide +kernel)⟩,
    ⟨(State.reset), 3, 0x1000D00, 9, (by decide +kernel), (by decide +kernel)⟩,
    ⟨({ State.reset with obs.reads := [{ who := .package, addr := 7, ctx := none }] }), ({ who := .package, addr := 7, ctx := none }), ([]),
      (by decide +kernel), (by decide +kernel), (by decide +kernel)⟩,
    ⟨({ State.reset.w0 with obs.samp := [{ who := .package, addr := 7, ctx := none }] }), ({ who := .package, addr := 7, ctx := none }),
      (by decide +kernel), (by decide +kernel)⟩,
    ⟨({ (regs [(gblB, KGBL_SITE.pgood, 1, 0)]).w0 with obs.samp := [{ who := .package, addr := stnB 3 + K_ECNT.ecnt.off, ctx := none }] }),
      ({ who := .package, addr := stnB 3 + K_ECNT.ecnt.off, ctx := none }), (by decide +kernel), (by decide +kernel), (by decide +kernel)⟩,
    ⟨({ (regs [(gblB, KGBL_SITE.pgood, 1, 0)]).w0 with obs.samp := [{ who := .package, addr := stnB 3 + 0xD68, ctx := none }] }),
      ({ who := .package, addr := stnB 3 + 0xD68, ctx := none }), (by decide +kernel), (by decide +kernel), (by decide +kernel)⟩,
    ⟨(running (cmd 0x71 0 [(16, 4, 32), (24, 8, 4096)]) (regs [(gblB, KGBL_SITE.pgood, 1, 0)])), 0, 0, (cmd 0x71 0 [(16, 4, 32), (24, 8, 4096)]), 32,
      4096, (by decide +kernel), (And.intro (by decide +kernel) (by decide +kernel)), (by decide +kernel), (by decide +kernel), (by decide +kernel),
      (by decide +kernel), (by decide +kernel), (by decide +kernel), (by decide +kernel)⟩,
    ⟨(running (cmd 0x72 0 [(16, 4, 3), (20, 4, 0x00050101)]) (regs [(obsB, KOBS_TRC_SRC.tkind.at 3, 1, 0)])), 0, 0, (cmd 0x72 0 [(16, 4, 3), (20, 4,
      0x00050101)]), 3, 0x00050101, (by decide +kernel), (And.intro (by decide +kernel) (by decide +kernel)), (by decide +kernel),
      (by decide +kernel), (by decide +kernel), (by decide +kernel), (by decide +kernel), (by decide +kernel), (by decide +kernel),
      (by decide +kernel)⟩,
    ⟨(regs [(obsB, KOBS_TRC_STAT.tstate.at 3, 1, 0)]), 3, (by decide +kernel), (by decide +kernel), (by decide +kernel), (by decide +kernel)⟩,
    ⟨({ regs [(obsB, KOBS_TRC_STAT.tstate.at 3, 1, 0)] with obs.trc := [(3, { mode := 0, event := 0, post := 0, dump := 4096 })] }), 3,
      (State.dumpBytes ({ regs [(obsB, KOBS_TRC_STAT.tstate.at 3, 1, 0)] with obs.trc := [(3, { mode := 0, event := 0, post := 0, dump := 4096 })] }) 3 (Tbl.get {} (State.obs ({ regs [(obsB, KOBS_TRC_STAT.tstate.at 3, 1, 0)] with obs.trc := [(3, { mode := 0, event := 0, post := 0, dump := 4096 })] })).trc 3)),
      (by decide +kernel), (by decide +kernel), (by decide +kernel), (by decide +kernel), rfl⟩,
    ⟨({ State.reset with herdTime := 32 }), (by decide +kernel), (by decide +kernel)⟩⟩

theorem wit_FaultsAct :
    (∃ (s : State) (cls : Nat) (loc : Nat), s.inReset = false ∧ fatalClass cls = true ∧ loc < 384)
    ∧ (∃ (s : State) (cls : Nat) (loc : Nat), s.inReset = false ∧ isCondition cls = true ∧ loc < 384)
    ∧ (∃ (s : State), s.flt.entryFc.isSome = true ∧ s.rd fltB KFLT_STATE.fstate = 0)
    ∧ (∃ (s : State), s.inReset = false ∧ s.rd fltB KFLT_STATE.fstate = 1 ∧ s.flt.present = 0 ∧ 20000000 ≤ since s.herdTime s.flt.lastFatal ∧
      8 ≤ s.rcWin)
    ∧ (∃ (s : State), s.inReset = false ∧ s.rd fltB KFLT_STATE.fstate = 1 ∧ s.flt.present = 0 ∧ 20000000 ≤ since s.herdTime s.flt.lastFatal ∧
      s.rcWin < 8)
    ∧ (∃ (s : State), s.inReset = false ∧ s.rd fltB KFLT_STATE.fstate = 1 ∧ s.flt.present = 0 ∧ 20000000 ≤ since s.herdTime s.flt.lastFatal ∧
      s.rcWin < 8 ∧ s.msp.held = [])
    ∧ (∃ (s : State), s.inReset = false ∧ s.fc % 2000000 = 0 ∧ s.flt.stotFc ≠ s.fc + 1 ∧ s.stotRun = true ∧ s.flt.entryFc = none ∧
      s.rd fltB KFLT_STOT.stot ≤ 1)
    ∧ (∃ (s : State), s.inReset = false)
    ∧ (∃ (s : State) (src : Nat), s.inReset = false ∧ src < 384)
    ∧ (∃ (s : State) (src : Nat) (wt : Nat), src < 384 ∧ (Tbl.get {} s.flt.loc src).lasting = false ∧ (Tbl.get {} s.flt.loc src).n = 0 ∧ wt ≤ 255 ∧
      wt ≤ s.rd fltB KFLT_CFG.lt_count)
    ∧ (∃ (s : State) (src : Nat) (wt : Nat), src < 384 ∧ (Tbl.get {} s.flt.loc src).lasting = false ∧ (Tbl.get {} s.flt.loc src).n ≠ 0 ∧
      since s.herdTime (Tbl.get {} s.flt.loc src).t0 < s.rd fltB KFLT_CFG.lt_win * 2000 ∧ (Tbl.get {} s.flt.loc src).n + wt ≤ 255 ∧
      s.rd fltB KFLT_CFG.lt_count < (Tbl.get {} s.flt.loc src).n + wt)
    ∧ (∃ (s : State) (grp : Nat) (mask : Nat), s.inReset = false ∧ grp < 32)
    ∧ (∃ (s : State) (q : Nat) (slot : Nat) (c : Cmd), s.inReset = false ∧ s.Runs q slot 0x0081 c ∧ 5 < bits (le c.bytes 17 1) 0 3)
    ∧ (∃ (s : State) (q : Nat) (slot : Nat) (c : Cmd), s.inReset = false ∧ s.Runs q slot 0x0081 c ∧ bits (le c.bytes 17 1) 0 3 = 0 ∧
      bit (le c.bytes 16 1) 0 = false)
    ∧ (∃ (s : State) (q : Nat) (slot : Nat) (c : Cmd) (n : Nat) (st : Nat), s.inReset = false ∧ s.Runs q slot 0x0081 c ∧
      n = bits (le c.bytes 17 1) 0 3 ∧ n ≤ 5 ∧ (bit (le c.bytes 16 1) 0 = false → st = OK) ∧
      (bit (le c.bytes 16 1) 0 = true → s.rd fltB KFLT_STATE.fstate ≠ 2 → st = ALREADY) ∧
      (bit (le c.bytes 16 1) 0 = true → s.rd fltB KFLT_STATE.fstate = 2 → s.flt.present ≠ 0 → st = BUSY) ∧
      (bit (le c.bytes 16 1) 0 = true → s.rd fltB KFLT_STATE.fstate = 2 → s.flt.present = 0 → False))
    ∧ (∃ (s : State) (q : Nat) (slot : Nat) (c : Cmd) (n : Nat), s.inReset = false ∧ s.Runs q slot 0x0081 c ∧ n = bits (le c.bytes 17 1) 0 3 ∧
      n ≤ 5 ∧ bit (le c.bytes 16 1) 0 = true ∧ s.rd fltB KFLT_STATE.fstate = 2 ∧ s.flt.present = 0) :=
  ⟨⟨(State.reset), 17, 5, (by decide +kernel), (by decide +kernel), (by decide +kernel)⟩,
    ⟨({ State.reset with flt.present := 1 <<< clGOV }), clGOV, 5, (by decide +kernel), (by decide +kernel), (by decide +kernel)⟩,
    ⟨({ State.reset with flt.entryFc := some 1 }), (by decide +kernel), (by decide +kernel)⟩,
    ⟨({ regs [(fltB, KFLT_STATE.fstate, 1, 0)] with herdTime := 3000000000, flt.stamps := List.replicate 8 2000000000 }), (by decide +kernel),
      (by decide +kernel), (by decide +kernel), (by decide +kernel), (by decide +kernel)⟩,
    ⟨({ regs [(fltB, KFLT_STATE.fstate, 1, 0)] with herdTime := 3000000000 }), (by decide +kernel), (by decide +kernel), (by decide +kernel),
      (by decide +kernel), (by decide +kernel)⟩,
    ⟨({ regs [(fltB, KFLT_STATE.fstate, 1, 0)] with herdTime := 3000000000 }), (by decide +kernel), (by decide +kernel), (by decide +kernel),
      (by decide +kernel), (by decide +kernel), (by decide +kernel)⟩,
    ⟨({ regs [(gblB, KGBL_BOOT.mp_ready, 1, 0)] with fc := 2000000, flt.beat := some 1999999 }), (by decide +kernel), (by decide +kernel),
      (by decide +kernel), (by decide +kernel), (by decide +kernel), (by decide +kernel)⟩,
    ⟨(State.reset), (by decide +kernel)⟩,
    ⟨(State.reset), 5, (by decide +kernel), (by decide +kernel)⟩,
    ⟨(State.reset), 5, 1, (by decide +kernel), (by decide +kernel), (by decide +kernel), (by decide +kernel), (by decide +kernel)⟩,
    ⟨({ State.reset with flt.loc := [(5, { n := 200, t0 := 0 })] }), 5, 50, (by decide +kernel), (by decide +kernel), (by decide +kernel),
      (by decide +kernel), (by decide +kernel), (by decide +kernel)⟩,
    ⟨(regs [(fltB, KFLT_STICKY.sticky.at 3, 7, 0)]), 3, 5, (by decide +kernel), (by decide +kernel)⟩,
    ⟨(running (cmd 0x81 0 [(17, 1, 6)])), 0, 0, (cmd 0x81 0 [(17, 1, 6)]), (by decide +kernel), (And.intro (by decide +kernel) (by decide +kernel)),
      (by decide +kernel)⟩,
    ⟨(running (cmd 0x81 0)), 0, 0, (cmd 0x81 0), (by decide +kernel), (And.intro (by decide +kernel) (by decide +kernel)), (by decide +kernel),
      (by decide +kernel)⟩,
    ⟨(running (cmd 0x81 0 [(16, 1, 1), (17, 1, 1), (24, 4, 3), (28, 4, 5)]) (regs [(fltB, KFLT_STICKY.sticky.at 3, 7, 0)])), 0, 0, (cmd 0x81 0 [(16,
      1, 1), (17, 1, 1), (24, 4, 3), (28, 4, 5)]), 1, ALREADY, (by decide +kernel), (And.intro (by decide +kernel) (by decide +kernel)),
      (by decide +kernel), (by decide +kernel), (by decide +kernel), (by decide +kernel), (by decide +kernel),
      (by intro _ h; exact absurd h (by decide))⟩,
    ⟨(running (cmd 0x81 0 [(16, 1, 1)]) (regs [(fltB, KFLT_STATE.fstate, 2, 0)])), 0, 0, (cmd 0x81 0 [(16, 1, 1)]), 0, (by decide +kernel),
      (And.intro (by decide +kernel) (by decide +kernel)), (by decide +kernel), (by decide +kernel), (by decide +kernel), (by decide +kernel),
      (by decide +kernel)⟩⟩

theorem wit_GovernorActs :
    (∃ (s : State), s.inReset = false ∧ s.isPaused = false ∧ s.plt.blockDone = false ∧ s.slotIdx % 64 = 0)
    ∧ (∃ (s : State), s.inReset = false ∧ s.plt.govFc + 125 ≤ s.fc)
    ∧ (∃ (s : State) (d : Draws), s.inReset = false ∧ s.fc % 2000 = 0 ∧ s.plt.monFc ≠ s.fc + 1 ∧ d.differs = true)
    ∧ (∃ (s : State) (d : Draws) (x : Nat), s.inReset = false ∧ s.fc % 2000 = 0 ∧ s.plt.monFc ≠ s.fc + 1 ∧ s.plt.monLast = some x ∧
      jumps x d.measured = true)
    ∧ (∃ (s : State) (d : Draws), s.inReset = false ∧ s.fc % 2000 = 0 ∧ s.plt.monFc ≠ s.fc + 1 ∧ d.differs = false ∧ (∀ x,
      s.plt.monLast = some x → jumps x d.measured = false)) :=
  ⟨⟨(State.reset), (by decide +kernel), (by decide +kernel), (by decide +kernel), (by decide +kernel)⟩,
    ⟨({ State.reset with fc := 125 }), (by decide +kernel), (by decide +kernel)⟩,
    ⟨(State.reset), ({ measured := 5, differs := true }), (by decide +kernel), (by decide +kernel), (by decide +kernel), (by decide +kernel)⟩,
    ⟨({ State.reset with plt.monLast := some 90000 }), ({ measured := 5, differs := false }), 90000, (by decide +kernel), (by decide +kernel),
      (by decide +kernel), (by decide +kernel), (by decide +kernel)⟩,
    ⟨({ State.reset with plt.monLast := some 7 }), ({ measured := 5, differs := false }), (by decide +kernel), (by decide +kernel),
      (by decide +kernel), (by decide +kernel), (by intro x h; cases h; decide)⟩⟩

theorem wit_InterruptsAct :
    (∃ (s : State) (k : Nat), s.inReset = false ∧ srcLevel k = false ∧ (s.irq1 k).pending = false ∧ (s.irq1 k).events ≠ 0 ∧ s.srcCtime k ≠ 0 ∧
      s.srcCtime k * 64 ≤ since s.herdTime (s.irq1 k).tstart)
    ∧ (∃ (s : State) (target : Nat), s.inReset = false ∧ targetOk target = true ∧ s.irqWinner target = none)
    ∧ (∃ (s : State) (target : Nat) (k : Nat), s.inReset = false ∧ targetOk target = true ∧ s.irqWinner target = some k)
    ∧ (∃ (s : State) (st : Nat) (n : Nat), s.inReset = false ∧ n < 32 ∧ (s.irq1 (bankSrc st n)).active = true)
    ∧ (∃ (s : State) (st : Nat) (n : Nat), s.inReset = false ∧ n < 32 ∧ (s.irq1 (bankSrc st n)).active = false)
    ∧ (∃ (s : State) (target : Nat) (e : StkEnt) (rest : List StkEnt), s.inReset = false ∧ targetOk target = true ∧ s.stkOf target = e :: rest)
    ∧ (∃ (s : State) (target : Nat) (orig : Nat) (reg : Nat) (num : Nat), s.inReset = false ∧ targetOk target = true ∧ (∀ e rest,
      s.stkOf target = e :: rest → e.orig ≠ orig ∨ e.num ≠ num ∨ (orig = 2 ∧ 5000 ≤ target ∧ e.reg ≠ reg)))
    ∧ (∃ (s : State) (st : Nat) (mask : Nat), s.inReset = false)
    ∧ (∃ (s : State) (st : Nat) (mask : Nat), s.inReset = false ∧ (∀ n, n < 8 → bit mask (24 + n) = false))
    ∧ (∃ (s : State) (ctrl : Nat) (mask : Nat), s.inReset = false ∧ ctrl < 132)
    ∧ (∃ (s : State) (mask : Nat), s.inReset = false) :=
  ⟨⟨({ regs [(stnB 3, KSTN_IRQ_SRC.ctime.at 9, 1, 0)] with irq.src := [(bankSrc 3 9, { events := 1 })], herdTime := 64 }), (bankSrc 3 9),
      (by decide +kernel), (by decide +kernel), (by decide +kernel), (by decide +kernel), (by decide +kernel), (by decide +kernel)⟩,
    ⟨(State.reset), 3, (by decide +kernel), (by decide +kernel), (by decide +kernel)⟩,
    ⟨({ regs [(stnB 3, KSTN_IRQ_SRC.prio.at 9, 5, 0)] with irq.src := [(bankSrc 3 9, { events := 1, pending := true })] }), 3, (bankSrc 3 9),
      (by decide +kernel), (by decide +kernel), (by decide +kernel)⟩,
    ⟨({ State.reset with irq.src := [(bankSrc 3 9, { active := true })] }), 3, 9, (by decide +kernel), (by decide +kernel), (by decide +kernel)⟩,
    ⟨(State.reset), 3, 9, (by decide +kernel), (by decide +kernel), (by decide +kernel)⟩,
    ⟨({ State.reset with irq.stk := [(5000, [{ orig := 3, reg := 0, num := 5, prio := 2 }])], irq.src := [(pkgSrc 5, { active := true })] }), 5000,
      ({ orig := 3, reg := 0, num := 5, prio := 2 }), ([]), (by decide +kernel), (by decide +kernel), (by decide +kernel)⟩,
    ⟨(State.reset), 3, 3, 0, 5, (by decide +kernel), (by decide +kernel), (by intro e rest h; cases h)⟩,
    ⟨(State.reset), 3, 0x5000000, (by decide +kernel)⟩,
    ⟨(State.reset), 3, 0x00FFFFFF, (by decide +kernel), (by decide +kernel)⟩,
    ⟨(State.reset), 5, 3, (by decide +kernel), (by decide +kernel)⟩,
    ⟨(State.reset), 3, (by decide +kernel)⟩⟩

theorem wit_ArbitersAct :
    (∃ (s : State) (u : Nat) (port : Nat) (net : Nat) (errs : List Err) (a : Arb) (s0 : State), s.inReset = false ∧
      (u < 0x2000 ∨ 0x2080 ≤ u ∨ port = 0) ∧ s.peer u port ≠ none ∧ net < 4 ∧ a = s.arb u port net ∧ a.drawn ≠ s.fc + 1 ∧
      s0 = (s.after fun w => w.absorbDead u port) ∧ (net = 3 → s0.datOpen u port a = true))
    ∧ (∃ (s : State) (u : Nat) (port : Nat) (errs : List Err) (a : Arb) (s0 : State), s.inReset = false ∧ (u < 0x2000 ∨ 0x2080 ≤ u ∨ port = 0) ∧
      s.peer u port ≠ none ∧ a = s.arb u port 3 ∧ a.drawn ≠ s.fc + 1 ∧ s0 = (s.after fun w => w.absorbDead u port) ∧ s0.datOpen u port a = false ∧
      a.placing = [])
    ∧ (∃ (s : State) (u : Nat) (port : Nat) (net : Nat) (errs : List Err), s.inReset = false ∧ (u < 0x2000 ∨ 0x2080 ≤ u ∨ port = 0) ∧
      s.peer u port ≠ none ∧ net < 4 ∧ (s.arb u port net).drawn = s.fc + 1)
    ∧ (∃ (s : State) (m : Nat) (net : Nat) (errs : List Err), s.inReset = false ∧ m < 64)
    ∧ (∃ (s : State) (u : Nat) (port : Nat) (net : Nat), s.inReset = false ∧ s.herdTime % 2 ^ s.rdOld (setB u) KRTR_QUOTA.q_win_log2 = 0)
    ∧ (∃ (s : State) (u : Nat) (port : Nat) (net : Nat) (vc : Nat) (h : Hold) (i : Nat) (b : Buf) (c : Copy), s.inReset = false ∧
      (s.arb u port net).holds.find vc = some h ∧ 2 ^ s.rdOld (setB u) KRTR_WDOG.wd_log2 ≤ h.emptyT ∧
      Tbl.get 0 s.net.used (qKey u port vc) < vcDepth vc ∧
      (s.buf u h.src vc).findIdx? (fun b => b.copies.any (fun c => c.port == port && c.sent != 0)) = some i ∧ (s.buf u h.src vc)[i]? = some b ∧
      b.copies.find? (fun c => c.port == port) = some c ∧ c.pkt.vc = vc)
    ∧ (∃ (s : State) (u : Nat) (port : Nat) (net : Nat) (vc : Nat) (h : Hold), s.inReset = false ∧ (s.arb u port net).holds.find vc = some h ∧
      2 ^ s.rdOld (setB u) KRTR_WDOG.wd_log2 ≤ h.emptyT ∧ Tbl.get 0 s.net.used (qKey u port vc) < vcDepth vc ∧
      (s.buf u h.src vc).findIdx? (fun b => b.copies.any (fun c => c.port == port && c.sent != 0)) = none)
    ∧ (∃ (s : State) (u : Nat) (port : Nat) (cvc : Nat) (cnt : Nat) (errs : List Err) (v : Nat) (pv : Nat), s.inReset = false ∧
      s.peer u port = some (v, pv) ∧ cvc < 16 ∧ cnt ≤ 15 ∧ errsOf errs 0 = [])
    ∧ (∃ (s : State) (u : Nat) (port : Nat) (cvc : Nat) (cnt : Nat) (errs : List Err) (v : Nat) (pv : Nat) (n : Nat), s.inReset = false ∧
      s.peer u port = some (v, pv) ∧ isRouter u = true ∧ cvc < 16 ∧ cnt ≤ 15 ∧ n = min cnt (Tbl.get 0 s.net.owed (qKey v pv cvc)) ∧
      errsOf errs 0 ≠ [] ∧ rxWord s.freeCtr (creditWord cvc n) (errsOf errs 0) = .lost) :=
  ⟨⟨(State.reset), 0x300, 0, 0, ([]), (State.reset.arb 0x300 0 0), (State.reset), (by decide +kernel), (by decide +kernel), (by decide +kernel),
      (by decide +kernel), (by decide +kernel), (by decide +kernel), rfl, (by decide +kernel)⟩,
    ⟨(State.reset), 0x300, 0, ([]), (State.reset.arb 0x300 0 3), (State.reset), (by decide +kernel), (by decide +kernel), (by decide +kernel),
      (by decide +kernel), (by decide +kernel), rfl, (by decide +kernel), (by decide +kernel)⟩,
    ⟨({ State.reset with net.arbs := [((0x300 * 64 + 0) * 4 + 0, { lfsr := 1, drawn := 1 })] }), 0x300, 0, 0, ([]), (by decide +kernel),
      (by decide +kernel), (by decide +kernel), (by decide +kernel), (by decide +kernel)⟩,
    ⟨(State.reset), 3, 1, ([]), (by decide +kernel), (by decide +kernel)⟩,
    ⟨(State.reset), 0x300, 0, 0, (by decide +kernel), (by decide +kernel)⟩,
    ⟨({ State.reset with net.arbs := [((0x300 * 64 + 0) * 4 + 0, { lfsr := 1, holds := [(1, ⟨2, 3, 0, 2 ^ 16⟩)] })], net.q := [(qKey 0x300 2 1, [{ pkt := hopPkt, arrived := 64, routed := true, copies := [⟨0, hopPkt, 3⟩] }])] }),
      0x300, 0, 0, 1, (⟨2, 3, 0, 2 ^ 16⟩), 0, ({ pkt := hopPkt, arrived := 64, routed := true, copies := [⟨0, hopPkt, 3⟩] }), (⟨0, hopPkt, 3⟩),
      (by decide +kernel), (by decide +kernel), (by decide +kernel), (by decide +kernel), (by decide +kernel), (by decide +kernel),
      (by decide +kernel), (by decide +kernel)⟩,
    ⟨({ State.reset with net.arbs := [((0x300 * 64 + 0) * 4 + 0, { lfsr := 1, holds := [(1, ⟨2, 3, 0, 2 ^ 16⟩)] })] }), 0x300, 0, 0, 1, (⟨2, 3, 0,
      2 ^ 16⟩), (by decide +kernel), (by decide +kernel), (by decide +kernel), (by decide +kernel), (by decide +kernel)⟩,
    ⟨({ State.reset with net.owed := [(qKey 0x240 5 1, 4)], net.used := [(qKey 0x300 0 1, 9)] }), 0x300, 0, 1, 3, ([]), 0x240, 5,
      (by decide +kernel), (by decide +kernel), (by decide +kernel), (by decide +kernel), (by decide +kernel)⟩,
    ⟨({ State.reset with net.owed := [(qKey 0x240 5 1, 4)], net.used := [(qKey 0x300 0 1, 9)] }), 0x300, 0, 1, 3, ([⟨0, 0, 1⟩, ⟨0, 1, 2⟩, ⟨0, 2, 4⟩,
      ⟨0, 3, 8⟩]), 0x240, 5, 3, (by decide +kernel), (by decide +kernel), (by decide +kernel), (by decide +kernel), (by decide +kernel),
      (by decide +kernel), (by decide +kernel), (by decide +kernel)⟩⟩

theorem wit_TargetsAct :
    (∃ (s : State) (m : Nat) (p : Packet), s.inReset = false ∧ m < 64 ∧ s.nextReq m 0x02 = some p ∧ s.memCheck m p = OK ∧ s.deferBars m p = false)
    ∧ (∃ (s : State) (m : Nat) (p : Packet), s.inReset = false ∧ m < 64 ∧ s.nextReq m 0x01 = some p ∧ s.memCheck m p = OK)
    ∧ (∃ (s : State) (m : Nat) (p : Packet), s.inReset = false ∧ m < 64 ∧ s.nextReq m 0x0C = some p ∧ s.memCheck m p = OK)
    ∧ (∃ (s : State) (m : Nat) (p : Packet), s.inReset = false ∧ m < 64 ∧ s.nextReq m 0x0A = some p ∧ s.memCheck m p = OK ∧ s.deferBars m p = false)
    ∧ (∃ (s : State) (m : Nat) (p : Packet), s.inReset = false ∧ m < 64 ∧ s.memCheck m p = OK ∧ s.deferBars m p = true ∧ s.nextReq m 0x02 = some p)
    ∧ (∃ (s : State) (m : Nat) (p : Packet), s.inReset = false ∧ m < 64 ∧ s.memCheck m p = OK ∧ s.deferBars m p = true ∧ s.nextReq m 0x0A = some p)
    ∧ (∃ (s : State) (m : Nat) (p : Packet), s.inReset = false ∧ m < 64 ∧ s.memCheck m p ≠ OK ∧ s.nextReq m 0x02 = some p)
    ∧ (∃ (s : State) (m : Nat) (p : Packet), s.inReset = false ∧ m < 64 ∧ s.memCheck m p ≠ OK ∧ s.nextReq m 0x01 = some p)
    ∧ (∃ (s : State) (m : Nat) (p : Packet), s.inReset = false ∧ m < 64 ∧ s.memCheck m p ≠ OK ∧ s.nextReq m 0x0C = some p)
    ∧ (∃ (s : State) (m : Nat) (p : Packet), s.inReset = false ∧ m < 64 ∧ s.memCheck m p ≠ OK ∧ s.nextReq m 0x0A = some p)
    ∧ (∃ (s : State) (st : Nat) (p : Packet) (w : W), s.inReset = false ∧ st < 4096 ∧
      s.w0.takeAny (uSt st) (fun x => x.op == 0x02 && !s.stnWaits st x) = some (p, w) ∧ w.stnCheck st p = OK)
    ∧ (∃ (s : State) (st : Nat) (p : Packet) (w : W), s.inReset = false ∧ st < 4096 ∧
      s.w0.takeAny (uSt st) (fun x => x.op == 0x01 && !s.stnWaits st x) = some (p, w) ∧ w.stnCheck st p = OK)
    ∧ (∃ (s : State) (st : Nat) (p : Packet) (w : W), s.inReset = false ∧ st < 4096 ∧
      s.w0.takeAny (uSt st) (fun x => x.op == 0x0C && !s.stnWaits st x) = some (p, w) ∧ w.stnCheck st p = OK)
    ∧ (∃ (s : State) (st : Nat) (p : Packet) (w : W), s.inReset = false ∧ st < 4096 ∧
      s.w0.takeAny (uSt st) (fun x => x.op == 0x0A && !s.stnWaits st x) = some (p, w) ∧ w.stnCheck st p = OK)
    ∧ (∃ (s : State) (st : Nat) (p : Packet) (w : W), s.inReset = false ∧ st < 4096 ∧ w.stnCheck st p ≠ OK ∧
      s.w0.takeAny (uSt st) (fun x => x.op == 0x02 && !s.stnWaits st x) = some (p, w))
    ∧ (∃ (s : State) (st : Nat) (p : Packet) (w : W), s.inReset = false ∧ st < 4096 ∧ w.stnCheck st p ≠ OK ∧
      s.w0.takeAny (uSt st) (fun x => x.op == 0x01 && !s.stnWaits st x) = some (p, w))
    ∧ (∃ (s : State) (st : Nat) (p : Packet) (w : W), s.inReset = false ∧ st < 4096 ∧ w.stnCheck st p ≠ OK ∧
      s.w0.takeAny (uSt st) (fun x => x.op == 0x0C && !s.stnWaits st x) = some (p, w))
    ∧ (∃ (s : State) (st : Nat) (p : Packet) (w : W), s.inReset = false ∧ st < 4096 ∧ w.stnCheck st p ≠ OK ∧
      s.w0.takeAny (uSt st) (fun x => x.op == 0x0A && !s.stnWaits st x) = some (p, w))
    ∧ (∃ (s : State) (u : Nat) (p : Packet) (w : W), s.inReset = false ∧ (u = uFmp ∨ u = uHost) ∧ s.Takes u 0x02 p w)
    ∧ (∃ (s : State) (u : Nat) (p : Packet) (w : W), s.inReset = false ∧ (u = uFmp ∨ u = uHost) ∧ s.Takes u 0x01 p w)
    ∧ (∃ (s : State) (u : Nat) (p : Packet) (w : W), s.inReset = false ∧ (u = uFmp ∨ u = uHost) ∧ s.Takes u 0x0C p w)
    ∧ (∃ (s : State) (u : Nat) (p : Packet) (w : W), s.inReset = false ∧ (u = uFmp ∨ u = uHost) ∧ s.Takes u 0x0A p w) :=
  ⟨⟨(intake mRead), 0, mRead, (by decide +kernel), (by decide +kernel), (by decide +kernel), (by decide +kernel), (by decide +kernel)⟩,
    ⟨(intake mWrite), 0, mWrite, (by decide +kernel), (by decide +kernel), (by decide +kernel), (by decide +kernel)⟩,
    ⟨(intake mCwrite), 0, mCwrite, (by decide +kernel), (by decide +kernel), (by decide +kernel), (by decide +kernel)⟩,
    ⟨(intake mAtomic), 0, mAtomic, (by decide +kernel), (by decide +kernel), (by decide +kernel), (by decide +kernel), (by decide +kernel)⟩,
    ⟨(poolFull mRead), 0, mRead, (by decide +kernel), (by decide +kernel), (by decide +kernel), (by decide +kernel), (by decide +kernel)⟩,
    ⟨(poolFull mAtomic), 0, mAtomic, (by decide +kernel), (by decide +kernel), (by decide +kernel), (by decide +kernel), (by decide +kernel)⟩,
    ⟨(intake ({ mRead with addr := 0x7E * 2 ^ 40 })), 0, ({ mRead with addr := 0x7E * 2 ^ 40 }), (by decide +kernel), (by decide +kernel),
      (by decide +kernel), (by decide +kernel)⟩,
    ⟨(intake ({ mWrite with addr := 0x7E * 2 ^ 40 })), 0, ({ mWrite with addr := 0x7E * 2 ^ 40 }), (by decide +kernel), (by decide +kernel),
      (by decide +kernel), (by decide +kernel)⟩,
    ⟨(intake ({ mCwrite with addr := 0x7E * 2 ^ 40 })), 0, ({ mCwrite with addr := 0x7E * 2 ^ 40 }), (by decide +kernel), (by decide +kernel),
      (by decide +kernel), (by decide +kernel)⟩,
    ⟨(intake ({ mAtomic with addr := 0x7E * 2 ^ 40 })), 0, ({ mAtomic with addr := 0x7E * 2 ^ 40 }), (by decide +kernel), (by decide +kernel),
      (by decide +kernel), (by decide +kernel)⟩,
    ⟨(wait0 ((toSram mRead))), 0, ((toSram mRead)),
      (taken (wait0 ((toSram mRead))) 0x1000 (fun x => x.op == 2 && !(wait0 ((toSram mRead))).stnWaits 0 x)), (by decide +kernel),
      (by decide +kernel), rfl, (by decide +kernel)⟩,
    ⟨(wait0 ((toSram mWrite))), 0, ((toSram mWrite)),
      (taken (wait0 ((toSram mWrite))) 0x1000 (fun x => x.op == 1 && !(wait0 ((toSram mWrite))).stnWaits 0 x)), (by decide +kernel),
      (by decide +kernel), rfl, (by decide +kernel)⟩,
    ⟨(wait0 ((toSram mCwrite))), 0, ((toSram mCwrite)),
      (taken (wait0 ((toSram mCwrite))) 0x1000 (fun x => x.op == 12 && !(wait0 ((toSram mCwrite))).stnWaits 0 x)), (by decide +kernel),
      (by decide +kernel), rfl, (by decide +kernel)⟩,
    ⟨(wait0 ((toSram mAtomic))), 0, ((toSram mAtomic)),
      (taken (wait0 ((toSram mAtomic))) 0x1000 (fun x => x.op == 10 && !(wait0 ((toSram mAtomic))).stnWaits 0 x)), (by decide +kernel),
      (by decide +kernel), rfl, (by decide +kernel)⟩,
    ⟨(wait0 ({ toSram mRead with ctx := 5 })), 0, ({ toSram mRead with ctx := 5 }),
      (taken (wait0 ({ toSram mRead with ctx := 5 })) 0x1000 (fun x => x.op == 2 && !(wait0 ({ toSram mRead with ctx := 5 })).stnWaits 0 x)),
      (by decide +kernel), (by decide +kernel), (by decide +kernel), rfl⟩,
    ⟨(wait0 ({ toSram mWrite with ctx := 5 })), 0, ({ toSram mWrite with ctx := 5 }),
      (taken (wait0 ({ toSram mWrite with ctx := 5 })) 0x1000 (fun x => x.op == 1 && !(wait0 ({ toSram mWrite with ctx := 5 })).stnWaits 0 x)),
      (by decide +kernel), (by decide +kernel), (by decide +kernel), rfl⟩,
    ⟨(wait0 ({ toSram mCwrite with ctx := 5 })), 0, ({ toSram mCwrite with ctx := 5 }),
      (taken (wait0 ({ toSram mCwrite with ctx := 5 })) 0x1000 (fun x => x.op == 12 && !(wait0 ({ toSram mCwrite with ctx := 5 })).stnWaits 0 x)),
      (by decide +kernel), (by decide +kernel), (by decide +kernel), rfl⟩,
    ⟨(wait0 ({ toSram mAtomic with ctx := 5 })), 0, ({ toSram mAtomic with ctx := 5 }),
      (taken (wait0 ({ toSram mAtomic with ctx := 5 })) 0x1000 (fun x => x.op == 10 && !(wait0 ({ toSram mAtomic with ctx := 5 })).stnWaits 0 x)),
      (by decide +kernel), (by decide +kernel), (by decide +kernel), rfl⟩,
    ⟨(waits uHost mRead), uHost, mRead, (taken (waits uHost mRead) uHost (fun x => x.op == 2)), (by decide +kernel), (by exact Or.inr rfl), rfl⟩,
    ⟨(waits uHost mWrite), uHost, mWrite, (taken (waits uHost mWrite) uHost (fun x => x.op == 1)), (by decide +kernel), (by exact Or.inr rfl), rfl⟩,
    ⟨(waits uHost mCwrite), uHost, mCwrite, (taken (waits uHost mCwrite) uHost (fun x => x.op == 12)), (by decide +kernel), (by exact Or.inr rfl),
      rfl⟩,
    ⟨(waits uHost mAtomic), uHost, mAtomic, (taken (waits uHost mAtomic) uHost (fun x => x.op == 10)), (by decide +kernel), (by exact Or.inr rfl),
      rfl⟩⟩

theorem wit_VisibilityActs :
    (∃ (s : State) (u : Nat) (src : Nat) (c : Uncounted), s.inReset = false ∧ s.msp.count.find (cntKey u src) = some c ∧ c.fc + 64 ≤ s.fc)
    ∧ (∃ (s : State) (port : Nat) (tag : Nat) (o : MemOp) (p : Packet), s.inReset = false ∧ s.msp.opens.find (port * 1024 + tag) = some o ∧
      o.we = true ∧ o.act = .answer p ∧ p.op ≠ 0x0A ∧ p.op ≠ 0x07 ∧
      (p.op = 0x70 → (s.msp.opens.del (port * 1024 + tag)).any (fun x => x.2.we && x.2.act == .answer p) = false))
    ∧ (∃ (s : State) (port : Nat) (tag : Nat) (o : MemOp) (p : Packet), s.inReset = false ∧ s.msp.opens.find (port * 1024 + tag) = some o ∧
      o.we = true ∧ o.act = .answer p ∧ p.op = 0x0A)
    ∧ (∃ (s : State) (port : Nat) (tag : Nat) (o : MemOp) (key : Nat) (e : DirEnt), s.inReset = false ∧
      s.msp.opens.find (port * 1024 + tag) = some o ∧ o.we = true ∧ o.act = .line key ∧ s.msp.dir.find key = some e)
    ∧ (∃ (s : State) (st : Nat) (p : Packet) (w : W), s.inReset = false ∧ s.Takes (uSt st) 0x0D p w ∧ w.owns 5 st (p.aux % 256) p.ctx = true)
    ∧ (∃ (s : State) (st : Nat) (p : Packet) (w : W), s.inReset = false ∧ s.Takes (uSt st) 0x0D p w ∧ w.owns 5 st (p.aux % 256) p.ctx = false)
    ∧ (∃ (s : State) (st : Nat), s.inReset = false) :=
  ⟨⟨({ State.reset with msp.count := [(cntKey 0x2000 5, ⟨3, 0, []⟩)], fc := 64 }), 0x2000, 5, (⟨3, 0, []⟩), (by decide +kernel),
      (by decide +kernel), (by decide +kernel)⟩,
    ⟨({ State.reset with msp.opens := [(5 * 1024 + 9, { we := true, loff := 0, lines := 1, act := .answer mWrite })] }), 5, 9,
      ({ we := true, loff := 0, lines := 1, act := .answer mWrite }), mWrite, (by decide +kernel), (by decide +kernel), (by decide +kernel),
      (by decide +kernel), (by decide +kernel), (by decide +kernel), (by decide +kernel)⟩,
    ⟨({ State.reset with msp.opens := [(5 * 1024 + 9, { we := true, loff := 0, lines := 1, act := .answer mAtomic })] }), 5, 9,
      ({ we := true, loff := 0, lines := 1, act := .answer mAtomic }), mAtomic, (by decide +kernel), (by decide +kernel), (by decide +kernel),
      (by decide +kernel), (by decide +kernel)⟩,
    ⟨(dirWith { ent 2 [9] with busy := true, upd := true } { State.reset with msp.opens := [(5 * 1024 + 9, { we := true, loff := 0, lines := 1, act := .line line0 })] }),
      5, 9, ({ we := true, loff := 0, lines := 1, act := .line line0 }), line0, ({ ent 2 [9] with busy := true, upd := true }), (by decide +kernel),
      (by decide +kernel), (by decide +kernel), (by decide +kernel), (by decide +kernel)⟩,
    ⟨(wait0 cc7 (binds [(5, 0, 7, 5)])), 0, cc7, (taken (wait0 cc7 (binds [(5, 0, 7, 5)])) 0x1000 (fun x => x.op == 0x0D)), (by decide +kernel), rfl,
      (by decide +kernel)⟩,
    ⟨(wait0 cc7 (binds [(5, 0, 7, 6)])), 0, cc7, (taken (wait0 cc7 (binds [(5, 0, 7, 6)])) 0x1000 (fun x => x.op == 0x0D)), (by decide +kernel), rfl,
      (by decide +kernel)⟩,
    ⟨({ State.reset with sta.dbuf := [(3, [⟨0, [1], false, false, .nothing⟩])] }), 3, (by decide +kernel)⟩⟩

theorem wit_FoliosAct :
    (∃ (s : State) (u : Nat) (port : Nat) (i : Nat) (b : Buf) (w : W), s.inReset = false ∧ isRouter u = true ∧ s.routerFolio u port = some (i, b) ∧
      w = s.w0.dropNth u port 8 i ∧ w.folioCheck u b.pkt ≠ OK)
    ∧ (∃ (s : State) (u : Nat) (port : Nat) (i : Nat) (b : Buf) (w : W), s.inReset = false ∧ isRouter u = true ∧ s.routerFolio u port = some (i, b) ∧
      w = s.w0.dropNth u port 8 i ∧ w.folioCheck u b.pkt = OK)
    ∧ (∃ (s : State) (u : Nat) (port : Nat) (p : Packet) (w : W), s.inReset = false ∧ isRouter u = false ∧
      s.w0.takeAny u (fun p => p.op == 0x70 && (p.ans != 0 || foSpace p != 0 || s.folioRoom u)) = some (p, w) ∧ p.ans = 0 ∧ w.folioCheck u p ≠ OK)
    ∧ (∃ (s : State) (u : Nat) (port : Nat) (p : Packet) (w : W), s.inReset = false ∧ isRouter u = false ∧
      s.w0.takeAny u (fun p => p.op == 0x70 && (p.ans != 0 || foSpace p != 0 || s.folioRoom u)) = some (p, w) ∧ p.ans = 0 ∧ w.folioCheck u p = OK)
    ∧ (∃ (s : State) (port : Nat) (p : Packet) (w : W), s.inReset = false ∧
      s.w0.takeAny uHost (fun p => p.op == 0x70 && (p.ans != 0 || foSpace p != 0 || s.folioRoom uHost)) = some (p, w) ∧ p.ans ≠ 0) :=
  ⟨⟨(rtrWaits 0x300 badFolio), 0x300, 0, 0, ({ pkt := badFolio, arrived := Packet.size badFolio, last := true }),
      ((rtrWaits 0x300 badFolio).w0.dropNth 0x300 0 8 0), (by decide +kernel), (by decide +kernel), (by decide +kernel), rfl, (by decide +kernel)⟩,
    ⟨(rtrWaits 0x300 regFolio), 0x300, 0, 0, ({ pkt := regFolio, arrived := Packet.size regFolio, last := true }),
      ((rtrWaits 0x300 regFolio).w0.dropNth 0x300 0 8 0), (by decide +kernel), (by decide +kernel), (by decide +kernel), rfl, (by decide +kernel)⟩,
    ⟨(wait0 ({ badFolio with ext := fields 32 [] })), 0x1000, 0, ({ badFolio with ext := fields 32 [] }),
      (folioTaken (wait0 ({ badFolio with ext := fields 32 [] })) 0x1000), (by decide +kernel), (by decide +kernel), rfl, (by decide +kernel),
      (by decide +kernel)⟩,
    ⟨(wait0 (sramFolio)), 0x1000, 0, sramFolio, (folioTaken (wait0 (sramFolio)) 0x1000), (by decide +kernel), (by decide +kernel), rfl,
      (by decide +kernel), (by decide +kernel)⟩,
    ⟨(waits uHost ({ sramFolio with ans := 0x70 })), 0, ({ sramFolio with ans := 0x70 }),
      (folioTaken (waits uHost ({ sramFolio with ans := 0x70 })) uHost), (by decide +kernel), rfl, (by decide +kernel)⟩⟩

theorem wit_DirectoryActs :
    (∃ (s : State) (m : Nat) (p : Packet), s.inReset = false ∧ s.memCheck m p = OK ∧ s.deferBars m p = false ∧ s.nextReq m 0x04 = some p)
    ∧ (∃ (s : State) (m : Nat) (p : Packet), s.inReset = false ∧ s.memCheck m p = OK ∧ s.deferBars m p = false ∧ s.nextReq m 0x05 = some p)
    ∧ (∃ (s : State) (m : Nat) (p : Packet), s.inReset = false ∧ s.memCheck m p = OK ∧ s.deferBars m p = false ∧ s.nextReq m 0x06 = some p)
    ∧ (∃ (s : State) (m : Nat) (p : Packet), s.inReset = false ∧ s.memCheck m p ≠ OK ∧ s.nextReq m 0x04 = some p)
    ∧ (∃ (s : State) (m : Nat) (p : Packet), s.inReset = false ∧ s.memCheck m p ≠ OK ∧ s.nextReq m 0x05 = some p)
    ∧ (∃ (s : State) (m : Nat) (p : Packet), s.inReset = false ∧ s.memCheck m p ≠ OK ∧ s.nextReq m 0x06 = some p)
    ∧ (∃ (s : State) (m : Nat) (p : Packet), s.inReset = false ∧ s.memCheck m p = OK ∧ s.deferBars m p = true ∧ s.nextReq m 0x04 = some p)
    ∧ (∃ (s : State) (m : Nat) (p : Packet), s.inReset = false ∧ s.memCheck m p = OK ∧ s.deferBars m p = true ∧ s.nextReq m 0x05 = some p)
    ∧ (∃ (s : State) (m : Nat) (p : Packet), s.inReset = false ∧ s.memCheck m p = OK ∧ s.deferBars m p = true ∧ s.nextReq m 0x06 = some p)
    ∧ (∃ (s : State) (m : Nat) (p : Packet) (key : Nat) (e : DirEnt), s.inReset = false ∧ s.nextReq m 0x07 = some p ∧ s.memForm p = true ∧
      p.data.length = 64 ∧ s.dirFind (m / 2) (loff p.addr / 64) = some (key, e) ∧ 2 ≤ e.st ∧ e.ptrs = [p.src] ∧ e.busy = false)
    ∧ (∃ (s : State) (m : Nat) (p : Packet) (key : Nat) (e : DirEnt), s.inReset = false ∧ s.nextReq m 0x07 = some p ∧ s.memForm p = true ∧
      p.data.length = 64 ∧ s.dirFind (m / 2) (loff p.addr / 64) = some (key, e) ∧ 2 ≤ e.st ∧ e.ptrs = [p.src] ∧ e.busy = true ∧
      (e.wbWait = true ∨ 0 < e.acks))
    ∧ (∃ (s : State) (m : Nat) (p : Packet), s.inReset = false ∧ s.nextReq m 0x07 = some p ∧ s.memForm p = true ∧ p.data.length = 64 ∧ (∀ key e,
      s.dirFind (m / 2) (loff p.addr / 64) = some (key, e) → e.st < 2 ∨ e.ptrs ≠ [p.src] ∨ (e.busy = true ∧ e.wbWait = false ∧ e.acks = 0)))
    ∧ (∃ (s : State) (m : Nat) (p : Packet) (key : Nat) (e : DirEnt) (l : List Nat), s.inReset = false ∧ s.nextReq m 0x08 = some p ∧
      s.memForm p = true ∧ s.dirFind (m / 2) (loff p.addr / 64) = some (key, e) ∧ e.vmode = false ∧ p.src ∈ e.ptrs ∧ l = e.ptrs.erase p.src ∧
      l ≠ [] ∧ s.mustDefer m p = false)
    ∧ (∃ (s : State) (m : Nat) (p : Packet) (key : Nat) (e : DirEnt), s.inReset = false ∧ s.nextReq m 0x08 = some p ∧ s.memForm p = true ∧
      s.dirFind (m / 2) (loff p.addr / 64) = some (key, e) ∧ e.vmode = false ∧ e.ptrs = [p.src] ∧ s.mustDefer m p = false)
    ∧ (∃ (s : State) (m : Nat) (p : Packet), s.inReset = false ∧ s.nextReq m 0x08 = some p ∧ s.memForm p = true ∧ (∀ key e,
      s.dirFind (m / 2) (loff p.addr / 64) = some (key, e) → e.vmode = true ∨ p.src ∉ e.ptrs) ∧ s.mustDefer m p = false)
    ∧ (∃ (s : State) (m : Nat) (p : Packet), s.inReset = false ∧ s.nextReq m 0x08 = some p ∧ s.memForm p = true ∧ s.mustDefer m p = true ∧
      s.deferFull m = false)
    ∧ (∃ (s : State) (m : Nat) (p : Packet) (w0 : W) (key : Nat) (w : W) (e : DirEnt), s.inReset = false ∧
      W.takeVc s.w0 (uMsp m) 3 (fun p => p.op == 0x58) = some (p, w0) ∧ w0.snoopAns m p = (some key, w) ∧ w.msp.dir.find key = some e ∧ e.st = 1)
    ∧ (∃ (s : State) (m : Nat) (p : Packet) (w0 : W) (key : Nat) (w : W) (e : DirEnt), s.inReset = false ∧
      W.takeVc s.w0 (uMsp m) 3 (fun p => p.op == 0x58) = some (p, w0) ∧ w0.snoopAns m p = (some key, w) ∧ w.msp.dir.find key = some e ∧ 2 ≤ e.st ∧
      bit p.aux 2 = true ∧ e.ptrs ≠ [])
    ∧ (∃ (s : State) (m : Nat) (p : Packet) (w0 : W) (key : Nat) (w : W) (e : DirEnt), s.inReset = false ∧
      W.takeVc s.w0 (uMsp m) 3 (fun p => p.op == 0x58) = some (p, w0) ∧ w0.snoopAns m p = (some key, w) ∧ w.msp.dir.find key = some e ∧ 2 ≤ e.st ∧
      bit p.aux 2 = false ∧ bits p.aux 0 2 = 0)
    ∧ (∃ (s : State) (m : Nat) (p : Packet) (w0 : W) (key : Nat) (w : W) (e : DirEnt), s.inReset = false ∧
      W.takeVc s.w0 (uMsp m) 3 (fun p => p.op == 0x58) = some (p, w0) ∧ w0.snoopAns m p = (some key, w) ∧ w.msp.dir.find key = some e ∧ 2 ≤ e.st ∧
      bit p.aux 2 = false ∧ bits p.aux 0 2 ≠ 0)
    ∧ (∃ (s : State) (m : Nat) (p : Packet) (key : Nat) (w : W) (e : DirEnt), s.inReset = false ∧ s.nextReq m 0x59 = some p ∧
      W.snoopAns (s.w0.takeReq m p) m p = (some key, w) ∧ w.msp.dir.find key = some e)
    ∧ (∃ (s : State) (m : Nat) (p : Packet) (key : Nat) (w : W) (e : DirEnt), s.inReset = false ∧ s.nextReq m 0x59 = some p ∧
      W.snoopAns (s.w0.takeReq m p) m p = (some key, w) ∧ w.msp.dir.find key = some e ∧ e.wmask = 0 ∧ e.ops = [] ∧ p.data.length = 64 ∧
      w.inFault = false)
    ∧ (∃ (s : State) (slice : Nat) (key : Nat) (e : DirEnt), s.inReset = false ∧ s.msp.dir.find key = some e ∧
      e.acks ≤ (s.net.req.filter (fun (r : Nat × Req) => match r.2.own with | .snoop _ k => k == key | _ => false)).foldl (fun n r => n + min r.2.need (s.waitAns (portOf (e.line * 64)) (r.1 % 2 ^ 20))) 0)
    ∧ (∃ (s : State) (slice : Nat) (key : Nat) (e : DirEnt), s.inReset = false ∧ s.msp.dir.find key = some e ∧ key / 131072 = slice ∧ e.busy = true ∧
      e.acks ≠ 0 ∧ e.snoopT + 2 ^ s.rd (sliceB slice) KMSP_DIR_CFG.snp_tl_log2 ≤ s.fc ∧ (∀ ref, s.waitAns (portOf (e.line * 64)) ref = 0)) :=
  ⟨⟨(intake (coh 4 5) memOpen), 0, (coh 4 5), (by decide +kernel), (by decide +kernel), (by decide +kernel), (by decide +kernel)⟩,
    ⟨(intake (coh 5 5) memOpen), 0, (coh 5 5), (by decide +kernel), (by decide +kernel), (by decide +kernel), (by decide +kernel)⟩,
    ⟨(intake (coh 6 5) memOpen), 0, (coh 6 5), (by decide +kernel), (by decide +kernel), (by decide +kernel), (by decide +kernel)⟩,
    ⟨(intake (coh 4 5)), 0, (coh 4 5), (by decide +kernel), (by decide +kernel), (by decide +kernel)⟩,
    ⟨(intake (coh 5 5)), 0, (coh 5 5), (by decide +kernel), (by decide +kernel), (by decide +kernel)⟩,
    ⟨(intake (coh 6 5)), 0, (coh 6 5), (by decide +kernel), (by decide +kernel), (by decide +kernel)⟩,
    ⟨(poolFull (coh 4 5) memOpen), 0, (coh 4 5), (by decide +kernel), (by decide +kernel), (by decide +kernel), (by decide +kernel)⟩,
    ⟨(poolFull (coh 5 5) memOpen), 0, (coh 5 5), (by decide +kernel), (by decide +kernel), (by decide +kernel), (by decide +kernel)⟩,
    ⟨(poolFull (coh 6 5) memOpen), 0, (coh 6 5), (by decide +kernel), (by decide +kernel), (by decide +kernel), (by decide +kernel)⟩,
    ⟨(intake (wbPkt) (dirWith (ent 3 [5]))), 0, wbPkt, line0, (ent 3 [5]), (by decide +kernel), (by decide +kernel), (by decide +kernel),
      (by decide +kernel), (by decide +kernel), (by decide +kernel), (by decide +kernel), (by decide +kernel)⟩,
    ⟨(intake (wbPkt) (dirWith ({ ent 3 [5] with busy := true, wbWait := true }))), 0, wbPkt, line0,
      ({ ent 3 [5] with busy := true, wbWait := true }), (by decide +kernel), (by decide +kernel), (by decide +kernel), (by decide +kernel),
      (by decide +kernel), (by decide +kernel), (by decide +kernel), (by decide +kernel), (by exact Or.inl rfl)⟩,
    ⟨(intake wbPkt), 0, wbPkt, (by decide +kernel), (by decide +kernel), (by decide +kernel), (by decide +kernel),
      (by intro key e h; rw [show State.dirFind (intake wbPkt) (0 / 2) (loff wbPkt.addr / 64) = none by decide +kernel] at h; cases h)⟩,
    ⟨(intake (coh 8 5) (dirWith (ent 1 [5, 6]))), 0, (coh 8 5), line0, (ent 1 [5, 6]), ([6]), (by decide +kernel), (by decide +kernel),
      (by decide +kernel), (by decide +kernel), (by decide +kernel), (by decide +kernel), (by decide +kernel), (by decide +kernel),
      (by decide +kernel)⟩,
    ⟨(intake (coh 8 5) (dirWith (ent 1 [5]))), 0, (coh 8 5), line0, (ent 1 [5]), (by decide +kernel), (by decide +kernel), (by decide +kernel),
      (by decide +kernel), (by decide +kernel), (by decide +kernel), (by decide +kernel)⟩,
    ⟨(intake (coh 8 5)), 0, (coh 8 5), (by decide +kernel), (by decide +kernel), (by decide +kernel),
      (by intro key e h; rw [show State.dirFind (intake (coh 8 5)) (0 / 2) (loff (coh 8 5).addr / 64) = none by decide +kernel] at h; cases h),
      (by decide +kernel)⟩,
    ⟨(intake (coh 8 5) (dirWith ({ ent 1 [5] with busy := true }))), 0, (coh 8 5), (by decide +kernel), (by decide +kernel), (by decide +kernel),
      (by decide +kernel), (by decide +kernel)⟩,
    ⟨(waits (uMsp 0) ({ sackPkt with aux := 0 }) (snoopOpen (dirWith ({ ent 1 [6] with busy := true, acks := 1 })))), 0, ({ sackPkt with aux := 0 }),
      (sackTaken (waits (uMsp 0) ({ sackPkt with aux := 0 }) (snoopOpen (dirWith ({ ent 1 [6] with busy := true, acks := 1 }))))), line0,
      (((sackTaken (waits (uMsp 0) ({ sackPkt with aux := 0 }) (snoopOpen (dirWith ({ ent 1 [6] with busy := true, acks := 1 }))))).snoopAns 0 ({ sackPkt with aux := 0 })).2),
      ({ ent 1 [6] with busy := true, acks := 1 }), (by decide +kernel), rfl, rfl, (by decide +kernel), (by decide +kernel)⟩,
    ⟨(waits (uMsp 0) ({ sackPkt with aux := 4 }) (snoopOpen (dirWith ({ ent 3 [6] with busy := true, acks := 1 })))), 0, ({ sackPkt with aux := 4 }),
      (sackTaken (waits (uMsp 0) ({ sackPkt with aux := 4 }) (snoopOpen (dirWith ({ ent 3 [6] with busy := true, acks := 1 }))))), line0,
      (((sackTaken (waits (uMsp 0) ({ sackPkt with aux := 4 }) (snoopOpen (dirWith ({ ent 3 [6] with busy := true, acks := 1 }))))).snoopAns 0 ({ sackPkt with aux := 4 })).2),
      ({ ent 3 [6] with busy := true, acks := 1 }), (by decide +kernel), rfl, rfl, (by decide +kernel), (by decide +kernel), (by decide +kernel),
      (by decide +kernel)⟩,
    ⟨(waits (uMsp 0) ({ sackPkt with aux := 0 }) (snoopOpen (dirWith ({ ent 3 [6] with busy := true, acks := 1 })))), 0, ({ sackPkt with aux := 0 }),
      (sackTaken (waits (uMsp 0) ({ sackPkt with aux := 0 }) (snoopOpen (dirWith ({ ent 3 [6] with busy := true, acks := 1 }))))), line0,
      (((sackTaken (waits (uMsp 0) ({ sackPkt with aux := 0 }) (snoopOpen (dirWith ({ ent 3 [6] with busy := true, acks := 1 }))))).snoopAns 0 ({ sackPkt with aux := 0 })).2),
      ({ ent 3 [6] with busy := true, acks := 1 }), (by decide +kernel), rfl, rfl, (by decide +kernel), (by decide +kernel), (by decide +kernel),
      (by decide +kernel)⟩,
    ⟨(waits (uMsp 0) ({ sackPkt with aux := 1 }) (snoopOpen (dirWith ({ ent 3 [6] with busy := true, acks := 1 })))), 0, ({ sackPkt with aux := 1 }),
      (sackTaken (waits (uMsp 0) ({ sackPkt with aux := 1 }) (snoopOpen (dirWith ({ ent 3 [6] with busy := true, acks := 1 }))))), line0,
      (((sackTaken (waits (uMsp 0) ({ sackPkt with aux := 1 }) (snoopOpen (dirWith ({ ent 3 [6] with busy := true, acks := 1 }))))).snoopAns 0 ({ sackPkt with aux := 1 })).2),
      ({ ent 3 [6] with busy := true, acks := 1 }), (by decide +kernel), rfl, rfl, (by decide +kernel), (by decide +kernel), (by decide +kernel),
      (by decide +kernel)⟩,
    ⟨(intake sdataPkt (snoopOpen (dirWith ({ ent 2 [6] with busy := true, acks := 1 })))), 0, sdataPkt, line0,
      ((((intake sdataPkt (snoopOpen (dirWith ({ ent 2 [6] with busy := true, acks := 1 })))).w0.takeReq 0 sdataPkt).snoopAns 0 sdataPkt).2),
      ({ ent 2 [6] with busy := true, acks := 1 }), (by decide +kernel), (by decide +kernel), rfl, (by decide +kernel)⟩,
    ⟨(intake sdataPkt (snoopOpen (dirWith ({ ent 2 [6] with busy := true, acks := 1 })))), 0, sdataPkt, line0,
      ((((intake sdataPkt (snoopOpen (dirWith ({ ent 2 [6] with busy := true, acks := 1 })))).w0.takeReq 0 sdataPkt).snoopAns 0 sdataPkt).2),
      ({ ent 2 [6] with busy := true, acks := 1 }), (by decide +kernel), (by decide +kernel), rfl, (by decide +kernel), (by decide +kernel),
      (by decide +kernel), (by decide +kernel), (by decide +kernel)⟩,
    ⟨(waits (uMsp 0) sackPkt (snoopOpen (dirWith ({ ent 1 [6] with busy := true, acks := 1 })))), 0, line0,
      ({ ent 1 [6] with busy := true, acks := 1 }), (by decide +kernel), (by decide +kernel), (by decide +kernel)⟩,
    ⟨({ snoopOpen (dirWith ({ ent 1 [6] with busy := true, acks := 1 })) with fc := 2 ^ 40 }), 0, line0,
      ({ ent 1 [6] with busy := true, acks := 1 }), (by decide +kernel), (by decide +kernel), (by decide +kernel), (by decide +kernel),
      (by decide +kernel), (by decide +kernel), (by intro ref; rfl)⟩⟩

theorem wit_DirectoryDecides :
    (∃ (s : State) (m : Nat) (p : Packet) (key : Nat), s.dirFind (m / 2) (loff p.addr / 64) = none ∧ s.freeWay (m / 2) (loff p.addr / 64) = some key)
    ∧ (∃ (s : State) (m : Nat) (p : Packet) (key : Nat) (e : DirEnt), s.dirFind (m / 2) (loff p.addr / 64) = some (key, e) ∧ e.busy = false ∧
      e.st = 1 ∧ p.op = 4 ∧ e.vmode = false ∧ e.ptrs.contains p.src = false ∧ e.ptrs.length < 4)
    ∧ (∃ (s : State) (m : Nat) (p : Packet) (key : Nat) (e : DirEnt) (o : Nat), s.dirFind (m / 2) (loff p.addr / 64) = some (key, e) ∧
      e.busy = false ∧ 2 ≤ e.st ∧ e.ptrs = [o] ∧ o ≠ p.src ∧ e.vmode = false ∧ p.op = 4)
    ∧ (∃ (s : State) (m : Nat) (p : Packet) (key : Nat) (e : DirEnt), s.dirFind (m / 2) (loff p.addr / 64) = some (key, e) ∧ e.busy = true) :=
  ⟨⟨(State.reset), 0, (coh 4 5), line0, (by decide +kernel), (by decide +kernel)⟩,
    ⟨(dirWith (ent 1 [6])), 0, (coh 4 5), line0, (ent 1 [6]), (by decide +kernel), (by decide +kernel), (by decide +kernel), (by decide +kernel),
      (by decide +kernel), (by decide +kernel), (by decide +kernel)⟩,
    ⟨(dirWith (ent 3 [6])), 0, (coh 4 5), line0, (ent 3 [6]), 6, (by decide +kernel), (by decide +kernel), (by decide +kernel), (by decide +kernel),
      (by decide +kernel), (by decide +kernel), (by decide +kernel)⟩,
    ⟨(dirWith ({ ent 3 [6] with busy := true })), 0, (coh 4 5), line0, ({ ent 3 [6] with busy := true }), (by decide +kernel), (by decide +kernel)⟩⟩

theorem wit_CorePortActs :
    (∃ (s : State) (st : Nat) (r : CoreReq), s.inReset = false ∧ r.op ≠ 8 ∧ r.op ≠ 9 ∧ s.coreBusy st r.tag (corePieces r).length = true)
    ∧ (∃ (s : State) (st : Nat) (r : CoreReq), s.inReset = false ∧ r.op ≠ 8 ∧ r.op ≠ 9 ∧ s.coreBusy st r.tag (corePieces r).length = false ∧
      s.coreCheck st r ≠ OK)
    ∧ (∃ (s : State) (st : Nat) (r : CoreReq), s.inReset = false ∧ r.op ≠ 8 ∧ r.op ≠ 9 ∧ s.coreBusy st r.tag (corePieces r).length = false ∧
      s.coreCheck st r = OK ∧ corePieces r ≠ [] ∧ (r.op = 1 → r.posted = false))
    ∧ (∃ (s : State) (st : Nat) (r : CoreReq), s.inReset = false ∧ r.op = 0 ∧ corePieces r = [(0, r.len)] ∧ s.coreBusy st r.tag 1 = false ∧
      s.coreCheck st r = OK)
    ∧ (∃ (s : State) (st : Nat) (r : CoreReq), s.inReset = false ∧ r.op = 1 ∧ (r.posted = true ∨ corePieces r = []) ∧
      s.coreBusy st r.tag (corePieces r).length = false ∧ s.coreCheck st r = OK)
    ∧ (∃ (s : State) (st : Nat) (tag : Nat) (scope : Nat) (ctx : Nat), s.inReset = false ∧ s.coreAt st tag = none ∧ s.coreHeld st = false ∧
      (s.sta.core.filter (fun e => e.1 / 256 == st)).length < 256)
    ∧ (∃ (s : State) (st : Nat) (tag : Nat) (c : CoreOpen) (sts : List Nat), s.inReset = false ∧ s.coreAt st tag = some c ∧
      c.fc + 2 ^ s.rd (stnB st) KSTN_MEM_CFG.req_tl_log2 ≤ s.fc ∧
      sts = (s.net.req.filter (fun (r : Nat × Req) => r.1 / 2 ^ 20 == uSt st && !r.2.late && (match r.2.own with | .core t _ => t == tag | _ => false))).flatMap (fun r => r.2.sts))
    ∧ (∃ (s : State) (st : Nat) (i : Nat) (p : Packet) (w : W), s.inReset = false ∧
      (List.range 64).find? (fun i => (s.sta.snoops.find (snpKey st i)).isNone) = some i ∧ s.wbOut st p.addr = false ∧
      W.takeVc s.w0 (uSt st) 5 (fun p => p.op == 0x50) = some (p, w))
    ∧ (∃ (s : State) (st : Nat) (i : Nat) (p : Packet) (w : W), s.inReset = false ∧
      (List.range 64).find? (fun i => (s.sta.snoops.find (snpKey st i)).isNone) = some i ∧ s.wbOut st p.addr = false ∧
      W.takeVc s.w0 (uSt st) 5 (fun p => p.op == 0x51) = some (p, w))
    ∧ (∃ (s : State) (st : Nat) (i : Nat) (p : Packet) (w : W), s.inReset = false ∧
      (List.range 64).find? (fun i => (s.sta.snoops.find (snpKey st i)).isNone) = some i ∧ s.wbOut st p.addr = false ∧
      W.takeVc s.w0 (uSt st) 5 (fun p => p.op == 0x52) = some (p, w))
    ∧ (∃ (s : State) (st : Nat) (p : Packet) (w : W), s.inReset = false ∧
      ((List.range 64).find? (fun i => (s.sta.snoops.find (snpKey st i)).isNone)).isSome = true ∧ s.wbOut st p.addr = true ∧
      W.takeVc s.w0 (uSt st) 5 (fun p => p.op == 0x50) = some (p, w))
    ∧ (∃ (s : State) (st : Nat) (p : Packet) (w : W), s.inReset = false ∧
      ((List.range 64).find? (fun i => (s.sta.snoops.find (snpKey st i)).isNone)).isSome = true ∧ s.wbOut st p.addr = true ∧
      W.takeVc s.w0 (uSt st) 5 (fun p => p.op == 0x51) = some (p, w))
    ∧ (∃ (s : State) (st : Nat) (p : Packet) (w : W), s.inReset = false ∧
      ((List.range 64).find? (fun i => (s.sta.snoops.find (snpKey st i)).isNone)).isSome = true ∧ s.wbOut st p.addr = true ∧
      W.takeVc s.w0 (uSt st) 5 (fun p => p.op == 0x52) = some (p, w))
    ∧ (∃ (s : State) (st : Nat) (id : Nat) (state : Nat) (dirty : Bool) (data : List Byte) (x : CoreSnoop), s.inReset = false ∧
      s.sta.snoops.find (snpKey st id) = some x ∧ x.fc + 1024 < s.fc)
    ∧ (∃ (s : State) (st : Nat) (id : Nat) (state : Nat) (dirty : Bool) (data : List Byte) (x : CoreSnoop), s.inReset = false ∧
      s.sta.snoops.find (snpKey st id) = some x ∧ s.fc ≤ x.fc + 1024)
    ∧ (∃ (s : State) (st : Nat) (e : Nat) (l : LogEnt) (j : Job), s.inReset = false ∧ s.logAt st e = some l ∧ s.jobAt st e = some j ∧
      3 ≤ le l.desc 0 1 ∧ le l.desc 0 1 ≤ 5 ∧ j.tl ≠ 0 ∧ j.t0 + 2 ^ j.tl ≤ s.fc) :=
  ⟨⟨({ owner with sta.core := [(coreKey 3 1, { op := 0, addr := 0, len := 8, fc := 0, ctx := 5 })] }), 3, (rdReq 8), (by decide +kernel),
      (by decide +kernel), (by decide +kernel), (by decide +kernel)⟩,
    ⟨owner, 3, (rdReq 0), (by decide +kernel), (by decide +kernel), (by decide +kernel), (by decide +kernel), (by decide +kernel)⟩,
    ⟨owner, 3, ({ rdReq 8 with addr := 252 }), (by decide +kernel), (by decide +kernel), (by decide +kernel), (by decide +kernel),
      (by decide +kernel), (by decide +kernel), (by decide +kernel)⟩,
    ⟨owner, 3, (rdReq 8), (by decide +kernel), (by decide +kernel), (by decide +kernel), (by decide +kernel), (by decide +kernel)⟩,
    ⟨owner, 3, wrReq, (by decide +kernel), (by decide +kernel), (by exact Or.inl rfl), (by decide +kernel), (by decide +kernel)⟩,
    ⟨owner, 3, 1, 0, 5, (by decide +kernel), (by decide +kernel), (by decide +kernel), (by decide +kernel)⟩,
    ⟨({ State.reset with sta.core := [(coreKey 3 1, { op := 0, addr := 0, len := 8, fc := 0, ctx := 5 })], fc := 2 ^ 40 }), 3, 1,
      ({ op := 0, addr := 0, len := 8, fc := 0, ctx := 5 }), ([]), (by decide +kernel), (by decide +kernel), (by decide +kernel), (by decide +kernel)⟩,
    ⟨(waits (uSt 3) ({ vc := 5, op := 80, addr := 2 ^ 63 })), 3, 0, ({ vc := 5, op := 80, addr := 2 ^ 63 }),
      (match W.takeVc (waits (uSt 3) ({ vc := 5, op := 80, addr := 2 ^ 63 })).w0 (uSt 3) 5 (fun x => x.op == 80) with | some x => x.2 | none => (waits (uSt 3) ({ vc := 5, op := 80, addr := 2 ^ 63 })).w0),
      (by decide +kernel), (by decide +kernel), (by decide +kernel), rfl⟩,
    ⟨(waits (uSt 3) ({ vc := 5, op := 81, addr := 2 ^ 63 })), 3, 0, ({ vc := 5, op := 81, addr := 2 ^ 63 }),
      (match W.takeVc (waits (uSt 3) ({ vc := 5, op := 81, addr := 2 ^ 63 })).w0 (uSt 3) 5 (fun x => x.op == 81) with | some x => x.2 | none => (waits (uSt 3) ({ vc := 5, op := 81, addr := 2 ^ 63 })).w0),
      (by decide +kernel), (by decide +kernel), (by decide +kernel), rfl⟩,
    ⟨(waits (uSt 3) ({ vc := 5, op := 82, addr := 2 ^ 63 })), 3, 0, ({ vc := 5, op := 82, addr := 2 ^ 63 }),
      (match W.takeVc (waits (uSt 3) ({ vc := 5, op := 82, addr := 2 ^ 63 })).w0 (uSt 3) 5 (fun x => x.op == 82) with | some x => x.2 | none => (waits (uSt 3) ({ vc := 5, op := 82, addr := 2 ^ 63 })).w0),
      (by decide +kernel), (by decide +kernel), (by decide +kernel), rfl⟩,
    ⟨(waits (uSt 3) ({ vc := 5, op := 80, addr := 2 ^ 63 }) { State.reset with net.req := [(uSt 3 * 2 ^ 20 + 9, { pkt := { op := 7, tag := 9, addr := 2 ^ 63 }, own := .none, fc := 0 })] }),
      3, ({ vc := 5, op := 80, addr := 2 ^ 63 }),
      (match W.takeVc (waits (uSt 3) ({ vc := 5, op := 80, addr := 2 ^ 63 }) { State.reset with net.req := [(uSt 3 * 2 ^ 20 + 9, { pkt := { op := 7, tag := 9, addr := 2 ^ 63 }, own := .none, fc := 0 })] }).w0 (uSt 3) 5 (fun x => x.op == 80) with | some x => x.2 | none => (waits (uSt 3) ({ vc := 5, op := 80, addr := 2 ^ 63 }) { State.reset with net.req := [(uSt 3 * 2 ^ 20 + 9, { pkt := { op := 7, tag := 9, addr := 2 ^ 63 }, own := .none, fc := 0 })] }).w0),
      (by decide +kernel), (by decide +kernel), (by decide +kernel), rfl⟩,
    ⟨(waits (uSt 3) ({ vc := 5, op := 81, addr := 2 ^ 63 }) { State.reset with net.req := [(uSt 3 * 2 ^ 20 + 9, { pkt := { op := 7, tag := 9, addr := 2 ^ 63 }, own := .none, fc := 0 })] }),
      3, ({ vc := 5, op := 81, addr := 2 ^ 63 }),
      (match W.takeVc (waits (uSt 3) ({ vc := 5, op := 81, addr := 2 ^ 63 }) { State.reset with net.req := [(uSt 3 * 2 ^ 20 + 9, { pkt := { op := 7, tag := 9, addr := 2 ^ 63 }, own := .none, fc := 0 })] }).w0 (uSt 3) 5 (fun x => x.op == 81) with | some x => x.2 | none => (waits (uSt 3) ({ vc := 5, op := 81, addr := 2 ^ 63 }) { State.reset with net.req := [(uSt 3 * 2 ^ 20 + 9, { pkt := { op := 7, tag := 9, addr := 2 ^ 63 }, own := .none, fc := 0 })] }).w0),
      (by decide +kernel), (by decide +kernel), (by decide +kernel), rfl⟩,
    ⟨(waits (uSt 3) ({ vc := 5, op := 82, addr := 2 ^ 63 }) { State.reset with net.req := [(uSt 3 * 2 ^ 20 + 9, { pkt := { op := 7, tag := 9, addr := 2 ^ 63 }, own := .none, fc := 0 })] }),
      3, ({ vc := 5, op := 82, addr := 2 ^ 63 }),
      (match W.takeVc (waits (uSt 3) ({ vc := 5, op := 82, addr := 2 ^ 63 }) { State.reset with net.req := [(uSt 3 * 2 ^ 20 + 9, { pkt := { op := 7, tag := 9, addr := 2 ^ 63 }, own := .none, fc := 0 })] }).w0 (uSt 3) 5 (fun x => x.op == 82) with | some x => x.2 | none => (waits (uSt 3) ({ vc := 5, op := 82, addr := 2 ^ 63 }) { State.reset with net.req := [(uSt 3 * 2 ^ 20 + 9, { pkt := { op := 7, tag := 9, addr := 2 ^ 63 }, own := .none, fc := 0 })] }).w0),
      (by decide +kernel), (by decide +kernel), (by decide +kernel), rfl⟩,
    ⟨({ State.reset with sta.snoops := [(snpKey 3 0, { op := 1, addr := 0, pkt := { vc := 5, op := 0x51 }, fc := 0 })], fc := 1025 }), 3, 0, 0, true,
      (List.replicate 64 1), ({ op := 1, addr := 0, pkt := { vc := 5, op := 0x51 }, fc := 0 }), (by decide +kernel), (by decide +kernel),
      (by decide +kernel)⟩,
    ⟨({ State.reset with sta.snoops := [(snpKey 3 0, { op := 1, addr := 0, pkt := { vc := 5, op := 0x51 }, fc := 0 })], fc := 1024 }), 3, 0, 0, true,
      (List.replicate 64 1), ({ op := 1, addr := 0, pkt := { vc := 5, op := 0x51 }, fc := 0 }), (by decide +kernel), (by decide +kernel),
      (by decide +kernel)⟩,
    ⟨({ jobOf { tl := 10, open_ := 1 } (logged (entry (xferDesc 3) 2)) with fc := 1024 }), 3, 2, (entry (xferDesc 3) 2), ({ tl := 10, open_ := 1 }),
      (by decide +kernel), (by decide +kernel), (by decide +kernel), (by decide +kernel), (by decide +kernel), (by decide +kernel),
      (by decide +kernel)⟩⟩

theorem wit_DataAnswersAct :
    (∃ (s : State) (u : Nat) (p : Packet) (w : W) (ref : Nat) (r : Req), s.inReset = false ∧ u ≠ uHost ∧ ¬ (0x2040 ≤ u ∧ u < 0x2080) ∧
      w.reqOf u p = some (ref, r) ∧ r.late = false ∧
      W.takeAny s.w0 u (fun p => p.op == 0x03 && !s.forPop u p && !(0x2040 ≤ u && u < 0x2080)) = some (p, w))
    ∧ (∃ (s : State) (st : Nat) (p : Packet) (w : W) (ref : Nat) (r : Req), s.inReset = false ∧ st < 4096 ∧ w.reqOf (uSt st) p = some (ref, r) ∧
      r.late = false ∧ W.takeAny s.w0 (uSt st) (fun p => p.op == 0x09 && !s.forPop (uSt st) p && !(0x2040 ≤ uSt st && uSt st < 0x2080)) = some (p, w))
    ∧ (∃ (s : State) (st : Nat) (p : Packet) (w : W) (ref : Nat) (r : Req), s.inReset = false ∧ st < 4096 ∧ w.reqOf (uSt st) p = some (ref, r) ∧
      r.late = false ∧ W.takeAny s.w0 (uSt st) (fun p => p.op == 0x0B && !s.forPop (uSt st) p && !(0x2040 ≤ uSt st && uSt st < 0x2080)) = some (p, w))
    ∧ (∃ (s : State) (st : Nat) (p : Packet) (w : W) (ref : Nat) (r : Req), s.inReset = false ∧ st < 4096 ∧ w.reqOf (uSt st) p = some (ref, r) ∧
      r.late = true ∧ W.takeAny s.w0 (uSt st) (fun p => p.op == 0x03 && !s.forPop (uSt st) p && !(0x2040 ≤ uSt st && uSt st < 0x2080)) = some (p, w))
    ∧ (∃ (s : State) (p : Packet) (w : W), s.inReset = false ∧
      W.takeAny s.w0 uHost (fun p => p.op == 0x03 && !s.forPop uHost p && !(0x2040 ≤ uHost && uHost < 0x2080)) = some (p, w))
    ∧ (∃ (s : State) (st : Nat) (p : Packet) (w : W), s.inReset = false ∧ st < 4096 ∧
      W.takeAny s.w0 (uSt st) (fun p => p.op == 0x0E && !(0x2040 ≤ uSt st && uSt st < 0x2080)) = some (p, w)) :=
  ⟨⟨(answer3 (dataAns 3)), (uSt 3), (dataAns 3), (ansTaken 3 (dataAns 3)), 9, ({ pkt := { op := 2, tag := 9 }, own := .core 1 0, fc := 0 }),
      (by decide +kernel), (by decide +kernel), (by decide +kernel), (by decide +kernel), (by decide +kernel), rfl⟩,
    ⟨(answer3 (dataAns 9)), 3, (dataAns 9), (ansTaken 9 (dataAns 9)), 9, ({ pkt := { op := 2, tag := 9 }, own := .core 1 0, fc := 0 }),
      (by decide +kernel), (by decide +kernel), (by decide +kernel), (by decide +kernel), rfl⟩,
    ⟨(answer3 (dataAns 11)), 3, (dataAns 11), (ansTaken 11 (dataAns 11)), 9, ({ pkt := { op := 2, tag := 9 }, own := .core 1 0, fc := 0 }),
      (by decide +kernel), (by decide +kernel), (by decide +kernel), (by decide +kernel), rfl⟩,
    ⟨(answer3 (dataAns 3) (.core 1 0) true), 3, (dataAns 3), (ansTaken 3 (dataAns 3) true), 9,
      ({ pkt := { op := 2, tag := 9 }, own := .core 1 0, fc := 0, late := true }), (by decide +kernel), (by decide +kernel), (by decide +kernel),
      (by decide +kernel), rfl⟩,
    ⟨(waits uHost ({ vc := 6, op := 3, len := 8, data := toLE 8 3 })), ({ vc := 6, op := 3, len := 8, data := toLE 8 3 }),
      (taken (waits uHost ({ vc := 6, op := 3, len := 8, data := toLE 8 3 })) uHost (fun x => x.op == 3)), (by decide +kernel), rfl⟩,
    ⟨(waits (uSt 3) ({ vc := 3, op := 0x0E, aux := 2 })), 3, ({ vc := 3, op := 0x0E, aux := 2 }),
      (taken (waits (uSt 3) ({ vc := 3, op := 0x0E, aux := 2 })) (uSt 3) (fun x => x.op == 0x0E)), (by decide +kernel), (by decide +kernel), rfl⟩⟩

theorem wit_DescriptorsAct :
    (∃ (s : State) (st : Nat) (q : Nat), s.inReset = false ∧ s.nextDq st = some q)
    ∧ (∃ (s : State) (st : Nat) (e : Nat) (l : LogEnt), s.inReset = false ∧ s.mayStart st e 9 = some l ∧ s.ctxFencedAt st l.lctx = false)
    ∧ (∃ (s : State) (st : Nat) (e : Nat) (l : LogEnt), s.inReset = false ∧ s.mayStart st e 9 = some l ∧ s.ctxFencedAt st l.lctx = true)
    ∧ (∃ (s : State) (st : Nat) (e : Nat) (l : LogEnt), s.inReset = false ∧ s.logAt st e = some l ∧ l.lstate = 1 ∧
      kindReserved (le l.desc 0 1) = true ∧ s.earlier st l.dq l.dseq = [])
    ∧ (∃ (s : State) (st : Nat) (e : Nat) (l : LogEnt) (c : Nat) (blen : Nat) (addr : Nat), s.inReset = false ∧ s.mayStart st e 2 = some l ∧
      c = le l.desc 32 1 ∧ blen = bits (le l.desc 34 2) 0 13 ∧ addr = le l.desc 36 4 ∧ sendBad l.desc = false ∧
      s.sendCheck st c addr blen l.lctx = OK ∧ msgLines blen ≤ s.chCredit st c)
    ∧ (∃ (s : State) (st : Nat) (e : Nat) (l : LogEnt) (c : Nat) (blen : Nat) (addr : Nat), s.inReset = false ∧ s.mayStart st e 2 = some l ∧
      c = le l.desc 32 1 ∧ blen = bits (le l.desc 34 2) 0 13 ∧ addr = le l.desc 36 4 ∧ sendBad l.desc = false ∧
      s.sendCheck st c addr blen l.lctx = OK ∧ s.chCredit st c < msgLines blen ∧ bit (le l.desc 33 1) 0 = false)
    ∧ (∃ (s : State) (st : Nat) (e : Nat) (l : LogEnt) (c : Nat) (blen : Nat) (addr : Nat), s.inReset = false ∧ s.mayStart st e 2 = some l ∧
      c = le l.desc 32 1 ∧ blen = bits (le l.desc 34 2) 0 13 ∧ addr = le l.desc 36 4 ∧ sendBad l.desc = false ∧
      s.sendCheck st c addr blen l.lctx ≠ OK)
    ∧ (∃ (s : State) (st : Nat) (e : Nat) (l : LogEnt) (c : Nat) (blen : Nat) (addr : Nat), s.inReset = false ∧ s.mayStart st e 2 = some l ∧
      c = le l.desc 32 1 ∧ blen = bits (le l.desc 34 2) 0 13 ∧ addr = le l.desc 36 4 ∧ sendBad l.desc = false ∧
      s.sendCheck st c addr blen l.lctx = OK ∧ s.chCredit st c < msgLines blen ∧ bit (le l.desc 33 1) 0 = true ∧ s.stallOver st c = false ∧
      s.jobAt st e = none)
    ∧ (∃ (s : State) (st : Nat) (e : Nat) (l : LogEnt) (c : Nat) (blen : Nat) (addr : Nat), s.inReset = false ∧ s.mayStart st e 2 = some l ∧
      c = le l.desc 32 1 ∧ blen = bits (le l.desc 34 2) 0 13 ∧ addr = le l.desc 36 4 ∧ sendBad l.desc = false ∧
      s.sendCheck st c addr blen l.lctx = OK ∧ s.chCredit st c < msgLines blen ∧ bit (le l.desc 33 1) 0 = true ∧ s.stallOver st c = false ∧
      (s.jobAt st e).isSome = true)
    ∧ (∃ (s : State) (st : Nat) (e : Nat) (l : LogEnt) (c : Nat) (blen : Nat) (addr : Nat), s.inReset = false ∧ s.mayStart st e 2 = some l ∧
      c = le l.desc 32 1 ∧ blen = bits (le l.desc 34 2) 0 13 ∧ addr = le l.desc 36 4 ∧ sendBad l.desc = false ∧
      s.sendCheck st c addr blen l.lctx = OK ∧ s.chCredit st c < msgLines blen ∧ bit (le l.desc 33 1) 0 = true ∧ s.stallOver st c = true)
    ∧ (∃ (s : State) (st : Nat) (e : Nat) (l : LogEnt), s.inReset = false ∧ s.mayStart st e 2 = some l ∧ sendBad l.desc = true)
    ∧ (∃ (s : State) (st : Nat) (e : Nat) (l : LogEnt), s.inReset = false ∧ xferLen l.desc = 0 ∧ s.mayStart st e 3 = some l)
    ∧ (∃ (s : State) (st : Nat) (e : Nat) (l : LogEnt), s.inReset = false ∧ xferLen l.desc = 0 ∧ s.mayStart st e 4 = some l)
    ∧ (∃ (s : State) (st : Nat) (e : Nat) (l : LogEnt), s.inReset = false ∧ s.logAt st e = some l ∧ l.lstate = 2 ∧ le l.desc 0 1 = 3)
    ∧ (∃ (s : State) (st : Nat) (e : Nat) (l : LogEnt), s.inReset = false ∧ s.logAt st e = some l ∧ l.lstate = 2 ∧ le l.desc 0 1 = 4)
    ∧ (∃ (s : State) (st : Nat) (e : Nat) (l : LogEnt) (ga : Nat) (sa : Nat) (len : Nat) (tl : Nat), s.inReset = false ∧ s.mayStart st e 3 = some l ∧
      ga = le l.desc 32 8 ∧ sa = le l.desc 40 4 ∧ len = xferLen l.desc ∧ tl = bits (le l.desc 48 1) 0 5 ∧ bits (le l.desc 44 4) 27 5 = 0 ∧
      bits (le l.desc 48 1) 5 3 = 0 ∧ le l.desc 49 1 = 0 ∧ bits (le l.desc 50 2) 12 4 = 0 ∧ le l.desc 53 11 = 0 ∧ len ≠ 0 ∧ len ≤ 2 ^ 26 ∧ 10 ≤ tl ∧
      tl ≤ 30 ∧ (s.dstOf ga).1 = OK ∧ (s.dstOf (ga + len - 1)).1 = OK ∧
      (s.winOk st l.lctx false ga len true false false = false ∨ s.winOk st l.lctx true sa len false true false = false) ∧
      s.ctxFencedAt st l.lctx = false ∧ s.fencedAll st = false)
    ∧ (∃ (s : State) (st : Nat) (e : Nat) (l : LogEnt) (ga : Nat) (sa : Nat) (len : Nat) (tl : Nat), s.inReset = false ∧ s.mayStart st e 3 = some l ∧
      ga = le l.desc 32 8 ∧ sa = le l.desc 40 4 ∧ len = xferLen l.desc ∧ tl = bits (le l.desc 48 1) 0 5 ∧ bits (le l.desc 44 4) 27 5 = 0 ∧
      bits (le l.desc 48 1) 5 3 = 0 ∧ le l.desc 49 1 = 0 ∧ bits (le l.desc 50 2) 12 4 = 0 ∧ le l.desc 53 11 = 0 ∧ len ≠ 0 ∧ len ≤ 2 ^ 26 ∧ 10 ≤ tl ∧
      tl ≤ 30 ∧ (s.dstOf ga).1 = OK ∧ (s.dstOf (ga + len - 1)).1 = OK ∧ s.winOk st l.lctx false ga len true false false = true ∧
      s.winOk st l.lctx true sa len false true false = true ∧ s.ctxFencedAt st l.lctx = false ∧ s.fencedAll st = false)
    ∧ (∃ (s : State) (st : Nat) (e : Nat) (l : LogEnt) (ga : Nat) (sa : Nat) (len : Nat) (tl : Nat), s.inReset = false ∧ s.mayStart st e 4 = some l ∧
      ga = le l.desc 32 8 ∧ sa = le l.desc 40 4 ∧ len = xferLen l.desc ∧ tl = bits (le l.desc 48 1) 0 5 ∧ bits (le l.desc 44 4) 27 5 = 0 ∧
      bits (le l.desc 48 1) 5 3 = 0 ∧ bits (le l.desc 49 1) 2 6 = 0 ∧ bits (le l.desc 50 2) 12 4 = 0 ∧ le l.desc 53 11 = 0 ∧ len ≠ 0 ∧ len ≤ 2 ^ 26 ∧
      10 ≤ tl ∧ tl ≤ 30 ∧ (s.dstOf ga).1 = OK ∧ (s.dstOf (ga + len - 1)).1 = OK ∧
      (s.winOk st l.lctx false ga len false true false = false ∨ s.winOk st l.lctx true sa len true false false = false) ∧
      s.ctxFencedAt st l.lctx = false ∧ s.fencedAll st = false)
    ∧ (∃ (s : State) (st : Nat) (e : Nat) (l : LogEnt) (ga : Nat) (sa : Nat) (len : Nat) (tl : Nat), s.inReset = false ∧ s.mayStart st e 4 = some l ∧
      ga = le l.desc 32 8 ∧ sa = le l.desc 40 4 ∧ len = xferLen l.desc ∧ tl = bits (le l.desc 48 1) 0 5 ∧ bits (le l.desc 44 4) 27 5 = 0 ∧
      bits (le l.desc 48 1) 5 3 = 0 ∧ bits (le l.desc 49 1) 2 6 = 0 ∧ bits (le l.desc 50 2) 12 4 = 0 ∧ le l.desc 53 11 = 0 ∧ len ≠ 0 ∧ len ≤ 2 ^ 26 ∧
      10 ≤ tl ∧ tl ≤ 30 ∧ (s.dstOf ga).1 = OK ∧ (s.dstOf (ga + len - 1)).1 = OK ∧ s.winOk st l.lctx false ga len false true false = true ∧
      s.winOk st l.lctx true sa len true false false = true ∧ s.ctxFencedAt st l.lctx = false ∧ s.fencedAll st = false)
    ∧ (∃ (s : State) (st : Nat) (e : Nat) (l : LogEnt) (j : Job), s.inReset = false ∧ s.mayStart st e 5 = some l ∧ s.jobAt st e = some j ∧
      bits (le l.desc 32 1) 1 7 = 0 ∧ bits (le l.desc 33 1) 5 3 = 0 ∧ le l.desc 34 30 = 0 ∧ 10 ≤ bits (le l.desc 33 1) 0 5 ∧
      bits (le l.desc 33 1) 0 5 ≤ 30 ∧ s.ctxFencedAt st l.lctx = false ∧ s.writesOut st j.a j.done (some l.lctx) (bit (le l.desc 32 1) 0) = false)
    ∧ (∃ (s : State) (st : Nat) (e : Nat) (l : LogEnt) (j : Job), s.inReset = false ∧ s.mayStart st e 5 = some l ∧ s.jobAt st e = some j ∧
      bits (le l.desc 32 1) 1 7 = 0 ∧ bits (le l.desc 33 1) 5 3 = 0 ∧ le l.desc 34 30 = 0 ∧ 10 ≤ bits (le l.desc 33 1) 0 5 ∧
      bits (le l.desc 33 1) 0 5 ≤ 30 ∧ s.ctxFencedAt st l.lctx = false ∧ s.writesOut st j.a j.done (some l.lctx) (bit (le l.desc 32 1) 0) = true) :=
  ⟨⟨(regs [(stnB 3, KSTN_DQ_CFG.enable, 1, 0), (stnB 3, KSTN_DQ_CFG.entries, 4, 0), (stnB 3, KSTN_DQ_TAIL.dq_tail, 1, 0), (stnB 3,
      KSTN_CQ_CFG.enable, 1, 0), (stnB 3, KSTN_CQ_CFG.cq_entries, 4, 0)]), 3, 0, (by decide +kernel), (by decide +kernel)⟩,
    ⟨(logged (entry (desc 9) 1)), 3, 2, (entry (desc 9) 1), (by decide +kernel), (by decide +kernel), (by decide +kernel)⟩,
    ⟨(logged (entry (desc 9) 1) ({ owner with sta.fctx := [(3 * 4096 + 5, true)] })), 3, 2, (entry (desc 9) 1), (by decide +kernel),
      (by decide +kernel), (by decide +kernel)⟩,
    ⟨(logged (entry (desc 12) 1)), 3, 2, (entry (desc 12) 1), (by decide +kernel), (by decide +kernel), (by decide +kernel), (by decide +kernel),
      (by decide +kernel)⟩,
    ⟨(logged (entry (desc 2 [(32, 1, 4)]) 1) (channel 5)), 3, 2, (entry (desc 2 [(32, 1, 4)]) 1), 4, 0, 0, (by decide +kernel), (by decide +kernel),
      (by decide +kernel), (by decide +kernel), (by decide +kernel), (by decide +kernel), (by decide +kernel), (by decide +kernel)⟩,
    ⟨(logged (entry (desc 2 [(32, 1, 4)]) 1) (channel 0)), 3, 2, (entry (desc 2 [(32, 1, 4)]) 1), 4, 0, 0, (by decide +kernel), (by decide +kernel),
      (by decide +kernel), (by decide +kernel), (by decide +kernel), (by decide +kernel), (by decide +kernel), (by decide +kernel),
      (by decide +kernel)⟩,
    ⟨(logged (entry (desc 2 [(32, 1, 4)]) 1)), 3, 2, (entry (desc 2 [(32, 1, 4)]) 1), 4, 0, 0, (by decide +kernel), (by decide +kernel),
      (by decide +kernel), (by decide +kernel), (by decide +kernel), (by decide +kernel), (by decide +kernel)⟩,
    ⟨(logged (entry (desc 2 [(32, 1, 4), (33, 1, 1)]) 1) (channel 0)), 3, 2, (entry (desc 2 [(32, 1, 4), (33, 1, 1)]) 1), 4, 0, 0,
      (by decide +kernel), (by decide +kernel), (by decide +kernel), (by decide +kernel), (by decide +kernel), (by decide +kernel),
      (by decide +kernel), (by decide +kernel), (by decide +kernel), (by decide +kernel), (by decide +kernel)⟩,
    ⟨(jobOf {} (logged (entry (desc 2 [(32, 1, 4), (33, 1, 1)])) (channel 0))), 3, 2, (entry (desc 2 [(32, 1, 4), (33, 1, 1)]) 1), 4, 0, 0,
      (by decide +kernel), (by decide +kernel), (by decide +kernel), (by decide +kernel), (by decide +kernel), (by decide +kernel),
      (by decide +kernel), (by decide +kernel), (by decide +kernel), (by decide +kernel), (by decide +kernel)⟩,
    ⟨(logged (entry (desc 2 [(32, 1, 4), (33, 1, 1)]) 1) ({ channel 0 with sta.stallT := [(chKey 3 4, 0)], fc := 2 ^ 40 })), 3, 2,
      (entry (desc 2 [(32, 1, 4), (33, 1, 1)]) 1), 4, 0, 0, (by decide +kernel), (by decide +kernel), (by decide +kernel), (by decide +kernel),
      (by decide +kernel), (by decide +kernel), (by decide +kernel), (by decide +kernel), (by decide +kernel), (by decide +kernel)⟩,
    ⟨(logged (entry (desc 2 [(32, 1, 4), (40, 1, 1)]) 1)), 3, 2, (entry (desc 2 [(32, 1, 4), (40, 1, 1)]) 1), (by decide +kernel),
      (by decide +kernel), (by decide +kernel)⟩,
    ⟨(logged (entry (desc 3) 1)), 3, 2, (entry (desc 3) 1), (by decide +kernel), (by decide +kernel), (by decide +kernel)⟩,
    ⟨(logged (entry (desc 4) 1)), 3, 2, (entry (desc 4) 1), (by decide +kernel), (by decide +kernel), (by decide +kernel)⟩,
    ⟨(logged (entry (xferDesc 3) 2)), 3, 2, (entry (xferDesc 3) 2), (by decide +kernel), (by decide +kernel), (by decide +kernel),
      (by decide +kernel)⟩,
    ⟨(logged (entry (xferDesc 4) 2)), 3, 2, (entry (xferDesc 4) 2), (by decide +kernel), (by decide +kernel), (by decide +kernel),
      (by decide +kernel)⟩,
    ⟨(logged (entry (xferDesc 3) 1) (binds [(0, 3, 0, 5)])), 3, 2, (entry (xferDesc 3) 1), 0, 0, 256, 10, (by decide +kernel), (by decide +kernel),
      (by decide +kernel), (by decide +kernel), (by decide +kernel), (by decide +kernel), (by decide +kernel), (by decide +kernel),
      (by decide +kernel), (by decide +kernel), (by decide +kernel), (by decide +kernel), (by decide +kernel), (by decide +kernel),
      (by decide +kernel), (by decide +kernel), (by decide +kernel), (by decide +kernel), (by decide +kernel), (by decide +kernel)⟩,
    ⟨(logged (entry (xferDesc 3) 1)), 3, 2, (entry (xferDesc 3) 1), 0, 0, 256, 10, (by decide +kernel), (by decide +kernel), (by decide +kernel),
      (by decide +kernel), (by decide +kernel), (by decide +kernel), (by decide +kernel), (by decide +kernel), (by decide +kernel),
      (by decide +kernel), (by decide +kernel), (by decide +kernel), (by decide +kernel), (by decide +kernel), (by decide +kernel),
      (by decide +kernel), (by decide +kernel), (by decide +kernel), (by decide +kernel), (by decide +kernel), (by decide +kernel)⟩,
    ⟨(logged (entry (xferDesc 4) 1) (binds [(0, 3, 0, 5)])), 3, 2, (entry (xferDesc 4) 1), 0, 0, 256, 10, (by decide +kernel), (by decide +kernel),
      (by decide +kernel), (by decide +kernel), (by decide +kernel), (by decide +kernel), (by decide +kernel), (by decide +kernel),
      (by decide +kernel), (by decide +kernel), (by decide +kernel), (by decide +kernel), (by decide +kernel), (by decide +kernel),
      (by decide +kernel), (by decide +kernel), (by decide +kernel), (by decide +kernel), (by decide +kernel), (by decide +kernel)⟩,
    ⟨(logged (entry (xferDesc 4) 1)), 3, 2, (entry (xferDesc 4) 1), 0, 0, 256, 10, (by decide +kernel), (by decide +kernel), (by decide +kernel),
      (by decide +kernel), (by decide +kernel), (by decide +kernel), (by decide +kernel), (by decide +kernel), (by decide +kernel),
      (by decide +kernel), (by decide +kernel), (by decide +kernel), (by decide +kernel), (by decide +kernel), (by decide +kernel),
      (by decide +kernel), (by decide +kernel), (by decide +kernel), (by decide +kernel), (by decide +kernel), (by decide +kernel)⟩,
    ⟨(jobOf {} (logged (entry (desc 5 [(33, 1, 10)])))), 3, 2, (entry (desc 5 [(33, 1, 10)]) 1), ({}), (by decide +kernel), (by decide +kernel),
      (by decide +kernel), (by decide +kernel), (by decide +kernel), (by decide +kernel), (by decide +kernel), (by decide +kernel),
      (by decide +kernel), (by decide +kernel)⟩,
    ⟨(jobOf { a := 100 } (logged (entry (desc 5 [(33, 1,
      10)])) ({ owner with net.req := [(uSt 3 * 2 ^ 20 + 9, { pkt := { op := 1, tag := 9, ack := true, ctx := 5 }, own := .core 1 0, fc := 0 })] }))),
      3, 2, (entry (desc 5 [(33, 1, 10)]) 1), ({ a := 100 }), (by decide +kernel), (by decide +kernel), (by decide +kernel), (by decide +kernel),
      (by decide +kernel), (by decide +kernel), (by decide +kernel), (by decide +kernel), (by decide +kernel), (by decide +kernel)⟩⟩

theorem wit_CompletionRecord :
    (∃ (s : State) (st : Nat) (e : Nat) (l : LogEnt) (status : Nat) (detail : Nat) (a : Nat), s.logAt st e = some l ∧
      a = sramKey st (s.rd (stnB st) KSTN_CQ_BASE.cq_base (s.rd (stnB st) KSTN_DQ_CFG.dq_cq l.dq) * 32 + 32 * s.rd (stnB st) KSTN_CQ_TAIL.cq_tail (s.rd (stnB st) KSTN_DQ_CFG.dq_cq l.dq))) :=
  ⟨(logged (entry (desc 9) 2)), 3, 2, (entry (desc 9) 2), 0, 7, (sramKey 3 0), (by decide +kernel), (by decide +kernel)⟩

theorem wit_SendsAct :
    (∃ (s : State) (st : Nat) (c : Nat) (addr : Nat) (blen : Nat) (ctx : Nat) (h : Bool), s.inReset = false ∧ s.sendCheck st c addr blen ctx ≠ OK)
    ∧ (∃ (s : State) (st : Nat) (c : Nat) (addr : Nat) (blen : Nat) (ctx : Nat) (h : Bool), s.inReset = false ∧ s.sendCheck st c addr blen ctx = OK ∧
      msgLines blen ≤ s.chCredit st c)
    ∧ (∃ (s : State) (st : Nat) (c : Nat) (addr : Nat) (blen : Nat) (ctx : Nat), s.inReset = false ∧ s.sendCheck st c addr blen ctx = OK ∧
      s.chCredit st c < msgLines blen)
    ∧ (∃ (s : State) (st : Nat) (c : Nat) (addr : Nat) (blen : Nat) (ctx : Nat), s.inReset = false ∧ s.sendCheck st c addr blen ctx = OK ∧
      s.chCredit st c < msgLines blen ∧ s.stallOver st c = false)
    ∧ (∃ (s : State) (st : Nat) (c : Nat) (addr : Nat) (blen : Nat) (ctx : Nat), s.inReset = false ∧ s.sendCheck st c addr blen ctx = OK ∧
      s.chCredit st c < msgLines blen ∧ s.stallOver st c = true)
    ∧ (∃ (s : State) (st : Nat) (d : Send), s.inReset = false ∧ s.sta.blocked.find st = some d ∧ s.sendCheck st d.chan d.addr d.blen d.ctx = OK ∧
      s.chCredit st d.chan < msgLines d.blen)
    ∧ (∃ (s : State) (st : Nat) (d : Send), s.inReset = false ∧ s.sta.blocked.find st = some d ∧ s.sendCheck st d.chan d.addr d.blen d.ctx = OK ∧
      msgLines d.blen ≤ s.chCredit st d.chan)
    ∧ (∃ (s : State) (st : Nat) (d : Send), s.inReset = false ∧ s.sta.blocked.find st = some d ∧ s.sendCheck st d.chan d.addr d.blen d.ctx ≠ OK)
    ∧ (∃ (s : State) (st : Nat) (d : Send), s.inReset = false ∧ s.sta.blocked.find st = some d)
    ∧ (∃ (s : State) (st : Nat) (c : Nat) (d : Send), s.inReset = false ∧ s.stallOver st c = true ∧ s.sta.blocked.find st = some d ∧ d.chan = c)
    ∧ (∃ (s : State) (st : Nat) (c : Nat), s.inReset = false ∧ s.stallOver st c = true ∧ (∀ d, s.sta.blocked.find st = some d → d.chan ≠ c) ∧
      s.waitingSends st c ≠ [])
    ∧ (∃ (s : State) (st : Nat) (c : Nat), s.inReset = false ∧ (∀ d, s.sta.blocked.find st = some d → d.chan ≠ c) ∧ s.waitingSends st c = []) :=
  ⟨⟨owner, 3, 4, 0, 0, 5, false, (by decide +kernel), (by decide +kernel)⟩,
    ⟨(channel 5), 3, 4, 0, 0, 5, false, (by decide +kernel), (by decide +kernel), (by decide +kernel)⟩,
    ⟨(channel 0), 3, 4, 0, 0, 5, (by decide +kernel), (by decide +kernel), (by decide +kernel)⟩,
    ⟨(channel 0), 3, 4, 0, 0, 5, (by decide +kernel), (by decide +kernel), (by decide +kernel), (by decide +kernel)⟩,
    ⟨({ channel 0 with sta.stallT := [(chKey 3 4, 0)], fc := 2 ^ 40 }), 3, 4, 0, 0, 5, (by decide +kernel), (by decide +kernel), (by decide +kernel),
      (by decide +kernel)⟩,
    ⟨({ channel 0 with sta.blocked := [(3, { chan := 4, addr := 0, blen := 0, ctx := 5 })] }), 3, ({ chan := 4, addr := 0, blen := 0, ctx := 5 }),
      (by decide +kernel), (by decide +kernel), (by decide +kernel), (by decide +kernel)⟩,
    ⟨({ channel 5 with sta.blocked := [(3, { chan := 4, addr := 0, blen := 0, ctx := 5 })] }), 3, ({ chan := 4, addr := 0, blen := 0, ctx := 5 }),
      (by decide +kernel), (by decide +kernel), (by decide +kernel), (by decide +kernel)⟩,
    ⟨({ State.reset with sta.blocked := [(3, { chan := 4, addr := 0, blen := 0, ctx := 5 })] }), 3, ({ chan := 4, addr := 0, blen := 0, ctx := 5 }),
      (by decide +kernel), (by decide +kernel), (by decide +kernel)⟩,
    ⟨({ channel 0 with sta.blocked := [(3, { chan := 4, addr := 0, blen := 0, ctx := 5 })] }), 3, ({ chan := 4, addr := 0, blen := 0, ctx := 5 }),
      (by decide +kernel), (by decide +kernel)⟩,
    ⟨({ channel 0 with sta.blocked := [(3, { chan := 4, addr := 0, blen := 0, ctx := 5 })], sta.stallT := [(chKey 3 4, 0)], fc := 2 ^ 40 }), 3, 4,
      ({ chan := 4, addr := 0, blen := 0, ctx := 5 }), (by decide +kernel), (by decide +kernel), (by decide +kernel), (by decide +kernel)⟩,
    ⟨({ jobOf {} (logged (entry (desc 2 [(32, 1, 4), (33, 1, 1)])) (channel 0)) with sta.stallT := [(chKey 3 4, 0)], fc := 2 ^ 40 }), 3, 4,
      (by decide +kernel), (by decide +kernel), (by intro d h; exact nomatch (show (none : Option Send) = some d from h)), (by decide +kernel)⟩,
    ⟨(channel 0), 3, 4, (by decide +kernel), (by intro d h; exact nomatch (show (none : Option Send) = some d from h)), (by decide +kernel)⟩⟩

theorem wit_MessagesAct :
    (∃ (s : State) (st : Nat) (p : Packet) (w : W) (r : Nat) (m : Nat) (i : Nat), s.inReset = false ∧ s.Takes (uSt st) 0x20 p w ∧ p.aux < 256 ∧
      r = p.aux ∧ m = hdLines p.data ∧ m ≠ 0 ∧ m ≤ w.rd (stnB st) KSTN_RING_CFG.max_lines r ∧ p.len = 16 + hdBlen p.data ∧ w.ringOn st r = true ∧
      w.ringAddrOk st r p.addr = true ∧ w.owns 3 st r p.ctx = true ∧ w.slotOf st r (hdPkg p.data) (hdSrc p.data) (hdChan p.data) = some i ∧
      w.ctxFencedAt st p.ctx = false)
    ∧ (∃ (s : State) (st : Nat) (p : Packet) (w : W), s.inReset = false ∧ s.Takes (uSt st) 0x20 p w ∧ 256 ≤ p.aux)
    ∧ (∃ (s : State) (st : Nat) (p : Packet) (w : W) (r : Nat) (m : Nat), s.inReset = false ∧ s.Takes (uSt st) 0x20 p w ∧ p.aux < 256 ∧ r = p.aux ∧
      m = hdLines p.data ∧ m ≠ 0 ∧ m ≤ w.rd (stnB st) KSTN_RING_CFG.max_lines r ∧ p.len = 16 + hdBlen p.data ∧
      (w.ringOn st r = false ∨ w.ringAddrOk st r p.addr = false ∨ w.owns 3 st r p.ctx = false ∨ w.slotOf st r (hdPkg p.data) (hdSrc p.data) (hdChan p.data) = none))
    ∧ (∃ (s : State) (st : Nat) (r : Nat) (m : Msg), s.inReset = false ∧ (s.msgsOf st r).find? (fun m => !m.written && m.writes == 0) = some m ∧
      s.rd (stnB st) KSTN_RING_CFG.in_mem r = 1)
    ∧ (∃ (s : State) (st : Nat) (r : Nat) (k : Nat) (q : Req) (p : Packet) (w : W) (w' : W) (l : List Nat) (w1 : W), s.inReset = false ∧
      s.net.req.find? (fun e => e.1 / 2 ^ 20 == uSt st && e.2.own == .ringPop r) = some (k, q) ∧
      s.w0.takeAny (uSt st) (fun p => (p.op == 0x03 || p.op == 0x60) && p.ref == k % 2 ^ 20 && p.ans == 2) = some (p, w) ∧
      w' = w.delReq (uSt st) (k % 2 ^ 20) ∧ l = Tbl.get [] w'.sta.pops (chKey st r) ∧ p.op = 0x03 ∧ p.status = OK ∧ w'.popOne st r p.data = some w1)
    ∧ (∃ (s : State) (st : Nat) (r : Nat) (k : Nat) (q : Req) (p : Packet) (w : W) (w' : W) (l : List Nat), s.inReset = false ∧
      s.net.req.find? (fun e => e.1 / 2 ^ 20 == uSt st && e.2.own == .ringPop r) = some (k, q) ∧
      s.w0.takeAny (uSt st) (fun p => (p.op == 0x03 || p.op == 0x60) && p.ref == k % 2 ^ 20 && p.ans == 2) = some (p, w) ∧
      w' = w.delReq (uSt st) (k % 2 ^ 20) ∧ l = Tbl.get [] w'.sta.pops (chKey st r) ∧ (p.op ≠ 0x03 ∨ p.status ≠ OK ∨ w'.popOne st r p.data = none))
    ∧ (∃ (s : State) (st : Nat) (p : Packet) (w : W) (c : Nat), s.inReset = false ∧ s.Takes (uSt st) 0x21 p w ∧ c = p.tag % 256 ∧
      w.rd (stnB st) KSTN_CH_CFG.enable c ≠ 0 ∧ w.rd (stnB st) KSTN_CH_CFG.herd_mode c ≠ 1 ∧ bit p.tag 8 = true)
    ∧ (∃ (s : State) (st : Nat) (p : Packet) (w : W) (c : Nat), s.inReset = false ∧ s.Takes (uSt st) 0x21 p w ∧ c = p.tag % 256 ∧
      w.rd (stnB st) KSTN_CH_CFG.enable c ≠ 0 ∧ w.rd (stnB st) KSTN_CH_CFG.herd_mode c ≠ 1 ∧ bit p.tag 8 = false ∧
      Tbl.get false w.sta.resync (chKey st c) = false)
    ∧ (∃ (s : State) (st : Nat) (p : Packet) (w : W) (c : Nat), s.inReset = false ∧ s.Takes (uSt st) 0x21 p w ∧ c = p.tag % 256 ∧
      w.rd (stnB st) KSTN_CH_CFG.enable c ≠ 0 ∧ w.rd (stnB st) KSTN_CH_CFG.herd_mode c ≠ 1 ∧ bit p.tag 8 = false ∧
      Tbl.get false w.sta.resync (chKey st c) = true)
    ∧ (∃ (s : State) (st : Nat) (p : Packet) (w : W) (c : Nat), s.inReset = false ∧ s.Takes (uSt st) 0x21 p w ∧ c = p.tag % 256 ∧
      w.rd (stnB st) KSTN_CH_CFG.enable c = 0)
    ∧ (∃ (s : State) (st : Nat) (p : Packet) (w : W) (i : Nat) (r : Nat), s.inReset = false ∧ s.Takes (uSt st) 0x22 p w ∧ r = p.aux % 256 ∧
      w.slotOf st r (hdPkg p.data) (hdSrc p.data) (hdChan p.data) = some i ∧ w.ringOn st r = true)
    ∧ (∃ (s : State) (st : Nat) (p : Packet) (w : W) (r : Nat), s.inReset = false ∧ s.Takes (uSt st) 0x22 p w ∧ r = p.aux % 256 ∧
      (w.slotOf st r (hdPkg p.data) (hdSrc p.data) (hdChan p.data) = none ∨ w.ringOn st r = false))
    ∧ (∃ (s : State) (st : Nat) (r : Nat) (m : Msg), s.inReset = false ∧ s.sta.offer.find st = none ∧ s.fencedAll st = false ∧ r < 256 ∧
      s.dispMsg st r = some m ∧ (∀ x, x ≠ r → s.dispMsg st x = none))
    ∧ (∃ (s : State) (st : Nat) (o : Offer), s.inReset = false ∧ s.sta.offer.find st = some o) :=
  ⟨⟨(at3 msg6 ring), 3, msg6, (got3 msg6 ring), 6, 1, 0, (by decide +kernel), rfl, (by decide +kernel), (by decide +kernel), (by decide +kernel),
      (by decide +kernel), (by decide +kernel), (by decide +kernel), (by decide +kernel), (by decide +kernel), (by decide +kernel),
      (by decide +kernel), (by decide +kernel)⟩,
    ⟨(at3 ({ msg6 with aux := 256 }) ring), 3, ({ msg6 with aux := 256 }), (got3 ({ msg6 with aux := 256 }) ring), (by decide +kernel), rfl,
      (by decide +kernel)⟩,
    ⟨(at3 msg6 (ring State.reset [(stnB 3, KSTN_RING_SLOT0.s_valid, 0, 96)])), 3, msg6, (got3 msg6 (ring State.reset [(stnB 3,
      KSTN_RING_SLOT0.s_valid, 0, 96)])), 6, 1, (by decide +kernel), rfl, (by decide +kernel), (by decide +kernel), (by decide +kernel),
      (by decide +kernel), (by decide +kernel), (by decide +kernel), (by decide +kernel)⟩,
    ⟨({ ring State.reset [(stnB 3, KSTN_RING_CFG.in_mem, 1, 6)] with sta.msgs := [(chKey 3 6, [{ placed6 with written := false }])] }), 3, 6,
      ({ placed6 with written := false }), (by decide +kernel), (by decide +kernel), (by decide +kernel)⟩,
    ⟨popState, 3, 6, (uSt 3 * 2 ^ 20 + 9), ({ pkt := { op := 2, tag := 9 }, own := .ringPop 6, fc := 0 }), popAns, popTaken,
      (popTaken.delReq (uSt 3) 9), ([1]), (match (popTaken.delReq (uSt 3) 9).popOne 3 6 head6 with | some x => x | none => popTaken),
      (by decide +kernel), (by decide +kernel), rfl, rfl, (by decide +kernel), (by decide +kernel), (by decide +kernel), rfl⟩,
    ⟨(at3 ({ popAns with op := 0x60, vc := 3, status := DENIED }) { popState with net.q := [] }), 3, 6, (uSt 3 * 2 ^ 20 + 9),
      ({ pkt := { op := 2, tag := 9 }, own := .ringPop 6, fc := 0 }), ({ popAns with op := 0x60, vc := 3, status := DENIED }),
      (taken (at3 ({ popAns with op := 0x60, vc := 3, status := DENIED }) { popState with net.q := [] }) (uSt 3) (fun p => (p.op == 0x03 || p.op == 0x60) && p.ref == 9 && p.ans == 2)),
      ((taken (at3 ({ popAns with op := 0x60, vc := 3, status := DENIED }) { popState with net.q := [] }) (uSt 3) (fun p => (p.op == 0x03 || p.op == 0x60) && p.ref == 9 && p.ans == 2)).delReq (uSt 3) 9),
      ([1]), (by decide +kernel), (by decide +kernel), rfl, rfl, (by decide +kernel), (by decide +kernel)⟩,
    ⟨(at3 ({ vc := 4, op := 0x21, tag := 260, aux := 5, src := 7 }) (resyncs (channel 0))), 3,
      ({ vc := 4, op := 0x21, tag := 260, aux := 5, src := 7 }),
      (got3 ({ vc := 4, op := 0x21, tag := 260, aux := 5, src := 7 }) (resyncs (channel 0))), 4, (by decide +kernel), rfl, (by decide +kernel),
      (by decide +kernel), (by decide +kernel), (by decide +kernel)⟩,
    ⟨(at3 ({ vc := 4, op := 0x21, tag := 4, aux := 5, src := 7 }) (channel 0)), 3, ({ vc := 4, op := 0x21, tag := 4, aux := 5, src := 7 }),
      (got3 ({ vc := 4, op := 0x21, tag := 4, aux := 5, src := 7 }) (channel 0)), 4, (by decide +kernel), rfl, (by decide +kernel),
      (by decide +kernel), (by decide +kernel), (by decide +kernel), (by decide +kernel)⟩,
    ⟨(at3 ({ vc := 4, op := 0x21, tag := 4, aux := 5, src := 7 }) (resyncs (channel 0))), 3, ({ vc := 4, op := 0x21, tag := 4, aux := 5, src := 7 }),
      (got3 ({ vc := 4, op := 0x21, tag := 4, aux := 5, src := 7 }) (resyncs (channel 0))), 4, (by decide +kernel), rfl, (by decide +kernel),
      (by decide +kernel), (by decide +kernel), (by decide +kernel), (by decide +kernel)⟩,
    ⟨(at3 ({ vc := 4, op := 0x21, tag := 4, aux := 5, src := 7 }) State.reset), 3, ({ vc := 4, op := 0x21, tag := 4, aux := 5, src := 7 }),
      (got3 ({ vc := 4, op := 0x21, tag := 4, aux := 5, src := 7 }) State.reset), 4, (by decide +kernel), rfl, (by decide +kernel),
      (by decide +kernel)⟩,
    ⟨(at3 ({ vc := 4, op := 0x22, aux := 6, src := 7, data := head6, len := 16 }) ring), 3,
      ({ vc := 4, op := 0x22, aux := 6, src := 7, data := head6, len := 16 }),
      (got3 ({ vc := 4, op := 0x22, aux := 6, src := 7, data := head6, len := 16 }) ring), 0, 6, (by decide +kernel), rfl, (by decide +kernel),
      (by decide +kernel), (by decide +kernel)⟩,
    ⟨(at3 ({ vc := 4, op := 0x22, aux := 6, src := 7, data := head6, len := 16 }) State.reset), 3,
      ({ vc := 4, op := 0x22, aux := 6, src := 7, data := head6, len := 16 }),
      (got3 ({ vc := 4, op := 0x22, aux := 6, src := 7, data := head6, len := 16 }) State.reset), 6, (by decide +kernel), rfl, (by decide +kernel),
      (by decide +kernel)⟩,
    ⟨({ ring State.reset [(stnB 3, KSTN_RING_CFG.hdisp, 1, 6)] with sta.msgs := [(chKey 3 6, [placed6])] }), 3, 6, placed6, (by decide +kernel),
      (by decide +kernel), (by decide +kernel), (by decide +kernel), (by decide +kernel),
      (by
    intro x hx
    have e : ({ ring State.reset [(stnB 3, KSTN_RING_CFG.hdisp, 1, 6)] with sta.msgs := [(chKey 3 6, [placed6])] }).msgsOf 3 x = [] := by
      have : chKey 3 6 ≠ chKey 3 x := by unfold chKey; omega
      simp [State.msgsOf,
      Tbl.find, this]
    unfold State.dispMsg
    rw [e]
    split <;> rfl)⟩,
    ⟨({ ring with sta.offer := [(3, { ring := 6, seq := 0, bytes := [] })], sta.msgs := [(chKey 3 6, [placed6])] }), 3,
      ({ ring := 6, seq := 0, bytes := [] }), (by decide +kernel), (by decide +kernel)⟩⟩

theorem wit_RingsChannelsAct :
    (∃ (s : State) (st : Nat) (r : Nat) (n : Nat) (who : Who), s.inReset = false ∧ 1 ≤ n ∧ n ≤ 64 ∧ s.mayUse who 3 st r = true ∧
      s.rd (stnB st) KSTN_RING_CFG.in_mem r = 0)
    ∧ (∃ (s : State) (st : Nat) (r : Nat) (n : Nat) (who : Who), s.inReset = false ∧ 1 ≤ n ∧ n ≤ 64 ∧ s.mayUse who 3 st r = true ∧
      s.rd (stnB st) KSTN_RING_CFG.in_mem r ≠ 0 ∧ Tbl.get [] s.sta.pops (chKey st r) = [] ∧ s.rd (stnB st) KSTN_RING_OCC.occ r ≠ 0)
    ∧ (∃ (s : State) (st : Nat) (r : Nat) (n : Nat) (who : Who) (l : List Nat), s.inReset = false ∧ 1 ≤ n ∧ n ≤ 64 ∧ s.mayUse who 3 st r = true ∧
      s.rd (stnB st) KSTN_RING_CFG.in_mem r ≠ 0 ∧ l = Tbl.get [] s.sta.pops (chKey st r) ∧ l ≠ [])
    ∧ (∃ (s : State) (st : Nat) (r : Nat) (i : Nat) (t0 : Nat), s.inReset = false ∧ s.sta.pendT.find (slotKey st r i) = some t0 ∧ t0 + 512 ≤ s.fc ∧
      s.ctxFencedAt st (s.objCtx 3 st r) = false)
    ∧ (∃ (s : State) (st : Nat) (r : Nat) (who : Who), s.inReset = false ∧ s.mayUse who 3 st r = true ∧ s.rd (stnB st) KSTN_RING_CFG.enable r ≠ 1 ∧
      s.ringCfgOk st r = true)
    ∧ (∃ (s : State) (st : Nat) (r : Nat) (who : Who), s.inReset = false ∧ s.mayUse who 3 st r = true ∧ s.rd (stnB st) KSTN_RING_CFG.enable r ≠ 1 ∧
      s.ringCfgOk st r = false)
    ∧ (∃ (s : State) (st : Nat) (r : Nat) (who : Who), s.inReset = false ∧ s.mayUse who 3 st r = true ∧ s.rd (stnB st) KSTN_RING_CFG.enable r ≠ 0)
    ∧ (∃ (s : State) (st : Nat) (c : Nat) (who : Who), s.inReset = false ∧ s.mayUse who 2 st c = true ∧ s.rd (stnB st) KSTN_CH_CFG.enable c ≠ 1)
    ∧ (∃ (s : State) (st : Nat) (c : Nat) (who : Who), s.inReset = false ∧ s.mayUse who 2 st c = true ∧ s.rd (stnB st) KSTN_CH_CFG.enable c ≠ 0) :=
  ⟨⟨ring, 3, 6, 1, (.host), (by decide +kernel), (by decide +kernel), (by decide +kernel), (by decide +kernel), (by decide +kernel)⟩,
    ⟨(ring State.reset [(stnB 3, KSTN_RING_CFG.in_mem, 1, 6), (stnB 3, KSTN_RING_OCC.occ, 1, 6)]), 3, 6, 1, (.host), (by decide +kernel),
      (by decide +kernel), (by decide +kernel), (by decide +kernel), (by decide +kernel), (by decide +kernel), (by decide +kernel)⟩,
    ⟨({ ring State.reset [(stnB 3, KSTN_RING_CFG.in_mem, 1, 6), (stnB 3, KSTN_RING_OCC.occ, 1, 6)] with sta.pops := [(chKey 3 6, [1])] }), 3, 6, 1,
      (.host), ([1]), (by decide +kernel), (by decide +kernel), (by decide +kernel), (by decide +kernel), (by decide +kernel), (by decide +kernel),
      (by decide +kernel)⟩,
    ⟨({ ring State.reset [(stnB 3, KSTN_RING_SLOT2.s_pend, 1, 96)] with sta.pendT := [(slotKey 3 6 0, 0)], fc := 512 }), 3, 6, 0, 0,
      (by decide +kernel), (by decide +kernel), (by decide +kernel), (by decide +kernel)⟩,
    ⟨(ring State.reset [(stnB 3, KSTN_RING_CFG.enable, 0, 6)]), 3, 6, (.host), (by decide +kernel), (by decide +kernel), (by decide +kernel),
      (by decide +kernel)⟩,
    ⟨(State.reset), 3, 6, (.host), (by decide +kernel), (by decide +kernel), (by decide +kernel), (by decide +kernel)⟩,
    ⟨ring, 3, 6, (.host), (by decide +kernel), (by decide +kernel), (by decide +kernel)⟩,
    ⟨(channel 0 State.reset [(stnB 3, KSTN_CH_CFG.enable, 0, 4)]), 3, 4, (.host), (by decide +kernel), (by decide +kernel), (by decide +kernel)⟩,
    ⟨(channel 0), 3, 4, (.host), (by decide +kernel), (by decide +kernel), (by decide +kernel)⟩⟩

theorem wit_CmpSettles :
    (∃ (s : State) (st : Nat) (p : Packet) (w : W) (ref : Nat) (r : Req), s.inReset = false ∧ st < 4096 ∧
      s.w0.takeAny (uSt st) (fun p => p.op == 0x60 && !s.forPop (uSt st) p && !s.staleFirst p && !(0x2040 ≤ uSt st && uSt st < 0x2080)) = some (p,
      w) ∧ (p.status ≠ STALE_GEN ∨ p.byRouter = false) ∧ p.ref < 2 ^ 20 ∧ w.ofMessage (uSt st) p = false ∧ w.reqOf (uSt st) p = some (ref, r) ∧
      (∀ sl key, r.own ≠ .snoop sl key) ∧ (∀ b, r.own ≠ .dump b) ∧ (∀ q sl, r.own ≠ .cmdWrite q sl) ∧ (∀ q sl, r.own ≠ .plateWrite q sl) ∧
      r.need ≤ 1 ∧ r.late = false)
    ∧ (∃ (s : State) (st : Nat) (p : Packet) (w : W) (ref : Nat) (r : Req), s.inReset = false ∧ st < 4096 ∧
      s.w0.takeAny (uSt st) (fun p => p.op == 0x60 && !s.forPop (uSt st) p && !s.staleFirst p && !(0x2040 ≤ uSt st && uSt st < 0x2080)) = some (p,
      w) ∧ (p.status ≠ STALE_GEN ∨ p.byRouter = false) ∧ p.ref < 2 ^ 20 ∧ w.ofMessage (uSt st) p = false ∧ w.reqOf (uSt st) p = some (ref, r) ∧
      (∀ sl key, r.own ≠ .snoop sl key) ∧ (∀ b, r.own ≠ .dump b) ∧ (∀ q sl, r.own ≠ .cmdWrite q sl) ∧ (∀ q sl, r.own ≠ .plateWrite q sl) ∧
      r.need ≤ 1 ∧ r.late = true)
    ∧ (∃ (s : State) (st : Nat) (p : Packet) (w : W) (ref : Nat) (r : Req), s.inReset = false ∧ st < 4096 ∧
      s.w0.takeAny (uSt st) (fun p => p.op == 0x60 && !s.forPop (uSt st) p && !s.staleFirst p && !(0x2040 ≤ uSt st && uSt st < 0x2080)) = some (p,
      w) ∧ (p.status ≠ STALE_GEN ∨ p.byRouter = false) ∧ p.ref < 2 ^ 20 ∧ w.ofMessage (uSt st) p = false ∧ w.reqOf (uSt st) p = some (ref, r) ∧
      (∀ sl key, r.own ≠ .snoop sl key) ∧ (∀ b, r.own ≠ .dump b) ∧ (∀ q sl, r.own ≠ .cmdWrite q sl) ∧ (∀ q sl, r.own ≠ .plateWrite q sl) ∧
      1 < r.need ∧ p.hops ≠ 0)
    ∧ (∃ (s : State) (st : Nat) (p : Packet) (w : W), s.inReset = false ∧ st < 4096 ∧
      s.w0.takeAny (uSt st) (fun p => p.op == 0x60 && !s.forPop (uSt st) p && !s.staleFirst p && !(0x2040 ≤ uSt st && uSt st < 0x2080)) = some (p,
      w) ∧ (p.status ≠ STALE_GEN ∨ p.byRouter = false) ∧ (2 ^ 20 ≤ p.ref ∨ w.ofMessage (uSt st) p = true ∨ w.reqOf (uSt st) p = none))
    ∧ (∃ (s : State) (m : Nat) (p : Packet) (w : W) (ref : Nat) (r : Req) (sl : Nat) (key : Nat), s.inReset = false ∧ m < 64 ∧
      s.w0.takeAny (uMsp m) (fun p => p.op == 0x60 && !s.forPop (uMsp m) p && !s.staleFirst p && !(0x2040 ≤ uMsp m && uMsp m < 0x2080)) = some (p,
      w) ∧ p.status ≠ STALE_GEN ∧ p.ref < 2 ^ 20 ∧ w.ofMessage (uMsp m) p = false ∧ w.reqOf (uMsp m) p = some (ref, r) ∧ r.own = .snoop sl key ∧
      r.need = 1)
    ∧ (∃ (s : State) (p : Packet) (w : W), s.inReset = false ∧
      s.w0.takeAny uHost (fun p => p.op == 0x60 && !s.forPop uHost p && !s.staleFirst p && !(0x2040 ≤ uHost && uHost < 0x2080)) = some (p, w) ∧
      (p.status ≠ STALE_GEN ∨ p.byRouter = false)) :=
  ⟨⟨(waits (uSt 3) ({ vc := 3, op := 0x60, ref := 9, tag := 9 }) { State.reset with net.req := [(uSt 3 * 2 ^ 20 + 9, { pkt := { op := 2, tag := 9 }, own := .core 1 0, fc := 0 })] }),
      3, ({ vc := 3, op := 0x60, ref := 9, tag := 9 }),
      (taken (waits (uSt 3) ({ vc := 3, op := 0x60, ref := 9, tag := 9 }) { State.reset with net.req := [(uSt 3 * 2 ^ 20 + 9, { pkt := { op := 2, tag := 9 }, own := .core 1 0, fc := 0 })] }) (uSt 3) (fun p => p.op == 0x60 && !(waits (uSt 3) ({ vc := 3, op := 0x60, ref := 9, tag := 9 }) { State.reset with net.req := [(uSt 3 * 2 ^ 20 + 9, { pkt := { op := 2, tag := 9 }, own := .core 1 0, fc := 0 })] }).forPop (uSt 3) p && !(waits (uSt 3) ({ vc := 3, op := 0x60, ref := 9, tag := 9 }) { State.reset with net.req := [(uSt 3 * 2 ^ 20 + 9, { pkt := { op := 2, tag := 9 }, own := .core 1 0, fc := 0 })] }).staleFirst p && !(0x2040 ≤ uSt 3 && uSt 3 < 0x2080))),
      9, ({ pkt := { op := 2, tag := 9 }, own := .core 1 0, fc := 0 }), (by decide +kernel), (by decide +kernel), rfl, (by decide +kernel),
      (by decide +kernel), (by decide +kernel), (by decide +kernel), (by intro a b h; cases h), (by intro a h; cases h), (by intro a b h; cases h),
      (by intro a b h; cases h), (by decide +kernel), (by decide +kernel)⟩,
    ⟨(waits (uSt 3) ({ vc := 3, op := 0x60, ref := 9, tag := 9 }) { State.reset with net.req := [(uSt 3 * 2 ^ 20 + 9, { pkt := { op := 2, tag := 9 }, own := .core 1 0, fc := 0, late := true })] }),
      3, ({ vc := 3, op := 0x60, ref := 9, tag := 9 }),
      (taken (waits (uSt 3) ({ vc := 3, op := 0x60, ref := 9, tag := 9 }) { State.reset with net.req := [(uSt 3 * 2 ^ 20 + 9, { pkt := { op := 2, tag := 9 }, own := .core 1 0, fc := 0, late := true })] }) (uSt 3) (fun p => p.op == 0x60 && !(waits (uSt 3) ({ vc := 3, op := 0x60, ref := 9, tag := 9 }) { State.reset with net.req := [(uSt 3 * 2 ^ 20 + 9, { pkt := { op := 2, tag := 9 }, own := .core 1 0, fc := 0, late := true })] }).forPop (uSt 3) p && !(waits (uSt 3) ({ vc := 3, op := 0x60, ref := 9, tag := 9 }) { State.reset with net.req := [(uSt 3 * 2 ^ 20 + 9, { pkt := { op := 2, tag := 9 }, own := .core 1 0, fc := 0, late := true })] }).staleFirst p && !(0x2040 ≤ uSt 3 && uSt 3 < 0x2080))),
      9, ({ pkt := { op := 2, tag := 9 }, own := .core 1 0, fc := 0, late := true }), (by decide +kernel), (by decide +kernel), rfl,
      (by decide +kernel), (by decide +kernel), (by decide +kernel), (by decide +kernel), (by intro a b h; cases h), (by intro a h; cases h),
      (by intro a b h; cases h), (by intro a b h; cases h), (by decide +kernel), (by decide +kernel)⟩,
    ⟨(waits (uSt 3) ({ vc := 3, op := 0x60, ref := 9, tag := 9, hops := 1 }) { State.reset with net.req := [(uSt 3 * 2 ^ 20 + 9, { pkt := { op := 2, tag := 9 }, own := .core 1 0, fc := 0, need := 2 })] }),
      3, ({ vc := 3, op := 0x60, ref := 9, tag := 9, hops := 1 }),
      (taken (waits (uSt 3) ({ vc := 3, op := 0x60, ref := 9, tag := 9, hops := 1 }) { State.reset with net.req := [(uSt 3 * 2 ^ 20 + 9, { pkt := { op := 2, tag := 9 }, own := .core 1 0, fc := 0, need := 2 })] }) (uSt 3) (fun p => p.op == 0x60 && !(waits (uSt 3) ({ vc := 3, op := 0x60, ref := 9, tag := 9, hops := 1 }) { State.reset with net.req := [(uSt 3 * 2 ^ 20 + 9, { pkt := { op := 2, tag := 9 }, own := .core 1 0, fc := 0, need := 2 })] }).forPop (uSt 3) p && !(waits (uSt 3) ({ vc := 3, op := 0x60, ref := 9, tag := 9, hops := 1 }) { State.reset with net.req := [(uSt 3 * 2 ^ 20 + 9, { pkt := { op := 2, tag := 9 }, own := .core 1 0, fc := 0, need := 2 })] }).staleFirst p && !(0x2040 ≤ uSt 3 && uSt 3 < 0x2080))),
      9, ({ pkt := { op := 2, tag := 9 }, own := .core 1 0, fc := 0, need := 2 }), (by decide +kernel), (by decide +kernel), rfl,
      (by decide +kernel), (by decide +kernel), (by decide +kernel), (by decide +kernel), (by intro a b h; cases h), (by intro a h; cases h),
      (by intro a b h; cases h), (by intro a b h; cases h), (by decide +kernel), (by decide +kernel)⟩,
    ⟨(waits (uSt 3) ({ vc := 3, op := 0x60, ref := 9, tag := 9 })), 3, ({ vc := 3, op := 0x60, ref := 9, tag := 9 }),
      (taken (waits (uSt 3) ({ vc := 3, op := 0x60, ref := 9, tag := 9 })) (uSt 3) (fun p => p.op == 0x60 && !(waits (uSt 3) ({ vc := 3, op := 0x60, ref := 9, tag := 9 })).forPop (uSt 3) p && !(waits (uSt 3) ({ vc := 3, op := 0x60, ref := 9, tag := 9 })).staleFirst p && !(0x2040 ≤ uSt 3 && uSt 3 < 0x2080))),
      (by decide +kernel), (by decide +kernel), rfl, (by decide +kernel), (by decide +kernel)⟩,
    ⟨(waits (uMsp 0) ({ vc := 3, op := 0x60, ref := 9, tag := 9 }) { dirWith (ent 3 [9]) with net.req := [(uMsp 0 * 2 ^ 20 + 9, { pkt := { op := 0x51, tag := 9 }, own := .snoop 0 line0, fc := 0 })] }),
      0, ({ vc := 3, op := 0x60, ref := 9, tag := 9 }),
      (taken (waits (uMsp 0) ({ vc := 3, op := 0x60, ref := 9, tag := 9 }) { dirWith (ent 3 [9]) with net.req := [(uMsp 0 * 2 ^ 20 + 9, { pkt := { op := 0x51, tag := 9 }, own := .snoop 0 line0, fc := 0 })] }) (uMsp 0) (fun p => p.op == 0x60 && !(waits (uMsp 0) ({ vc := 3, op := 0x60, ref := 9, tag := 9 }) { dirWith (ent 3 [9]) with net.req := [(uMsp 0 * 2 ^ 20 + 9, { pkt := { op := 0x51, tag := 9 }, own := .snoop 0 line0, fc := 0 })] }).forPop (uMsp 0) p && !(waits (uMsp 0) ({ vc := 3, op := 0x60, ref := 9, tag := 9 }) { dirWith (ent 3 [9]) with net.req := [(uMsp 0 * 2 ^ 20 + 9, { pkt := { op := 0x51, tag := 9 }, own := .snoop 0 line0, fc := 0 })] }).staleFirst p && !(0x2040 ≤ uMsp 0 && uMsp 0 < 0x2080))),
      9, ({ pkt := { op := 0x51, tag := 9 }, own := .snoop 0 line0, fc := 0 }), 0, line0, (by decide +kernel), (by decide +kernel), rfl,
      (by decide +kernel), (by decide +kernel), (by decide +kernel), (by decide +kernel), (by decide +kernel), (by decide +kernel)⟩,
    ⟨(waits uHost ({ vc := 3, op := 0x60, ref := 9, tag := 9 })), ({ vc := 3, op := 0x60, ref := 9, tag := 9 }),
      (taken (waits uHost ({ vc := 3, op := 0x60, ref := 9, tag := 9 })) (uHost) (fun p => p.op == 0x60 && !(waits uHost ({ vc := 3, op := 0x60, ref := 9, tag := 9 })).forPop (uHost) p && !(waits uHost ({ vc := 3, op := 0x60, ref := 9, tag := 9 })).staleFirst p && !(0x2040 ≤ uHost && uHost < 0x2080))),
      (by decide +kernel), rfl, (by decide +kernel)⟩⟩

theorem wit_StreamDescriptorsAct :
    (∃ (s : State) (st : Nat) (e : Nat) (l : LogEnt), s.inReset = false ∧ s.mayStart st e 1 = some l ∧ ¬ s.streamForm st l.desc)
    ∧ (∃ (s : State) (st : Nat) (e : Nat) (l : LogEnt), s.inReset = false ∧ s.mayStart st e 1 = some l ∧ s.streamForm st l.desc ∧
      ¬ s.streamOwned st l)
    ∧ (∃ (s : State) (st : Nat) (e : Nat) (l : LogEnt), s.inReset = false ∧ s.mayStart st e 1 = some l ∧ s.streamForm st l.desc ∧
      s.streamOwned st l ∧ s.locked = true ∧ s.laneLive (le l.desc 36 2 / 4096) l.lctx = false)
    ∧ (∃ (s : State) (st : Nat) (e : Nat) (l : LogEnt), s.inReset = false ∧ s.mayStart st e 1 = some l ∧ s.streamForm st l.desc ∧
      s.streamOwned st l ∧ (s.locked = true → s.laneLive (le l.desc 36 2 / 4096) l.lctx = true) ∧ (s.strmAt st (le l.desc 32 1)).state ≠ 0)
    ∧ (∃ (s : State) (st : Nat) (e : Nat) (l : LogEnt), s.inReset = false ∧ s.mayStart st e 1 = some l ∧ s.streamForm st l.desc ∧
      s.streamOwned st l ∧ s.locked = false ∧ (s.strmAt st (le l.desc 32 1)).state = 0)
    ∧ (∃ (s : State) (st : Nat) (e : Nat) (l : LogEnt) (x : Nat), s.inReset = false ∧ s.mayStart st e 1 = some l ∧ s.streamForm st l.desc ∧
      s.streamOwned st l ∧ s.locked = true ∧ s.laneLive (le l.desc 36 2 / 4096) l.lctx = true ∧ (s.strmAt st (le l.desc 32 1)).state = 0 ∧
      x = (le l.desc 44 4 + 2 ^ 32 - s.plateTime % 2 ^ 32) % 2 ^ 32 ∧ (x = 0 ∨ 2 ^ 31 ≤ x))
    ∧ (∃ (s : State) (st : Nat) (e : Nat) (l : LogEnt) (x : Nat), s.inReset = false ∧ s.mayStart st e 1 = some l ∧ s.streamForm st l.desc ∧
      s.streamOwned st l ∧ s.locked = true ∧ s.laneLive (le l.desc 36 2 / 4096) l.lctx = true ∧ (s.strmAt st (le l.desc 32 1)).state = 0 ∧
      x = (le l.desc 44 4 + 2 ^ 32 - s.plateTime % 2 ^ 32) % 2 ^ 32 ∧ x ≠ 0 ∧ x < 2 ^ 31) :=
  ⟨⟨(logged (entry (desc 1 [(32, 1, 4), (33, 1, 0x11), (35, 1, 10), (40, 4, 1), (44, 4, 5)]))), 3, 2, (entry (desc 1 [(32, 1, 4), (33, 1, 0x11),
      (35, 1, 10), (40, 4, 1), (44, 4, 5)])), (by decide +kernel), (by decide +kernel), (by unfold State.streamForm; decide +kernel)⟩,
    ⟨(logged (entry streamDesc)), 3, 2, (entry streamDesc), (by decide +kernel), (by decide +kernel), (by unfold State.streamForm; decide +kernel),
      (by unfold State.streamOwned; decide +kernel)⟩,
    ⟨(logged (entry streamDesc) (owner (regs [(hrdB, KHRD_STATUS.state, 2, 0)]) [(4, 3, 4, 5)])), 3, 2, (entry streamDesc), (by decide +kernel),
      (by decide +kernel), (by unfold State.streamForm; decide +kernel), (by unfold State.streamOwned; decide +kernel), (by decide +kernel),
      (by decide +kernel)⟩,
    ⟨({ streamState with sch.strm := [(strmKey 3 4, { state := 1 })] }), 3, 2, (entry streamDesc), (by decide +kernel), (by decide +kernel),
      (by unfold State.streamForm; decide +kernel), (by unfold State.streamOwned; decide +kernel), (by decide +kernel), (by decide +kernel)⟩,
    ⟨(logged (entry streamDesc) (owner State.reset [(4, 3, 4, 5)])), 3, 2, (entry streamDesc), (by decide +kernel), (by decide +kernel),
      (by unfold State.streamForm; decide +kernel), (by unfold State.streamOwned; decide +kernel), (by decide +kernel), (by decide +kernel)⟩,
    ⟨({ streamState with plateTime := 5 }), 3, 2, (entry streamDesc), 0, (by decide +kernel), (by decide +kernel),
      (by unfold State.streamForm; decide +kernel), (by unfold State.streamOwned; decide +kernel), (by decide +kernel), (by decide +kernel),
      (by decide +kernel), (by decide +kernel), (by decide +kernel)⟩,
    ⟨streamState, 3, 2, (entry streamDesc), 5, (by decide +kernel), (by decide +kernel), (by unfold State.streamForm; decide +kernel),
      (by unfold State.streamOwned; decide +kernel), (by decide +kernel), (by decide +kernel), (by decide +kernel), (by decide +kernel),
      (by decide +kernel), (by decide +kernel)⟩⟩

theorem wit_CollectivesAct :
    (∃ (s : State) (q : Nat) (slot : Nat) (c : Cmd) (b : List Byte) (gi : Nat) (g : GroupDef) (d : HerdDef), s.inReset = false ∧
      s.Runs q slot 0x00A0 c ∧ b = (c.bytes.drop 16).take 32 ∧ gi = bits (le b 0 2) 0 10 ∧
      g = { groupOf b with rroot := s.rootByte s.genCur (groupOf b).rherd } ∧ (g.regMask ≠ 0 ∨ g.clMask ≠ 0 ∨ g.coreMask ≠ 0) ∧ g.pkgLo ≤ g.pkgHi ∧
      g.pkgStep ≠ 0 ∧ g.dieLo ≤ g.dieHi ∧ g.dieStep ≠ 0 ∧ g.dieHi < s.fuse.cdActive ∧ (axis g.pkgLo g.pkgHi g.pkgStep).contains s.pkgNum = true ∧
      g.home < s.fuse.tines ∧ groupClean b = true ∧ c.ctx = g.ctx ∧ (s.hbank s.genCur).defs.find g.rherd = some d ∧ d.ctx = g.ctx ∧
      d.members.length = g.lsize ∧ (d.stage = 3 ∧ d.index = g.home ∨ d.stage = 4) ∧ s.ctxLive g.ctx = true ∧ s.col.grp.find gi = none ∧
      (∀ l ∈ g.members, (s.groupSlot (s.phys l) gi).isNone = true → ∃ i, i < 64 ∧ s.col.memb.find (s.phys l * 64 + i) = none))
    ∧ (∃ (s : State) (tine : Nat) (p : Packet) (w : W), s.inReset = false ∧ s.combLanes (uTine tine) < 4 ∧
      s.w0.takeIn (uTine tine) pRin (fun p => p.op == 0x30) = some (p, w))
    ∧ (∃ (s : State) (tine : Nat) (p : Packet) (w : W), s.inReset = false ∧ s.combLanes (uTine tine) < 4 ∧
      s.w0.takeIn (uTine tine) pRin (fun p => p.op == 0x31) = some (p, w))
    ∧ (∃ (s : State) (tine : Nat) (p : Packet) (w : W), s.inReset = false ∧ s.combLanes (uTine tine) < 4 ∧
      s.w0.takeIn (uTine tine) pRin (fun p => p.op == 0x32) = some (p, w))
    ∧ (∃ (s : State) (tine : Nat) (key : Nat) (c : RCtx), s.inReset = false ∧ s.col.rctx.find key = some c ∧ key / 512 = tine ∧
      c.t0 + 2 ^ s.rd (rtrB (uTine tine)) KRTR_RED_CFG.linger_log2 ≤ s.fc ∧
      s.w0.takeIn (uTine tine) pRin (fun p => p.ctx == c.pkt.ctx && rxKey p == rxKey c.pkt && rxSeq p == rxSeq c.pkt) = none)
    ∧ (∃ (s : State) (st : Nat) (p : Packet) (w : W) (k : Nat) (f : Fold), s.inReset = false ∧ s.Takes (uSt st) 0x33 p w ∧
      w.ctxFencedAt st p.ctx = false ∧ (0 < (asResult p).length → w.winOk st p.ctx true p.addr (asResult p).length false true false = true) ∧
      Tbl.findBy (fun _ f => f.ctx == p.ctx && f.gkey == rxKey p && f.seq == rxSeq p) (w.col.fold.filter (fun e => e.1 / 32 == st)) = some (k, f))
    ∧ (∃ (s : State) (st : Nat) (p : Packet) (w : W), s.inReset = false ∧ s.Takes (uSt st) 0x33 p w ∧ w.ctxFencedAt st p.ctx = true)
    ∧ (∃ (s : State) (st : Nat) (slot : Nat) (f : Fold), s.inReset = false ∧ s.col.fold.find (foldKey st slot) = some f ∧ f.entry = none ∧
      f.t0 + 2 ^ 24 ≤ s.fc)
    ∧ (∃ (s : State) (st : Nat) (e : Nat) (c : Coll) (f : Fold), s.inReset = false ∧ s.collAt st e = some c ∧ c.tEnd ≤ s.fc ∧ c.sched = false ∧
      s.col.fold.find (foldKey st c.slot) = some f ∧ f.count ≠ 0 ∧ f.mm = false)
    ∧ (∃ (s : State) (st : Nat) (e : Nat) (c : Coll) (f : Fold), s.inReset = false ∧ s.collAt st e = some c ∧ c.tEnd ≤ s.fc ∧ c.sched = false ∧
      s.col.fold.find (foldKey st c.slot) = some f ∧ f.count ≠ 0 ∧ f.mm = true)
    ∧ (∃ (s : State) (st : Nat) (e : Nat) (c : Coll) (f : Fold), s.inReset = false ∧ s.collAt st e = some c ∧ c.tEnd ≤ s.fc ∧ c.sched = false ∧
      s.col.fold.find (foldKey st c.slot) = some f ∧ f.count = 0)
    ∧ (∃ (s : State) (st : Nat) (e : Nat) (c : Coll), s.inReset = false ∧ s.collAt st e = some c ∧ c.tEnd ≤ s.fc ∧ c.sched = true)
    ∧ (∃ (s : State) (st : Nat) (e : Nat) (l : LogEnt) (g : GroupDef) (cop : Nat) (tl : Nat) (seq : Nat), s.inReset = false ∧
      s.mayStart st e 8 = some l ∧ cop = bits (le l.desc 32 1) 0 2 ∧ tl = bits (le l.desc 33 1) 0 5 ∧ seq = le l.desc 36 4 ∧
      bits (le l.desc 32 1) 2 6 = 0 ∧ bits (le l.desc 33 1) 5 3 = 0 ∧ 10 ≤ tl ∧ tl ≤ 30 ∧ bits (le l.desc 34 2) 10 6 = 0 ∧ le l.desc 44 20 = 0 ∧
      (cop = 0 → le l.desc 40 4 = 0) ∧ s.groupAt st (bits (le l.desc 34 2) 0 10) = some g ∧ g.ctx = l.lctx ∧ s.ctxFencedAt st l.lctx = false ∧
      s.foldRoom st g seq = true)
    ∧ (∃ (s : State) (st : Nat) (e : Nat) (l : LogEnt) (g : GroupDef) (k : Nat), s.inReset = false ∧ s.mayStart st e 7 = some l ∧
      le l.desc 32 1 = 0 ∧ bits (le l.desc 33 1) 3 5 = 0 ∧ bits (le l.desc 33 1) 0 3 ≤ 5 ∧
      okType (le l.desc 34 1) (bits (le l.desc 33 1) 0 3) false = true ∧ le l.desc 35 1 = 0 ∧ le l.desc 36 4 ≠ 0 ∧ bits (le l.desc 40 2) 10 6 = 0 ∧
      10 ≤ le l.desc 42 1 ∧ le l.desc 42 1 ≤ 30 ∧ le l.desc 43 1 = 0 ∧ le l.desc 48 1 = k ∧ k ≠ 0xFF ∧ le l.desc 49 1 = 0xFF ∧
      le l.desc 50 1 = 0xFF ∧ le l.desc 51 1 = 0 ∧ le l.desc 52 4 = 0 ∧ le l.desc 56 4 = 0 ∧ le l.desc 60 4 = 0 ∧
      s.groupAt st (bits (le l.desc 40 2) 0 10) = some g ∧ g.ctx = l.lctx ∧ s.ctxFencedAt st l.lctx = false ∧ s.collOfStream st k = none)
    ∧ (∃ (s : State) (st : Nat) (e : Nat) (l : LogEnt) (g : GroupDef) (op : Nat) (ty : Nat) (wd : Bool) (n : Nat) (sa : Nat) (ra : Nat) (seq : Nat) (len : Nat) (sig : Nat),
      s.inReset = false ∧ s.mayStart st e 7 = some l ∧ le l.desc 32 1 = 1 ∧ bits (le l.desc 33 1) 3 5 = 0 ∧ op = bits (le l.desc 33 1) 0 3 ∧ op ≤ 5 ∧
      ty = le l.desc 34 1 ∧ wd = bit (le l.desc 35 1) 0 ∧ okType ty op wd = true ∧ bits (le l.desc 35 1) 1 7 = 0 ∧ n = le l.desc 36 4 ∧ n ≠ 0 ∧
      bits (le l.desc 40 2) 10 6 = 0 ∧ 10 ≤ le l.desc 42 1 ∧ le l.desc 42 1 ≤ 30 ∧ le l.desc 43 1 = 0 ∧ seq = le l.desc 44 4 ∧
      le l.desc 48 4 = 0x00FFFFFF ∧ sa = le l.desc 52 4 ∧ ra = le l.desc 56 4 ∧ le l.desc 60 4 = 0 ∧ sa % 64 = 0 ∧ ra % 64 = 0 ∧
      len = contribLen ty n ∧ len ≤ 1024 ∧ s.groupAt st (bits (le l.desc 40 2) 0 10) = some g ∧ g.ctx = l.lctx ∧
      s.winOk st l.lctx true sa len true false false = true ∧ s.winOk st l.lctx true ra (if wd then 2 * len else len) false true false = true ∧
      s.ctxFencedAt st l.lctx = false ∧ s.foldRoom st g seq = true ∧ sig = signature op ty (if wd then 1 else 0) l.lctx g.gkey n seq) :=
  ⟨⟨groupState, 0, 0, groupCmd, groupBytes, 0, group0, groupHerd, (by decide +kernel), (And.intro (by decide +kernel) (by decide +kernel)),
      (by decide +kernel), (by decide +kernel), (by decide +kernel), (by decide +kernel), (by decide +kernel), (by decide +kernel),
      (by decide +kernel), (by decide +kernel), (by decide +kernel), (by decide +kernel), (by decide +kernel), (by decide +kernel),
      (by decide +kernel), (by decide +kernel), (by decide +kernel), (by decide +kernel), (by decide +kernel), (by decide +kernel),
      (by decide +kernel), (by intro l _ _; exact ⟨0, by decide, rfl⟩)⟩,
    ⟨(unitWaits 0x300 pRin 0 (contrib 48 1)), 0, (contrib 48 1), (inTaken (unitWaits 0x300 pRin 0 (contrib 48 1)) 0x300 pRin (fun p => p.op == 48)),
      (by decide +kernel), (by decide +kernel), rfl⟩,
    ⟨(unitWaits 0x300 pRin 0 (contrib 49 1)), 0, (contrib 49 1), (inTaken (unitWaits 0x300 pRin 0 (contrib 49 1)) 0x300 pRin (fun p => p.op == 49)),
      (by decide +kernel), (by decide +kernel), rfl⟩,
    ⟨(unitWaits 0x300 pRin 0 (contrib 50 1)), 0, (contrib 50 1), (inTaken (unitWaits 0x300 pRin 0 (contrib 50 1)) 0x300 pRin (fun p => p.op == 50)),
      (by decide +kernel), (by decide +kernel), rfl⟩,
    ⟨({ open1 with fc := 2 ^ 40 }), 0, 0, rctx1, (by decide +kernel), (by decide +kernel), (by decide +kernel), (by decide +kernel),
      (by decide +kernel)⟩,
    ⟨(waits (uSt 3) result1 (folding fold1)), 3, result1, (taken (waits (uSt 3) result1 (folding fold1)) (uSt 3) (fun x => x.op == 0x33)),
      (foldKey 3 0), fold1, (by decide +kernel), rfl, (by decide +kernel), (by decide +kernel), (by decide +kernel)⟩,
    ⟨(waits (uSt 3) result1 { folding fold1 with ctxFence := [(5, true)] }), 3, result1,
      (taken (waits (uSt 3) result1 { folding fold1 with ctxFence := [(5, true)] }) (uSt 3) (fun x => x.op == 0x33)), (by decide +kernel), rfl,
      (by decide +kernel)⟩,
    ⟨({ folding fold1 with fc := 2 ^ 24 }), 3, 0, fold1, (by decide +kernel), (by decide +kernel), (by decide +kernel), (by decide +kernel)⟩,
    ⟨({ folding ({ fold1 with entry := some 2, count := 1 }) (logged (entry countDesc 2)) with col.open_ := [(logKey 3 2, coll1 false)] }), 3, 2,
      (coll1 false), ({ fold1 with entry := some 2, count := 1 }), (by decide +kernel), (by decide +kernel), (by decide +kernel),
      (by decide +kernel), (by decide +kernel), (by decide +kernel), (by decide +kernel)⟩,
    ⟨({ folding ({ fold1 with entry := some 2, count := 1, mm := true }) (logged (entry countDesc 2)) with col.open_ := [(logKey 3 2, coll1 false)] }),
      3, 2, (coll1 false), ({ fold1 with entry := some 2, count := 1, mm := true }), (by decide +kernel), (by decide +kernel), (by decide +kernel),
      (by decide +kernel), (by decide +kernel), (by decide +kernel), (by decide +kernel)⟩,
    ⟨({ folding ({ fold1 with entry := some 2, count := 0 }) (logged (entry countDesc 2)) with col.open_ := [(logKey 3 2, coll1 false)] }), 3, 2,
      (coll1 false), ({ fold1 with entry := some 2, count := 0 }), (by decide +kernel), (by decide +kernel), (by decide +kernel),
      (by decide +kernel), (by decide +kernel), (by decide +kernel)⟩,
    ⟨({ logged (entry collDesc 2) with col.open_ := [(logKey 3 2, coll1 true)] }), 3, 2, (coll1 true), (by decide +kernel), (by decide +kernel),
      (by decide +kernel), (by decide +kernel)⟩,
    ⟨(logged (entry countDesc) member3), 3, 2, (entry countDesc), group0, 0, 10, 0, (by decide +kernel), (by decide +kernel), (by decide +kernel),
      (by decide +kernel), (by decide +kernel), (by decide +kernel), (by decide +kernel), (by decide +kernel), (by decide +kernel),
      (by decide +kernel), (by decide +kernel), (by decide +kernel), (by decide +kernel), (by decide +kernel), (by decide +kernel),
      (by decide +kernel)⟩,
    ⟨(logged (entry collDesc) member3), 3, 2, (entry collDesc), group0, 4, (by decide +kernel), (by decide +kernel), (by decide +kernel),
      (by decide +kernel), (by decide +kernel), (by decide +kernel), (by decide +kernel), (by decide +kernel), (by decide +kernel),
      (by decide +kernel), (by decide +kernel), (by decide +kernel), (by decide +kernel), (by decide +kernel), (by decide +kernel),
      (by decide +kernel), (by decide +kernel), (by decide +kernel), (by decide +kernel), (by decide +kernel), (by decide +kernel),
      (by decide +kernel), (by decide +kernel), (by decide +kernel)⟩,
    ⟨(logged (entry (desc 7 [(32, 1, 1), (34, 1, 8), (36, 4, 16), (42, 1, 10), (48, 4, 0xFFFFFF)])) member3), 3, 2, (entry (desc 7 [(32, 1, 1), (34,
      1, 8), (36, 4, 16), (42, 1, 10), (48, 4, 0xFFFFFF)])), group0, 0, 8, false, 16, 0, 0, 0, 64, (signature 0 8 0 5 77 16 0), (by decide +kernel),
      (by decide +kernel), (by decide +kernel), (by decide +kernel), (by decide +kernel), (by decide +kernel), (by decide +kernel),
      (by decide +kernel), (by decide +kernel), (by decide +kernel), (by decide +kernel), (by decide +kernel), (by decide +kernel),
      (by decide +kernel), (by decide +kernel), (by decide +kernel), (by decide +kernel), (by decide +kernel), (by decide +kernel),
      (by decide +kernel), (by decide +kernel), (by decide +kernel), (by decide +kernel), (by decide +kernel), (by decide +kernel),
      (by decide +kernel), (by decide +kernel), (by decide +kernel), (by decide +kernel), (by decide +kernel), (by decide +kernel),
      (by decide +kernel)⟩⟩

theorem wit_ReductionsJoin :
    (∃ (s : State) (t : Nat) (p : Packet), rxLsize p ≤ rxCount p ∧
      Tbl.findBy (fun _ c => c.pkt.ctx == p.ctx && rxKey c.pkt == rxKey p && rxSeq c.pkt == rxSeq p) (s.col.rctx.filter (fun e => e.1 / 512 == t)) = none ∧
      (s.col.rctx.filter (fun e => e.1 / 512 == t)).length < 512)
    ∧ (∃ (s : State) (t : Nat) (p : Packet) (key : Nat) (c : RCtx),
      Tbl.findBy (fun _ c => c.pkt.ctx == p.ctx && rxKey c.pkt == rxKey p && rxSeq c.pkt == rxSeq p) (s.col.rctx.filter (fun e => e.1 / 512 == t)) = some (key,
      c) ∧ rxSig p = rxSig c.pkt ∧ rxSig p ≠ sigMARK ∧ c.count + rxCount p < rxLsize c.pkt)
    ∧ (∃ (s : State) (t : Nat) (p : Packet),
      Tbl.findBy (fun _ c => c.pkt.ctx == p.ctx && rxKey c.pkt == rxKey p && rxSeq c.pkt == rxSeq p) (s.col.rctx.filter (fun e => e.1 / 512 == t)) = none ∧
      512 ≤ (s.col.rctx.filter (fun e => e.1 / 512 == t)).length) :=
  ⟨⟨(State.reset), 0, (contrib 0x30 1), (by decide +kernel), (by decide +kernel), (by decide +kernel)⟩,
    ⟨open1, 0, (contrib 0x30 2), 0, rctx1, (by decide +kernel), (by decide +kernel), (by decide +kernel), (by decide +kernel)⟩,
    ⟨fullUnit, 0, (contrib 0x30 1), (by decide +kernel), (by decide +kernel)⟩⟩

theorem wit_PoolsAct :
    (∃ (s : State) (st : Nat) (e : Nat) (l : LogEnt) (i : Nat), s.inReset = false ∧ s.mayStart st e 6 = some l ∧
      (List.range 64).find? (fun i => (s.bagAt st i).isNone) = some i)
    ∧ (∃ (s : State) (st : Nat) (e : Nat) (l : LogEnt) (i : Nat) (bag : Bag), s.inReset = false ∧ s.logAt st e = some l ∧ s.bagOf st e = some (i,
      bag) ∧ bag.sent = false ∧ bits (le l.desc 34 2) 0 9 = 0)
    ∧ (∃ (s : State) (st : Nat) (e : Nat) (l : LogEnt) (i : Nat) (bag : Bag) (row : BagRow), s.inReset = false ∧ s.logAt st e = some l ∧
      s.bagOf st e = some (i, bag) ∧ bag.sent = false ∧ s.bagAt st i = some bag ∧ bits (le l.desc 34 2) 0 9 = 1 ∧ bits (le l.desc 34 2) 9 7 = 0 ∧
      le l.desc 32 1 = 0 ∧ bits (le l.desc 36 1) 5 3 = 0 ∧ le l.desc 37 3 = 0 ∧ le l.desc 48 16 = 0 ∧ 10 ≤ bits (le l.desc 36 1) 0 5 ∧
      bits (le l.desc 36 1) 0 5 ≤ 30 ∧ le l.desc 40 4 % 64 = 0 ∧ le l.desc 44 4 % 64 = 0 ∧ row = bagRow (s.w0.sramRead st (le l.desc 40 4) 16) ∧
      row.clean = true ∧
      row.row < s.rd (stnB st) KSTN_PTAB_ROWS_LO.trows_lo row.table + s.rd (stnB st) KSTN_PTAB_ROWS_HI.trows_hi row.table * 2 ^ 32 ∧
      1 ≤ le l.desc 33 1 ∧ le l.desc 33 1 ≤ 3 ∧
      outLen (s.rd (stnB st) KSTN_PTAB_CFG.rlines row.table) (s.rd (stnB st) KSTN_PTAB_CFG.dtype row.table) (le l.desc 33 1) ≤ 4096 ∧
      s.rd (stnB st) KSTN_PTAB_CFG.tvalid row.table ≠ 0 ∧ s.entryBad (.pool st row.table) = false ∧ s.owns 7 st row.table l.lctx = true ∧
      s.winOk st l.lctx true (le l.desc 40 4) 16 true false false = true ∧
      s.winOk st l.lctx true (le l.desc 44 4) (outLen (s.rd (stnB st) KSTN_PTAB_CFG.rlines row.table) (s.rd (stnB st) KSTN_PTAB_CFG.dtype row.table) (le l.desc 33 1)) false true false = true ∧
      s.ctxFencedAt st l.lctx = false ∧ s.fencedAll st = false)
    ∧ (∃ (s : State) (st : Nat) (p : Packet) (w : W), s.inReset = false ∧ s.w0.takeAny (uSt st) (fun x => x.op == 0x41 && s.partRoom st x) = some (p,
      w))
    ∧ (∃ (s : State) (st : Nat) (i : Nat) (b : Bag), s.inReset = false ∧ s.bagAt st i = some b ∧ b.sent = true ∧ b.t0 ≤ s.fc ∧ b.merge = true)
    ∧ (∃ (s : State) (st : Nat) (i : Nat) (b : Bag), s.inReset = false ∧ s.bagAt st i = some b ∧ b.sent = true ∧ b.t0 ≤ s.fc ∧ b.merge = false ∧
      s.w0.takeAny (uSt st) (fun p => p.op == 0x41 && pxSlot p == i) = none)
    ∧ (∃ (s : State) (region : Nat) (p : Packet) (inp : Nat) (w : W), s.inReset = false ∧ s.w0.takeBuf (uRR region) pPin 9 (fun _ => true) = some (p,
      inp, w))
    ∧ (∃ (s : State) (u : Nat) (key : Nat) (c : PoolCtx), s.inReset = false ∧ isRouter u = false ∧ s.col.pool.find (poolKey u key) = some c ∧
      c.t0 + 2 ^ s.rd (unitB u) KMSP_POOL_CFG.plinger_log2 ≤ s.fc)
    ∧ (∃ (s : State) (region : Nat) (key : Nat) (c : PoolCtx), s.inReset = false ∧ region < 192 ∧
      s.col.pool.find (poolKey (uRR region) key) = some c ∧ c.t0 + 2 ^ s.rd (rtrB (uRR region)) KRTR_POOL_CFG.plinger_log2 ≤ s.fc ∧
      s.w0.takeBuf (uRR region) pPin 9 (fun p => samePool p c.pkt) = none)
    ∧ (∃ (s : State) (port : Nat) (p : Packet), s.inReset = false ∧ s.nextReq port 0x40 = some p ∧ s.poolForm port p = true ∧
      mgmtPass p.src p.ctx = false ∧ (∃ i ∈ maskSegs (pxMask p),
      s.mwinOk (port / 2) p.ctx (p.addr + 256 * i) (segLen (pxRl p) i) true false false = false))
    ∧ (∃ (s : State) (port : Nat) (p : Packet), s.inReset = false ∧ s.nextReq port 0x40 = some p ∧ s.poolForm port p = false)
    ∧ (∃ (s : State) (port : Nat) (p : Packet), s.inReset = false ∧ s.nextReq port 0x40 = some p ∧ s.poolForm port p = true ∧
      s.pkgFenced (uMsp port) p.ctx = false ∧ (∀ i ∈ maskSegs (pxMask p),
      s.mwinOk (port / 2) p.ctx (p.addr + 256 * i) (segLen (pxRl p) i) true false false = true ∧
      s.lineBusy (port / 2) (loff p.addr + 256 * i) (segLen (pxRl p) i) = false ∧ ∀ l ∈ linesOf (loff p.addr + 256 * i) (segLen (pxRl p) i),
      s.dirFind (port / 2) l = none))
    ∧ (∃ (s : State) (port : Nat) (tag : Nat) (o : MemOp) (p : Packet) (unc : Nat), s.inReset = false ∧
      s.msp.opens.find (port * 1024 + tag) = some o ∧ o.we = false ∧ o.act = .read p ∧ p.pois = 0 ∧ o.lines = 1 ∧ unc = 0 ∧
      s.w0.memPois (o.loff / 64 * 64) = false)
    ∧ (∃ (s : State) (port : Nat) (tag : Nat) (o : MemOp) (p : Packet) (st : Nat), s.inReset = false ∧
      s.msp.opens.find (port * 1024 + tag) = some o ∧ o.we = false ∧ o.act = .grant p st ∧ p.pois = 0 ∧ o.lines = 1 ∧
      s.w0.memPois (o.loff / 64 * 64) = false)
    ∧ (∃ (s : State) (tine : Nat) (p : Packet) (inp : Nat) (w : W), s.inReset = false ∧
      s.w0.takeBuf (uTine tine) pMin 9 (fun p => p.op == 0x42) = some (p, inp, w))
    ∧ (∃ (s : State) (tine : Nat) (key : Nat) (e : MrgEnt), s.inReset = false ∧ s.col.mrg.find (mrgKey tine key) = some e ∧ e.wait = false ∧
      e.t0 + 2 ^ s.rd (rtrB (uTine tine)) KRTR_MRG_CFG.mwin_log2 ≤ s.fc ∧
      s.w0.takeBuf (uTine tine) pMin 9 (fun p => p.op == 0x42 && p.ctx == e.first.ctx && p.addr == e.first.addr) = none)
    ∧ (∃ (s : State) (tine : Nat) (p : Packet) (inp : Nat) (w : W) (key : Nat) (e : MrgEnt), s.inReset = false ∧
      s.w0.takeBuf (uTine tine) pMin 3 (fun p => p.op == 0x60) = some (p, inp, w) ∧
      Tbl.findBy (fun k e => k / 512 == tine && e.wait && e.first.src == p.dst && e.first.tag == p.tag && e.first.ctx == p.ctx) w.col.mrg = some (key,
      e))
    ∧ (∃ (s : State) (port : Nat) (p : Packet), s.inReset = false ∧ s.nextReq port 0x42 = some p ∧ s.mergeForm port p = false)
    ∧ (∃ (s : State) (port : Nat) (p : Packet), s.inReset = false ∧ s.nextReq port 0x42 = some p ∧ s.mergeForm port p = true ∧ mxMask p = 1 ∧
      s.pkgFenced (uMsp port) p.ctx = false ∧ s.mwinOk (port / 2) p.ctx p.addr (segLen (mxRl p) 0) false true false = true ∧ s.inFault = false ∧
      p.bad = false ∧ p.data.length = p.len ∧ (∀ l ∈ linesOf (loff p.addr) (segLen (mxRl p) 0), s.dirFind (port / 2) l = none)) :=
  ⟨⟨(logged (entry (bagDesc 1))), 3, 2, (entry (bagDesc 1)), 0, (by decide +kernel), (by decide +kernel), (by decide +kernel)⟩,
    ⟨(bagState 0), 3, 2, (entry (bagDesc 0) 2), 0, bag0, (by decide +kernel), (by decide +kernel), (by decide +kernel), (by decide +kernel),
      (by decide +kernel)⟩,
    ⟨(bagState 1), 3, 2, (entry (bagDesc 1) 2), 0, bag0, (⟨0, 0, 0, true⟩), (by decide +kernel), (by decide +kernel), (by decide +kernel),
      (by decide +kernel), (by decide +kernel), (by decide +kernel), (by decide +kernel), (by decide +kernel), (by decide +kernel),
      (by decide +kernel), (by decide +kernel), (by decide +kernel), (by decide +kernel), (by decide +kernel), (by decide +kernel),
      (by decide +kernel), (by decide +kernel), (by decide +kernel), (by decide +kernel), (by decide +kernel), (by decide +kernel),
      (by decide +kernel), (by decide +kernel), (by decide +kernel), (by decide +kernel), (by decide +kernel), (by decide +kernel),
      (by decide +kernel)⟩,
    ⟨(waits (uSt 3) ({ vc := 9, op := 0x41 }) (bagState 1)), 3, ({ vc := 9, op := 0x41 }),
      (taken (waits (uSt 3) ({ vc := 9, op := 0x41 }) (bagState 1)) (uSt 3) (fun x => x.op == 0x41 && (waits (uSt 3) ({ vc := 9, op := 0x41 }) (bagState 1)).partRoom 3 x)),
      (by decide +kernel), rfl⟩,
    ⟨({ bagState 1 with col.bag := [(bagKey 3 0, sentBag)] }), 3, 0, sentBag, (by decide +kernel), (by decide +kernel), (by decide +kernel),
      (by decide +kernel), (by decide +kernel)⟩,
    ⟨({ bagState 1 with col.bag := [(bagKey 3 0, { sentBag with merge := false })] }), 3, 0, ({ sentBag with merge := false }), (by decide +kernel),
      (by decide +kernel), (by decide +kernel), (by decide +kernel), (by decide +kernel), (by decide +kernel)⟩,
    ⟨(unitWaits (uRR 0) pPin 9 ({ vc := 9, op := 0x41 })), 0, ({ vc := 9, op := 0x41 }), 0,
      (bufTaken (unitWaits (uRR 0) pPin 9 ({ vc := 9, op := 0x41 })) (uRR 0) pPin 9 (fun _ => true)), (by decide +kernel), rfl⟩,
    ⟨({ State.reset with col.pool := [(poolKey 0x2000 0, pctx0)], fc := 2 ^ 40 }), 0x2000, 0, pctx0, (by decide +kernel), (by decide +kernel),
      (by decide +kernel), (by decide +kernel)⟩,
    ⟨({ State.reset with col.pool := [(poolKey (uRR 0) 0, pctx0)], fc := 2 ^ 40 }), 0, 0, pctx0, (by decide +kernel), (by decide +kernel),
      (by decide +kernel), (by decide +kernel), (by decide +kernel)⟩,
    ⟨(intake poolPkt), 0, poolPkt, (by decide +kernel), (by decide +kernel), (by decide +kernel), (by decide +kernel), (by decide +kernel)⟩,
    ⟨(intake ({ poolPkt with ext := [] })), 0, ({ poolPkt with ext := [] }), (by decide +kernel), (by decide +kernel), (by decide +kernel)⟩,
    ⟨(intake poolPkt memOpen), 0, poolPkt, (by decide +kernel), (by decide +kernel), (by decide +kernel), (by decide +kernel), (by decide +kernel)⟩,
    ⟨({ State.reset with msp.opens := [(9, { we := false, loff := 0, lines := 1, act := .read mRead })] }), 0, 9,
      ({ we := false, loff := 0, lines := 1, act := .read mRead }), mRead, 0, (by decide +kernel), (by decide +kernel), (by decide +kernel),
      (by decide +kernel), (by decide +kernel), (by decide +kernel), (by decide +kernel), (by decide +kernel)⟩,
    ⟨({ State.reset with msp.opens := [(9, { we := false, loff := 0, lines := 1, act := .grant mRead 1 })] }), 0, 9,
      ({ we := false, loff := 0, lines := 1, act := .grant mRead 1 }), mRead, 1, (by decide +kernel), (by decide +kernel), (by decide +kernel),
      (by decide +kernel), (by decide +kernel), (by decide +kernel), (by decide +kernel)⟩,
    ⟨(unitWaits 0x300 pMin 9 (mergePkt 9)), 0, (mergePkt 9), 0,
      (bufTaken (unitWaits 0x300 pMin 9 (mergePkt 9)) 0x300 pMin 9 (fun p => p.op == 0x42)), (by decide +kernel), rfl⟩,
    ⟨({ State.reset with col.mrg := [(mrgKey 0 0, mrg0 false)], fc := 2 ^ 40 }), 0, 0, (mrg0 false), (by decide +kernel), (by decide +kernel),
      (by decide +kernel), (by decide +kernel), (by decide +kernel)⟩,
    ⟨(unitWaits 0x300 pMin 3 mergeCmp { State.reset with col.mrg := [(mrgKey 0 0, mrg0 true)] }), 0, mergeCmp, 0,
      (bufTaken (unitWaits 0x300 pMin 3 mergeCmp { State.reset with col.mrg := [(mrgKey 0 0, mrg0 true)] }) 0x300 pMin 3 (fun p => p.op == 0x60)), 0,
      (mrg0 true), (by decide +kernel), rfl, (by decide +kernel)⟩,
    ⟨(intake ({ mergePkt 1 with ext := [] })), 0, ({ mergePkt 1 with ext := [] }), (by decide +kernel), (by decide +kernel), (by decide +kernel)⟩,
    ⟨(intake (mergePkt 1) memOpen), 0, (mergePkt 1), (by decide +kernel), (by decide +kernel), (by decide +kernel), (by decide +kernel),
      (by decide +kernel), (by decide +kernel), (by decide +kernel), (by decide +kernel), (by decide +kernel), (by decide +kernel)⟩⟩

theorem wit_LanesLock :
    (∃ (s : State) (e : Nat) (lane : Nat), s.inReset = false ∧ e < 64 ∧ 4 ≤ (s.epS e).good ∧ (s.epS e).oeReady = true ∧
      s.rd (epB e) KEDG_STAT.lane_lock ≠ 1)
    ∧ (∃ (s : State) (e : Nat) (lane : Nat), s.inReset = false ∧ e < 64 ∧ lane < 5 ∧
      ((s.epS e).good < 4 ∨ (s.epS e).oeReady = false ∨ s.rd (epB e) KEDG_STAT.lane_lock = 1))
    ∧ (∃ (s : State) (e : Nat) (lane : Nat), s.inReset = false ∧ 5 ≤ lane ∧ 4 ≤ (s.epS e).badN ∧ s.rd (epB e) KEDG_STAT.lane_lock ≠ 0)
    ∧ (∃ (s : State) (e : Nat) (lane : Nat), s.inReset = false ∧ 5 ≤ lane ∧ ((s.epS e).badN < 4 ∨ s.rd (epB e) KEDG_STAT.lane_lock = 0))
    ∧ (∃ (s : State) (e : Nat) (lane : Nat), s.inReset = false ∧ e < 64 ∧ lane < 5 ∧ (s.lanesUsed e).contains lane = false)
    ∧ (∃ (s : State) (e : Nat) (lane : Nat), s.inReset = false ∧ e < 64 ∧ lane < 5 ∧ (s.lanesUsed e).contains lane = true)
    ∧ (∃ (s : State) (e : Nat), s.rd (epB e) KEDG_STAT.lane_lock ≠ 0)
    ∧ (∃ (s : State) (e : Nat), s.inReset = false)
    ∧ (∃ (s : State) (e : Nat), s.inReset = false ∧ s.rd (epB e) KEDG_STAT.lane_lock = 0)
    ∧ (∃ (s : State) (e : Nat), s.inReset = false)
    ∧ (∃ (s : State) (e : Nat) (rx : List (List (List Nat))) (blk : RxBlock), s.inReset = false ∧
      blk = decodeBlock (rxSyms (s.rd (epB e) KEDG_LANE.spare_on == 1) (s.rd (epB e) KEDG_LANE.spare_lane) rx) ∧ le blk.hdr 0 6 ≠ 0x9E2B71C4D5A8)
    ∧ (∃ (s : State) (e : Nat) (rx : List (List (List Nat))) (blk : RxBlock), s.inReset = false ∧ e < 64 ∧
      blk = decodeBlock (rxSyms (s.rd (epB e) KEDG_LANE.spare_on == 1) (s.rd (epB e) KEDG_LANE.spare_lane) rx) ∧ le blk.hdr 0 6 = 0x9E2B71C4D5A8)
    ∧ (∃ (s : State) (e : Nat) (rx : List (List (List Nat))) (on : Bool) (sl : Nat) (blk : RxBlock), s.inReset = false ∧
      on = (s.rd (epB e) KEDG_LANE.spare_on == 1) ∧ sl = s.rd (epB e) KEDG_LANE.spare_lane ∧ blk = decodeBlock (rxSyms on sl rx))
    ∧ (∃ (s : State) (e : Nat) (n : Nat) (m : Nat), e < 64) :=
  ⟨⟨(epWith { good := 4, oeReady := true }), 2, 5, (by decide +kernel), (by decide +kernel), (by decide +kernel), (by decide +kernel),
      (by decide +kernel)⟩,
    ⟨lockedEp, 2, 4, (by decide +kernel), (by decide +kernel), (by decide +kernel), (by decide +kernel)⟩,
    ⟨(lockedEp { badN := 4 }), 2, 5, (by decide +kernel), (by decide +kernel), (by decide +kernel), (by decide +kernel)⟩,
    ⟨lockedEp, 2, 5, (by decide +kernel), (by decide +kernel), (by decide +kernel)⟩,
    ⟨lockedEp, 2, 4, (by decide +kernel), (by decide +kernel), (by decide +kernel), (by decide +kernel)⟩,
    ⟨lockedEp, 2, 3, (by decide +kernel), (by decide +kernel), (by decide +kernel), (by decide +kernel)⟩,
    ⟨(lockedEp { good := 4, badN := 4, conns := [(7, conn7)], replay := [eframe], rxFr := [rxFrame []] }), 2, (by decide +kernel)⟩,
    ⟨(State.reset), 2, (by decide +kernel)⟩,
    ⟨(epWith { oeReady := true, txEn := 15 }), 2, (by decide +kernel), (by decide +kernel)⟩,
    ⟨(lockedEp { oeReady := true, txEn := 15 }), 2, (by decide +kernel)⟩,
    ⟨(lockedEp { good := 2 }), 2, ([]), (decodeBlock (rxSyms false 0 [])), (by decide +kernel), rfl, (by decide +kernel)⟩,
    ⟨(lockedEp { badN := 2 }), 2, syncRx, (decodeBlock (rxSyms false 0 syncRx)), (by decide +kernel), (by decide +kernel), rfl, (by decide +kernel)⟩,
    ⟨lockedEp, 2, ([]), false, 0, (decodeBlock (rxSyms false 0 [])), (by decide +kernel), (by decide +kernel), (by decide +kernel), rfl⟩,
    ⟨(State.reset), 2, 1, 2, (by decide +kernel)⟩⟩

theorem wit_FramesAct :
    (∃ (s : State) (e : Nat), s.inReset = false ∧ ((s.epS e).oeReady = false ∨ (s.epS e).txEn = 0))
    ∧ (∃ (s : State) (e : Nat), s.inReset = false ∧ (s.epS e).oeReady = true ∧ (s.epS e).txEn ≠ 0 ∧ s.edgeFault = true)
    ∧ (∃ (s : State) (e : Nat) (n : Nat) (mlk : Bool) (hops : Nat), s.inReset = false ∧ (s.epS e).oeReady = true ∧ (s.epS e).txEn ≠ 0 ∧
      s.edgeFault = false ∧ n = s.herdTime / 2 ^ s.rd (epB e) KEDG_TIME_CFG.tw_log2 ∧ n ≠ (s.epS e).timeFc ∧
      mlk = (s.rd hrdB KHRD_STATUS.state == 2 && s.rd hrdB KHRD_STATUS.free_run == 0) ∧
      hops = (if mlk then min 255 (s.rd (epB (s.rd hrdB KHRD_STATUS.ref_port)) KEDG_TIME_STAT.thops + 1) else 255))
    ∧ (∃ (s : State) (e : Nat) (c : CwEnt), s.inReset = false ∧ (s.epS e).oeReady = true ∧ (s.epS e).txEn ≠ 0 ∧ s.edgeFault = false ∧
      s.edgeHold = false ∧ s.herdTime / 2 ^ s.rd (epB e) KEDG_TIME_CFG.tw_log2 = (s.epS e).timeFc ∧ (s.epS e).cwPhase = 2 ∧
      (s.epS e).cw.find (s.rd (epB e) KEDG_CW_STAT.cw_next) = some c ∧ c.tOpen + 8 ≤ s.herdTime ∧ s.herdTime + 8 < c.tClose ∧ (s.epS e).txq ≠ [] ∧
      s.rd hrdB KHRD_STATUS.state = 2 ∧ s.rd hrdB KHRD_STATUS.free_run = 0)
    ∧ (∃ (s : State) (e : Nat) (f : EFrame) (rest : List EFrame), s.inReset = false ∧ (s.epS e).oeReady = true ∧ (s.epS e).txEn ≠ 0 ∧
      s.herdTime / 2 ^ s.rd (epB e) KEDG_TIME_CFG.tw_log2 = (s.epS e).timeFc ∧ s.seqOk e = true ∧ (s.epS e).resend = f :: rest)
    ∧ (∃ (s : State) (e : Nat) (a : Arb) (vc : Nat), s.inReset = false ∧ (s.epS e).oeReady = true ∧ (s.epS e).txEn ≠ 0 ∧
      s.herdTime / 2 ^ s.rd (epB e) KEDG_TIME_CFG.tw_log2 = (s.epS e).timeFc ∧ s.seqOk e = true ∧ (s.epS e).resend = [] ∧ a = s.arb (uEp e) 1 0 ∧ [0,
      1, 2, 3, 4, 6, 7, 8,
      9].find? (fun vc => bit (s.rdOld (epB e) KRTR_QUOTA.hp_mask) vc && s.fragOk e vc && !s.qMasked (epB e) a 0 vc s.herdTime) = some vc)
    ∧ (∃ (s : State) (e : Nat) (a : Arb), s.inReset = false ∧ (s.epS e).oeReady = true ∧ (s.epS e).txEn ≠ 0 ∧
      s.herdTime / 2 ^ s.rd (epB e) KEDG_TIME_CFG.tw_log2 = (s.epS e).timeFc ∧ s.seqOk e = true ∧ (s.epS e).resend = [] ∧ a = s.arb (uEp e) 1 0 ∧ [0,
      1, 2, 3, 4, 6, 7, 8,
      9].find? (fun vc => bit (s.rdOld (epB e) KRTR_QUOTA.hp_mask) vc && s.fragOk e vc && !s.qMasked (epB e) a 0 vc s.herdTime) = none ∧
      s.fragOk e 10 = true)
    ∧ (∃ (s : State) (e : Nat) (vc : Nat) (o : EOut) (l : List EOut) (body : List Byte), (s.epS e).eq.find vc = some (o :: l) ∧
      body = (o.bytes.drop o.sent).take 240)
    ∧ (∃ (s : State) (e : Nat), s.inReset = false ∧ s.nextFrame e (fun f => !(f.good && (f.type == 3 || f.type == 4))) = none)
    ∧ (∃ (s : State) (e : Nat) (f : RxFrame), s.inReset = false ∧ s.nextFrame e (fun f => !(f.good && (f.type == 3 || f.type == 4))) = some f ∧
      (f.good = false ∨ 5 < f.type))
    ∧ (∃ (s : State) (e : Nat) (f : RxFrame), s.inReset = false ∧ s.nextFrame e (fun f => !(f.good && (f.type == 3 || f.type == 4))) = some f ∧
      f.good = true ∧ f.type = 0)
    ∧ (∃ (s : State) (e : Nat) (f : RxFrame), s.inReset = false ∧ s.nextFrame e (fun f => !(f.good && (f.type == 3 || f.type == 4))) = some f ∧
      f.good = true ∧ (f.type = 1 ∨ f.type = 2 ∨ f.type = 5) ∧ bits (le f.bytes 4 2) 0 12 = ((s.epS e).rxSeq + 1) % 4096)
    ∧ (∃ (s : State) (e : Nat) (f : RxFrame), s.inReset = false ∧ s.nextFrame e (fun f => !(f.good && (f.type == 3 || f.type == 4))) = some f ∧
      f.good = true ∧ (f.type = 1 ∨ f.type = 2 ∨ f.type = 5) ∧ bits (le f.bytes 4 2) 0 12 ≠ ((s.epS e).rxSeq + 1) % 4096)
    ∧ (∃ (s : State) (e : Nat) (f : List Byte) (vc : Nat) (old : List Byte) (n : Nat), vc = bits (le f 1 1) 0 4 ∧ bit (le f 0 1) 5 = true ∧
      (bit (le f 0 1) 4 = true ∧ old = [] ∧ n = 0 ∨ bit (le f 0 1) 4 = false ∧ (s.epS e).asm_.find vc = some (old, n)))
    ∧ (∃ (s : State) (e : Nat) (f : List Byte) (vc : Nat), vc = bits (le f 1 1) 0 4 ∧ bit (le f 0 1) 5 = false ∧ bit (le f 0 1) 4 = true ∧
      (s.epS e).heldFrames vc < 31 ∧ (s.epS e).asm_.find vc = none)
    ∧ (∃ (s : State) (e : Nat) (f : List Byte), bit (le f 6 2) 12 = false)
    ∧ (∃ (s : State) (e : Nat) (f : List Byte), bit (le f 6 2) 12 = true ∧ bit (le f 6 2) 13 = false ∧ (s.epS e).replay ≠ [])
    ∧ (∃ (s : State) (e : Nat) (x : RxFrame), s.inReset = false ∧ s.nextFrame e (fun f => f.good && f.type == 4) = some x ∧ (s.epS e).cwBad = false ∧
      (s.epS e).cwPhase = 2 ∧ (s.epS e).rxq.length + min 3 (le x.bytes 2 1 / 76) ≤ 1024)
    ∧ (∃ (s : State) (e : Nat) (x : RxFrame), s.inReset = false ∧ s.nextFrame e (fun f => f.good && f.type == 4) = some x ∧
      ((s.epS e).cwBad = true ∨ (s.epS e).cwPhase ≠ 2)) :=
  ⟨⟨(State.reset), 2, (by decide +kernel), (by decide +kernel)⟩,
    ⟨(epWith { oeReady := true, txEn := 15 } (regs [(fltB, KFLT_STATE.fstate, 1, 0)])), 2, (by decide +kernel), (by decide +kernel),
      (by decide +kernel), (by decide +kernel)⟩,
    ⟨({ epWith { oeReady := true, txEn := 15 } with herdTime := 2 ^ 40 }), 2, (2 ^ 40 / 2 ^ (State.reset.rd (epB 2) KEDG_TIME_CFG.tw_log2)), false,
      255, (by decide +kernel), (by decide +kernel), (by decide +kernel), (by decide +kernel), (by decide +kernel), (by decide +kernel),
      (by decide +kernel), (by decide +kernel)⟩,
    ⟨({ lockedEp { oeReady := true, txEn := 15, cwPhase := 2, cw := [(4, { cw1 with tClose := 1000 })], txq := [{ stag := 5, data := List.replicate 64 1 }] } [(epB 2, KEDG_CW_STAT.cw_next, 4, 0), (hrdB, KHRD_STATUS.state, 2, 0)] with herdTime := 100 }),
      2, ({ cw1 with tClose := 1000 }), (by decide +kernel), (by decide +kernel), (by decide +kernel), (by decide +kernel), (by decide +kernel),
      (by decide +kernel), (by decide +kernel), (by decide +kernel), (by decide +kernel), (by decide +kernel), (by decide +kernel),
      (by decide +kernel), (by decide +kernel)⟩,
    ⟨(lockedEp { oeReady := true, txEn := 15, resend := [eframe] } shapes), 2, eframe, ([]), (by decide +kernel), (by decide +kernel),
      (by decide +kernel), (by decide +kernel), (by decide +kernel), (by decide +kernel)⟩,
    ⟨(lockedEp { oeReady := true, txEn := 15, cred := [(0, 3)], eq := [(0, [{ eout with vc := 0 }])] } (shapes ++ [(epB 2, KRTR_QUOTA.hp_mask, 1,
      0)])), 2, ((lockedEp { oeReady := true, txEn := 15, cred := [(0, 3)], eq := [(0, [{ eout with vc := 0 }])] } (shapes ++ [(epB 2,
      KRTR_QUOTA.hp_mask, 1, 0)])).arb (uEp 2) 1 0), 0, (by decide +kernel), (by decide +kernel), (by decide +kernel), (by decide +kernel),
      (by decide +kernel), (by decide +kernel), (by decide +kernel), rfl⟩,
    ⟨(lockedEp { oeReady := true, txEn := 15, cred := [(10, 3)], eq := [(10, [eout])] } shapes), 2,
      ((lockedEp { oeReady := true, txEn := 15, cred := [(10, 3)], eq := [(10, [eout])] } shapes).arb (uEp 2) 1 0), (by decide +kernel),
      (by decide +kernel), (by decide +kernel), (by decide +kernel), (by decide +kernel), (by decide +kernel), (by decide +kernel), rfl,
      (by decide +kernel)⟩,
    ⟨(lockedEp { eq := [(10, [eout])] }), 2, 10, eout, ([]), (List.replicate 56 1), (by decide +kernel), (by decide +kernel)⟩,
    ⟨lockedEp, 2, (by decide +kernel), (by decide +kernel)⟩,
    ⟨(lockedEp { rxFr := [rxFrame [] false] }), 2, (rxFrame [] false), (by decide +kernel), (by decide +kernel), (by decide +kernel)⟩,
    ⟨(rxEp (frameAt 0 0)), 2, (rxFrame (frameAt 0 0)), (by decide +kernel), (by decide +kernel), (by decide +kernel), (by decide +kernel)⟩,
    ⟨(rxEp (frameAt 1 1)), 2, (rxFrame (frameAt 1 1)), (by decide +kernel), (by decide +kernel), (by decide +kernel), (by decide +kernel),
      (by decide +kernel)⟩,
    ⟨(rxEp (frameAt 1 7)), 2, (rxFrame (frameAt 1 7)), (by decide +kernel), (by decide +kernel), (by decide +kernel), (by decide +kernel),
      (by decide +kernel)⟩,
    ⟨lockedEp, 2, (frameAt 1 1), 3, ([]), 0, (by decide +kernel), (by decide +kernel), (by decide +kernel)⟩,
    ⟨lockedEp, 2, (frameBytes 1 3 1 0 true false false false 0 [1, 2, 3]), 3, (by decide +kernel), (by decide +kernel), (by decide +kernel),
      (by decide +kernel), (by decide +kernel)⟩,
    ⟨(lockedEp { replay := [eframe] }), 2, (frameAt 1 1), (by decide +kernel)⟩,
    ⟨(lockedEp { replay := [eframe] }), 2, (frameBytes 1 3 1 0 true false true false 0 [1, 2, 3]), (by decide +kernel), (by decide +kernel),
      (by decide +kernel)⟩,
    ⟨(rxEp (frameAt 4 0 circBody) { cwPhase := 2 }), 2, (rxFrame (frameAt 4 0 circBody)), (by decide +kernel), (by decide +kernel),
      (by decide +kernel), (by decide +kernel), (by decide +kernel)⟩,
    ⟨(rxEp (frameAt 4 0 circBody)), 2, (rxFrame (frameAt 4 0 circBody)), (by decide +kernel), (by decide +kernel), (by decide +kernel)⟩⟩

theorem wit_EdgePacketsAct :
    (∃ (s : State) (e : Nat) (p : Packet) (rest : List Packet) (w : W) (u : W), s.inReset = false ∧ s.edgeWaiting e = p :: rest ∧
      s.w0.takeVc (uEp e) p.vc (fun q => q == p) = some (p, w) ∧ crossOp p.op = true ∧ s.setAside e p = false ∧
      (if shapedVc p.vc then w.takeTokens e p false else w).sendNew e (s.crossDst p).1 (s.crossDst p).2.1 (s.crossDst p).2.2 = some u)
    ∧ (∃ (s : State) (e : Nat) (p : Packet) (rest : List Packet) (w : W), s.inReset = false ∧ s.edgeWaiting e = p :: rest ∧
      s.w0.takeVc (uEp e) p.vc (fun q => q == p) = some (p, w) ∧ crossOp p.op = false)
    ∧ (∃ (s : State) (e : Nat) (p : Packet) (rest : List Packet) (w : W), s.inReset = false ∧ s.edgeWaiting e = p :: rest ∧
      s.w0.takeVc (uEp e) p.vc (fun q => q == p) = some (p, w) ∧ crossOp p.op = true ∧ s.setAside e p = true ∧
      (s.epS e).shaped.foldl (fun n x => n + x.size) 0 + p.size ≤ 256 * 1024)
    ∧ (∃ (s : State) (e : Nat) (p : Packet) (rest : List Packet) (w : W), s.inReset = false ∧ s.edgeWaiting e = p :: rest ∧
      s.w0.takeVc (uEp e) p.vc (fun q => q == p) = some (p, w) ∧ s.w0.edgeGo w e p = none ∧ s.setAside e p = false ∧ (∀ q ∈ rest,
      crossOp q.op = true ∧ (s.crossDst q).1 = (s.crossDst p).1))
    ∧ (∃ (s : State) (e : Nat) (x : Nat × Nat × List Byte), s.inReset = false ∧ (s.epS e).inq.find? (fun x => decide (x.1 < 10)) = some x ∧
      (s.epS e).conns.find (ehdrOf x.2.2).spkg = none ∧ (ehdrOf x.2.2).syn = false)
    ∧ (∃ (s : State) (e : Nat) (x : Nat × Nat × List Byte) (h : EHdr) (p : Packet) (c : Conn) (i : Nat) (q : Proxy), s.inReset = false ∧
      (s.epS e).inq.find? (fun x => decide (x.1 < 10)) = some x ∧ h = ehdrOf x.2.2 ∧ p = crossRead (pktOf (x.2.2.drop 24)) ∧
      (s.epS e).conns.find h.spkg = some c ∧ c.recv = true ∧ c.rinc = h.inc ∧ h.psn = (c.cum + 1) % 2 ^ 24 ∧ c.cum < 2 ^ 24 ∧ c.got = [] ∧
      c.held = [] ∧ p.vc < 10 ∧ s.rateOk e p true = true ∧ s.crossBad h p = false ∧ s.pkgFenced (uEp e) p.ctx = false ∧ h.cpv = false ∧
      proxied p.op = true ∧ crossReply h p = false ∧ (s.epS e).proxies.free 16384 = some i ∧
      q = { spkg := h.spkg, sep := h.sep, src := p.src, tag := p.tag, ack := p.ack, op := p.op, ctx := p.ctx, fc := s.fc, lines := if p.op = 0x20 then msgLines (p.len - 16) else 0 })
    ∧ (∃ (s : State) (e : Nat) (x : Nat × Nat × List Byte) (h : EHdr) (c : Conn), s.inReset = false ∧
      (s.epS e).inq.find? (fun x => decide (x.1 < 10)) = some x ∧ h = ehdrOf x.2.2 ∧ (s.epS e).conns.find h.spkg = some c ∧ c.recv = true ∧
      c.rinc = h.inc ∧ (notEarlier c.cum h.psn 24 = true ∨ c.got.contains h.psn = true))
    ∧ (∃ (s : State) (e : Nat) (x : Nat × Nat × List Byte) (h : EHdr) (c : Conn), s.inReset = false ∧
      (s.epS e).inq.find? (fun x => decide (x.1 < 10)) = some x ∧ h = ehdrOf x.2.2 ∧ (s.epS e).conns.find h.spkg = some c ∧ c.recv = true ∧
      c.rinc ≠ h.inc ∧ h.syn = false)
    ∧ (∃ (s : State) (e : Nat) (x : Nat × Nat × List Byte) (h : EHdr) (c : Conn), s.inReset = false ∧
      (s.epS e).inq.find? (fun x => decide (x.1 < 10)) = some x ∧ h = ehdrOf x.2.2 ∧ (s.epS e).conns.find h.spkg = some c ∧ c.recv = true ∧
      c.rinc = h.inc ∧ notEarlier c.cum h.psn 24 = false ∧ c.got.contains h.psn = false ∧
      (2 ^ 22 < (h.psn + 2 ^ 24 - c.cum) % 2 ^ 24 ∨ 4 < (Conn.ranges { c with got := h.psn :: c.got }).length))
    ∧ (∃ (s : State) (e : Nat) (peer : Nat) (c : Conn) (h : EHdr) (p : Packet), p.vc < 10 ∧ s.rateOk e p true = false)
    ∧ (∃ (s : State) (e : Nat) (peer : Nat) (c : Conn) (h : EHdr) (p : Packet), p.vc < 10 ∧ s.rateOk e p true = true ∧ s.crossBad h p = true)
    ∧ (∃ (s : State) (e : Nat) (peer : Nat) (c : Conn) (h : EHdr) (p : Packet), 10 ≤ p.vc)
    ∧ (∃ (s : State) (e : Nat) (peer : Nat) (c : Conn) (h : EHdr) (p : Packet), p.vc < 10 ∧ s.rateEnt e p.ctx true = none ∧ s.crossBad h p = false ∧
      s.pkgFenced (uEp e) p.ctx = true ∧ proxied p.op = true ∧ crossReply h p = false)
    ∧ (∃ (s : State) (e : Nat) (peer : Nat) (c : Conn) (h : EHdr) (p : Packet), p.vc < 10 ∧ s.rateEnt e p.ctx true = none ∧ s.crossBad h p = false ∧
      p.op = 0x22 ∧ h.cpv = true ∧ c.delivered h.cpred = false ∧ (s.epS e).reordLines + (p.size + 63) / 64 ≤ 4096)
    ∧ (∃ (s : State) (e : Nat) (peer : Nat) (c : Conn) (h : EHdr) (p : Packet), p.vc < 10 ∧ s.rateEnt e p.ctx true = none ∧ s.crossBad h p = false ∧
      proxied p.op = true ∧ crossReply h p = false ∧ s.pkgFenced (uEp e) p.ctx = false ∧ (s.epS e).proxies.free 16384 = none)
    ∧ (∃ (s : State) (e : Nat) (p : Packet) (w : W) (i : Nat) (x : Proxy), s.inReset = false ∧
      s.w0.takeAny (uEp e) (fun p => proxyAns p && !s.staleFirst p) = some (p, w) ∧ p.ref < 2 ^ 19 ∧ w.proxyLive e p.tag = true ∧
      i = p.tag % 2 ^ 14 ∧ (w.epS e).proxies.find i = some x ∧ (x.ack = true ∨ (p.op = 0x60 ∧ p.status ≠ OK) ∨ ([0x01, 0x0C, 0x20,
      0x40].contains x.op = false)))
    ∧ (∃ (s : State) (e : Nat) (p : Packet) (w : W) (i : Nat) (x : Proxy), s.inReset = false ∧
      s.w0.takeAny (uEp e) (fun p => proxyAns p && !s.staleFirst p) = some (p, w) ∧ p.ref < 2 ^ 19 ∧ w.proxyLive e p.tag = true ∧
      i = p.tag % 2 ^ 14 ∧ (w.epS e).proxies.find i = some x ∧ x.ack = false ∧ p.op = 0x60 ∧ p.status = OK ∧ (x.op = 0x01 ∨ x.op = 0x0C))
    ∧ (∃ (s : State) (e : Nat) (p : Packet) (w : W) (i : Nat) (x : Proxy), s.inReset = false ∧
      s.w0.takeAny (uEp e) (fun p => proxyAns p && !s.staleFirst p) = some (p, w) ∧ p.ref < 2 ^ 19 ∧ w.proxyLive e p.tag = true ∧
      i = p.tag % 2 ^ 14 ∧ (w.epS e).proxies.find i = some x ∧ x.ack = false ∧ p.op = 0x60 ∧ p.status = OK ∧ (x.op = 0x20 ∨ x.op = 0x40))
    ∧ (∃ (s : State) (e : Nat) (p : Packet) (w : W), s.inReset = false ∧ s.w0.takeAny (uEp e) (fun p => proxyAns p && !s.staleFirst p) = some (p,
      w) ∧ p.ref < 2 ^ 19 ∧ w.proxyLive e p.tag = false)
    ∧ (∃ (s : State) (e : Nat) (p : Packet) (w : W), s.inReset = false ∧ s.w0.takeAny (uEp e) (fun p => proxyAns p && !s.staleFirst p) = some (p,
      w) ∧ 2 ^ 19 ≤ p.ref)
    ∧ (∃ (s : State) (e : Nat) (i : Nat) (x : Proxy), s.inReset = false ∧ (s.epS e).proxies.find i = some x ∧ x.fc + 2 ^ 22 ≤ s.fc ∧
      s.edgeFault = false ∧ s.answerWaits e (s.proxyTag e i) = false)
    ∧ (∃ (s : State) (e : Nat) (i : Nat), s.inReset = false ∧ (∀ x,
      (s.epS e).proxies.find i = some x → s.fc < x.fc + 2 ^ 22 ∨ s.edgeFault = true ∨ s.answerWaits e (s.proxyTag e i) = true)) :=
  ⟨⟨(epWaits 1 goes), 2, goes, ([]), (goTaken (epWaits 1 goes) goes),
      (orElse (W.sendNew (goTaken (epWaits 1 goes) goes) 2 ((epWaits 1 goes).crossDst goes).1 ((epWaits 1 goes).crossDst goes).2.1 ((epWaits 1 goes).crossDst goes).2.2) (goTaken (epWaits 1 goes) goes)),
      (by decide +kernel), (by decide +kernel), rfl, (by decide +kernel), (by decide +kernel), rfl⟩,
    ⟨(epWaits 1 ({ goes with op := 0x05 })), 2, ({ goes with op := 0x05 }), ([]),
      (goTaken (epWaits 1 ({ goes with op := 0x05 })) ({ goes with op := 0x05 })), (by decide +kernel), (by decide +kernel), rfl, (by decide +kernel)⟩,
    ⟨(epWaits 1 goes (lockedEp { bucket := [(0, (0, 0))] } shaper)), 2, goes, ([]),
      (goTaken (epWaits 1 goes (lockedEp { bucket := [(0, (0, 0))] } shaper)) goes), (by decide +kernel), (by decide +kernel), rfl,
      (by decide +kernel), (by decide +kernel), (by decide +kernel)⟩,
    ⟨(epWaits 1 goes (epWith { waitTx := [(7, 0xFFF, goes)] })), 2, goes, ([]),
      (goTaken (epWaits 1 goes (epWith { waitTx := [(7, 0xFFF, goes)] })) goes), (by decide +kernel), (by decide +kernel), rfl, (by decide +kernel),
      (by decide +kernel), (by decide +kernel)⟩,
    ⟨(lockedEp { inq := [(1, 1, came)] }), 2, ((1, 1, came)), (by decide +kernel), (by decide +kernel), (by decide +kernel), (by decide +kernel)⟩,
    ⟨(lockedEp { inq := [(1, 1, came)], conns := [(7, conn7)] }), 2, ((1, 1, came)), ehdr7, (crossRead (pktOf (came.drop 24))), conn7, 0,
      ({ spkg := 7, sep := 1, src := 5, tag := 3, ack := true, op := 2, ctx := 5, fc := 0, lines := 0 }), (by decide +kernel), (by decide +kernel),
      (by decide +kernel), (by decide +kernel), (by decide +kernel), (by decide +kernel), (by decide +kernel), (by decide +kernel),
      (by decide +kernel), (by decide +kernel), (by decide +kernel), (by decide +kernel), (by decide +kernel), (by decide +kernel),
      (by decide +kernel), (by decide +kernel), (by decide +kernel), (by decide +kernel), (by decide +kernel), (by decide +kernel)⟩,
    ⟨(lockedEp { inq := [(1, 1, came)], conns := [(7, { conn7 with cum := 9 })] }), 2, ((1, 1, came)), ehdr7, ({ conn7 with cum := 9 }),
      (by decide +kernel), (by decide +kernel), (by decide +kernel), (by decide +kernel), (by decide +kernel), (by decide +kernel),
      (by decide +kernel)⟩,
    ⟨(lockedEp { inq := [(1, 1, came)], conns := [(7, { conn7 with rinc := 2 })] }), 2, ((1, 1, came)), ehdr7, ({ conn7 with rinc := 2 }),
      (by decide +kernel), (by decide +kernel), (by decide +kernel), (by decide +kernel), (by decide +kernel), (by decide +kernel),
      (by decide +kernel)⟩,
    ⟨(lockedEp { inq := [(1, 1, came)], conns := [(7, { conn7 with cum := 2 ^ 24 - 2 ^ 22 - 5 })] }), 2, ((1, 1, came)), ehdr7,
      ({ conn7 with cum := 2 ^ 24 - 2 ^ 22 - 5 }), (by decide +kernel), (by decide +kernel), (by decide +kernel), (by decide +kernel),
      (by decide +kernel), (by decide +kernel), (by decide +kernel), (by decide +kernel), (by decide +kernel)⟩,
    ⟨(lockedEp { bucket := [(1, (0, 0))] } [(epB 2, KEDG_RATE_CTX.rctx, 5, 0), (epB 2, KEDG_RATE_CTX.pol_en, 1, 0), (epB 2, KEDG_RATE_POL.rate, 1,
      0)]), 2, 7, conn7, ehdr7, (pktOf (came.drop 24)), (by decide +kernel), (by decide +kernel)⟩,
    ⟨lockedEp, 2, 7, conn7, ehdr7, ({ pktOf (came.drop 24) with op := 0x0F }), (by decide +kernel), (by decide +kernel), (by decide +kernel)⟩,
    ⟨lockedEp, 2, 7, conn7, ehdr7, ({ pktOf (came.drop 24) with vc := 12 }), (by decide +kernel)⟩,
    ⟨({ lockedEp with ctxFence := [(5, true)] }), 2, 7, conn7, ehdr7, (pktOf (came.drop 24)), (by decide +kernel), (by decide +kernel),
      (by decide +kernel), (by decide +kernel), (by decide +kernel), (by decide +kernel)⟩,
    ⟨(lockedEp { conns := [(7, conn7)] }), 2, 7, conn7, ({ ehdr7 with cpv := true, cpred := 9, edst := 5 }),
      ({ cresyncIn with data := head6, len := 16, aux := 6 }), (by decide +kernel), (by decide +kernel), (by decide +kernel), (by decide +kernel),
      (by decide +kernel), (by decide +kernel), (by decide +kernel)⟩,
    ⟨(fullPx 16384), 2, 7, conn7, ehdr7, (pktOf (came.drop 24)), (by decide +kernel), (by decide +kernel), (by decide +kernel), (by decide +kernel),
      (by decide +kernel), (by decide +kernel), (fullPx_free 16384)⟩,
    ⟨(unitWaits (uEp 2) 0 3 (answerPkt) (lockedEp { proxies := [(9, proxy9)] })), 2, answerPkt,
      (prxTaken (unitWaits (uEp 2) 0 3 (answerPkt) (lockedEp { proxies := [(9, proxy9)] }))), 9, proxy9, (by decide +kernel), rfl,
      (by decide +kernel), (by decide +kernel), (by decide +kernel), (by decide +kernel), (by decide +kernel)⟩,
    ⟨(unitWaits (uEp 2) 0 3 (answerPkt) (lockedEp { proxies := [(9, { proxy9 with ack := false, op := 0x01 })] })), 2, answerPkt,
      (prxTaken (unitWaits (uEp 2) 0 3 (answerPkt) (lockedEp { proxies := [(9, { proxy9 with ack := false, op := 0x01 })] }))), 9,
      ({ proxy9 with ack := false, op := 0x01 }), (by decide +kernel), rfl, (by decide +kernel), (by decide +kernel), (by decide +kernel),
      (by decide +kernel), (by decide +kernel), (by decide +kernel), (by decide +kernel), (by decide +kernel)⟩,
    ⟨(unitWaits (uEp 2) 0 3 (answerPkt) (lockedEp { proxies := [(9, { proxy9 with ack := false, op := 0x20 })] })), 2, answerPkt,
      (prxTaken (unitWaits (uEp 2) 0 3 (answerPkt) (lockedEp { proxies := [(9, { proxy9 with ack := false, op := 0x20 })] }))), 9,
      ({ proxy9 with ack := false, op := 0x20 }), (by decide +kernel), rfl, (by decide +kernel), (by decide +kernel), (by decide +kernel),
      (by decide +kernel), (by decide +kernel), (by decide +kernel), (by decide +kernel), (by decide +kernel)⟩,
    ⟨(unitWaits (uEp 2) 0 3 (answerPkt) lockedEp), 2, answerPkt, (prxTaken (unitWaits (uEp 2) 0 3 (answerPkt) lockedEp)), (by decide +kernel), rfl,
      (by decide +kernel), (by decide +kernel)⟩,
    ⟨(unitWaits (uEp 2) 0 3 ({ answerPkt with ref := 2 ^ 19 }) (lockedEp { proxies := [(9, proxy9)] })), 2, ({ answerPkt with ref := 2 ^ 19 }),
      (prxTaken (unitWaits (uEp 2) 0 3 ({ answerPkt with ref := 2 ^ 19 }) (lockedEp { proxies := [(9, proxy9)] }))), (by decide +kernel), rfl,
      (by decide +kernel)⟩,
    ⟨({ lockedEp { proxies := [(9, proxy9)] } with fc := 2 ^ 22 }), 2, 9, proxy9, (by decide +kernel), (by decide +kernel), (by decide +kernel),
      (by decide +kernel), (by decide +kernel)⟩,
    ⟨lockedEp, 2, 9, (by decide +kernel), (by intro x h; exact nomatch (show (none : Option Proxy) = some x from h))⟩⟩

theorem wit_TransportAct :
    (∃ (s : State) (e : Nat) (x : Nat × Nat × List Byte) (c : Conn) (h : EHdr) (r : List Byte), s.inReset = false ∧
      (s.epS e).inq.find? (fun x => x.1 == 10) = some x ∧ h = ehdrOf x.2.2 ∧ r = x.2.2.drop 24 ∧ (s.epS e).conns.find h.spkg = some c ∧
      bits (le r 0 4) 0 17 = s.pkgNum ∧ c.send = true ∧ bits (le r 0 4) 17 4 = c.inc ∧ bit (le r 0 4) 21 = true)
    ∧ (∃ (s : State) (e : Nat) (x : Nat × Nat × List Byte) (h : EHdr) (r : List Byte), s.inReset = false ∧
      (s.epS e).inq.find? (fun x => x.1 == 10) = some x ∧ h = ehdrOf x.2.2 ∧ r = x.2.2.drop 24 ∧ (∀ c,
      (s.epS e).conns.find h.spkg = some c → bits (le r 0 4) 0 17 ≠ s.pkgNum ∨ c.send = false ∨ bits (le r 0 4) 17 4 ≠ c.inc))
    ∧ (∃ (s : State) (e : Nat) (x : Nat × Nat × List Byte) (c : Conn) (h : EHdr) (r : List Byte), s.inReset = false ∧
      (s.epS e).inq.find? (fun x => x.1 == 10) = some x ∧ h = ehdrOf x.2.2 ∧ r = x.2.2.drop 24 ∧ (s.epS e).conns.find h.spkg = some c ∧
      bits (le r 0 4) 0 17 = s.pkgNum ∧ c.send = true ∧ bits (le r 0 4) 17 4 = c.inc ∧ bit (le r 0 4) 21 = false ∧ (∀ o ∈ c.outst, 0 < o.sends ∧
      ackCovers r o.hdr.psn = true))
    ∧ (∃ (s : State) (e : Nat) (x : Nat × Nat × List Byte) (c : Conn) (h : EHdr) (r : List Byte), s.inReset = false ∧
      (s.epS e).inq.find? (fun x => x.1 == 10) = some x ∧ h = ehdrOf x.2.2 ∧ r = x.2.2.drop 24 ∧ (s.epS e).conns.find h.spkg = some c ∧
      bits (le r 0 4) 0 17 = s.pkgNum ∧ c.send = true ∧ bits (le r 0 4) 17 4 = c.inc ∧ bit (le r 0 4) 21 = false ∧ (∀ o ∈ c.outst,
      ackCovers r o.hdr.psn = false ∧ o.passed < 3))
    ∧ (∃ (s : State) (e : Nat) (peer : Nat) (c : Conn), s.inReset = false ∧ (s.epS e).conns.find peer = some c ∧ c.ackDue = true ∧
      c.ackFc + 2 ^ s.rd (epB e) KEDG_XPORT.ack_log2 ≤ s.fc ∧ s.edgeFault = false)
    ∧ (∃ (s : State) (e : Nat) (peer : Nat) (psn : Nat) (c : Conn) (o : EPkt), s.inReset = false ∧ s.edgeFault = false ∧
      (s.epS e).conns.find peer = some c ∧ c.outst.find? (fun o => o.hdr.psn == psn) = some o ∧ (s.epS e).queued peer psn = false ∧
      o.lastFc + c.rto ≤ s.fc ∧ s.ackWaits e peer c.inc psn = false ∧ Tbl.get 0 (s.epS e).pfail o.path + 1 < s.rd (epB e) KEDG_XPORT.path_fail ∧
      o.sends < s.rd (epB e) KEDG_XPORT.rtx_max + 1)
    ∧ (∃ (s : State) (e : Nat) (peer : Nat) (psn : Nat) (c : Conn) (o : EPkt), s.inReset = false ∧ s.edgeFault = false ∧
      (s.epS e).conns.find peer = some c ∧ c.outst.find? (fun o => o.hdr.psn == psn) = some o ∧ (s.epS e).queued peer psn = false ∧
      o.lastFc + c.rto ≤ s.fc ∧ s.ackWaits e peer c.inc psn = false ∧ s.rd (epB e) KEDG_XPORT.path_fail ≤ Tbl.get 0 (s.epS e).pfail o.path + 1 ∧
      o.sends < s.rd (epB e) KEDG_XPORT.rtx_max + 1)
    ∧ (∃ (s : State) (e : Nat) (peer : Nat) (psn : Nat) (c : Conn) (o : EPkt), s.inReset = false ∧ s.edgeFault = false ∧
      (s.epS e).conns.find peer = some c ∧ c.outst.find? (fun o => o.hdr.psn == psn) = some o ∧ (s.epS e).queued peer psn = false ∧
      o.lastFc + c.rto ≤ s.fc ∧ s.ackWaits e peer c.inc psn = false ∧ Tbl.get 0 (s.epS e).pfail o.path + 1 < s.rd (epB e) KEDG_XPORT.path_fail ∧
      s.rd (epB e) KEDG_XPORT.rtx_max + 1 ≤ o.sends)
    ∧ (∃ (s : State) (e : Nat) (peer : Nat) (psn : Nat), s.inReset = false ∧ (∀ c o,
      (s.epS e).conns.find peer = some c → c.outst.find? (fun o => o.hdr.psn == psn) = some o → s.edgeFault = true ∨ (s.epS e).queued peer psn = true ∨ s.fc < o.lastFc + c.rto ∨ s.ackWaits e peer c.inc psn = true))
    ∧ (∃ (s : State) (e : Nat) (path : Nat) (t0 : Nat), s.inReset = false ∧ e < 64 ∧ (s.epS e).psusp.find path = some t0 ∧ t0 ≤ s.fc)
    ∧ (∃ (s : State) (e : Nat) (skip : Option Nat), e < 64 ∧ s.sprayLabels e ≠ [])
    ∧ (∃ (s : State) (e : Nat) (skip : Option Nat), e < 64 ∧ s.sprayLabels e ≠ [] ∧ (∃ p ∈ s.sprayLabels e, s.rd (epB e) KEDG_PATH.suspended p = 0))
    ∧ (∃ (s : State) (e : Nat) (skip : Option Nat) (k : Nat), e < 64 ∧ s.sprayLabels e ≠ [] ∧ skip = some k ∧ (∃ p ∈ s.sprayLabels e, p ≠ k ∧
      s.rd (epB e) KEDG_PATH.suspended p = 0))
    ∧ (∃ (s : State) (e : Nat) (p : Packet) (rest : List Packet) (u : W), s.inReset = false ∧ (s.epS e).shaped = p :: rest ∧
      s.rateOk e p false = true ∧
      ((s.w0.takeTokens e p false).epMod e (fun x => { x with shaped := x.shaped.erase p })).sendNew e (s.crossDst p).1 (s.crossDst p).2.1 (s.crossDst p).2.2 = some u)
    ∧ (∃ (s : State) (e : Nat), s.inReset = false ∧ (∀ p ∈ (s.epS e).shaped, s.rateOk e p false = false)) :=
  ⟨⟨(lockedEp { inq := [(10, 1, ackIn true)], conns := [(7, sendConn [])] }), 2, ((10, 1, ackIn true)), (sendConn []), ({ spkg := 7 }),
      (ackBytes 0 3 true 1 []), (by decide +kernel), (by decide +kernel), (by decide +kernel), (by decide +kernel), (by decide +kernel),
      (by decide +kernel), (by decide +kernel), (by decide +kernel), (by decide +kernel)⟩,
    ⟨(lockedEp { inq := [(10, 1, ackIn true)] }), 2, ((10, 1, ackIn true)), ({ spkg := 7 }), (ackBytes 0 3 true 1 []), (by decide +kernel),
      (by decide +kernel), (by decide +kernel), (by decide +kernel), (by intro c h; exact nomatch (show (none : Option Conn) = some c from h))⟩,
    ⟨(lockedEp { inq := [(10, 1, ackIn false)], conns := [(7, sendConn [sentPkt 1])] }), 2, ((10, 1, ackIn false)), (sendConn [sentPkt 1]),
      ({ spkg := 7 }), (ackBytes 0 3 false 1 []), (by decide +kernel), (by decide +kernel), (by decide +kernel), (by decide +kernel),
      (by decide +kernel), (by decide +kernel), (by decide +kernel), (by decide +kernel), (by decide +kernel), (by decide +kernel)⟩,
    ⟨(lockedEp { inq := [(10, 1, ackIn false)], conns := [(7, sendConn [{ sentPkt 1 with hdr := { psn := 9 } }])] }), 2, ((10, 1, ackIn false)),
      (sendConn [{ sentPkt 1 with hdr := { psn := 9 } }]), ({ spkg := 7 }), (ackBytes 0 3 false 1 []), (by decide +kernel), (by decide +kernel),
      (by decide +kernel), (by decide +kernel), (by decide +kernel), (by decide +kernel), (by decide +kernel), (by decide +kernel),
      (by decide +kernel), (by decide +kernel)⟩,
    ⟨({ lockedEp { conns := [(7, { conn7 with ackDue := true })] } with fc := 2 ^ 40 }), 2, 7, ({ conn7 with ackDue := true }), (by decide +kernel),
      (by decide +kernel), (by decide +kernel), (by decide +kernel), (by decide +kernel)⟩,
    ⟨({ lockedEp { conns := [(7, sendConn [sentPkt 1])], pfail := [(0, 0)] } with fc := 2 ^ 60 }), 2, 7, 1, (sendConn [sentPkt 1]), (sentPkt 1),
      (by decide +kernel), (by decide +kernel), (by decide +kernel), (by decide +kernel), (by decide +kernel), (by decide +kernel),
      (by decide +kernel), (by decide +kernel), (by decide +kernel)⟩,
    ⟨({ lockedEp { conns := [(7, sendConn [sentPkt 1])], pfail := [(0, 1000)] } with fc := 2 ^ 60 }), 2, 7, 1, (sendConn [sentPkt 1]), (sentPkt 1),
      (by decide +kernel), (by decide +kernel), (by decide +kernel), (by decide +kernel), (by decide +kernel), (by decide +kernel),
      (by decide +kernel), (by decide +kernel), (by decide +kernel)⟩,
    ⟨({ lockedEp { conns := [(7, sendConn [sentPkt 20])], pfail := [(0, 0)] } with fc := 2 ^ 60 }), 2, 7, 1, (sendConn [sentPkt 20]), (sentPkt 20),
      (by decide +kernel), (by decide +kernel), (by decide +kernel), (by decide +kernel), (by decide +kernel), (by decide +kernel),
      (by decide +kernel), (by decide +kernel), (by decide +kernel)⟩,
    ⟨lockedEp, 2, 7, 1, (by decide +kernel), (by intro c o h; exact nomatch (show (none : Option Conn) = some c from h))⟩,
    ⟨(lockedEp { psusp := [(4, 0)], prtt := [(4, 9)] }), 2, 4, 0, (by decide +kernel), (by decide +kernel), (by decide +kernel), (by decide +kernel)⟩,
    ⟨(lockedEp {} [(epB 2, KEDG_SPRAY_LO.spray_lo, 3, 0), (epB 2, KEDG_PATH.weight, 256, 0), (epB 2, KEDG_PATH.weight, 256, 1)]), 2, none,
      (by decide +kernel), (by decide +kernel)⟩,
    ⟨(lockedEp {} [(epB 2, KEDG_SPRAY_LO.spray_lo, 3, 0), (epB 2, KEDG_PATH.weight, 256, 0), (epB 2, KEDG_PATH.weight, 256, 1)]), 2, none,
      (by decide +kernel), (by decide +kernel), (by decide +kernel)⟩,
    ⟨(lockedEp {} [(epB 2, KEDG_SPRAY_LO.spray_lo, 3, 0), (epB 2, KEDG_PATH.weight, 256, 0), (epB 2, KEDG_PATH.weight, 256, 1)]), 2, (some 0), 0,
      (by decide +kernel), (by decide +kernel), (by decide +kernel), (by decide +kernel)⟩,
    ⟨(lockedEp { shaped := [goes] }), 2, goes, ([]),
      (orElse (W.sendNew (((lockedEp { shaped := [goes] }).w0.takeTokens 2 goes false).epMod 2 (fun x => { x with shaped := x.shaped.erase goes })) 2 ((lockedEp { shaped := [goes] }).crossDst goes).1 ((lockedEp { shaped := [goes] }).crossDst goes).2.1 ((lockedEp { shaped := [goes] }).crossDst goes).2.2) (lockedEp { shaped := [goes] }).w0),
      (by decide +kernel), (by decide +kernel), (by decide +kernel), (by unfold W.sendNew; rfl)⟩,
    ⟨(lockedEp { shaped := [goes], bucket := [(0, (0, 0))] } shaper), 2, (by decide +kernel), (by decide +kernel)⟩⟩

theorem wit_WindowsAndSlotsAct :
    (∃ (s : State) (e : Nat) (i : Nat) (c : CwEnt), s.inReset = false ∧ e < 64 ∧ (s.epS e).nextCw = some (i, c) ∧ i < 256 ∧ (s.epS e).cwPhase = 0 ∧
      c.tOpen ≤ s.herdTime + s.rd (epB e) KEDG_CW_CFG.cw_lead)
    ∧ (∃ (s : State) (e : Nat), s.inReset = false ∧ (∀ i c, (s.epS e).nextCw = some (i,
      c) → (s.epS e).cwPhase ≠ 0 ∨ s.herdTime + s.rd (epB e) KEDG_CW_CFG.cw_lead < c.tOpen))
    ∧ (∃ (s : State) (e : Nat) (c : CwEnt), s.inReset = false ∧ (s.epS e).cw.find (s.rd (epB e) KEDG_CW_STAT.cw_next) = some c ∧
      (s.epS e).cwPhase = 1 ∧ c.tOpen ≤ s.herdTime)
    ∧ (∃ (s : State) (e : Nat) (c : CwEnt) (i : Nat), s.inReset = false ∧ i = s.rd (epB e) KEDG_CW_STAT.cw_next ∧ (s.epS e).cw.find i = some c ∧
      (s.epS e).cwPhase = 2 ∧ c.tClose ≤ s.herdTime)
    ∧ (∃ (s : State) (e : Nat), s.inReset = false ∧ (∀ c,
      (s.epS e).cw.find (s.rd (epB e) KEDG_CW_STAT.cw_next) = some c → ((s.epS e).cwPhase = 1 → s.herdTime < c.tOpen) ∧
      ((s.epS e).cwPhase = 2 → s.herdTime < c.tClose)))
    ∧ (∃ (s : State) (e : Nat) (p : Packet) (w : W), s.inReset = false ∧
      s.w0.takeAny (uEp e) (fun p => (p.op == 0x20 || p.op == 0x22) && p.addr == 0) = some (p, w) ∧ p.op = 0x20 ∧ p.aux ≤ 15 ∧ 1 ≤ hdLines p.data ∧
      hdLines p.data ≤ 64 ∧ p.len = 16 + hdBlen p.data ∧ 33 ≤ hdBlen p.data ∧ hdBlen p.data ≤ 4080 ∧
      (w.rd (epB e) KEDG_SPN_CFG.spn_en p.aux ≠ 1 ∨ w.spnSlotOf e p.aux (hdPkg p.data) (hdSrc p.data) (hdChan p.data) = none))
    ∧ (∃ (s : State) (e : Nat) (p : Packet) (w : W), s.inReset = false ∧
      s.w0.takeAny (uEp e) (fun p => (p.op == 0x20 || p.op == 0x22) && p.addr == 0) = some (p, w) ∧ p.op = 0x20 ∧
      (15 < p.aux ∨ 64 < hdLines p.data ∨ p.len ≠ 16 + hdBlen p.data ∨ hdLines p.data = 0 ∨ hdBlen p.data < 33 ∨ 4080 < hdBlen p.data))
    ∧ (∃ (s : State) (e : Nat) (p : Packet) (w : W) (i : Nat) (m : Nat) (v : W), s.inReset = false ∧
      s.w0.takeAny (uEp e) (fun p => (p.op == 0x20 || p.op == 0x22) && p.addr == 0) = some (p, w) ∧ p.op = 0x20 ∧ p.aux ≤ 15 ∧ m = hdLines p.data ∧
      1 ≤ m ∧ m ≤ 64 ∧ p.len = 16 + hdBlen p.data ∧ 33 ≤ hdBlen p.data ∧ hdBlen p.data ≤ 4080 ∧ w.rd (epB e) KEDG_SPN_CFG.spn_en p.aux = 1 ∧
      w.spnSlotOf e p.aux (hdPkg p.data) (hdSrc p.data) (hdChan p.data) = some i ∧
      v = w.egress e 11 { vc := 11, bytes := EHdr.bytes { dpkg := 0, dep := 0, spkg := w.pkgNum, sep := e } ++ p.data.drop 16, peer := p.aux * 16 + i, psn := m, ctx := p.ctx })
    ∧ (∃ (s : State) (e : Nat) (p : Packet) (w : W) (i : Nat) (k : Nat), s.inReset = false ∧
      s.w0.takeAny (uEp e) (fun p => (p.op == 0x20 || p.op == 0x22) && p.addr == 0) = some (p, w) ∧ p.op = 0x22 ∧ k = p.aux % 256 ∧ k < 16 ∧
      w.rd (epB e) KEDG_SPN_CFG.spn_en k = 1 ∧ w.spnSlotOf e k (hdPkg p.data) (hdSrc p.data) (hdChan p.data) = some i)
    ∧ (∃ (s : State) (e : Nat) (j : Nat) (m : Nat), e < 64 ∧ j < 256 ∧ s.rd (epB e) KEDG_SPN_SLOT2.s_pend j + m < 8)
    ∧ (∃ (s : State) (e : Nat) (x : Nat × Nat × List Byte), s.inReset = false ∧ s.w0.takeAny (uEp e) (fun p => p.op == 0x21 && p.ext == []) = none ∧
      (s.epS e).inq.find? (fun x => x.1 == 11) = some x)
    ∧ (∃ (s : State) (e : Nat) (p : Packet) (w : W) (k : Nat), s.inReset = false ∧
      s.w0.takeAny (uEp e) (fun p => p.op == 0x21 && p.ext == []) = some (p, w) ∧ (w.epS e).inq.find? (fun x => x.1 == 11) = none ∧ k = p.tag % 256 ∧
      k < 16)
    ∧ (∃ (s : State) (e : Nat) (x : Nat × Nat × List Byte) (k : Nat), k = bits (le (x.2.2.drop 24) 11 1) 0 4 ∧
      s.rd (epB e) KEDG_SPN_CFG.spn_en k ≠ 0 ∧ spnHeldLines (s.spnS e k) + msgLines (x.2.2.drop 24).length ≤ 64)
    ∧ (∃ (s : State) (e : Nat) (x : Nat × Nat × List Byte) (k : Nat), k = bits (le (x.2.2.drop 24) 11 1) 0 4 ∧
      (s.rd (epB e) KEDG_SPN_CFG.spn_en k = 0 ∨ 64 < spnHeldLines (s.spnS e k) + msgLines (x.2.2.drop 24).length))
    ∧ (∃ (s : State) (e : Nat) (x : Nat × Nat × List Byte) (k : Nat), k = bits (le (x.2.2.drop 24) 11 1) 0 4) :=
  ⟨⟨(lockedEp { cw := [(4, cw1)] }), 2, 4, cw1, (by decide +kernel), (by decide +kernel), (by decide +kernel), (by decide +kernel),
      (by decide +kernel), (by decide +kernel)⟩,
    ⟨lockedEp, 2, (by decide +kernel), (by intro i c h; exact nomatch (show (none : Option (Nat × CwEnt)) = some (i, c) from h))⟩,
    ⟨(lockedEp { cw := [(4, cw1)], cwPhase := 1 } [(epB 2, KEDG_CW_STAT.cw_next, 4, 0)]), 2, cw1, (by decide +kernel), (by decide +kernel),
      (by decide +kernel), (by decide +kernel)⟩,
    ⟨(lockedEp { cw := [(4, cw1)], cwPhase := 2 } [(epB 2, KEDG_CW_STAT.cw_next, 4, 0)]), 2, cw1, 4, (by decide +kernel), (by decide +kernel),
      (by decide +kernel), (by decide +kernel), (by decide +kernel)⟩,
    ⟨lockedEp, 2, (by decide +kernel), (by intro c h; exact nomatch (show (none : Option CwEnt) = some c from h))⟩,
    ⟨(epWaits 7 (spnMsg) State.reset), 2, spnMsg, (spnTaken (epWaits 7 (spnMsg) State.reset)), (by decide +kernel), rfl, (by decide +kernel),
      (by decide +kernel), (by decide +kernel), (by decide +kernel), (by decide +kernel), (by decide +kernel), (by decide +kernel),
      (by decide +kernel)⟩,
    ⟨(epWaits 7 ({ spnMsg with aux := 16 }) spnOn), 2, ({ spnMsg with aux := 16 }), (spnTaken (epWaits 7 ({ spnMsg with aux := 16 }) spnOn)),
      (by decide +kernel), rfl, (by decide +kernel), (by decide +kernel)⟩,
    ⟨(epWaits 7 (spnMsg) spnOn), 2, spnMsg, (spnTaken (epWaits 7 (spnMsg) spnOn)), 0, 1,
      ((spnTaken (epWaits 7 (spnMsg) spnOn)).egress 2 11 { vc := 11, bytes := EHdr.bytes { dpkg := 0, dep := 0, spkg := (spnTaken (epWaits 7 (spnMsg) spnOn)).pkgNum, sep := 2 } ++ spnMsg.data.drop 16, peer := 3 * 16, psn := 1, ctx := 5 }),
      (by decide +kernel), rfl, (by decide +kernel), (by decide +kernel), (by decide +kernel), (by decide +kernel), (by decide +kernel),
      (by decide +kernel), (by decide +kernel), (by decide +kernel), (by decide +kernel), (by decide +kernel), rfl⟩,
    ⟨(epWaits 7 ({ vc := 7, op := 0x22, aux := 3, src := 7, ctx := 5, len := 16, data := msgHead 1 1 0 7 4 0 0 }) spnOn), 2,
      ({ vc := 7, op := 0x22, aux := 3, src := 7, ctx := 5, len := 16, data := msgHead 1 1 0 7 4 0 0 }),
      (spnTaken (epWaits 7 ({ vc := 7, op := 0x22, aux := 3, src := 7, ctx := 5, len := 16, data := msgHead 1 1 0 7 4 0 0 }) spnOn)), 0, 3,
      (by decide +kernel), rfl, (by decide +kernel), (by decide +kernel), (by decide +kernel), (by decide +kernel), (by decide +kernel)⟩,
    ⟨spnOn, 2, 48, 1, (by decide +kernel), (by decide +kernel), (by decide +kernel)⟩,
    ⟨(epWith { inq := [spnResult] } spnOn), 2, spnResult, (by decide +kernel), (by decide +kernel), (by decide +kernel)⟩,
    ⟨(epWaits 4 { vc := 4, op := 0x21, tag := 3, aux := 2, src := 7 } spnOn), 2, ({ vc := 4, op := 0x21, tag := 3, aux := 2, src := 7 }),
      (taken (epWaits 4 { vc := 4, op := 0x21, tag := 3, aux := 2, src := 7 } spnOn) (uEp 2) (fun p => p.op == 0x21 && p.ext == [])), 3,
      (by decide +kernel), rfl, (by decide +kernel), (by decide +kernel), (by decide +kernel)⟩,
    ⟨(epWith { inq := [spnResult] } spnOn), 2, spnResult, 3, (by decide +kernel), (by decide +kernel), (by decide +kernel)⟩,
    ⟨(epWith { inq := [spnResult] }), 2, spnResult, 3, (by decide +kernel), (by decide +kernel)⟩,
    ⟨(epWith { inq := [spnResult] } spnOn), 2, spnResult, 3, (by decide +kernel)⟩⟩

theorem wit_IdcodeReads :
    (∃ (s : State), s.fuse.idcodeMfr < 2 ^ 11) :=
  ⟨(State.reset), (by decide +kernel)⟩

theorem wit_PacketBytes :
    (∃ (p : Packet), p.Wire) :=
  ⟨spnMsg, (by unfold Packet.Wire; decide)⟩

theorem wit_MemoryStores :
    (∃ (s : State) (m : Nat) (p : Packet), s.inReset = false ∧ m < 64 ∧ s.memCheck m p = OK ∧ s.inFault = false ∧ p.data.length = p.len ∧
      (∀ l ∈ linesOf (loff p.addr) p.len, s.dirFind (m / 2) l = none) ∧ p.op = 0x01 ∧ s.nextReq m 0x01 = some p)
    ∧ (∃ (s : State) (m : Nat) (p : Packet), s.inReset = false ∧ m < 64 ∧ s.memCheck m p = OK ∧ s.inFault = false ∧ p.data.length = p.len ∧
      (∀ l ∈ linesOf (loff p.addr) p.len, s.dirFind (m / 2) l = none) ∧ p.op = 0x0C ∧ s.nextReq m 0x0C = some p)
    ∧ (∃ (s : State) (m : Nat) (p : Packet), s.inReset = false ∧ m < 64 ∧ s.nextReq m 0x0A = some p ∧ p.op = 0x0A ∧ s.memCheck m p = OK ∧
      s.inFault = false ∧ s.dirFind (m / 2) (loff p.addr / 64) = none) :=
  ⟨⟨(intake mWrite), 0, mWrite, (by decide +kernel), (by decide +kernel), (by decide +kernel), (by decide +kernel), (by decide +kernel),
      (by decide +kernel), (by decide +kernel), (by decide +kernel)⟩,
    ⟨(intake mCwrite), 0, mCwrite, (by decide +kernel), (by decide +kernel), (by decide +kernel), (by decide +kernel), (by decide +kernel),
      (by decide +kernel), (by decide +kernel), (by decide +kernel)⟩,
    ⟨(intake mAtomic), 0, mAtomic, (by decide +kernel), (by decide +kernel), (by decide +kernel), (by decide +kernel), (by decide +kernel),
      (by decide +kernel), (by decide +kernel)⟩⟩

theorem wit_CycleCounts :
    (∃ (s : State), s.pending = [] ∧ (s.boot.porstN = false ∨ s.boot.pwrgd = false ∨ s.boot.clk = false))
    ∧ (∃ (s : State), s.pending = [] ∧ s.boot.porstN = true ∧ s.boot.pwrgd = true ∧ s.boot.clk = true ∧ s.boot.hrstN = false)
    ∧ (∃ (s : State), s.flt.entryFc = none) :=
  ⟨⟨({ State.reset with boot.clk := false }), (by decide +kernel), (by decide +kernel)⟩,
    ⟨({ State.reset with boot.hrstN := false }), (by decide +kernel), (by decide +kernel), (by decide +kernel), (by decide +kernel),
      (by decide +kernel)⟩,
    ⟨(State.reset), (by decide +kernel)⟩⟩

/-! ### Witnesses for the statements about bytes, codes and every command -/

theorem wit_EndOfInterrupt_match :
    ∃ (s : State) (target orig reg num : Nat) (e : StkEnt) (rest : List StkEnt), s.inReset = false ∧ targetOk target = true
      ∧ s.stkOf target = e :: rest ∧ e.orig = orig ∧ e.num = num ∧ (orig = 2 → (target = 5000 ∨ target = 5001) → e.reg = reg) :=
  ⟨{ State.reset with irq.stk := [(5000, [⟨2, 7, 5, 2⟩])] }, 5000, 2, 7, 5, ⟨2, 7, 5, 2⟩, [], rfl, rfl, rfl, rfl, rfl, fun _ _ => rfl⟩

theorem wit_EndOfInterrupt_other :
    ∃ (s : State) (target orig reg num : Nat), s.inReset = false ∧ targetOk target = true ∧ s.stkOf target ≠ []
      ∧ (∀ e rest, s.stkOf target = e :: rest →
        e.orig ≠ orig ∨ e.num ≠ num ∨ (orig = 2 ∧ (target = 5000 ∨ target = 5001) ∧ e.reg ≠ reg)) :=
  ⟨{ State.reset with irq.stk := [(5000, [⟨2, 7, 5, 2⟩])] }, 5000, 2, 8, 5, rfl, rfl, by decide, by
    intro e rest h
    have h : [(⟨2, 7, 5, 2⟩ : StkEnt)] = e :: rest := h
    cases h
    decide⟩

theorem wit_StatusPrecedence :
    (∃ l : List (Bool × Nat), l ≠ [] ∧ ∀ c ∈ l, c.1 = false)
      ∧ ∃ (l : List (Bool × Nat)) (c : Bool × Nat), (∀ d ∈ l, d.2 ≤ 0x12) ∧ c ∈ l ∧ c.1 = true :=
  ⟨⟨[(false, POISON)], by decide, by decide⟩, [(true, POISON), (true, BADOP)], (true, POISON), by decide, by decide, rfl⟩

theorem wit_ArbitersSeeded : ∃ x n : Nat, x < 256 ∧ 1 ≤ x ∧ x ≤ 255 ∧ 1 ≤ n ∧ n < 255 := ⟨255, 254, by decide⟩

theorem wit_EdgeBytes :
    (∃ h : EHdr, h.dpkg < 2 ^ 17 ∧ h.dep < 64 ∧ h.path < 64 ∧ h.spkg < 2 ^ 17 ∧ h.sep < 64 ∧ h.inc < 16 ∧ h.psn < 2 ^ 24 ∧ h.edst < 4096
      ∧ h.cpred < 2 ^ 24)
      ∧ ∃ c : Cell, c.stag < 2 ^ 16 ∧ c.count < 256 ∧ c.sigval < 2 ^ 64 ∧ (c.sig = false → c.sigval = 0) ∧ c.data.length = 64 ∧ c.piece = none :=
  ⟨⟨{ ehdr7 with dpkg := 131071, dep := 63, path := 63, psn := 16777215, cpred := 16777215 }, by decide⟩,
    { stag := 65535, count := 255, sig := true, sigval := 2 ^ 64 - 1, data := List.replicate 64 1 }, by decide⟩

theorem wit_FramesCheck :
    ∃ (ftype vc lseq lack lcred : Nat) (body f : List Byte), ftype < 16 ∧ vc < 16 ∧ lseq < 4096 ∧ lack < 4096 ∧ lcred < 2 ^ 16
      ∧ body.length ≤ 240 ∧ f = frameBytes ftype vc lseq lack true true false false lcred body :=
  ⟨15, 15, 4095, 4095, 65535, List.replicate 240 1, _, by decide, by decide, by decide, by decide, by decide, by decide +kernel, rfl⟩

theorem wit_StepKeepsSafe : ∃ s t : State, Safe s ∧ step s = .next t ∧ s.pending ≠ [] :=
  ⟨{ State.reset with pending := [.porstNRelease] }, _, by unfold Safe Memory.wf; decide, rfl, by decide⟩

theorem wit_ResetHolds : ∃ (c : Instr) (s : State), ¬ c.isPin ∧ s.inReset = true :=
  ⟨.identify 0 0, { State.reset with boot.hrstN := false }, by simp [Instr.isPin], rfl⟩


end Sys2Proof.Tests
end

section
/-! PROOFS. Every command's outcome: a command is an effect run on the state, so a step completes and keeps the queue (R3, R19). -/

namespace Sys2Proof.Machine

/-- The pins, the clock and the test reset act whether or not the block is held in reset. -/
theorem exec_eq_runPin_of_isPin {c : Instr} (h : c.isPin) : ∃ f, ∀ s, exec c s = runPin f s := by
  rcases h with rfl | rfl | rfl | ⟨n, rfl⟩ | rfl | rfl | rfl
  · exact ⟨_, exec_porstNAssert⟩
  · exact ⟨_, exec_porstNRelease⟩
  · exact ⟨_, exec_pwrgdInFall⟩
  · exact ⟨_, exec_hrstNAssert n⟩
  · exact ⟨_, exec_hrstNRelease⟩
  · exact ⟨_, exec_fabricClockLock⟩
  · exact ⟨_, exec_trstNAssert⟩

/-- Every other command acts only on a block that is not held in reset. -/
theorem exec_eq_run_of_not_isPin {c : Instr} (h : ¬ c.isPin) : ∃ f, ∀ s, exec c s = run f s := by
  cases c
  case porstNAssert | porstNRelease | pwrgdInFall | hrstNAssert | hrstNRelease | fabricClockLock | trstNAssert =>
    exact absurd (by simp [Instr.isPin]) h
  all_goals exact ⟨_, fun _ => rfl⟩

/-- An effect under `runPin` gives a next state with the same queue. -/
theorem runPin_completes (f : W → W) (s : State) : ∃ t, runPin f s = .next t ∧ t.pending = s.pending :=
  ⟨s.after f, rfl, State.after_pending s f⟩

/-- So does an effect under `run`, held in reset or not. -/
theorem run_completes (f : W → W) (s : State) : ∃ t, run f s = .next t ∧ t.pending = s.pending := by
  cases h : s.inReset with
  | true => exact ⟨s, run_down f h, rfl⟩
  | false => exact ⟨s.after f, run_up f h, State.after_pending s f⟩

/-- Settles O1: it is how `step` takes a waiting command. -/
theorem stepRunsFront : Obligations.StepRunsFront := fun _ _ _ => rfl

/-- Settles O60: a command is an effect under `runPin` or under `run`, and both complete. -/
theorem everyCommandCompletes : Obligations.EveryCommandCompletes := by
  intro c s
  by_cases h : c.isPin
  · obtain ⟨f, hf⟩ := exec_eq_runPin_of_isPin h
    simpa only [hf s] using runPin_completes f s
  · obtain ⟨f, hf⟩ := exec_eq_run_of_not_isPin h
    simpa only [hf s] using run_completes f s

end Sys2Proof.Machine
end

section
/-! PROOFS. Status codes (R19): the code that `firstOf` carries is one of those offered, and none offered precedes it. -/

namespace Sys2Proof.Machine

/-- The comparison that `worst` folds keeps one of the codes it saw, and one that none of them precedes. -/
theorem foldl_precedence (l : List Nat) (a : Nat) :
    let r := l.foldl (fun a b => if statusPrec b < statusPrec a then b else a) a
    r ∈ a :: l ∧ ∀ x ∈ a :: l, statusPrec r ≤ statusPrec x := by
  induction l generalizing a with
  | nil => simp
  | cons b l ih =>
    rw [List.foldl_cons]
    split
    · rename_i hlt
      obtain ⟨hmem, hle⟩ := ih b
      have ha := (hle b List.mem_cons_self).trans hlt.le
      exact ⟨List.mem_cons_of_mem a hmem, List.forall_mem_cons.mpr ⟨ha, hle⟩⟩
    · rename_i hnlt
      obtain ⟨hmem, hle⟩ := ih a
      obtain ⟨ha, hl⟩ := List.forall_mem_cons.mp hle
      have hb := ha.trans (not_lt.mp hnlt)
      have hmem' := (List.mem_cons.mp hmem).imp_right (List.mem_cons_of_mem b)
      exact ⟨List.mem_cons.mpr hmem', List.forall_mem_cons.mpr ⟨ha, List.forall_mem_cons.mpr ⟨hb, hl⟩⟩⟩

theorem worst_mem (l : List Nat) : worst l ∈ OK :: l := (foldl_precedence l OK).1

theorem statusPrec_worst_le {l : List Nat} {x : Nat} (h : x ∈ l) : statusPrec (worst l) ≤ statusPrec x :=
  (foldl_precedence l OK).2 x (List.mem_cons_of_mem _ h)

/-- OK comes last of the codes there are. -/
theorem eq_ok_of_statusPrec_ok_le : ∀ n ≤ 0x12, statusPrec OK ≤ statusPrec n → n = OK := by decide

theorem mem_codes {l : List (Bool × Nat)} {n : Nat} :
    n ∈ (l.filter (fun c => c.1)).map (fun c => c.2) ↔ ∃ d ∈ l, d.1 = true ∧ n = d.2 := by
  simp only [List.mem_map, List.mem_filter, and_assoc, eq_comm]

/-- With no condition that holds, the code is OK. -/
theorem firstOf_none {l : List (Bool × Nat)} (h : ∀ c ∈ l, c.1 = false) : firstOf l = OK := by
  have hnil : l.filter (fun c => c.1) = [] := List.filter_eq_nil_iff.mpr (by simpa using h)
  rw [firstOf, hnil]
  rfl

/-- No condition that holds has a code of higher precedence than the one carried. -/
theorem statusPrec_firstOf_le {l : List (Bool × Nat)} {c : Bool × Nat} (hc : c ∈ l) (ht : c.1 = true) :
    statusPrec (firstOf l) ≤ statusPrec c.2 := statusPrec_worst_le (mem_codes.mpr ⟨c, hc, ht, rfl⟩)

/-- The code carried is that of a condition that holds: OK, which `worst` starts from, only where one has it. -/
theorem firstOf_mem {l : List (Bool × Nat)} {c : Bool × Nat} (hc : c ∈ l) (ht : c.1 = true) (hn : c.2 ≤ 0x12) :
    ∃ d ∈ l, d.1 = true ∧ firstOf l = d.2 := by
  rcases List.mem_cons.mp (worst_mem ((l.filter (fun c => c.1)).map (fun c => c.2))) with hok | hmem
  · have hle := statusPrec_firstOf_le hc ht
    rw [firstOf, hok] at hle
    exact ⟨c, hc, ht, hok.trans (eq_ok_of_statusPrec_ok_le c.2 hn hle).symm⟩
  · exact mem_codes.mp hmem

/-- Settles O49: the numbers are the table's, and the two laws of `firstOf` say which code is carried. -/
theorem statusPrecedence : Obligations.StatusPrecedence :=
  ⟨by decide, by decide, fun _ h => firstOf_none h,
    fun _ c hn hc ht => ⟨firstOf_mem hc ht (hn c hc), statusPrec_firstOf_le hc ht⟩⟩

end Sys2Proof.Machine
end

section
/-! PROOFS. Register reads and writes (R15, R16, R102, R179, R483): what a plain read leaves, and that the RC fields of one
register are cleared each by itself. -/

namespace Sys2Proof.Machine

/-! ### The RC fields of a register stand apart -/

/-- Offset of the last register of a field's array. -/
def Fld.lastOff (f : Fld) : Nat := f.off + f.stride * (f.count - 1)

/-- RC fields with the same lowest bit stand in different registers. -/
def RcApart (l : List Fld) : Prop :=
  ∀ f ∈ l, f.acc = .rc → f.lsb < 32 ∧ ∀ g ∈ l, g.acc = .rc → f.lsb = g.lsb → f = g ∨ f.lastOff < g.off ∨ g.lastOff < f.off

theorem RcApart.subset {l m : List Fld} (h : RcApart m) (hs : l ⊆ m) : RcApart l := fun f hf hrc =>
  ⟨(h f (hs hf) hrc).1, fun g hg => (h f (hs hf) hrc).2 g (hs hg)⟩

theorem rcApart_rtr : RcApart (rtrFields ++ evcFields) := by unfold RcApart; decide +kernel

/-- The tables of every part are so. -/
theorem Win.fields_rcApart (wn : Win) : RcApart wn.fields := by
  cases wn with
  | rtr u =>
    refine rcApart_rtr.subset (List.append_subset.mpr ⟨fun f hf => ?_, List.subset_append_right ..⟩)
    exact List.mem_append_left _ (List.mem_of_mem_filter hf)
  | _ =>
    simp only [Win.fields, RcApart]
    decide +kernel

/-- A register of a field's array lies within it. -/
theorem Fld.off_le_of_here {f : Fld} {o n : Nat} (h : f.here o = some n) : f.off ≤ o ∧ o ≤ f.lastOff := by
  unfold Fld.here at h
  split at h
  · simp only [Option.ite_none_right_eq_some] at h
    unfold Fld.lastOff
    omega
  · simp only [Option.ite_none_right_eq_some] at h
    obtain ⟨⟨hle, hmod, hlt⟩, -⟩ := h
    have hmul : f.stride * ((o - f.off) / f.stride) = o - f.off := Nat.mul_div_cancel' (Nat.dvd_of_mod_eq_zero hmod)
    have hlast : f.stride * ((o - f.off) / f.stride) ≤ f.stride * (f.count - 1) := Nat.mul_le_mul_left _ (by omega)
    unfold Fld.lastOff
    omega

theorem Win.mem_at {wn : Win} {o : Nat} {x : Fld × Nat} : x ∈ wn.at o ↔ x.1 ∈ wn.fields ∧ x.1.here o = some x.2 := by
  obtain ⟨f, n⟩ := x
  simp only [Win.at, List.mem_filterMap, Option.map_eq_some_iff, Prod.mk.injEq]
  constructor
  · rintro ⟨g, hg, m, hm, rfl, rfl⟩
    exact ⟨hg, hm⟩
  · rintro ⟨hf, hn⟩
    exact ⟨f, hf, n, hn, rfl, rfl⟩

theorem Win.lsb_lt_of_mem_at {wn : Win} {o : Nat} {x : Fld × Nat} (hx : x ∈ wn.at o) (rx : x.1.acc = .rc) : x.1.lsb < 32 :=
  (wn.fields_rcApart x.1 (Win.mem_at.mp hx).1 rx).1

/-- Two RC fields of one register with the same lowest bit are one field. -/
theorem Win.at_rc_unique {wn : Win} {o : Nat} {x y : Fld × Nat} (hx : x ∈ wn.at o) (hy : y ∈ wn.at o) (rx : x.1.acc = .rc)
    (ry : y.1.acc = .rc) (h : x.1.lsb = y.1.lsb) : x = y := by
  obtain ⟨fx, ox⟩ := Win.mem_at.mp hx
  obtain ⟨fy, oy⟩ := Win.mem_at.mp hy
  have hsame : x.1 = y.1 := by
    have hxo := Fld.off_le_of_here ox
    have hyo := Fld.off_le_of_here oy
    rcases (wn.fields_rcApart x.1 fx rx).2 y.1 fy ry h with e | hlt | hlt
    · exact e
    · omega
    · omega
  rw [hsame, oy] at ox
  exact Prod.ext hsame (Option.some.inj ox).symm

/-! ### What a read clears -/

/-- What a read does to one field of its register: `w0` is the state it reads. -/
def W.clearSeen (w0 : W) (who : Who) (wn : Win) (w : W) (x : Fld × Nat) : W :=
  if x.1.acc = .rc ∧ w0.sees who wn x.1 x.2 (w0.selIdx wn.base x.1) then w.clearRc wn.base (x.1.at x.2) (w0.selIdx wn.base x.1) else w

/-- A read's clearing touches the registers alone. -/
theorem W.clearSeen_noRegs (w0 : W) (who : Who) (wn : Win) (w : W) (x : Fld × Nat) :
    (w0.clearSeen who wn w x).noRegs = w.noRegs := by
  unfold W.clearSeen
  split <;> rfl

theorem W.each_clearSeen_noRegs (w0 : W) (who : Who) (wn : Win) (l : List (Fld × Nat)) (w : W) :
    (w.each l (w0.clearSeen who wn)).noRegs = w.noRegs :=
  W.each_inv (fun v => v.noRegs = w.noRegs) l _ w rfl (fun v x _ h => (w0.clearSeen_noRegs who wn v x).trans h)

/-- What events of this fc counted is not the clearing's to change. -/
theorem W.clearSeen_evSince (w0 : W) (who : Who) (wn : Win) (w : W) (x : Fld × Nat) (b : Nat) (f : Fld) (i : Nat) :
    (w0.clearSeen who wn w x).evSince b f i = w.evSince b f i := by
  unfold W.clearSeen
  split <;> rfl

/-- A field that is cleared holds what events of this fc counted. -/
theorem W.clearSeen_rd_self {w0 : W} {who : Who} {wn : Win} (w : W) {x : Fld × Nat} (rx : x.1.acc = .rc)
    (sx : w0.sees who wn x.1 x.2 (w0.selIdx wn.base x.1) = true) :
    (w0.clearSeen who wn w x).rd wn.base (x.1.at x.2) (w0.selIdx wn.base x.1)
      = w.evSince wn.base (x.1.at x.2) (w0.selIdx wn.base x.1) % 2 ^ x.1.width := by
  rw [W.clearSeen, if_pos ⟨rx, sx⟩]
  exact W.rd_clearRc_self ..

/-- A field whose lowest bit is another than that of every RC field `y` is left. -/
theorem W.clearSeen_rd_ne (w0 : W) (who : Who) (wn : Win) (w : W) (y : Fld × Nat) (b : Nat) (f : Fld) (i : Nat) (hf : f.lsb < 32)
    (h : y.1.acc = .rc → y.1.lsb < 32 ∧ f.lsb ≠ y.1.lsb) : (w0.clearSeen who wn w y).rd b f i = w.rd b f i := by
  unfold W.clearSeen
  split
  · rename_i hy
    obtain ⟨hlt, hne⟩ := h hy.1
    refine W.rd_wr_ne _ _ _ _ _ _ _ _ ?_
    simp only [Fld.key, Fld.at]
    omega
  · rfl

/-- After the clearing of some fields of one register, an RC field among them, or one that held it before, holds what events of
this fc counted. -/
theorem W.each_clearSeen_rd {w0 : W} {who : Who} {wn : Win} {o : Nat} {x : Fld × Nat} (hx : x ∈ wn.at o) (rx : x.1.acc = .rc)
    (sx : w0.sees who wn x.1 x.2 (w0.selIdx wn.base x.1) = true) (l : List (Fld × Nat)) (hl : l ⊆ wn.at o) (w : W)
    (h : x ∈ l ∨ w.rd wn.base (x.1.at x.2) (w0.selIdx wn.base x.1)
      = w.evSince wn.base (x.1.at x.2) (w0.selIdx wn.base x.1) % 2 ^ x.1.width) :
    (w.each l (w0.clearSeen who wn)).rd wn.base (x.1.at x.2) (w0.selIdx wn.base x.1)
      = w.evSince wn.base (x.1.at x.2) (w0.selIdx wn.base x.1) % 2 ^ x.1.width := by
  induction l generalizing w with
  | nil => exact h.resolve_left List.not_mem_nil
  | cons y l ih =>
    obtain ⟨hy, hl⟩ := List.cons_subset.mp hl
    have hev := W.clearSeen_evSince w0 who wn w y wn.base (x.1.at x.2) (w0.selIdx wn.base x.1)
    refine (ih hl (w0.clearSeen who wn w y) ?_).trans (congrArg (· % 2 ^ x.1.width) hev)
    rw [hev]
    by_cases hxy : x = y
    · subst hxy
      exact Or.inr (W.clearSeen_rd_self w rx sx)
    · have hne (ry : y.1.acc = .rc) : y.1.lsb < 32 ∧ x.1.lsb ≠ y.1.lsb :=
        ⟨Win.lsb_lt_of_mem_at hy ry, fun e => hxy (Win.at_rc_unique hx hy rx ry e)⟩
      rw [W.clearSeen_rd_ne w0 who wn w y wn.base (x.1.at x.2) _ (Win.lsb_lt_of_mem_at hx rx) hne]
      exact h.imp_left (fun hm => (List.mem_cons.mp hm).resolve_left hxy)

/-! ### A plain read -/

/-- The latches after a read of the register at `b` (R102, R483): the low word of herd time, or of a 64-bit counter, latches the
high word. -/
def W.readLatch (w : W) (b : Nat) (who : Who) : Tbl Nat :=
  if b = hrdB + 0x008 ∧ who.priv then w.obs.latch.put (hrdB + 0x00C) (w.herdTime / 2 ^ 32 % 2 ^ 32)
  else match utilLow (winOf b) (b - (winOf b).base) with
    | some lo =>
      if b - (winOf b).base = lo ∧ who.priv then
        w.obs.latch.put (b + 4) (w.rd (winOf b).base (utilF lo) / 2 ^ 32 % 2 ^ 32)
      else w.obs.latch
    | none => w.obs.latch

/-- The registers after a read of the register at `b`. -/
def W.readRegs (w : W) (b : Nat) (who : Who) : Tbl Nat :=
  (W.each { w with obs.latch := w.readLatch b who } ((winOf b).at (b - (winOf b).base)) (w.clearSeen who (winOf b))).regs

/-- A read of a part that is up, at no claim register, changes registers, latches and the value it returns. -/
theorem W.regRead_plain (w : W) {a b : Nat} (who : Who) (hb : b = shareAddr (a / 4 * 4)) (up : w.winUp (winOf b) = true)
    (hc : claimTarget (winOf b) (b - (winOf b).base) = none) :
    w.regRead a who = { w with
      regs := w.readRegs b who
      obs.latch := w.readLatch b who
      sta.regOut := Tbl.set 0 w.sta.regOut b (w.regVal b who) } := by
  have hread : w.regRead a who = (W.each { w with obs.latch := w.readLatch b who } ((winOf b).at (b - (winOf b).base))
      (w.clearSeen who (winOf b))).out b (w.regVal b who) := by
    simp only [W.regRead, ← hb, up, hc, Bool.not_true, Bool.false_eq_true, if_false]
    unfold W.readLatch
    cases utilLow (winOf b) (b - (winOf b).base) with
    | none => dsimp only; split <;> rfl
    | some lo =>
      dsimp only
      split
      · rfl
      · split <;> rfl
  have hframe := W.each_clearSeen_noRegs w who (winOf b) ((winOf b).at (b - (winOf b).base))
    { w with obs.latch := w.readLatch b who }
  rw [hread]
  exact congrArg (fun v : W => W.out { v with regs := w.readRegs b who } b (w.regVal b who)) hframe

/-- The next state after a read command at such an address. -/
theorem run_regRead_plain {s : State} {a b : Nat} (who : Who) (hr : s.inReset = false) (hb : b = shareAddr (a / 4 * 4))
    (up : s.winUp (winOf b) = true) (hc : claimTarget (winOf b) (b - (winOf b).base) = none) :
    run (fun w => w.regRead a who) s = .next { s with
      regs := s.w0.readRegs b who
      obs.latch := s.w0.readLatch b who
      sta.regOut := Tbl.set 0 s.sta.regOut b (s.regVal b who) } := by
  rw [run_up _ hr, State.after]
  simp only [W.regRead_plain { toState := s, stores := [] } who hb up hc]
  rfl

/-- What the RC fields that the reader may see hold after the read. -/
theorem W.readRegs_rc (w : W) {b : Nat} {who : Who} {x : Fld × Nat} (hx : x ∈ (winOf b).at (b - (winOf b).base))
    (rx : x.1.acc = .rc) (sx : w.sees who (winOf b) x.1 x.2 (w.selIdx (winOf b).base x.1) = true) (t : State)
    (ht : t.regs = w.readRegs b who) : t.rd (winOf b).base (x.1.at x.2) (w.selIdx (winOf b).base x.1)
      = w.evSince (winOf b).base (x.1.at x.2) (w.selIdx (winOf b).base x.1) % 2 ^ x.1.width := by
  rw [State.rd_congr ht]
  exact W.each_clearSeen_rd hx rx sx _ (List.Subset.refl _) { w with obs.latch := w.readLatch b who } (.inl hx)

/-! ### Reads that latch -/

/-- The part that holds a counter's low word is no CSRAM and its address no claim register. -/
theorem claimTarget_of_utilLow {wn : Win} {o lo : Nat} (h : utilLow wn o = some lo) : claimTarget wn o = none ∧ wn ≠ .csram := by
  cases wn with
  | stn n =>
    have hge : ¬ o < 0xD60 := fun hlt => by simp [utilLow, hlt] at h
    exact ⟨if_neg (by omega), nofun⟩
  | rtr | msp | ep => exact ⟨rfl, nofun⟩
  | _ => simp [utilLow] at h

/-- A privileged read of the low word of a 64-bit counter returns it. -/
theorem State.regVal_utilLow {s : State} {a : Nat} {who : Who} (hp : who.priv = true) (ha : a = shareAddr (a / 4 * 4))
    (up : s.winUp (winOf a) = true) (hlo : utilLow (winOf a) (a - (winOf a).base) = some (a - (winOf a).base)) :
    s.regVal a who = s.rd (winOf a).base (utilF (a - (winOf a).base)) % 2 ^ 32 := by
  simp [State.regVal, ← ha, up, hlo, hp, (claimTarget_of_utilLow hlo).2]

/-- It latches the high word at the next address. -/
theorem W.readLatch_utilLow {w : W} {a : Nat} {who : Who} (hp : who.priv = true)
    (hlo : utilLow (winOf a) (a - (winOf a).base) = some (a - (winOf a).base)) :
    w.readLatch a who = w.obs.latch.put (a + 4) (w.rd (winOf a).base (utilF (a - (winOf a).base)) / 2 ^ 32 % 2 ^ 32) := by
  have hne : a ≠ hrdB + 0x008 := by
    rintro rfl
    exact absurd hlo (by decide)
  simp [W.readLatch, hne, hlo, hp]

theorem State.sees_of_priv {s : State} {who : Who} (hp : who.priv = true) (wn : Win) (f : Fld) (n i : Nat) :
    s.sees who wn f n i = true := by
  cases who with
  | host | miomus => rfl
  | core => cases hp

/-- A privileged read of the low word of herd time returns it. -/
theorem State.regVal_herdTimeLo (s : State) {who : Who} (hp : who.priv = true) :
    s.regVal (hrdB + 0x008) who = s.herdTime % 2 ^ 32 := by
  have hwin : winOf (hrdB + 0x008) = .hrd := by decide
  have hat : Win.hrd.at 8 = [(KHRD_TIME_LO.time_lo, 0)] := by decide
  have hview : s.fieldVal .hrd KHRD_TIME_LO.time_lo 0 0 = s.herdTime % 2 ^ 32 := rfl
  have hsees : s.sees who .hrd KHRD_TIME_LO.time_lo 0 0 = true := State.sees_of_priv hp ..
  have hsel : s.selIdx Win.hrd.base KHRD_TIME_LO.time_lo = 0 := rfl
  have hshare : shareAddr ((hrdB + 0x008) / 4 * 4) = hrdB + 0x008 := by decide
  have hoff : hrdB + 0x008 - Win.hrd.base = 8 := rfl
  have hutil : utilLow .hrd 8 = none := by decide
  have hup : s.winUp .hrd = true := rfl
  simp only [State.regVal, hshare, hwin, hup, hoff, hutil, hat, List.foldl_cons, List.foldl_nil, hsel, hsees, hview]
  simp [KHRD_TIME_LO.time_lo]

theorem W.readLatch_herdTimeLo (w : W) {who : Who} (hp : who.priv = true) :
    w.readLatch (hrdB + 0x008) who = w.obs.latch.put (hrdB + 0x00C) (w.herdTime / 2 ^ 32 % 2 ^ 32) := by
  simp [W.readLatch, hp]

/-! ### The other accesses -/

/-- The reader may claim at a claim register: a privileged one anywhere, a core in its own station's window. -/
theorem W.regRead_claim {w : W} {a b tgt : Nat} {who : Who} (hb : b = shareAddr (a / 4 * 4)) (up : w.winUp (winOf b) = true)
    (hc : claimTarget (winOf b) (b - (winOf b).base) = some tgt)
    (hw : who.priv = true ∨ ∃ n ctx, winOf b = .stn n ∧ who = .core n ctx) : w.regRead a who = effIrqClaim tgt w := by
  simp only [W.regRead, ← hb, up, hc, Bool.not_true, Bool.false_eq_true, if_false]
  rcases hw with hp | ⟨n, ctx, hwin, rfl⟩
  · cases who with
    | host | miomus => simp [Who.priv]
    | core => cases hp
  · simp [hwin]

/-- A part that is not up returns 0 and ignores writes. -/
theorem W.regRead_down {w : W} {a b : Nat} (who : Who) (hb : b = shareAddr (a / 4 * 4)) (down : w.winUp (winOf b) = false) :
    w.regRead a who = w.out b 0 := by
  simp [W.regRead, ← hb, down]

theorem W.regWrite_down {w : W} {a : Nat} (v : Nat) (who : Who) (down : w.winUp (winOf (shareAddr (a / 4 * 4))) = false) :
    w.regWrite a v who = w := by
  simp [W.regWrite, down]

/-- A part that is up takes a write by its own rules. -/
theorem W.regWrite_up {w : W} {a b : Nat} (v : Nat) (who : Who) (hb : b = shareAddr (a / 4 * 4)) (up : w.winUp (winOf b) = true) :
    w.regWrite a v who = match winOf b with
      | .stn n => w.stnWrite n (b - stnB n) v who
      | wn => if who.priv then w.privWrite wn (b - wn.base) v who else w := by
  simp only [W.regWrite, ← hb, up, Bool.not_true, Bool.false_eq_true, if_false]
  cases winOf b <;> rfl

/-! ### The obligation -/

/-- A plain read returns the register's value and leaves in the RC fields that the reader may see what this fc counted. -/
theorem rcFieldRead_plain {s : State} {a b : Nat} {who : Who} (hr : s.inReset = false) (hb : b = shareAddr (a / 4 * 4))
    (up : s.winUp (winOf b) = true) (hc : claimTarget (winOf b) (b - (winOf b).base) = none) :
    ∃ t, exec (.rcFieldRead a who) s = .next t ∧ Tbl.get 0 t.sta.regOut b = s.regVal b who
      ∧ (∀ x ∈ (winOf b).at (b - (winOf b).base), x.1.acc = .rc →
          s.sees who (winOf b) x.1 x.2 (s.selIdx (winOf b).base x.1) = true →
          t.rd (winOf b).base (x.1.at x.2) (s.selIdx (winOf b).base x.1)
            = s.evSince (winOf b).base (x.1.at x.2) (s.selIdx (winOf b).base x.1) % 2 ^ x.1.width)
      ∧ t.mem = s.mem ∧ t.net = s.net ∧ t.flt = s.flt :=
  ⟨_, run_regRead_plain who hr hb up hc, Tbl.get_set_self .., fun _ hx rx sx => W.readRegs_rc s.w0 hx rx sx _ rfl, rfl, rfl, rfl⟩

/-- A privileged read of the low word of herd time returns it and latches the high word. -/
theorem khrdTimeLoRead_latches {s : State} {who : Who} (hr : s.inReset = false) (hp : who.priv = true) :
    ∃ t, exec (.khrdTimeLoRead who) s = .next t ∧ Tbl.get 0 t.sta.regOut (hrdB + 8) = s.herdTime % 2 ^ 32
      ∧ Tbl.get 0 t.obs.latch (hrdB + 12) = s.herdTime / 2 ^ 32 % 2 ^ 32 ∧ t.mem = s.mem ∧ t.herdTime = s.herdTime := by
  refine ⟨_, run_regRead_plain (b := hrdB + 8) who hr (by decide) rfl (by decide), ?_, ?_, rfl, rfl⟩
  · exact (Tbl.get_set_self ..).trans (s.regVal_herdTimeLo hp)
  · rw [W.readLatch_herdTimeLo _ hp]
    exact Tbl.get_put_self ..

/-- A privileged read of the low word of a 64-bit counter returns it and latches the high word. -/
theorem counterLowWordRead_latches {s : State} {a : Nat} {who : Who} (hr : s.inReset = false) (hp : who.priv = true)
    (ha : a = shareAddr (a / 4 * 4)) (up : s.winUp (winOf a) = true)
    (hlo : utilLow (winOf a) (a - (winOf a).base) = some (a - (winOf a).base)) :
    ∃ t, exec (.counterLowWordRead a who) s = .next t
      ∧ Tbl.get 0 t.sta.regOut a = s.rd (winOf a).base (utilF (a - (winOf a).base)) % 2 ^ 32
      ∧ Tbl.get 0 t.obs.latch (a + 4) = s.rd (winOf a).base (utilF (a - (winOf a).base)) / 2 ^ 32 % 2 ^ 32
      ∧ t.mem = s.mem ∧ t.net = s.net := by
  refine ⟨_, run_regRead_plain who hr ha up (claimTarget_of_utilLow hlo).1, ?_, ?_, rfl, rfl⟩
  · exact (Tbl.get_set_self ..).trans (State.regVal_utilLow hp ha up hlo)
  · rw [W.readLatch_utilLow hp hlo]
    exact Tbl.get_put_self ..

/-- Settles O19: a read at a plain address, at a claim register, at a part that is not up, at a low word; a write at a part that is
up and at one that is not. -/
theorem registerAccessesAct : Obligations.RegisterAccessesAct := by
  refine ⟨?_, ?_, ?_, ?_, ?_, ?_, ?_⟩
  · rintro s a who b wn hr hb rfl up hc
    exact rcFieldRead_plain hr hb up hc
  · rintro s a who b wn tgt hr hb rfl up hc hw
    exact run_eq hr (W.regRead_claim hb up hc hw)
  · intro s a who b hr hb down
    exact run_eq (g := fun w => w.out b 0) hr (W.regRead_down who hb down)
  · intro s who hr hp
    exact khrdTimeLoRead_latches hr hp
  · rintro s a who wn hr hp ha rfl up hlo
    exact counterLowWordRead_latches hr hp ha up hlo
  · intro s a v who b hr hb up
    exact run_eq hr (W.regWrite_up v who hb up)
  · intro s a v who hr down
    exact run_eq (g := id) hr (W.regWrite_down v who down)

end Sys2Proof.Machine
end

section
/-! PROOFS. The fabric cycle (R58, R59, R440) and the state after reset. -/

namespace Sys2Proof.Machine

theorem step_idle {s : State} (h : s.pending = []) : step s = .next (s.after effTick) := by
  simp only [step, h, runPin]

/-- An effect that leaves the whole state as it is leaves the state as it was. -/
theorem State.after_eq_self {s : State} {f : W → W} (h : f s.w0 = s.w0) : s.after f = s := by
  rw [State.w0] at h
  rw [State.after, h]
  rfl

/-- Without power, or without a clock, a cycle does nothing. -/
theorem effTick_off {w : W} (h : w.boot.porstN = false ∨ w.boot.pwrgd = false ∨ w.boot.clk = false) : effTick w = w := by
  have hoff : (w.boot.porstN && w.boot.pwrgd && w.boot.clk) = false := by
    rcases h with h | h | h
    all_goals simp [h]
  simp [effTick, hoff]

/-- With the host's reset low a cycle counts fc and herd time, and does no more. -/
theorem effTick_hostReset {w : W} (hp : w.boot.porstN = true) (hg : w.boot.pwrgd = true) (hc : w.boot.clk = true)
    (hh : w.boot.hrstN = false) : effTick w = { w with fc := w.fc + 1, herdTime := (w.herdTime + 1) % 2 ^ 64 } := by
  simp [effTick, hp, hg, hc, hh]

theorem W.irqRecount_regs (w : W) : w.irqRecount.regs = w.regs := by
  unfold W.irqRecount
  dsimp only
  split
  · rfl
  · rfl

/-- Where no fatal fault waits for its entry, the cycle's end counts fc and herd time, gives up the kept register values, and
changes neither registers nor memories. -/
theorem W.advance_counts {w : W} (h : w.flt.entryFc = none) :
    w.advance.fc = w.fc + 1 ∧ w.advance.herdTime = (w.herdTime + 1) % 2 ^ 64 ∧ w.advance.shadow = []
      ∧ w.advance.stores = w.stores ∧ w.advance.regs = w.regs := by
  have hbare := w.irqRecount_bare
  have hflt : w.irqRecount.flt.entryFc = none := by rw [W.flt_of_bare hbare, h]
  unfold W.advance
  dsimp only
  rw [← W.fc_of_bare hbare, ← W.herdTime_of_bare hbare, ← W.stores_of_bare hbare, ← w.irqRecount_regs]
  cases w.irqRecount.isPaused
  all_goals simp [hflt]

/-- Settles O2: `step` runs the cycle's effect where the queue is empty. -/
theorem stepIdles : Obligations.StepIdles := fun _ h => step_idle h

/-- Settles O59: the three cases of the cycle. -/
theorem cycleCounts : Obligations.CycleCounts := by
  refine ⟨?_, ?_, ?_⟩
  · intro s hq hoff
    rw [step_idle hq, State.after_eq_self (effTick_off hoff)]
  · intro s hq hp hg hc hh
    rw [step_idle hq, State.after, effTick_hostReset hp hg hc hh]
    rfl
  · intro s h
    obtain ⟨hfc, htime, hshadow, hstores, hregs⟩ := W.advance_counts (w := s.w0) h
    refine ⟨hfc, htime, hshadow, ?_, hregs⟩
    exact congrArg s.mem.apply hstores

/-- Settles O56: nothing is stored in any memory, and nothing waits (assumption log row 4). -/
theorem resetIsSafe : Obligations.ResetIsSafe := by
  refine ⟨?_, rfl, rfl, rfl⟩
  unfold Safe Memory.wf
  decide

end Sys2Proof.Machine
end

section
/-! PROOFS. Herd time (R60 to R65, R328 to R330): the registers of the window of herd time and plates, what the unit's shared
operations do, and its events. -/

namespace Sys2Proof.Machine

/-! ### The registers of the window of herd time and plates -/

/-- A field of this window in a place where no queue's count of running commands can stand. -/
def Fld.onHrd (f : Fld) : Bool := f.lsb < 32 && f.lsb != 8 && f.off < 0x2000

theorem Fld.onHrd_iff {f : Fld} : f.onHrd = true ↔ f.lsb < 32 ∧ f.lsb ≠ 8 ∧ f.off < 0x2000 := by
  simp [Fld.onHrd, and_assoc]

theorem Fld.onHrd_offTrace {f : Fld} (h : f.onHrd = true) : offTrace hrdB f := by
  obtain ⟨hlsb, -, hoff⟩ := Fld.onHrd_iff.mp h
  refine ⟨hlsb, .inl ?_⟩
  unfold hrdB
  omega

/-- The count of running commands stands at lowest bit 8 of its register, whatever the queue's number. -/
theorem Fld.onHrd_key_ne_running {f : Fld} (h : f.onHrd = true) (q : Nat) :
    f.key hrdB 0 ≠ KCMD_QHEAD.running.key (cmdB q) 0 := by
  obtain ⟨hlsb, hne, -⟩ := Fld.onHrd_iff.mp h
  simp only [Fld.key, KCMD_QHEAD.running]
  omega

theorem W.answerAt_hrd (w : W) (q slot st stamp : Nat) (rd : List Byte) {g : Fld} (h : g.onHrd = true) :
    (w.answerAt q slot st stamp rd).rd hrdB g = w.rd hrdB g :=
  W.answerAt_rd _ _ _ _ _ _ _ _ _ (Fld.onHrd_offTrace h) (Fld.onHrd_key_ne_running h q)

theorem W.answer_hrd (w : W) (q slot st : Nat) (rd : List Byte) {g : Fld} (h : g.onHrd = true) :
    (w.answer q slot st rd).rd hrdB g = w.rd hrdB g := W.answerAt_hrd _ _ _ _ _ _ h

theorem W.tracePlt_hrd (w : W) (e v i : Nat) {g : Fld} (h : g.onHrd = true) : (w.tracePlt e v i).rd hrdB g = w.rd hrdB g :=
  W.tracePlt_rd _ _ _ _ _ _ _ (Fld.onHrd_offTrace h)

theorem State.hrdStatus_congr {v w : State} (h : ∀ g : Fld, g.onHrd = true → v.rd hrdB g = w.rd hrdB g) : v.hrdStatus = w.hrdStatus := by
  have key (g : Fld) (hg : g.onHrd = true) : v.rd hrdB g = w.rd hrdB g := h g hg
  simp only [State.hrdStatus, State.reg32, List.foldl_cons, List.foldl_nil]
  rw [key KHRD_STATUS.state rfl, key KHRD_STATUS.free_run rfl, key KHRD_STATUS.ref_port rfl, key KHRD_STATUS.step_count rfl]

/-- A command that is answered with KHRD_STATUS has what the register then shows. -/
theorem W.answer_hrdStatus (w : W) (q slot st : Nat) (rd : List Byte) : (w.answer q slot st rd).hrdStatus = w.hrdStatus :=
  State.hrdStatus_congr fun _ h => W.answer_hrd _ _ _ _ _ h

/-! ### The unit's state, and the end of an arm -/

@[simp] theorem W.setHtu_bare (w : W) (v : Nat) : (w.setHtu v).bare = w.bare := by simp [W.setHtu]

theorem W.setHtu_htu (w : W) (v : Nat) : (w.setHtu v).htu = v % 2 ^ 3 := by
  rw [W.setHtu, State.htu, W.tracePlt_hrd _ _ _ _ rfl, W.rd_wr_self]
  rfl

/-- A change of the unit's state leaves every other field of the window. -/
theorem W.setHtu_hrd (w : W) (v : Nat) {g : Fld} (h : g.onHrd = true) (hne : g.key hrdB 0 ≠ KHRD_STATUS.state.key hrdB 0) :
    (w.setHtu v).rd hrdB g = w.rd hrdB g := by
  rw [W.setHtu, W.tracePlt_hrd _ _ _ _ h, W.rd_wr_ne _ _ _ _ _ _ _ _ hne]

/-- A state without what the end of a command and the end of an arm touch. -/
def W.bareA (w : W) : W := { w.bareB with plt.arm := none, plt.swapFire := false }

theorem W.armEnd_bareA (w : W) (st : Nat) : (w.armEnd st).bareA = w.bareA := by
  unfold W.armEnd
  split
  · rfl
  · unfold W.bareA
    rw [W.answer_bareB]
    rfl

theorem W.armEnd_arm (w : W) (st : Nat) : (w.armEnd st).plt.arm = none := by
  unfold W.armEnd
  split
  · assumption
  · simp

theorem W.armEnd_fc (w : W) (st : Nat) : (w.armEnd st).fc = w.fc :=
  by have e := congrArg (fun x : W => x.fc) (w.armEnd_bareA st); exact e
theorem W.armEnd_herdTime (w : W) (st : Nat) : (w.armEnd st).herdTime = w.herdTime :=
  by have e := congrArg (fun x : W => x.herdTime) (w.armEnd_bareA st); exact e
theorem W.armEnd_stores (w : W) (st : Nat) : (w.armEnd st).stores = w.stores :=
  by have e := congrArg (fun x : W => x.stores) (w.armEnd_bareA st); exact e
theorem W.armEnd_net (w : W) (st : Nat) : (w.armEnd st).net = w.net :=
  by have e := congrArg (fun x : W => x.net) (w.armEnd_bareA st); exact e
theorem W.armEnd_active (w : W) (st : Nat) : (w.armEnd st).plt.active = w.plt.active :=
  by have e := congrArg (fun x : W => x.plt.active) (w.armEnd_bareA st); exact e

/-- The end of an arm changes `arm_pending` alone in its window. -/
theorem W.armEnd_hrd (w : W) (st : Nat) {g : Fld} (h : g.onHrd = true)
    (hne : g.key hrdB 0 ≠ KPLT_STATUS.arm_pending.key hrdB 0) : (w.armEnd st).rd hrdB g = w.rd hrdB g := by
  unfold W.armEnd
  split
  · rfl
  · rw [W.answer_hrd _ _ _ _ _ h, W.rd_wr_ne _ _ _ _ _ _ _ _ hne]
    rfl

/-! ### The next state of an effect -/

@[simp] theorem State.w0_toState (s : State) : s.w0.toState = s := rfl
@[simp] theorem State.w0_stores (s : State) : s.w0.stores = [] := rfl

theorem State.after_mem_of_no_stores {s : State} {f : W → W} (h : (f s.w0).stores = []) : (s.after f).mem = s.mem := by
  rw [State.w0] at h
  rw [State.after_mem, h]
  rfl

theorem run_const {s : State} {f : W → W} {v : W} (hr : s.inReset = false) (h : f s.w0 = v) :
    run f s = .next (s.after fun _ => v) := run_eq hr h

theorem State.miomusUp_of_cmdAt {s : State} {q slot op : Nat} {c : Cmd} (h : s.cmdAt q slot op = some c) : s.miomusUp = true := by
  cases hup : s.miomusUp
  · simp [State.cmdAt, hup] at h
  · rfl

/-- The next state of a command whose effect is `v` and then its answer, where `v` has the commands, herd time and packets of `s`
and has stored nothing. -/
theorem State.after_answer {s : State} {v : W} {q slot st : Nat} {rd : List Byte} {c : Cmd} (hc : s.cmdOf q slot = some c)
    (up : s.miomusUp = true) (hb : v.boot = s.boot) (ht : v.herdTime = s.herdTime) (hs : v.stores = []) (hn : v.net = s.net) :
    let t := s.after fun _ => v.answer q slot st rd
    Answered s t q c st rd ∧ t.herdTime = s.herdTime ∧ t.mem = s.mem ∧ t.net = s.net ∧ t.plt = v.plt
      ∧ t.hrdStatus = v.hrdStatus ∧ ∀ g : Fld, g.onHrd = true → t.rd hrdB g = v.rd hrdB g := by
  have hans := answered_of s v q slot st rd c hc up hb ht
  have htime : (v.answer q slot st rd).herdTime = s.herdTime := by rw [W.answer_herdTime, ht]
  have hstores : (v.answer q slot st rd).stores = [] := by rw [W.answer_stores, hs]
  have hnet : (v.answer q slot st rd).net = s.net := by rw [W.answer_net, hn]
  have hplt := W.answer_plt v q slot st rd
  have hstat := W.answer_hrdStatus v q slot st rd
  have hrd := fun (g : Fld) (h : g.onHrd = true) => W.answer_hrd v q slot st rd h
  generalize v.answer q slot st rd = w at *
  exact ⟨hans.congr rfl, htime, State.after_mem_of_no_stores hstores, hnet, hplt, hstat, hrd⟩

/-! ### HERD_LOCK -/

/-- HERD_LOCK in edge mode, unlocked or in a free run without a plate, starts to acquire. -/
theorem effHerdLockEdge_acquire {w : W} {q slot : Nat} {c : Cmd} (hc : w.cmdAt q slot 0x0010 = some c)
    (he : bit (le c.bytes 16 1) 0 = false) (h1 : w.htu ≠ 1) (h3 : w.htu ≠ 3)
    (hl : w.locked = true → w.freeRun = true ∧ w.plateBusy = false) (hp : w.epsOf (le c.bytes 24 8) ≠ []) :
    effHerdLockEdge q slot w = w.acquire q slot (le c.bytes 24 8) := by
  have hedge : (w.locked && !w.freeRun) = false := by
    cases hk : w.locked
    · rfl
    · simp [hl hk]
  have hbusy : (w.locked && w.freeRun && w.plateBusy) = false := by
    cases hk : w.locked
    · rfl
    · simp [hl hk]
  have hok : firstOf [(w.epsOf (le c.bytes 24 8) == [], BADOP), (w.htu == 1 || w.htu == 3, BUSY),
      (w.locked && w.freeRun && w.plateBusy, BUSY), ((w.locked && !w.freeRun) && le c.bytes 24 8 == w.plt.ports, ALREADY)] = OK :=
    firstOf_none (by simp [hp, h1, h3, hbusy, hedge])
  simp only [effHerdLockEdge, hc, he, hok]
  simp [hedge]

/-- Locked in edge mode, with another list of ports, it takes the list and its best port. -/
theorem effHerdLockEdge_newPorts {w : W} {q slot e : Nat} {c : Cmd} (hc : w.cmdAt q slot 0x0010 = some c)
    (he : bit (le c.bytes 16 1) 0 = false) (hl : w.locked = true) (hf : w.freeRun = false) (hp : w.epsOf (le c.bytes 24 8) ≠ [])
    (hn : w.plt.ports ≠ le c.bytes 24 8) (hb : w.bestPort (le c.bytes 24 8) = some e) :
    effHerdLockEdge q slot w =
      let v : W := W.wr { w with plt.ports := le c.bytes 24 8 } hrdB KHRD_STATUS.ref_port e
      v.answer q slot OK (toLE 4 v.hrdStatus) := by
  have hs : w.htu = 2 := by simpa [State.locked, State.htu] using hl
  have hok : firstOf [(w.epsOf (le c.bytes 24 8) == [], BADOP), (w.htu == 1 || w.htu == 3, BUSY),
      (w.locked && w.freeRun && w.plateBusy, BUSY), ((w.locked && !w.freeRun) && le c.bytes 24 8 == w.plt.ports, ALREADY)] = OK :=
    firstOf_none (by simp [hp, hs, hf, Ne.symm hn])
  have hb' : State.bestPort { w.toState with plt.ports := le c.bytes 24 8 } (le c.bytes 24 8) = some e := hb
  simp only [effHerdLockEdge, hc, he, hok]
  simp [hl, hf, hb']

theorem W.wr_regs (w : W) (b : Nat) (f : Fld) (v i : Nat) :
    (w.wr b f v i).regs = Tbl.set (f.dflt i) w.regs (f.key b i) (v % 2 ^ f.width) := rfl

/-- What the start of an acquisition leaves of the unit's state, and beside it. -/
theorem W.acquire_plt (w : W) (q slot ports : Nat) : let p := (w.acquire q slot ports).plt
    p.ports = ports ∧ p.acqT = w.fc ∧ p.stepped = false ∧ p.arm = none ∧ p.reply = some (q, slot) := by
  simp [W.acquire, W.cmdStage, W.setHtu, W.armEnd_fc, W.armEnd_arm]

theorem W.acquire_rest (w : W) (q slot ports : Nat) : let v := w.acquire q slot ports
    v.herdTime = w.herdTime ∧ v.stores = w.stores ∧ v.net = w.net := by
  simp [W.acquire, W.cmdStage, W.setHtu, W.armEnd_herdTime, W.armEnd_stores, W.armEnd_net]

theorem W.acquire_regs (w : W) (q slot ports : Nat) : (w.acquire q slot ports).regs
    = ((((w.armEnd NOHERD).setHtu 1).wr hrdB KHRD_STATUS.free_run 0).wr hrdB KHRD_OFFSET.words_ok 0).regs := by
  simp only [W.acquire, W.cmdStage, W.wr_regs]

theorem W.acquire_htu (w : W) (q slot ports : Nat) : (w.acquire q slot ports).htu = 1 := by
  rw [State.htu, State.rd_congr (W.acquire_regs ..), W.rd_wr_ne _ _ _ _ _ _ _ _ (by decide),
    W.rd_wr_ne _ _ _ _ _ _ _ _ (by decide)]
  exact W.setHtu_htu ..

theorem W.acquire_freeRun (w : W) (q slot ports : Nat) : (w.acquire q slot ports).rd hrdB KHRD_STATUS.free_run = 0 := by
  rw [State.rd_congr (W.acquire_regs ..), W.rd_wr_ne _ _ _ _ _ _ _ _ (by decide), W.rd_wr_self]
  rfl

theorem herdLockEdge_acquires {s : State} {q slot : Nat} {c : Cmd} (hr : s.inReset = false) (hc : s.Runs q slot 0x0010 c)
    (he : bit (le c.bytes 16 1) 0 = false) (h1 : s.htu ≠ 1) (h3 : s.htu ≠ 3)
    (hl : s.locked = true → s.freeRun = true ∧ s.plateBusy = false) (hp : s.epsOf (le c.bytes 24 8) ≠ []) :
    ∃ t, exec (.herdLockEdge q slot) s = .next t ∧ t.htu = 1 ∧ t.rd hrdB KHRD_STATUS.free_run = 0
      ∧ t.plt.ports = le c.bytes 24 8 ∧ t.plt.acqT = s.fc ∧ t.plt.stepped = false ∧ t.plt.arm = none
      ∧ t.plt.reply = some (q, slot) ∧ t.herdTime = s.herdTime ∧ t.mem = s.mem ∧ t.net = s.net := by
  have heff := effHerdLockEdge_acquire (w := s.w0) hc.1 he h1 h3 hl hp
  have hhtu := s.w0.acquire_htu q slot (le c.bytes 24 8)
  have hfree := s.w0.acquire_freeRun q slot (le c.bytes 24 8)
  obtain ⟨hports, hacq, hstep, harm, hreply⟩ := s.w0.acquire_plt q slot (le c.bytes 24 8)
  obtain ⟨htime, hstores, hnet⟩ := s.w0.acquire_rest q slot (le c.bytes 24 8)
  generalize s.w0.acquire q slot (le c.bytes 24 8) = w at *
  exact ⟨s.after fun _ => w, run_const hr heff, hhtu, hfree, hports, hacq, hstep, harm, hreply, htime,
    State.after_mem_of_no_stores hstores, hnet⟩

theorem herdLockEdge_takesPorts {s : State} {q slot e : Nat} {c : Cmd} (hr : s.inReset = false) (hc : s.Runs q slot 0x0010 c)
    (he : bit (le c.bytes 16 1) 0 = false) (hl : s.locked = true) (hf : s.freeRun = false) (hp : s.epsOf (le c.bytes 24 8) ≠ [])
    (hn : s.plt.ports ≠ le c.bytes 24 8) (hb : s.bestPort (le c.bytes 24 8) = some e) (h64 : e < 64) :
    ∃ t, exec (.herdLockEdge q slot) s = .next t ∧ t.htu = 2 ∧ t.plt.ports = le c.bytes 24 8
      ∧ t.rd hrdB KHRD_STATUS.ref_port = e ∧ Answered s t q c OK (toLE 4 t.hrdStatus) ∧ t.herdTime = s.herdTime ∧ t.mem = s.mem
      ∧ t.net = s.net := by
  obtain ⟨hat, hof⟩ := hc
  have heff := effHerdLockEdge_newPorts (w := s.w0) hat he hl hf hp hn hb
  obtain ⟨v, hv⟩ : ∃ v : W, v = W.wr { s.w0 with plt.ports := le c.bytes 24 8 } hrdB KHRD_STATUS.ref_port e := ⟨_, rfl⟩
  have hhtu : v.htu = 2 := by
    rw [hv]
    refine (W.rd_wr_ne _ _ _ _ _ _ _ _ (by decide)).trans ((State.rd_congr (w := s) rfl ..).trans ?_)
    simpa [State.locked] using hl
  have href : v.rd hrdB KHRD_STATUS.ref_port = e := by
    rw [hv]
    exact W.rd_wr_val _ _ _ _ _ _ (Nat.mod_eq_of_lt h64)
  have hports : v.plt.ports = le c.bytes 24 8 := by simp [hv]
  obtain ⟨hans, htime, hmem, hnet, hplt, hstat, hrd⟩ := State.after_answer (v := v) (st := OK) (rd := toLE 4 v.hrdStatus) hof
    (State.miomusUp_of_cmdAt hat) (by simp [hv]) (by simp [hv]) (by simp [hv]) (by simp [hv])
  rw [← hv] at heff
  exact ⟨_, run_const hr heff, (hrd _ rfl).trans hhtu, by rw [hplt, hports], (hrd _ rfl).trans href, by rwa [hstat], htime, hmem, hnet⟩

/-- HERD_LOCK in free-run mode, outside ACQUIRE and LOST, locks a free run. -/
theorem effHerdLockFreeRun_lock {w : W} {q slot : Nat} {c : Cmd} (hc : w.cmdAt q slot 0x0010 = some c)
    (he : bit (le c.bytes 16 1) 0 = true) (h1 : w.htu ≠ 1) (h3 : w.htu ≠ 3)
    (hl : w.locked = true → w.freeRun = false ∧ w.plateBusy = false) :
    ∃ v : W, effHerdLockFreeRun q slot w = v.answer q slot OK (toLE 4 v.hrdStatus) ∧ v.htu = 2
      ∧ v.rd hrdB KHRD_STATUS.free_run = 1 ∧ v.bare = w.bare := by
  have hbusy : (w.locked && !w.freeRun && w.plateBusy) = false := by
    cases hk : w.locked
    · rfl
    · simp [hl hk]
  have hfree : (w.locked && w.freeRun) = false := by
    cases hk : w.locked
    · rfl
    · simp [hl hk]
  have hok : firstOf [(w.htu == 1 || w.htu == 3, BUSY), (w.locked && !w.freeRun && w.plateBusy, BUSY),
      (w.locked && w.freeRun, ALREADY)] = OK := firstOf_none (by simp [h1, h3, hbusy, hfree])
  have hlock : (if w.locked then w else (w.setHtu 2).irqP 33).htu = 2 := by
    split
    · rename_i hk
      simpa [State.locked, State.htu] using hk
    · exact (W.irqP_rd ..).trans (W.setHtu_htu ..)
  have hbare : (if w.locked then w else (w.setHtu 2).irqP 33).bare = w.bare := by
    split
    · rfl
    · simp
  refine ⟨(if w.locked then w else (w.setHtu 2).irqP 33).wr hrdB KHRD_STATUS.free_run 1, ?_, ?_, W.rd_wr_self .., hbare⟩
  · simp only [effHerdLockFreeRun, hc, he, hok]
    simp
  · exact (W.rd_wr_ne _ _ _ _ _ _ _ _ (by decide)).trans hlock

theorem herdLockFreeRun_locks {s : State} {q slot : Nat} {c : Cmd} (hr : s.inReset = false) (hc : s.Runs q slot 0x0010 c)
    (he : bit (le c.bytes 16 1) 0 = true) (h1 : s.htu ≠ 1) (h3 : s.htu ≠ 3)
    (hl : s.locked = true → s.freeRun = false ∧ s.plateBusy = false) :
    ∃ t, exec (.herdLockFreeRun q slot) s = .next t ∧ t.htu = 2 ∧ t.rd hrdB KHRD_STATUS.free_run = 1
      ∧ Answered s t q c OK (toLE 4 t.hrdStatus) ∧ t.herdTime = s.herdTime ∧ t.plt = s.plt ∧ t.mem = s.mem ∧ t.net = s.net := by
  obtain ⟨hat, hof⟩ := hc
  obtain ⟨v, heff, hhtu, hfree, hbare⟩ := effHerdLockFreeRun_lock (w := s.w0) hat he h1 h3 hl
  obtain ⟨hans, htime, hmem, hnet, hplt, hstat, hrd⟩ := State.after_answer (v := v) (st := OK) (rd := toLE 4 v.hrdStatus) hof
    (State.miomusUp_of_cmdAt hat) (W.boot_of_bare hbare) (W.herdTime_of_bare hbare) (W.stores_of_bare hbare) (W.net_of_bare hbare)
  exact ⟨_, run_const hr heff, (hrd _ rfl).trans hhtu, (hrd _ rfl).trans hfree, by rwa [hstat], htime,
    hplt.trans (W.plt_of_bare hbare), hmem, hnet⟩

/-! ### Loss, time-out, and the reference port -/

/-- The registers of the window after the loss of lock: those of the change of state and the count of losses, but for
`arm_pending`. -/
theorem W.enterLost_hrd (w : W) {g : Fld} (h : g.onHrd = true) (hne : g.key hrdB 0 ≠ KPLT_STATUS.arm_pending.key hrdB 0) :
    w.enterLost.rd hrdB g = ((w.setHtu 3).inc hrdB KHRD_LOSS_CNT.loss_count).rd hrdB g := by
  have hend := W.armEnd_hrd (((w.setHtu 3).inc hrdB KHRD_LOSS_CNT.loss_count).irqP 32) NOHERD h hne
  rw [W.irqP_rd] at hend
  rw [← hend]
  unfold W.enterLost
  dsimp only
  generalize W.armEnd _ NOHERD = v
  split
  · rfl
  · rfl

theorem W.enterLost_htu (w : W) : w.enterLost.htu = 3 := by
  rw [State.htu, W.enterLost_hrd w rfl (by decide), W.rd_inc_ne _ _ _ _ _ _ _ _ (by decide)]
  exact W.setHtu_htu ..

theorem W.enterLost_lossCount (w : W) :
    w.enterLost.rd hrdB KHRD_LOSS_CNT.loss_count = satAdd 16 (w.rd hrdB KHRD_LOSS_CNT.loss_count) 1 := by
  rw [W.enterLost_hrd w rfl (by decide), W.rd_inc_self, W.setHtu_hrd w 3 rfl (by decide)]
  exact Nat.mod_eq_of_lt (by simp only [satAdd, KHRD_LOSS_CNT.loss_count]; omega)

/-- What the loss of lock leaves of the unit's state (R60, R97), and beside it. -/
theorem W.enterLost_plt (w : W) : let v := w.enterLost
    v.plt.arm = none ∧ (w.activeValid = true → v.plt.haltPend = some w.fc) ∧ v.plt.active = w.plt.active
      ∧ v.herdTime = w.herdTime ∧ v.stores = w.stores ∧ v.net = w.net := by
  have hvalid : ((((w.setHtu 3).inc hrdB KHRD_LOSS_CNT.loss_count).irqP 32).armEnd NOHERD).activeValid = w.activeValid := by
    rw [State.activeValid, W.armEnd_hrd _ _ rfl (by decide), W.irqP_rd, W.rd_inc_ne _ _ _ _ _ _ _ _ (by decide),
      W.setHtu_hrd w 3 rfl (by decide)]
    rfl
  unfold W.enterLost
  dsimp only
  rw [hvalid]
  cases w.activeValid
  all_goals simp [W.setHtu, W.armEnd_arm, W.armEnd_active, W.armEnd_fc, W.armEnd_herdTime, W.armEnd_stores, W.armEnd_net]

theorem lossWindowExpiry_loses {s : State} (hr : s.inReset = false) (hl : s.locked = true) (hf : s.freeRun = false)
    (hw : 2 ^ s.lossWin ≤ since s.herdTime s.plt.lastWord) :
    ∃ t, exec .lossWindowExpiry s = .next t ∧ t.htu = 3 ∧ t.plt.arm = none
      ∧ (s.activeValid = true → t.plt.haltPend = some s.fc)
      ∧ t.rd hrdB KHRD_LOSS_CNT.loss_count = satAdd 16 (s.rd hrdB KHRD_LOSS_CNT.loss_count) 1
      ∧ t.herdTime = s.herdTime ∧ t.plt.active = s.plt.active ∧ t.mem = s.mem ∧ t.net = s.net := by
  have heff : effLossWindowExpiry s.w0 = s.w0.enterLost := if_pos ⟨hl, by simp [hf], hw⟩
  have hhtu := s.w0.enterLost_htu
  have hcount := s.w0.enterLost_lossCount
  obtain ⟨harm, hhalt, hactive, htime, hstores, hnet⟩ := s.w0.enterLost_plt
  generalize s.w0.enterLost = v at *
  exact ⟨_, run_const hr heff, hhtu, harm, hhalt, hcount, htime, hactive, State.after_mem_of_no_stores hstores, hnet⟩

theorem acquireTimeout_backToLost {s : State} (hr : s.inReset = false) (h1 : s.htu = 1) (ht : s.plt.acqT + 2 ^ 27 ≤ s.fc)
    (hl : s.plt.fromLost = true) :
    ∃ t, exec .acquireTimeout s = .next t ∧ t.htu = 3 ∧ t.plt = s.plt ∧ t.herdTime = s.herdTime ∧ t.mem = s.mem ∧ t.net = s.net := by
  have heff : effAcquireTimeout s.w0 = s.w0.setHtu 3 := (if_pos ⟨h1, ht⟩).trans (if_pos hl)
  have hhtu : (s.w0.setHtu 3).htu = 3 := W.setHtu_htu ..
  have hbare := s.w0.setHtu_bare 3
  generalize s.w0.setHtu 3 = v at *
  exact ⟨_, run_const hr heff, hhtu, W.plt_of_bare hbare, W.herdTime_of_bare hbare,
    State.after_mem_of_no_stores (W.stores_of_bare hbare), W.net_of_bare hbare⟩

theorem acquireTimeout_answers {s : State} {q slot : Nat} {c : Cmd} (hr : s.inReset = false) (h1 : s.htu = 1)
    (ht : s.plt.acqT + 2 ^ 27 ≤ s.fc) (hl : s.plt.fromLost = false) (hp : s.plt.reply = some (q, slot))
    (hc : s.cmdOf q slot = some c) (up : s.miomusUp = true) :
    ∃ t, exec .acquireTimeout s = .next t ∧ t.htu = 0 ∧ t.plt.reply = none ∧ Answered s t q c TIMEOUT []
      ∧ t.herdTime = s.herdTime ∧ t.mem = s.mem ∧ t.net = s.net := by
  have hbare := s.w0.setHtu_bare 0
  have hhtu : (s.w0.setHtu 0).htu = 0 := W.setHtu_htu ..
  have heff : effAcquireTimeout s.w0 = W.answer { s.w0.setHtu 0 with plt.reply := none } q slot TIMEOUT := by
    have hreply : (s.w0.setHtu 0).plt.reply = some (q, slot) := by rw [W.plt_of_bare hbare]; exact hp
    unfold effAcquireTimeout
    rw [if_pos ⟨h1, ht⟩, if_neg (by simp [hl])]
    dsimp only
    rw [hreply]
  generalize s.w0.setHtu 0 = v at *
  obtain ⟨hans, htime, hmem, hnet, hplt, -, hrd⟩ := State.after_answer (v := { v with plt.reply := none }) (st := TIMEOUT) (rd := [])
    hc up (W.boot_of_bare hbare) (W.herdTime_of_bare hbare) (W.stores_of_bare hbare) (W.net_of_bare hbare)
  exact ⟨_, run_const hr heff, (hrd _ rfl).trans hhtu, by rw [hplt], hans, htime, hmem, hnet⟩

/-- What a table finds under a key is one of its pairs. -/
theorem Tbl.mem_of_find {α : Type} {t : Tbl α} {k : Nat} {v : α} (h : t.find k = some v) : (k, v) ∈ t := by
  induction t with
  | nil => cases h
  | cons e t ih =>
    obtain ⟨j, x⟩ := e
    rw [Tbl.find] at h
    split at h
    · rename_i hj
      cases h
      exact hj ▸ List.mem_cons_self
    · exact List.mem_cons_of_mem _ (ih h)

theorem refPortChange_takes {s : State} {e : Nat} (hr : s.inReset = false) (hf : s.freeRun = false) (hh : s.htu = 1 ∨ s.htu = 2)
    (hs : ∀ x ∈ s.plt.portWord, x.1 = s.rd hrdB KHRD_STATUS.ref_port →
      2 ^ (s.rd (epB x.1) KEDG_TIME_CFG.tw_log2 + 2) ≤ since s.herdTime x.2) (hb : s.bestPort s.plt.ports = some e) :
    exec .refPortChange s = .next (s.after fun w => w.wr hrdB KHRD_STATUS.ref_port e) := by
  refine run_eq hr ?_
  have hhtu : ¬ (s.htu ≠ 1 ∧ s.htu ≠ 2) := by omega
  have hb' : s.w0.bestPort s.w0.plt.ports = some e := hb
  change effRefPortChange s.w0 = _
  unfold effRefPortChange
  dsimp only
  cases hfind : s.plt.portWord.find (s.rd hrdB KHRD_STATUS.ref_port) with
  | none => simp [hfind, hf, hhtu, hb]; rfl
  | some t =>
    have hlate := hs _ (Tbl.mem_of_find hfind) rfl
    simp [hfind, hf, hhtu, hb, hlate]; rfl

/-! ### Timing words -/

/-- A state without what the control cell of a frame touches. -/
def W.bareL (w : W) : W := { w.bare with ep := [] }

theorem W.bareL_of {v w : W} (h : v.bare = w.bare) : v.bareL = w.bareL := by rw [W.bareL, W.bareL, h]

theorem W.tryLinkUp_bare (w : W) (e : Nat) : (w.tryLinkUp e).bare = w.bare := by
  unfold W.tryLinkUp W.setLinkUp
  split
  · split
    · rfl
    · simp
  · rfl

/-- What a control cell tells an edge port: acknowledged frames, credits, and that a credit word has come (R323, R325). -/
def Ep.heard (f : List Byte) (p : Ep) : Ep :=
  let la := le f 6 2
  let cw := le f 8 2
  let p := if bit la 13 then { p with
      replay := p.replay.filter (fun x => !notEarlier (bits la 0 12) x.lseq 12)
      resend := p.resend.filter (fun x => !notEarlier (bits la 0 12) x.lseq 12) } else p
  { p with cred := Tbl.set 0 p.cred (bits cw 0 4) (Tbl.get 0 p.cred (bits cw 0 4) + bits cw 4 4)
           sawCred := true }

theorem Ep.heard_rxFr (f : List Byte) (p : Ep) : (p.heard f).rxFr = p.rxFr := by
  unfold Ep.heard
  dsimp only
  split
  · rfl
  · rfl

theorem W.takeControl_eq (w : W) (e : Nat) (f : List Byte) : w.takeControl e f =
    let v := w.epMod e (Ep.heard f)
    (if bit (le f 6 2) 12 ∧ (v.epS e).replay ≠ [] then
      (v.inc (epB e) KEDG_LINK.replays).epMod e (fun p => { p with resend := p.replay }) else v).tryLinkUp e := rfl

theorem W.epMod_bareL (w : W) (e : Nat) (f : Ep → Ep) : (w.epMod e f).bareL = w.bareL := rfl
theorem W.epMod_rd (w : W) (e : Nat) (f : Ep → Ep) (c : Nat) (g : Fld) (j : Nat) : (w.epMod e f).rd c g j = w.rd c g j := rfl
theorem W.util_rd_ne (w : W) (u o n : Nat) {c : Nat} {g : Fld} {j : Nat} (h : g.key c j ≠ (utilF o).key (unitB u) 0) :
    (w.util u o n).rd c g j = w.rd c g j := W.rd_wr_ne _ _ _ _ _ _ _ _ h

theorem W.takeControl_bareL (w : W) (e : Nat) (f : List Byte) : (w.takeControl e f).bareL = w.bareL := by
  rw [W.takeControl_eq]
  dsimp only
  rw [W.bareL_of (W.tryLinkUp_bare ..)]
  split
  · rw [W.epMod_bareL, W.bareL_of (W.inc_bare ..), W.epMod_bareL]
  · rw [W.epMod_bareL]

@[simp] theorem W.epMod_epS (w : W) (e : Nat) (f : Ep → Ep) : (w.epMod e f).epS e = f (w.epS e) := Tbl.get_set_self ..

theorem State.epS_congr {v w : State} (h : v.ep = w.ep) (e : Nat) : v.epS e = w.epS e := by rw [State.epS, State.epS, h]

/-- The control cell of a frame takes no frame. -/
theorem W.takeControl_rxFr (w : W) (e : Nat) (f : List Byte) : ((w.takeControl e f).epS e).rxFr = (w.epS e).rxFr := by
  rw [W.takeControl_eq]
  dsimp only
  rw [State.epS_congr (W.ep_of_bare (W.tryLinkUp_bare ..))]
  split
  · rw [W.epMod_epS, State.epS_congr (W.inc_ep ..), W.epMod_epS]
    exact Ep.heard_rxFr ..
  · rw [W.epMod_epS]
    exact Ep.heard_rxFr ..

theorem W.tryLinkUp_rd (w : W) (e : Nat) {c : Nat} {g : Fld} {j : Nat} (h : g.key c j ≠ KEDG_STAT.link_up.key (epB e) 0) :
    (w.tryLinkUp e).rd c g j = w.rd c g j := by
  unfold W.tryLinkUp W.setLinkUp
  split
  · split
    · rfl
    · rw [W.irqP_rd, W.rd_wr_ne _ _ _ _ _ _ _ _ h]
  · rfl

/-- It can change `link_up` and the count of replays alone. -/
theorem W.takeControl_rd (w : W) (e : Nat) (f : List Byte) {c : Nat} {g : Fld} {j : Nat}
    (h1 : g.key c j ≠ KEDG_STAT.link_up.key (epB e) 0) (h2 : g.key c j ≠ KEDG_LINK.replays.key (epB e) 0) :
    (w.takeControl e f).rd c g j = w.rd c g j := by
  rw [W.takeControl_eq]
  dsimp only
  rw [W.tryLinkUp_rd _ _ h1]
  split
  · rw [W.epMod_rd, W.rd_inc_ne _ _ _ _ _ _ _ _ h2, W.epMod_rd]
  · rw [W.epMod_rd]

/-- A good TIME frame taken from the front of those received, its bytes counted and its control cell taken. -/
def W.frameIn (w : W) (ep : Nat) (f : List Byte) : W := ((w.dropFrame ep).util (uEp ep) 0xD78 256).takeControl ep f

theorem unitB_uEp (ep : Nat) : unitB (uEp ep) = epB ep := by
  unfold unitB uEp
  rw [if_neg (by omega), if_neg (by omega), if_neg (by omega), Nat.add_sub_cancel_left]

theorem W.frameIn_rxFr (w : W) (ep : Nat) (f : List Byte) : ((w.frameIn ep f).epS ep).rxFr = (w.epS ep).rxFr.drop 1 := by
  rw [W.frameIn, W.takeControl_rxFr, W.util, State.epS_congr (W.wr_ep ..), W.dropFrame, W.epMod_epS]

theorem W.frameIn_bareL (w : W) (ep : Nat) (f : List Byte) : (w.frameIn ep f).bareL = w.bareL := by
  rw [W.frameIn, W.takeControl_bareL, W.util, W.bareL_of (W.wr_bare ..), W.dropFrame, W.epMod_bareL]

/-- A field of an edge port that is neither `link_up`, the replays nor a utilisation counter reads as before. -/
theorem W.frameIn_rd (w : W) (ep : Nat) (f : List Byte) {c : Nat} {g : Fld} {j : Nat}
    (h1 : g.key c j ≠ KEDG_STAT.link_up.key (epB ep) 0) (h2 : g.key c j ≠ KEDG_LINK.replays.key (epB ep) 0)
    (h3 : g.key c j ≠ (utilF 0xD78).key (epB ep) 0) : (w.frameIn ep f).rd c g j = w.rd c g j := by
  rw [W.frameIn, W.takeControl_rd _ _ _ h1 h2, W.util_rd_ne _ _ _ _ (unitB_uEp ep ▸ h3), W.dropFrame, W.epMod_rd]

theorem W.frameIn_rd_ep (w : W) (ep : Nat) (f : List Byte) {g : Fld} (hl : g.lsb < 32)
    (h1 : g.off ≠ KEDG_STAT.link_up.off ∨ g.lsb ≠ KEDG_STAT.link_up.lsb)
    (h2 : g.off ≠ KEDG_LINK.replays.off ∨ g.lsb ≠ KEDG_LINK.replays.lsb)
    (h3 : g.off ≠ 0xD78) : (w.frameIn ep f).rd (epB ep) g = w.rd (epB ep) g :=
  W.frameIn_rd w ep f (Fld.key_ne _ _ hl (by decide) h1) (Fld.key_ne _ _ hl (by decide) h2)
    (Fld.key_ne _ _ hl (by decide) (.inl h3))

/-- A field of an edge port's window is none of herd time's. -/
theorem Fld.onHrd_key_ne_ep {g : Fld} (h : g.onHrd = true) {f : Fld} (hf : f.lsb < 32) (ep : Nat) : g.key hrdB 0 ≠ f.key (epB ep) 0 := by
  obtain ⟨hlsb, -, hoff⟩ := Fld.onHrd_iff.mp h
  unfold Fld.key hrdB epB
  omega

theorem W.frameIn_hrd (w : W) (ep : Nat) (f : List Byte) {g : Fld} (h : g.onHrd = true) :
    (w.frameIn ep f).rd hrdB g = w.rd hrdB g :=
  W.frameIn_rd w ep f (Fld.onHrd_key_ne_ep h (by decide) ep) (Fld.onHrd_key_ne_ep h (by decide) ep)
    (Fld.onHrd_key_ne_ep h (by decide) ep)

/-! A word at the herd time unit -/

theorem W.enterLocked_ep (w : W) : w.enterLocked.ep = w.ep := by
  unfold W.enterLocked
  dsimp only
  split
  · rw [W.answer_ep]
    simp [W.setHtu]
  · simp [W.setHtu]

theorem W.armEnd_ep (w : W) (st : Nat) : (w.armEnd st).ep = w.ep := by
  have e := congrArg (fun x : W => x.ep) (w.armEnd_bareA st); exact e

theorem W.enterLost_ep (w : W) : w.enterLost.ep = w.ep := by
  have h := W.armEnd_ep (((w.setHtu 3).inc hrdB KHRD_LOSS_CNT.loss_count).irqP 32) NOHERD
  rw [W.irqP_ep, W.inc_ep, W.ep_of_bare (W.setHtu_bare ..)] at h
  rw [← h]
  unfold W.enterLost
  dsimp only
  generalize W.armEnd _ NOHERD = v
  split
  · rfl
  · rfl

theorem W.stepTime_ep (w : W) (e comp : Nat) : (w.stepTime e comp).ep = w.ep := by simp [W.stepTime]

theorem W.takeWord_ep (w : W) (e comp : Nat) (off : Int) : (w.takeWord e comp off).ep = w.ep := by
  unfold W.takeWord
  dsimp only
  generalize hv : W.wr w hrdB KHRD_OFFSET.offset (offset16 off) = v
  have hep : v.ep = w.ep := by rw [← hv, W.wr_ep]
  rw [← hep]
  split
  · split
    · exact W.stepTime_ep ..
    · split
      · rfl
      · split
        · simp
        · split
          · rw [W.enterLocked_ep]
            simp
          · simp
  · split
    · rfl
    · split
      · rfl
      · split
        · rw [W.enterLost_ep]
          simp
        · simp
  · split
    · rfl
    · rw [W.stepTime_ep]
      simp [W.setHtu]
  · simp

/-- The instants of the word are kept for the echo (R328), whatever the word is worth. -/
theorem effTimingWordReceive_ep {w : W} {ep : Nat} {x : RxFrame} (h : w.nextFrame ep (fun f => f.good && f.type == 3) = some x) :
    (effTimingWordReceive ep w).ep = ((w.frameIn ep x.bytes).epMod ep (fun p => { p with
      peerTx := le x.bytes 16 8
      peerRecv := (x.at_ + 2 ^ 64 - (w.frameIn ep x.bytes).rd (epB ep) KEDG_TIME_CFG.rx_lat) % 2 ^ 64 })).ep := by
  unfold effTimingWordReceive
  rw [h]
  dsimp only
  rw [← W.frameIn]
  generalize w.frameIn ep x.bytes = v
  generalize hu : W.epMod v ep _ = u
  split
  · split
    · simp
    · simp
  · split
    · rw [W.takeWord_ep]; simp
    · rw [W.takeWord_ep]; simp

theorem timingWordReceive_keeps {s : State} {ep : Nat} {x : RxFrame} (hr : s.inReset = false)
    (h : s.nextFrame ep (fun f => f.good && f.type == 3) = some x) :
    ∃ t, exec (.timingWordReceive ep) s = .next t ∧ (t.epS ep).peerTx = le x.bytes 16 8
      ∧ (t.epS ep).peerRecv = (x.at_ + 2 ^ 64 - s.rd (epB ep) KEDG_TIME_CFG.rx_lat) % 2 ^ 64
      ∧ (t.epS ep).rxFr = (s.epS ep).rxFr.drop 1 := by
  have hep := State.epS_congr (effTimingWordReceive_ep (w := s.w0) h) ep
  have hlat := s.w0.frameIn_rd_ep ep x.bytes (g := KEDG_TIME_CFG.rx_lat) (by decide) (by decide) (by decide) (by decide)
  have hrx := s.w0.frameIn_rxFr ep x.bytes
  rw [W.epMod_epS, hlat] at hep
  generalize s.w0.frameIn ep x.bytes = v at *
  generalize hv : effTimingWordReceive ep s.w0 = u at *
  have ht : (s.after fun _ => u).epS ep = u.epS ep := rfl
  exact ⟨_, run_const hr hv, by rw [ht, hep], by rw [ht, hep]; rfl, by rw [ht, hep]; exact hrx⟩

/-- The first valid word of ACQUIRE steps herd time (R60, R62): the unit's state is kept, and this port is the reference. -/
theorem W.stepTime_steps (w : W) {e : Nat} (comp : Nat) (he : e < 64) :
    (w.stepTime e comp).htu = w.htu ∧ (w.stepTime e comp).herdTime = comp % 2 ^ 64 ∧ (w.stepTime e comp).plt.stepped = true
      ∧ (w.stepTime e comp).rd hrdB KHRD_STATUS.ref_port = e ∧ (w.stepTime e comp).fc = w.fc
      ∧ (w.stepTime e comp).plateTime = w.plateTime := by
  obtain ⟨u, hu⟩ : ∃ u : W, u =
      ((w.wr hrdB KHRD_STATUS.ref_port e).inc hrdB KHRD_STATUS.step_count).wr hrdB KHRD_OFFSET.words_ok 0 := ⟨_, rfl⟩
  have hregs : (w.stepTime e comp).regs = u.regs := by rw [hu]; simp only [W.stepTime]
  have hhtu : u.htu = w.htu := by
    rw [hu, State.htu, W.rd_wr_ne _ _ _ _ _ _ _ _ (by decide), W.rd_inc_ne _ _ _ _ _ _ _ _ (by decide),
      W.rd_wr_ne _ _ _ _ _ _ _ _ (by decide)]
    rfl
  have href : u.rd hrdB KHRD_STATUS.ref_port = e := by
    rw [hu, W.rd_wr_ne _ _ _ _ _ _ _ _ (by decide), W.rd_inc_ne _ _ _ _ _ _ _ _ (by decide)]
    exact W.rd_wr_val _ _ _ _ _ _ (Nat.mod_eq_of_lt he)
  refine ⟨(State.rd_congr hregs ..).trans hhtu, ?_, ?_, (State.rd_congr hregs ..).trans href, ?_, ?_⟩
  all_goals simp [W.stepTime]

theorem W.takeWord_first {w : W} (e comp : Nat) (off : Int) (h1 : w.htu = 1) (hs : w.plt.stepped = false) :
    ∃ v : W, w.takeWord e comp off = v.stepTime e comp ∧ v.htu = 1 ∧ v.fc = w.fc ∧ v.plateTime = w.plateTime := by
  have hhtu : (w.wr hrdB KHRD_OFFSET.offset (offset16 off)).htu = 1 := (W.rd_wr_ne _ _ _ _ _ _ _ _ (by decide)).trans h1
  have hstep : (w.wr hrdB KHRD_OFFSET.offset (offset16 off)).plt.stepped = false := by rw [W.wr_plt, hs]
  have hfc : (w.wr hrdB KHRD_OFFSET.offset (offset16 off)).fc = w.fc := W.wr_fc ..
  have hplate : (w.wr hrdB KHRD_OFFSET.offset (offset16 off)).plateTime = w.plateTime := W.wr_plateTime ..
  unfold W.takeWord
  dsimp only
  generalize W.wr w hrdB KHRD_OFFSET.offset (offset16 off) = v at *
  have hhtu' : State.htu { v.toState with plt.portWord := v.plt.portWord.put e v.herdTime } = 1 := hhtu
  split
  · refine ⟨{ v with plt.portWord := v.plt.portWord.put e v.herdTime }, ?_, hhtu', hfc, hplate⟩
    simp [hstep]
  all_goals simp_all

/-- A valid word (R329, R330) reaches the herd time unit; what is noted of it before stands outside the unit's window. -/
theorem effTimingWordReceive_valid {w : W} {ep t4 : Nat} {x : RxFrame} {delay : Int}
    (h : w.nextFrame ep (fun f => f.good && f.type == 3) = some x)
    (ht4 : t4 = (x.at_ + 2 ^ 64 - w.rd (epB ep) KEDG_TIME_CFG.rx_lat) % 2 ^ 64)
    (hdelay : delay = (toS 64 (ofS 64 ((t4 : Int) - le x.bytes 24 8)) - toS 64 (ofS 64 ((le x.bytes 16 8 : Int) - le x.bytes 32 8))) / 2
      + toS 8 (w.rd (epB ep) KEDG_TIME_CFG.asym))
    (h0 : 0 ≤ delay) (h20 : delay ≤ 2 ^ 20) (hlk : bit (le x.bytes 40 1) 0 = true) (ht1 : le x.bytes 24 8 ≠ 0)
    (hnew : since t4 (le x.bytes 24 8) < 2 ^ 16) (hport : bit w.plt.ports ep = true)
    (hspan : w.rd (epB ep) KEDG_STAT.cw_span = 0) (hfree : w.freeRun = false) :
    ∃ (u : W) (off : Int), effTimingWordReceive ep w
        = u.takeWord ep ((le x.bytes 16 8 + delay.toNat + since w.herdTime t4) % 2 ^ 64) off
      ∧ u.bareL = w.bareL ∧ ∀ g : Fld, g.onHrd = true → u.rd hrdB g = w.rd hrdB g := by
  have hlat := w.frameIn_rd_ep ep x.bytes (g := KEDG_TIME_CFG.rx_lat) (by decide) (by decide) (by decide) (by decide)
  have hasym := w.frameIn_rd_ep ep x.bytes (g := KEDG_TIME_CFG.asym) (by decide) (by decide) (by decide) (by decide)
  have hcw := w.frameIn_rd_ep ep x.bytes (g := KEDG_STAT.cw_span) (by decide) (by decide) (by decide) (by decide)
  have hbare := w.frameIn_bareL ep x.bytes
  have hhrd := fun (g : Fld) (hg : g.onHrd = true) => w.frameIn_hrd ep x.bytes hg
  have hfr : (w.frameIn ep x.bytes).freeRun = false := by rw [← hfree, State.freeRun, State.freeRun, hhrd _ rfl]
  have hports : (w.frameIn ep x.bytes).plt = w.plt := by have e := congrArg (fun v : W => v.plt) hbare; exact e
  have htime : (w.frameIn ep x.bytes).herdTime = w.herdTime := by have e := congrArg (fun v : W => v.herdTime) hbare; exact e
  unfold effTimingWordReceive
  rw [h]
  dsimp only
  rw [← W.frameIn, hlat, hasym, hcw, hfr, hports, signed, ← ht4, ← hdelay]
  generalize w.frameIn ep x.bytes = v at *
  obtain ⟨v', hv'⟩ : ∃ v' : W, v' = v.epMod ep (fun p => { p with peerTx := le x.bytes 16 8, peerRecv := t4 }) := ⟨_, rfl⟩
  have hvalid : (bit (le x.bytes 40 1) 0 && le x.bytes 24 8 != 0 && decide (since t4 (le x.bytes 24 8) < 2 ^ 16)
      && decide (0 ≤ delay ∧ delay ≤ 2 ^ 20) && bit w.plt.ports ep && w.rd (epB ep) KEDG_STAT.cw_span == 0 && !false) = true := by
    simp only [hlk, hport, hspan, decide_eq_true hnew, decide_eq_true (And.intro h0 h20)]
    simp [ht1]
  rw [← hv', hvalid, if_neg ht1, Bool.not_true, if_neg Bool.false_ne_true]
  have htime' : v'.herdTime = w.herdTime := by rw [hv', ← htime]; rfl
  have hbare' : v'.bareL = w.bareL := by rw [hv', ← hbare]; rfl
  have hhrd' (g : Fld) (hg : g.onHrd = true) : v'.rd hrdB g = w.rd hrdB g := by rw [hv', ← hhrd g hg]; rfl
  simp only [W.wr_herdTime, htime']
  refine ⟨_, _, rfl, ?_, ?_⟩
  · rw [W.bareL_of (W.wr_bare ..), W.bareL_of (W.wr_bare ..), W.bareL_of (W.wr_bare ..), hbare']
  · intro g hg
    rw [W.rd_wr_ne _ _ _ _ _ _ _ _ (Fld.onHrd_key_ne_ep hg (by decide) ep),
      W.rd_wr_ne _ _ _ _ _ _ _ _ (Fld.onHrd_key_ne_ep hg (by decide) ep),
      W.rd_wr_ne _ _ _ _ _ _ _ _ (Fld.onHrd_key_ne_ep hg (by decide) ep), hhrd' g hg]

theorem timingWordReceive_steps {s : State} {ep t4 : Nat} {x : RxFrame} {delay : Int} (hr : s.inReset = false)
    (h : s.nextFrame ep (fun f => f.good && f.type == 3) = some x)
    (ht4 : t4 = (x.at_ + 2 ^ 64 - s.rd (epB ep) KEDG_TIME_CFG.rx_lat) % 2 ^ 64)
    (hdelay : delay = (toS 64 (ofS 64 ((t4 : Int) - le x.bytes 24 8)) - toS 64 (ofS 64 ((le x.bytes 16 8 : Int) - le x.bytes 32 8))) / 2
      + toS 8 (s.rd (epB ep) KEDG_TIME_CFG.asym))
    (h0 : 0 ≤ delay) (h20 : delay ≤ 2 ^ 20) (hlk : bit (le x.bytes 40 1) 0 = true) (ht1 : le x.bytes 24 8 ≠ 0)
    (hnew : since t4 (le x.bytes 24 8) < 2 ^ 16) (hport : bit s.plt.ports ep = true)
    (hspan : s.rd (epB ep) KEDG_STAT.cw_span = 0) (hfree : s.freeRun = false) (h1 : s.htu = 1) (hs : s.plt.stepped = false)
    (he : ep < 64) :
    ∃ t, exec (.timingWordReceive ep) s = .next t ∧ t.htu = 1
      ∧ t.herdTime = (le x.bytes 16 8 + delay.toNat + since s.herdTime t4) % 2 ^ 64
      ∧ t.plt.stepped = true ∧ t.rd hrdB KHRD_STATUS.ref_port = ep ∧ t.fc = s.fc ∧ t.plateTime = s.plateTime := by
  obtain ⟨u, off, heff, hbare, hhrd⟩ := effTimingWordReceive_valid (w := s.w0) h ht4 hdelay h0 h20 hlk ht1 hnew hport hspan hfree
  have hfc : u.fc = s.fc := by have e := congrArg (fun v : W => v.fc) hbare; exact e
  have hplateTime : u.plateTime = s.plateTime := by have e := congrArg (fun v : W => v.plateTime) hbare; exact e
  have hstep : u.plt.stepped = false := by have e := congrArg (fun v : W => v.plt.stepped) hbare; exact e.trans hs
  have hhtu : u.htu = 1 := (hhrd _ rfl).trans h1
  obtain ⟨v, hv, vhtu, vfc, vplate⟩ :=
    W.takeWord_first ep ((le x.bytes 16 8 + delay.toNat + since s.herdTime t4) % 2 ^ 64) off hhtu hstep
  obtain ⟨thtu, ttime, tstep, tref, tfc, tplate⟩ :=
    v.stepTime_steps ((le x.bytes 16 8 + delay.toNat + since s.herdTime t4) % 2 ^ 64) he
  have hrun := heff.trans hv
  generalize v.stepTime ep _ = y at *
  have htu' : (s.after fun _ => y).htu = 1 := by rw [State.htu, State.after_rd, ← State.htu, thtu, vhtu]
  have hfc' : (s.after fun _ => y).fc = s.fc := by rw [State.after_fc, tfc, vfc, hfc]
  have hplateTime' : (s.after fun _ => y).plateTime = s.plateTime := by rw [State.after_plateTime, tplate, vplate, hplateTime]
  rw [Nat.mod_mod] at ttime
  exact ⟨_, run_const hr hrun, htu', ttime, tstep, tref, hfc', hplateTime'⟩

/-- Settles O9, a clause for each event; that the step of herd time adds the ticks since the word came is assumption log row 99. -/
theorem herdTimeActs : Obligations.HerdTimeActs := by
  refine ⟨?_, ?_, ?_, ?_, ?_, ?_, ?_, ?_, ?_⟩
  · exact fun _ _ _ _ hr hc he h1 h3 hl hp => herdLockEdge_acquires hr hc he h1 h3 hl hp
  · exact fun _ _ _ _ _ hr hc he hl hf hp hn hb h64 => herdLockEdge_takesPorts hr hc he hl hf hp hn hb h64
  · exact fun _ _ _ _ hr hc he h1 h3 hl => herdLockFreeRun_locks hr hc he h1 h3 hl
  · exact fun _ _ _ hr h => timingWordReceive_keeps hr h
  · exact fun _ _ _ _ _ hr h ht4 hd h0 h20 hlk ht1 hnew hport hspan hfree h1 hs he =>
      timingWordReceive_steps hr h ht4 hd h0 h20 hlk ht1 hnew hport hspan hfree h1 hs he
  · exact fun _ hr hl hf hw => lossWindowExpiry_loses hr hl hf hw
  · exact fun _ hr h1 ht hl => acquireTimeout_backToLost hr h1 ht hl
  · exact fun _ _ _ _ hr h1 ht hl hp hc up => acquireTimeout_answers hr h1 ht hl hp hc up
  · exact fun _ _ hr hf hh hs hb => refPortChange_takes hr hf hh hs hb
end Sys2Proof.Machine
end

section
/-! PROOFS. Plate commands (R82, R84, R85, R99). -/

namespace Sys2Proof.Machine

/-! ### The staged buffer -/

theorem W.setStaged_bare (w : W) (p : Option Plate) : (w.setStaged p).bare = W.bare { w with plt.staged := p } := by
  cases p with
  | none => simp [W.setStaged]
  | some x => simp [W.setStaged]

/-- The registers that show the staged buffer are the only ones that its change writes. -/
theorem W.setStaged_rd (w : W) (p : Option Plate) {b : Nat} {g : Fld} {i : Nat}
    (h1 : g.key b i ≠ KPLT_STATUS.staged_valid.key hrdB 0) (h2 : g.key b i ≠ KPLT_ARM.staged_plate_id.key hrdB 0)
    (h3 : g.key b i ≠ KGBL_GOV_PLATE.p_staged.key gblB 0) : (w.setStaged p).rd b g i = w.rd b g i := by
  cases p with
  | none =>
    rw [W.setStaged, W.rd_wr_ne _ _ _ _ _ _ _ _ h3, W.rd_wr_ne _ _ _ _ _ _ _ _ h1]
    rfl
  | some x =>
    rw [W.setStaged, W.rd_wr_ne _ _ _ _ _ _ _ _ h3, W.rd_wr_ne _ _ _ _ _ _ _ _ h2, W.rd_wr_ne _ _ _ _ _ _ _ _ h1]
    rfl

theorem W.setStaged_stagedValid (w : W) (p : Option Plate) :
    (w.setStaged p).rd hrdB KPLT_STATUS.staged_valid = if p.isSome then 1 else 0 := by
  cases p with
  | none =>
    rw [W.setStaged, W.rd_wr_ne _ _ _ _ _ _ _ _ (by decide), W.rd_wr_self]
    rfl
  | some x =>
    rw [W.setStaged, W.rd_wr_ne _ _ _ _ _ _ _ _ (by decide), W.rd_wr_ne _ _ _ _ _ _ _ _ (by decide), W.rd_wr_self]
    rfl

theorem W.setStaged_loading (w : W) (p : Option Plate) :
    (w.setStaged p).rd hrdB KPLT_STATUS.loading = w.rd hrdB KPLT_STATUS.loading :=
  W.setStaged_rd w p (by decide) (by decide) (by decide)

/-! ### Packets touch the net alone -/

/-- A state without its packets. -/
def W.noNet (w : W) : W := { w with net := {} }

theorem W.inject_noNet (w : W) (u : Nat) (p : Packet) (r : Bool) : (w.inject u p r).noNet = w.noNet := rfl
theorem W.deliver_noNet (w : W) (u : Nat) (p : Packet) : (w.deliver u p).noNet = w.noNet := rfl

theorem W.request_noNet (w : W) (u : Nat) (p : Packet) (own : Owner) (need : Nat) (tag : Option Nat) :
    (w.request u p own need tag).noNet = w.noNet := by
  unfold W.request
  dsimp only
  rw [apply_ite W.noNet, W.deliver_noNet, W.inject_noNet, ite_self]
  rfl

theorem W.plateFolio_noNet (w : W) (q slot n : Nat) (x : Nat × Nat × List Byte) (i : Nat) :
    (w.plateFolio q slot n x i).noNet = w.noNet := by
  unfold W.plateFolio
  dsimp only
  split
  · rw [W.request_noNet]
  · split
    · rfl
    · rw [W.inject_noNet]; rfl

/-- The start of a load (R84): what it leaves of the unit's state and its registers. -/
theorem W.plateSend_facts (w : W) (q slot : Nat) (p : Plate) : let v := w.plateSend q slot p
    v.plt = { w.plt with load := some { plate := p, left := (w.plateWrites p).length, fc := w.fc, q := q, slot := slot }, staged := none }
      ∧ v.stores = w.stores ∧ v.mem = w.mem ∧ v.rd hrdB KPLT_STATUS.staged_valid = 0 ∧ v.rd hrdB KPLT_STATUS.loading = 1 := by
  unfold W.plateSend
  dsimp only
  generalize hl : w.plateWrites p = l
  generalize hu : W.setStaged _ none = u
  have hplt : u.plt = { w.plt with load := some { plate := p, left := l.length, fc := w.fc, q := q, slot := slot }, staged := none } := by
    rw [← hu, W.plt_of_bare (W.setStaged_bare ..)]
    simp
  have hstores : u.stores = w.stores := by
    rw [← hu, W.stores_of_bare (W.setStaged_bare ..)]
    simp
  have hmem : u.mem = w.mem := by
    rw [← hu, W.mem_of_bare (W.setStaged_bare ..)]
    simp
  have hvalid : u.rd hrdB KPLT_STATUS.staged_valid = 0 := by rw [← hu]; exact W.setStaged_stagedValid ..
  have hload : u.rd hrdB KPLT_STATUS.loading = 1 := by
    rw [← hu, W.setStaged_loading, W.rd_wr_self]
    rfl
  have hkeep := W.each_inv (fun v : W => v.noNet = u.noNet) l.zipIdx
    (fun w x => w.plateFolio q slot l.length x.1 x.2) u rfl (fun v x _ hv => (v.plateFolio_noNet ..).trans hv)
  generalize u.each l.zipIdx _ = v at *
  have vplt : v.plt = u.plt := by have e := congrArg (fun x : W => x.plt) hkeep; exact e
  have vstores : v.stores = u.stores := by have e := congrArg (fun x : W => x.stores) hkeep; exact e
  have vmem : v.mem = u.mem := by have e := congrArg (fun x : W => x.mem) hkeep; exact e
  have vregs : v.regs = u.regs := by have e := congrArg (fun x : W => x.regs) hkeep; exact e
  exact ⟨vplt.trans hplt, vstores.trans hstores, vmem.trans hmem, (State.rd_congr vregs ..).trans hvalid, (State.rd_congr vregs ..).trans hload⟩

/-- A PLATE_LOAD that passes every check of R82 begins its writes. -/
theorem effPlateLoad_sends {w : W} {q slot : Nat} {c : Cmd} {p : Plate} (hc : w.cmdAt q slot 0x0020 = some c)
    (hrange : w.rangeOk (le c.bytes 16 8) (le c.bytes 24 4) = true) (hload : w.plt.load = none) (harm : w.plt.arm = none)
    (himage : w.imageStatus (loff (le c.bytes 16 8)) (le c.bytes 24 4) = OK)
    (hread : readImage okType (w.memRead (loff (le c.bytes 16 8)) (le c.bytes 24 4)) (loff (le c.bytes 16 8)) (le c.bytes 24 4) = some p)
    (hp : w.plateOk p = true) (hown : w.lanesOwned p = true) : effPlateLoad q slot w = w.plateSend q slot p := by
  have hearly : firstOf [(!w.rangeOk (le c.bytes 16 8) (le c.bytes 24 4), BADOP), (w.plt.load.isSome || w.plt.arm.isSome, BUSY)] = OK :=
    firstOf_none (by simp [hrange, hload, harm])
  have hok : firstOf [(!w.plateOk p, BADOP), (!w.lanesOwned p, DENIED), (OK != OK, OK)] = OK := firstOf_none (by simp [hp, hown])
  simp only [effPlateLoad, hc, hearly, himage, hread, hok]
  rfl

theorem plateLoad_sends {s : State} {q slot : Nat} {c : Cmd} {p : Plate} (hr : s.inReset = false) (hc : s.Runs q slot 0x0020 c)
    (hrange : s.rangeOk (le c.bytes 16 8) (le c.bytes 24 4) = true) (hload : s.plt.load = none) (harm : s.plt.arm = none)
    (himage : s.w0.imageStatus (loff (le c.bytes 16 8)) (le c.bytes 24 4) = OK)
    (hread : readImage okType (getBytes s.mem.cells (loff (le c.bytes 16 8)) (le c.bytes 24 4)) (loff (le c.bytes 16 8)) (le c.bytes 24 4) = some p)
    (hp : s.plateOk p = true) (hown : s.lanesOwned p = true) :
    ∃ t, exec (.plateLoad q slot) s = .next t
      ∧ t.plt.load = some { plate := p, left := (s.plateWrites p).length, fc := s.fc, q := q, slot := slot }
      ∧ t.plt.staged = none ∧ t.rd hrdB KPLT_STATUS.staged_valid = 0 ∧ t.rd hrdB KPLT_STATUS.loading = 1
      ∧ t.plt.active = s.plt.active ∧ t.mem = s.mem := by
  have heff := effPlateLoad_sends (w := s.w0) hc.1 hrange hload harm himage hread hp hown
  obtain ⟨hplt, hstores, -, hvalid, hloading⟩ := s.w0.plateSend_facts q slot p
  generalize s.w0.plateSend q slot p = v at *
  exact ⟨_, run_const hr heff, by rw [State.after_plt, hplt]; rfl, by rw [State.after_plt, hplt], hvalid, hloading,
    by rw [State.after_plt, hplt]; rfl, State.after_mem_of_no_stores hstores⟩

theorem State.platePower_congr {v w : State} (h : v.fuse = w.fuse) (p : Plate) : v.platePower p = w.platePower p := by
  unfold State.platePower State.coef
  rw [h]

/-- A load is over: the staged buffer holds `p`, or no plate. -/
def W.loadOver (w : W) (p : Option Plate) : W := (W.wr { w with plt.load := none } hrdB KPLT_STATUS.loading 0).setStaged p

theorem W.loadOver_bare (w : W) (p : Option Plate) : (w.loadOver p).bare = W.bare { w with plt.load := none, plt.staged := p } := by
  rw [W.loadOver, W.setStaged_bare]
  simp [W.bare, W.wr]

theorem W.loadOver_plt (w : W) (p : Option Plate) : (w.loadOver p).plt = { w.plt with load := none, staged := p } := by
  rw [W.plt_of_bare (w.loadOver_bare p)]

theorem W.loadOver_loading (w : W) (p : Option Plate) : (w.loadOver p).rd hrdB KPLT_STATUS.loading = 0 := by
  rw [W.loadOver, W.setStaged_loading, W.rd_wr_self]
  rfl

theorem W.loadOver_stagedValid (w : W) (p : Option Plate) :
    (w.loadOver p).rd hrdB KPLT_STATUS.staged_valid = if p.isSome then 1 else 0 := W.setStaged_stagedValid ..

theorem plateLoadAcked_stages {s : State} {q slot : Nat} {c : Cmd} {l : Load} (hr : s.inReset = false) (hc : s.cmdOf q slot = some c)
    (up : s.miomusUp = true) (hl : s.plt.load = some l) (hq : l.q = q) (hs : l.slot = slot) (h0 : l.left = 0) :
    ∃ t, exec (.plateLoadAcked q slot) s = .next t ∧ t.plt.load = none ∧ t.plt.staged = some l.plate
      ∧ t.rd hrdB KPLT_STATUS.staged_valid = 1 ∧ t.rd hrdB KPLT_STATUS.loading = 0 ∧ t.plt.active = s.plt.active
      ∧ Answered s t q c OK (toLE 2 l.plate.id ++ toLE 2 (min 1023 (s.platePower l.plate / 1000)))
      ∧ t.mem = s.mem ∧ t.net = s.net := by
  have hbare := s.w0.loadOver_bare (some l.plate)
  have hplt := s.w0.loadOver_plt (some l.plate)
  have hvalid := s.w0.loadOver_stagedValid (some l.plate)
  have hloading := s.w0.loadOver_loading (some l.plate)
  have hpower : (s.w0.loadOver (some l.plate)).platePower l.plate = s.platePower l.plate :=
    State.platePower_congr (W.fuse_of_bare hbare) l.plate
  have heff : effPlateLoadAcked q slot s.w0 = (s.w0.loadOver (some l.plate)).answer q slot OK
      (toLE 2 l.plate.id ++ toLE 2 (min 1023 ((s.w0.loadOver (some l.plate)).platePower l.plate / 1000))) := by
    unfold effPlateLoadAcked
    simp only [State.w0_toState, hl]
    rw [if_neg (by simp [hq, hs, h0])]
    rfl
  rw [hpower] at heff
  generalize s.w0.loadOver (some l.plate) = v at *
  obtain ⟨hans, -, hmem, hnet, tplt, -, hrd⟩ := State.after_answer (v := v) (st := OK)
    (rd := toLE 2 l.plate.id ++ toLE 2 (min 1023 (s.platePower l.plate / 1000))) hc up (W.boot_of_bare hbare)
    (W.herdTime_of_bare hbare) (W.stores_of_bare hbare) (W.net_of_bare hbare)
  rw [hplt] at tplt
  exact ⟨_, run_const hr heff, by rw [tplt], by rw [tplt], (hrd _ rfl).trans hvalid, (hrd _ rfl).trans hloading, by rw [tplt]; rfl,
    hans, hmem, hnet⟩

theorem plateLoadTimeout_ends {s : State} {q slot : Nat} {c : Cmd} {l : Load} (hr : s.inReset = false) (hc : s.cmdOf q slot = some c)
    (up : s.miomusUp = true) (hl : s.plt.load = some l) (hq : l.q = q) (hs : l.slot = slot) (hlate : l.fc + 2 ^ 26 ≤ s.fc) :
    ∃ t, exec (.plateLoadTimeout q slot) s = .next t ∧ t.plt.load = none ∧ t.plt.staged = none
      ∧ t.rd hrdB KPLT_STATUS.staged_valid = 0 ∧ t.plt.active = s.plt.active ∧ Answered s t q c TIMEOUT []
      ∧ t.mem = s.mem ∧ t.net = s.net := by
  have hbare := s.w0.loadOver_bare none
  have hplt := s.w0.loadOver_plt none
  have hvalid := s.w0.loadOver_stagedValid none
  have heff : effPlateLoadTimeout q slot s.w0 = (s.w0.loadOver none).answer q slot TIMEOUT := by
    unfold effPlateLoadTimeout W.loadEnd
    simp only [State.w0_toState, hl]
    rw [if_pos ⟨hq, hs, hlate⟩, hq, hs]
    rfl
  generalize s.w0.loadOver none = v at *
  obtain ⟨hans, -, hmem, hnet, tplt, -, hrd⟩ := State.after_answer (v := v) (st := TIMEOUT) (rd := []) hc up (W.boot_of_bare hbare)
    (W.herdTime_of_bare hbare) (W.stores_of_bare hbare) (W.net_of_bare hbare)
  rw [hplt] at tplt
  exact ⟨_, run_const hr heff, by rw [tplt], by rw [tplt], (hrd _ rfl).trans hvalid, by rw [tplt]; rfl, hans, hmem, hnet⟩

/-! ### Arming and aborting -/

theorem ofLE_lt (l : List Byte) : ofLE l < 2 ^ (8 * l.length) := by
  induction l with
  | nil => decide
  | cons b l ih =>
    have hb := b.isLt
    have hpow : 2 ^ (8 * (l.length + 1)) = 256 * 2 ^ (8 * l.length) := by rw [Nat.mul_succ, Nat.pow_add, Nat.mul_comm]
    rw [ofLE, List.length_cons, hpow]
    omega

/-- A little-endian field of `n` bytes is a number of 8 n bits. -/
theorem le_lt (l : List Byte) (off n : Nat) : le l off n < 2 ^ (8 * n) :=
  (ofLE_lt _).trans_le (Nat.pow_le_pow_right (by decide) (Nat.mul_le_mul_left 8 (List.length_take_le ..)))

/-- A PLATE_ARM whose checks hold is pending (R85). -/
theorem effPlateArm_pends {w : W} {q slot : Nat} {c : Cmd} {p : Plate} {a : Arm} (hc : w.cmdAt q slot 0x0021 = some c)
    (hp : (if bit (le c.bytes 18 1) 0 then (if w.halted then w.plt.active else none) else w.plt.staged) = some p)
    (hbeam : ∀ k < 20, bit p.beamMask k = true → (w.beamOf k).isSome = true) (hlock : w.locked = true)
    (hload : w.plt.load = none) (harm : w.plt.arm = none) (hfault : w.inFault = false)
    (h2 : 2 ≤ (le c.bytes 16 2 + 2 ^ 16 - bits w.herdTime 16 16) % 2 ^ 16)
    (hmax : (le c.bytes 16 2 + 2 ^ 16 - bits w.herdTime 16 16) % 2 ^ 16 ≤ 32767)
    (ha : a = { te := w.herdTime / 2 ^ 16 * 2 ^ 16 + (le c.bytes 16 2 + 2 ^ 16 - bits w.herdTime 16 16) % 2 ^ 16 * 2 ^ 16,
                active := bit (le c.bytes 18 1) 0, q := q, slot := slot }) :
    effPlateArm q slot w =
      ((W.wr { w with plt.arm := some a } hrdB KPLT_STATUS.arm_pending 1).wr hrdB KPLT_ARM.arm_epoch (le c.bytes 16 2)).cmdStage q slot 1 := by
  have hbad : (List.range 20).any (fun k => bit p.beamMask k && (w.beamOf k).isNone) = false := by
    rw [List.any_eq_false]
    intro k hk
    have hsome := hbeam k (List.mem_range.mp hk)
    cases hb : bit p.beamMask k
    · simp
    · simp [Option.isSome_iff_ne_none.mp (hsome hb)]
  have hwin : (decide ((le c.bytes 16 2 + 2 ^ 16 - bits w.herdTime 16 16) % 2 ^ 16 < 2)
      || decide (32767 < (le c.bytes 16 2 + 2 ^ 16 - bits w.herdTime 16 16) % 2 ^ 16)) = false := by
    rw [decide_eq_false (by omega), decide_eq_false (by omega)]
    rfl
  subst ha
  unfold effPlateArm
  rw [hc]
  dsimp only
  rw [hp]
  dsimp only
  refine if_neg (not_not.mpr (firstOf_none ?_))
  simp only [List.forall_mem_cons, hbad, hwin, hlock, hload, harm, hfault]
  simp

theorem plateArm_pends {s : State} {q slot : Nat} {c : Cmd} {p : Plate} (hr : s.inReset = false) (hc : s.Runs q slot 0x0021 c)
    (hp : (if bit (le c.bytes 18 1) 0 then (if s.halted then s.plt.active else none) else s.plt.staged) = some p)
    (hbeam : ∀ k < 20, bit p.beamMask k = true → (s.beamOf k).isSome = true) (hlock : s.locked = true)
    (hload : s.plt.load = none) (harm : s.plt.arm = none) (hfault : s.inFault = false)
    (h2 : 2 ≤ (le c.bytes 16 2 + 2 ^ 16 - bits s.herdTime 16 16) % 2 ^ 16)
    (hmax : (le c.bytes 16 2 + 2 ^ 16 - bits s.herdTime 16 16) % 2 ^ 16 ≤ 32767) :
    ∃ t, exec (.plateArm q slot) s = .next t
      ∧ t.plt.arm = some { te := s.herdTime / 2 ^ 16 * 2 ^ 16 + (le c.bytes 16 2 + 2 ^ 16 - bits s.herdTime 16 16) % 2 ^ 16 * 2 ^ 16,
                           active := bit (le c.bytes 18 1) 0, q := q, slot := slot }
      ∧ t.rd hrdB KPLT_STATUS.arm_pending = 1 ∧ t.rd hrdB KPLT_ARM.arm_epoch = le c.bytes 16 2
      ∧ t.plt.active = s.plt.active ∧ t.plt.staged = s.plt.staged ∧ t.mem = s.mem ∧ t.net = s.net := by
  obtain ⟨a, ha⟩ : ∃ a : Arm, a = {
      te := s.herdTime / 2 ^ 16 * 2 ^ 16 + (le c.bytes 16 2 + 2 ^ 16 - bits s.herdTime 16 16) % 2 ^ 16 * 2 ^ 16,
      active := bit (le c.bytes 18 1) 0, q := q, slot := slot } := ⟨_, rfl⟩
  have heff := effPlateArm_pends (w := s.w0) hc.1 hp hbeam hlock hload harm hfault h2 hmax ha
  obtain ⟨v, hv⟩ : ∃ v : W, v = (W.wr { s.w0 with plt.arm := some a } hrdB KPLT_STATUS.arm_pending 1).wr hrdB KPLT_ARM.arm_epoch
    (le c.bytes 16 2) := ⟨_, rfl⟩
  have hplt : (v.cmdStage q slot 1).plt = { s.plt with arm := some a } := by rw [hv]; simp [W.cmdStage]
  have hstores : (v.cmdStage q slot 1).stores = [] := by rw [hv]; simp [W.cmdStage]
  have hnet : (v.cmdStage q slot 1).net = s.net := by rw [hv]; simp [W.cmdStage]
  have hpend : (v.cmdStage q slot 1).rd hrdB KPLT_STATUS.arm_pending = 1 := by
    refine (State.rd_congr (w := v.toState) rfl ..).trans ?_
    rw [hv, W.rd_wr_ne _ _ _ _ _ _ _ _ (by decide), W.rd_wr_self]
    rfl
  have hepoch : (v.cmdStage q slot 1).rd hrdB KPLT_ARM.arm_epoch = le c.bytes 16 2 := by
    refine (State.rd_congr (w := v.toState) rfl ..).trans ?_
    rw [hv]
    exact W.rd_wr_val _ _ _ _ _ _ (Nat.mod_eq_of_lt (le_lt c.bytes 16 2))
  rw [← hv] at heff
  generalize v.cmdStage q slot 1 = u at *
  rw [← ha]
  exact ⟨_, run_const hr heff, by rw [State.after_plt, hplt], hpend, hepoch, by rw [State.after_plt, hplt],
    by rw [State.after_plt, hplt], State.after_mem_of_no_stores hstores, hnet⟩

theorem plateAbort_waits {s : State} {q slot : Nat} {c : Cmd} (hr : s.inReset = false) (hc : s.Runs q slot 0x0022 c)
    (h : s.activeValid = true ∨ s.plt.arm.isSome = true) :
    ∃ t, exec (.plateAbort q slot) s = .next t ∧ t.plt.abortPend = some (s.plt.abortPend.getD s.fc)
      ∧ t.plt.aborts = s.plt.aborts ++ [(q, slot)] ∧ t.plt.active = s.plt.active ∧ t.mem = s.mem ∧ t.net = s.net := by
  have hbusy : ¬ ((!s.activeValid) = true ∧ s.plt.arm.isNone = true) := by
    rcases h with h | h
    · simp [h]
    · simp [Option.isSome_iff_ne_none.mp h]
  have heff : effPlateAbort q slot s.w0 = W.cmdStage { s.w0 with
      plt.abortPend := some (s.plt.abortPend.getD s.fc)
      plt.aborts := s.plt.aborts ++ [(q, slot)] } q slot 1 := by
    unfold effPlateAbort
    simp only [State.w0_toState, hc.1]
    exact if_neg hbusy
  exact ⟨_, run_const hr heff, rfl, rfl, rfl, rfl, rfl⟩

/-- Settles O10, a clause for each event. -/
theorem plateCommandsAct : Obligations.PlateCommandsAct := by
  refine ⟨?_, ?_, ?_, ?_, ?_⟩
  · exact fun _ _ _ _ _ hr hc hrange hload harm himage hread hp hown =>
      plateLoad_sends hr hc hrange hload harm himage hread hp hown
  · exact fun _ _ _ _ _ hr hc up hl hq hs h0 => plateLoadAcked_stages hr hc up hl hq hs h0
  · exact fun _ _ _ _ _ hr hc up hl hq hs hlate => plateLoadTimeout_ends hr hc up hl hq hs hlate
  · exact fun _ _ _ _ _ hr hc hp hbeam hlock hload harm hfault h2 hmax => plateArm_pends hr hc hp hbeam hlock hload harm hfault h2 hmax
  · exact fun _ _ _ _ hr hc h => plateAbort_waits hr hc h

end Sys2Proof.Machine
end

section
/-! PROOFS. Slots, boundaries and decisions (R68 to R72, R86 to R90, R112). -/

namespace Sys2Proof.Machine

/-! ### What shows the running period -/

/-- The running period: the unit's state and the registers that a boundary gives their values. -/
structure Face where
  qNext : Option Nat
  active : Option Plate
  arm : Option Arm
  drain : Option Drain
  curN : Nat
  herdTime : Nat
  qNow : Nat
  valid : Nat
  plateId : Nat

def W.face (w : W) : Face where
  qNext := w.plt.qNext
  active := w.plt.active
  arm := w.plt.arm
  drain := w.plt.drain
  curN := w.plt.curN
  herdTime := w.herdTime
  qNow := w.rd hrdB KPLT_PAUSE.q_now
  valid := w.rd hrdB KPLT_STATUS.active_valid
  plateId := w.rd hrdB KPLT_STATUS.active_plate_id

theorem W.face_of_rd {v w : W} (hp : v.plt = w.plt) (ht : v.herdTime = w.herdTime)
    (h1 : v.rd hrdB KPLT_PAUSE.q_now = w.rd hrdB KPLT_PAUSE.q_now)
    (h2 : v.rd hrdB KPLT_STATUS.active_valid = w.rd hrdB KPLT_STATUS.active_valid)
    (h3 : v.rd hrdB KPLT_STATUS.active_plate_id = w.rd hrdB KPLT_STATUS.active_plate_id) : v.face = w.face := by
  simp only [W.face, hp, ht, h1, h2, h3]

theorem W.face_of_hrd {v w : W} (hp : v.plt = w.plt) (ht : v.herdTime = w.herdTime)
    (hr : ∀ g : Fld, g.onHrd = true → v.rd hrdB g = w.rd hrdB g) : v.face = w.face :=
  W.face_of_rd hp ht (hr _ rfl) (hr _ rfl) (hr _ rfl)

theorem W.face_congr {v w : W} (hp : v.plt = w.plt) (ht : v.herdTime = w.herdTime) (hr : v.regs = w.regs) : v.face = w.face :=
  W.face_of_hrd hp ht fun _ _ => State.rd_congr hr ..

/-- The field lies outside the registers of plates. -/
def offPlate (b : Nat) (f : Fld) : Prop := f.lsb < 32 ∧ (b + f.off < 0x401000 ∨ 0x401020 ≤ b + f.off)

theorem W.wr_face_key (w : W) (b : Nat) (f : Fld) (v i : Nat) (h1 : KPLT_PAUSE.q_now.key hrdB 0 ≠ f.key b i)
    (h2 : KPLT_STATUS.active_valid.key hrdB 0 ≠ f.key b i) (h3 : KPLT_STATUS.active_plate_id.key hrdB 0 ≠ f.key b i) :
    (w.wr b f v i).face = w.face :=
  W.face_of_rd rfl rfl (W.rd_wr_ne _ _ _ _ _ _ _ _ h1) (W.rd_wr_ne _ _ _ _ _ _ _ _ h2) (W.rd_wr_ne _ _ _ _ _ _ _ _ h3)

theorem offPlate_key_ne {b : Nat} {f : Fld} (h : offPlate b f) (i : Nat) {g : Fld} (hl : g.lsb < 32) (h1 : 0x1000 ≤ g.off) (h2 : g.off < 0x1020) :
    g.key hrdB 0 ≠ f.key b i := by
  obtain ⟨hlsb, hoff⟩ := h
  unfold Fld.key hrdB
  omega

theorem W.wr_face (w : W) {b : Nat} {f : Fld} (v i : Nat) (h : offPlate b f) : (w.wr b f v i).face = w.face :=
  W.wr_face_key w b f v i (offPlate_key_ne h i (by decide) (by decide) (by decide))
    (offPlate_key_ne h i (by decide) (by decide) (by decide)) (offPlate_key_ne h i (by decide) (by decide) (by decide))

theorem W.inc_face (w : W) {b : Nat} {f : Fld} (k i : Nat) (h : offPlate b f) : (w.inc b f k i).face = w.face :=
  (W.face_congr rfl rfl rfl).trans (W.wr_face w (satAdd f.width (w.rd b f i) k) i h)
theorem W.flag_face (w : W) {b : Nat} {f : Fld} (v i : Nat) (h : offPlate b f) : (w.flag b f v i).face = w.face :=
  (W.face_congr rfl rfl rfl).trans (W.wr_face w (w.rd b f i ||| v) i h)
theorem W.high_face (w : W) {b : Nat} {f : Fld} (v i : Nat) (h : offPlate b f) : (w.high b f v i).face = w.face := by
  unfold W.high
  split
  · exact (W.face_congr rfl rfl rfl).trans (W.wr_face w v i h)
  · rfl

theorem offPlate_rtr (u : Nat) {f : Fld} (h : f.lsb < 32) : offPlate (rtrB u) f := ⟨h, .inr (by unfold rtrB; omega)⟩
theorem offPlate_stn (u : Nat) {f : Fld} (h : f.lsb < 32) : offPlate (stnB u) f := ⟨h, .inr (by unfold stnB; omega)⟩
theorem offPlate_unit (u : Nat) {f : Fld} (h : f.lsb < 32) : offPlate (unitB u) f := by
  refine ⟨h, .inr ?_⟩
  unfold unitB rtrB stnB mspB epB
  split
  · omega
  · split
    · omega
    · split
      · omega
      · omega

theorem W.each_face {α : Type} (l : List α) (f : W → α → W) (w : W) (h : ∀ v, ∀ a ∈ l, (f v a).face = v.face) :
    (w.each l f).face = w.face :=
  W.each_inv (fun v => v.face = w.face) l f w rfl fun v a ha hv => (h v a ha).trans hv

/-! Updates of what no period shows. -/

theorem W.face_net (w : W) (x : Net) : W.face { w with net := x } = w.face := W.face_congr rfl rfl rfl
theorem W.face_flt (w : W) (x : Flt) : W.face { w with flt := x } = w.face := W.face_congr rfl rfl rfl
theorem W.face_col (w : W) (x : Col) : W.face { w with col := x } = w.face := W.face_congr rfl rfl rfl
theorem W.face_sch (w : W) (x : Sch) : W.face { w with sch := x } = w.face := W.face_congr rfl rfl rfl
theorem W.face_sta (w : W) (x : Sta) : W.face { w with sta := x } = w.face := W.face_congr rfl rfl rfl

/-! ### Reports -/

theorem W.irq1_face (w : W) (k n : Nat) : (w.irq1 k n).face = w.face := W.face_congr (W.irq1_plt ..) (W.irq1_herdTime ..) (W.irq1_regs ..)
@[simp] theorem W.irqB_face (w : W) (k n : Nat) : (w.irqB k n).face = w.face := W.irq1_face ..
@[simp] theorem W.irqR_face (w : W) (k n : Nat) : (w.irqR k n).face = w.face := W.irq1_face ..
@[simp] theorem W.irqP_face (w : W) (n : Nat) : (w.irqP n).face = w.face := W.irq1_face ..

@[simp] theorem W.trace_face (w : W) (kind ev ctx : Nat) (p : List Byte) (on : Nat → Nat → Nat → Nat → Bool) :
    (w.trace kind ev ctx p on).face = w.face :=
  W.face_of_hrd (W.plt_of_bare (W.trace_bare ..)) (W.herdTime_of_bare (W.trace_bare ..)) fun _ h =>
    W.trace_rd _ _ _ _ _ _ _ _ _ (Fld.onHrd_offTrace h)
@[simp] theorem W.tracePlt_face (w : W) (e v i : Nat) : (w.tracePlt e v i).face = w.face := W.trace_face ..
@[simp] theorem W.traceFlt_face (w : W) (l c : Nat) : (w.traceFlt l c).face = w.face := W.trace_face ..

@[simp] theorem W.ev_face (w : W) (u code n ctx port vc : Nat) : (w.ev u code n ctx port vc).face = w.face :=
  W.face_of_rd (W.ev_plt ..) (W.ev_herdTime ..) (W.ev_rd _ _ _ _ _ _ _ _ _ _ ⟨by decide, by decide⟩)
    (W.ev_rd _ _ _ _ _ _ _ _ _ _ ⟨by decide, by decide⟩) (W.ev_rd _ _ _ _ _ _ _ _ _ _ ⟨by decide, by decide⟩)

@[simp] theorem W.answerAt_face (w : W) (q slot st stamp : Nat) (rd : List Byte) : (w.answerAt q slot st stamp rd).face = w.face :=
  W.face_of_hrd (W.answerAt_plt ..) (W.answerAt_herdTime ..) fun _ h => W.answerAt_hrd _ _ _ _ _ _ h
@[simp] theorem W.answer_face (w : W) (q slot st : Nat) (rd : List Byte) : (w.answer q slot st rd).face = w.face := W.answerAt_face ..

theorem W.sticky_face (w : W) {grp : Nat} (b : Nat) (h : grp < 65536) : (w.sticky grp b).face = w.face := by
  refine W.flag_face _ _ _ ⟨(by decide : KFLT_STICKY.sticky.lsb < 32), .inl ?_⟩
  simp only [fltB, Fld.at, KFLT_STICKY.sticky]
  omega

@[simp] theorem W.setClass_face (w : W) (c : Nat) : (w.setClass c).face = w.face := by
  have h := w.sticky_face c (grp := 12) (by decide)
  unfold W.setClass
  dsimp only
  generalize w.sticky 12 c = v at *
  rw [← h]
  split
  · rfl
  · split
    · exact W.face_congr rfl rfl rfl
    · exact W.face_congr rfl rfl rfl

theorem W.fault_face (w : W) (c : Nat) {l : Nat} (h : l < 65536) : (w.fault c l).face = w.face := by
  rw [W.fault, W.setClass_face, W.sticky_face _ _ (by omega), W.traceFlt_face]

theorem W.onError_face (w : W) {l : Nat} (wt : Nat) (h : l < 65536) : (w.onError l wt).face = w.face := by
  unfold W.onError
  dsimp only
  split
  · rfl
  · rw [apply_ite W.face, W.face_flt, W.fault_face _ _ h, W.face_flt, ite_self]

theorem locRegion_pregOfPhys_le (n : Nat) : locRegion (pregOfPhys n) ≤ n := by unfold locRegion pregOfPhys; omega

/-- No unit's location is far: the first case that holds gives it. -/
theorem locOf_lt (u : Nat) : locOf u < 65536 := by
  have hreg (n : Nat) : locRegion n ≤ n := Nat.le_refl n
  have hpos := locRegion_pregOfPhys_le
  have htine (n : Nat) : locTine n ≤ n + 160 := (Nat.add_comm ..).le
  have hbeam (n : Nat) : locBeam n ≤ n + 192 := (Nat.add_comm ..).le
  have hmsp (n : Nat) : locMsp n ≤ n + 224 := (Nat.add_comm ..).le
  have hep (n : Nat) : locEp n ≤ n + 288 := (Nat.add_comm ..).le
  have hpkg (n : Nat) : locPkg n ≤ n + 352 := (Nat.add_comm ..).le
  unfold locOf
  split_ifs with h1 h2 h3 h4 h5 h6 h7
  · have := hreg (u / 4); omega
  · have := hreg (u - 0x240); omega
  · have := htine (u - 0x300); omega
  · have := hbeam (u - 0x340); omega
  · have := hpos (u - 0x1000); omega
  · have := hmsp (u - 0x2000); omega
  · have := hep (u - 0x2040); omega
  · have := hpkg 2; omega
  · have := hpkg 9; omega

/-! ### Packets and buffers -/

theorem W.face_of_noNet {v w : W} (h : v.noNet = w.noNet) : v.face = w.face :=
  W.face_congr (by have e := congrArg (fun x : W => x.plt) h; exact e) (by have e := congrArg (fun x : W => x.herdTime) h; exact e)
    (by have e := congrArg (fun x : W => x.regs) h; exact e)

@[simp] theorem W.setBuf_face (w : W) (u p vc : Nat) (l : List Buf) : (w.setBuf u p vc l).face = w.face := W.face_net ..
@[simp] theorem W.pushBuf_face (w : W) (u p : Nat) (b : Buf) : (w.pushBuf u p b).face = w.face := W.setBuf_face ..
@[simp] theorem W.setNth_face (w : W) (u p vc i : Nat) (b : Buf) : (w.setNth u p vc i b).face = w.face := W.setBuf_face ..
@[simp] theorem W.delNth_face (w : W) (u p vc i : Nat) : (w.delNth u p vc i).face = w.face := W.setBuf_face ..
@[simp] theorem W.owe_face (w : W) (u p vc n : Nat) : (w.owe u p vc n).face = w.face := W.face_net ..
@[simp] theorem W.setArb_face (w : W) (u p n : Nat) (a : Arb) : (w.setArb u p n a).face = w.face := W.face_net ..
@[simp] theorem W.fresh_face (w : W) : w.fresh.face = w.face := W.face_congr rfl rfl rfl

@[simp] theorem W.reply_face (w : W) (u : Nat) (a : Packet) : (w.reply u a).face = w.face := by
  unfold W.reply
  split
  · exact W.face_of_noNet (W.deliver_noNet ..)
  · exact W.face_of_noNet (W.inject_noNet ..)
@[simp] theorem W.cmp_face (w : W) (u : Nat) (p : Packet) (st aux : Nat) : (w.cmp u p st aux).face = w.face := W.reply_face ..
@[simp] theorem W.rtrAns_face (w : W) (u inp : Nat) (p : Packet) (st aux : Nat) : (w.rtrAns u inp p st aux).face = w.face := W.pushBuf_face ..

@[simp] theorem W.util_face (w : W) (u o n : Nat) : (w.util u o n).face = w.face :=
  W.wr_face _ _ _ (offPlate_unit u (by simp [utilF]))

theorem W.rtrCount_face (w : W) (u : Nat) {f : Fld} (h : f.lsb < 32) : (w.rtrCount u f).face = w.face := by
  have hinc := w.inc_face 1 0 (offPlate_rtr u h)
  unfold W.rtrCount
  dsimp only
  split
  · rw [W.irqR_face, hinc]
  · split
    · rw [W.irqR_face, hinc]
    · exact hinc

@[simp] theorem W.hdrBad_face (w : W) (u : Nat) : (w.hdrBad u).face = w.face := by
  rw [W.hdrBad, W.fault_face _ _ (locOf_lt u)]
  split
  · exact W.rtrCount_face _ _ (by decide)
  · rfl

@[simp] theorem W.payloadBad_face (w : W) (u : Nat) : (w.payloadBad u).face = w.face := by
  unfold W.payloadBad
  split
  · exact W.rtrCount_face _ _ (by decide)
  · rfl

@[simp] theorem W.corrAt_face (w : W) (u : Nat) : (w.corrAt (locOf u)).face = w.face := W.onError_face _ _ (locOf_lt u)
@[simp] theorem W.uncorrAt_face (w : W) (u : Nat) : (w.uncorrAt (locOf u)).face = w.face := by
  rw [W.uncorrAt, W.onError_face _ _ (locOf_lt u), W.fault_face _ _ (locOf_lt u)]

@[simp] theorem W.rxCode_face (w : W) (u : Nat) (msg : List Byte) (errs : List (Nat × Byte)) : (w.rxCode u msg errs).2.face = w.face := by
  unfold W.rxCode
  split
  · rfl
  · split
    · simp
    · simp
    · simp

/-- A piece that is received changes no more than its errors report. -/
@[simp] theorem W.rxPhit_face (w : W) (u net n : Nat) (p : Piece) (errs : List Err) : (w.rxPhit u net n p errs).2.face = w.face := by
  unfold W.rxPhit
  split
  · rfl
  · extract_lets head ws
    have h1 := w.rxCode_face u (ws.headD []) (errsOf errs 0)
    split
    · rename_i v hv
      rw [hv] at h1
      split
      · exact h1
      · exact (W.payloadBad_face ..).trans h1
    · rename_i a v hv
      rw [hv] at h1
      dsimp only
      split
      · exact h1
      · rename_i m l hl
        have h2 := v.rxCode_face u m (errsOf errs 1)
        split
        · rename_i x hx
          rw [hx] at h2
          split
          · exact h2.trans h1
          · split
            · exact h2.trans h1
            · exact (W.payloadBad_face ..).trans (h2.trans h1)
        · rename_i b x hx
          rw [hx] at h2
          split
          · exact h2.trans h1
          · exact h2.trans h1

@[simp] theorem W.dropNth_face (w : W) (u p vc i : Nat) : (w.dropNth u p vc i).face = w.face := by
  unfold W.dropNth
  split
  · rfl
  · extract_lets n v
    have hv : v.face = w.face := by
      unfold v
      split
      · simp
      · rfl
    split
    · simp [hv]
    · simp [hv]

@[simp] theorem W.openBad_face (w : W) (u p : Nat) (pc : Piece) (k : Nat) : (w.openBad u p pc k).face = w.face := by
  unfold W.openBad
  extract_lets vc v
  have hv : v.face = w.face := by simp [v]
  split
  · exact hv
  · simp [hv]

@[simp] theorem W.openPkt_face (w : W) (u p : Nat) (pc : Piece) (k : Nat) : (w.openPkt u p pc k).face = w.face := by
  unfold W.openPkt
  extract_lets vc v x pkt1 pkt2 rsp b1 b2 y
  have hv : v.face = w.face := by
    unfold v
    split
    · split
      · split
        · simp
        · simp
      · rfl
    · rfl
  have hx : x.face = w.face := by
    simp only [x, W.owe_face]
    exact (W.inc_face _ _ _ (offPlate_rtr u (by decide))).trans hv
  have hy : y.face = w.face := by
    unfold y
    split
    · simp [hv]
    · exact hv
  split
  · split
    · exact hx
    · simp [hx]
  · split
    · simp [hv]
    · rw [W.setBuf_face]
      split
      · simp [hy]
      · exact hy

@[simp] theorem W.joinPkt_face (w : W) (u p i : Nat) (b : Buf) (pc : Piece) (k : Nat) : (w.joinPkt u p i b pc k).face = w.face := by
  unfold W.joinPkt
  extract_lets vc b1 v1 v2 gap pkt1 off pkt2 pkt3 rsp b2 early v3
  have h1 : v1.face = w.face := by simp [v1]
  have h2 : v2.face = w.face := by simp [v2]
  have h3 : v3.face = w.face := by
    unfold v3
    split
    · simp
    · rfl
  split
  · split
    · simp [h1]
    · simp [h1]
  · split
    · simp [h2]
    · split
      · simp
      · split
        · simp [h3]
        · simp [h3]

@[simp] theorem W.screen_face (w : W) (u p vc : Nat) : (w.screen u p vc).face = w.face := by
  unfold W.screen
  split
  · rfl
  · split
    · rfl
    · dsimp only
      split
      · simp
      · simp

@[simp] theorem W.arriveAt_face (w : W) (u p : Nat) (pc : Piece) : (w.arriveAt u p pc).face = w.face := by
  unfold W.arriveAt
  extract_lets vc v k
  have hv : v.face = w.face := by
    unfold v
    split
    · rfl
    · split
      · simp
      · simp
  split
  · simp [hv]
  · split
    · simp [hv]
    · split
      · exact hv
      · simp [hv]

@[simp] theorem W.acceptRsp_face (w : W) (u p vc : Nat) : (w.acceptRsp u p vc).face = w.face := by simp [W.acceptRsp]

@[simp] theorem W.landAt_face (w : W) (u p : Nat) (pc : Piece) : (w.landAt u p pc).face = w.face := by
  unfold W.landAt
  dsimp only
  split
  · simp
  · split
    · simp
    · simp

@[simp] theorem W.sample_face (w : W) (k v ctx : Nat) : (w.sample k v ctx).face = w.face := by
  unfold W.sample
  split
  · rfl
  · split
    · rfl
    · exact W.face_congr rfl rfl rfl

@[simp] theorem W.answered_face (w : W) (u : Nat) (pkt : Packet) (last : Bool) : (w.answered u pkt last).face = w.face := by
  unfold W.answered
  split
  · split
    · split
      · split
        · simp
        · rfl
      · rfl
    · rfl
  · rfl

@[simp] theorem W.overLink_face (w : W) (u p : Nat) (pc : Piece) (errs : List Err) : (w.overLink u p pc errs).face = w.face := by
  unfold W.overLink
  split
  · rfl
  · simp

@[simp] theorem W.staleAns_face (w : W) (u inp : Nat) (p : Packet) : (w.staleAns u inp p).face = w.face := by
  unfold W.staleAns
  dsimp only
  split
  · rfl
  · split
    · split
      · simp
      · rfl
    · rw [apply_ite W.face, W.rtrAns_face, W.rtrAns_face, W.face_net, ite_self]

@[simp] theorem W.staleGen_face (w : W) (u inp : Nat) (p : Packet) : (w.staleGen u inp p).face = w.face := by
  rw [W.staleGen, W.staleAns_face, W.inc_face _ _ _ (offPlate_rtr u (by decide))]

@[simp] theorem W.mrgCount_face (w : W) (t : Nat) : (w.mrgCount t).face = w.face := by
  unfold W.mrgCount
  dsimp only
  rw [W.high_face _ _ _ (offPlate_rtr _ (by decide)), W.wr_face _ _ _ (offPlate_rtr _ (by decide))]

@[simp] theorem W.ownGone_face (w : W) (u src : Nat) (p : Packet) : (w.ownGone u src p).face = w.face := by
  have hv := w.inc_face 1 0 (offPlate_rtr u (by decide : KRTR_ABSORB.stale_absorb.lsb < 32))
  unfold W.ownGone
  dsimp only
  generalize W.inc w _ _ = v at *
  rw [← hv]
  split
  · simp
  · split
    · split
      · rfl
      · rw [W.each_face _ _ _ fun _ _ _ => W.staleAns_face .., W.mrgCount_face, W.face_col]
    · rfl

@[simp] theorem W.afterSend_face (w : W) (u src vc i : Nat) (b : Buf) : (w.afterSend u src vc i b).face = w.face := by
  unfold W.afterSend
  dsimp only
  split
  · split
    · simp
    · simp
  · rw [apply_ite W.face]
    simp

@[simp] theorem W.dropCopy_face (w : W) (u src vc i port : Nat) : (w.dropCopy u src vc i port).face = w.face := by
  unfold W.dropCopy
  split
  · rfl
  · dsimp only
    split
    · simp
    · simp

@[simp] theorem W.endDownstream_face (w : W) (u port : Nat) (pkt : Packet) (sent : Nat) : (w.endDownstream u port pkt sent).face = w.face := by
  rw [W.endDownstream, W.overLink_face, W.face_net]

/-! ### Dead ports and parts -/

@[simp] theorem W.cutCopies_face (w : W) (u port k : Nat) : (w.cutCopies u port k).face = w.face := by
  unfold W.cutCopies
  refine W.each_face _ _ _ fun v i _ => ?_
  split
  · rfl
  · split
    · rfl
    · extract_lets x y
      have hy : y.face = v.face := by
        simp only [y, x, W.dropCopy_face]
        split
        · rfl
        · simp
      split
      · simp [hy]
      · simp [hy]

@[simp] theorem W.absorbDead_face (w : W) (u port : Nat) : (w.absorbDead u port).face = w.face := by
  unfold W.absorbDead
  split
  · exact W.each_face _ _ _ fun _ _ _ => W.cutCopies_face ..
  · rfl

@[simp] theorem W.cutPlacing_face (w : W) (u port : Nat) : (w.cutPlacing u port).face = w.face := by
  unfold W.cutPlacing
  extract_lets a
  split
  · rfl
  · rename_i pc l hl
    extract_lets k v x
    have hx : x.face = w.face := by
      simp only [x, W.setArb_face]
      exact W.face_net ..
    split
    · split
      · exact hx
      · simp [hx]
    · split
      · simp [hx]
      · split
        · simp [hx]
        · simp [hx]

@[simp] theorem W.portDie_face (w : W) (u port : Nat) : (w.portDie u port).face = w.face := by
  unfold W.portDie
  extract_lets v x
  have hv : v.face = w.face := by
    unfold v
    split
    · exact W.wr_face _ _ _ (offPlate_rtr u (by decide))
    · exact W.wr_face _ _ _ (offPlate_rtr u (by decide))
  have hx : x.face = w.face := by simp [x, hv]
  split
  · rfl
  · refine (W.each_face _ _ _ fun y n _ => ?_).trans hx
    dsimp only
    split
    · rfl
    · simp

/-- A change of the lanes that boundaries retire shows in no period. -/
theorem W.face_killPend (w : W) (l : List (Nat × Nat)) : W.face { w with plt.killPend := l } = w.face := by
  simp only [W.face]
  rfl

@[simp] theorem W.portKill_face (w : W) (u p : Nat) : (w.portKill u p).face = w.face := by
  unfold W.portKill
  split
  · rfl
  · rw [← w.portDie_face u p]
    generalize w.portDie u p = v
    exact W.face_killPend ..

@[simp] theorem W.epDead_face (w : W) (ep : Nat) : (w.epDead ep).face = w.face := W.face_net ..
@[simp] theorem W.upDead_face (w : W) (k : Nat) : (w.upDead k).face = w.face := W.each_face _ _ _ fun _ _ _ => W.portKill_face ..

@[simp] theorem W.setRbank_face (w : W) (b : Nat) (v : RBank) : (w.setRbank b v).face = w.face := by
  unfold W.setRbank
  split
  · exact W.face_net ..
  · exact W.face_net ..
@[simp] theorem W.setHbank_face (w : W) (b : Nat) (v : HBank) : (w.setHbank b v).face = w.face := by
  unfold W.setHbank
  split
  · exact W.face_net ..
  · exact W.face_net ..
@[simp] theorem W.defRegions_face (w : W) (b : Nat) : (w.defRegions b).face = w.face := W.setHbank_face ..
@[simp] theorem W.redefRegions_face (w : W) : w.redefRegions.face = w.face := by simp [W.redefRegions]

@[simp] theorem W.partDead_face (w : W) (loc : Nat) : (w.partDead loc).face = w.face := by
  unfold W.partDead
  extract_lets src v t x m y ep z
  have hv : v.face = w.face := W.face_flt ..
  have hx : x.face = w.face := by
    refine (W.each_face _ _ _ fun u p _ => ?_).trans hv
    split
    · split
      · simp
      · simp
    · rfl
  have hy : y.face = w.face := by
    unfold y
    split
    · simp [hv]
    · exact hv
  have hz : z.face = w.face := by
    unfold z
    split
    · simp [hv]
    · exact hv
  split
  · rfl
  · split
    · exact hx
    · split
      · split
        · rename_i k hk
          rw [W.redefRegions_face, ← hv, ← v.upDead_face k]
          generalize v.upDead k = u
          exact W.face_net ..
        · exact hv
      · split
        · simp [hy]
        · split
          · simp [hz]
          · exact hv

@[simp] theorem W.noSpare_face (w : W) : w.noSpare.face = w.face := W.setClass_face ..

@[simp] theorem W.spareStart_face (w : W) (kind what q slot : Nat) : (w.spareStart kind what q slot).face = w.face := by
  unfold W.spareStart
  dsimp only
  split
  · exact W.face_flt ..
  · exact (W.face_congr rfl rfl rfl).trans (W.wr_face w (f := KGBL_SITE.pon) 1 _ ⟨by decide, by decide⟩)
  · simp only [W.face]
    rfl

@[simp] theorem W.wantPoll_face (w : W) : w.wantPoll.face = w.face := by
  unfold W.wantPoll
  split
  · rfl
  · extract_lets st src v x
    have hv : v.face = w.face := W.face_flt ..
    have hx : x.face = w.face := by
      unfold x
      split
      · exact hv
      · simp [hv]
    split
    · rfl
    · split
      · rfl
      · split
        · simp [hv]
        · split
          · split
            · simp [hx]
            · exact hx
          · exact hx

@[simp] theorem W.stage_face (w : W) : w.stage.face = w.face := by
  unfold W.stage
  dsimp only
  split
  · rfl
  · rw [W.wr_face _ _ _ ⟨by decide, by decide⟩, W.setHbank_face, W.setRbank_face]

@[simp] theorem W.acceptCommit_face (w : W) (q slot : Nat) : (w.acceptCommit q slot).face = w.face := W.face_net ..

@[simp] theorem W.spareCommit_face (w : W) : w.spareCommit.face = w.face := by
  unfold W.spareCommit
  split
  · rfl
  · split
    · rfl
    · extract_lets v b ms r r2 hs h x
      have hx : x.face = w.face := by simp [x, v]
      rw [← hx, ← x.acceptCommit_face 255 0]
      exact W.face_flt ..

@[simp] theorem W.sparePoll_face (w : W) : w.sparePoll.face = w.face := by simp [W.sparePoll]

@[simp] theorem W.rowsNow_face (w : W) : w.rowsNow.face = w.face := by
  unfold W.rowsNow
  dsimp only
  refine (W.each_face _ _ _ fun v r _ => ?_).trans (W.face_flt ..)
  split
  · exact W.face_flt ..
  · split
    · rw [W.wr_face _ _ _ (offPlate_unit _ (by decide)), W.face_flt]
    · split
      · rw [W.wr_face _ _ _ (offPlate_rtr _ (by decide)), W.wr_face _ _ _ (offPlate_rtr _ (by decide)), W.face_flt]
      · exact W.face_flt ..

/-! ### The ends of streams -/

/-- The running period and the streams. -/
def W.timed (w : W) : Face × Sch := (w.face, w.sch)

theorem W.timed_of {v w : W} (hf : v.face = w.face) (hs : v.sch = w.sch) : v.timed = w.timed := Prod.ext hf hs
theorem W.timed_congr {v w : W} (hp : v.plt = w.plt) (ht : v.herdTime = w.herdTime) (hr : v.regs = w.regs) (hs : v.sch = w.sch) :
    v.timed = w.timed := W.timed_of (W.face_congr hp ht hr) hs
theorem W.face_of_timed {v w : W} (h : v.timed = w.timed) : v.face = w.face := congrArg Prod.fst h
theorem W.sch_of_timed {v w : W} (h : v.timed = w.timed) : v.sch = w.sch := congrArg Prod.snd h

theorem W.timed_sta (w : W) (x : Sta) : W.timed { w with sta := x } = w.timed := W.timed_congr rfl rfl rfl rfl
theorem W.timed_col (w : W) (x : Col) : W.timed { w with col := x } = w.timed := W.timed_congr rfl rfl rfl rfl

/-- A register of a station's window. -/
theorem W.wr_timed (w : W) (st : Nat) {f : Fld} (v i : Nat) (h : f.lsb < 32) : (w.wr (stnB st) f v i).timed = w.timed :=
  W.timed_of (W.wr_face _ _ _ (offPlate_stn st h)) rfl
theorem W.inc_timed (w : W) (st : Nat) {f : Fld} (k i : Nat) (h : f.lsb < 32) : (w.inc (stnB st) f k i).timed = w.timed :=
  W.timed_of (W.inc_face _ _ _ (offPlate_stn st h)) rfl
theorem W.dec_timed (w : W) (st : Nat) {f : Fld} (k i : Nat) (h : f.lsb < 32) : (w.dec (stnB st) f k i).timed = w.timed :=
  W.wr_timed _ _ _ _ h
theorem W.high_timed (w : W) (st : Nat) {f : Fld} (v i : Nat) (h : f.lsb < 32) : (w.high (stnB st) f v i).timed = w.timed :=
  W.timed_of (W.high_face _ _ _ (offPlate_stn st h)) (W.high_sch ..)
theorem W.irqB_timed (w : W) (st n : Nat) : (w.irqB st n).timed = w.timed := W.timed_of (W.irqB_face ..) (W.irqB_sch ..)
theorem W.ev_timed (w : W) (u code n ctx port vc : Nat) : (w.ev u code n ctx port vc).timed = w.timed :=
  W.timed_of (W.ev_face ..) (W.ev_sch ..)

theorem W.writePart_timed (w : W) (sram : Bool) (a : Nat) (d : List Byte) (p : Bool) : (w.writePart sram a d p).timed = w.timed := by
  unfold W.writePart
  dsimp only
  split
  · rfl
  · split
    · rfl
    · rfl

theorem W.sramWrite_timed (w : W) (st a : Nat) (d : List Byte) (m : Nat) : (w.sramWrite st a d m).timed = w.timed :=
  W.each_inv (fun v => v.timed = w.timed) _ _ _ rfl fun _ _ _ h => (W.writePart_timed ..).trans h

theorem W.complete_timed (w : W) (st e status detail : Nat) : (w.complete st e status detail).timed = w.timed := by
  unfold W.complete
  split
  · rfl
  · extract_lets b q cq t ph n kind det rec v1 wrap v2 src v3 v4 v5 v6 src2 v7 v8
    have h2 : v2.timed = w.timed := (W.wr_timed _ _ _ _ (by decide)).trans (W.sramWrite_timed ..)
    have h3 : v3.timed = w.timed := (W.timed_sta ..).trans h2
    have h4 : v4.timed = w.timed := by
      unfold v4
      split
      · exact (W.wr_timed _ _ _ _ (by decide)).trans h3
      · exact h3
    have h6 : v6.timed = w.timed :=
      (W.dec_timed _ _ _ _ (by decide)).trans ((W.dec_timed _ _ _ _ (by decide)).trans ((W.dec_timed _ _ _ _ (by decide)).trans h4))
    have h8 : v8.timed = w.timed := (W.ev_timed ..).trans ((W.timed_sta ..).trans h6)
    split
    · exact (W.irqB_timed ..).trans h8
    · exact h8

theorem W.foldCount_timed (w : W) (st : Nat) : (w.foldCount st).timed = w.timed := by
  unfold W.foldCount
  dsimp only
  rw [W.high_timed _ _ _ _ (by decide), W.wr_timed _ _ _ _ (by decide), W.wr_timed _ _ _ _ (by decide)]

theorem W.delFold_timed (w : W) (st i : Nat) : (w.delFold st i).timed = w.timed := by rw [W.delFold, W.foldCount_timed, W.timed_col]

theorem W.collEnd_timed (w : W) (st e status detail : Nat) : (w.collEnd st e status detail).timed = w.timed := by
  unfold W.collEnd
  split
  · rfl
  · extract_lets b src v1 v2 v3
    have h1 : v1.timed = w.timed := W.timed_col ..
    have h2 : v2.timed = w.timed := by
      unfold v2
      split
      · exact h1
      · exact (W.delFold_timed ..).trans h1
    have h3 : v3.timed = w.timed := by
      unfold v3
      split
      · exact (W.inc_timed _ _ _ _ (by decide)).trans h2
      · split
        · exact (W.inc_timed _ _ _ _ (by decide)).trans h2
        · split
          · exact (W.inc_timed _ _ _ _ (by decide)).trans h2
          · exact h2
    exact (W.complete_timed ..).trans h3

theorem W.collStream_timed (w : W) (st k status short : Nat) (recv : Bool) : (w.collStream st k status short recv).timed = w.timed := by
  unfold W.collStream
  split
  · rfl
  · extract_lets c src v
    have hv : v.timed = w.timed := W.timed_col ..
    split
    · exact (W.collEnd_timed ..).trans hv
    · exact hv

/-- A stream that ends is closed with its status (R112), and nothing more is changed of the streams and the running period. -/
theorem W.strmEnd_timed (w : W) (st k cause : Nat) (h : (w.strmAt st k).state ≠ 0) : (w.strmEnd st k cause).timed
    = (w.setStrm st k { w.strmAt st k with state := 0, lastStatus := (w.strmAt st k).status cause }).timed := by
  unfold W.strmEnd
  extract_lets x status v1 v2 v3
  rw [if_neg h, W.collStream_timed]
  unfold v3
  split
  · exact (W.irqB_timed ..).trans (W.complete_timed ..)
  · exact W.complete_timed ..

@[simp] theorem W.strmEnd_face (w : W) (st k cause : Nat) : (w.strmEnd st k cause).face = w.face := by
  by_cases h : (w.strmAt st k).state = 0
  · unfold W.strmEnd
    extract_lets x
    rw [if_pos h]
  · exact (W.face_of_timed (w.strmEnd_timed st k cause h)).trans (W.face_sch ..)

@[simp] theorem W.strmsEnd_face (w : W) (f : Nat → Nat → Strm → Bool) (cause : Nat) : (w.strmsEnd f cause).face = w.face :=
  W.each_face _ _ _ fun _ _ _ => W.strmEnd_face ..

/-! ### The boundary -/

@[simp] theorem W.setStaged_face (w : W) (p : Option Plate) : (w.setStaged p).face = w.face := by
  have hp := W.plt_of_bare (w.setStaged_bare p)
  have ht := W.herdTime_of_bare (w.setStaged_bare p)
  have hrd (g : Fld) (h1 : g.key hrdB 0 ≠ KPLT_STATUS.staged_valid.key hrdB 0) (h2 : g.key hrdB 0 ≠ KPLT_ARM.staged_plate_id.key hrdB 0)
      (h3 : g.key hrdB 0 ≠ KGBL_GOV_PLATE.p_staged.key gblB 0) := w.setStaged_rd p h1 h2 h3
  simp only [W.face, hp, ht, hrd KPLT_PAUSE.q_now (by decide) (by decide) (by decide),
    hrd KPLT_STATUS.active_valid (by decide) (by decide) (by decide), hrd KPLT_STATUS.active_plate_id (by decide) (by decide) (by decide)]

@[simp] theorem W.setRetired_face (w : W) (m : Nat) : (w.setRetired m).face = w.face := by
  unfold W.setRetired
  dsimp only
  rw [W.wr_face_key _ _ _ _ _ (by decide) (by decide) (by decide), W.wr_face_key _ _ _ _ _ (by decide) (by decide) (by decide)]

/-- What the unit keeps beside the running period shows in none. -/
theorem W.face_plt {w : W} {x : Plt} (h : x.qNext = w.plt.qNext ∧ x.active = w.plt.active ∧ x.arm = w.plt.arm ∧ x.drain = w.plt.drain
    ∧ x.curN = w.plt.curN) : W.face { w with plt := x } = w.face := by
  obtain ⟨h1, h2, h3, h4, h5⟩ := h
  simp only [W.face, h1, h2, h3, h4, h5]
  rfl

@[simp] theorem W.retireLanes_face (w : W) (m : Nat) : (w.retireLanes m).face = w.face := by
  unfold W.retireLanes
  split
  · rfl
  · refine W.each_face _ _ _ fun v l _ => ?_
    rw [W.setRetired_face]
    exact W.face_plt ⟨rfl, rfl, rfl, rfl, rfl⟩

@[simp] theorem W.loadEnd_face (w : W) (st : Nat) : (w.loadEnd st).face = w.face := by
  unfold W.loadEnd
  split
  · rfl
  · rw [W.answer_face, W.setStaged_face, W.wr_face_key _ _ _ _ _ (by decide) (by decide) (by decide)]
    exact W.face_plt ⟨rfl, rfl, rfl, rfl, rfl⟩

@[simp] theorem W.abortsOk_face (w : W) : w.abortsOk.face = w.face :=
  (W.each_face _ _ _ fun _ _ _ => W.answer_face ..).trans (W.face_plt ⟨rfl, rfl, rfl, rfl, rfl⟩)

/-! Spares take their places. -/

theorem offPlate_stn_at (st n : Nat) {f : Fld} (h : f.lsb < 32) : offPlate (stnB st) (f.at n) := offPlate_stn (f := f.at n) st h

@[simp] theorem W.irqSet_face (w : W) (k : Nat) (v : IrqSrc) : (w.irqSet k v).face = w.face := W.face_congr rfl rfl rfl

@[simp] theorem W.moveBank_face (w : W) (old new_ : Nat) : (w.moveBank old new_).face = w.face := by
  unfold W.moveBank
  dsimp only
  rw [W.wr_face _ _ _ (offPlate_stn _ (by decide))]
  refine W.each_face _ _ _ fun v n _ => ?_
  rw [W.irqSet_face, W.wr_face _ _ _ (offPlate_stn_at _ _ (by decide)), W.wr_face _ _ _ (offPlate_stn_at _ _ (by decide)),
    W.wr_face _ _ _ (offPlate_stn_at _ _ (by decide))]

@[simp] theorem W.moveMembers_face (w : W) (old new_ : Nat) : (w.moveMembers old new_).face = w.face := W.face_col ..

@[simp] theorem W.startFenced_face (w : W) (st : Nat) (rst : Bool) : (w.startFenced st rst).face = w.face := by
  unfold W.startFenced W.setSink
  dsimp only
  rw [W.face_sta, W.wr_face _ _ _ (offPlate_rtr _ (by decide)), W.wr_face _ _ _ (offPlate_stn _ (by decide))]

@[simp] theorem W.newPlace_face (w : W) : w.newPlace.face = w.face :=
  W.wr_face_key _ _ _ _ _ (by decide) (by decide) (by decide)

@[simp] theorem W.placeCore_face (w : W) (l : Nat) : (w.placeCore l).face = w.face := by
  unfold W.placeCore
  dsimp only
  simp only [W.newPlace_face, W.irqR_face, W.startFenced_face, W.moveMembers_face, W.moveBank_face]
  rw [W.wr_face _ _ _ ⟨by decide, by decide⟩, W.wr_face _ _ _ ⟨by decide, by decide⟩]

@[simp] theorem W.placeDie_face (w : W) (d site : Nat) : (w.placeDie d site).face = w.face := by
  unfold W.placeDie
  extract_lets old from_ v s1 s2 x y
  have hv : v.face = w.face := by
    refine W.each_face _ _ _ fun u p _ => ?_
    rw [W.wr_face _ _ _ ⟨by decide, by decide⟩, W.wr_face _ _ _ ⟨by decide, by decide⟩]
  refine (W.newPlace_face ..).trans ?_
  refine (W.each_face _ _ _ fun u e _ => ?_).trans (b := x.face) ?_
  · simp
  · exact (W.face_flt ..).trans ((W.wr_face _ _ _ ⟨by decide, by decide⟩).trans hv)

@[simp] theorem W.placeBeam_face (w : W) (k b : Nat) : (w.placeBeam k b).face = w.face := by
  unfold W.placeBeam
  extract_lets src v src2 x y
  have hv : v.face = w.face := by
    unfold v
    split
    · exact W.face_flt ..
    · rfl
  have hx : x.face = w.face := (W.redefRegions_face ..).trans ((W.face_net ..).trans hv)
  refine (W.each_face _ _ _ fun u t _ => ?_).trans hx
  dsimp only
  split
  · exact W.wr_face _ _ _ (offPlate_rtr _ (by decide))
  · exact W.wr_face _ _ _ (offPlate_rtr _ (by decide))

@[simp] theorem W.spareEnd_face (w : W) (st : Nat) : (w.spareEnd st).face = w.face := by
  unfold W.spareEnd
  split
  · rfl
  · exact (W.answer_face ..).trans (W.face_flt ..)

/-- The q of the running period, and the one decided for the next. -/
def W.beat (w : W) : Option Nat × Nat := (w.plt.qNext, w.rd hrdB KPLT_PAUSE.q_now)

theorem W.beat_of_face {v w : W} (h : v.face = w.face) : v.beat = w.beat :=
  Prod.ext (congrArg Face.qNext h) (congrArg Face.qNow h)

theorem W.beat_congr {v w : W} (hq : v.plt.qNext = w.plt.qNext) (hr : v.regs = w.regs) : v.beat = w.beat :=
  Prod.ext hq (State.rd_congr hr ..)

theorem W.wr_beat (w : W) (b : Nat) (f : Fld) (v i : Nat) (h : KPLT_PAUSE.q_now.key hrdB 0 ≠ f.key b i) : (w.wr b f v i).beat = w.beat :=
  Prod.ext rfl (W.rd_wr_ne _ _ _ _ _ _ _ _ h)

theorem W.armEnd_beat (w : W) (st : Nat) : (w.armEnd st).beat = w.beat :=
  Prod.ext (by have e := congrArg (fun x : W => x.plt.qNext) (w.armEnd_bareA st); exact e) (W.armEnd_hrd _ _ rfl (by decide))

theorem W.stopPlate_beat (w : W) (halt abort fault : Bool) : (w.stopPlate halt abort fault).beat = w.beat := by
  unfold W.stopPlate
  extract_lets v src src2 x
  have hv : v.beat = w.beat := by
    unfold v
    split
    · exact W.armEnd_beat ..
    · rfl
  have hx : x.beat = w.beat := (W.beat_congr rfl rfl).trans hv
  split
  · exact hx
  · split
    · split
      · exact (W.beat_congr rfl rfl).trans hx
      · exact hx
    · exact (W.beat_of_face (W.abortsOk_face ..)).trans hx

theorem W.placeChange_beat (w : W) (o : SpareOp) : (w.placeChange o).beat = w.beat := by
  unfold W.placeChange
  extract_lets lanes v src src2 x
  have hv : v.beat = w.beat := (W.beat_of_face ((W.setStaged_face ..).trans (W.loadEnd_face ..))).trans (W.armEnd_beat ..)
  have hx : x.beat = w.beat := (W.beat_congr rfl rfl).trans hv
  split
  · exact (W.beat_of_face (W.placeCore_face ..)).trans hx
  · exact (W.beat_of_face (W.placeDie_face ..)).trans hx

theorem W.spareBoundary_beat (w : W) : w.spareBoundary.beat = w.beat := by
  unfold W.spareBoundary
  split
  · rfl
  · split
    · rfl
    · split
      · exact W.beat_of_face ((W.spareEnd_face ..).trans (W.placeBeam_face ..))
      · exact W.placeChange_beat ..

theorem W.showPlate_beat (w : W) : w.showPlate.beat = w.beat := by
  unfold W.showPlate
  split
  · rw [W.wr_beat _ _ _ _ _ (by decide), W.wr_beat _ _ _ _ _ (by decide), W.wr_beat _ _ _ _ _ (by decide)]
  · rw [W.wr_beat _ _ _ _ _ (by decide), W.wr_beat _ _ _ _ _ (by decide)]

theorem W.wr_valid_face (w : W) : (w.wr hrdB KPLT_STATUS.active_valid 1).face = { w.face with valid := 1 } := by
  have hq : (w.wr hrdB KPLT_STATUS.active_valid 1).rd hrdB KPLT_PAUSE.q_now = w.rd hrdB KPLT_PAUSE.q_now :=
    W.rd_wr_ne _ _ _ _ _ _ _ _ (by decide)
  have hid : (w.wr hrdB KPLT_STATUS.active_valid 1).rd hrdB KPLT_STATUS.active_plate_id = w.rd hrdB KPLT_STATUS.active_plate_id :=
    W.rd_wr_ne _ _ _ _ _ _ _ _ (by decide)
  simp only [W.face, W.wr_plt, W.wr_herdTime, hq, hid, W.rd_wr_self]
  rfl

theorem W.wr_qNow_face (w : W) (q : Nat) : (w.wr hrdB KPLT_PAUSE.q_now q).face = { w.face with qNow := q % 2 ^ 7 } := by
  have hvalid : (w.wr hrdB KPLT_PAUSE.q_now q).rd hrdB KPLT_STATUS.active_valid = w.rd hrdB KPLT_STATUS.active_valid :=
    W.rd_wr_ne _ _ _ _ _ _ _ _ (by decide)
  have hid : (w.wr hrdB KPLT_PAUSE.q_now q).rd hrdB KPLT_STATUS.active_plate_id = w.rd hrdB KPLT_STATUS.active_plate_id :=
    W.rd_wr_ne _ _ _ _ _ _ _ _ (by decide)
  simp only [W.face, W.wr_plt, W.wr_herdTime, hvalid, hid, W.rd_wr_self]
  rfl

theorem W.wr_plateId_face (w : W) (n : Nat) : (w.wr hrdB KPLT_STATUS.active_plate_id n).face = { w.face with plateId := n % 2 ^ 16 } := by
  have hq : (w.wr hrdB KPLT_STATUS.active_plate_id n).rd hrdB KPLT_PAUSE.q_now = w.rd hrdB KPLT_PAUSE.q_now :=
    W.rd_wr_ne _ _ _ _ _ _ _ _ (by decide)
  have hvalid : (w.wr hrdB KPLT_STATUS.active_plate_id n).rd hrdB KPLT_STATUS.active_valid = w.rd hrdB KPLT_STATUS.active_valid :=
    W.rd_wr_ne _ _ _ _ _ _ _ _ (by decide)
  simp only [W.face, W.wr_plt, W.wr_herdTime, hq, hvalid, W.rd_wr_self]
  rfl

/-- The swap (R88): the plate is the active one, and no arm is left. -/
theorem W.swap_face {w : W} {a : Arm} {p : Plate} (h : (if a.active then w.plt.active else w.plt.staged) = some p) :
    (w.swap a).face = { w.face with active := some p, arm := none, valid := 1 } := by
  unfold W.swap
  dsimp only
  rw [h]
  dsimp only
  rw [W.answerAt_face, W.face_sch, W.tracePlt_face, W.irqP_face, W.strmsEnd_face, W.strmsEnd_face, W.setRetired_face, W.face_sch,
    W.wr_face_key _ _ _ _ _ (by decide) (by decide) (by decide), W.wr_face_key _ _ _ _ _ (by decide) (by decide) (by decide),
    W.wr_valid_face, apply_ite W.face, W.setStaged_face, ite_self]
  rfl

theorem W.swap_beat (w : W) (a : Arm) : (w.swap a).beat = w.beat := by
  cases h : if a.active then w.plt.active else w.plt.staged with
  | none =>
    unfold W.swap
    simp only [h]
    exact W.armEnd_beat ..
  | some p =>
    have hf := W.swap_face h
    exact Prod.ext (congrArg Face.qNext hf) (congrArg Face.qNow hf)

/-- The period begins with the q decided for it, cut to its field, or with the old one; no q is decided for the next. -/
theorem W.nextQ_face (w : W) : w.nextQ.face
    = { w.face with qNext := none, qNow := w.plt.qNext.getD (w.rd hrdB KPLT_PAUSE.q_now) % 2 ^ 7 } := by
  unfold W.nextQ
  extract_lets old q v x
  have hv : v.face = { w.face with qNow := q % 2 ^ 7 } := by
    simp only [v, W.wr_qNow_face]
    rw [W.wr_face_key _ _ _ _ _ (by decide) (by decide) (by decide)]
  have hx : x.face = v.face := by
    unfold x
    split
    · rfl
    · exact W.tracePlt_face ..
  have hlast : W.face { x with plt.p0 := x.plateTime, plt.qNext := none } = { x.face with qNext := none } := rfl
  rw [hlast, hx, hv]

theorem W.nextQ_flt (w : W) : w.nextQ.flt = w.flt := by
  unfold W.nextQ
  dsimp only
  split
  · simp
  · simp

theorem W.nextQ_plt (w : W) : w.nextQ.plt = { w.plt with p0 := w.plateTime, qNext := none } := by
  unfold W.nextQ
  dsimp only
  split
  · simp
  · simp

/-- Where nothing stops the plate, a boundary stops nothing. -/
theorem W.stopPlate_quiet (w : W) : w.stopPlate false false false = w := by simp [W.stopPlate]

theorem W.spareBoundary_quiet {w : W} (h : w.flt.spare = none) : w.spareBoundary = w := by simp [W.spareBoundary, h]

/-- The plate that runs shows its number. -/
theorem W.showPlate_face {w : W} {p : Plate} (h : w.running = some p) : w.showPlate.face = { w.face with plateId := p.id % 2 ^ 16 } := by
  unfold W.showPlate
  rw [h]
  dsimp only
  rw [W.wr_face_key _ _ _ _ _ (by decide) (by decide) (by decide), W.wr_face_key _ _ _ _ _ (by decide) (by decide) (by decide)]
  rw [W.wr_plateId_face]

/-- The plate that runs, by what shows the period. -/
theorem W.running_eq (w : W) : w.running = if w.face.valid = 1 then w.face.active else none := rfl

/-- A boundary's last part: lanes retire, and the period begins. -/
def W.beginPeriod (w : W) (blocks t : Nat) : W :=
  let m := w.retireNow
  let w := w.retireLanes m
  let w := { w with plt.retirePend := 0, plt.killPend := [], plt.swapFire := false }
  let n := if w.plt.drain.isSome then 64 else match w.running with | some p => 64 * p.blocks | none => 64
  let w := { w with plt.curN := n, plt.decisionDone := w.plt.cut || (w.plt.drain.isSome && blocks != 1), plt.cut := false }
  { w.rowsNow.showPlate.sparePoll with plt.boundaryDone := true, plt.p0 := t, sch.lends := [] }

theorem W.beginPeriod_plt (w : W) (blocks t : Nat) :
    (w.beginPeriod blocks t).plt.boundaryDone = true ∧ (w.beginPeriod blocks t).plt.p0 = t := ⟨rfl, rfl⟩

theorem W.beginPeriod_beat (w : W) (blocks t : Nat) : (w.beginPeriod blocks t).beat = w.beat := by
  unfold W.beginPeriod
  extract_lets m v s1 x n s2 y s3
  have hx : x.beat = w.beat := (W.beat_congr rfl rfl).trans (W.beat_of_face (w.retireLanes_face m))
  have hy : y.beat = w.beat := (W.beat_congr rfl rfl).trans hx
  have hs : s3.beat = w.beat :=
    (W.beat_of_face (W.sparePoll_face ..)).trans ((W.showPlate_beat ..).trans ((W.beat_of_face (W.rowsNow_face ..)).trans hy))
  exact (W.beat_congr rfl rfl).trans hs

/-- Where no plate drains the period is the plate's, and shows its number. -/
theorem W.beginPeriod_face {w : W} {p : Plate} (blocks t : Nat) (hd : w.plt.drain = none) (hp : w.running = some p) :
    (w.beginPeriod blocks t).face = { w.face with curN := 64 * p.blocks, plateId := p.id % 2 ^ 16 } := by
  unfold W.beginPeriod
  extract_lets m v s1 x n s2 y s3
  have hx : x.face = w.face := (W.face_plt ⟨rfl, rfl, rfl, rfl, rfl⟩).trans (w.retireLanes_face m)
  have hdrain : x.plt.drain = none := (congrArg Face.drain hx).trans hd
  have hrun : x.running = some p := by rw [W.running_eq, hx, ← W.running_eq, hp]
  have hn : n = 64 * p.blocks := by simp [n, hdrain, hrun]
  have hy : y.face = { w.face with curN := 64 * p.blocks } := by
    rw [← hx, ← hn]
    rfl
  have hrows : y.rowsNow.running = some p := by
    rw [W.running_eq, W.rowsNow_face, hy]
    exact hp
  have hs : s3.face = { w.face with curN := 64 * p.blocks, plateId := p.id % 2 ^ 16 } := by
    simp only [s3, W.sparePoll_face]
    rw [W.showPlate_face hrows, W.rowsNow_face, hy]
  rw [← hs]
  exact (W.face_sch ..).trans (W.face_plt ⟨rfl, rfl, rfl, rfl, rfl⟩)

/-- Out of reset the clock runs. -/
theorem State.clk_of_inReset {s : State} (h : s.inReset = false) : s.boot.clk = true := by
  simp [State.inReset] at h
  simp [h]

/-- What stops the plate at a boundary: a lock loss, an abort, the fault state, each of an earlier fc. -/
def State.haltNow (s : State) : Bool := match s.plt.haltPend with | some f => decide (f < s.fc) | none => false
def State.abortNow (s : State) : Bool := match s.plt.abortPend with | some f => decide (f < s.fc) | none => false
def State.faultNow (s : State) : Bool := s.flt.entryPeriod && decide (s.flt.entered < s.fc)
def State.placeNow (s : State) : Bool := match s.flt.spare with | some o => o.stage == 1 && o.kind != 2 | none => false

/-- A boundary's first part: the q of the period, what stops, spares, and the swap. -/
def W.turn (w : W) : W :=
  let v := (w.nextQ.stopPlate w.haltNow w.abortNow w.faultNow).spareBoundary
  match v.plt.arm with
  | some a => if v.plt.swapFire && !w.haltNow && !w.abortNow && !w.faultNow && !w.placeNow then v.swap a else v
  | none => v

theorem effPeriodBoundary_eq {w : W} (hc : w.boot.clk = true) (hp : w.isPaused = false) (hb : w.atBoundary = true)
    (hd : w.plt.boundaryDone = false) : effPeriodBoundary w = w.turn.beginPeriod (w.plt.curN / 64) w.plateTime := by
  unfold effPeriodBoundary
  rw [if_neg (by simp [hc, hp, hb, hd])]
  rfl

theorem W.turn_beat (w : W) : w.turn.beat = (none, w.plt.qNext.getD (w.rd hrdB KPLT_PAUSE.q_now) % 2 ^ 7) := by
  have hq : w.nextQ.beat = (none, w.plt.qNext.getD (w.rd hrdB KPLT_PAUSE.q_now) % 2 ^ 7) :=
    Prod.ext (congrArg Face.qNext w.nextQ_face) (congrArg Face.qNow w.nextQ_face)
  unfold W.turn
  extract_lets v
  have hv : v.beat = w.nextQ.beat := (W.spareBoundary_beat ..).trans (W.stopPlate_beat ..)
  rw [← hq, ← hv]
  split
  · split
    · exact W.swap_beat ..
    · rfl
  · rfl

theorem periodBoundary_begins {s : State} (hr : s.inReset = false) (hp : s.isPaused = false) (hb : s.atBoundary = true)
    (hd : s.plt.boundaryDone = false) :
    ∃ t, exec .periodBoundary s = .next t ∧ t.plt.boundaryDone = true ∧ t.plt.p0 = s.plateTime ∧ t.plt.qNext = none
      ∧ t.rd hrdB KPLT_PAUSE.q_now = (s.plt.qNext.getD (s.rd hrdB KPLT_PAUSE.q_now)) % 2 ^ 7 := by
  have heff := effPeriodBoundary_eq (w := s.w0) (State.clk_of_inReset hr) hp hb hd
  have hbeat := (s.w0.turn.beginPeriod_beat (s.plt.curN / 64) s.plateTime).trans s.w0.turn_beat
  obtain ⟨hdone, hp0⟩ := s.w0.turn.beginPeriod_plt (s.plt.curN / 64) s.plateTime
  simp only [State.w0_toState] at *
  generalize s.w0.turn.beginPeriod (s.plt.curN / 64) s.plateTime = v at *
  exact ⟨_, run_const hr heff, hdone, hp0, congrArg Prod.fst hbeat, congrArg Prod.snd hbeat⟩

/-- Where an arm fires and nothing stops it, the swap alone turns the period. -/
theorem W.turn_swaps {w : W} {a : Arm} (hf : w.plt.swapFire = true) (ha : w.plt.arm = some a) (hh : w.plt.haltPend = none)
    (hab : w.plt.abortPend = none) (he : w.flt.entryPeriod = false) (hs : w.flt.spare = none) : w.turn = w.nextQ.swap a := by
  have hhalt : w.haltNow = false := by simp [State.haltNow, hh]
  have habort : w.abortNow = false := by simp [State.abortNow, hab]
  have hfault : w.faultNow = false := by simp [State.faultNow, he]
  have hplace : w.placeNow = false := by simp [State.placeNow, hs]
  have hspare : w.nextQ.flt.spare = none := by rw [W.nextQ_flt, hs]
  have harm : w.nextQ.plt.arm = some a := by rw [W.nextQ_plt]; exact ha
  have hfire : w.nextQ.plt.swapFire = true := by rw [W.nextQ_plt]; exact hf
  unfold W.turn
  rw [hhalt, habort, hfault, hplace, W.stopPlate_quiet, W.spareBoundary_quiet hspare]
  simp only [harm, hfire]
  rfl

theorem periodBoundary_swaps {s : State} {a : Arm} {p : Plate} (hr : s.inReset = false) (hp : s.isPaused = false)
    (hb : s.atBoundary = true) (hd : s.plt.boundaryDone = false) (hf : s.plt.swapFire = true) (ha : s.plt.arm = some a)
    (hplate : (if a.active then s.plt.active else s.plt.staged) = some p) (hh : s.plt.haltPend = none) (hab : s.plt.abortPend = none)
    (he : s.flt.entryPeriod = false) (hs : s.flt.spare = none) (hdr : s.plt.drain = none) :
    ∃ t, exec .periodBoundary s = .next t ∧ t.plt.arm = none ∧ t.plt.active = some p ∧ t.rd hrdB KPLT_STATUS.active_valid = 1
      ∧ t.rd hrdB KPLT_STATUS.active_plate_id = p.id % 2 ^ 16 ∧ t.plt.curN = 64 * p.blocks ∧ t.herdTime = s.herdTime := by
  have heff := effPeriodBoundary_eq (w := s.w0) (State.clk_of_inReset hr) hp hb hd
  have hturn : s.w0.turn = s.w0.nextQ.swap a := W.turn_swaps hf ha hh hab he hs
  have hnext : (if a.active then s.w0.nextQ.plt.active else s.w0.nextQ.plt.staged) = some p := by rw [W.nextQ_plt]; exact hplate
  have hface := W.swap_face hnext
  rw [← hturn, W.nextQ_face] at hface
  have hdrain : s.w0.turn.plt.drain = none := (congrArg Face.drain hface).trans hdr
  have hrun : s.w0.turn.running = some p := by rw [W.running_eq, hface]; rfl
  have hlast := W.beginPeriod_face (s.plt.curN / 64) s.plateTime hdrain hrun
  rw [hface] at hlast
  simp only [State.w0_toState] at *
  generalize s.w0.turn.beginPeriod (s.plt.curN / 64) s.plateTime = v at *
  exact ⟨_, run_const hr heff, congrArg Face.arm hlast, congrArg Face.active hlast, congrArg Face.valid hlast,
    congrArg Face.plateId hlast, congrArg Face.curN hlast, congrArg Face.herdTime hlast⟩

/-! ### Decisions, drains, slots and time limits -/

/-- The pending arm fires at this decision. -/
def State.fires (s : State) : Bool := match s.plt.arm with | some a => s.locked && a.te ≤ s.herdTime | none => false

theorem State.fires_of_arm {s : State} {a : Arm} (h : s.plt.arm = some a) : s.fires = (s.locked && decide (a.te ≤ s.herdTime)) := by
  rw [State.fires, h]

theorem State.fires_of_no_arm {s : State} (h : s.plt.arm = none) : s.fires = false := by rw [State.fires, h]

/-- A decision fixes the arm's firing and the q of the next period: the q of the governor, of the host and of throttling alone
where that period has no plate. -/
theorem effDecisionFc_decides {w : W} (throt : Bool) (hc : w.boot.clk = true) (hp : w.isPaused = false)
    (hd : w.plt.decisionDone = false) (hb : w.atBoundary = false) (hs : w.slotIdx + 64 = w.plt.curN) :
    ∃ (v : W) (q : Nat), effDecisionFc throt w
        = { v with plt.decisionDone := true, plt.swapFire := w.fires, plt.qNext := some q, plt.throt := throt }
      ∧ v.bare = w.bare
      ∧ (w.nextPlate w.fires = none →
          q = max (w.qGov none) (max (w.rd hrdB KPLT_PAUSE.host_q) (if throt then w.rd hrdB KPLT_PAUSE.thr_q else 0))) := by
  have heff : effDecisionFc throt w = effDecisionFc throt w := rfl
  conv_rhs at heff => unfold effDecisionFc
  rw [if_neg (by simp [hc, hp, hd, hb, hs])] at heff
  extract_lets fire p qg qr leaves at heff
  have hfire : fire = w.fires := rfl
  clear_value fire
  subst hfire
  refine ⟨_, _, heff, ?_, ?_⟩
  · rw [W.wr_bare, W.wr_bare, apply_ite W.bare, W.inc_bare, ite_self, apply_ite W.bare, W.irqP_bare, W.inc_bare, ite_self]
  · intro hnone
    have hp' : p = none := hnone
    have hleaves : leaves = false := by simp only [leaves, hp']
    simp only [hleaves, qg, hp', Bool.false_eq_true, if_false, qr]

theorem decisionFc_decides {s : State} (throt : Bool) (hr : s.inReset = false) (hp : s.isPaused = false)
    (hd : s.plt.decisionDone = false) (hb : s.atBoundary = false) (hs : s.slotIdx + 64 = s.plt.curN) :
    ∃ t, exec (.decisionFc throt) s = .next t ∧ t.plt.decisionDone = true ∧ t.plt.throt = throt
      ∧ (∀ a, s.plt.arm = some a → t.plt.swapFire = (s.locked && decide (a.te ≤ s.herdTime)))
      ∧ (s.plt.arm = none → t.plt.swapFire = false)
      ∧ (s.plt.arm = none → s.running = none → t.plt.qNext = some (max (s.qGov none)
          (max (s.rd hrdB KPLT_PAUSE.host_q) (if throt then s.rd hrdB KPLT_PAUSE.thr_q else 0))))
      ∧ t.plateTime = s.plateTime ∧ t.herdTime = s.herdTime ∧ t.mem = s.mem := by
  obtain ⟨v, q, heff, hbare, hq⟩ := effDecisionFc_decides (w := s.w0) throt (State.clk_of_inReset hr) hp hd hb hs
  have hplate := W.plateTime_of_bare hbare
  have htime := W.herdTime_of_bare hbare
  have hstores := W.stores_of_bare hbare
  have hnone (ha : s.plt.arm = none) (hrun : s.running = none) : s.nextPlate s.fires = none := by
    simp [State.nextPlate, State.fires_of_no_arm ha, hrun]
  exact ⟨_, run_const hr heff, rfl, rfl, fun _ ha => State.fires_of_arm ha, fun ha => State.fires_of_no_arm ha,
    fun ha hrun => congrArg some (hq (hnone ha hrun)), hplate, htime, State.after_mem_of_no_stores hstores⟩

theorem laneDrainEnd_drains {s : State} (hr : s.inReset = false) (hp : s.isPaused = false) :
    ∃ t, exec .laneDrainEnd s = .next t ∧ ∀ e ∈ t.plt.laneDrain, s.plateTime < e.2 := by
  obtain ⟨v, heff⟩ : ∃ v : W, effLaneDrainEnd s.w0 = { v with plt.laneDrain := v.plt.laneDrain.filter (fun e => s.plateTime < e.2) } :=
    ⟨_, (if_neg (by simp [hp])).trans rfl⟩
  refine ⟨_, run_const hr heff, fun e he => ?_⟩
  rw [State.after_plt] at he
  exact of_decide_eq_true (List.mem_filter.mp he).2

theorem slot_delivers {s : State} (lanes : List LaneErr) (rows : List RowErr) (tables : List TblEntry) (hr : s.inReset = false)
    (hp : s.isPaused = false) (hd : s.plt.slotDone = false) :
    ∃ t, exec (.slot lanes rows tables) s = .next t ∧ t.plt.slotDone = true ∧ ∀ f ∈ t.sch.flights, s.plateTime ≤ f.due := by
  have hc := State.clk_of_inReset hr
  obtain ⟨v, heff⟩ : ∃ v : W, effSlot lanes rows tables s.w0
      = { v with sch.flights := v.sch.flights.filter (fun f => s.plateTime ≤ f.due), plt.slotDone := true } :=
    ⟨_, (if_neg (by simp [hp, hd, hc])).trans rfl⟩
  refine ⟨_, run_const hr heff, rfl, fun f hf => ?_⟩
  rw [State.after_sch] at hf
  exact of_decide_eq_true (List.mem_filter.mp hf).2

theorem streamTimeLimit_ends {s : State} {st k : Nat} (hr : s.inReset = false) (h2 : (s.strmAt st k).state = 2)
    (hlate : (s.strmAt st k).runFc + 2 ^ (s.strmAt st k).tlimit ≤ s.fc) :
    ∃ t, exec (.streamTimeLimit st k) s = .next t ∧ (t.strmAt st k).state = 0
      ∧ (t.strmAt st k).lastStatus = (s.strmAt st k).status TIMEOUT := by
  have heff : effStreamTimeLimit st k s.w0 = s.w0.strmEnd st k TIMEOUT := if_pos ⟨h2, hlate⟩
  have hsch := W.sch_of_timed (s.w0.strmEnd_timed st k TIMEOUT (by simp [h2]))
  generalize s.w0.strmEnd st k TIMEOUT = v at *
  have hstrm : (s.after fun _ => v).strmAt st k
      = { s.strmAt st k with state := 0, lastStatus := (s.strmAt st k).status TIMEOUT } := by
    rw [State.strmAt, State.after_sch, hsch]
    exact Tbl.get_set_self ..
  exact ⟨_, run_const hr heff, by rw [hstrm], by rw [hstrm]⟩

/-- Settles O11, a clause for each event. -/
theorem plateTimeActs : Obligations.PlateTimeActs := by
  refine ⟨?_, ?_, ?_, ?_, ?_, ?_⟩
  · exact fun _ throt hr hp hd hb hs => decisionFc_decides throt hr hp hd hb hs
  · exact fun _ hr hp hb hd => periodBoundary_begins hr hp hb hd
  · exact fun _ _ _ hr hp hb hd hf ha hplate hh hab he hs hdr => periodBoundary_swaps hr hp hb hd hf ha hplate hh hab he hs hdr
  · exact fun _ hr hp => laneDrainEnd_drains hr hp
  · exact fun _ lanes rows tables hr hp hd => slot_delivers lanes rows tables hr hp hd
  · exact fun _ _ _ hr h2 hlate => streamTimeLimit_ends hr h2 hlate

end Sys2Proof.Machine
end

section
/-! PROOFS. Edge headers and scheduled cells are read back from their bytes (R103, R332, R346): little-endian fields and bit
fields read back at their places, then the two formats. -/

namespace Sys2Proof.Machine

/-! ### Little-endian fields -/

@[simp] theorem toLE_length (n v : Nat) : (toLE n v).length = n := by
  induction n generalizing v with
  | zero => rfl
  | succ n ih => rw [toLE, List.length_cons, ih]

theorem ofLE_toLE {n v : Nat} (h : v < 2 ^ (8 * n)) : ofLE (toLE n v) = v := by
  induction n generalizing v with
  | zero => rw [toLE, ofLE]; omega
  | succ n ih =>
    have hpow : 2 ^ (8 * (n + 1)) = 256 * 2 ^ (8 * n) := by rw [Nat.mul_succ, Nat.pow_add, Nat.mul_comm]
    rw [toLE, ofLE, ih (by omega), BitVec.toNat_ofNat]
    omega

/-- A field at the start of the bytes is the number written there. -/
theorem le_toLE_append {n v : Nat} (l : List Byte) (h : v < 2 ^ (8 * n)) : le (toLE n v ++ l) 0 n = v := by
  rw [le, List.drop_zero, List.take_left' (toLE_length n v), ofLE_toLE h]

theorem le_toLE {n v : Nat} (h : v < 2 ^ (8 * n)) : le (toLE n v) 0 n = v := by
  rw [← (toLE n v).append_nil, le_toLE_append [] h]

/-- A field that begins after the bytes `a` is read from what follows them. -/
theorem le_append {a : List Byte} {off : Nat} (b : List Byte) (n : Nat) (h : a.length ≤ off) :
    le (a ++ b) off n = le b (off - a.length) n := by
  rw [le, le, List.drop_append, List.drop_eq_nil_of_le h, List.nil_append]

@[simp] theorem le_cons (b : Byte) (l : List Byte) (off n : Nat) : le (b :: l) (off + 1) n = le l off n := by
  rw [le, le, List.drop_succ_cons]

/-- A field at the end of bytes `a` as long as its offset is the number written there. -/
theorem le_append_toLE {a : List Byte} {off n v : Nat} (l : List Byte) (ha : a.length = off) (h : v < 2 ^ (8 * n)) :
    le (a ++ (toLE n v ++ l)) off n = v := by
  rw [le_append _ _ ha.le, ha, Nat.sub_self, le_toLE_append l h]

theorem fit_append {n : Nat} {a : List Byte} (b : List Byte) (h : a.length = n) : fit n (a ++ b) = a := by
  have hpad : n - (a ++ b).length = 0 := by rw [List.length_append]; omega
  rw [fit, hpad, List.replicate_zero, List.append_nil, List.take_left' h]

theorem fit_of_length {n : Nat} {a : List Byte} (h : a.length = n) : fit n a = a := by
  simpa using fit_append [] h

/-! ### Bit fields -/

theorem bit_eq_iff {n i : Nat} {b : Bool} : bit n i = b ↔ n / 2 ^ i % 2 = b.toNat := by
  unfold bit
  cases b <;> simp

/-- A flag's weight in a word of flags. -/
theorem ite_eq_toNat_mul (b : Bool) (k : Nat) : (if b then k else 0) = b.toNat * k := by cases b <;> simp

/-! ### Edge headers -/

/-- The first word of an edge header (R332): destination package, destination EP, path. -/
def EHdr.dstWord (h : EHdr) : Nat := h.dpkg + h.dep * 2 ^ 17 + h.path * 2 ^ 23

/-- The second word: source package, source EP, incarnation, flags. -/
def EHdr.srcWord (h : EHdr) : Nat :=
  h.spkg + h.sep * 2 ^ 17 + h.inc * 2 ^ 23 + h.syn.toNat * 2 ^ 27 + h.rtx.toNat * 2 ^ 28

/-- The predecessor's word: its PSN and whether there is one. -/
def EHdr.predWord (h : EHdr) : Nat := h.cpred + h.cpv.toNat * 2 ^ 24

theorem EHdr.bytes_eq (h : EHdr) : h.bytes = toLE 4 h.dstWord ++ toLE 4 h.srcWord ++ toLE 3 h.psn ++ [0] ++ toLE 2 h.edst
    ++ [0, 0] ++ toLE 4 h.predWord ++ [0, 0, 0, 0] := by
  unfold EHdr.bytes ehdrBytes EHdr.dstWord EHdr.srcWord EHdr.predWord
  simp only [ite_eq_toNat_mul]

@[simp] theorem EHdr.bytes_length (h : EHdr) : h.bytes.length = 24 := by simp [EHdr.bytes_eq]

/-- Each field of an edge header lies within its bits (R332). -/
structure EHdr.Wire (h : EHdr) : Prop where
  dpkg : h.dpkg < 2 ^ 17
  dep : h.dep < 64
  path : h.path < 64
  spkg : h.spkg < 2 ^ 17
  sep : h.sep < 64
  inc : h.inc < 16
  psn : h.psn < 2 ^ 24
  edst : h.edst < 4096
  cpred : h.cpred < 2 ^ 24

theorem EHdr.dstWord_lt {h : EHdr} (w : h.Wire) : h.dstWord < 2 ^ (8 * 4) := by
  obtain ⟨hdpkg, hdep, hpath, -⟩ := w
  unfold EHdr.dstWord
  omega

theorem EHdr.srcWord_lt {h : EHdr} (w : h.Wire) : h.srcWord < 2 ^ (8 * 4) := by
  obtain ⟨-, -, -, hspkg, hsep, hinc, -⟩ := w
  have hsyn := h.syn.toNat_lt
  have hrtx := h.rtx.toNat_lt
  unfold EHdr.srcWord
  omega

theorem EHdr.predWord_lt {h : EHdr} (w : h.Wire) : h.predWord < 2 ^ (8 * 4) := by
  have hcpred := w.cpred
  have hcpv := h.cpv.toNat_lt
  unfold EHdr.predWord
  omega

/-- The first word's fields stand apart. -/
theorem EHdr.dstWord_bits {h : EHdr} (w : h.Wire) :
    bits h.dstWord 0 17 = h.dpkg ∧ bits h.dstWord 17 6 = h.dep ∧ bits h.dstWord 23 6 = h.path := by
  obtain ⟨hdpkg, hdep, hpath, -⟩ := w
  unfold bits EHdr.dstWord
  omega

/-- The second word's fields and flags stand apart. -/
theorem EHdr.srcWord_bits {h : EHdr} (w : h.Wire) :
    bits h.srcWord 0 17 = h.spkg ∧ bits h.srcWord 17 6 = h.sep ∧ bits h.srcWord 23 4 = h.inc
      ∧ bit h.srcWord 27 = h.syn ∧ bit h.srcWord 28 = h.rtx := by
  obtain ⟨-, -, -, hspkg, hsep, hinc, -⟩ := w
  have hsyn := h.syn.toNat_lt
  have hrtx := h.rtx.toNat_lt
  simp only [bit_eq_iff]
  unfold bits EHdr.srcWord
  omega

theorem EHdr.predWord_bits {h : EHdr} (w : h.Wire) : bits h.predWord 0 24 = h.cpred ∧ bit h.predWord 24 = h.cpv := by
  have hcpred := w.cpred
  have hcpv := h.cpv.toNat_lt
  rw [bit_eq_iff]
  unfold bits EHdr.predWord
  omega

/-- Each word of an edge header stands at its place (R332). -/
theorem EHdr.bytes_words {h : EHdr} (w : h.Wire) (rest : List Byte) : let b := h.bytes ++ rest
    le b 0 4 = h.dstWord ∧ le b 4 4 = h.srcWord ∧ le b 8 3 = h.psn ∧ le b 12 2 = h.edst ∧ le b 16 4 = h.predWord := by
  simp only [EHdr.bytes_eq, List.append_assoc]
  refine ⟨?_, ?_, ?_, ?_, ?_⟩
  · exact le_toLE_append _ (dstWord_lt w)
  · exact le_append_toLE _ (toLE_length ..) (srcWord_lt w)
  · have hpsn : h.psn < 2 ^ (8 * 3) := by simpa using w.psn
    simp [le_append, le_toLE_append _ hpsn]
  · have hedst : h.edst < 2 ^ (8 * 2) := w.edst.trans (by decide)
    simp [le_append, le_toLE_append _ hedst]
  · simp [le_append, le_toLE_append _ (predWord_lt w)]

theorem ehdrOf_bytes_append {h : EHdr} (w : h.Wire) (rest : List Byte) : ehdrOf (h.bytes ++ rest) = h := by
  obtain ⟨hdst, hsrc, hpsn, hedst, hpred⟩ := EHdr.bytes_words w rest
  obtain ⟨hdpkg, hdep, hpath⟩ := EHdr.dstWord_bits w
  obtain ⟨hspkg, hsep, hinc, hsyn, hrtx⟩ := EHdr.srcWord_bits w
  obtain ⟨hcpred, hcpv⟩ := EHdr.predWord_bits w
  have hedst' : bits h.edst 0 12 = h.edst := by
    have := w.edst
    unfold bits
    omega
  simp only [ehdrOf, hdst, hsrc, hpsn, hedst, hpred, hdpkg, hdep, hpath, hspkg, hsep, hinc, hsyn, hrtx, hcpred, hcpv, hedst']

/-! ### Scheduled cells -/

/-- A tag lane's byte of flags (R103). -/
def Cell.flags (c : Cell) : Nat := c.valid.toNat + c.poison.toNat * 2 + c.sig.toNat * 4

theorem Cell.flags_bits (c : Cell) :
    c.flags < 256 ∧ bit c.flags 0 = c.valid ∧ bit c.flags 1 = c.poison ∧ bit c.flags 2 = c.sig := by
  have hvalid := c.valid.toNat_lt
  have hpoison := c.poison.toNat_lt
  have hsig := c.sig.toNat_lt
  simp only [bit_eq_iff]
  unfold Cell.flags
  omega

/-- The bytes of a cell of 64 B whose value is 0 when it carries no signal (R103, R346). -/
theorem Cell.bytes_eq {c : Cell} (hd : c.data.length = 64) (hs : c.sig = false → c.sigval = 0) :
    c.bytes = c.data ++ (toLE 2 c.stag ++ (toLE 1 c.count ++ (toLE 1 c.flags ++ toLE 8 c.sigval))) := by
  have hval : (if c.sig then c.sigval else 0) = c.sigval := by
    cases h : c.sig with
    | false => exact (hs h).symm
    | true => rfl
  have hvalid : (if c.valid then 1 else 0) = c.valid.toNat := by cases c.valid <;> rfl
  simp only [Cell.bytes, Cell.tag, Cell.flags, fit_of_length hd, hval, hvalid, ite_eq_toNat_mul c.poison, ite_eq_toNat_mul c.sig,
    List.append_assoc]

theorem Cell.bytes_length {c : Cell} (hd : c.data.length = 64) (hs : c.sig = false → c.sigval = 0) : c.bytes.length = 76 := by
  simp [Cell.bytes_eq hd hs, hd]

theorem cellOf_bytes {c : Cell} (hstag : c.stag < 2 ^ 16) (hcount : c.count < 256) (hval : c.sigval < 2 ^ 64)
    (hs : c.sig = false → c.sigval = 0) (hd : c.data.length = 64) (hpiece : c.piece = none) : cellOf c.bytes = c := by
  obtain ⟨hflags, hvalid, hpoison, hsig⟩ := c.flags_bits
  have hstagAt : le c.bytes 64 2 = c.stag := by
    have hstag : c.stag < 2 ^ (8 * 2) := by simpa using hstag
    rw [Cell.bytes_eq hd hs, le_append_toLE _ hd hstag]
  have hcountAt : le c.bytes 66 1 = c.count := by
    simp [Cell.bytes_eq hd hs, le_append, le_toLE_append, hd, hcount]
  have hflagsAt : le c.bytes 67 1 = c.flags := by
    simp [Cell.bytes_eq hd hs, le_append, le_toLE_append, hd, hflags]
  have hvalAt : le c.bytes 68 8 = c.sigval := by
    have hval : c.sigval < 2 ^ (8 * 8) := by simpa using hval
    simp [Cell.bytes_eq hd hs, le_append, hd, le_toLE hval]
  have hdata : fit 64 c.bytes = c.data := by rw [Cell.bytes_eq hd hs, fit_append _ hd]
  simp only [cellOf, hstagAt, hcountAt, hflagsAt, hvalAt, hdata, hvalid, hpoison, hsig, ← hpiece]

/-! ### The obligation -/

/-- Settles O53: the header's words and the tag lane's fields stand at their places, and the fields of a word stand apart. -/
theorem edgeBytes : Obligations.EdgeBytes := by
  refine ⟨fun h hdpkg hdep hpath hspkg hsep hinc hpsn hedst hcpred rest => ⟨?_, ?_⟩,
    fun c hstag hcount hval hs hd hpiece => ⟨?_, ?_⟩⟩
  · exact ehdrOf_bytes_append ⟨hdpkg, hdep, hpath, hspkg, hsep, hinc, hpsn, hedst, hcpred⟩ rest
  · exact List.drop_left' h.bytes_length
  · exact cellOf_bytes hstag hcount hval hs hd hpiece
  · exact Cell.bytes_length hd hs

end Sys2Proof.Machine
end

section
/-! PROOFS. Packets are read back from their bytes (R131): the words of the header stand at their places, the fields of a word
stand apart, and extension and payload follow. -/

namespace Sys2Proof.Machine

/-! ### The header's words -/

/-- The first byte: VC, herd mode, whether there is an extension, `ack`. -/
def pktFlags (p : Packet) : Nat := p.vc + p.herdMode.toNat * 16 + (!p.ext.isEmpty).toNat * 32 + p.ack.toNat * 64

/-- The byte of the hop list's length and pointer. -/
def pktHops (p : Packet) : Nat := p.hops + 8 * p.hopPtr

/-- The last byte: whether a router answers, and whether the packet is issued again. -/
def pktLast (p : Packet) : Nat := p.byRouter.toNat + p.retry.toNat * 2

theorem hdrBytes_eq {p : Packet} (h : p.Wire) : hdrBytes p = toLE 1 (pktFlags p) ++ (toLE 1 p.op ++ (toLE 2 p.dst ++ (toLE 2 p.src
    ++ (toLE 2 p.ctx ++ (toLE 1 p.gen ++ (toLE 1 (pktHops p) ++ (toLE 6 p.hop ++ (toLE 2 p.tag ++ (toLE 2 p.len ++ (toLE 8 p.addr
    ++ (toLE 2 p.aux ++ (toLE 1 p.status ++ toLE 1 (pktLast p))))))))))))) := by
  obtain ⟨hvc, -, hdst, hsrc, hctx, -, hhops, hptr, hhop, -, hlen, -⟩ := h
  have hext : (if p.ext = [] then 0 else 32) = (!p.ext.isEmpty).toNat * 32 := by cases p.ext <;> rfl
  have hrtr : (if p.byRouter then 1 else 0) = p.byRouter.toNat := by cases p.byRouter <;> rfl
  simp only [hdrBytes, pktFlags, pktHops, pktLast, hext, hrtr, ite_eq_toNat_mul, Nat.mod_eq_of_lt hvc, Nat.mod_eq_of_lt hdst,
    Nat.mod_eq_of_lt hsrc, Nat.mod_eq_of_lt hctx, Nat.mod_eq_of_lt hhops, Nat.mod_eq_of_lt hptr, Nat.mod_eq_of_lt hhop,
    Nat.mod_eq_of_lt hlen, List.append_assoc]

@[simp] theorem hdrBytes_length (p : Packet) : (hdrBytes p).length = 32 := by simp [hdrBytes]

/-- The first byte's fields stand apart. -/
theorem pktFlags_bits {p : Packet} (h : p.vc < 16) : pktFlags p < 2 ^ (8 * 1) ∧ bits (pktFlags p) 0 4 = p.vc
    ∧ bit (pktFlags p) 4 = p.herdMode ∧ bit (pktFlags p) 5 = (!p.ext.isEmpty) ∧ bit (pktFlags p) 6 = p.ack := by
  have hherd := p.herdMode.toNat_lt
  have hext := (!p.ext.isEmpty).toNat_lt
  have hack := p.ack.toNat_lt
  simp only [bit_eq_iff]
  unfold bits pktFlags
  omega

theorem pktHops_bits {p : Packet} (h : p.hops < 8) (hp : p.hopPtr < 8) :
    pktHops p < 2 ^ (8 * 1) ∧ bits (pktHops p) 0 3 = p.hops ∧ bits (pktHops p) 3 3 = p.hopPtr := by
  unfold bits pktHops
  omega

theorem pktLast_bits (p : Packet) : pktLast p < 2 ^ (8 * 1) ∧ bit (pktLast p) 0 = p.byRouter ∧ bit (pktLast p) 1 = p.retry := by
  have hrtr := p.byRouter.toNat_lt
  have hretry := p.retry.toNat_lt
  simp only [bit_eq_iff]
  unfold pktLast
  omega

/-- A number of `w` bits is its own lowest `w` bits. -/
theorem bits_zero_of_lt {n w : Nat} (h : n < 2 ^ w) : bits n 0 w = n := by
  rw [bits, Nat.pow_zero, Nat.div_one, Nat.mod_eq_of_lt h]

/-- Each word of the header stands at its place (R131), whatever follows the header. -/
theorem pktBytes_words {p : Packet} (h : p.Wire) : let b := pktBytes p
    (le b 0 1 = pktFlags p ∧ le b 1 1 = p.op ∧ le b 2 2 = p.dst ∧ le b 4 2 = p.src ∧ le b 6 2 = p.ctx ∧ le b 8 1 = p.gen
      ∧ le b 9 1 = pktHops p)
    ∧ le b 10 6 = p.hop ∧ le b 16 2 = p.tag ∧ le b 18 2 = p.len ∧ le b 20 8 = p.addr ∧ le b 28 2 = p.aux ∧ le b 30 1 = p.status
      ∧ le b 31 1 = pktLast p := by
  rw [pktBytes, hdrBytes_eq h]
  obtain ⟨hvc, hop, hdst, hsrc, hctx, hgen, hhops, hptr, hhop, htag, hlen, haddr, haux, hstatus, -⟩ := h
  have hflags := (pktFlags_bits hvc).1
  have hhops := (pktHops_bits hhops hptr).1
  have hlast := (pktLast_bits p).1
  have hdst : p.dst < 2 ^ (8 * 2) := by omega
  have hsrc : p.src < 2 ^ (8 * 2) := by omega
  have hctx : p.ctx < 2 ^ (8 * 2) := by omega
  have hhop : p.hop < 2 ^ (8 * 6) := by omega
  have hlen : p.len < 2 ^ (8 * 2) := by omega
  simp only [List.append_assoc]
  refine ⟨⟨le_toLE_append _ hflags, ?_, ?_, ?_, ?_, ?_, ?_⟩, ?_, ?_, ?_, ?_, ?_, ?_, ?_⟩
  · simp [le_append, le_toLE_append (n := 1) _ hop]
  · simp [le_append, le_toLE_append _ hdst]
  · simp [le_append, le_toLE_append _ hsrc]
  · simp [le_append, le_toLE_append _ hctx]
  · simp [le_append, le_toLE_append (n := 1) _ hgen]
  · simp [le_append, le_toLE_append _ hhops]
  · simp [le_append, le_toLE_append _ hhop]
  · simp [le_append, le_toLE_append (n := 2) _ htag]
  · simp [le_append, le_toLE_append _ hlen]
  · simp [le_append, le_toLE_append (n := 8) _ haddr]
  · simp [le_append, le_toLE_append (n := 2) _ haux]
  · simp [le_append, le_toLE_append (n := 1) _ hstatus]
  · simp [le_append, le_toLE_append _ hlast]

/-! ### What follows the header -/

/-- Bytes before the payload: the header, and the extension where there is one. -/
theorem head_length {p : Packet} (h : p.Wire) : (hdrBytes p ++ p.ext).length = if p.ext = [] then 32 else 64 := by
  obtain ⟨-, -, -, -, -, -, -, -, -, -, -, -, -, -, hext, -⟩ := h
  rcases hext with hnil | hlen
  · simp [hnil]
  · have hne : p.ext ≠ [] := by
      rintro h
      simp [h] at hlen
    simp [hne, hlen]

theorem pktBytes_drop_head {p : Packet} (h : p.Wire) : (pktBytes p).drop (if p.ext = [] then 32 else 64) = p.data :=
  List.drop_left' (head_length h)

/-- A packet is as long as its header, extension and payload (R131). -/
theorem pktBytes_length {p : Packet} (h : p.Wire) : (pktBytes p).length = p.size := by
  have hhead := head_length h
  obtain ⟨-, -, -, -, -, -, -, -, -, -, -, -, -, -, -, hdata⟩ := h
  rw [pktBytes, List.length_append, hhead, hdata, Packet.size]
  split
  · rfl
  · rfl

/-- The extension stands after the header. -/
theorem pktBytes_ext {p : Packet} (h : p.Wire) :
    (if (!p.ext.isEmpty) = true then fit 32 ((pktBytes p).drop 32) else []) = p.ext := by
  obtain ⟨-, -, -, -, -, -, -, -, -, -, -, -, -, -, hext, -⟩ := h
  rcases hext with hnil | hlen
  · simp [hnil]
  · have hne : p.ext.isEmpty = false := by
      cases hp : p.ext with
      | nil => simp [hp] at hlen
      | cons => rfl
    rw [if_pos (by rw [hne]; rfl), pktBytes, List.append_assoc, List.drop_left' (hdrBytes_length p), fit_append _ hlen]

/-- A packet that its bytes can carry is read back from them (R131). -/
theorem pktOf_pktBytes {p : Packet} (h : p.Wire) : pktOf (pktBytes p) = p.carried := by
  obtain ⟨⟨hflags, hop, hdst, hsrc, hctx, hgen, hhops⟩, hhop, htag, hlen, haddr, haux, hstatus, hlast⟩ := pktBytes_words h
  have hext := pktBytes_ext h
  have hif : (if (!p.ext.isEmpty) = true then 64 else 32) = if p.ext = [] then 32 else 64 := by cases p.ext <;> rfl
  have hdrop := pktBytes_drop_head h
  obtain ⟨wvc, -, wdst, wsrc, wctx, -, whops, wptr, whop, -, wlen, -, -, -, -, wdata⟩ := h
  obtain ⟨-, fvc, fherd, fext, fack⟩ := pktFlags_bits wvc
  obtain ⟨-, fhops, fptr⟩ := pktHops_bits whops wptr
  obtain ⟨-, frtr, fretry⟩ := pktLast_bits p
  simp only [pktOf, hflags, hop, hdst, hsrc, hctx, hgen, hhops, hhop, htag, hlen, haddr, haux, hstatus, hlast, fvc, fherd, fext, fack,
    fhops, fptr, frtr, fretry, hext, hif, hdrop, bits_zero_of_lt (w := 12) wdst, bits_zero_of_lt (w := 12) wsrc,
    bits_zero_of_lt (w := 12) wctx, bits_zero_of_lt whop, bits_zero_of_lt wlen, fit_of_length wdata]
  rfl

/-- Settles O52: the header's words are read back, and extension and payload follow it. -/
theorem packetBytes : Obligations.PacketBytes := fun _ h => ⟨pktOf_pktBytes h, pktBytes_length h, pktBytes_drop_head h⟩


end Sys2Proof.Machine
end

section
/-! PROOFS. The arbiters' seeds and their LFSR (R156): a step keeps a register within 1 to 255, and one cycle holds all of these values. -/

namespace Sys2Proof.Machine

theorem arbSeed_mem (s : State) (u port net : Nat) : s.arbSeed u port net ∈ Finset.Icc 1 255 := by
  unfold State.arbSeed bits
  rw [Finset.mem_Icc]
  dsimp only
  split
  · omega
  · omega

/-- A unit that no draw has touched holds its seed. -/
theorem arb_lfsr_of_no_arbs {s : State} (h : s.net.arbs = []) (u port net : Nat) : (s.arb u port net).lfsr = s.arbSeed u port net := by
  rw [State.arb, h]
  rfl

theorem lfsrStep_mem {x : Nat} (h : x ∈ Finset.Icc 1 255) : lfsrStep x ∈ Finset.Icc 1 255 := by
  rw [Finset.mem_Icc] at *
  unfold lfsrStep bits
  dsimp only
  omega

theorem lfsrStep_iterate_mem {x : Nat} (h : x ∈ Finset.Icc 1 255) (n : Nat) : lfsrStep^[n] x ∈ Finset.Icc 1 255 := by
  induction n with
  | zero => exact h
  | succ n ih =>
    rw [Function.iterate_succ_apply']
    exact lfsrStep_mem ih

/-- From 1 the sequence repeats after 255 steps, and after no divisor of 255. -/
theorem minimalPeriod_lfsrStep_one : Function.minimalPeriod lfsrStep 1 = 255 := by
  have hcycle : lfsrStep^[255] 1 = 1 := by decide +kernel
  have hdvd : Function.minimalPeriod lfsrStep 1 ∣ 255 := Function.IsPeriodicPt.minimalPeriod_dvd hcycle
  have hper := Function.iterate_minimalPeriod (f := lfsrStep) (x := 1)
  have hdivs : ∀ n ∈ Nat.divisors 255, lfsrStep^[n] 1 = 1 → n = 255 := by decide +kernel
  exact hdivs _ (Nat.mem_divisors.mpr ⟨hdvd, by decide⟩) hper

/-- The 255 values that follow from 1 differ, so they are all of 1 to 255. -/
theorem exists_lfsrStep_iterate_one {x : Nat} (h : x ∈ Finset.Icc 1 255) : ∃ n, lfsrStep^[n] 1 = x := by
  have hinj : Set.InjOn (fun n => lfsrStep^[n] 1) (Finset.range 255) := by
    rw [Finset.coe_range, ← minimalPeriod_lfsrStep_one]
    exact Function.iterate_injOn_Iio_minimalPeriod
  have hcard : (Finset.Icc 1 255).card ≤ ((Finset.range 255).image (fun n => lfsrStep^[n] 1)).card := by
    simp [Finset.card_image_of_injOn hinj]
  have hsub : (Finset.range 255).image (fun n => lfsrStep^[n] 1) ⊆ Finset.Icc 1 255 :=
    Finset.image_subset_iff.mpr fun n _ => lfsrStep_iterate_mem (by decide) n
  rw [← Finset.eq_of_subset_of_card_le hsub hcard] at h
  obtain ⟨n, -, hn⟩ := Finset.mem_image.mp h
  exact ⟨n, hn⟩

theorem minimalPeriod_lfsrStep {x : Nat} (h : x ∈ Finset.Icc 1 255) : Function.minimalPeriod lfsrStep x = 255 := by
  obtain ⟨n, rfl⟩ := exists_lfsrStep_iterate_one h
  have hone : 1 ∈ Function.periodicPts lfsrStep :=
    Function.minimalPeriod_pos_iff_mem_periodicPts.mp (by rw [minimalPeriod_lfsrStep_one]; decide)
  rw [Function.minimalPeriod_apply_iterate hone, minimalPeriod_lfsrStep_one]

/-- The step is the shift of R156: the four taps' sum modulo 2 comes in at the low end. -/
theorem lfsrStep_eq_shift : ∀ x < 256,
    lfsrStep x = ((x <<< 1) ||| ((x >>> 7) ^^^ (x >>> 3) ^^^ (x >>> 2) ^^^ (x >>> 1)) % 2) &&& 0xFF := by
  decide +kernel

theorem repeat_eq_iterate {α : Type} (f : α → α) (n : Nat) (x : α) : Nat.repeat f n x = f^[n] x := by
  induction n with
  | zero => rfl
  | succ n ih => rw [Nat.repeat, ih, Function.iterate_succ_apply']

/-- Settles O51: the power-on reset leaves no arbiter that has drawn, and every value of a register lies on one cycle of 255. -/
theorem arbitersSeeded : Obligations.ArbitersSeeded := by
  refine ⟨fun s => ⟨_, exec_porstNAssert s, fun u port net => ⟨arb_lfsr_of_no_arbs rfl u port net, rfl⟩⟩, fun s u port net => ?_,
    lfsrStep_eq_shift, fun x n h1 h255 => ?_, fun x h1 h255 => ?_⟩
  · exact Finset.mem_Icc.mp (arbSeed_mem s u port net)
  · rw [repeat_eq_iterate]
    exact Finset.mem_Icc.mp (lfsrStep_iterate_mem (Finset.mem_Icc.mpr ⟨h1, h255⟩) n)
  · have hper := minimalPeriod_lfsrStep (Finset.mem_Icc.mpr ⟨h1, h255⟩)
    refine ⟨?_, fun n hn hlt => ?_⟩
    · rw [repeat_eq_iterate, ← hper, Function.iterate_minimalPeriod]
    · rw [repeat_eq_iterate]
      exact Function.not_isPeriodicPt_of_pos_of_lt_minimalPeriod (by omega) (by omega)

end Sys2Proof.Machine
end

section
/-! PROOFS. Folios (R139, R455, R456): the next one at a router and at an endpoint is performed, or answered with the status of its
check. -/

namespace Sys2Proof.Machine

/-! ### Taking a packet touches the net alone -/

theorem W.takeVc_noNet {w v : W} {u vc : Nat} {ops : Packet → Bool} {p : Packet} (h : w.takeVc u vc ops = some (p, v)) :
    v.noNet = w.noNet := by
  unfold W.takeVc at h
  dsimp only at h
  split at h
  · exact absurd h (by simp)
  · obtain ⟨-, rfl⟩ := Prod.mk.inj (Option.some.inj h)
    rfl

theorem W.takeAny_noNet {w v : W} {u : Nat} {ops : Packet → Bool} {p : Packet} (h : w.takeAny u ops = some (p, v)) :
    v.noNet = w.noNet := by
  have hfold (l : List Nat) (r : Option (Packet × W)) (hr : ∀ x, r = some x → x.2.noNet = w.noNet) :
      ∀ x, l.foldl (fun r vc => match r with | some x => some x | none => w.takeVc u vc ops) r = some x → x.2.noNet = w.noNet := by
    induction l generalizing r with
    | nil => exact hr
    | cons vc l ih =>
      refine ih _ ?_
      cases r with
      | some y => exact hr
      | none => exact fun x hx => W.takeVc_noNet hx
  exact hfold _ none (fun _ h => absurd h (by simp)) _ h

/-! ### The folio -/

/-- How a router's answer to a read-back goes: on the folio's own way back (R456). -/
def W.rtrBack (w : W) (u port : Nat) (p : Packet) (d : List Byte) : W :=
  let hs := port :: (List.range p.hopPtr).reverse.map p.hopAt
  let q := folioBack { ansTo p p.dst with byRouter := true, hop := hopList hs, hops := p.hopPtr + 1, hopPtr := 1 } p d
  w.pushBuf u pAns { pkt := q, arrived := q.size, last := true, routed := true, copies := [{ port := port, pkt := q }] }

/-- A router takes the next folio that stops at it. -/
theorem effFolio_router {w : W} {u port i : Nat} {b : Buf} (hu : isRouter u = true) (hf : w.routerFolio u port = some (i, b)) :
    effFolio u port w = let v := w.dropNth u port 8 i
      if v.folioCheck u b.pkt ≠ OK then v.rtrAns u port b.pkt (v.folioCheck u b.pkt)
      else v.folioDo u b.pkt (fun w => w.rtrAns u port b.pkt OK) (fun w d => w.rtrBack u port b.pkt d) := by
  unfold effFolio
  rw [if_pos hu]
  simp only [hf]
  rfl

/-- An endpoint takes the first folio at its input that is no answer. -/
theorem effFolio_endpoint {w v : W} {u port : Nat} {p : Packet} (hu : isRouter u = false)
    (ht : w.takeAny u (fun p => p.op == 0x70 && (p.ans != 0 || foSpace p != 0 || w.folioRoom u)) = some (p, v)) (ha : p.ans = 0) :
    effFolio u port w = if v.folioCheck u p ≠ OK then v.cmp u p (v.folioCheck u p)
      else v.folioDo u p (fun w => w.cmp u p OK) (fun w d => w.reply u (folioBack (ansTo p p.dst) p d)) := by
  unfold effFolio
  rw [if_neg (by simp [hu])]
  simp only [ht]
  rw [if_neg (by simp [ha])]

/-- A folio that answers a read-back of the host is handed to it. -/
theorem folio_toHost {s : State} {port : Nat} {p : Packet} {w : W} (hr : s.inReset = false)
    (ht : s.w0.takeAny uHost (fun p => p.op == 0x70 && (p.ans != 0 || foSpace p != 0 || s.folioRoom uHost)) = some (p, w))
    (ha : p.ans ≠ 0) : ∃ t, exec (.folio uHost port) s = .next t ∧ t.boot.toHost = s.boot.toHost ++ [p] ∧ t.mem = s.mem
      ∧ t.regs = s.regs := by
  have heff : effFolio uHost port s.w0 = { w with boot.toHost := w.boot.toHost ++ [p] } := by
    unfold effFolio
    rw [if_neg (by decide)]
    simp only [State.w0_toState, ht]
    rw [if_pos ha, if_pos trivial]
  have hboot : w.boot = s.boot := by have e := congrArg (fun x : W => x.boot) (W.takeAny_noNet ht); exact e
  have hstores : w.stores = [] := by have e := congrArg (fun x : W => x.stores) (W.takeAny_noNet ht); exact e
  have hregs : w.regs = s.regs := by have e := congrArg (fun x : W => x.regs) (W.takeAny_noNet ht); exact e
  refine ⟨_, run_const hr heff, ?_, State.after_mem_of_no_stores hstores, hregs⟩
  rw [State.after_boot, hboot]

/-- Settles O28: at a router and at an endpoint, a folio whose check is OK is performed, any other answered. -/
theorem foliosAct : Obligations.FoliosAct := by
  refine ⟨?_, ?_, ?_, ?_, ?_⟩
  · rintro s u port i b w hr hu hf rfl hc
    exact run_const hr ((effFolio_router hu hf).trans (if_pos hc))
  · rintro s u port i b w hr hu hf rfl hc
    exact run_const hr ((effFolio_router hu hf).trans (if_neg (not_not.mpr hc)))
  · intro s u port p w hr hu ht ha hc
    exact run_const hr ((effFolio_endpoint hu ht ha).trans (if_pos hc))
  · intro s u port p w hr hu ht ha hc
    exact run_const hr ((effFolio_endpoint hu ht ha).trans (if_neg (not_not.mpr hc)))
  · intro s port p w hr ht ha
    exact folio_toHost hr ht ha

end Sys2Proof.Machine
end

section
/-! PROOFS. Completions (R137, R149, R172, R198, R288, R297): a CMP settles the request that it names. -/

namespace Sys2Proof.Machine

/-- The CMPs that a unit takes here: no pop's, none that puts a packet on hold, and no proxy's. -/
def State.cmpNext (s : State) (u : Nat) (p : Packet) : Bool :=
  p.op == 0x60 && !s.forPop u p && !s.staleFirst p && !(0x2040 ≤ u && u < 0x2080)

/-- No router says by the CMP that the packet's generation was old. -/
theorem not_again {p : Packet} (h : p.status ≠ STALE_GEN ∨ p.byRouter = false) : (p.status == STALE_GEN && p.byRouter) = false := by
  rcases h with h | h
  · simp [h]
  · simp [h]

/-- A CMP that is no message's names the request on record. -/
theorem cmp_named {v : W} {u ref : Nat} {p : Packet} {r : Req} (href : p.ref < 2 ^ 20) (hmsg : v.ofMessage u p = false)
    (hreq : v.reqOf u p = some (ref, r)) : (if 2 ^ 20 ≤ p.ref ∨ v.ofMessage u p then none else v.reqOf u p) = some (ref, r) := by
  rw [if_neg (not_or.mpr ⟨Nat.not_le.mpr href, by simp [hmsg]⟩), hreq]

/-- One that is, or names none, is of no request. -/
theorem cmp_unnamed {v : W} {u : Nat} {p : Packet} (h : 2 ^ 20 ≤ p.ref ∨ v.ofMessage u p = true ∨ v.reqOf u p = none) :
    (if 2 ^ 20 ≤ p.ref ∨ v.ofMessage u p then none else v.reqOf u p) = none := by
  rcases h with h | h | h
  · exact if_pos (.inl h)
  · exact if_pos (.inr h)
  · rw [h, ite_self]

/-- The request's owner settles, or counts, by its station's own rules: no snoop, trace dump, command or plate write. -/
def Req.plain (r : Req) : Prop :=
  (∀ sl key, r.own ≠ .snoop sl key) ∧ (∀ b, r.own ≠ .dump b) ∧ (∀ q sl, r.own ≠ .cmdWrite q sl)
    ∧ ∀ q sl, r.own ≠ .plateWrite q sl

section
variable {w v : W} {u ref : Nat} {p : Packet} {r : Req} (ht : w.takeAny u (w.cmpNext u) = some (p, v))
  (hp : p.status ≠ STALE_GEN ∨ p.byRouter = false)
include ht hp

/-- The host gets every CMP that is its own. -/
theorem effCmpReceive_host (hu : u = uHost) : effCmpReceive u w = { v with boot.toHost := v.boot.toHost ++ [p] } := by
  unfold State.cmpNext at ht
  unfold effCmpReceive
  simp only [ht, not_again hp]
  exact if_pos hu

/-- A CMP of no request of a station is a posted write's or a message's. -/
theorem effCmpReceive_free (hu : 0x1000 ≤ u ∧ u < 0x2000) (hreq : 2 ^ 20 ≤ p.ref ∨ v.ofMessage u p = true ∨ v.reqOf u p = none) :
    effCmpReceive u w = v.settleFree (u - 0x1000) p := by
  have hhost : u ≠ uHost := by unfold uHost; omega
  have hnone := cmp_unnamed hreq
  unfold State.cmpNext at ht
  unfold effCmpReceive
  simp only [ht, not_again hp, Bool.false_eq_true, false_and, if_false, if_neg hhost, hnone, if_pos hu]

variable (href : p.ref < 2 ^ 20) (hmsg : v.ofMessage u p = false) (hreq : v.reqOf u p = some (ref, r))
include href hmsg hreq

/-- The last CMP of a request that a station's own rules settle: the worst status of all, or, of one too late, nothing more. -/
theorem effCmpReceive_last (hu : 0x1000 ≤ u ∧ u < 0x2000) (hown : r.plain) (hneed : r.need ≤ 1) : effCmpReceive u w
    = if r.late then (v.delReq u ref).lateAns (u - 0x1000) r
      else (v.delReq u ref).settle (u - 0x1000) r (worst (r.sts ++ [p.status])) p.aux := by
  have hhost : u ≠ uHost := by unfold uHost; omega
  have hsome := cmp_named href hmsg hreq
  have hn : ¬ (if p.hops = 0 then r.need else 1) < r.need := by split <;> omega
  obtain ⟨hsnoop, hdump, hcmd, hplate⟩ := hown
  unfold State.cmpNext at ht
  unfold effCmpReceive
  simp only [ht, not_again hp, Bool.false_eq_true, false_and, if_false, if_neg hhost, hsome, if_pos hu, if_neg hn]

/-- A CMP that is not the last that is due is counted. -/
theorem effCmpReceive_counted (hu : 0x1000 ≤ u ∧ u < 0x2000) (hown : r.plain) (hneed : 1 < r.need) (hhops : p.hops ≠ 0) :
    effCmpReceive u w = v.setReq u ref { r with need := r.need - 1, sts := r.sts ++ [p.status] } := by
  have hhost : u ≠ uHost := by unfold uHost; omega
  have hsome := cmp_named href hmsg hreq
  obtain ⟨hsnoop, hdump, hcmd, hplate⟩ := hown
  unfold State.cmpNext at ht
  unfold effCmpReceive
  simp only [ht, not_again hp, Bool.false_eq_true, false_and, if_false, if_neg hhost, hsome, if_pos hu, if_neg hhops, if_pos hneed]

/-- A CMP in answer to a snoop counts for a holder that is lost. -/
theorem effCmpReceive_snoop {sl key : Nat} (hu : u ≠ uHost) (hst : p.status ≠ STALE_GEN) (hown : r.own = .snoop sl key)
    (hneed : r.need = 1) :
    effCmpReceive u w = (v.delReq u ref).snoopLost (u - 0x2000) key 1 := by
  have hsome := cmp_named href hmsg hreq
  unfold State.cmpNext at ht
  unfold effCmpReceive
  simp only [ht, not_again hp, Bool.false_eq_true, false_and, if_false, if_neg hu, hsome, hown, hneed, ite_self, lt_irrefl, if_neg hst]

end

theorem uSt_range {st : Nat} (h : st < 4096) : 0x1000 ≤ uSt st ∧ uSt st < 0x2000 := by unfold uSt; omega
theorem uSt_sub (st : Nat) : uSt st - 0x1000 = st := Nat.add_sub_cancel_left ..
theorem uMsp_sub (m : Nat) : uMsp m - 0x2000 = m := Nat.add_sub_cancel_left ..
theorem uMsp_ne_uHost {m : Nat} (h : m < 64) : uMsp m ≠ uHost := by unfold uMsp uHost; omega

/-- Settles O38, a clause for each unit that takes a CMP and each kind of request. -/
theorem cmpSettles : Obligations.CmpSettles := by
  refine ⟨?_, ?_, ?_, ?_⟩
  · intro s st p w ref r hr hst ht hp href hmsg hreq hsnoop hdump hcmd hplate
    have hu := uSt_range hst
    have hown : r.plain := ⟨hsnoop, hdump, hcmd, hplate⟩
    refine ⟨fun hneed hlate => ?_, fun hneed hlate => ?_, fun hneed hhops => ?_⟩
    · have heff := effCmpReceive_last ht hp href hmsg hreq hu hown hneed
      rw [hlate, uSt_sub] at heff
      exact run_const hr heff
    · have heff := effCmpReceive_last ht hp href hmsg hreq hu hown hneed
      rw [hlate, uSt_sub] at heff
      exact run_const hr heff
    · exact run_const hr (effCmpReceive_counted ht hp href hmsg hreq hu hown hneed hhops)
  · intro s st p w hr hst ht hp hreq
    have heff := effCmpReceive_free ht hp (uSt_range hst) hreq
    rw [uSt_sub] at heff
    exact run_const hr heff
  · intro s m p w ref r sl key hr hm ht hp href hmsg hreq hown hneed
    have heff := effCmpReceive_snoop ht (.inl hp) href hmsg hreq (uMsp_ne_uHost hm) hp hown hneed
    rw [uMsp_sub] at heff
    exact run_const hr heff
  · intro s p w hr ht hp
    exact run_const hr (effCmpReceive_host ht hp rfl)

end Sys2Proof.Machine
end

section
/-! PROOFS. Routing in routers (R140, R142, R146, R149, R169, R406). -/

namespace Sys2Proof.Machine

/-! ### Hop lists -/

/-- Bits below place `lo + w` alone make a field. -/
theorem bits_eq_mod_div (n lo w : Nat) : bits n lo w = n % 2 ^ (lo + w) / 2 ^ lo := by
  rw [bits, Nat.pow_add, Nat.mod_mul_right_div_self]

/-- Bits from place `k` on alone make a field that begins there or later. -/
theorem bits_eq_bits_div {k lo : Nat} (n w : Nat) (h : k ≤ lo) : bits n lo w = bits (n / 2 ^ k) (lo - k) w := by
  rw [bits, bits, Nat.div_div_eq_div_mul, ← Nat.pow_add, Nat.add_sub_cancel' h]

/-- A number whose 6 bits at place `k` are taken out and `v` is put in: what lies below, `v`, and what lies above. -/
theorem replace_bits (n k v : Nat) :
    n - bits n k 6 * 2 ^ k + v * 2 ^ k = n % 2 ^ k + 2 ^ k * (v + 64 * (n / 2 ^ k / 64)) := by
  have hn := Nat.mod_add_div n (2 ^ k)
  have hq := Nat.mod_add_div (n / 2 ^ k) 64
  have hsplit : n = n % 2 ^ k + (2 ^ k * bits n k 6 + 2 ^ k * (64 * (n / 2 ^ k / 64))) := by
    rw [← Nat.mul_add, bits, show 2 ^ 6 = 64 from rfl, hq, hn]
  rw [Nat.mul_comm (bits n k 6), Nat.mul_comm v, Nat.mul_add]
  omega

/-- The value put in is read back. -/
theorem bits_replace_same {n v : Nat} (k : Nat) (hv : v < 64) : bits (n % 2 ^ k + 2 ^ k * (v + 64 * (n / 2 ^ k / 64))) k 6 = v := by
  rw [bits, Nat.add_mul_div_left _ _ (Nat.two_pow_pos k), Nat.div_eq_of_lt (Nat.mod_lt _ (Nat.two_pow_pos k))]
  omega

/-- A field below stays. -/
theorem bits_replace_below {n v k k' : Nat} (h : k' + 6 ≤ k) :
    bits (n % 2 ^ k + 2 ^ k * (v + 64 * (n / 2 ^ k / 64))) k' 6 = bits n k' 6 := by
  obtain ⟨d, rfl⟩ := Nat.exists_eq_add_of_le h
  rw [bits_eq_mod_div, bits_eq_mod_div n]
  rw [Nat.pow_add, Nat.add_mod, Nat.mul_assoc, Nat.mul_mod_right, Nat.add_zero, Nat.mod_mul_right_mod, Nat.mod_mod]

/-- A field above stays. -/
theorem bits_replace_above {n v k k' : Nat} (hv : v < 64) (h : k + 6 ≤ k') :
    bits (n % 2 ^ k + 2 ^ k * (v + 64 * (n / 2 ^ k / 64))) k' 6 = bits n k' 6 := by
  have hdiv : (n % 2 ^ k + 2 ^ k * (v + 64 * (n / 2 ^ k / 64))) / 2 ^ (k + 6) = n / 2 ^ (k + 6) := by
    rw [Nat.pow_add, ← Nat.div_div_eq_div_mul, Nat.add_mul_div_left _ _ (Nat.two_pow_pos k),
      Nat.div_eq_of_lt (Nat.mod_lt _ (Nat.two_pow_pos k)), ← Nat.div_div_eq_div_mul]
    omega
  rw [bits_eq_bits_div _ _ h, hdiv, ← bits_eq_bits_div _ _ h]

/-- The number keeps its size. -/
theorem replace_lt {n v k m : Nat} (hv : v < 64) (h : k + 6 ≤ m) (hn : n < 2 ^ m) :
    n % 2 ^ k + 2 ^ k * (v + 64 * (n / 2 ^ k / 64)) < 2 ^ m := by
  obtain ⟨d, rfl⟩ := Nat.exists_eq_add_of_le h
  have hlo := Nat.mod_lt n (Nat.two_pow_pos k)
  have hhi : n / 2 ^ k / 64 < 2 ^ d := by
    rw [Nat.div_div_eq_div_mul, Nat.div_lt_iff_lt_mul (by positivity)]
    calc n < 2 ^ (k + 6 + d) := hn
      _ = 2 ^ d * (2 ^ k * 64) := by ring
  calc n % 2 ^ k + 2 ^ k * (v + 64 * (n / 2 ^ k / 64)) < 2 ^ k * (v + 64 * (n / 2 ^ k / 64) + 1) := by rw [Nat.mul_add _ _ 1]; omega
    _ ≤ 2 ^ k * (64 * 2 ^ d) := Nat.mul_le_mul_left _ (by omega)
    _ = 2 ^ (k + 6 + d) := by ring

/-- The next hop receives the list with the input port in place of the entry used, and no other changed (R142). -/
theorem hopOn_facts {p : Packet} {inp : Nat} (hhop : p.hop < 2 ^ 42) (hptr : p.hopPtr < 7) (hinp : inp < 64) :
    (hopOn p inp).hopPtr = p.hopPtr + 1 ∧ (hopOn p inp).hopAt p.hopPtr = inp ∧ (hopOn p inp).hop < 2 ^ 42
      ∧ (∀ j, j < 7 → j ≠ p.hopPtr → (hopOn p inp).hopAt j = p.hopAt j)
      ∧ hopOn p inp = { p with hop := (hopOn p inp).hop, hopPtr := p.hopPtr + 1 } := by
  have hnew : (hopOn p inp).hop = p.hop % 2 ^ (6 * p.hopPtr) + 2 ^ (6 * p.hopPtr) * (inp + 64 * (p.hop / 2 ^ (6 * p.hopPtr) / 64)) := by
    rw [← replace_bits, hopOn, Packet.setHop, Packet.hopAt, Nat.mod_eq_of_lt hinp]
  refine ⟨rfl, ?_, ?_, fun j hj hne => ?_, rfl⟩
  · rw [Packet.hopAt, hnew, bits_replace_same _ hinp]
  · rw [hnew]
    exact replace_lt hinp (by omega) hhop
  · rw [Packet.hopAt, Packet.hopAt, hnew]
    rcases Nat.lt_or_gt_of_ne hne with hlt | hgt
    · exact bits_replace_below (by omega)
    · exact bits_replace_above hinp (by omega)

/-! ### The next hop -/

/-- A header whose codewords met no error is read as it was sent. -/
theorem W.rxHead_clean (w : W) (u port : Nat) (p : Packet) : w.rxHead u port p [] = (some p, w) := by simp [W.rxHead, W.rxPhit, phitOf]

/-- What a router does with a packet whose header is taken and whose hop list is not at its end (R142, R169, R406). -/
def W.routeHop (w : W) (u port vc i : Nat) (b : Buf) : W :=
  let out := b.pkt.hopAt b.pkt.hopPtr
  if isTine u ∧ out = 42 ∧ b.pkt.op = 0x60 then w.toUnit u port vc i b pMin
  else if !w.outOk u out b.pkt then (w.dropNth u port vc i).hdrBad u
  else if w.portDead u out then (w.dropNth u port vc i).staleGen u port b.pkt
  else if w.isSink u out ∧ !sinkPass b.pkt then (w.dropNth u port vc i).sinkTake u port b.pkt
  else if isRR u && (5 ≤ port && port ≤ 8) && out ≤ 4 && b.pkt.op == 0x41 && !pxFinal b.pkt then w.toUnit u port vc i b pPin
  else if isTine u && (out == 17 || out == 18) && b.pkt.op == 0x42 && !mxMerged b.pkt then w.toUnit u port vc i b pMin
  else w.setNth u port vc i { b with routed := true, copies := [{ port := out, pkt := hopOn b.pkt port }] }

section
variable {w : W} {u port vc i : Nat} {b : Buf} (hu : isRouter u = true) (hport : port < 48)
  (hi : (w.buf u port vc).findIdx? (fun b => !b.routed && !b.drop) = some i) (hb : (w.buf u port vc)[i]? = some b)
include hu hport hi hb

theorem effPacketRoute_hop (hhdr : hdrWrong u port vc b.pkt = false) (hptr : b.pkt.hopPtr < b.pkt.hops) :
    effPacketRoute u port vc [] w = w.routeHop u port vc i b := by
  have hgo : ¬ ((!isRouter u) = true ∨ 48 ≤ port) := by simp [hu, hport]
  simp only [effPacketRoute, if_neg hgo, hi, hb, W.rxHead_clean, if_true, hhdr, Bool.false_eq_true, if_false, if_neg hptr.ne]
  rfl

theorem effPacketRoute_bad (hhdr : hdrWrong u port vc b.pkt = true) :
    effPacketRoute u port vc [] w = (w.dropNth u port vc i).hdrBad u := by
  have hgo : ¬ ((!isRouter u) = true ∨ 48 ≤ port) := by simp [hu, hport]
  simp only [effPacketRoute, if_neg hgo, hi, hb, W.rxHead_clean, if_true, hhdr]

end

/-- The router's pool unit takes the packet, a part on its way up that is not final. -/
def poolTakes (u port out : Nat) (p : Packet) : Prop :=
  isRR u = true ∧ 5 ≤ port ∧ port ≤ 8 ∧ out ≤ 4 ∧ p.op = 0x41 ∧ pxFinal p = false

/-- The tine's merge unit takes the packet, a row for a memory port that is not merged. -/
def mergeTakes (u out : Nat) (p : Packet) : Prop := isTine u = true ∧ (out = 17 ∨ out = 18) ∧ p.op = 0x42 ∧ mxMerged p = false

theorem poolTakes_iff {u port out : Nat} {p : Packet} :
    (isRR u && (5 ≤ port && port ≤ 8) && out ≤ 4 && p.op == 0x41 && !pxFinal p) = true ↔ poolTakes u port out p := by
  simp [poolTakes, and_assoc]

theorem mergeTakes_iff {u out : Nat} {p : Packet} :
    (isTine u && (out == 17 || out == 18) && p.op == 0x42 && !mxMerged p) = true ↔ mergeTakes u out p := by
  simp [mergeTakes, and_assoc]

section
variable {w : W} {u port vc i out : Nat} {b : Buf} (hout : out = b.pkt.hopAt b.pkt.hopPtr) (hmrg : out = 42 → b.pkt.op ≠ 0x60)
  (hok : w.outOk u out b.pkt = true)
include hout hmrg hok

/-- A packet for a dead output is absorbed as stale (R169). -/
theorem W.routeHop_dead (hdead : w.portDead u out = true) : w.routeHop u port vc i b = (w.dropNth u port vc i).staleGen u port b.pkt := by
  have hans : ¬ (isTine u ∧ out = 42 ∧ b.pkt.op = 0x60) := fun ⟨_, h42, hop⟩ => hmrg h42 hop
  simp only [W.routeHop, ← hout, if_neg hans, hok, hdead, Bool.not_true, Bool.false_eq_true, if_false, if_true]

variable (hlive : w.portDead u out = false)
include hlive

/-- One for a sink that it does not pass is absorbed there (R406). -/
theorem W.routeHop_sink (hsink : w.isSink u out = true) (hpass : sinkPass b.pkt = false) :
    w.routeHop u port vc i b = (w.dropNth u port vc i).sinkTake u port b.pkt := by
  have hans : ¬ (isTine u ∧ out = 42 ∧ b.pkt.op = 0x60) := fun ⟨_, h42, hop⟩ => hmrg h42 hop
  have hin : w.isSink u out ∧ (!sinkPass b.pkt) = true := ⟨hsink, by simp [hpass]⟩
  simp only [W.routeHop, ← hout, if_neg hans, hok, hlive, Bool.not_true, Bool.false_eq_true, if_false, if_pos hin]

variable (hsink : w.isSink u out = true → sinkPass b.pkt = true)
include hsink

/-- One for a live and open output goes to a unit of the router, or on. -/
theorem W.routeHop_open : w.routeHop u port vc i b =
    if isRR u && (5 ≤ port && port ≤ 8) && out ≤ 4 && b.pkt.op == 0x41 && !pxFinal b.pkt then w.toUnit u port vc i b pPin
    else if isTine u && (out == 17 || out == 18) && b.pkt.op == 0x42 && !mxMerged b.pkt then w.toUnit u port vc i b pMin
    else w.setNth u port vc i { b with routed := true, copies := [{ port := out, pkt := hopOn b.pkt port }] } := by
  have hans : ¬ (isTine u ∧ out = 42 ∧ b.pkt.op = 0x60) := fun ⟨_, h42, hop⟩ => hmrg h42 hop
  have hin : ¬ (w.isSink u out ∧ (!sinkPass b.pkt) = true) := fun ⟨hs, hp⟩ => by simp [hsink hs] at hp
  simp only [W.routeHop, ← hout, if_neg hans, hok, hlive, Bool.not_true, Bool.false_eq_true, if_false, if_neg hin]

/-- One that no unit takes goes on (R142). -/
theorem W.routeHop_on (hpool : ¬ poolTakes u port out b.pkt) (hmerge : ¬ mergeTakes u out b.pkt) : w.routeHop u port vc i b =
    w.setNth u port vc i { b with routed := true, copies := [{ port := out, pkt := hopOn b.pkt port }] } := by
  rw [W.routeHop_open hout hmrg hok hlive hsink, if_neg (poolTakes_iff.not.mpr hpool), if_neg (mergeTakes_iff.not.mpr hmerge)]

variable (hlast : b.last = true)
include hlast

theorem W.routeHop_pool (hpool : poolTakes u port out b.pkt) : w.routeHop u port vc i b =
    (w.dropNth u port vc i).pushBuf u pPin { pkt := b.pkt, arrived := b.arrived, last := true, inp := port } := by
  rw [W.routeHop_open hout hmrg hok hlive hsink, if_pos (poolTakes_iff.mpr hpool), W.toUnit, if_neg (by simp [hlast])]

theorem W.routeHop_merge (hmerge : mergeTakes u out b.pkt) : w.routeHop u port vc i b =
    (w.dropNth u port vc i).pushBuf u pMin { pkt := b.pkt, arrived := b.arrived, last := true, inp := port } := by
  have hpool : ¬ poolTakes u port out b.pkt := by
    rintro ⟨-, -, -, -, hpool, -⟩
    obtain ⟨-, -, hop, -⟩ := hmerge
    omega
  rw [W.routeHop_open hout hmrg hok hlive hsink, if_neg (poolTakes_iff.not.mpr hpool), if_pos (mergeTakes_iff.mpr hmerge), W.toUnit,
    if_neg (by simp [hlast])]

end

/-! ### Herd packets -/

/-- A herd packet at its root or below it descends by the router's mask, where every port of the mask is in use, live and open (R149). -/
theorem effHerdRoute_descends {w : W} {u port vc i : Nat} {b : Buf} {e : HerdEnt} (hu : isRouter u = true) (hport : port < 48)
    (hi : (w.buf u port vc).findIdx? (fun b => !b.routed && !b.drop) = some i) (hb : (w.buf u port vc)[i]? = some b)
    (hherd : b.pkt.herdMode = true) (hptr : b.pkt.hopPtr = b.pkt.hops) (hhops : b.pkt.hops < 7)
    (he : e = w.herdEnt b.pkt.gen u b.pkt.dst) (hvalid : e.hvalid = true) (hctx : e.hctx = b.pkt.ctx)
    (hports : ∀ o ∈ maskPorts u e.mask, w.outOk u o b.pkt = true ∧ w.portDead u o = false ∧ w.isSink u o = false)
    (hne : maskPorts u e.mask ≠ []) : effHerdRoute u port vc w = w.setNth u port vc i
      { b with routed := true, copies := (maskPorts u e.mask).map (fun o => { port := o, pkt := hopDown b.pkt port }) } := by
  have hgo : ¬ ((!isRouter u) = true ∨ 48 ≤ port) := by simp [hu, hport]
  have hown : ¬ ((!b.pkt.herdMode) = true ∨ b.pkt.hopPtr ≠ b.pkt.hops) := by simp [hherd, hptr]
  have hused : (maskPorts u e.mask).filter (fun o => w.outOk u o b.pkt) = maskPorts u e.mask :=
    List.filter_eq_self.mpr fun o ho => (hports o ho).1
  have hall : (maskPorts u e.mask).partition (fun o => !w.portDead u o && !w.isSink u o) = (maskPorts u e.mask, []) := by
    rw [List.partition_eq_filter_filter, List.filter_eq_self.mpr, List.filter_eq_nil_iff.mpr]
    · intro o ho
      obtain ⟨-, hlive, hopen⟩ := hports o ho
      simp [hlive, hopen]
    · intro o ho
      obtain ⟨-, hlive, hopen⟩ := hports o ho
      simp [hlive, hopen]
  simp only [effHerdRoute, if_neg hgo, hi, hb, if_neg hown, ← he, hvalid, hctx, Bool.not_true, Bool.false_eq_true, if_false, ne_eq,
    not_true, if_neg (Nat.not_le.mpr hhops), hused, hall, W.each_nil, if_neg hne]

/-- Settles O14: where the next hop's entry leads, where the herd's mask leads, and what the next hop receives. -/
theorem routersRoute : Obligations.RoutersRoute := by
  refine ⟨?_, ?_, ?_, ?_, ?_, ?_, ?_, fun p inp hhop hptr hinp => hopOn_facts hhop hptr hinp⟩
  · intro s u port vc i b out hr hu hport hi hb hhdr hptr hout hmrg hok hlive hsink hpool hmerge
    exact run_eq hr ((effPacketRoute_hop hu hport hi hb hhdr hptr).trans (W.routeHop_on hout hmrg hok hlive hsink hpool hmerge))
  · intro s u port vc i b out hr hu hport hi hb hhdr hptr hout hop hok hlive hsink hlast hpool
    exact run_eq hr ((effPacketRoute_hop hu hport hi hb hhdr hptr).trans
      (W.routeHop_pool hout (fun _ => hop) hok hlive (fun h => absurd h (by simp [hsink])) hlast hpool))
  · intro s u port vc i b out hr hu hport hi hb hhdr hptr hout hop hok hlive hsink hlast hmerge
    exact run_eq hr ((effPacketRoute_hop hu hport hi hb hhdr hptr).trans
      (W.routeHop_merge hout (fun _ => hop) hok hlive (fun h => absurd h (by simp [hsink])) hlast hmerge))
  · intro s u port vc i b out hr hu hport hi hb hhdr hptr hout hmrg hok hdead
    exact run_eq hr ((effPacketRoute_hop hu hport hi hb hhdr hptr).trans (W.routeHop_dead hout hmrg hok hdead))
  · intro s u port vc i b out hr hu hport hi hb hhdr hptr hout hmrg hok hlive hsink hpass
    exact run_eq hr ((effPacketRoute_hop hu hport hi hb hhdr hptr).trans (W.routeHop_sink hout hmrg hok hlive hsink hpass))
  · intro s u port vc i b hr hu hport hi hb hhdr
    exact run_eq hr (effPacketRoute_bad hu hport hi hb hhdr)
  · intro s u port vc i b hr hu hport hi hb hherd hptr hhops hvalid hctx hports hne
    exact run_eq hr (effHerdRoute_descends hu hport hi hb hherd hptr hhops rfl hvalid hctx hports hne)

end Sys2Proof.Machine
end

section
/-! PROOFS. Faults (R382, R383): a class that is set stays so, and beside the sticky bits a fault changes no register that is not a
trace buffer's. -/

namespace Sys2Proof.Machine

theorem bit_eq_testBit (n i : Nat) : bit n i = n.testBit i := by rw [Nat.testBit_eq_decide_div_mod_eq]; rfl

/-- Class `c` of group 12 is set (R382). -/
def State.hasClass (s : State) (c : Nat) : Prop := bit (s.rd fltB (KFLT_STICKY.sticky.at 12)) c = true

theorem State.hasClass_congr {v w : State} (h : v.regs = w.regs) (c : Nat) : v.hasClass c ↔ w.hasClass c := by
  rw [State.hasClass, State.hasClass, State.rd_congr h]

theorem sticky_key_inj {g h : Nat} (hne : g ≠ h) : (KFLT_STICKY.sticky.at h).key fltB 0 ≠ (KFLT_STICKY.sticky.at g).key fltB 0 := by
  simp only [Fld.key, Fld.at, KFLT_STICKY.sticky]
  omega

theorem W.sticky_sets (w : W) {c : Nat} (hc : c < 32) : (w.sticky 12 c).hasClass c := by
  rw [State.hasClass, W.sticky, W.rd_flag_self, bit_eq_testBit, Nat.testBit_mod_two_pow, Nat.testBit_or,
    Nat.testBit_two_pow_self, Bool.or_true, Bool.and_true]
  exact decide_eq_true hc

/-- A sticky bit that is set takes none away. -/
theorem W.sticky_keeps (w : W) {c : Nat} (hc : c < 32) (g b : Nat) (h : w.hasClass c) : (w.sticky g b).hasClass c := by
  by_cases hg : g = 12
  · subst hg
    rw [State.hasClass, bit_eq_testBit] at h
    rw [State.hasClass, W.sticky, W.rd_flag_self, bit_eq_testBit, Nat.testBit_mod_two_pow, Nat.testBit_or, h, Bool.true_or, Bool.and_true]
    exact decide_eq_true hc
  · rw [State.hasClass, W.sticky, W.rd_flag_ne _ _ _ _ _ _ _ _ (sticky_key_inj hg)]
    exact h

/-- Setting a class writes its sticky bit alone. -/
theorem W.setClass_regs (w : W) (c : Nat) : (w.setClass c).regs = (w.sticky 12 c).regs := by
  unfold W.setClass
  dsimp only
  split
  · rfl
  · split
    · rfl
    · rfl

theorem W.fault_regs (w : W) (c l : Nat) : (w.fault c l).regs = (((w.traceFlt l c).sticky (l / 32) (l % 32)).sticky 12 c).regs :=
  W.setClass_regs ..

theorem W.fault_sets (w : W) {c : Nat} (l : Nat) (hc : c < 32) : (w.fault c l).hasClass c :=
  (State.hasClass_congr (W.fault_regs ..) c).mpr (W.sticky_sets _ hc)

theorem W.traceFlt_keeps (w : W) (l k c : Nat) (h : w.hasClass c) : (w.traceFlt l k).hasClass c := by
  rw [State.hasClass, W.traceFlt_rd _ _ _ _ _ _ ⟨by decide, by decide⟩]
  exact h

theorem W.fault_keeps (w : W) {c : Nat} (k l : Nat) (hc : c < 32) (h : w.hasClass c) : (w.fault k l).hasClass c :=
  (State.hasClass_congr (W.fault_regs ..) c).mpr (W.sticky_keeps _ hc _ _ (W.sticky_keeps _ hc _ _ (W.traceFlt_keeps _ _ _ _ h)))

theorem W.onError_keeps (w : W) {c : Nat} (l wt : Nat) (hc : c < 32) (h : w.hasClass c) : (w.onError l wt).hasClass c := by
  unfold W.onError
  extract_lets e win fresh n t0 last src v
  have hv : v.hasClass c := h
  split
  · exact h
  · split
    · rename_i x flt _ _
      have hx : x.hasClass c := W.fault_keeps v clLASTING l hc hv
      clear_value x
      exact hx
    · exact hv

/-- A fault leaves every field that begins past bit 0 of its register, but those of trace buffers. -/
theorem W.fault_rd (w : W) (k l : Nat) {b : Nat} {f : Fld} (i : Nat) (ho : offTrace b f) (hl : f.lsb ≠ 0) :
    (w.fault k l).rd b f i = w.rd b f i := by
  have hlsb := ho.1
  have hkey (g : Nat) : f.key b i ≠ (KFLT_STICKY.sticky.at g).key fltB 0 := by
    simp only [Fld.key, Fld.at, KFLT_STICKY.sticky]
    omega
  rw [State.rd_congr (W.fault_regs w k l), W.sticky, W.rd_flag_ne _ _ _ _ _ _ _ _ (hkey 12), W.sticky,
    W.rd_flag_ne _ _ _ _ _ _ _ _ (hkey (l / 32)), W.traceFlt_rd _ _ _ _ _ _ ho]

end Sys2Proof.Machine
end

section
/-! PROOFS. The route writer, herds and generations (R145, R150, R167, R168, R170, R171). -/

namespace Sys2Proof.Machine

/-! ### Banks -/

theorem rbank_setRbank (w : W) (a b : Nat) (v : RBank) : (w.setRbank a v).rbank b = if a % 2 = b % 2 then v else w.rbank b := by
  rcases Nat.mod_two_eq_zero_or_one a with ha | ha <;> rcases Nat.mod_two_eq_zero_or_one b with hb | hb <;>
    simp [W.setRbank, State.rbank, ha, hb]

theorem hbank_setHbank (w : W) (a b : Nat) (v : HBank) : (w.setHbank a v).hbank b = if a % 2 = b % 2 then v else w.hbank b := by
  rcases Nat.mod_two_eq_zero_or_one a with ha | ha <;> rcases Nat.mod_two_eq_zero_or_one b with hb | hb <;>
    simp [W.setHbank, State.hbank, ha, hb]

theorem rbank_setHbank (w : W) (a b : Nat) (v : HBank) : (w.setHbank a v).rbank b = w.rbank b := by
  rcases Nat.mod_two_eq_zero_or_one a with ha | ha <;> simp [W.setHbank, State.rbank, ha]

theorem W.setRbank_noNet (w : W) (a : Nat) (v : RBank) : (w.setRbank a v).noNet = w.noNet := by
  rw [W.setRbank, apply_ite W.noNet]
  exact ite_self _

theorem W.setHbank_noNet (w : W) (a : Nat) (v : HBank) : (w.setHbank a v).noNet = w.noNet := by
  rw [W.setHbank, apply_ite W.noNet]
  exact ite_self _

theorem W.regs_of_noNet {v w : W} (h : v.noNet = w.noNet) : v.regs = w.regs := by have e := congrArg (fun x : W => x.regs) h; exact e
theorem W.boot_of_noNet {v w : W} (h : v.noNet = w.noNet) : v.boot = w.boot := by have e := congrArg (fun x : W => x.boot) h; exact e
theorem W.herdTime_of_noNet {v w : W} (h : v.noNet = w.noNet) : v.herdTime = w.herdTime := by
  have e := congrArg (fun x : W => x.herdTime) h; exact e
theorem W.stores_of_noNet {v w : W} (h : v.noNet = w.noNet) : v.stores = w.stores := by
  have e := congrArg (fun x : W => x.stores) h; exact e
theorem W.plt_of_noNet {v w : W} (h : v.noNet = w.noNet) : v.plt = w.plt := by have e := congrArg (fun x : W => x.plt) h; exact e

/-- The next state of a command whose effect is `v` and then its answer, where `v` has the commands and the herd time of `s` and has
stored nothing. -/
theorem State.after_answer_of {s : State} {v : W} {q slot st : Nat} {rd : List Byte} {c : Cmd} (hc : s.cmdOf q slot = some c)
    (up : s.miomusUp = true) (hb : v.boot = s.boot) (ht : v.herdTime = s.herdTime) (hs : v.stores = []) :
    let t := s.after fun _ => v.answer q slot st rd
    Answered s t q c st rd ∧ t.mem = s.mem ∧ t.net = v.net ∧ t.plt = v.plt
      ∧ ∀ g : Fld, offTrace gblB g → g.lsb ≠ 8 → t.rd gblB g = v.rd gblB g := by
  have hans := answered_of s v q slot st rd c hc up hb ht
  have hstores : (v.answer q slot st rd).stores = [] := by rw [W.answer_stores, hs]
  have hnet := W.answer_net v q slot st rd
  have hplt := W.answer_plt v q slot st rd
  have hrd (g : Fld) (ho : offTrace gblB g) (h8 : g.lsb ≠ 8) : (v.answer q slot st rd).rd gblB g = v.rd gblB g := by
    refine W.answer_rd _ _ _ _ _ _ _ _ ho ?_
    have hlsb := ho.1
    simp only [Fld.key, KCMD_QHEAD.running]
    omega
  generalize v.answer q slot st rd = w at *
  exact ⟨hans.congr rfl, State.after_mem_of_no_stores hstores, hnet, hplt, hrd⟩

theorem State.rbank_congr {s t : State} (h : t.net = s.net) (b : Nat) : t.rbank b = s.rbank b := by rw [State.rbank, State.rbank, h]
theorem State.hbank_congr {s t : State} (h : t.net = s.net) (b : Nat) : t.hbank b = s.hbank b := by rw [State.hbank, State.hbank, h]

/-! ### ROUTE_WRITE -/

/-- The generation that is current is another field than `staging`. -/
theorem genCur_wr_staging (w : W) (n : Nat) : (w.wr gblB KGBL_RGEN.staging n).genCur = w.genCur := W.rd_wr_ne _ _ _ _ _ _ _ _ (by decide)

/-- The first ROUTE_WRITE of a generation starts from the current bank, a later one from the staged one (R167); the rest of the block
stays. -/
theorem W.stage_facts (w : W) : let v := w.stage
    v.rd gblB KGBL_RGEN.staging = 1 ∧ v.genCur = w.genCur ∧ v.rbank w.genCur = w.rbank w.genCur
      ∧ v.rbank (w.genCur + 1) = w.rbank (if w.rd gblB KGBL_RGEN.staging = 1 then w.genCur + 1 else w.genCur)
      ∧ v.boot = w.boot ∧ v.herdTime = w.herdTime ∧ v.stores = w.stores := by
  unfold W.stage
  split
  · rename_i h
    exact ⟨h, rfl, rfl, rfl, rfl, rfl, rfl⟩
  · dsimp only
    have hkeep : ((w.setRbank w.stagedBank (w.rbank w.genCur)).setHbank w.stagedBank (w.hbank w.genCur)).noNet = w.noNet := by
      rw [W.setHbank_noNet, W.setRbank_noNet]
    have hbank (b : Nat) : ((w.setRbank w.stagedBank (w.rbank w.genCur)).setHbank w.stagedBank (w.hbank w.genCur)).rbank b
        = if w.stagedBank % 2 = b % 2 then w.rbank w.genCur else w.rbank b := by
      rw [rbank_setHbank, rbank_setRbank]
    generalize (w.setRbank w.stagedBank (w.rbank w.genCur)).setHbank w.stagedBank (w.hbank w.genCur) = v at *
    refine ⟨W.rd_wr_val _ _ _ _ _ _ rfl, ?_, ?_, ?_,
      (W.wr_boot ..).trans (W.boot_of_noNet hkeep), (W.wr_herdTime ..).trans (W.herdTime_of_noNet hkeep),
      (W.wr_stores ..).trans (W.stores_of_noNet hkeep)⟩
    · rw [genCur_wr_staging]
      exact State.rd_congr (W.regs_of_noNet hkeep) ..
    · exact (hbank _).trans (ite_self _)
    · refine (hbank _).trans (if_pos ?_)
      unfold State.stagedBank
      omega

/-- A record of a route image goes to its source's entry for its destination (R466). -/
def putRecord (t : Tbl Nat) (r : List Byte) : Tbl Nat := t.put (bits (le r 0 2) 0 12 * 4096 + bits (le r 2 2) 0 12) (le r 16 16)

/-- The staged bank takes the records. -/
def W.writeRoutes (w : W) (rs : List (List Byte)) : W :=
  let v := w.stage
  v.setRbank v.stagedBank { v.rbank v.stagedBank with written := rs.foldl putRecord (v.rbank v.stagedBank).written }

theorem W.writeRoutes_facts (w : W) (rs : List (List Byte)) : let v := w.writeRoutes rs
    v.rd gblB KGBL_RGEN.staging = 1 ∧ v.genCur = w.genCur ∧ v.rbank w.genCur = w.rbank w.genCur
      ∧ (v.rbank (w.genCur + 1)).written
          = rs.foldl putRecord (w.rbank (if w.rd gblB KGBL_RGEN.staging = 1 then w.genCur + 1 else w.genCur)).written
      ∧ v.boot = w.boot ∧ v.herdTime = w.herdTime ∧ v.stores = w.stores := by
  obtain ⟨hstaging, hgen, hcur, hnext, hboot, htime, hstores⟩ := w.stage_facts
  unfold W.writeRoutes
  generalize w.stage = v at *
  have hb : v.stagedBank = (w.genCur + 1) % 2 := by rw [State.stagedBank, hgen]
  have hbank : v.rbank v.stagedBank = v.rbank (w.genCur + 1) := by rw [hb, State.rbank, State.rbank, Nat.mod_mod]
  have hkeep := v.setRbank_noNet v.stagedBank { v.rbank v.stagedBank with written := rs.foldl putRecord (v.rbank v.stagedBank).written }
  refine ⟨(State.rd_congr (W.regs_of_noNet hkeep) ..).trans hstaging, (State.rd_congr (W.regs_of_noNet hkeep) ..).trans hgen, ?_, ?_,
    (W.boot_of_noNet hkeep).trans hboot, (W.herdTime_of_noNet hkeep).trans htime, (W.stores_of_noNet hkeep).trans hstores⟩
  · rw [rbank_setRbank, if_neg (by omega), hcur]
  · rw [rbank_setRbank, if_pos (by omega), hbank, hnext]

/-- A route image whose checks hold is staged. -/
theorem effRouteWrite_stages {w : W} {q slot a n : Nat} {c : Cmd} (hc : w.cmdAt q slot 0x0030 = some c) (ha : a = le c.bytes 16 8)
    (hn : n = bits (le c.bytes 24 4) 0 19) (h0 : n ≠ 0) (hmax : n ≤ 262144) (hrange : w.rangeOk a (32 * n) = true)
    (hdrain : w.draining = false) (hcommit : w.net.commit = none) (himage : w.imageStatus (loff a) (32 * n) = OK)
    (hrec : ∀ r ∈ records n (w.memRead (loff a) (32 * n)), w.recordOk r = true) :
    effRouteWrite q slot w
      = (w.writeRoutes (records n (w.memRead (loff a) (32 * n)))).answer q slot OK (toLE 1 ((w.genCur + 1) % 256)) := by
  have hearly : firstOf [(n == 0 || decide (262144 < n) || !w.rangeOk a (32 * n), BADOP), (w.draining || w.net.commit.isSome, BUSY)] = OK :=
    firstOf_none (by simp [h0, Nat.not_lt.mpr hmax, hrange, hdrain, hcommit])
  have hall : (records n (w.memRead (loff a) (32 * n))).all w.recordOk = true := List.all_eq_true.mpr hrec
  obtain ⟨-, hgen, -⟩ := w.writeRoutes_facts (records n (w.memRead (loff a) (32 * n)))
  have heff : effRouteWrite q slot w = (w.writeRoutes (records n (w.memRead (loff a) (32 * n)))).answer q slot OK
      (toLE 1 (((w.writeRoutes (records n (w.memRead (loff a) (32 * n)))).genCur + 1) % 256)) := by
    unfold effRouteWrite
    rw [hc]
    dsimp only
    rw [← ha, ← hn, hearly, if_neg (by decide), if_neg (by simp [himage]), if_neg (by simp [hall]), if_neg (by decide)]
    rfl
  rw [heff, hgen]

theorem routeWrite_stages {s : State} {q slot a n : Nat} {c : Cmd} {rs : List (List Byte)} (hr : s.inReset = false)
    (hc : s.Runs q slot 0x0030 c) (ha : a = le c.bytes 16 8) (hn : n = bits (le c.bytes 24 4) 0 19) (h0 : n ≠ 0) (hmax : n ≤ 262144)
    (hrange : s.rangeOk a (32 * n) = true) (hdrain : s.draining = false) (hcommit : s.net.commit = none)
    (himage : s.w0.imageStatus (loff a) (32 * n) = OK) (hrs : rs = records n (getBytes s.mem.cells (loff a) (32 * n)))
    (hrec : ∀ r ∈ rs, s.recordOk r = true) :
    ∃ t, exec (.routeWrite q slot) s = .next t ∧ Answered s t q c OK (toLE 1 ((s.genCur + 1) % 256))
      ∧ t.rd gblB KGBL_RGEN.staging = 1
      ∧ (t.rbank (s.genCur + 1)).written
          = rs.foldl putRecord (s.rbank (if s.rd gblB KGBL_RGEN.staging = 1 then s.genCur + 1 else s.genCur)).written
      ∧ t.rbank s.genCur = s.rbank s.genCur ∧ t.mem = s.mem := by
  obtain ⟨hrun, hcmd⟩ := hc
  have hread : rs = records n (s.w0.memRead (loff a) (32 * n)) := hrs
  have heff := effRouteWrite_stages (w := s.w0) hrun ha hn h0 hmax hrange hdrain hcommit himage (hread ▸ hrec)
  rw [← hread] at heff
  obtain ⟨hstaging, -, hcur, hnext, hboot, htime, hstores⟩ := s.w0.writeRoutes_facts rs
  generalize s.w0.writeRoutes rs = v at *
  obtain ⟨hans, hmem, hnet, -, hrd⟩ := State.after_answer_of (v := v) (st := OK) (rd := toLE 1 ((s.genCur + 1) % 256)) hcmd
    (State.miomusUp_of_cmdAt hrun) hboot htime hstores
  refine ⟨_, run_const hr heff, hans, (hrd _ (by unfold offTrace; decide) (by decide)).trans hstaging,
    (congrArg RBank.written (State.rbank_congr hnet _)).trans hnext, (State.rbank_congr hnet _).trans hcur, hmem⟩

/-! ### ROUTE_COMMIT -/

theorem routeCommit_waits {s : State} {q slot : Nat} {c : Cmd} (hr : s.inReset = false) (hc : s.Runs q slot 0x0031 c)
    (hdrain : s.draining = false) (hcommit : s.net.commit = none) (hstaged : s.rd gblB KGBL_RGEN.staging ≠ 0) :
    ∃ t, exec (.routeCommit q slot) s = .next t ∧ t.net.commit = some { at_ := s.herdTime, q := q, slot := slot }
      ∧ t.regs = s.regs ∧ t.mem = s.mem ∧ t.plt = s.plt := by
  have hok : firstOf [(s.draining || s.net.commit.isSome, BUSY), (s.rd gblB KGBL_RGEN.staging == 0, ALREADY)] = OK :=
    firstOf_none (by simp [hdrain, hcommit, hstaged])
  have heff : effRouteCommit q slot s.w0 = (s.w0.acceptCommit q slot).cmdStage q slot 1 := by
    unfold effRouteCommit
    simp only [State.w0_toState, hc.1, hok]
    rfl
  exact ⟨_, run_const hr heff, rfl, rfl, rfl, rfl⟩

/-! ### HERD_DEFINE -/

/-- A herd is written, or released, in the bank of the current generation (R150); the rest of the block stays. -/
theorem W.setHerd_facts (w : W) (herd : Nat) (d : Option HerdDef) : let v := w.setHerd herd d
    ((v.hbank w.genCur).defs.find herd = d) ∧ v.noNet = w.noNet := by
  have hput : (match d with | some x => (w.hbank w.genCur).defs.put herd x | none => (w.hbank w.genCur).defs.del herd).find herd = d := by
    cases d with
    | none => exact Tbl.find_del_self ..
    | some x => exact Tbl.find_put_self ..
  unfold W.setHerd
  dsimp only
  split
  · rw [hbank_setHbank, if_pos rfl, W.setHbank_noNet]
    exact ⟨hput, rfl⟩
  · rw [hbank_setHbank, if_neg (by omega), hbank_setHbank, if_pos rfl, W.setHbank_noNet, W.setHbank_noNet]
    exact ⟨hput, rfl⟩

/-- A herd that passes its checks (R150): its number, root and members are good, its context lives, and no herd has its number. -/
structure State.HerdOk (s : State) (c : Cmd) (herd stage index n a : Nat) (ms : List Nat) : Prop where
  number : herd < 0xF00
  n0 : n ≠ 0
  nmax : n ≤ 2048
  stage1 : 1 ≤ stage
  stage4 : stage ≤ 4
  low : stage < 3 → index = 0
  tine : stage = 3 → index < s.fuse.tines
  beam : stage = 4 → index ≤ 19
  range : s.rangeOk a (2 * n) = true
  live : s.ctxLive c.ctx = true
  free : (s.hbank s.genCur).defs.find herd = none
  image : s.w0.imageStatus (loff a) (2 * n) = OK
  members : ms = (List.range n).map (fun i => bits (le (getBytes s.mem.cells (loff a) (2 * n)) (2 * i) 2) 0 12)
  reach : ∀ e ∈ ms, s.present e = true ∧ s.place.reaches stage index (ms.headD 0) e = true
  nodup : ms.Nodup

theorem State.HerdOk.root {s : State} {c : Cmd} {herd stage index n a : Nat} {ms : List Nat} (h : s.HerdOk c herd stage index n a ms) :
    (decide (1 ≤ stage) && decide (stage ≤ 4) && (decide (3 ≤ stage) || index == 0) && (stage != 3 || decide (index < s.fuse.tines))
      && (stage != 4 || decide (index ≤ 19))) = true := by
  have hlow : 3 ≤ stage ∨ index = 0 := by
    rcases Nat.lt_or_ge stage 3 with hlt | hge
    · exact .inr (h.low hlt)
    · exact .inl hge
  have htine : stage ≠ 3 ∨ index < s.fuse.tines := by
    by_cases hs : stage = 3
    · exact .inr (h.tine hs)
    · exact .inl hs
  have hbeam : stage ≠ 4 ∨ index ≤ 19 := by
    by_cases hs : stage = 4
    · exact .inr (h.beam hs)
    · exact .inl hs
  simp [h.stage1, h.stage4, hlow, htine, hbeam]

theorem State.HerdOk.not_bad {s : State} {c : Cmd} {herd stage index n a : Nat} {ms : List Nat} (h : s.HerdOk c herd stage index n a ms) :
    (!ms.all (fun e => s.present e && s.place.reaches stage index (ms.headD 0) e) || !decide ms.Nodup) = false := by
  have hall : ms.all (fun e => s.present e && s.place.reaches stage index (ms.headD 0) e) = true :=
    List.all_eq_true.mpr fun e he => Bool.and_eq_true_iff.mpr (h.reach e he)
  rw [hall, decide_eq_true h.nodup]
  rfl

theorem effHerdDefine_writes {s : State} {q slot herd stage index n a : Nat} {c : Cmd} {ms : List Nat}
    (hc : s.cmdAt q slot 0x00A1 = some c) (hherd : herd = bits (le c.bytes 16 2) 0 12) (hstage : stage = bits (le c.bytes 18 1) 0 3)
    (hindex : index = bits (le c.bytes 18 1) 3 5) (hn : n = bits (le c.bytes 20 2) 0 12) (ha : a = le c.bytes 24 8)
    (h : s.HerdOk c herd stage index n a ms) :
    effHerdDefine q slot s.w0 = (s.w0.setHerd herd (some (HerdDef.mk c.ctx stage index ms s.place))).answer q slot OK := by
  unfold effHerdDefine
  split
  · rename_i hnone
    exact absurd (hc.symm.trans hnone) (by simp)
  · rename_i c' hsome
    obtain rfl : c = c' := Option.some.inj (hc.symm.trans hsome)
    extract_lets herd' root n' a' stage' index' old rootOk mine held early d ms' bad
    obtain rfl : herd = herd' := hherd
    obtain rfl : stage = stage' := hstage
    obtain rfl : index = index' := hindex
    obtain rfl : n = n' := hn
    obtain rfl : a = a' := ha
    obtain rfl : ms = ms' := h.members
    have hold : old = none := h.free
    have hroot : rootOk = true := h.root
    have hbad : bad = false := h.not_bad
    have hearly : early = OK := firstOf_none (by simp [h.number, h.nmax, h.n0, h.range, h.live, hroot, hold])
    rw [hearly, hbad, if_neg (by simp [h.n0]; decide), if_neg h.n0, if_neg (not_not.mpr h.image), if_neg (by simp)]
    rfl

theorem herdDefine_writes {s : State} {q slot herd stage index n a : Nat} {c : Cmd} {ms : List Nat} (hr : s.inReset = false)
    (hc : s.Runs q slot 0x00A1 c) (hherd : herd = bits (le c.bytes 16 2) 0 12) (hstage : stage = bits (le c.bytes 18 1) 0 3)
    (hindex : index = bits (le c.bytes 18 1) 3 5) (hn : n = bits (le c.bytes 20 2) 0 12) (ha : a = le c.bytes 24 8)
    (h : s.HerdOk c herd stage index n a ms) :
    ∃ t, exec (.herdDefine q slot) s = .next t ∧ Answered s t q c OK []
      ∧ (t.hbank s.genCur).defs.find herd = some (HerdDef.mk c.ctx stage index ms s.place) ∧ t.mem = s.mem ∧ t.plt = s.plt := by
  obtain ⟨hrun, hcmd⟩ := hc
  have heff := effHerdDefine_writes hrun hherd hstage hindex hn ha h
  obtain ⟨hfind, hkeep⟩ := s.w0.setHerd_facts herd (some (HerdDef.mk c.ctx stage index ms s.place))
  generalize s.w0.setHerd herd (some (HerdDef.mk c.ctx stage index ms s.place)) = v at *
  obtain ⟨hans, hmem, hnet, hplt, -⟩ := State.after_answer_of (v := v) (st := OK) (rd := []) hcmd (State.miomusUp_of_cmdAt hrun)
    (W.boot_of_noNet hkeep) (W.herdTime_of_noNet hkeep) (W.stores_of_noNet hkeep)
  exact ⟨_, run_const hr heff, hans, (congrArg (fun b : HBank => b.defs.find herd) (State.hbank_congr hnet _)).trans hfind, hmem,
    hplt.trans (W.plt_of_noNet hkeep)⟩

theorem effHerdDefine_releases {s : State} {q slot herd : Nat} {c : Cmd} {d : HerdDef} (hc : s.cmdAt q slot 0x00A1 = some c)
    (hherd : herd = bits (le c.bytes 16 2) 0 12) (hmax : herd < 0xF00) (hn : bits (le c.bytes 20 2) 0 12 = 0)
    (hlive : s.ctxLive c.ctx = true) (hfind : (s.hbank s.genCur).defs.find herd = some d) (hmine : d.ctx = c.ctx)
    (hfree : ∀ e ∈ s.col.grp, ¬(e.2.ctx = c.ctx ∧ e.2.rherd = herd)) :
    effHerdDefine q slot s.w0 = (s.w0.setHerd herd none).answer q slot OK := by
  unfold effHerdDefine
  split
  · rename_i hnone
    exact absurd (hc.symm.trans hnone) (by simp)
  · rename_i c' hsome
    obtain rfl : c = c' := Option.some.inj (hc.symm.trans hsome)
    extract_lets herd' root n' a' stage' index' old rootOk mine held early
    obtain rfl : herd = herd' := hherd
    have hold : old = some d := hfind
    have hn : n' = 0 := hn
    have hheld : held = false := List.any_eq_false.mpr fun e he => by simpa using hfree e he
    have hown : mine = true := by simp [mine, hold, hmine]
    have hearly : early = OK := firstOf_none (by simp [hmax, hn, hlive, hold, hheld, hown])
    rw [hearly, if_neg (by simp; decide), if_pos hn]

theorem herdDefine_releases {s : State} {q slot herd : Nat} {c : Cmd} {d : HerdDef} (hr : s.inReset = false)
    (hc : s.Runs q slot 0x00A1 c) (hherd : herd = bits (le c.bytes 16 2) 0 12) (hmax : herd < 0xF00)
    (hn : bits (le c.bytes 20 2) 0 12 = 0) (hlive : s.ctxLive c.ctx = true) (hfind : (s.hbank s.genCur).defs.find herd = some d)
    (hmine : d.ctx = c.ctx) (hfree : ∀ e ∈ s.col.grp, ¬(e.2.ctx = c.ctx ∧ e.2.rherd = herd)) :
    ∃ t, exec (.herdDefine q slot) s = .next t ∧ Answered s t q c OK []
      ∧ (t.hbank s.genCur).defs.find herd = none ∧ t.mem = s.mem ∧ t.plt = s.plt := by
  obtain ⟨hrun, hcmd⟩ := hc
  have heff := effHerdDefine_releases hrun hherd hmax hn hlive hfind hmine hfree
  obtain ⟨hnone, hkeep⟩ := s.w0.setHerd_facts herd none
  generalize s.w0.setHerd herd none = v at *
  obtain ⟨hans, hmem, hnet, hplt, -⟩ := State.after_answer_of (v := v) (st := OK) (rd := []) hcmd (State.miomusUp_of_cmdAt hrun)
    (W.boot_of_noNet hkeep) (W.herdTime_of_noNet hkeep) (W.stores_of_noNet hkeep)
  exact ⟨_, run_const hr heff, hans, (congrArg (fun b : HBank => b.defs.find herd) (State.hbank_congr hnet _)).trans hnone, hmem,
    hplt.trans (W.plt_of_noNet hkeep)⟩

/-! ### Drains -/

theorem generationSweepEnd_found {s : State} (hr : s.inReset = false) (hd : s.draining = true) (hf : s.inFlight (s.genDrain % 2) ≠ 0) :
    exec .generationSweepEnd s = .next (s.after fun w => w.wr gblB KGBL_RGEN.zero_sweeps 0) := by
  refine run_eq hr ?_
  have hdrain : ¬ (!s.draining) = true := by simp [hd]
  exact (if_neg hdrain).trans (if_pos hf)

theorem generationSweepEnd_first {s : State} (hr : s.inReset = false) (hd : s.draining = true) (hf : s.inFlight (s.genDrain % 2) = 0)
    (hz : s.rd gblB KGBL_RGEN.zero_sweeps = 0) :
    exec .generationSweepEnd s = .next (s.after fun w => w.wr gblB KGBL_RGEN.zero_sweeps 1) := by
  have hdrain : ¬ (!s.draining) = true := by simp [hd]
  have hcount : ¬ 2 ≤ s.rd gblB KGBL_RGEN.zero_sweeps + 1 := by omega
  have heff : effGenerationSweepEnd s.w0 = s.w0.wr gblB KGBL_RGEN.zero_sweeps (s.rd gblB KGBL_RGEN.zero_sweeps + 1) :=
    (if_neg hdrain).trans ((if_neg (not_not.mpr hf)).trans (if_neg hcount))
  rw [hz] at heff
  exact run_eq hr heff

theorem W.retireGen_facts (w : W) : let v := w.retireGen
    v.draining = false ∧ v.rd gblB KGBL_RGEN.zero_sweeps = 0 ∧ v.net = w.net ∧ v.stores = w.stores := by
  have hdrain : w.retireGen.rd gblB KGBL_RGEN.draining = 0 := by
    rw [W.retireGen, W.irqP_rd, W.rd_wr_ne _ _ _ _ _ _ _ _ (by decide), W.rd_wr_self]
    rfl
  have hzero : w.retireGen.rd gblB KGBL_RGEN.zero_sweeps = 0 := by
    rw [W.retireGen, W.irqP_rd, W.rd_wr_self]
    rfl
  refine ⟨?_, hzero, ?_, ?_⟩
  · rw [State.draining, hdrain]
    rfl
  · simp [W.retireGen]
  · simp [W.retireGen]

/-- The second sweep in a row that finds no packet retires the generation (R170). -/
theorem generationSweepEnd_retires {s : State} (hr : s.inReset = false) (hd : s.draining = true) (hf : s.inFlight (s.genDrain % 2) = 0)
    (hz : 1 ≤ s.rd gblB KGBL_RGEN.zero_sweeps) :
    ∃ t, exec .generationSweepEnd s = .next t ∧ t.draining = false ∧ t.rd gblB KGBL_RGEN.zero_sweeps = 0
      ∧ t.net = s.net ∧ t.mem = s.mem := by
  have hdrain : ¬ (!s.draining) = true := by simp [hd]
  have hcount : 2 ≤ s.rd gblB KGBL_RGEN.zero_sweeps + 1 := by omega
  have heff : effGenerationSweepEnd s.w0 = s.w0.retireGen := (if_neg hdrain).trans ((if_neg (not_not.mpr hf)).trans (if_pos hcount))
  obtain ⟨hgone, hzero, hnet, hstores⟩ := s.w0.retireGen_facts
  generalize s.w0.retireGen = v at *
  exact ⟨_, run_const hr heff, hgone, hzero, hnet, State.after_mem_of_no_stores hstores⟩

theorem W.flag_one (w : W) {b : Nat} {f : Fld} (hf : f.width = 1) : (w.flag b f).rd b f = 1 := by
  rw [W.rd_flag_self, hf, Nat.or_mod_two_pow]
  rcases Nat.mod_two_eq_zero_or_one (w.rd b f) with h | h
  · rw [pow_one, h]; rfl
  · rw [pow_one, h]; rfl

/-- A drain that runs late is told once (R170). -/
def W.tellLate (w : W) : W := W.flag { w with net.lateTold := true } gblB KGBL_RGEN.drain_late

theorem W.fault_tellLate_facts (w : W) : let v := w.tellLate.fault clDRAIN (locPkg 5)
    v.rd gblB KGBL_RGEN.drain_late = 1 ∧ v.net.lateTold = true ∧ v.hasClass clDRAIN ∧ v.stores = w.stores ∧ v.plt = w.plt := by
  have hflag : w.tellLate.rd gblB KGBL_RGEN.drain_late = 1 := W.flag_one _ rfl
  have hkeep := w.tellLate.fault_rd clDRAIN (locPkg 5) (b := gblB) (f := KGBL_RGEN.drain_late) 0 ⟨by decide, by decide⟩ (by decide)
  have hnet : w.tellLate.net.lateTold = true := rfl
  refine ⟨hkeep.trans hflag, ?_, w.tellLate.fault_sets _ (by decide), W.fault_stores .., W.fault_plt ..⟩
  rw [W.fault_net, hnet]

/-- A drain of 2^24 fc is a DRAIN fault (R170). -/
theorem drainLate_tells {s : State} (hr : s.inReset = false) (hd : s.draining = true) (hlate : s.net.drainFc + 2 ^ 24 ≤ s.fc)
    (htold : s.net.lateTold = false) :
    ∃ t, exec .drainLate s = .next t ∧ t.rd gblB KGBL_RGEN.drain_late = 1 ∧ t.net.lateTold = true
      ∧ bit (t.rd fltB (KFLT_STICKY.sticky.at 12)) clDRAIN = true ∧ t.mem = s.mem ∧ t.plt = s.plt := by
  have heff : effDrainLate s.w0 = s.w0.tellLate.fault clDRAIN (locPkg 5) := if_pos ⟨hd, hlate, by simp [htold]⟩
  obtain ⟨hflag, hnet, hclass, hstores, hplt⟩ := s.w0.fault_tellLate_facts
  generalize s.w0.tellLate.fault clDRAIN (locPkg 5) = v at *
  exact ⟨_, run_const hr heff, hflag, hnet, hclass, State.after_mem_of_no_stores hstores, hplt⟩

/-! ### Requests of an old generation -/

section
variable {s : State} {unit : Nat} {a p : Packet} {w : W} (h1 : 0x1000 ≤ unit) (h2 : unit < 0x2000)
include h1 h2

section
variable (ht : s.w0.takeAny unit s.staleFirst = some (a, w)) (hp : w.net.stale.find a.sref = some p)
  (hctx : w.ctxFencedAt (unit - 0x1000) p.ctx = false) (hall : w.fencedAll (unit - 0x1000) = false)
include ht hp hctx hall

/-- A station that is not fenced for a request answered STALE_GEN takes its copy, and holds it unless a newer generation is current
(R171). -/
theorem effStaleGenAnswer_station : effStaleGenAnswer unit s.w0 = let v : W := { w with net.stale := w.net.stale.del a.sref }
    if w.newerGen p then v.reissue unit p else { v with net.held := v.net.held ++ [(unit, p, v.fc)] } := by
  have hfence : ¬ (if 0x1000 ≤ unit ∧ unit < 0x2000 then w.ctxFencedAt (unit - 0x1000) p.ctx || w.fencedAll (unit - 0x1000)
      else w.pkgFenced unit p.ctx) = true := by
    rw [if_pos ⟨h1, h2⟩, hctx, hall]
    decide
  unfold effStaleGenAnswer
  simp only [State.w0_toState, ht, hp]
  exact if_neg hfence

theorem staleGenAnswer_holds (hr : s.inReset = false) (hnew : w.newerGen p = false) :
    ∃ t, exec (.staleGenAnswer unit) s = .next t ∧ t.net.held = w.net.held ++ [(unit, p, w.fc)]
      ∧ t.net.stale = w.net.stale.del a.sref :=
  ⟨_, run_const hr ((effStaleGenAnswer_station h1 h2 ht hp hctx hall).trans (if_neg (by simp [hnew]))), rfl, rfl⟩

theorem staleGenAnswer_reissues (hr : s.inReset = false) (hnew : w.newerGen p = true) :
    exec (.staleGenAnswer unit) s = .next (s.after fun _ => W.reissue { w with net.stale := w.net.stale.del a.sref } unit p) :=
  run_const hr ((effStaleGenAnswer_station h1 h2 ht hp hctx hall).trans (if_pos hnew))

end

/-- A request held for 2^21 fc completes STALE_GEN and is counted at its station (R171). -/
theorem staleHoldTimeout_ends {tag : Nat} {x : Nat × Packet × Nat} (hr : s.inReset = false)
    (hx : s.net.held.find? (fun x => x.1 == unit && x.2.1.tag == tag && x.2.2 + 2 ^ 21 ≤ s.fc) = some x) :
    exec (.staleHoldTimeout unit tag) s = .next (s.after fun w =>
      (W.inc { w with net.held := w.net.held.erase x } (unitB unit) KSTN_STALE.stale_fail).localAns unit x.2.1 STALE_GEN) := by
  have hstn : unit < 0x2080 := by omega
  refine run_eq hr ?_
  unfold effStaleHoldTimeout
  simp only [hx, if_pos hstn]

end

/-- Settles O12: a command and a sweep by its checks, and a held request by the time of its answer. -/
theorem routeWriterActs : Obligations.RouteWriterActs := by
  unfold Obligations.RouteWriterActs
  refine ⟨?write, ?commit, ?define, ?release, ?found, ?first, ?retires, ?late, ?holds, ?reissues, ?ends⟩
  case write =>
    intro s q slot c hr hc hn hmax hrange hdrain hcommit himage hrecs
    exact routeWrite_stages hr hc rfl rfl hn hmax hrange hdrain hcommit himage rfl hrecs
  case commit =>
    intro s q slot c hr hc hdrain hcommit hstaging
    exact routeCommit_waits hr hc hdrain hcommit hstaging
  case define =>
    intro s q slot c herd stage index n a ms hr hc hherd hstage hindex hn ha hmax h0 hnmax hs1 hs4 hlow htine hbeam hrange hlive hfree
      himage hms hreach hnodup
    exact herdDefine_writes hr hc hherd hstage hindex hn ha
      { number := hmax, n0 := h0, nmax := hnmax, stage1 := hs1, stage4 := hs4, low := hlow, tine := htine, beam := hbeam,
        range := hrange, live := hlive, free := hfree, image := himage, members := hms, reach := hreach, nodup := hnodup }
  case release =>
    intro s q slot c herd d hr hc hherd hmax hn hlive hfind hmine hfree
    exact herdDefine_releases hr hc hherd hmax hn hlive hfind hmine hfree
  case found => exact fun s hr hd hf => generationSweepEnd_found hr hd hf
  case first => exact fun s hr hd hf hz => generationSweepEnd_first hr hd hf hz
  case retires => exact fun s hr hd hf hz => generationSweepEnd_retires hr hd hf hz
  case late => exact fun s hr hd hlate htold => drainLate_tells hr hd hlate htold
  case holds =>
    intro s unit a w p hr h1 h2 ht hp hctx hall hnew
    exact staleGenAnswer_holds h1 h2 ht hp hctx hall hr hnew
  case reissues =>
    intro s unit a w p hr h1 h2 ht hp hctx hall hnew
    exact staleGenAnswer_reissues h1 h2 ht hp hctx hall hr hnew
  case ends => exact fun s unit tag x hr h1 h2 hx => staleHoldTimeout_ends h1 h2 hr hx

end Sys2Proof.Machine
end

section
/-! PROOFS. What the passage of packets leaves alone: the fc, memory, the arbiters, and the credits in use. -/

namespace Sys2Proof.Machine

/-- The fc, the records in the queue, and memory with what was written to it. -/
def W.still (w : W) : Nat × List Instr × Memory × List Store := (w.fc, w.pending, w.mem, w.stores)

/-- The same, with the arbiters and the credits in use of links. -/
def W.calm (w : W) : (Nat × List Instr × Memory × List Store) × Tbl Arb × Tbl Nat := (w.still, w.net.arbs, w.net.used)

theorem W.still_of_calm {v w : W} (h : v.calm = w.calm) : v.still = w.still := congrArg Prod.fst h
theorem W.fc_of_still {v w : W} (h : v.still = w.still) : v.fc = w.fc := congrArg Prod.fst h
theorem W.pending_of_still {v w : W} (h : v.still = w.still) : v.pending = w.pending := congrArg (fun x => x.2.1) h
theorem W.mem_of_still {v w : W} (h : v.still = w.still) : v.mem = w.mem := congrArg (fun (_, _, m, _) => m) h
theorem W.stores_of_still {v w : W} (h : v.still = w.still) : v.stores = w.stores := congrArg (fun (_, _, _, l) => l) h
theorem W.arbs_of_calm {v w : W} (h : v.calm = w.calm) : v.net.arbs = w.net.arbs := congrArg (fun x => x.2.1) h
theorem W.used_of_calm {v w : W} (h : v.calm = w.calm) : v.net.used = w.net.used := congrArg (fun x => x.2.2) h

theorem W.calm_of_bareF {v w : W} (h : v.bareF = w.bareF) : v.calm = w.calm := by
  have e := congrArg W.calm h
  exact e

theorem W.calm_of_bare {v w : W} (h : v.bare = w.bare) : v.calm = w.calm := W.calm_of_bareF (W.bareF_of h)

theorem W.each_calm {α : Type} (l : List α) (f : W → α → W) (w : W) (h : ∀ v a, (f v a).calm = v.calm) :
    (w.each l f).calm = w.calm :=
  W.each_inv (fun v => v.calm = w.calm) l f w rfl fun v a _ hv => (h v a).trans hv

/-! ### Reports and faults -/

@[simp] theorem W.wr_calm (w : W) (b : Nat) (f : Fld) (v i : Nat) : (w.wr b f v i).calm = w.calm := rfl
@[simp] theorem W.inc_calm (w : W) (b : Nat) (f : Fld) (v i : Nat) : (w.inc b f v i).calm = w.calm := rfl
@[simp] theorem W.high_calm (w : W) (b : Nat) (f : Fld) (v i : Nat) : (w.high b f v i).calm = w.calm := W.calm_of_bare (W.high_bare ..)
@[simp] theorem W.irqR_calm (w : W) (p n : Nat) : (w.irqR p n).calm = w.calm := W.calm_of_bare (W.irqR_bare ..)
@[simp] theorem W.sample_calm (w : W) (k v c : Nat) : (w.sample k v c).calm = w.calm := W.calm_of_bare (W.sample_bare ..)
@[simp] theorem W.fault_calm (w : W) (c l : Nat) : (w.fault c l).calm = w.calm := W.calm_of_bareF (W.fault_bareF ..)
@[simp] theorem W.fresh_calm (w : W) : w.fresh.calm = w.calm := rfl
@[simp] theorem W.util_calm (w : W) (u o n : Nat) : (w.util u o n).calm = w.calm := rfl

/-- A router's count of an event touches reports alone. -/
theorem W.rtrCount_bare (w : W) (u : Nat) (f : Fld) : (w.rtrCount u f).bare = w.bare := by
  have hinc := w.inc_bare (rtrB u) f 1 0
  unfold W.rtrCount
  dsimp only
  split
  · exact (W.irqR_bare ..).trans hinc
  · split
    · exact (W.irqR_bare ..).trans hinc
    · exact hinc

@[simp] theorem W.rtrCount_calm (w : W) (u : Nat) (f : Fld) : (w.rtrCount u f).calm = w.calm := W.calm_of_bare (W.rtrCount_bare ..)

theorem W.bareF_flt (w : W) (x : Flt) : W.bareF { w with flt := x } = w.bareF := rfl

/-- Errors of codewords touch reports and the fault collector alone (R384). -/
theorem W.onError_bareF (w : W) (l wt : Nat) : (w.onError l wt).bareF = w.bareF := by
  unfold W.onError
  extract_lets e win fresh n t0 last src v
  split
  · rfl
  · split
    · exact (W.bareF_flt ..).trans (v.fault_bareF clLASTING l)
    · exact W.bareF_flt ..

theorem W.uncorrAt_bareF (w : W) (l : Nat) : (w.uncorrAt l).bareF = w.bareF := (W.onError_bareF ..).trans (W.fault_bareF ..)

@[simp] theorem W.corrAt_calm (w : W) (l : Nat) : (w.corrAt l).calm = w.calm := W.calm_of_bareF (W.onError_bareF ..)
@[simp] theorem W.uncorrAt_calm (w : W) (l : Nat) : (w.uncorrAt l).calm = w.calm := W.calm_of_bareF (W.uncorrAt_bareF ..)

@[simp] theorem W.hdrBad_calm (w : W) (u : Nat) : (w.hdrBad u).calm = w.calm := by
  rw [W.hdrBad, W.fault_calm, apply_ite W.calm, W.rtrCount_calm, ite_self]

@[simp] theorem W.payloadBad_calm (w : W) (u : Nat) : (w.payloadBad u).calm = w.calm := by
  rw [W.payloadBad, apply_ite W.calm, W.rtrCount_calm, ite_self]

/-! ### Buffers and answers -/

@[simp] theorem W.setBuf_calm (w : W) (u p vc : Nat) (l : List Buf) : (w.setBuf u p vc l).calm = w.calm := rfl
@[simp] theorem W.setNth_calm (w : W) (u p vc i : Nat) (b : Buf) : (w.setNth u p vc i b).calm = w.calm := rfl
@[simp] theorem W.delNth_calm (w : W) (u p vc i : Nat) : (w.delNth u p vc i).calm = w.calm := rfl
@[simp] theorem W.owe_calm (w : W) (u p vc n : Nat) : (w.owe u p vc n).calm = w.calm := rfl
@[simp] theorem W.rtrAns_calm (w : W) (u inp : Nat) (p : Packet) (st aux : Nat) : (w.rtrAns u inp p st aux).calm = w.calm := rfl
@[simp] theorem W.acceptRsp_calm (w : W) (u p vc : Nat) : (w.acceptRsp u p vc).calm = w.calm := rfl

@[simp] theorem W.reply_calm (w : W) (u : Nat) (a : Packet) : (w.reply u a).calm = w.calm := by
  unfold W.reply
  split
  · rfl
  · rfl

@[simp] theorem W.cmp_calm (w : W) (u : Nat) (p : Packet) (st aux : Nat) : (w.cmp u p st aux).calm = w.calm := by
  rw [W.cmp]
  exact W.reply_calm ..

@[simp] theorem W.dropNth_calm (w : W) (u p vc i : Nat) : (w.dropNth u p vc i).calm = w.calm := by
  unfold W.dropNth
  split
  · rfl
  · dsimp only
    split_ifs
    · rfl
    · rfl
    · rfl
    · rfl

/-! ### A phit over a link -/

/-- A codeword that is received changes no more than its errors report. -/
@[simp] theorem W.rxCode_calm (w : W) (u : Nat) (msg : List Byte) (errs : List (Nat × Byte)) : (w.rxCode u msg errs).2.calm = w.calm := by
  unfold W.rxCode
  split
  · rfl
  · split
    · rfl
    · rw [W.corrAt_calm, W.fresh_calm]
    · rw [W.uncorrAt_calm, W.fresh_calm]

@[simp] theorem W.rxPhit_calm (w : W) (u net n : Nat) (p : Piece) (errs : List Err) : (w.rxPhit u net n p errs).2.calm = w.calm := by
  unfold W.rxPhit
  split
  · rfl
  · extract_lets head ws
    have hfirst := w.rxCode_calm u (ws.headD []) (errsOf errs 0)
    split
    · rename_i v hv
      rw [hv] at hfirst
      split_ifs
      · exact hfirst
      · exact (v.payloadBad_calm u).trans hfirst
    · rename_i a v hv
      rw [hv] at hfirst
      dsimp only
      split
      · exact hfirst
      · rename_i m l hl
        have hnext := (v.rxCode_calm u m (errsOf errs 1)).trans hfirst
        split
        · rename_i x hx
          rw [hx] at hnext
          split
          · exact hnext
          · split
            · exact hnext
            · exact (x.payloadBad_calm u).trans hnext
        · rename_i b x hx
          rw [hx] at hnext
          split
          · exact hnext
          · exact hnext

@[simp] theorem W.openBad_calm (w : W) (u p : Nat) (pc : Piece) (k : Nat) : (w.openBad u p pc k).calm = w.calm := by
  unfold W.openBad
  dsimp only
  split
  · rw [W.hdrBad_calm, W.owe_calm]
  · rw [W.setBuf_calm, W.hdrBad_calm, W.owe_calm]

@[simp] theorem W.openPkt_calm (w : W) (u p : Nat) (pc : Piece) (k : Nat) : (w.openPkt u p pc k).calm = w.calm := by
  unfold W.openPkt
  extract_lets vc v x pkt1 pkt2 rsp b1 b2 y
  have hv : v.calm = w.calm := by
    unfold v
    split
    · split
      · split_ifs
        · rfl
        · rfl
      · rfl
    · rfl
  have hy : y.calm = w.calm := by
    unfold y
    split
    · exact (W.fresh_calm v).trans hv
    · exact hv
  clear_value v y
  split
  · split
    · exact hv
    · exact hv
  · split
    · exact (W.openBad_calm ..).trans hv
    · rw [W.setBuf_calm]
      split
      · exact (W.owe_calm ..).trans hy
      · exact hy

@[simp] theorem W.joinPkt_calm (w : W) (u p i : Nat) (b : Buf) (pc : Piece) (k : Nat) : (w.joinPkt u p i b pc k).calm = w.calm := by
  unfold W.joinPkt
  extract_lets vc b1 v1 v2 gap pkt1 off pkt2 pkt3 rsp b2 early v3
  have hv3 : v3.calm = w.calm := by
    unfold v3
    split_ifs
    · rfl
    · rfl
  clear_value v3
  split_ifs
  · rfl
  · rfl
  · exact (W.hdrBad_calm ..).trans (W.dropNth_calm ..)
  · rfl
  · exact hv3
  · exact hv3

@[simp] theorem W.screen_calm (w : W) (u p vc : Nat) : (w.screen u p vc).calm = w.calm := by
  unfold W.screen
  split
  · rfl
  · split
    · rfl
    · dsimp only
      split
      · exact W.dropNth_calm ..
      · exact (W.cmp_calm ..).trans (W.dropNth_calm ..)

@[simp] theorem W.arriveAt_calm (w : W) (u p : Nat) (pc : Piece) : (w.arriveAt u p pc).calm = w.calm := by
  unfold W.arriveAt
  extract_lets vc v k
  have hv : v.calm = w.calm := by
    unfold v
    split_ifs
    · rfl
    · rfl
    · rfl
  clear_value v
  split
  · exact (W.openPkt_calm ..).trans hv
  · split
    · exact (W.openBad_calm ..).trans hv
    · split
      · exact hv
      · exact (W.joinPkt_calm ..).trans hv

@[simp] theorem W.landAt_calm (w : W) (u p : Nat) (pc : Piece) : (w.landAt u p pc).calm = w.calm := by
  unfold W.landAt
  dsimp only
  split_ifs
  · exact W.arriveAt_calm ..
  · simp
  · simp

@[simp] theorem W.answered_calm (w : W) (u : Nat) (pkt : Packet) (last : Bool) : (w.answered u pkt last).calm = w.calm := by
  unfold W.answered
  split
  · split
    · split
      · split
        · exact W.sample_calm ..
        · rfl
      · rfl
    · rfl
  · rfl

@[simp] theorem W.overLink_calm (w : W) (u p : Nat) (pc : Piece) (errs : List Err) : (w.overLink u p pc errs).calm = w.calm := by
  unfold W.overLink
  split
  · rfl
  · simp

/-! ### What a router drops -/

@[simp] theorem W.staleAns_calm (w : W) (u inp : Nat) (p : Packet) : (w.staleAns u inp p).calm = w.calm := by
  unfold W.staleAns
  extract_lets aux n src v
  have hv : W.calm { v with net.stale := v.net.stale.put n p } = w.calm := rfl
  split
  · rfl
  · split
    · split
      · exact W.rtrAns_calm ..
      · rfl
    · split
      · exact (W.rtrAns_calm ..).trans hv
      · exact W.rtrAns_calm ..

@[simp] theorem W.ownGone_calm (w : W) (u src : Nat) (p : Packet) : (w.ownGone u src p).calm = w.calm := by
  unfold W.ownGone
  dsimp only
  split
  · exact W.staleAns_calm ..
  · split
    · split
      · rfl
      · refine (W.each_calm _ _ _ fun _ _ => W.staleAns_calm ..).trans ?_
        rw [W.mrgCount, W.high_calm]
        rfl
    · rfl

@[simp] theorem W.afterSend_calm (w : W) (u src vc i : Nat) (b : Buf) : (w.afterSend u src vc i b).calm = w.calm := by
  unfold W.afterSend
  dsimp only
  split_ifs
  · rfl
  · rfl
  · rfl
  · rfl

@[simp] theorem W.dropCopy_calm (w : W) (u src vc i port : Nat) : (w.dropCopy u src vc i port).calm = w.calm := by
  unfold W.dropCopy
  split
  · rfl
  · dsimp only
    split_ifs
    · exact W.dropNth_calm ..
    · exact W.afterSend_calm ..

end Sys2Proof.Machine
end

section
/-! PROOFS. What the absorption at dead ports and the use of a grant leave alone. -/

namespace Sys2Proof.Machine

@[simp] theorem W.ev_calm (w : W) (u c n x p v : Nat) : (w.ev u c n x p v).calm = w.calm := W.calm_of_bare (W.ev_bare ..)
@[simp] theorem W.trace_calm (w : W) (k e c : Nat) (p : List Byte) (on : Nat → Nat → Nat → Nat → Bool) :
    (w.trace k e c p on).calm = w.calm := W.calm_of_bare (W.trace_bare ..)

/-! ### Dead ports (R169) -/

/-- One more credit of a link's VC is in use. -/
def W.spendCredit (w : W) (u port vc : Nat) : W :=
  { w with net.used := w.net.used.put (qKey u port vc) (Tbl.get 0 w.net.used (qKey u port vc) + 1) }

/-- A packet that is ended downstream takes one credit (R165). -/
theorem W.endDownstream_calm (w : W) (u port : Nat) (pkt : Packet) (sent : Nat) :
    (w.endDownstream u port pkt sent).calm = (w.spendCredit u port pkt.vc).calm := by
  rw [W.endDownstream, W.overLink_calm]
  rfl

theorem W.endDownstream_still (w : W) (u port : Nat) (pkt : Packet) (sent : Nat) : (w.endDownstream u port pkt sent).still = w.still :=
  (W.still_of_calm (w.endDownstream_calm u port pkt sent)).trans rfl

theorem W.each_still {α : Type} (l : List α) (f : W → α → W) (w : W) (h : ∀ v a, (f v a).still = v.still) :
    (w.each l f).still = w.still :=
  W.each_inv (fun v => v.still = w.still) l f w rfl fun v a _ hv => (h v a).trans hv

theorem W.cutCopies_still (w : W) (u port k : Nat) : (w.cutCopies u port k).still = w.still := by
  unfold W.cutCopies
  refine W.each_still _ _ _ fun v i => ?_
  split
  · rfl
  · split
    · rfl
    · extract_lets x y
      have hx : x.still = v.still := by
        unfold x
        split
        · rfl
        · exact W.endDownstream_still ..
      have hy : y.still = v.still := (W.still_of_calm (W.dropCopy_calm ..)).trans hx
      split
      · exact (W.still_of_calm (W.ownGone_calm ..)).trans hy
      · exact (W.still_of_calm ((W.staleAns_calm ..).trans (W.inc_calm ..))).trans hy

/-- What waits for a dead port is absorbed in the same fc, without a write to memory. -/
theorem W.absorbDead_still (w : W) (u port : Nat) : (w.absorbDead u port).still = w.still := by
  unfold W.absorbDead
  split
  · exact W.each_still _ _ _ fun _ _ => W.cutCopies_still ..
  · rfl

/-! ### The use of a grant (R159) -/

/-- The fc of a state, kept folded. -/
def W.fcNow (w : W) : Nat := w.fc

theorem W.fcNow_of_calm {v w : W} (h : v.calm = w.calm) : v.fcNow = w.fcNow := W.fc_of_still (W.still_of_calm h)
theorem W.fcNow_sta (w : W) (x : Sta) : W.fcNow { w with sta := x } = w.fcNow := rfl
theorem W.wr_fcNow (w : W) (b : Nat) (f : Fld) (v i : Nat) : (w.wr b f v i).fcNow = w.fcNow := rfl
theorem W.inc_fcNow (w : W) (b : Nat) (f : Fld) (k i : Nat) : (w.inc b f k i).fcNow = w.fcNow := rfl
theorem W.dec_fcNow (w : W) (b : Nat) (f : Fld) (k i : Nat) : (w.dec b f k i).fcNow = w.fcNow := rfl
theorem W.ev_fcNow (w : W) (u c n x p v : Nat) : (w.ev u c n x p v).fcNow = w.fcNow := W.ev_fc ..
theorem W.irqB_fcNow (w : W) (st n : Nat) : (w.irqB st n).fcNow = w.fcNow := W.irqB_fc ..

theorem W.writePart_fcNow (w : W) (sram : Bool) (a : Nat) (d : List Byte) (p : Bool) : (w.writePart sram a d p).fcNow = w.fcNow := by
  unfold W.writePart
  dsimp only
  split
  · rfl
  · split
    · rfl
    · rfl

theorem W.sramWrite_fcNow (w : W) (st a : Nat) (d : List Byte) (m : Nat) : (w.sramWrite st a d m).fcNow = w.fcNow :=
  W.each_inv (fun v => v.fcNow = w.fcNow) _ _ _ rfl fun _ _ _ h => (W.writePart_fcNow ..).trans h

theorem W.complete_fcNow (w : W) (st e status detail : Nat) : (w.complete st e status detail).fcNow = w.fcNow := by
  unfold W.complete
  split
  · rfl
  · extract_lets b q cq t ph n kind det rec v1 wrap v2 src v3 v4 v5 v6 src2 v7 v8
    have h1 : v1.fcNow = w.fcNow := W.sramWrite_fcNow ..
    clear_value v1
    have h2 : v2.fcNow = w.fcNow := (W.wr_fcNow ..).trans h1
    clear_value v2
    have h3 : v3.fcNow = w.fcNow := (W.fcNow_sta ..).trans h2
    clear_value v3
    have h4 : v4.fcNow = w.fcNow := by
      unfold v4
      split
      · exact (W.wr_fcNow ..).trans h3
      · exact h3
    clear_value v4
    have h6 : v6.fcNow = w.fcNow := (W.dec_fcNow ..).trans ((W.dec_fcNow ..).trans ((W.dec_fcNow ..).trans h4))
    clear_value v6
    have h8 : v8.fcNow = w.fcNow := (W.ev_fcNow ..).trans ((W.fcNow_sta ..).trans h6)
    split
    · exact (W.irqB_fcNow ..).trans h8
    · exact h8

theorem W.postSent_fcNow (w : W) (st id : Nat) : (w.postSent st id).fcNow = w.fcNow := by
  unfold W.postSent
  dsimp only
  split
  · unfold W.xferAns
    split
    · rfl
    · unfold W.xferCheck
      split
      · rfl
      · split
        · exact W.complete_fcNow ..
        · rfl
  · rfl

theorem W.localAns_calm (w : W) (u : Nat) (p : Packet) (st : Nat) : (w.localAns u p st).calm = w.calm := by
  unfold W.localAns
  split
  · rfl
  · rfl

theorem W.waste_calm (w : W) (u p net : Nat) : (w.waste u p net).calm = w.calm := by
  unfold W.waste
  split
  · exact (W.ev_calm ..).trans (W.inc_calm ..)
  · rfl

/-- A grant is used within its fc. -/
theorem W.useGrant_fcNow (w : W) (u p net src vc : Nat) (errs : List Err) : (w.useGrant u p net src vc errs).fcNow = w.fcNow := by
  have hwaste (v : W) : (v.waste u p net).fcNow = v.fcNow := W.fcNow_of_calm (W.waste_calm ..)
  unfold W.useGrant
  extract_lets a
  split
  · exact hwaste w
  · extract_lets end_
    split
    · exact hwaste w
    · split
      · extract_lets v
        have hv : v.fcNow = w.fcNow := by
          unfold v
          split
          · exact (W.inc_fcNow ..).trans (hwaste _)
          · exact hwaste _
        exact (W.fcNow_of_calm (W.localAns_calm ..)).trans hv
      · extract_lets cs1 cs2 sent v1 h a1 a2 v2 v3 v4 v5
        have h1 : v1.fcNow = w.fcNow := (W.fcNow_of_calm (W.afterSend_calm ..)).trans rfl
        have h2 : v2.fcNow = w.fcNow := h1
        have h3 : v3.fcNow = w.fcNow := by
          unfold v3
          split
          · exact (W.postSent_fcNow ..).trans h2
          · exact h2
        have h4 : v4.fcNow = w.fcNow := by
          unfold v4
          split
          · exact (W.fcNow_of_calm ((W.ev_calm ..).trans (W.util_calm ..))).trans h3
          · split
            · exact h3
            · exact h3
        have h5 : v5.fcNow = w.fcNow := by
          unfold v5
          split
          · exact h4
          · split
            rename_i ty ix hty
            extract_lets x1 x2 src x3
            have e1 : x1.fcNow = w.fcNow := by
              unfold x1
              split
              · exact (W.fcNow_of_calm (W.trace_calm ..)).trans h4
              · exact h4
            have e2 : x2.fcNow = w.fcNow := by
              unfold x2
              split
              · exact (W.fcNow_of_calm (W.ev_calm ..)).trans e1
              · exact e1
            have e3 : x3.fcNow = w.fcNow := by
              unfold x3
              split
              · split
                · exact e2
                · exact e2
              · exact e2
            clear_value x3
            split
            · exact e3
            · exact e3
        split
        · exact h5
        · split
          · exact (W.fcNow_of_calm (W.overLink_calm ..)).trans h5
          · exact (W.fcNow_of_calm (W.each_calm _ _ _ fun _ _ => W.overLink_calm ..)).trans h5

end Sys2Proof.Machine
end

section
/-! PROOFS. The lottery arbiters at work (R151 to R165). -/

namespace Sys2Proof.Machine

/-! ### An arbiter's place -/

theorem arb_setArb_self (w : W) (u port net : Nat) (a : Arb) : (w.setArb u port net a).arb u port net = a := by
  rw [State.arb, W.setArb, Tbl.find_put_self]
  rfl

/-- A grant that counts against a quota changes nothing else of its arbiter (R162). -/
theorem State.countGrant_facts (s : State) (b : Nat) (a : Arb) (src vc t : Nat) :
    (s.countGrant b a src vc t).lfsr = a.lfsr ∧ (s.countGrant b a src vc t).grant = a.grant
      ∧ (s.countGrant b a src vc t).drawn = a.drawn := by
  unfold State.countGrant
  split
  · exact ⟨rfl, rfl, rfl⟩
  · exact ⟨rfl, rfl, rfl⟩

/-! ### The draw (R158) -/

theorem W.toState_of_still {v : W} {s : State} (h : v.still = s.w0.still) :
    { v.toState with mem := s.mem.apply v.stores, pending := s.pending } = v.toState := by
  have hpending : v.pending = s.pending := W.pending_of_still h
  have hmem : v.mem = s.mem := W.mem_of_still h
  have hstores : v.stores = [] := W.stores_of_still h
  rw [hstores, Memory.apply_nil, ← hpending, ← hmem]

/-- An effect with no store, and with the queue as it was, leaves the state that it computes. -/
theorem State.after_of_still {s : State} {f : W → W} (h : (f s.w0).still = s.w0.still) : s.after f = (f s.w0).toState :=
  W.toState_of_still h

/-- The decision of an output for the next fc: that of its lottery, or none while no lane is free for it (R161). -/
def W.decision (w : W) (u port net : Nat) (a : Arb) : Arb :=
  if net ≠ 3 || w.datOpen u port a then w.toState.draw u a (w.requesters u port net) (w.backOf u port net) (w.eligible u port net a)
  else { a with grant := if net = 3 ∧ lanesOf u port ≠ 0 ∧ a.placing ≠ [] then a.grant else none }

/-- An output on a link is no edge port's and no memory port's input. -/
theorem State.link_guards {s : State} {u port net : Nat} (hu : u < 0x2000 ∨ 0x2080 ≤ u ∨ port = 0) (hpeer : s.peer u port ≠ none)
    (hnet : net < 4) : ¬ (0x2040 ≤ u ∧ u < 0x2080 ∧ port ≠ 0) ∧ ¬ (0x2000 ≤ u ∧ u < 0x2040 ∧ port = 1)
      ∧ ¬ ((s.peer u port).isNone = true ∨ 4 ≤ net) := by
  refine ⟨by omega, by omega, ?_⟩
  rintro (h | h)
  · exact hpeer (Option.isNone_iff_eq_none.mp h)
  · omega

/-- An arbiter that is not yet drawn decides, from the state without what waited for a dead port, once. -/
theorem effArbiterDraw_decides {w : W} {u port net : Nat} {errs : List Err} {a : Arb} (hu : u < 0x2000 ∨ 0x2080 ≤ u ∨ port = 0)
    (hpeer : w.peer u port ≠ none) (hnet : net < 4) (ha : a = w.arb u port net) (hdrawn : a.drawn ≠ w.fc + 1) :
    ∃ (v : W) (b : Arb), effArbiterDraw u port net errs w = v.setArb u port net b
      ∧ b.lfsr = ((w.absorbDead u port).decision u port net a).lfsr
      ∧ b.grant = ((w.absorbDead u port).decision u port net a).grant ∧ b.drawn = w.fc + 1 := by
  obtain ⟨hedge, hmsp, hlink⟩ := State.link_guards hu hpeer hnet
  have hfc : (w.absorbDead u port).fcNow = w.fcNow := W.fc_of_still (w.absorbDead_still u port)
  unfold effArbiterDraw
  rw [if_neg hedge, if_neg hmsp, if_neg hlink, ← ha]
  extract_lets a0 x l masked open_ wait a' v1 i v2 v3 b0 b
  rw [if_neg hdrawn]
  have h1 : v1.fcNow = w.fcNow := by
    unfold v1
    split
    · exact hfc
    · split
      · exact hfc
      · exact (W.useGrant_fcNow ..).trans hfc
  have h2 : v2.fcNow = w.fcNow := by
    unfold v2
    split
    · exact (W.inc_fcNow ..).trans h1
    · exact h1
  have h3 : v3.fcNow = w.fcNow := by
    unfold v3
    split
    · exact (W.inc_fcNow ..).trans h2
    · exact h2
  have hb : b.drawn = w.fc + 1 := congrArg (· + 1) h3
  refine ⟨_, _, rfl, ?_⟩
  split
  · split
    · obtain ⟨hl, hg, hd⟩ := v3.countGrant_facts (setB u) b _ _ (v3.herdTime + 1)
      exact ⟨hl, hg, hd.trans hb⟩
    · exact ⟨rfl, rfl, hb⟩
  · exact ⟨rfl, rfl, hb⟩

section
variable {s : State} {u port net : Nat} {errs : List Err} {a : Arb} (hr : s.inReset = false)
  (hu : u < 0x2000 ∨ 0x2080 ≤ u ∨ port = 0) (hpeer : s.peer u port ≠ none)
include hr hu hpeer

/-- A draw answers with a state in which the arbiter holds its decision. -/
theorem arbiterDraw_decides (hnet : net < 4) (ha : a = s.arb u port net) (hdrawn : a.drawn ≠ s.fc + 1) :
    ∃ t, exec (.arbiterDraw u port net errs) s = .next t ∧ (t.arb u port net).drawn = s.fc + 1
      ∧ (t.arb u port net).lfsr = ((s.w0.absorbDead u port).decision u port net a).lfsr
      ∧ (t.arb u port net).grant = ((s.w0.absorbDead u port).decision u port net a).grant := by
  obtain ⟨v, b, heff, hlfsr, hgrant, hfc⟩ := effArbiterDraw_decides (w := s.w0) (errs := errs) hu hpeer hnet ha hdrawn
  have hb (pending : List Instr) (mem : Memory) :
      State.arb { (v.setArb u port net b).toState with mem := mem, pending := pending } u port net = b := arb_setArb_self v u port net b
  exact ⟨_, run_const hr heff, (congrArg Arb.drawn (hb ..)).trans hfc, (congrArg Arb.lfsr (hb ..)).trans hlfsr,
    (congrArg Arb.grant (hb ..)).trans hgrant⟩

theorem arbiterDraw_draws {x : State} (hnet : net < 4) (ha : a = s.arb u port net) (hdrawn : a.drawn ≠ s.fc + 1)
    (hx : x = s.after fun w => w.absorbDead u port) (hopen : net = 3 → x.datOpen u port a = true) :
    ∃ t, exec (.arbiterDraw u port net errs) s = .next t ∧ (t.arb u port net).drawn = s.fc + 1
      ∧ (t.arb u port net).lfsr = (x.draw u a (x.requesters u port net) (x.backOf u port net) (x.eligible u port net a)).lfsr
      ∧ (t.arb u port net).grant = (x.draw u a (x.requesters u port net) (x.backOf u port net) (x.eligible u port net a)).grant := by
  have hstate : x = (s.w0.absorbDead u port).toState := hx.trans (State.after_of_still (s.w0.absorbDead_still u port))
  have hmay : (decide (net ≠ 3) || x.datOpen u port a) = true := by
    by_cases h : net = 3
    · simp [hopen h]
    · simp [h]
  have hdec : (s.w0.absorbDead u port).decision u port net a
      = x.draw u a (x.requesters u port net) (x.backOf u port net) (x.eligible u port net a) := by
    rw [hstate] at hmay ⊢
    exact if_pos hmay
  rw [← hdec]
  exact arbiterDraw_decides hr hu hpeer hnet ha hdrawn

/-- A DAT output with no free lane to come decides nothing (R161). -/
theorem arbiterDraw_waits {x : State} (ha : a = s.arb u port 3) (hdrawn : a.drawn ≠ s.fc + 1)
    (hx : x = s.after fun w => w.absorbDead u port) (hopen : x.datOpen u port a = false) (hplacing : a.placing = []) :
    ∃ t, exec (.arbiterDraw u port 3 errs) s = .next t ∧ (t.arb u port 3).drawn = s.fc + 1
      ∧ (t.arb u port 3).lfsr = a.lfsr ∧ (t.arb u port 3).grant = none := by
  have hstate : x = (s.w0.absorbDead u port).toState := hx.trans (State.after_of_still (s.w0.absorbDead_still u port))
  have hshut : ¬ (decide (3 ≠ 3) || (s.w0.absorbDead u port).datOpen u port a) = true := by simp [← hstate, hopen]
  have hdec : (s.w0.absorbDead u port).decision u port 3 a = { a with grant := none } := by
    refine (if_neg hshut).trans ?_
    rw [if_neg (by simp [hplacing])]
  obtain ⟨t, ht, hfc, hlfsr, hgrant⟩ := arbiterDraw_decides (errs := errs) hr hu hpeer (by decide) ha hdrawn
  rw [hdec] at hlfsr hgrant
  exact ⟨t, ht, hfc, hlfsr, hgrant⟩

/-- An arbiter decides once in an fc. -/
theorem arbiterDraw_once (hnet : net < 4) (hdrawn : (s.arb u port net).drawn = s.fc + 1) :
    exec (.arbiterDraw u port net errs) s = .next s := by
  obtain ⟨hedge, hmsp, hlink⟩ := State.link_guards hu hpeer hnet
  have heff : effArbiterDraw u port net errs s.w0 = s.w0 :=
    (if_neg hedge).trans ((if_neg hmsp).trans ((if_neg hlink).trans (if_pos hdrawn)))
  exact run_const hr heff

end

theorem arbiterDraw_mspDraw {s : State} {m net : Nat} {errs : List Err} (hr : s.inReset = false) (hm : m < 64) :
    exec (.arbiterDraw (uMsp m) 1 net errs) s = .next (s.after fun w => w.mspDraw m) := by
  refine run_eq hr ?_
  have hedge : ¬ (0x2040 ≤ uMsp m ∧ uMsp m < 0x2080 ∧ 1 ≠ 0) := by unfold uMsp; omega
  have hmsp : 0x2000 ≤ uMsp m ∧ uMsp m < 0x2040 ∧ 1 = 1 := by unfold uMsp; omega
  unfold effArbiterDraw
  rw [if_neg hedge, if_pos hmsp, uMsp_sub]

/-! ### Windows and watchdogs (R162, R165) -/

theorem quotaWindowStart_frees {s : State} {u port net : Nat} (hr : s.inReset = false)
    (h : s.herdTime % 2 ^ s.rdOld (setB u) KRTR_QUOTA.q_win_log2 = 0) :
    ∃ t, exec (.quotaWindowStart u port net) s = .next t ∧ (t.arb u port net).quota = []
      ∧ (t.arb u port net).lfsr = (s.arb u port net).lfsr ∧ (t.arb u port net).holds = (s.arb u port net).holds
      ∧ t.net.q = s.net.q ∧ t.regs = s.regs ∧ t.mem = s.mem := by
  have heff : effQuotaWindowStart u port net s.w0 = s.w0.setArb u port net { s.arb u port net with quota := [] } := if_pos h
  have hb : ((s.after fun _ => s.w0.setArb u port net { s.arb u port net with quota := [] }).arb u port net)
      = { s.arb u port net with quota := [] } := arb_setArb_self s.w0 u port net _
  exact ⟨_, run_const hr heff, congrArg Arb.quota hb, (congrArg Arb.lfsr hb).trans rfl, (congrArg Arb.holds hb).trans rfl,
    rfl, rfl, rfl⟩

/-- A bite is counted at a router and is an ARB fault. -/
def W.tellBite (w : W) (u : Nat) : W := (if isRouter u then w.rtrCount u KRTR_WDOG_CNT.wd_bites else w).fault clARB (locOf u)

theorem W.tellBite_bareF (w : W) (u : Nat) : (w.tellBite u).bareF = w.bareF := by
  refine (W.fault_bareF ..).trans ?_
  split
  · exact W.bareF_of (W.rtrCount_bare ..)
  · rfl

theorem W.tellBite_hasClass (w : W) (u : Nat) : (w.tellBite u).hasClass clARB := W.fault_sets _ _ (by decide)

/-- The arbiter's hold on a VC ends. -/
def W.endHold (w : W) (u port net vc : Nat) : W :=
  w.setArb u port net { w.arb u port net with holds := (w.arb u port net).holds.del vc }

theorem holds_of_endHold {w : W} {t : State} {u port net vc : Nat} (h : t.net.arbs = (w.endHold u port net vc).net.arbs) :
    (t.arb u port net).holds.find vc = none := by
  have hfind : (w.endHold u port net vc).net.arbs.find (arbKey u port net) = _ := Tbl.find_put_self ..
  rw [State.arb, h, hfind]
  exact Tbl.find_del_self ..

/-- A packet of a holder that it has sent in part is ended downstream and dropped. -/
def W.cutHolder (w : W) (u src vc port : Nat) : W :=
  match (w.buf u src vc).findIdx? (fun b => b.copies.any (fun c => c.port == port && c.sent != 0)) with
  | some i =>
    match (w.buf u src vc)[i]?.bind (fun b => b.copies.find? (fun c => c.port == port)) with
    | some c => (w.endDownstream u port c.pkt c.sent).dropCopy u src vc i port
    | none => w
  | none => w

section
variable {s : State} {u port net vc : Nat} {h : Hold} (hhold : (s.arb u port net).holds.find vc = some h)
  (hlate : 2 ^ s.rdOld (setB u) KRTR_WDOG.wd_log2 ≤ h.emptyT) (hcredit : Tbl.get 0 s.net.used (qKey u port vc) < vcDepth vc)
include hhold hlate hcredit

/-- The watchdog ends a holder that waited too long, when a credit is there to end its packet (R165). -/
theorem effWatchdogBite_bites : effWatchdogBite u port net vc s.w0
    = ((s.w0.endHold u port net vc).cutHolder u h.src vc port).tellBite u := by
  have hbites : ¬ (h.emptyT < 2 ^ s.rdOld (setB u) KRTR_WDOG.wd_log2 ∨ vcDepth vc ≤ Tbl.get 0 s.net.used (qKey u port vc)) := by omega
  unfold effWatchdogBite
  simp only [State.w0_toState, hhold]
  exact if_neg hbites

/-- A packet sent in part is ended with one more phit. -/
theorem watchdogBite_ends {i : Nat} {b : Buf} {c : Copy} (hr : s.inReset = false)
    (hi : (s.buf u h.src vc).findIdx? (fun b => b.copies.any (fun c => c.port == port && c.sent != 0)) = some i)
    (hb : (s.buf u h.src vc)[i]? = some b) (hc : b.copies.find? (fun c => c.port == port) = some c) (hvc : c.pkt.vc = vc) :
    ∃ t, exec (.watchdogBite u port net vc) s = .next t ∧ (t.arb u port net).holds.find vc = none
      ∧ Tbl.get 0 t.net.used (qKey u port vc) = Tbl.get 0 s.net.used (qKey u port vc) + 1
      ∧ bit (t.rd fltB (KFLT_STICKY.sticky.at 12)) clARB = true ∧ t.mem = s.mem := by
  have hheld : (s.w0.endHold u port net vc).buf u h.src vc = s.buf u h.src vc := rfl
  have hcut : (s.w0.endHold u port net vc).cutHolder u h.src vc port
      = ((s.w0.endHold u port net vc).endDownstream u port c.pkt c.sent).dropCopy u h.src vc i port := by
    simp only [W.cutHolder, hheld, hi, hb, hc, Option.bind_some]
  have hcalm := (W.calm_of_bareF (W.tellBite_bareF _ u)).trans
    ((congrArg W.calm hcut).trans ((W.dropCopy_calm ..).trans (W.endDownstream_calm ..)))
  have hclass := W.tellBite_hasClass ((s.w0.endHold u port net vc).cutHolder u h.src vc port) u
  have heff := effWatchdogBite_bites hhold hlate hcredit
  generalize ((s.w0.endHold u port net vc).cutHolder u h.src vc port).tellBite u = v at *
  have harbs : v.net.arbs = (s.w0.endHold u port net vc).net.arbs := (W.arbs_of_calm hcalm).trans rfl
  have hused : v.net.used = s.net.used.put (qKey u port c.pkt.vc) (Tbl.get 0 s.net.used (qKey u port c.pkt.vc) + 1) :=
    W.used_of_calm hcalm
  have hstores : v.stores = [] := W.stores_of_still (W.still_of_calm hcalm)
  rw [hvc] at hused
  refine ⟨_, run_const hr heff, holds_of_endHold harbs, ?_, hclass, State.after_mem_of_no_stores hstores⟩
  rw [State.after_net, hused, Tbl.get_put_self]

theorem watchdogBite_releases (hr : s.inReset = false)
    (hi : (s.buf u h.src vc).findIdx? (fun b => b.copies.any (fun c => c.port == port && c.sent != 0)) = none) :
    ∃ t, exec (.watchdogBite u port net vc) s = .next t ∧ (t.arb u port net).holds.find vc = none ∧ t.net.used = s.net.used
      ∧ t.net.q = s.net.q ∧ bit (t.rd fltB (KFLT_STICKY.sticky.at 12)) clARB = true ∧ t.mem = s.mem := by
  have hheld : (s.w0.endHold u port net vc).buf u h.src vc = s.buf u h.src vc := rfl
  have hcut : (s.w0.endHold u port net vc).cutHolder u h.src vc port = s.w0.endHold u port net vc := by
    simp only [W.cutHolder, hheld, hi]
  have heff := effWatchdogBite_bites hhold hlate hcredit
  rw [hcut] at heff
  have hbare := W.tellBite_bareF (s.w0.endHold u port net vc) u
  have hclass := W.tellBite_hasClass (s.w0.endHold u port net vc) u
  generalize (s.w0.endHold u port net vc).tellBite u = v at *
  have hnet := W.net_of_bareF hbare
  have hstores : v.stores = [] := W.stores_of_bareF hbare
  exact ⟨_, run_const hr heff, holds_of_endHold (congrArg Net.arbs hnet), (congrArg Net.used hnet).trans rfl,
    (congrArg Net.q hnet).trans rfl, hclass, State.after_mem_of_no_stores hstores⟩

end

/-! ### Credit words (R151, R152) -/

theorem bits_creditWord {cvc n : Nat} (hvc : cvc < 16) (hn : n ≤ 15) :
    bits (le (creditWord cvc n) 0 1) 0 4 = cvc ∧ bits (le (creditWord cvc n) 0 1) 4 4 = n := by
  have hle : le (creditWord cvc n) 0 1 = cvc + n * 16 := by
    simp [creditWord, le, toLE, ofLE]
    omega
  rw [hle]
  unfold bits
  omega

/-- A credit word takes what it returns from what is owed. -/
def W.payCredits (w : W) (v pv cvc n : Nat) : W :=
  { w with net.owed := Tbl.set 0 w.net.owed (qKey v pv cvc) (Tbl.get 0 w.net.owed (qKey v pv cvc) - n) }

/-- A credit word that is received returns its credits to the sender. -/
def W.freeCredits (w : W) (u port cvc n : Nat) : W :=
  { w with net.used := Tbl.set 0 w.net.used (qKey u port cvc) (Tbl.get 0 w.net.used (qKey u port cvc) - n) }

/-- What the receipt of a credit word's codeword comes to. -/
def creditRead (u port : Nat) : Option (List Byte) × W → W
  | (some m, w) => w.freeCredits u port (bits (le m 0 1) 0 4) (bits (le m 0 1) 4 4)
  | (none, w) => (if isRouter u then w.flag (rtrB u) KRTR_ARB_EVT.credit_lost else w).fault clARB (locOf u)

theorem effCreditWordReceive_reads {s : State} {u port cvc cnt n : Nat} {errs : List Err} {v pv : Nat}
    (hpeer : s.peer u port = some (v, pv)) (hcnt : cnt ≤ 15) (hn : n = min cnt (Tbl.get 0 s.net.owed (qKey v pv cvc))) :
    effCreditWordReceive u port cvc cnt errs s.w0
      = creditRead u port ((s.w0.payCredits v pv cvc n).rxCode u (creditWord cvc n) (errsOf errs 0)) := by
  unfold effCreditWordReceive
  simp only [State.w0_toState, hpeer, Nat.min_eq_left hcnt, ← hn]
  rfl

theorem creditWordReceive_returns {s : State} {u port cvc cnt : Nat} {errs : List Err} {v pv : Nat} (hr : s.inReset = false)
    (hpeer : s.peer u port = some (v, pv)) (hvc : cvc < 16) (hcnt : cnt ≤ 15) (herr : errsOf errs 0 = []) :
    ∃ t, exec (.creditWordReceive u port cvc cnt errs) s = .next t
      ∧ Tbl.get 0 t.net.owed (qKey v pv cvc) = Tbl.get 0 s.net.owed (qKey v pv cvc) - cnt
      ∧ Tbl.get 0 t.net.used (qKey u port cvc)
          = Tbl.get 0 s.net.used (qKey u port cvc) - min cnt (Tbl.get 0 s.net.owed (qKey v pv cvc))
      ∧ t.net.q = s.net.q ∧ t.regs = s.regs ∧ t.mem = s.mem := by
  obtain ⟨hk, hn⟩ := bits_creditWord (n := min cnt (Tbl.get 0 s.net.owed (qKey v pv cvc))) hvc (by omega)
  have heff := effCreditWordReceive_reads (cvc := cvc) (errs := errs) (port := port) hpeer hcnt rfl
  rw [W.rxCode, if_pos herr, creditRead, hk, hn] at heff
  have hpaid (a : Nat) : a - min cnt a = a - cnt := by omega
  exact ⟨_, run_const hr heff, (Tbl.get_set_self ..).trans (hpaid _), Tbl.get_set_self .., rfl, rfl, rfl⟩

theorem creditLost_key_ne (u : Nat) :
    (KFLT_STICKY.sticky.at 12).key fltB 0 ≠ KRTR_ARB_EVT.credit_lost.key (rtrB u) 0 := by
  simp only [Fld.key, Fld.at, KFLT_STICKY.sticky, KRTR_ARB_EVT.credit_lost]
  omega

/-- A router whose credit word is lost tells so: the codeword is uncorrectable, and the loss is an ARB fault. -/
def W.loseCredits (w : W) (u : Nat) : W :=
  ((w.fresh.uncorrAt (locOf u)).flag (rtrB u) KRTR_ARB_EVT.credit_lost).fault clARB (locOf u)

theorem W.loseCredits_hasClass (w : W) (u : Nat) : (w.loseCredits u).hasClass clARB ∧ (w.loseCredits u).hasClass clUNCORR := by
  refine ⟨W.fault_sets _ _ (by decide), W.fault_keeps _ _ _ (by decide) ?_⟩
  have huncorr : (w.fresh.uncorrAt (locOf u)).hasClass clUNCORR := W.onError_keeps _ _ _ (by decide) (W.fault_sets _ _ (by decide))
  rw [State.hasClass, W.rd_flag_ne _ _ _ _ _ _ _ _ (creditLost_key_ne u)]
  exact huncorr

theorem W.loseCredits_flag (w : W) (u : Nat) : (w.loseCredits u).rd (rtrB u) KRTR_ARB_EVT.credit_lost = 1 := by
  have hoff : offTrace (rtrB u) KRTR_ARB_EVT.credit_lost := ⟨by decide, .inr (by unfold rtrB; omega)⟩
  exact (W.fault_rd _ _ _ 0 hoff (by decide)).trans (W.flag_one _ rfl)

theorem W.loseCredits_facts (w : W) (u : Nat) : (w.loseCredits u).net = w.net ∧ (w.loseCredits u).stores = w.stores := by
  have hbare : ((w.fresh.uncorrAt (locOf u)).flag (rtrB u) KRTR_ARB_EVT.credit_lost).bareF = w.fresh.bareF :=
    (W.bareF_of (W.flag_bare ..)).trans (W.uncorrAt_bareF ..)
  have h : (w.loseCredits u).bareF = w.fresh.bareF := (W.fault_bareF ..).trans hbare
  exact ⟨(W.net_of_bareF h).trans rfl, (W.stores_of_bareF h).trans rfl⟩

/-- A credit word whose codeword is uncorrectable loses its credits (R152). -/
theorem creditWordReceive_loses {s : State} {u port cvc cnt n : Nat} {errs : List Err} {v pv : Nat} (hr : s.inReset = false)
    (hpeer : s.peer u port = some (v, pv)) (hrouter : isRouter u = true) (hcnt : cnt ≤ 15)
    (hn : n = min cnt (Tbl.get 0 s.net.owed (qKey v pv cvc))) (herr : errsOf errs 0 ≠ [])
    (hlost : rxWord s.freeCtr (creditWord cvc n) (errsOf errs 0) = .lost) :
    ∃ t, exec (.creditWordReceive u port cvc cnt errs) s = .next t
      ∧ Tbl.get 0 t.net.owed (qKey v pv cvc) = Tbl.get 0 s.net.owed (qKey v pv cvc) - n ∧ t.net.used = s.net.used
      ∧ t.rd (rtrB u) KRTR_ARB_EVT.credit_lost = 1 ∧ bit (t.rd fltB (KFLT_STICKY.sticky.at 12)) clARB = true
      ∧ bit (t.rd fltB (KFLT_STICKY.sticky.at 12)) clUNCORR = true ∧ t.mem = s.mem := by
  have hword : rxWord (s.w0.payCredits v pv cvc n).freeCtr (creditWord cvc n) (errsOf errs 0) = .lost := hlost
  have heff := effCreditWordReceive_reads (cvc := cvc) (errs := errs) (port := port) hpeer hcnt hn
  rw [W.rxCode, if_neg herr, hword, creditRead, if_pos hrouter, ← W.loseCredits] at heff
  obtain ⟨harb, huncorr⟩ := (s.w0.payCredits v pv cvc n).loseCredits_hasClass u
  have hflag := (s.w0.payCredits v pv cvc n).loseCredits_flag u
  obtain ⟨hnet, hstores⟩ := (s.w0.payCredits v pv cvc n).loseCredits_facts u
  generalize (s.w0.payCredits v pv cvc n).loseCredits u = x at *
  refine ⟨_, run_const hr heff, ?_, (congrArg Net.used hnet).trans rfl, hflag, harb, huncorr, State.after_mem_of_no_stores hstores⟩
  rw [State.after_net, hnet]
  exact Tbl.get_set_self ..

/-- Settles O25: a draw by the state without what waited for a dead port, and each other event by what it changes. -/
theorem arbitersAct : Obligations.ArbitersAct := by
  unfold Obligations.ArbitersAct
  refine ⟨?draw, ?shut, ?once, ?intake, ?window, ?ends, ?releases, ?returns, ?loses⟩
  case draw =>
    intro s u port net errs a x hr hu hpeer hnet ha hdrawn hx hopen
    exact arbiterDraw_draws hr hu hpeer hnet ha hdrawn hx hopen
  case shut =>
    intro s u port errs a x hr hu hpeer ha hdrawn hx hopen hplacing
    exact arbiterDraw_waits hr hu hpeer ha hdrawn hx hopen hplacing
  case once => exact fun s u port net errs hr hu hpeer hnet hdrawn => arbiterDraw_once hr hu hpeer hnet hdrawn
  case intake => exact fun s m net errs hr hm => arbiterDraw_mspDraw hr hm
  case window => exact fun s u port net hr h => quotaWindowStart_frees hr h
  case ends =>
    intro s u port net vc h i b c hr hhold hlate hcredit hi hb hc hvc
    exact watchdogBite_ends hhold hlate hcredit hr hi hb hc hvc
  case releases =>
    intro s u port net vc h hr hhold hlate hcredit hi
    exact watchdogBite_releases hhold hlate hcredit hr hi
  case returns =>
    intro s u port cvc cnt errs v pv hr hpeer hvc hcnt herr
    exact creditWordReceive_returns hr hpeer hvc hcnt herr
  case loses =>
    intro s u port cvc cnt errs v pv n hr hpeer hrouter hvc hcnt hn herr hlost
    exact creditWordReceive_loses hr hpeer hrouter hcnt hn herr hlost

end Sys2Proof.Machine
end

section
/-! PROOFS. Completion records (R187, R188): a record's bytes in core SRAM, and what a completion leaves alone. -/

namespace Sys2Proof.Machine

/-! ### A write to core SRAM -/

theorem putBytes_append (m : List Host.Cell) (a : Nat) (d e : List Byte) :
    putBytes m a (d ++ e) = putBytes (putBytes m a d) (a + d.length) e := by
  induction d generalizing m a with
  | nil => rfl
  | cons b d ih =>
    rw [List.cons_append, putBytes, putBytes, ih, List.length_cons, Nat.add_right_comm, Nat.add_assoc]

/-- A piece of a line of core SRAM is stored where it says, over whatever memory. -/
theorem W.writePart_apply (w : W) (m : Memory) (a : Nat) (d : List Byte) (p : Bool) :
    (m.apply (w.writePart true a d p).stores).sram = putBytes (m.apply w.stores).sram a d
      ∧ (m.apply (w.writePart true a d p).stores).cells = (m.apply w.stores).cells := by
  unfold W.writePart
  dsimp only
  split
  · rw [W.put_stores, W.put_stores, Memory.apply_append, Memory.apply_append]
    exact ⟨rfl, rfl⟩
  · split
    · rw [W.put_stores, W.put_stores, Memory.apply_append, Memory.apply_append]
      exact ⟨rfl, rfl⟩
    · rw [W.put_stores, Memory.apply_append]
      exact ⟨rfl, rfl⟩

/-- The pieces of a write, line by line, are its bytes in order. -/
theorem W.writeLines_apply (m : Memory) (pois f : Nat) : ∀ (w : W) (a j : Nat) (d : List Byte), d.length < f →
    let v := w.each (splitLines f a j d) fun w p => w.writePart true p.1 p.2.1 (bit pois p.2.2)
    (m.apply v.stores).sram = putBytes (m.apply w.stores).sram a d ∧ (m.apply v.stores).cells = (m.apply w.stores).cells := by
  induction f with
  | zero => exact fun _ _ _ _ h => absurd h (Nat.not_lt_zero _)
  | succ f ih =>
    intro w a j d hlen
    cases d with
    | nil => exact ⟨rfl, rfl⟩
    | cons b d =>
      have hpos : 0 < 64 - a % 64 := Nat.sub_pos_of_lt (Nat.mod_lt _ (by decide))
      obtain ⟨hs, hc⟩ := w.writePart_apply m a ((b :: d).take (64 - a % 64)) (bit pois j)
      obtain ⟨is, ic⟩ := ih (w.writePart true a ((b :: d).take (64 - a % 64)) (bit pois j)) (a + (64 - a % 64)) (j + 1)
        ((b :: d).drop (64 - a % 64)) (by rw [List.length_cons] at hlen; rw [List.length_drop, List.length_cons]; omega)
      refine ⟨is.trans ?_, ic.trans hc⟩
      rw [hs]
      by_cases hle : 64 - a % 64 ≤ (b :: d).length
      · have h := putBytes_append (m.apply w.stores).sram a ((b :: d).take (64 - a % 64)) ((b :: d).drop (64 - a % 64))
        rw [List.take_append_drop, List.length_take_of_le hle] at h
        exact h.symm
      · rw [List.take_of_length_le (Nat.le_of_not_le hle), List.drop_of_length_le (Nat.le_of_not_le hle)]
        rfl

/-- A write to core SRAM puts its bytes at their address, and no byte elsewhere. -/
theorem W.sramWrite_apply (w : W) (m : Memory) (st a : Nat) (d : List Byte) (p : Nat) :
    (m.apply (w.sramWrite st a d p).stores).sram = putBytes (m.apply w.stores).sram (sramKey st a) d
      ∧ (m.apply (w.sramWrite st a d p).stores).cells = (m.apply w.stores).cells :=
  W.writeLines_apply m p _ w _ 0 d (Nat.lt_succ_self _)

/-! ### What a completion changes -/

/-- The packets, the fault collector, and what is at stations beside the log, its jobs, and which completion queues are full. -/
def W.noLog (w : W) : Net × Flt × Sta := (w.net, w.flt, { w.sta with log := [], job := [], cqFull := [] })

theorem W.noLog_of_bare {v w : W} (h : v.bare = w.bare) : v.noLog = w.noLog := by
  have e := congrArg W.noLog h
  exact e

theorem W.wr_noLog (w : W) (b : Nat) (f : Fld) (v i : Nat) : (w.wr b f v i).noLog = w.noLog := rfl
theorem W.dec_noLog (w : W) (b : Nat) (f : Fld) (k i : Nat) : (w.dec b f k i).noLog = w.noLog := rfl
theorem W.noLog_full (w : W) (x : Tbl Bool) : W.noLog { w with sta.cqFull := x } = w.noLog := rfl
theorem W.noLog_log (w : W) (x : Tbl LogEnt) (y : Tbl Job) : W.noLog { w with sta.log := x, sta.job := y } = w.noLog := rfl

theorem W.writePart_noLog (w : W) (sram : Bool) (a : Nat) (d : List Byte) (p : Bool) : (w.writePart sram a d p).noLog = w.noLog := by
  unfold W.writePart
  dsimp only
  split
  · rfl
  · split
    · rfl
    · rfl

theorem W.sramWrite_noLog (w : W) (st a : Nat) (d : List Byte) (p : Nat) : (w.sramWrite st a d p).noLog = w.noLog :=
  W.each_inv (fun v => v.noLog = w.noLog) _ _ _ rfl fun _ _ _ h => (W.writePart_noLog ..).trans h

theorem W.started_noLog (w : W) (st e : Nat) : (w.started st e).noLog = w.noLog := by
  unfold W.started
  split
  · rfl
  · rfl

theorem W.complete_noLog (w : W) (st e status detail : Nat) : (w.complete st e status detail).noLog = w.noLog := by
  unfold W.complete
  split
  · rfl
  · extract_lets b q cq t ph n kind det rec v1 wrap v2 src v3 v4 v5 v6 src2 v7 v8
    have h1 : v1.noLog = w.noLog := W.sramWrite_noLog ..
    clear_value v1
    have h3 : v3.noLog = w.noLog := (W.noLog_full ..).trans ((W.wr_noLog ..).trans h1)
    clear_value v3
    have h4 : v4.noLog = w.noLog := by
      unfold v4
      split
      · exact (W.wr_noLog ..).trans h3
      · exact h3
    clear_value v4
    have h6 : v6.noLog = w.noLog := (W.dec_noLog ..).trans ((W.dec_noLog ..).trans ((W.dec_noLog ..).trans h4))
    clear_value v6
    have h7 : v7.noLog = w.noLog := (W.noLog_log ..).trans h6
    have h8 : v8.noLog = w.noLog := (W.noLog_of_bare (W.ev_bare ..)).trans h7
    split
    · exact (W.noLog_of_bare (W.irqB_bare ..)).trans h8
    · exact h8

/-- The bytes of a descriptor's record (R187). -/
def State.cqBytes (s : State) (st : Nat) (l : LogEnt) (status detail : Nat) : List Byte :=
  cqRecord status (le l.desc 0 1) l.dq (s.rd (stnB st) KSTN_CQ_TAIL.cq_phase (s.rd (stnB st) KSTN_DQ_CFG.dq_cq l.dq)) l.dseq
    (le l.desc 8 8) s.herdTime (if le l.desc 0 1 = 2 ∧ status ≠ OK then s.sendDetail st l.desc else detail)

/-- Where its completion queue's tail stands in core SRAM. -/
def State.cqTailAt (s : State) (st : Nat) (l : LogEnt) : Nat :=
  s.rd (stnB st) KSTN_CQ_BASE.cq_base (s.rd (stnB st) KSTN_DQ_CFG.dq_cq l.dq) * 32
    + 32 * s.rd (stnB st) KSTN_CQ_TAIL.cq_tail (s.rd (stnB st) KSTN_DQ_CFG.dq_cq l.dq)

theorem cqRecord_length (status kind dq phase dseq user stamp detail : Nat) :
    (cqRecord status kind dq phase dseq user stamp detail).length = 32 := by
  simp [cqRecord, toLE_length]

theorem W.sramWrite_sta (w : W) (st a : Nat) (d : List Byte) (p : Nat) : (w.sramWrite st a d p).sta = w.sta :=
  W.each_inv (fun v => v.sta = w.sta) _ _ _ rfl fun v x _ h => by
    refine Eq.trans ?_ h
    unfold W.writePart
    dsimp only
    split
    · rfl
    · split
      · rfl
      · rfl

/-- What was stored, and the log with its jobs. -/
def W.logged (w : W) : List Store × Tbl LogEnt × Tbl Job := (w.stores, w.sta.log, w.sta.job)

theorem W.logged_of_bare {v w : W} (h : v.bare = w.bare) : v.logged = w.logged := by
  have e := congrArg W.logged h
  exact e

theorem W.wr_logged (w : W) (b : Nat) (f : Fld) (v i : Nat) : (w.wr b f v i).logged = w.logged := rfl
theorem W.dec_logged (w : W) (b : Nat) (f : Fld) (k i : Nat) : (w.dec b f k i).logged = w.logged := rfl
theorem W.logged_full (w : W) (x : Tbl Bool) : W.logged { w with sta.cqFull := x } = w.logged := rfl

theorem W.sramWrite_logged (w : W) (st a : Nat) (d : List Byte) (p : Nat) :
    (w.sramWrite st a d p).logged = ((w.sramWrite st a d p).stores, w.sta.log, w.sta.job) := by
  rw [W.logged, W.sramWrite_sta]

/-- A completion stores its record alone, and frees its log entry. -/
theorem W.complete_logged (w : W) {st e : Nat} {l : LogEnt} (status detail : Nat) (h : w.logAt st e = some l) :
    (w.complete st e status detail).logged = ((w.sramWrite st (w.cqTailAt st l) (w.cqBytes st l status detail)).stores,
      w.sta.log.del (logKey st e), w.sta.job.del (logKey st e)) := by
  unfold W.complete
  split
  case h_1 hnone => exact absurd (hnone.symm.trans h) (by simp)
  rename_i x hx
  obtain rfl : x = l := Option.some.inj (hx.symm.trans h)
  extract_lets b q cq t ph n kind det rec v1 wrap v2 src v3 v4 v5 v6 src2 v7 v8
  have h1 : v1.logged = ((w.sramWrite st (w.cqTailAt st x) (w.cqBytes st x status detail)).stores, w.sta.log, w.sta.job) :=
    w.sramWrite_logged st (w.cqTailAt st x) (w.cqBytes st x status detail) 0
  clear_value v1
  have h3 : v3.logged = v1.logged := (W.logged_full ..).trans (W.wr_logged ..)
  clear_value v3
  have h4 : v4.logged = v1.logged := by
    unfold v4
    split
    · exact (W.wr_logged ..).trans h3
    · exact h3
  clear_value v4
  have h6 : v6.logged = v1.logged := (W.dec_logged ..).trans ((W.dec_logged ..).trans ((W.dec_logged ..).trans h4))
  clear_value v6
  have h7 : v7.logged = (v6.stores, v6.sta.log.del (logKey st e), v6.sta.job.del (logKey st e)) := rfl
  clear_value v7
  obtain ⟨hstores, hlog, hjob⟩ : v6.stores = _ ∧ v6.sta.log = _ ∧ v6.sta.job = _ := by
    simpa only [W.logged, Prod.mk.injEq] using h6.trans h1
  have h8 := (W.logged_of_bare (v7.ev_bare (uSt st) 0x02 1 x.lctx 0 0)).trans h7
  rw [hstores, hlog, hjob] at h8
  split
  · exact (W.logged_of_bare (W.irqB_bare ..)).trans h8
  · exact h8

/-- Settles O34: the record's bytes are the one store that a completion makes. -/
theorem completionRecord : Obligations.CompletionRecord := by
  intro s st e l status detail a hl ha
  obtain ⟨hstores, hlog, hjob⟩ := Prod.mk.inj (s.w0.complete_logged status detail hl) |>.imp_right Prod.mk.inj
  have hkeep := s.w0.complete_noLog st e status detail
  obtain ⟨hsram, hcells⟩ := s.w0.sramWrite_apply s.mem st (s.w0.cqTailAt st l) (s.w0.cqBytes st l status detail) 0
  have hmem : (s.after fun w => w.complete st e status detail).mem = s.mem.apply (s.w0.complete st e status detail).stores := rfl
  have hlen : (s.w0.cqBytes st l status detail).length = 32 := cqRecord_length ..
  have ha' : a = sramKey st (s.w0.cqTailAt st l) := ha
  rw [← hstores] at hsram hcells
  refine ⟨_, rfl, ?_, ?_, ?_, fun x hx => ?_, ?_, ?_, ?_⟩
  · exact (congrArg (Tbl.find · (logKey st e)) hlog).trans (Tbl.find_del_self ..)
  · exact (congrArg (Tbl.find · (logKey st e)) hjob).trans (Tbl.find_del_self ..)
  · rw [hmem, hsram, ← ha', ← hlen]
    exact getBytes_putBytes ..
  · rw [hmem, hsram, ← ha']
    exact putBytes_out a _ x (by rwa [hlen])
  · rw [hmem, hcells]
    rfl
  · exact congrArg Prod.fst hkeep
  · exact congrArg (fun x => x.2.1) hkeep

end Sys2Proof.Machine
end

section
/-! PROOFS. What reports leave of a state: its stores, its packets, and its stations; and statuses of conditions in order. -/

namespace Sys2Proof.Machine

/-! ### Statuses (R19) -/

/-- A condition that holds decides over those of lower precedence. -/
theorem firstOf_cons_true {n : Nat} {l : List (Bool × Nat)} (hn : n ≤ 0x12) (hl : ∀ d ∈ l, statusPrec n < statusPrec d.2) :
    firstOf ((true, n) :: l) = n := by
  have hhead : ((true, n) : Bool × Nat) ∈ (true, n) :: l := List.mem_cons_self
  obtain ⟨d, hd, -, he⟩ := firstOf_mem hhead rfl hn
  rcases List.mem_cons.mp hd with rfl | hd
  · exact he
  · exact absurd (statusPrec_firstOf_le hhead rfl) (Nat.not_le.mpr (he ▸ hl d hd))

/-- A condition that does not hold has no say. -/
theorem firstOf_cons_false (n : Nat) (l : List (Bool × Nat)) : firstOf ((false, n) :: l) = firstOf l := rfl

/-! ### Reports -/

/-- What was stored, the packets, and the stations' state. -/
def W.held (w : W) : List Store × Net × Sta := (w.stores, w.net, w.sta)

theorem W.held_of_bare {v w : W} (h : v.bare = w.bare) : v.held = w.held := by
  have e := congrArg W.held h
  exact e

@[simp] theorem W.wr_held (w : W) (b : Nat) (f : Fld) (v i : Nat) : (w.wr b f v i).held = w.held := rfl
@[simp] theorem W.inc_held (w : W) (b : Nat) (f : Fld) (k i : Nat) : (w.inc b f k i).held = w.held := rfl
@[simp] theorem W.flag_held (w : W) (b : Nat) (f : Fld) (v i : Nat) : (w.flag b f v i).held = w.held := rfl
@[simp] theorem W.high_held (w : W) (b : Nat) (f : Fld) (v i : Nat) : (w.high b f v i).held = w.held := W.held_of_bare (W.high_bare ..)
@[simp] theorem W.ev_held (w : W) (u c n x p v : Nat) : (w.ev u c n x p v).held = w.held := W.held_of_bare (W.ev_bare ..)
@[simp] theorem W.irqB_held (w : W) (st n : Nat) : (w.irqB st n).held = w.held := W.held_of_bare (W.irqB_bare ..)

/-- The memories of the state after an effect that has stored nothing. -/
theorem State.after_mem_of_held {s : State} {f : W → W} {x : Net × Sta} (h : (f s.w0).held = ([], x)) : (s.after f).mem = s.mem :=
  State.after_mem_of_no_stores (congrArg Prod.fst h)

/-- The state after an effect that stores nothing. -/
theorem State.after_held {s : State} {v : W} {n : Net} {a : Sta} (h : v.held = ([], n, a)) :
    (s.after fun _ => v).mem = s.mem ∧ (s.after fun _ => v).net = n ∧ (s.after fun _ => v).sta = a :=
  ⟨State.after_mem_of_no_stores (congrArg Prod.fst h), congrArg (fun x => x.2.1) h, congrArg (fun x => x.2.2) h⟩

end Sys2Proof.Machine
end

section
/-! PROOFS. Descriptors (R184 to R188, R203, R285, R307): the fetch into the log, and how a descriptor of each kind starts. -/

namespace Sys2Proof.Machine

/-! ### The fetch (R184) -/

/-- The log entry that a fetch fills. -/
def State.logSlot (s : State) (st : Nat) : Nat := ((s.sta.log.freeFrom 512 (logKey st 0)).getD (logKey st 0)) - logKey st 0

/-- What the fetch from queue `q` puts into it. -/
def W.fetched (w : W) (st q : Nat) : LogEnt :=
  { desc := w.sramRead st (w.rd (stnB st) KSTN_DQ_BASE.dq_base q * 64 + 64 * w.rd (stnB st) KSTN_DQ_HEAD.dq_head q) 64,
    dq := q, lstate := 1, lctx := w.objCtx 0 st q, dseq := Tbl.get 0 w.sta.dseq (st * 8 + q), astamp := w.herdTime,
    bad := w.sramPois st (w.rd (stnB st) KSTN_DQ_BASE.dq_base q * 64 + 64 * w.rd (stnB st) KSTN_DQ_HEAD.dq_head q) }

/-- Beside reports a fetch changes the log, the job of a FENCE, the queue's count, and which queue was served last. -/
theorem effDescriptorFetch_held {w : W} {st q : Nat} (hq : w.nextDq st = some q) :
    ∃ jobs, (effDescriptorFetch st w).held = (w.stores, w.net, { w.sta with
      log := w.sta.log.put (logKey st (w.logSlot st)) (w.fetched st q)
      job := jobs
      dseq := Tbl.set 0 w.sta.dseq (st * 8 + q) ((Tbl.get 0 w.sta.dseq (st * 8 + q) + 1) % 2 ^ 32)
      lastDq := w.sta.lastDq.put st q }) := by
  unfold effDescriptorFetch
  split
  case h_1 hnone => exact absurd (hnone.symm.trans hq) (by simp)
  rename_i x hx
  obtain rfl : x = q := Option.some.inj (hx.symm.trans hq)
  extract_lets b h n d e dseq v1 v2 src v3 v4 v5 v6
  have h1 : v1.held = (w.stores, w.net, { w.sta with log := w.sta.log.put (logKey st (w.logSlot st)) (w.fetched st x) }) := rfl
  clear_value v1
  obtain ⟨jobs, h2⟩ : ∃ jobs, v2.held = (v1.stores, v1.net, { v1.sta with job := jobs }) := by
    unfold v2
    split
    · exact ⟨_, rfl⟩
    · exact ⟨_, rfl⟩
  clear_value v2
  have h3 : v3.held = (v2.stores, v2.net, { v2.sta with
      dseq := Tbl.set 0 v2.sta.dseq (st * 8 + x) ((dseq + 1) % 2 ^ 32), lastDq := v2.sta.lastDq.put st x }) := rfl
  clear_value v3
  have h6 : v6.held = v3.held := by rw [W.inc_held, W.inc_held, W.inc_held, W.wr_held]
  obtain ⟨es1, en1, ea1⟩ : v1.stores = _ ∧ v1.net = _ ∧ v1.sta = _ := by simpa only [W.held, Prod.mk.injEq] using h1
  rw [es1, en1, ea1] at h2
  obtain ⟨es2, en2, ea2⟩ : v2.stores = _ ∧ v2.net = _ ∧ v2.sta = _ := by simpa only [W.held, Prod.mk.injEq] using h2
  rw [es2, en2, ea2] at h3
  refine ⟨jobs, ?_⟩
  rw [W.ev_held, W.high_held, h6, h3]

theorem descriptorFetch_logs {s : State} {st q : Nat} (hr : s.inReset = false) (hq : s.nextDq st = some q) :
    ∃ t e, exec (.descriptorFetch st) s = .next t ∧ t.logAt st e = some (s.w0.fetched st q)
      ∧ Tbl.get 0 t.sta.dseq (st * 8 + q) = (Tbl.get 0 s.sta.dseq (st * 8 + q) + 1) % 2 ^ 32
      ∧ t.sta.lastDq.find st = some q ∧ t.mem = s.mem ∧ t.net = s.net := by
  obtain ⟨jobs, h⟩ := effDescriptorFetch_held (w := s.w0) hq
  have hsta : (s.after (effDescriptorFetch st)).sta = _ := congrArg (fun x => x.2.2) h
  refine ⟨_, s.w0.logSlot st, run_up _ hr, ?_, ?_, ?_, State.after_mem_of_held h, congrArg (fun x => x.2.1) h⟩
  · rw [State.logAt, hsta]
    exact Tbl.find_put_self ..
  · rw [hsta]
    exact Tbl.get_set_self ..
  · rw [hsta]
    exact Tbl.find_put_self ..

/-! ### The start of a descriptor (R185, R186) -/

/-- What a descriptor that may start is. -/
theorem State.mayStart_some {s : State} {st e kind : Nat} {l : LogEnt} (h : s.mayStart st e kind = some l) :
    s.logAt st e = some l ∧ l.lstate = 1 ∧ l.bad = false ∧ headBad l.desc = false ∧ le l.desc 0 1 = kind
      ∧ (s.earlier st l.dq l.dseq).all (fun x => x.lstate == 2) = true
      ∧ (!bit (le l.desc 1 1) 1 || s.earlier st l.dq l.dseq == []) = true := by
  unfold State.mayStart at h
  split at h
  · exact absurd h (by simp)
  · rename_i x hx
    dsimp only at h
    split at h
    · rename_i hc
      obtain ⟨hstate, hbad, hhead, hkind, hbefore, hordered⟩ := hc
      obtain rfl := Option.some.inj h
      exact ⟨hx, hstate, by simpa using hbad, by simpa using hhead, hkind, hbefore, hordered⟩
    · exact absurd h (by simp)

/-- A descriptor that only completes does so once it has started. -/
theorem effNopDescriptor_ends {w : W} {st e : Nat} {l : LogEnt} (hl : w.logAt st e = some l) (hstate : l.lstate = 1)
    (hkind : le l.desc 0 1 = 9 ∨ kindReserved (le l.desc 0 1) = true)
    (hbefore : (w.earlier st l.dq l.dseq).all (fun x => x.lstate == 2) = true)
    (hordered : (!bit (le l.desc 1 1) 1 || w.earlier st l.dq l.dseq == []) = true) :
    effNopDescriptor st e w = (w.started st e).complete st e (firstOf
      [(kindReserved (le l.desc 0 1) || headBad l.desc, BADOP), (w.ctxFencedAt st l.lctx, FENCED), (l.bad, POISON)]) := by
  have hown : (le l.desc 0 1 = 9 || kindReserved (le l.desc 0 1) || headBad l.desc || l.bad) = true := by
    rcases hkind with h | h
    · simp [h]
    · simp [h]
  unfold effNopDescriptor
  simp only [hl]
  exact if_pos ⟨hstate, hown, hbefore, hordered⟩

theorem effNopDescriptor_nop {w : W} {st e : Nat} {l : LogEnt} (h : w.mayStart st e 9 = some l) :
    effNopDescriptor st e w = (w.started st e).complete st e (if w.ctxFencedAt st l.lctx then FENCED else OK) := by
  obtain ⟨hl, hstate, hbad, hhead, hkind, hbefore, hordered⟩ := State.mayStart_some h
  rw [effNopDescriptor_ends hl hstate (.inl hkind) hbefore hordered, hkind, hhead, hbad]
  cases w.ctxFencedAt st l.lctx
  · rfl
  · rfl

theorem effNopDescriptor_reserved {w : W} {st e : Nat} {l : LogEnt} (hl : w.logAt st e = some l) (hstate : l.lstate = 1)
    (hkind : kindReserved (le l.desc 0 1) = true) (hfirst : w.earlier st l.dq l.dseq = []) :
    effNopDescriptor st e w = (w.started st e).complete st e BADOP := by
  rw [effNopDescriptor_ends hl hstate (.inr hkind) (by simp [hfirst]) (by simp [hfirst]), hkind, Bool.true_or,
    firstOf_cons_true (by decide) (by simp [BADOP, FENCED, POISON, statusPrec])]

/-! ### SEND (R203) -/

theorem W.winDenied_false (w : W) (st : Nat) : w.winDenied st false = w := rfl

/-- A send of a wrong form is refused for no window. -/
theorem W.sendDenied_badop (w : W) (st addr blen ctx : Nat) : w.sendDenied st addr blen ctx BADOP = w := by
  have hchk : (BADOP == DENIED) = false := by decide
  rw [W.sendDenied, hchk, Bool.false_and, Bool.false_and, W.winDenied_false]

section
variable {w : W} {st e : Nat} {l : LogEnt} (h : w.mayStart st e 2 = some l)
include h

theorem effSendDescriptor_bad (hbad : sendBad l.desc = true) :
    effSendDescriptor st e w = (w.started st e).complete st e BADOP := by
  unfold effSendDescriptor
  simp only [h, hbad, if_true]
  rw [if_pos (by decide), W.sendDenied_badop]

/-- A SEND of the right form is checked as a direct send; then its channel's credit decides. -/
theorem effSendDescriptor_checked (hbad : sendBad l.desc = false) : effSendDescriptor st e w =
    let c := le l.desc 32 1
    let blen := bits (le l.desc 34 2) 0 13
    let addr := le l.desc 36 4
    let chk := w.sendCheck st c addr blen l.lctx
    if chk ≠ OK then ((w.sendDenied st addr blen l.lctx chk).started st e).complete st e chk
    else if msgLines blen ≤ w.chCredit st c then
      ((w.sendMsg st c addr blen).started st e).complete st e OK (w.rd (stnB st) KSTN_CH_REFUSE.mseq c + 256 * msgLines blen)
    else if bit (le l.desc 33 1) 0 then
      if w.stallOver st c then
        ((W.started { w with sta.stallT := w.sta.stallT.del (chKey st c) } st e).complete st e TIMEOUT).irqB st 10
      else if (w.jobAt st e).isSome then w.stall st c
      else ((w.setJob st e {}).inc (stnB st) KSTN_CH_STALL.stalls 1 c).stall st c
    else (((w.inc (stnB st) KSTN_CH_STALL.nocredit 1 c).stall st c).started st e).complete st e NOCREDIT := by
  unfold effSendDescriptor
  simp only [h, hbad, Bool.false_eq_true, if_false]

end

/-! ### READ and WRITE (R285) -/

/-- A READ's or WRITE's form is wrong (R185, R285). -/
def xferBad (d : List Byte) (wr : Bool) : Bool :=
  bits (le d 44 4) 27 5 != 0 || bits (le d 48 1) 5 3 != 0 || bits (le d 49 1) 2 6 != 0
    || bits (le d 50 2) 12 4 != 0 || le d 53 11 != 0 || xferLen d == 0 || 2 ^ 26 < xferLen d || bits (le d 48 1) 0 5 < 10
    || 30 < bits (le d 48 1) 0 5 || (!wr && le d 49 1 != 0)

/-- The windows of its context allow a transfer at both of its ends (R289). -/
def State.xferWin (s : State) (st : Nat) (l : LogEnt) (wr : Bool) : Bool :=
  s.winOk st l.lctx false (le l.desc 32 8) (xferLen l.desc) (!wr) wr false
    && s.winOk st l.lctx true (le l.desc 40 4) (xferLen l.desc) wr (!wr) false

/-- The status of a transfer's checks (R19). -/
def State.xferStatus (s : State) (st : Nat) (l : LogEnt) (wr : Bool) : Nat :=
  worst [if xferBad l.desc wr then BADOP
      else worst [(s.dstOf (le l.desc 32 8)).1, (s.dstOf (le l.desc 32 8 + xferLen l.desc - 1)).1],
    if !s.xferWin st l wr then DENIED else OK, if s.ctxFencedAt st l.lctx || s.fencedAll st then FENCED else OK]

theorem W.started_fc (w : W) (st e : Nat) : (w.started st e).fc = w.fc := by
  unfold W.started
  split
  · rfl
  · rfl

/-- A transfer that may start ends with the status of its checks, or begins. -/
theorem W.xfer_starts {w : W} {st e : Nat} {l : LogEnt} {wr : Bool} (h : w.mayStart st e (if wr then 4 else 3) = some l) :
    w.xfer st e wr = if w.xferStatus st l wr ≠ OK
      then ((w.started st e).winDenied st (w.xferStatus st l wr == DENIED)).complete st e (w.xferStatus st l wr)
      else ((w.started st e).setJob st e { left := xferLen l.desc, t0 := w.fc, tl := bits (le l.desc 48 1) 0 5 }).xferGo st e l wr := by
  obtain ⟨hl, hstate, -⟩ := State.mayStart_some h
  have hfc := w.started_fc st e
  unfold W.xfer
  simp only [hl, hstate, h]
  rw [if_neg (by simp), hfc]
  rfl

/-- One that has started goes on. -/
theorem W.xfer_goes {w : W} {st e : Nat} {l : LogEnt} {wr : Bool} (hl : w.logAt st e = some l) (hstate : l.lstate = 2)
    (hkind : le l.desc 0 1 = if wr then 4 else 3) : w.xfer st e wr = w.xferGo st e l wr := by
  unfold W.xfer
  simp only [hl]
  exact if_pos ⟨hstate, hkind⟩

/-- A transfer of no bytes is of a wrong form. -/
theorem State.xferStatus_of_empty (s : State) (st : Nat) {l : LogEnt} (wr : Bool) (hlen : xferLen l.desc = 0) :
    s.xferStatus st l wr = BADOP := by
  have hbad : xferBad l.desc wr = true := by simp [xferBad, hlen]
  rw [State.xferStatus, if_pos hbad]
  split
  · split
    · rfl
    · rfl
  · split
    · rfl
    · rfl

/-- One of the right form, at places of the memory map, in a context that is not fenced, is refused for its windows alone. -/
theorem State.xferStatus_of_form {s : State} {st : Nat} {l : LogEnt} {wr : Bool} (hbad : xferBad l.desc wr = false)
    (hfirst : (s.dstOf (le l.desc 32 8)).1 = OK) (hlast : (s.dstOf (le l.desc 32 8 + xferLen l.desc - 1)).1 = OK)
    (hctx : s.ctxFencedAt st l.lctx = false) (hall : s.fencedAll st = false) :
    s.xferStatus st l wr = if s.xferWin st l wr then OK else DENIED := by
  rw [State.xferStatus, hbad, hfirst, hlast, hctx, hall]
  cases s.xferWin st l wr
  · rfl
  · rfl

/-- The form of a READ, and of a WRITE, apart from its length. -/
theorem xferBad_eq_false {d : List Byte} {wr : Bool} (hlen : bits (le d 44 4) 27 5 = 0) (htl : bits (le d 48 1) 5 3 = 0)
    (hflag : bits (le d 49 1) 2 6 = 0) (hread : wr = false → le d 49 1 = 0) (hcc : bits (le d 50 2) 12 4 = 0)
    (hrest : le d 53 11 = 0) (h0 : xferLen d ≠ 0) (hmax : xferLen d ≤ 2 ^ 26) (hlo : 10 ≤ bits (le d 48 1) 0 5)
    (hhi : bits (le d 48 1) 0 5 ≤ 30) : xferBad d wr = false := by
  have hflags : (!wr && le d 49 1 != 0) = false := by
    cases wr
    · simp [hread rfl]
    · rfl
  simpa [xferBad, hlen, htl, hflag, hcc, hrest, h0, hflags, Nat.not_lt.mpr hlo, Nat.not_lt.mpr hhi] using hmax

theorem W.xfer_badop {w : W} {st e : Nat} {l : LogEnt} {wr : Bool} (h : w.mayStart st e (if wr then 4 else 3) = some l)
    (hlen : xferLen l.desc = 0) : w.xfer st e wr = (w.started st e).complete st e BADOP := by
  rw [W.xfer_starts h, w.xferStatus_of_empty st wr hlen, if_pos (by decide), show (BADOP == DENIED) = false by decide,
    W.winDenied_false]

section
variable {w : W} {st e : Nat} {l : LogEnt} {wr : Bool} (h : w.mayStart st e (if wr then 4 else 3) = some l)
  (hbad : xferBad l.desc wr = false) (hfirst : (w.dstOf (le l.desc 32 8)).1 = OK)
  (hlast : (w.dstOf (le l.desc 32 8 + xferLen l.desc - 1)).1 = OK) (hctx : w.ctxFencedAt st l.lctx = false)
  (hall : w.fencedAll st = false)
include h hbad hfirst hlast hctx hall

theorem W.xfer_denied (hwin : w.xferWin st l wr = false) :
    w.xfer st e wr = ((w.started st e).winDenied st true).complete st e DENIED := by
  have hst : w.xferStatus st l wr = DENIED :=
    (State.xferStatus_of_form hbad hfirst hlast hctx hall).trans (if_neg (by simp [hwin]))
  rw [W.xfer_starts h, hst, if_pos (by decide)]
  rfl

theorem W.xfer_begins (hwin : w.xferWin st l wr = true) : w.xfer st e wr =
    ((w.started st e).setJob st e { left := xferLen l.desc, t0 := w.fc, tl := bits (le l.desc 48 1) 0 5 }).xferGo st e l wr := by
  have hst : w.xferStatus st l wr = OK := (State.xferStatus_of_form hbad hfirst hlast hctx hall).trans (if_pos hwin)
  rw [W.xfer_starts h, hst, if_neg (by simp)]

end

/-! ### FENCE (R307) -/

/-- The form of a FENCE, and a context that is not fenced. -/
theorem effFenceDescriptor_passes {w : W} {st e : Nat} {l : LogEnt} {j : Job} (h : w.mayStart st e 5 = some l)
    (hj : w.jobAt st e = some j) (hflag : bits (le l.desc 32 1) 1 7 = 0) (htl : bits (le l.desc 33 1) 5 3 = 0)
    (hrest : le l.desc 34 30 = 0) (hlo : 10 ≤ bits (le l.desc 33 1) 0 5) (hhi : bits (le l.desc 33 1) 0 5 ≤ 30)
    (hctx : w.ctxFencedAt st l.lctx = false) : effFenceDescriptor st e w =
      if w.writesOut st j.a j.done (some l.lctx) (bit (le l.desc 32 1) 0) then
        (if j.tl = 0 then w.setJob st e { j with t0 := w.fc, tl := bits (le l.desc 33 1) 0 5 } else w)
      else (w.started st e).complete st e OK := by
  unfold effFenceDescriptor
  simp only [h, hj]
  refine if_neg (not_not.mpr (firstOf_none ?_))
  simp [hflag, htl, hrest, hctx, Nat.not_lt.mpr hlo, Nat.not_lt.mpr hhi]

/-- Settles O33, a clause for each kind of descriptor and each way it can go. -/
theorem descriptorsAct : Obligations.DescriptorsAct := by
  refine ⟨?_, ?_, ?_, ?_, ?_, ?_, ?_, ?_, ?_, ?_, ?_, ?_, ?_, ?_, ?_, ?_, ?_⟩
  · intro s st q hr hq
    exact descriptorFetch_logs hr hq
  · intro s st e l hr h hctx
    exact run_eq hr ((effNopDescriptor_nop h).trans (by rw [hctx]; rfl))
  · intro s st e l hr h hctx
    exact run_eq hr ((effNopDescriptor_nop h).trans (by rw [hctx]; rfl))
  · intro s st e l hr hl hstate hkind hfirst
    exact run_eq hr (effNopDescriptor_reserved hl hstate hkind hfirst)
  · rintro s st e l c blen addr hr h rfl rfl rfl hbad hchk hcredit
    exact run_eq hr ((effSendDescriptor_checked h hbad).trans ((if_neg (not_not.mpr hchk)).trans (if_pos hcredit)))
  · rintro s st e l c blen addr hr h rfl rfl rfl hbad hchk hcredit hwait
    exact run_eq hr ((effSendDescriptor_checked h hbad).trans
      ((if_neg (not_not.mpr hchk)).trans ((if_neg (Nat.not_le.mpr hcredit)).trans (if_neg (by simp [hwait])))))
  · rintro s st e l c blen addr hr h rfl rfl rfl hbad hchk
    exact run_eq hr ((effSendDescriptor_checked h hbad).trans (if_pos hchk))
  · rintro s st e l c blen addr hr h rfl rfl rfl hbad hchk hcredit hwait
    have heff := (effSendDescriptor_checked (w := s.w0) h hbad).trans
      ((if_neg (not_not.mpr hchk)).trans ((if_neg (Nat.not_le.mpr hcredit)).trans (if_pos hwait)))
    refine ⟨fun hover hjob => ?_, fun hover hjob => ?_, fun hover => ?_⟩
    · exact run_eq hr (heff.trans ((if_neg (by simp [hover])).trans (if_neg (by simp [hjob]))))
    · exact run_eq hr (heff.trans ((if_neg (by simp [hover])).trans (if_pos hjob)))
    · exact run_eq hr (heff.trans (if_pos hover))
  · intro s st e l hr h hbad
    exact run_eq hr (effSendDescriptor_bad h hbad)
  · intro s st e l hr hlen
    exact ⟨fun h => run_eq hr (W.xfer_badop (wr := false) h hlen), fun h => run_eq hr (W.xfer_badop (wr := true) h hlen)⟩
  · intro s st e l hr hl hstate
    exact ⟨fun hkind => run_eq hr (W.xfer_goes (wr := false) hl hstate hkind),
      fun hkind => run_eq hr (W.xfer_goes (wr := true) hl hstate hkind)⟩
  · rintro s st e l ga sa len tl hr h rfl rfl rfl rfl hlen htl hflag hcc hrest h0 hmax hlo hhi hfirst hlast hwin hctx hall
    have hbad := xferBad_eq_false (wr := false) hlen htl (by rw [hflag]; rfl) (fun _ => hflag) hcc hrest h0 hmax hlo hhi
    exact run_eq hr (W.xfer_denied (w := s.w0) h hbad hfirst hlast hctx hall (Bool.and_eq_false_iff.mpr hwin))
  · rintro s st e l ga sa len tl hr h rfl rfl rfl rfl hlen htl hflag hcc hrest h0 hmax hlo hhi hfirst hlast hga hsa hctx hall
    have hbad := xferBad_eq_false (wr := false) hlen htl (by rw [hflag]; rfl) (fun _ => hflag) hcc hrest h0 hmax hlo hhi
    exact run_eq hr (W.xfer_begins (w := s.w0) h hbad hfirst hlast hctx hall (Bool.and_eq_true_iff.mpr ⟨hga, hsa⟩))
  · rintro s st e l ga sa len tl hr h rfl rfl rfl rfl hlen htl hflag hcc hrest h0 hmax hlo hhi hfirst hlast hwin hctx hall
    have hbad := xferBad_eq_false (wr := true) hlen htl hflag (fun h => absurd h (by decide)) hcc hrest h0 hmax hlo hhi
    exact run_eq hr (W.xfer_denied (w := s.w0) h hbad hfirst hlast hctx hall (Bool.and_eq_false_iff.mpr hwin))
  · rintro s st e l ga sa len tl hr h rfl rfl rfl rfl hlen htl hflag hcc hrest h0 hmax hlo hhi hfirst hlast hga hsa hctx hall
    have hbad := xferBad_eq_false (wr := true) hlen htl hflag (fun h => absurd h (by decide)) hcc hrest h0 hmax hlo hhi
    exact run_eq hr (W.xfer_begins (w := s.w0) h hbad hfirst hlast hctx hall (Bool.and_eq_true_iff.mpr ⟨hga, hsa⟩))
  · intro s st e l j hr h hj hflag htl hrest hlo hhi hctx hout
    exact run_eq hr ((effFenceDescriptor_passes h hj hflag htl hrest hlo hhi hctx).trans (if_neg (by simp [hout])))
  · intro s st e l j hr h hj hflag htl hrest hlo hhi hctx hout
    exact run_eq hr ((effFenceDescriptor_passes h hj hflag htl hrest hlo hhi hctx).trans (if_pos hout))

end Sys2Proof.Machine
end

section
/-! PROOFS. Direct sends (R201, R202, R206). -/

namespace Sys2Proof.Machine

/-! ### Registers of a station -/

/-- Two fields of a station's window that stand at other places hold no common value, whatever their entries. -/
theorem W.rd_wr_apart (w : W) (b v i j : Nat) {f g : Fld} (hf : f.lsb < 32 ∧ f.off < 2 ^ 26) (hg : g.lsb < 32 ∧ g.off < 2 ^ 26)
    (h : f.off ≠ g.off ∨ f.lsb ≠ g.lsb) : (w.wr b f v i).rd b g j = w.rd b g j := by
  obtain ⟨hfl, hfo⟩ := hf
  obtain ⟨hgl, hgo⟩ := hg
  refine W.rd_wr_ne _ _ _ _ _ _ _ _ ?_
  unfold Fld.key
  omega

theorem W.rd_inc_apart (w : W) (b k i j : Nat) {f g : Fld} (hf : f.lsb < 32 ∧ f.off < 2 ^ 26) (hg : g.lsb < 32 ∧ g.off < 2 ^ 26)
    (h : f.off ≠ g.off ∨ f.lsb ≠ g.lsb) : (w.inc b f k i).rd b g j = w.rd b g j := W.rd_wr_apart _ _ _ _ _ hf hg h

/-! ### Pieces of a send -/

/-- A state's stall timers apart, a channel's stall timer starting changes nothing. -/
theorem W.stall_held (w : W) (st c : Nat) : ∃ x, (w.stall st c).held = (w.stores, w.net, { w.sta with stallT := x }) := by
  unfold W.stall
  split
  · exact ⟨_, rfl⟩
  · exact ⟨_, rfl⟩

@[simp] theorem W.winDenied_held (w : W) (st : Nat) (b : Bool) : (w.winDenied st b).held = w.held := by
  unfold W.winDenied
  split
  · exact (W.irqB_held ..).trans (W.inc_held ..)
  · rfl

@[simp] theorem W.sendDenied_held (w : W) (st addr blen ctx chk : Nat) : (w.sendDenied st addr blen ctx chk).held = w.held :=
  W.winDenied_held ..

/-- A refusal for a window counts in the station's window counter alone. -/
theorem W.sendDenied_rd (w : W) (st addr blen ctx chk j : Nat) {g : Fld} (hg : g.lsb < 32 ∧ g.off < 2 ^ 26)
    (h : KSTN_MEM_EVT.win_denied.off ≠ g.off ∨ KSTN_MEM_EVT.win_denied.lsb ≠ g.lsb) :
    (w.sendDenied st addr blen ctx chk).rd (stnB st) g j = w.rd (stnB st) g j := by
  unfold W.sendDenied W.winDenied
  split
  · rw [W.irqB_rd, W.rd_inc_apart _ _ _ _ _ (by decide) hg h]
  · rfl

/-- An acknowledgement stands at the station, and no send is blocked there. -/
theorem W.sndAck_held {w : W} {l : List Store} {n : Net} {a : Sta} (h : w.held = (l, n, a)) (st status : Nat) :
    (w.sndAck st status).held = (l, n, { a with sndAck := a.sndAck.put st status, blocked := a.blocked.del st }) :=
  congrArg (fun x => (x.1, x.2.1, { x.2.2 with sndAck := x.2.2.sndAck.put st status, blocked := x.2.2.blocked.del st })) h

/-! ### The decision (R201) -/

/-- The core sends from a handler, or not. -/
def W.inHandler (w : W) (st : Nat) (h : Bool) : W := { w with sta.inHandler := Tbl.set false w.sta.inHandler st h }

/-- The channel's stall timer has run out: the send ends, and the timer clears. -/
def W.stallEnds (w : W) (st c : Nat) : W := { (w.sndAck st TIMEOUT).irqB st 10 with sta.stallT := w.sta.stallT.del (chKey st c) }

theorem W.stallEnds_held (w : W) (st c : Nat) : (w.stallEnds st c).held = (w.stores, w.net, { w.sta with
    sndAck := w.sta.sndAck.put st TIMEOUT, blocked := w.sta.blocked.del st, stallT := w.sta.stallT.del (chKey st c) }) :=
  congrArg (fun x => (x.1, x.2.1, { x.2.2 with stallT := w.sta.stallT.del (chKey st c) })) (W.irqB_held (w.sndAck st TIMEOUT) st 10)

/-- The send waits for credit, and is not acknowledged. -/
def W.blocks (w : W) (st : Nat) (d : Send) : W :=
  { w.wr (stnB st) KSTN_CH_CRED.blocked 1 d.chan with
    sta.blocked := w.sta.blocked.put st d, sta.sndAck := w.sta.sndAck.del st }

theorem W.blocks_held {w : W} {l : List Store} {n : Net} {a : Sta} (h : w.held = (l, n, a)) (st : Nat) (d : Send) :
    (w.blocks st d).held = (l, n, { a with blocked := a.blocked.put st d, sndAck := a.sndAck.del st }) :=
  congrArg (fun x => (x.1, x.2.1, { x.2.2 with blocked := x.2.2.blocked.put st d, sndAck := x.2.2.sndAck.del st })) h

theorem effDirectSend_refused {w : W} {st c addr blen ctx : Nat} {h : Bool} (hchk : w.sendCheck st c addr blen ctx ≠ OK) :
    effDirectSend st c addr blen ctx h w = ((w.inHandler st h).sendDenied st addr blen ctx (w.sendCheck st c addr blen ctx)).sndAck st
      (w.sendCheck st c addr blen ctx) := if_pos hchk

section
variable {w : W} {st c addr blen ctx : Nat} {h : Bool} (hchk : w.sendCheck st c addr blen ctx = OK)
include hchk

theorem effDirectSend_sent (hcredit : msgLines blen ≤ w.chCredit st c) :
    effDirectSend st c addr blen ctx h w = ((w.inHandler st h).sendMsg st c addr blen).sndAck st OK :=
  (if_neg (not_not.mpr hchk)).trans (if_pos hcredit)

variable (hcredit : w.chCredit st c < msgLines blen)
include hcredit

theorem effDirectSend_handler : effDirectSend st c addr blen ctx true w =
    (((w.inHandler st true).inc (stnB st) KSTN_CH_STALL.nocredit 1 c).stall st c).sndAck st NOCREDIT :=
  (if_neg (not_not.mpr hchk)).trans ((if_neg (Nat.not_le.mpr hcredit)).trans (if_pos rfl))

theorem effDirectSend_late (hover : w.stallOver st c = true) :
    effDirectSend st c addr blen ctx false w = (w.inHandler st false).stallEnds st c :=
  (if_neg (not_not.mpr hchk)).trans ((if_neg (Nat.not_le.mpr hcredit)).trans ((if_neg (by decide)).trans (if_pos hover)))

theorem effDirectSend_blocked (hover : w.stallOver st c = false) : effDirectSend st c addr blen ctx false w =
    (((w.inHandler st false).inc (stnB st) KSTN_CH_STALL.stalls 1 c).stall st c).blocks st
      { chan := c, addr := addr, blen := blen, ctx := ctx } :=
  (if_neg (not_not.mpr hchk)).trans ((if_neg (Nat.not_le.mpr hcredit)).trans
    ((if_neg (by decide)).trans (if_neg (by rw [Bool.not_eq_true]; exact hover))))

end

section
variable {s : State} {st c addr blen ctx : Nat} (hr : s.inReset = false) (hchk : s.sendCheck st c addr blen ctx = OK)
  (hcredit : s.chCredit st c < msgLines blen)
include hr hchk hcredit

theorem directSend_handler : ∃ t, exec (.directSend st c addr blen ctx true) s = .next t ∧ t.sta.sndAck.find st = some NOCREDIT
    ∧ t.sta.blocked.find st = none ∧ t.mem = s.mem ∧ t.net = s.net := by
  obtain ⟨x, hx⟩ := ((s.w0.inHandler st true).inc (stnB st) KSTN_CH_STALL.nocredit 1 c).stall_held st c
  obtain ⟨hmem, hnet, hsta⟩ := State.after_held (W.sndAck_held hx st NOCREDIT)
  refine ⟨_, run_const hr (effDirectSend_handler hchk hcredit), ?_, ?_, hmem, hnet⟩
  · rw [hsta]
    exact Tbl.find_put_self ..
  · rw [hsta]
    exact Tbl.find_del_self ..

theorem directSend_late (hover : s.stallOver st c = true) : ∃ t, exec (.directSend st c addr blen ctx false) s = .next t
    ∧ t.sta.sndAck.find st = some TIMEOUT ∧ t.sta.blocked.find st = none ∧ t.sta.stallT.find (chKey st c) = none
    ∧ t.mem = s.mem ∧ t.net = s.net := by
  obtain ⟨hmem, hnet, hsta⟩ := State.after_held ((s.w0.inHandler st false).stallEnds_held st c)
  refine ⟨_, run_const hr (effDirectSend_late hchk hcredit hover), ?_, ?_, ?_, hmem, hnet⟩
  · rw [hsta]
    exact Tbl.find_put_self ..
  · rw [hsta]
    exact Tbl.find_del_self ..
  · rw [hsta]
    exact Tbl.find_del_self ..

theorem directSend_blocked (hover : s.stallOver st c = false) : ∃ t, exec (.directSend st c addr blen ctx false) s = .next t
    ∧ t.sta.blocked.find st = some { chan := c, addr := addr, blen := blen, ctx := ctx } ∧ t.sta.sndAck.find st = none
    ∧ t.mem = s.mem ∧ t.net = s.net := by
  obtain ⟨x, hx⟩ := ((s.w0.inHandler st false).inc (stnB st) KSTN_CH_STALL.stalls 1 c).stall_held st c
  obtain ⟨hmem, hnet, hsta⟩ := State.after_held (W.blocks_held hx st { chan := c, addr := addr, blen := blen, ctx := ctx })
  refine ⟨_, run_const hr (effDirectSend_blocked hchk hcredit hover), ?_, ?_, hmem, hnet⟩
  · rw [hsta]
    exact Tbl.find_put_self ..
  · rw [hsta]
    exact Tbl.find_del_self ..

end

/-! ### A blocked send (R201, R206) -/

/-- A blocked send is decided again. -/
theorem effSendUnblock_decides {w : W} {st : Nat} {d : Send} (hd : w.sta.blocked.find st = some d) : effSendUnblock st w =
    let v := w.wr (stnB st) KSTN_CH_CRED.blocked 0 d.chan
    let chk := w.sendCheck st d.chan d.addr d.blen d.ctx
    if chk ≠ OK then (v.sendDenied st d.addr d.blen d.ctx chk).sndAck st chk
    else if msgLines d.blen ≤ w.chCredit st d.chan then (v.sendMsg st d.chan d.addr d.blen).sndAck st OK
    else w := by
  unfold effSendUnblock
  simp only [hd]

theorem rd_unblocked (w : W) (st c : Nat) : (w.wr (stnB st) KSTN_CH_CRED.blocked 0 c).rd (stnB st) KSTN_CH_CRED.blocked c = 0 :=
  W.rd_wr_val _ _ _ _ _ _ rfl

theorem sendUnblock_ends {s : State} {st : Nat} {d : Send} (hr : s.inReset = false) (hd : s.sta.blocked.find st = some d)
    (hchk : s.sendCheck st d.chan d.addr d.blen d.ctx ≠ OK) :
    ∃ t, exec (.sendUnblock st) s = .next t ∧ t.sta.blocked.find st = none
      ∧ t.sta.sndAck.find st = some (s.sendCheck st d.chan d.addr d.blen d.ctx) ∧ t.rd (stnB st) KSTN_CH_CRED.blocked d.chan = 0
      ∧ t.mem = s.mem ∧ t.net = s.net := by
  have hdenied := (s.w0.wr (stnB st) KSTN_CH_CRED.blocked 0 d.chan).sendDenied_held st d.addr d.blen d.ctx
    (s.sendCheck st d.chan d.addr d.blen d.ctx)
  obtain ⟨hmem, hnet, hsta⟩ := State.after_held (W.sndAck_held hdenied st (s.sendCheck st d.chan d.addr d.blen d.ctx))
  refine ⟨_, run_const hr ((effSendUnblock_decides (w := s.w0) hd).trans (if_pos hchk)), ?_, ?_, ?_, hmem, hnet⟩
  · exact (congrArg (fun a : Sta => a.blocked.find st) hsta).trans (Tbl.find_del_self ..)
  · exact (congrArg (fun a : Sta => a.sndAck.find st) hsta).trans (Tbl.find_put_self ..)
  · exact (W.sendDenied_rd _ _ _ _ _ _ _ (by decide) (by decide)).trans (rd_unblocked ..)

theorem sendWithdraw_unblocks {s : State} {st : Nat} {d : Send} (hr : s.inReset = false) (hd : s.sta.blocked.find st = some d) :
    ∃ t, exec (.sendWithdraw st) s = .next t ∧ t.sta.blocked.find st = none ∧ t.sta.sndAck = s.sta.sndAck
      ∧ t.rd (stnB st) KSTN_CH_CRED.blocked d.chan = 0 ∧ t.mem = s.mem ∧ t.net = s.net := by
  have heff : effSendWithdraw st s.w0 =
      { s.w0.wr (stnB st) KSTN_CH_CRED.blocked 0 d.chan with sta.blocked := s.sta.blocked.del st } := by
    unfold effSendWithdraw
    simp only [State.w0_toState, hd]
  exact ⟨_, run_const hr heff, Tbl.find_del_self .., rfl, rd_unblocked s.w0 st d.chan, rfl, rfl⟩

/-! ### The stall timer (R202) -/

/-- The blocked send of a station is one on channel `c`. -/
def State.blockedOn (s : State) (st c : Nat) : Bool :=
  match s.sta.blocked.find st with
  | some d => d.chan == c
  | none => false

theorem State.blockedOn_of {s : State} {st : Nat} {d : Send} (hd : s.sta.blocked.find st = some d) : s.blockedOn st d.chan = true := by
  unfold State.blockedOn
  simp only [hd, beq_self_eq_true]

theorem State.blockedOn_none {s : State} {st c : Nat} (h : ∀ d, s.sta.blocked.find st = some d → d.chan ≠ c) :
    s.blockedOn st c = false := by
  unfold State.blockedOn
  split
  · rename_i d hd
    simp [h d hd]
  · rfl

/-- A waiting SEND ends (R202). -/
def W.sendLate (w : W) (st e : Nat) : W := ((w.started st e).complete st e TIMEOUT).irqB st 10

/-- The timer of a channel is clear. -/
def W.stallClear (w : W) (st c : Nat) : W := { w with sta.stallT := w.sta.stallT.del (chKey st c) }

/-- The blocked send of a channel ends (R202). -/
def W.blockedLate (w : W) (st c : Nat) : W := ((w.wr (stnB st) KSTN_CH_CRED.blocked 0 c).sndAck st TIMEOUT).irqB st 10

/-- The timer of a channel ends what waits on it, and stands where nothing does. -/
theorem effSendStallTimeout_eq (w : W) (st c : Nat) : effSendStallTimeout st c w =
    if !w.stallOver st c ∨ (w.waitingSends st c = [] ∧ !w.blockedOn st c) then w else
    (if w.blockedOn st c then (w.stallClear st c).blockedLate st c else w.stallClear st c).each
      (w.waitingSends st c) (fun w e => w.sendLate st e) := by
  rfl

section
variable {w : W} {st c : Nat}

theorem effSendStallTimeout_blocked (hover : w.stallOver st c = true) (hdirect : w.blockedOn st c = true) :
    effSendStallTimeout st c w
      = ((w.stallClear st c).blockedLate st c).each (w.waitingSends st c) (fun w e => w.sendLate st e) := by
  rw [effSendStallTimeout_eq, if_neg (by simp [hover, hdirect]), if_pos hdirect]

theorem effSendStallTimeout_waiting (hover : w.stallOver st c = true) (hdirect : w.blockedOn st c = false)
    (hwait : w.waitingSends st c ≠ []) :
    effSendStallTimeout st c w = (w.stallClear st c).each (w.waitingSends st c) (fun w e => w.sendLate st e) := by
  rw [effSendStallTimeout_eq, if_neg (by simp [hover, hwait]), if_neg (by simp [hdirect])]

theorem effSendStallTimeout_stands (hdirect : w.blockedOn st c = false) (hwait : w.waitingSends st c = []) :
    effSendStallTimeout st c w = w := by
  rw [effSendStallTimeout_eq, if_pos (.inr ⟨hwait, by simp [hdirect]⟩)]

end

theorem W.sendLate_noLog (w : W) (st e : Nat) : (w.sendLate st e).noLog = w.noLog :=
  (W.noLog_of_bare (W.irqB_bare ..)).trans ((W.complete_noLog ..).trans (W.started_noLog ..))

theorem sendStallTimeout_ends {s : State} {st : Nat} {d : Send} (hr : s.inReset = false) (hover : s.stallOver st d.chan = true)
    (hd : s.sta.blocked.find st = some d) :
    ∃ t, exec (.sendStallTimeout st d.chan) s = .next t ∧ t.sta.stallT.find (chKey st d.chan) = none ∧ t.sta.blocked.find st = none
      ∧ t.sta.sndAck.find st = some TIMEOUT ∧ t.net = s.net := by
  have heff := effSendStallTimeout_blocked (w := s.w0) hover (State.blockedOn_of hd)
  have hfirst : ((s.w0.stallClear st d.chan).blockedLate st d.chan).noLog = (((s.w0.stallClear st d.chan).wr (stnB st)
      KSTN_CH_CRED.blocked 0 d.chan).sndAck st TIMEOUT).noLog := W.noLog_of_bare (W.irqB_bare ..)
  have hkeep := W.each_inv (fun x => x.noLog = ((s.w0.stallClear st d.chan).blockedLate st d.chan).noLog)
    (s.w0.waitingSends st d.chan) (fun w e => w.sendLate st e) _ rfl fun _ _ _ h => (W.sendLate_noLog ..).trans h
  rw [← heff] at hkeep
  have hall := hkeep.trans hfirst
  have hsta : _ = _ := congrArg (fun x => x.2.2) hall
  refine ⟨_, run_up _ hr, ?_, ?_, ?_, congrArg Prod.fst hall⟩
  · exact (congrArg (fun a : Sta => a.stallT.find (chKey st d.chan)) hsta).trans (Tbl.find_del_self ..)
  · exact (congrArg (fun a : Sta => a.blocked.find st) hsta).trans (Tbl.find_del_self ..)
  · exact (congrArg (fun a : Sta => a.sndAck.find st) hsta).trans (Tbl.find_put_self ..)

/-- Settles O35, a clause for each event of a direct send and each way it can go. -/
theorem sendsAct : Obligations.SendsAct := by
  refine ⟨?_, ?_, ?_, ?_, ?_, ?_, ?_, ?_, ?_, ?_, ?_, ?_⟩
  · intro s st c addr blen ctx h hr hchk
    exact run_eq hr (effDirectSend_refused hchk)
  · intro s st c addr blen ctx h hr hchk hcredit
    exact run_eq hr (effDirectSend_sent hchk hcredit)
  · intro s st c addr blen ctx hr hchk hcredit
    exact directSend_handler hr hchk hcredit
  · intro s st c addr blen ctx hr hchk hcredit hover
    exact directSend_blocked hr hchk hcredit hover
  · intro s st c addr blen ctx hr hchk hcredit hover
    exact directSend_late hr hchk hcredit hover
  · intro s st d hr hd hchk hcredit
    exact run_eq (g := id) hr ((effSendUnblock_decides hd).trans
      ((if_neg (not_not.mpr hchk)).trans (if_neg (Nat.not_le.mpr hcredit))))
  · intro s st d hr hd hchk hcredit
    exact run_eq hr ((effSendUnblock_decides hd).trans ((if_neg (not_not.mpr hchk)).trans (if_pos hcredit)))
  · intro s st d hr hd hchk
    exact sendUnblock_ends hr hd hchk
  · intro s st d hr hd
    exact sendWithdraw_unblocks hr hd
  · rintro s st c d hr hover hd rfl
    exact sendStallTimeout_ends hr hover hd
  · intro s st c hr hover hdirect hwait
    exact run_eq hr (effSendStallTimeout_waiting hover (State.blockedOn_none hdirect) hwait)
  · intro s st c hr hdirect hwait
    exact run_eq (g := id) hr (effSendStallTimeout_stands (State.blockedOn_none hdirect) hwait)

end Sys2Proof.Machine
end

section
/-! PROOFS. Messages, credits and dispatch (R193 to R200, R204). -/

namespace Sys2Proof.Machine

/-! ### An arriving message (R195, R198) -/

/-- The status that a station has for an arriving message (R19, R198). -/
def State.msgStatus (s : State) (st : Nat) (p : Packet) : Nat :=
  let r := p.aux % 256
  let m := hdLines p.data
  firstOf [
    (p.aux / 256 != 0 || s.rd (stnB st) KSTN_RING_CFG.max_lines r < m || p.len != 16 + hdBlen p.data || m == 0, BADOP),
    (!s.ringOn st r || !s.ringAddrOk st r p.addr || !s.owns 3 st r p.ctx
      || (s.slotOf st r (hdPkg p.data) (hdSrc p.data) (hdChan p.data)).isNone, DENIED),
    (s.ctxFencedAt st p.ctx, FENCED)]

/-- The message at a station's input is refused with its status, or placed. -/
theorem effMessageReceive_takes {s : State} {st : Nat} {p : Packet} {w : W} (ht : s.Takes (uSt st) 0x20 p w) :
    effMessageReceive st s.w0 = if w.msgStatus st p ≠ OK then w.refuseMsg st p (msgLines (p.len - 16)) (w.msgStatus st p)
      else (w.place st (p.aux % 256) (p.data.take 16) (p.data.drop 16) (hdLines p.data) p.bad
        ((w.slotOf st (p.aux % 256) (hdPkg p.data) (hdSrc p.data) (hdChan p.data)).getD 0)).iff p.ack
          (fun w => w.cmp (uSt st) p OK) := by
  unfold State.Takes at ht
  unfold effMessageReceive
  simp only [ht]
  rfl

/-- A ring's number takes eight bits. -/
theorem State.msgStatus_badop {s : State} {st : Nat} {p : Packet} (h : 256 ≤ p.aux) : s.msgStatus st p = BADOP := by
  have hne : p.aux / 256 ≠ 0 := by omega
  have hbad : (p.aux / 256 != 0) = true := by simp [hne]
  rw [State.msgStatus, hbad, Bool.true_or, Bool.true_or, Bool.true_or]
  exact firstOf_cons_true (by decide) (by simp [BADOP, DENIED, FENCED, statusPrec])

section
variable {s : State} {st : Nat} {p : Packet} (haux : p.aux < 256) (h0 : hdLines p.data ≠ 0)
  (hmax : hdLines p.data ≤ s.rd (stnB st) KSTN_RING_CFG.max_lines p.aux) (hlen : p.len = 16 + hdBlen p.data)
include haux h0 hmax hlen

/-- A message of the right form is refused for its ring, its sender, or its context alone. -/
theorem State.msgStatus_of_form : s.msgStatus st p = firstOf [
    (!s.ringOn st p.aux || !s.ringAddrOk st p.aux p.addr || !s.owns 3 st p.aux p.ctx
      || (s.slotOf st p.aux (hdPkg p.data) (hdSrc p.data) (hdChan p.data)).isNone, DENIED), (s.ctxFencedAt st p.ctx, FENCED)] := by
  have hdiv : p.aux / 256 = 0 := Nat.div_eq_of_lt haux
  have hform : (p.aux / 256 != 0 || s.rd (stnB st) KSTN_RING_CFG.max_lines p.aux < hdLines p.data || p.len != 16 + hdBlen p.data
      || hdLines p.data == 0) = false := by simp [hdiv, h0, hlen, Nat.not_lt.mpr hmax]
  rw [State.msgStatus, Nat.mod_eq_of_lt haux, hform, firstOf_cons_false]

theorem State.msgStatus_denied (h : s.ringOn st p.aux = false ∨ s.ringAddrOk st p.aux p.addr = false ∨ s.owns 3 st p.aux p.ctx = false
      ∨ s.slotOf st p.aux (hdPkg p.data) (hdSrc p.data) (hdChan p.data) = none) : s.msgStatus st p = DENIED := by
  have hden : (!s.ringOn st p.aux || !s.ringAddrOk st p.aux p.addr || !s.owns 3 st p.aux p.ctx
      || (s.slotOf st p.aux (hdPkg p.data) (hdSrc p.data) (hdChan p.data)).isNone) = true := by
    rcases h with h | h | h | h
    · simp [h]
    · simp [h]
    · simp [h]
    · simp [h]
  rw [State.msgStatus_of_form haux h0 hmax hlen, hden]
  exact firstOf_cons_true (by decide) (by simp [DENIED, FENCED, statusPrec])

theorem State.msgStatus_ok {i : Nat} (hon : s.ringOn st p.aux = true) (haddr : s.ringAddrOk st p.aux p.addr = true)
    (hown : s.owns 3 st p.aux p.ctx = true) (hslot : s.slotOf st p.aux (hdPkg p.data) (hdSrc p.data) (hdChan p.data) = some i)
    (hctx : s.ctxFencedAt st p.ctx = false) : s.msgStatus st p = OK := by
  rw [State.msgStatus_of_form haux h0 hmax hlen]
  exact firstOf_none (by simp [hon, haddr, hown, hslot, hctx])

end

/-! ### Messages of `in_mem` rings (R197) -/

theorem effInMemMessageWritten_marks {w : W} {st r : Nat} {m : Msg}
    (hm : (w.msgsOf st r).find? (fun m => !m.written && m.writes == 0) = some m) (hmem : w.rd (stnB st) KSTN_RING_CFG.in_mem r = 1) :
    effInMemMessageWritten st r w = w.msgWritten st r m.seq := by
  unfold effInMemMessageWritten
  simp only [hm]
  exact if_pos hmem

section
variable {w v : W} {st r k : Nat} {q : Req} {p : Packet}
  (hq : w.net.req.find? (fun e => e.1 / 2 ^ 20 == uSt st && e.2.own == .ringPop r) = some (k, q))
  (ht : w.takeAny (uSt st) (fun p => (p.op == 0x03 || p.op == 0x60) && p.ref == k % 2 ^ 20 && p.ans == 2) = some (p, v))
include hq ht

/-- Good data of a pop's READ make the pop take effect, and the next one starts. -/
theorem effInMemPopData_pops {x : W} (hop : p.op = 0x03) (hstatus : p.status = OK)
    (hx : (v.delReq (uSt st) (k % 2 ^ 20)).popOne st r p.data = some x) : effInMemPopData st r w =
    let l := Tbl.get [] (v.delReq (uSt st) (k % 2 ^ 20)).sta.pops (chKey st r)
    x.popNext st r (if l.headD 0 ≤ 1 then l.drop 1 else (l.headD 0 - 1) :: l.drop 1) := by
  have hgood : ¬ (p.op ≠ 0x03 ∨ p.status ≠ OK) := by simp [hop, hstatus]
  unfold effInMemPopData
  simp only [hq, ht, if_neg hgood, hx]

/-- Any other answer, or data that no pop takes, refuse what remains of the write. -/
theorem effInMemPopData_refuses
    (h : p.op ≠ 0x03 ∨ p.status ≠ OK ∨ (v.delReq (uSt st) (k % 2 ^ 20)).popOne st r p.data = none) : effInMemPopData st r w =
    ((v.delReq (uSt st) (k % 2 ^ 20)).popRefused st r).popNext st r
      ((Tbl.get [] (v.delReq (uSt st) (k % 2 ^ 20)).sta.pops (chKey st r)).drop 1) := by
  unfold effInMemPopData
  by_cases hbad : p.op ≠ 0x03 ∨ p.status ≠ OK
  · simp only [hq, ht, if_pos hbad]
  · have hnone := (or_assoc.mpr h).resolve_left hbad
    simp only [hq, ht, if_neg hbad, hnone]

end

/-! ### Credits (R193, R194) -/

section
variable {s : State} {st c : Nat} {p : Packet} {w : W} (ht : s.Takes (uSt st) 0x21 p w) (hc : c = p.tag % 256)
include ht hc

theorem effCreditReceive_off (hoff : w.rd (stnB st) KSTN_CH_CFG.enable c = 0) :
    effCreditReceive st s.w0 = w.inc (stnB st) KSTN_RING_EVT.crd_drop := by
  subst hc
  unfold State.Takes at ht
  unfold effCreditReceive
  simp only [ht]
  exact if_pos hoff

variable (hon : w.rd (stnB st) KSTN_CH_CFG.enable c ≠ 0) (hone : w.rd (stnB st) KSTN_CH_CFG.herd_mode c ≠ 1)
include hon hone

/-- With `resync` a CREDIT sets a unicast channel's count. -/
theorem effCreditReceive_resync (hbit : bit p.tag 8 = true) : effCreditReceive st s.w0 =
    { (w.keepCredit st c).wr (stnB st) KSTN_CH_CRED.credit p.aux c with
      sta.resync := (w.keepCredit st c).sta.resync.del (chKey st c) } := by
  subst hc
  unfold State.Takes at ht
  unfold effCreditReceive
  simp only [ht, if_neg hon, hbit, if_true]
  exact if_pos (by simp [hone])

/-- Without it, it counts once the answer to the CRESYNC has come. -/
theorem effCreditReceive_counts (hbit : bit p.tag 8 = false) (hknown : Tbl.get false w.sta.resync (chKey st c) = false) :
    effCreditReceive st s.w0 = w.addCredit st c p.src p.aux := by
  subst hc
  unfold State.Takes at ht
  unfold effCreditReceive
  simp only [ht, if_neg hon, hbit, hknown, Bool.false_eq_true, if_false, and_false]
  exact if_neg (by simp [hone])

theorem effCreditReceive_waits (hbit : bit p.tag 8 = false) (hwait : Tbl.get false w.sta.resync (chKey st c) = true) :
    effCreditReceive st s.w0 = w.inc (stnB st) KSTN_RING_EVT.crd_drop := by
  subst hc
  unfold State.Takes at ht
  unfold effCreditReceive
  simp only [ht, if_neg hon, hbit, Bool.false_eq_true, if_false]
  exact if_pos ⟨by simp [hone], hwait⟩

theorem creditReceive_resyncs (hr : s.inReset = false) (hbit : bit p.tag 8 = true) :
    ∃ t, exec (.creditReceive st) s = .next t ∧ t.rd (stnB st) KSTN_CH_CRED.credit c = p.aux % 2 ^ KSTN_CH_CRED.credit.width
      ∧ t.sta.resync.find (chKey st c) = none :=
  ⟨_, run_const hr (effCreditReceive_resync ht hc hon hone hbit), W.rd_wr_self (w.keepCredit st c) .., Tbl.find_del_self ..⟩

end

/-! ### CRESYNC (R194) -/

section
variable {s : State} {st r : Nat} {p : Packet} {w : W} (ht : s.Takes (uSt st) 0x22 p w) (hring : r = p.aux % 256)
include ht hring

theorem effCresyncReceive_answers {i : Nat} (hslot : w.slotOf st r (hdPkg p.data) (hdSrc p.data) (hdChan p.data) = some i)
    (hon : w.ringOn st r = true) : effCresyncReceive st s.w0 =
    let v : W := { (w.wr (stnB st) KSTN_RING_SLOT2.s_pend 0 (r * 16 + i)) with sta.pendT := w.sta.pendT.del (slotKey st r i) }
    v.sendCredit st r i (v.rd (stnB st) KSTN_RING_SLOT2.s_share (r * 16 + i) - Tbl.get 0 v.sta.placed (slotKey st r i)) true
      (hdPkg p.data) (hdSrc p.data) (hdChan p.data) := by
  subst hring
  unfold State.Takes at ht
  unfold effCresyncReceive
  simp only [ht, hslot]
  exact if_pos hon

theorem effCresyncReceive_refuses
    (h : w.slotOf st r (hdPkg p.data) (hdSrc p.data) (hdChan p.data) = none ∨ w.ringOn st r = false) : effCresyncReceive st s.w0 =
    (w.sendCredit st r 0 0 true (hdPkg p.data) (hdSrc p.data) (hdChan p.data)).inc (stnB st) KSTN_RING_EVT.refused_in 1 r := by
  subst hring
  unfold State.Takes at ht
  unfold effCresyncReceive
  simp only [ht]
  split
  · rename_i i hslot
    exact if_neg (by rw [h.resolve_left (by simp [hslot])]; decide)
  · rfl

end

/-! ### Dispatch (R199, R200) -/

/-- A dispatch record of ring `r` stands on offer. -/
def W.offers (w : W) (st r : Nat) (m : Msg) : W :=
  { w with sta.offer := w.sta.offer.put st { ring := r, seq := m.seq, bytes := dispRecord r (w.rd (stnB st) KSTN_RING_CFG.cls r) m } }

theorem filter_range_only {n r : Nat} {f : Nat → Bool} (hr : r < n) (hf : f r = true) (honly : ∀ x, x ≠ r → f x = false) :
    (List.range n).filter f = [r] := by
  have hf' : f = (· == r) := by
    funext x
    by_cases h : x = r
    · simp [h, hf]
    · simp [h, honly x h]
  rw [hf', List.filter_beq, List.count_eq_one_of_mem List.nodup_range (List.mem_range.mpr hr)]
  rfl

/-- A round of all rings, from any one on, comes to ring `r`. -/
theorem mem_round {r : Nat} (last : Nat) (hr : r < 256) : r ∈ (List.range 256).map (fun i => (last + 1 + i) % 256) :=
  List.mem_map.mpr ⟨(r + 256 - (last + 1) % 256) % 256, List.mem_range.mpr (Nat.mod_lt _ (by decide)), by omega⟩

/-- Only ring `r` has a message to offer: the round comes to it, whatever its class. -/
theorem effDispatchOffer_only {w : W} {st r : Nat} {m : Msg} (hfree : w.sta.offer.find st = none) (hall : w.fencedAll st = false)
    (hr : r < 256) (hm : w.dispMsg st r = some m) (honly : ∀ x, x ≠ r → w.dispMsg st x = none) :
    effDispatchOffer st w = w.offers st r m := by
  have hrings : (List.range 256).filter (fun x => (w.dispMsg st x).isSome) = [r] :=
    filter_range_only hr (by rw [hm]; rfl) fun x hx => by rw [honly x hx]; rfl
  unfold effDispatchOffer
  rw [if_neg (by simp [hfree, hall])]
  extract_lets rings cls top last order
  have htop : top = w.rd (stnB st) KSTN_RING_CFG.cls r := by
    unfold top rings
    rw [hrings, List.foldl_cons, List.foldl_nil, Nat.zero_max]
  have hround : r ∈ order := mem_round last hr
  split
  · rename_i hnone
    have h := List.find?_eq_none.mp hnone r hround
    simp [rings, hrings, htop, cls] at h
  · rename_i x hx
    have h := List.find?_some hx
    obtain rfl : x = r := by
      simp only [rings, hrings, Bool.and_eq_true, List.contains_iff_mem, List.mem_singleton] at h
      exact h.1
    simp only [hm, htop]
    rfl

theorem dispatchOffer_offers {s : State} {st r : Nat} {m : Msg} (hreset : s.inReset = false) (hfree : s.sta.offer.find st = none)
    (hall : s.fencedAll st = false) (hr : r < 256) (hm : s.dispMsg st r = some m) (honly : ∀ x, x ≠ r → s.dispMsg st x = none) :
    ∃ t, exec (.dispatchOffer st) s = .next t
      ∧ t.sta.offer.find st = some { ring := r, seq := m.seq, bytes := dispRecord r (s.rd (stnB st) KSTN_RING_CFG.cls r) m }
      ∧ t.mem = s.mem ∧ t.net = s.net ∧ t.regs = s.regs :=
  ⟨_, run_const hreset (effDispatchOffer_only (w := s.w0) hfree hall hr hm honly), Tbl.find_put_self .., rfl, rfl, rfl⟩

theorem State.msgsOf_congr {s t : State} (h : t.sta = s.sta) (st r : Nat) : t.msgsOf st r = s.msgsOf st r := by
  rw [State.msgsOf, State.msgsOf, h]

/-- The messages of a ring, just set, are read back. -/
theorem W.setMsgs_self (w : W) (st r : Nat) (l : List Msg) : (w.setMsgs st r l).msgsOf st r = l := by
  unfold W.setMsgs State.msgsOf
  dsimp only
  split
  · rename_i h
    rw [W.wr_sta, Tbl.find_del_self, h]
    rfl
  · rw [W.wr_sta, Tbl.find_put_self]
    rfl

theorem W.setMsgs_held (w : W) (st r : Nat) (l : List Msg) : (w.setMsgs st r l).held = (w.stores, w.net, { w.sta with
    msgs := if l = [] then w.sta.msgs.del (chKey st r) else w.sta.msgs.put (chKey st r) l }) := rfl

theorem W.setMsgs_stores (w : W) (st r : Nat) (l : List Msg) : (w.setMsgs st r l).stores = w.stores :=
  congrArg Prod.fst (w.setMsgs_held st r l)
theorem W.setMsgs_net (w : W) (st r : Nat) (l : List Msg) : (w.setMsgs st r l).net = w.net :=
  congrArg (fun x => x.2.1) (w.setMsgs_held st r l)

/-- The record on offer is gone, and its ring is the last one served of its class. -/
def W.offerTaken (w : W) (st : Nat) (o : Offer) : W := { w with
  sta.offer := w.sta.offer.del st
  sta.lastRing := w.sta.lastRing.put (st * 4 + w.rd (stnB st) KSTN_RING_CFG.cls o.ring) o.ring }

theorem effDispatchTake_takes {w : W} {st : Nat} {o : Offer} (ho : w.sta.offer.find st = some o) : effDispatchTake st w =
    ((w.offerTaken st o).setMsgs st o.ring
      (((w.offerTaken st o).msgsOf st o.ring).map (fun m => if m.seq = o.seq then { m with taken := true } else m))).inc
        (stnB st) KSTN_DISP.disp_count := by
  unfold effDispatchTake
  simp only [ho]
  rfl

theorem dispatchTake_takes {s : State} {st : Nat} {o : Offer} (hr : s.inReset = false) (ho : s.sta.offer.find st = some o) :
    ∃ t, exec (.dispatchTake st) s = .next t ∧ t.sta.offer.find st = none
      ∧ t.msgsOf st o.ring = (s.msgsOf st o.ring).map (fun m => if m.seq = o.seq then { m with taken := true } else m)
      ∧ t.mem = s.mem ∧ t.net = s.net := by
  have heff := effDispatchTake_takes (w := s.w0) ho
  have hmsgs : (s.w0.offerTaken st o).msgsOf st o.ring = s.msgsOf st o.ring := rfl
  rw [hmsgs] at heff
  generalize (s.msgsOf st o.ring).map (fun m => if m.seq = o.seq then { m with taken := true } else m) = l at *
  have hheld := (s.w0.offerTaken st o).setMsgs_held st o.ring l
  have hself := (s.w0.offerTaken st o).setMsgs_self st o.ring l
  generalize (s.w0.offerTaken st o).setMsgs st o.ring l = v at *
  obtain ⟨hmem, hnet, hsta⟩ := State.after_held ((v.inc_held (stnB st) KSTN_DISP.disp_count 1 0).trans hheld)
  refine ⟨_, run_const hr heff, ?_, ?_, hmem, hnet⟩
  · rw [hsta]
    exact Tbl.find_del_self ..
  · exact (State.msgsOf_congr (v.inc_sta (stnB st) KSTN_DISP.disp_count 1 0) st o.ring).trans hself

/-- Settles O36, a clause for each event and each way it can go. -/
theorem messagesAct : Obligations.MessagesAct := by
  refine ⟨?_, ?_, ?_, ?_, ?_, ?_, ?_, ?_, ?_, ?_, ?_⟩
  · rintro s st p w r m i hr ht haux rfl rfl h0 hmax hlen hon haddr hown hslot hctx
    have heff := (effMessageReceive_takes ht).trans
      (if_neg (not_not.mpr (State.msgStatus_ok haux h0 hmax hlen hon haddr hown hslot hctx)))
    rw [Nat.mod_eq_of_lt haux, hslot] at heff
    exact run_const hr heff
  · intro s st p w hr ht haux
    have hst := State.msgStatus_badop (s := w.toState) (st := st) haux
    have heff := (effMessageReceive_takes ht).trans (if_pos (by rw [hst]; decide))
    rw [hst] at heff
    exact run_const hr heff
  · rintro s st p w r m hr ht haux rfl rfl h0 hmax hlen hbad
    have hst := State.msgStatus_denied haux h0 hmax hlen hbad
    have heff := (effMessageReceive_takes ht).trans (if_pos (by rw [hst]; decide))
    rw [hst] at heff
    exact run_const hr heff
  · intro s st r m hr hm hmem
    exact run_eq hr (effInMemMessageWritten_marks hm hmem)
  · rintro s st r k q p w w' l hr hq ht rfl rfl
    refine ⟨fun w1 hop hstatus hpop => ?_, fun hbad => ?_⟩
    · exact run_const hr (effInMemPopData_pops hq ht hop hstatus hpop)
    · exact run_const hr (effInMemPopData_refuses hq ht hbad)
  · intro s st p w c hr ht hc hon hone
    refine ⟨fun hbit => ?_, fun hbit hknown => ?_, fun hbit hwait => ?_⟩
    · exact creditReceive_resyncs ht hc hon hone hr hbit
    · exact run_const hr (effCreditReceive_counts ht hc hon hone hbit hknown)
    · exact run_const hr (effCreditReceive_waits ht hc hon hone hbit hwait)
  · intro s st p w c hr ht hc hoff
    exact run_const hr (effCreditReceive_off ht hc hoff)
  · intro s st p w i r hr ht hring hslot hon
    exact run_const hr (effCresyncReceive_answers ht hring hslot hon)
  · intro s st p w r hr ht hring hbad
    exact run_const hr (effCresyncReceive_refuses ht hring hbad)
  · intro s st r m hreset hfree hall hr hm honly
    exact dispatchOffer_offers hreset hfree hall hr hm honly
  · intro s st o hr ho
    exact dispatchTake_takes hr ho

end Sys2Proof.Machine
end

section
/-! PROOFS. Rings and channels (R192 to R197, R206). -/

namespace Sys2Proof.Machine

/-! ### Pops and returns (R196, R197) -/

/-- A write of 1 to 64 pops, by one who may make it, is not ignored. -/
theorem ringPop_not_ignored {w : W} {st r n : Nat} {who : Who} (h1 : 1 ≤ n) (hmax : n ≤ 64) (hmay : w.mayUse who 3 st r = true) :
    ¬ (n = 0 ∨ 64 < n ∨ !w.mayUse who 3 st r) := by
  simp [hmay]
  omega

section
variable {w : W} {st r n : Nat} {who : Who} (h1 : 1 ≤ n) (hmax : n ≤ 64) (hmay : w.mayUse who 3 st r = true)
include h1 hmax hmay

theorem effRingPop_sram (hin : w.rd (stnB st) KSTN_RING_CFG.in_mem r = 0) : effRingPop st r n who w = w.popMany st r n :=
  (if_neg (ringPop_not_ignored h1 hmax hmay)).trans (if_pos hin)

variable (hin : w.rd (stnB st) KSTN_RING_CFG.in_mem r ≠ 0)
include hin

theorem effRingPop_first (hpops : Tbl.get [] w.sta.pops (chKey st r) = []) (hocc : w.rd (stnB st) KSTN_RING_OCC.occ r ≠ 0) :
    effRingPop st r n who w = W.popRead { w with sta.pops := w.sta.pops.put (chKey st r) [n] } st r := by
  unfold effRingPop
  simp only [if_neg (ringPop_not_ignored h1 hmax hmay), if_neg hin, hpops]
  exact if_neg hocc

theorem effRingPop_joins (hpops : Tbl.get [] w.sta.pops (chKey st r) ≠ []) : effRingPop st r n who w =
    { w with sta.pops := w.sta.pops.put (chKey st r) (Tbl.get [] w.sta.pops (chKey st r) ++ [n]) } := by
  unfold effRingPop
  rw [if_neg (ringPop_not_ignored h1 hmax hmay), if_neg hin]
  split
  · rename_i hnil
    exact absurd hnil hpops
  · rfl

end

theorem effCreditReturnTimer_sends {w : W} {st r i t0 : Nat} (ht : w.sta.pendT.find (slotKey st r i) = some t0) (hdue : t0 + 512 ≤ w.fc)
    (hctx : w.ctxFencedAt st (w.objCtx 3 st r) = false) : effCreditReturnTimer st r i w = w.flushReturn st r i := by
  unfold effCreditReturnTimer
  simp only [ht]
  exact if_pos ⟨hdue, by simp [hctx]⟩

/-! ### Rings (R192, R206) -/

/-- A credit is a packet, and nothing else. -/
theorem W.sendCredit_noNet (w : W) (st r i lines : Nat) (resync : Bool) (pkg src chan : Nat) :
    (w.sendCredit st r i lines resync pkg src chan).noNet = w.noNet := by
  unfold W.sendCredit
  dsimp only
  split
  · rfl
  · rfl

/-- The field is no count of a pending return. -/
def Fld.offPend (g : Fld) : Bool :=
  decide ((g.lsb < 32 ∧ g.off < 2 ^ 26) ∧ (KSTN_RING_SLOT2.s_pend.off ≠ g.off ∨ KSTN_RING_SLOT2.s_pend.lsb ≠ g.lsb))

/-- Nothing but slots and packets differs: no store, no message, and no register but the pending returns. -/
def W.slotsOnly (v w : W) (st : Nat) : Prop :=
  v.stores = w.stores ∧ v.sta.msgs = w.sta.msgs ∧ ∀ (g : Fld) j, g.offPend = true → v.rd (stnB st) g j = w.rd (stnB st) g j

theorem W.slotsOnly.trans {u v w : W} {st : Nat} (h : u.slotsOnly v st) (k : v.slotsOnly w st) : u.slotsOnly w st := by
  obtain ⟨hs, hm, hr⟩ := h
  obtain ⟨ks, km, kr⟩ := k
  exact ⟨hs.trans ks, hm.trans km, fun g j hg => (hr g j hg).trans (kr g j hg)⟩

theorem W.slotsOnly_of_noNet {v w : W} (h : v.noNet = w.noNet) (st : Nat) : v.slotsOnly w st := by
  have hsta : v.sta = w.sta := by have e := congrArg (fun x : W => x.sta) h; exact e
  exact ⟨W.stores_of_noNet h, congrArg Sta.msgs hsta, fun _ _ _ => State.rd_congr (W.regs_of_noNet h) ..⟩

/-- A slot without lines placed and without a pending return. -/
def W.slotClear (w : W) (st r i : Nat) : W :=
  { w.wr (stnB st) KSTN_RING_SLOT2.s_pend 0 (r * 16 + i) with
    sta.placed := w.sta.placed.del (slotKey st r i), sta.pendT := w.sta.pendT.del (slotKey st r i) }

theorem W.slotClear_only (w : W) (st r i : Nat) : (w.slotClear st r i).slotsOnly w st := by
  refine ⟨rfl, rfl, fun g j h => ?_⟩
  obtain ⟨hg, hapart⟩ := of_decide_eq_true h
  have hrd := w.rd_wr_apart (stnB st) 0 (r * 16 + i) j (f := KSTN_RING_SLOT2.s_pend) (by decide) hg hapart
  exact hrd

theorem W.slotsClear_only (w : W) (st r : Nat) : let v := w.each (List.range 16) (fun w i => w.slotClear st r i)
    v.slotsOnly w st ∧ v.net = w.net :=
  W.each_inv (fun v => v.slotsOnly w st ∧ v.net = w.net) _ _ _ ⟨W.slotsOnly_of_noNet rfl st, rfl⟩
    fun v i _ ⟨hv, hn⟩ => ⟨(v.slotClear_only st r i).trans hv, hn⟩

/-- A ring without messages, enabled or not. -/
def W.ringEmpty (w : W) (st r on : Nat) : W :=
  (((((w.wr (stnB st) KSTN_RING_CFG.enable on r).wr (stnB st) KSTN_RING_PTR.head 0 r).wr (stnB st) KSTN_RING_PTR.tail 0 r).wr
    (stnB st) KSTN_RING_OCC.occ 0 r).wr (stnB st) KSTN_RING_OCC.skip_held 0 r).setMsgs st r []

theorem W.ringEmpty_net (w : W) (st r on : Nat) : (w.ringEmpty st r on).net = w.net := by
  simp only [W.ringEmpty, W.setMsgs_net, W.wr_net]

theorem W.ringEmpty_stores (w : W) (st r on : Nat) : (w.ringEmpty st r on).stores = w.stores := by
  simp only [W.ringEmpty, W.setMsgs_stores, W.wr_stores]

theorem W.setMsgs_rd (w : W) (st r j : Nat) (l : List Msg) {g : Fld} (hg : g.lsb < 32 ∧ g.off < 2 ^ 26)
    (h : KSTN_RING_PEND.pending.off ≠ g.off ∨ KSTN_RING_PEND.pending.lsb ≠ g.lsb) :
    (w.setMsgs st r l).rd (stnB st) g j = w.rd (stnB st) g j :=
  (W.rd_wr_apart _ _ _ r j (f := KSTN_RING_PEND.pending) (by decide) hg h).trans (State.rd_congr rfl ..)

theorem W.ringEmpty_facts (w : W) (st r on : Nat) : let v := w.ringEmpty st r on
    v.rd (stnB st) KSTN_RING_CFG.enable r = on % 2 ∧ v.rd (stnB st) KSTN_RING_PTR.head r = 0
      ∧ v.rd (stnB st) KSTN_RING_PTR.tail r = 0 ∧ v.rd (stnB st) KSTN_RING_OCC.occ r = 0 ∧ v.msgsOf st r = [] := by
  refine ⟨?_, ?_, ?_, ?_, W.setMsgs_self ..⟩
  all_goals simp (disch := decide) only [W.ringEmpty, W.setMsgs_rd, W.rd_wr_apart, W.rd_wr_self]
  all_goals rfl

/-- What an enabled ring's slot gets: it is clear, and a valid one's sender has its share. -/
def W.slotStart (w : W) (st r i : Nat) : W :=
  let v := w.slotClear st r i
  if v.rd (stnB st) KSTN_RING_SLOT0.s_valid (r * 16 + i) = 1 then
    v.sendCredit st r i (v.rd (stnB st) KSTN_RING_SLOT2.s_share (r * 16 + i)) false (v.rd (stnB st) KSTN_RING_SLOT1.s_pkg (r * 16 + i))
      (v.rd (stnB st) KSTN_RING_SLOT0.s_src (r * 16 + i)) (v.rd (stnB st) KSTN_RING_SLOT0.s_chan (r * 16 + i))
  else v

theorem W.slotStart_only (w : W) (st r i : Nat) : (w.slotStart st r i).slotsOnly w st := by
  have hclear := w.slotClear_only st r i
  unfold W.slotStart
  dsimp only
  split
  · exact (W.slotsOnly_of_noNet (W.sendCredit_noNet ..) st).trans hclear
  · exact hclear

section
variable {w : W} {st r : Nat} {who : Who} (hmay : w.mayUse who 3 st r = true)
include hmay

theorem effRingEnable_opens (hoff : w.rd (stnB st) KSTN_RING_CFG.enable r ≠ 1) (hok : w.ringCfgOk st r = true) :
    effRingEnable st r who w = (w.ringEmpty st r 1).each (List.range 16) (fun w i => w.slotStart st r i) :=
  (if_neg (by simp [hmay, hoff])).trans (if_neg (by simp [hok]))

theorem effRingEnable_rejects (hoff : w.rd (stnB st) KSTN_RING_CFG.enable r ≠ 1) (hbad : w.ringCfgOk st r = false) :
    effRingEnable st r who w = (w.flag (stnB st) KSTN_RING_CFG.cfg_reject 1 r).irqB st 12 :=
  (if_neg (by simp [hmay, hoff])).trans (if_pos (by simp [hbad]))

theorem effRingDisable_closes (hon : w.rd (stnB st) KSTN_RING_CFG.enable r ≠ 0) : effRingDisable st r who w = w.ringOff st r :=
  if_neg (by simp [hmay, hon])

end

/-- The record of a ring on offer is withdrawn, and its pops are dropped. -/
def W.ringDrop (w : W) (st r : Nat) : W :=
  let w := match w.sta.offer.find st with
    | some o => if o.ring = r then { w with sta.offer := w.sta.offer.del st } else w
    | none => w
  { w with sta.pops := w.sta.pops.del (chKey st r) }

theorem W.ringDrop_only (w : W) (st r : Nat) : (w.ringDrop st r).slotsOnly w st ∧ (w.ringDrop st r).net = w.net := by
  unfold W.ringDrop
  split
  · split
    · exact ⟨⟨rfl, rfl, fun _ _ _ => rfl⟩, rfl⟩
    · exact ⟨⟨rfl, rfl, fun _ _ _ => rfl⟩, rfl⟩
  · exact ⟨⟨rfl, rfl, fun _ _ _ => rfl⟩, rfl⟩

theorem W.ringOff_eq (w : W) (st r : Nat) :
    w.ringOff st r = ((w.ringEmpty st r 0).ringDrop st r).each (List.range 16) (fun w i => w.slotClear st r i) := rfl

/-- A ring disabled is its empty self, beside its slots; no packet is sent. -/
theorem W.ringOff_only (w : W) (st r : Nat) :
    (w.ringOff st r).slotsOnly (w.ringEmpty st r 0) st ∧ (w.ringOff st r).net = w.net := by
  obtain ⟨hdrop, hdropNet⟩ := (w.ringEmpty st r 0).ringDrop_only st r
  obtain ⟨hclear, hclearNet⟩ := ((w.ringEmpty st r 0).ringDrop st r).slotsClear_only st r
  rw [W.ringOff_eq]
  exact ⟨hclear.trans hdrop, hclearNet.trans (hdropNet.trans (w.ringEmpty_net st r 0))⟩

/-- What a state shows of a ring that was left empty, once only slots have changed. -/
theorem State.after_ringEmpty {s : State} {v : W} {st r on : Nat} (h : v.slotsOnly (s.w0.ringEmpty st r on) st) :
    let t := s.after fun _ => v
    t.rd (stnB st) KSTN_RING_CFG.enable r = on % 2 ∧ t.rd (stnB st) KSTN_RING_PTR.head r = 0
      ∧ t.rd (stnB st) KSTN_RING_PTR.tail r = 0 ∧ t.rd (stnB st) KSTN_RING_OCC.occ r = 0 ∧ t.msgsOf st r = [] ∧ t.mem = s.mem := by
  obtain ⟨hstores, hmsgs, hrd⟩ := h
  obtain ⟨hon, hhead, htail, hocc, hnil⟩ := s.w0.ringEmpty_facts st r on
  have hmsgs' : v.msgsOf st r = (s.w0.ringEmpty st r on).msgsOf st r := by rw [State.msgsOf, State.msgsOf, hmsgs]
  exact ⟨(hrd _ _ rfl).trans hon, (hrd _ _ rfl).trans hhead, (hrd _ _ rfl).trans htail,
    (hrd _ _ rfl).trans hocc, hmsgs'.trans hnil, State.after_mem_of_no_stores (hstores.trans (s.w0.ringEmpty_stores st r on))⟩

theorem ringEnable_opens {s : State} {st r : Nat} {who : Who} (hr : s.inReset = false) (hmay : s.mayUse who 3 st r = true)
    (hoff : s.rd (stnB st) KSTN_RING_CFG.enable r ≠ 1) (hok : s.ringCfgOk st r = true) :
    ∃ t, exec (.ringEnable st r who) s = .next t ∧ t.rd (stnB st) KSTN_RING_CFG.enable r = 1 ∧ t.rd (stnB st) KSTN_RING_PTR.head r = 0
      ∧ t.rd (stnB st) KSTN_RING_PTR.tail r = 0 ∧ t.rd (stnB st) KSTN_RING_OCC.occ r = 0 ∧ t.msgsOf st r = [] ∧ t.mem = s.mem := by
  have honly := W.each_inv (fun v => v.slotsOnly (s.w0.ringEmpty st r 1) st) (List.range 16) (fun w i => w.slotStart st r i) _
    (W.slotsOnly_of_noNet rfl st) fun v i _ h => (v.slotStart_only st r i).trans h
  exact ⟨_, run_const hr (effRingEnable_opens (w := s.w0) hmay hoff hok), State.after_ringEmpty honly⟩

theorem ringEnable_rejects {s : State} {st r : Nat} {who : Who} (hr : s.inReset = false) (hmay : s.mayUse who 3 st r = true)
    (hoff : s.rd (stnB st) KSTN_RING_CFG.enable r ≠ 1) (hbad : s.ringCfgOk st r = false) :
    ∃ t, exec (.ringEnable st r who) s = .next t ∧ t.rd (stnB st) KSTN_RING_CFG.cfg_reject r = 1
      ∧ t.rd (stnB st) KSTN_RING_CFG.enable r = s.rd (stnB st) KSTN_RING_CFG.enable r ∧ t.mem = s.mem ∧ t.net = s.net := by
  obtain ⟨hmem, hnet, -⟩ := State.after_held
    ((W.irqB_held _ st 12).trans (s.w0.flag_held (stnB st) KSTN_RING_CFG.cfg_reject 1 r))
  refine ⟨_, run_const hr (effRingEnable_rejects (w := s.w0) hmay hoff hbad), ?_, ?_, hmem, hnet⟩
  · refine (W.irqB_rd ..).trans ((W.rd_flag_self ..).trans ?_)
    rw [show KSTN_RING_CFG.cfg_reject.width = 1 from rfl, Nat.or_mod_two_pow]
    rcases Nat.mod_two_eq_zero_or_one (s.rd (stnB st) KSTN_RING_CFG.cfg_reject r) with h | h
    · rw [pow_one, State.w0_toState, h]; rfl
    · rw [pow_one, State.w0_toState, h]; rfl
  · exact (W.irqB_rd ..).trans (W.rd_wr_apart _ _ _ _ _ (f := KSTN_RING_CFG.cfg_reject) (by decide) (by decide) (by decide))

theorem ringDisable_closes {s : State} {st r : Nat} {who : Who} (hr : s.inReset = false) (hmay : s.mayUse who 3 st r = true)
    (hon : s.rd (stnB st) KSTN_RING_CFG.enable r ≠ 0) :
    ∃ t, exec (.ringDisable st r who) s = .next t ∧ t.rd (stnB st) KSTN_RING_CFG.enable r = 0 ∧ t.rd (stnB st) KSTN_RING_OCC.occ r = 0
      ∧ t.msgsOf st r = [] ∧ t.mem = s.mem ∧ t.net = s.net := by
  obtain ⟨honly, hnet⟩ := s.w0.ringOff_only st r
  obtain ⟨hoff, -, -, hocc, hmsgs, hmem⟩ := State.after_ringEmpty honly
  exact ⟨_, run_const hr (effRingDisable_closes (w := s.w0) hmay hon), hoff, hocc, hmsgs, hmem,
    (State.after_net ..).trans hnet⟩

/-! ### Channels (R193, R194, R206) -/

/-- A packet that is pushed stands in its buffer. -/
theorem mem_buf_pushBuf (w : W) (u p : Nat) (b : Buf) : b ∈ (w.pushBuf u p b).buf u p b.pkt.vc := by
  have hbuf : (w.pushBuf u p b).buf u p b.pkt.vc = w.buf u p b.pkt.vc ++ [b] := by
    rw [W.pushBuf, W.setBuf, State.buf, if_neg (by simp), Tbl.find_put_self]
    rfl
  rw [hbuf]
  exact List.mem_append_right _ List.mem_cons_self

/-- A packet that a unit sends waits in its injection queue, and nothing else is changed. -/
theorem State.after_inject (s : State) (v : W) (u : Nat) (p : Packet) : let t := s.after fun _ => v.inject u p
    (∀ b g j, t.rd b g j = v.rd b g j) ∧ t.sta = v.sta ∧ t.mem = s.mem.apply v.stores
      ∧ ∃ b, b ∈ t.buf u pInj p.vc ∧ b.pkt = p :=
  ⟨fun _ _ _ => State.rd_congr rfl .., rfl, rfl, _, mem_buf_pushBuf .., rfl⟩

/-- A channel whose members are not known, and that waits for the answer to its CRESYNC. -/
def W.chAsks (w : W) (st c : Nat) : W :=
  { w with
    sta.members := w.sta.members.del (chKey st c), sta.resync := w.sta.resync.put (chKey st c) true
    sta.resynced := w.sta.resynced.del (chKey st c), sta.stallT := w.sta.stallT.del (chKey st c)
    sta.fresh := w.sta.fresh.del (chKey st c) }

theorem W.chAsks_rd (w : W) (st c b j : Nat) (g : Fld) : (w.chAsks st c).rd b g j = w.rd b g j :=
  State.rd_congr rfl ..

/-- A channel enabled: it has no credit. -/
def W.chOn (w : W) (st c : Nat) : W :=
  (((w.wr (stnB st) KSTN_CH_CFG.enable 1 c).wr (stnB st) KSTN_CH_CRED.credit 0 c).wr (stnB st) KSTN_CH_TL.mc_known 0 c).chAsks st c

/-- The CRESYNC of a channel (R194). -/
def W.cresync (w : W) (st c : Nat) : Packet :=
  { w.msgPacket st c 0x22 (msgHead 1 0 0 (w.epOf (uSt st)) c (w.rd (stnB st) KSTN_CH_REFUSE.mseq c) w.pkgNum) 0 with vc := 2 }

theorem effChannelEnable_asks {w : W} {st c : Nat} {who : Who} (hmay : w.mayUse who 2 st c = true)
    (hoff : w.rd (stnB st) KSTN_CH_CFG.enable c ≠ 1) :
    effChannelEnable st c who w = (w.chOn st c).inject (uSt st) ((w.chOn st c).cresync st c) :=
  if_neg (by simp [hmay, hoff])

theorem W.chOn_facts (w : W) (st c : Nat) : let v := w.chOn st c
    v.rd (stnB st) KSTN_CH_CFG.enable c = 1 ∧ v.rd (stnB st) KSTN_CH_CRED.credit c = 0
      ∧ v.rd (stnB st) KSTN_CH_CFG.dring c = w.rd (stnB st) KSTN_CH_CFG.dring c
      ∧ v.sta.resync = w.sta.resync.put (chKey st c) true ∧ v.stores = w.stores := by
  refine ⟨?_, ?_, ?_, rfl, rfl⟩
  · simp (disch := decide) only [W.chOn, W.chAsks_rd, W.rd_wr_apart, W.rd_wr_self]
    rfl
  · simp (disch := decide) only [W.chOn, W.chAsks_rd, W.rd_wr_apart, W.rd_wr_self]
    rfl
  · simp (disch := decide) only [W.chOn, W.chAsks_rd, W.rd_wr_apart]

theorem channelEnable_asks {s : State} {st c : Nat} {who : Who} (hr : s.inReset = false) (hmay : s.mayUse who 2 st c = true)
    (hoff : s.rd (stnB st) KSTN_CH_CFG.enable c ≠ 1) :
    ∃ t, exec (.channelEnable st c who) s = .next t ∧ t.rd (stnB st) KSTN_CH_CFG.enable c = 1 ∧ t.rd (stnB st) KSTN_CH_CRED.credit c = 0
      ∧ Tbl.get false t.sta.resync (chKey st c) = true ∧ t.mem = s.mem
      ∧ ∃ b, b ∈ t.buf (uSt st) pInj 2 ∧ b.pkt.op = 0x22 ∧ b.pkt.aux = s.rd (stnB st) KSTN_CH_CFG.dring c := by
  obtain ⟨hon, hcredit, hring, hsync, hstores⟩ := s.w0.chOn_facts st c
  have heff := effChannelEnable_asks (w := s.w0) hmay hoff
  have haux : ((s.w0.chOn st c).cresync st c).aux = s.rd (stnB st) KSTN_CH_CFG.dring c := hring
  have hop : ((s.w0.chOn st c).cresync st c).op = 0x22 ∧ ((s.w0.chOn st c).cresync st c).vc = 2 := ⟨rfl, rfl⟩
  generalize s.w0.chOn st c = v at *
  generalize v.cresync st c = p at *
  obtain ⟨hop, hvc⟩ := hop
  obtain ⟨hrd, hsta, hmem, b, hb, hpkt⟩ := s.after_inject v (uSt st) p
  rw [hvc] at hb
  refine ⟨_, run_const hr heff, (hrd ..).trans hon, (hrd ..).trans hcredit, ?_, ?_, b, hb, by rw [hpkt, hop], by rw [hpkt, haux]⟩
  · rw [hsta, hsync]
    exact Tbl.get_put_self ..
  · rw [hmem, hstores]
    exact Memory.apply_nil ..

theorem effChannelDisable_closes {w : W} {st c : Nat} {who : Who} (hmay : w.mayUse who 2 st c = true)
    (hon : w.rd (stnB st) KSTN_CH_CFG.enable c ≠ 0) : effChannelDisable st c who w = w.chanOff st c DENIED :=
  if_neg (by simp [hmay, hon])

/-- Settles O37, a clause for each event and each way it can go. -/
theorem ringsChannelsAct : Obligations.RingsChannelsAct := by
  refine ⟨?_, ?_, ?_, ?_, ?_, ?_, ?_, ?_, ?_⟩
  · intro s st r n who hr h1 hmax hmay hin
    exact run_eq hr (effRingPop_sram h1 hmax hmay hin)
  · intro s st r n who hr h1 hmax hmay hin hpops hocc
    exact run_eq hr (effRingPop_first h1 hmax hmay hin hpops hocc)
  · rintro s st r n who l hr h1 hmax hmay hin rfl hpops
    exact ⟨_, run_const hr (effRingPop_joins (w := s.w0) h1 hmax hmay hin hpops), Tbl.get_put_self .., rfl, rfl, rfl⟩
  · intro s st r i t0 hr ht hdue hctx
    exact run_eq hr (effCreditReturnTimer_sends ht hdue hctx)
  · intro s st r who hr hmay hoff hok
    exact ringEnable_opens hr hmay hoff hok
  · intro s st r who hr hmay hoff hbad
    exact ringEnable_rejects hr hmay hoff hbad
  · intro s st r who hr hmay hon
    exact ringDisable_closes hr hmay hon
  · intro s st c who hr hmay hoff
    exact channelEnable_asks hr hmay hoff
  · intro s st c who hr hmay hon
    exact run_eq hr (effChannelDisable_closes hmay hon)

end Sys2Proof.Machine
end

section
/-! PROOFS. Tine reduction units (R230 to R232). -/

namespace Sys2Proof.Machine

/-! ### A contribution at its unit (R231, R232) -/

/-- The OPEN context of a contribution's collective at its tine. -/
def State.rctxOf (s : State) (t : Nat) (p : Packet) : Option (Nat × RCtx) :=
  Tbl.findBy (fun _ c => c.pkt.ctx == p.ctx && rxKey c.pkt == rxKey p && rxSeq c.pkt == rxSeq p)
    (s.col.rctx.filter (fun e => e.1 / 512 == t))

/-- The context that a contribution opens at fc `fc`. -/
def rctxNew (p : Packet) (fc : Nat) : RCtx :=
  { pkt := p, data := asResult p, value := if p.data = [] then p.addr % 2 ^ 32 else 0, count := rxCount p, mm := false, bad := p.bad,
    t0 := fc }

/-- The count of OPEN contexts stands in registers. -/
theorem W.rctxCount_bare (w : W) (t : Nat) : (w.rctxCount t).bare = w.bare := (W.high_bare ..).trans (W.wr_bare ..)

/-- A contribution that completes its collective's count alone is emitted at once, as the context it opens. -/
theorem W.redTake_opens_whole {w : W} {t : Nat} {p : Packet} (hnone : w.rctxOf t p = none) (hroom : w.rctxUsed t < 512)
    (hwhole : rxLsize p ≤ rxCount p) :
    w.redTake t p = w.redEmit t ((w.col.rctx.freeFrom 512 (rctxKey t 0)).getD (rctxKey t 0)) (rctxNew p w.fc) := by
  unfold State.rctxOf at hnone
  unfold W.redTake
  simp only [hnone]
  exact (if_pos hroom).trans (if_pos hwhole)

/-- One that agrees with an OPEN context, and does not complete its count, stays in it. -/
theorem W.redTake_joins {w : W} {t key : Nat} {p : Packet} {c : RCtx} (hfind : w.rctxOf t p = some (key, c))
    (hsig : rxSig p = rxSig c.pkt) (hmark : rxSig p ≠ sigMARK) (hpart : c.count + rxCount p < rxLsize c.pkt) :
    w.redTake t p = W.rctxCount { w with col.rctx := w.col.rctx.put key (c.join p w.fc) } t := by
  have hgood : (rxSig p != rxSig c.pkt || rxSig p == sigMARK) = false := by simp [hsig, hsig ▸ hmark]
  unfold State.rctxOf at hfind
  unfold W.redTake
  simp only [hfind, hgood]
  exact if_neg (Nat.not_le.mpr hpart)

/-- One with no OPEN context, and no room for another, goes by the unit (R232). -/
theorem W.redTake_bypasses {w : W} {t : Nat} {p : Packet} (hnone : w.rctxOf t p = none) (hfull : 512 ≤ w.rctxUsed t) :
    w.redTake t p = (w.inc (rtrB (uTine t)) KRTR_RBYP.bypass).resultOut t p := by
  unfold State.rctxOf at hnone
  unfold W.redTake
  simp only [hnone]
  exact if_neg (Nat.not_lt.mpr hfull)

theorem redTake_joins_after {s : State} {t key : Nat} {p : Packet} {c : RCtx} (hfind : s.rctxOf t p = some (key, c))
    (hsig : rxSig p = rxSig c.pkt) (hmark : rxSig p ≠ sigMARK) (hpart : c.count + rxCount p < rxLsize c.pkt) :
    (s.after fun w => w.redTake t p).col.rctx.find key = some (c.join p s.fc) ∧ (s.after fun w => w.redTake t p).mem = s.mem := by
  obtain ⟨v, hv⟩ : ∃ v : W, v = { s.w0 with col.rctx := s.col.rctx.put key (c.join p s.fc) } := ⟨_, rfl⟩
  have htake : s.w0.redTake t p = v.rctxCount t := hv ▸ W.redTake_joins (w := s.w0) hfind hsig hmark hpart
  have hcol : (s.w0.redTake t p).col = v.col := htake ▸ W.col_of_bare (v.rctxCount_bare t)
  have hstores : (s.w0.redTake t p).stores = v.stores := htake ▸ W.stores_of_bare (v.rctxCount_bare t)
  have hrctx : v.col.rctx = s.col.rctx.put key (c.join p s.fc) := by rw [hv]
  have hempty : v.stores = [] := by rw [hv]; rfl
  refine ⟨?_, State.after_mem_of_no_stores (hstores.trans hempty)⟩
  have hafter : (s.after fun w => w.redTake t p).col = v.col := hcol
  rw [hafter, hrctx]
  exact Tbl.find_put_self ..

/-- Settles O41: a contribution opens a context and completes it, joins one, or goes by. -/
theorem reductionsJoin : Obligations.ReductionsJoin := by
  refine ⟨?_, ?_, ?_⟩
  · intro s t p hwhole hnone hroom
    exact ⟨_, rctxNew p s.fc, rfl, rfl, rfl, rfl, State.after_congr (W.redTake_opens_whole (w := s.w0) hnone hroom hwhole)⟩
  · intro s t p key c hfind hsig hmark hpart
    obtain ⟨hctx, hmem⟩ := redTake_joins_after hfind hsig hmark hpart
    exact ⟨hctx, rfl, hmem⟩
  · intro s t p hnone hfull
    exact State.after_congr (W.redTake_bypasses (w := s.w0) hnone hfull)

/-! ### What a unit takes, and when it emits (R231) -/

/-- A unit takes the next contribution of an operation while the plate leaves it an adder (R209). -/
theorem W.redNext_takes {w v : W} {t op : Nat} {p : Packet} (hlanes : w.combLanes (uTine t) < 4)
    (htake : w.takeIn (uTine t) pRin (fun p => p.op == op) = some (p, v)) : w.redNext t op = v.redTake t p := by
  unfold W.redNext
  rw [if_neg (Nat.not_le.mpr hlanes), htake]

/-- A context that has lingered, and for which nothing waits, emits. -/
theorem effLingerExpiry_emits {w : W} {tine key : Nat} {c : RCtx} (hfind : w.col.rctx.find key = some c) (hkey : key / 512 = tine)
    (hdue : c.t0 + 2 ^ w.rd (rtrB (uTine tine)) KRTR_RED_CFG.linger_log2 ≤ w.fc)
    (hnone : w.takeIn (uTine tine) pRin (fun p => p.ctx == c.pkt.ctx && rxKey p == rxKey c.pkt && rxSeq p == rxSeq c.pkt) = none) :
    effLingerExpiry tine key w = (w.inc (rtrB (uTine tine)) KRTR_RBYP.linger_emit).redEmit tine key c := by
  unfold effLingerExpiry
  simp only [hfind, hnone]
  exact if_neg (not_or.mpr ⟨not_not.mpr hkey, Nat.not_lt.mpr hdue⟩)

end Sys2Proof.Machine
end

section
/-! PROOFS. Groups and collectives at stations (R219 to R228, R233 to R235). -/

namespace Sys2Proof.Machine

/-! ### Groups (R219 to R221) -/

/-- A state without its collectives. -/
def W.noCol (w : W) : W := { w with col := {} }

/-- The group's entry and its members' tables, written over those it had (R220). -/
def W.setGroup (w : W) (gi : Nat) (g : GroupDef) : W :=
  let v := (w.releaseGroup gi).each g.members fun v l => v.addMember (v.phys l) gi
  { v with col.grp := v.col.grp.put gi g }

theorem W.addMember_noCol (w : W) (st g : Nat) : (w.addMember st g).noCol = w.noCol := by
  unfold W.addMember
  split
  · rfl
  · rfl

theorem W.setGroup_noCol (w : W) (gi : Nat) (g : GroupDef) : (w.setGroup gi g).noCol = w.noCol :=
  W.each_inv (fun v => v.noCol = w.noCol) g.members _ (w.releaseGroup gi) rfl fun _ _ _ h => (W.addMember_noCol ..).trans h

theorem W.setGroup_find (w : W) (gi : Nat) (g : GroupDef) : (w.setGroup gi g).col.grp.find gi = some g := Tbl.find_put_self ..

/-- What R219 to R221 ask of a definition of group `gi` by the 32 bytes `b`, where `d` is its result herd. -/
structure State.GroupOk (s : State) (c : Cmd) (b : List Byte) (gi : Nat) (g : GroupDef) (d : HerdDef) : Prop where
  some_member : g.regMask ≠ 0 ∨ g.clMask ≠ 0 ∨ g.coreMask ≠ 0
  pkgs : g.pkgLo ≤ g.pkgHi ∧ g.pkgStep ≠ 0
  dies : g.dieLo ≤ g.dieHi ∧ g.dieStep ≠ 0 ∧ g.dieHi < s.fuse.cdActive
  here : (axis g.pkgLo g.pkgHi g.pkgStep).contains s.pkgNum = true
  home : g.home < s.fuse.tines
  clean : groupClean b = true
  mine : c.ctx = g.ctx
  herd : (s.hbank s.genCur).defs.find g.rherd = some d
  herd_mine : d.ctx = g.ctx
  herd_size : d.members.length = g.lsize
  herd_root : d.stage = 3 ∧ d.index = g.home ∨ d.stage = 4
  live : s.ctxLive g.ctx = true
  free : s.col.grp.find gi = none
  room : ∀ l ∈ g.members, (s.groupSlot (s.phys l) gi).isNone = true → ∃ i, i < 64 ∧ s.col.memb.find (s.phys l * 64 + i) = none

section
variable {s : State} {c : Cmd} {b : List Byte} {gi : Nat} {g : GroupDef} {d : HerdDef} (h : s.GroupOk c b gi g d)
include h

theorem State.GroupOk.not_bad : (decide (g.pkgHi < g.pkgLo) || g.pkgStep == 0 || decide (g.dieHi < g.dieLo) || g.dieStep == 0
    || decide (s.fuse.cdActive ≤ g.dieHi) || !(axis g.pkgLo g.pkgHi g.pkgStep).contains s.pkgNum || decide (s.fuse.tines ≤ g.home)
    || !groupClean b || c.ctx != g.ctx) = false := by
  obtain ⟨hpkg, hpstep⟩ := h.pkgs
  obtain ⟨hdie, hdstep, hactive⟩ := h.dies
  rw [h.here, h.clean, h.mine, decide_eq_false (Nat.not_lt.mpr hpkg), decide_eq_false (Nat.not_lt.mpr hdie),
    decide_eq_false (Nat.not_le.mpr hactive), decide_eq_false (Nat.not_le.mpr h.home)]
  simp [hpstep, hdstep]

theorem State.GroupOk.not_free : (decide (g.regMask = 0) && decide (g.clMask = 0) && decide (g.coreMask = 0)) = false := by
  rcases h.some_member with hr | hc | hc
  · simp [hr]
  · simp [hc]
  · simp [hc]

theorem State.GroupOk.herd_ok :
    (d.ctx == g.ctx && d.members.length == g.lsize && ((d.stage == 3 && d.index == g.home) || d.stage == 4)) = true := by
  rcases h.herd_root with ⟨h3, hi⟩ | h4
  · simp [h.herd_mine, h.herd_size, h3, hi]
  · simp [h.herd_mine, h.herd_size, h4]

theorem State.GroupOk.not_full : (g.members.any fun l => (s.groupSlot (s.phys l) gi).isNone
    && (List.range 64).all fun i => (s.col.memb.find (s.phys l * 64 + i)).isSome) = false := by
  refine List.any_eq_false.mpr fun l hl hfull => ?_
  obtain ⟨hnone, hall⟩ := Bool.and_eq_true_iff.mp hfull
  obtain ⟨i, hi, hslot⟩ := h.room l hl hnone
  have hsome := List.all_eq_true.mp hall i (List.mem_range.mpr hi)
  simp [hslot] at hsome

end

theorem effGroupDefine_defines {s : State} {q slot gi : Nat} {c : Cmd} {b : List Byte} {g : GroupDef} {d : HerdDef}
    (hc : s.cmdAt q slot 0x00A0 = some c) (hb : b = (c.bytes.drop 16).take 32) (hgi : gi = bits (le b 0 2) 0 10)
    (hg : g = { groupOf b with rroot := s.rootByte s.genCur (groupOf b).rherd }) (h : s.GroupOk c b gi g d) :
    effGroupDefine q slot s.w0 = (s.w0.setGroup gi g).answer q slot OK (toLE 4 g.gsize ++ toLE 2 g.lsize) := by
  unfold effGroupDefine
  split
  · rename_i hnone
    exact absurd (hc.symm.trans hnone) (by simp)
  · rename_i c' hsome
    obtain rfl : c = c' := Option.some.inj (hc.symm.trans hsome)
    extract_lets b' gi' g0 free g' herdOk old full st v1 v2 col v3
    obtain rfl : b = b' := hb
    obtain rfl : gi = gi' := hgi
    obtain rfl : g = g' := hg
    have hfree : free = false := h.not_free
    have hherd : herdOk = true := by
      have hfind : (s.w0.hbank s.w0.genCur).defs.find g'.rherd = some d := h.herd
      unfold herdOk
      rw [hfind]
      exact h.herd_ok
    have hold : old = false := congrArg Option.isSome h.free
    have hfull : full = false := h.not_full
    have hlive : s.ctxLive g'.ctx = true := h.live
    have hst : st = OK := firstOf_none (List.forall_mem_cons.mpr ⟨h.not_bad, by simp [hfree, hherd, hold, hfull, hlive]⟩)
    have h2 : v2 = v1.each g'.members fun v l => v.addMember (v.phys l) gi' := if_neg (by simp [hfree])
    have h3 : v3 = { v2 with col.grp := v2.col.grp.put gi' g' } := if_neg (by simp [hfree])
    rw [hst, if_neg (by simp), h3, h2]
    rfl

theorem groupDefine_defines {s : State} {q slot gi : Nat} {c : Cmd} {b : List Byte} {g : GroupDef} {d : HerdDef}
    (hr : s.inReset = false) (hc : s.Runs q slot 0x00A0 c) (hb : b = (c.bytes.drop 16).take 32) (hgi : gi = bits (le b 0 2) 0 10)
    (hg : g = { groupOf b with rroot := s.rootByte s.genCur (groupOf b).rherd }) (h : s.GroupOk c b gi g d) :
    ∃ t, exec (.groupDefine q slot) s = .next t ∧ Answered s t q c OK (toLE 4 g.gsize ++ toLE 2 g.lsize) ∧ t.col.grp.find gi = some g
      ∧ t.mem = s.mem := by
  obtain ⟨hrun, hcmd⟩ := hc
  have heff := effGroupDefine_defines hrun hb hgi hg h
  have hkeep := s.w0.setGroup_noCol gi g
  have hfind := s.w0.setGroup_find gi g
  generalize s.w0.setGroup gi g = v at *
  have hboot : v.boot = s.boot := by have e := congrArg (fun x : W => x.boot) hkeep; exact e
  have htime : v.herdTime = s.herdTime := by have e := congrArg (fun x : W => x.herdTime) hkeep; exact e
  have hstores : v.stores = [] := by have e := congrArg (fun x : W => x.stores) hkeep; exact e
  obtain ⟨hans, hmem, -⟩ := State.after_answer_of (v := v) (st := OK) (rd := toLE 4 g.gsize ++ toLE 2 g.lsize) hcmd
    (State.miomusUp_of_cmdAt hrun) hboot htime hstores
  refine ⟨_, run_const hr heff, hans, ?_, hmem⟩
  rw [State.after_col, W.answer_col, hfind]

/-! ### Results at a station (R233) -/

/-- A RESULT that its windows allow, for a collective with a fold slot, is folded there. -/
theorem effResult_folds {s : State} {st k : Nat} {p : Packet} {w : W} {f : Fold} (ht : s.Takes (uSt st) 0x33 p w)
    (hctx : w.ctxFencedAt st p.ctx = false)
    (hwin : 0 < (asResult p).length → w.winOk st p.ctx true p.addr (asResult p).length false true false = true)
    (hslot : Tbl.findBy (fun _ f => f.ctx == p.ctx && f.gkey == rxKey p && f.seq == rxSeq p)
      (w.col.fold.filter (fun e => e.1 / 32 == st)) = some (k, f)) :
    effResult st s.w0 = w.foldIn st (k % 32) f p := by
  unfold State.Takes at ht
  unfold effResult
  simp only [ht, hslot]
  refine (if_neg (by simp [hctx])).trans (if_neg ?_)
  rintro ⟨hlen, hdenied⟩
  simp [hwin hlen] at hdenied

theorem effResult_fenced {s : State} {st : Nat} {p : Packet} {w : W} (ht : s.Takes (uSt st) 0x33 p w)
    (hctx : w.ctxFencedAt st p.ctx = true) : effResult st s.w0 = w.collOrphan st := by
  unfold State.Takes at ht
  unfold effResult
  simp only [ht]
  exact if_pos hctx

/-! ### Early slots and time limits (R228, R233, R234) -/

theorem W.foldCount_bare (w : W) (st : Nat) : (w.foldCount st).bare = w.bare :=
  (W.high_bare ..).trans ((W.wr_bare ..).trans (W.wr_bare ..))

theorem W.collOrphan_bare (w : W) (st : Nat) : (w.collOrphan st).bare = w.bare := (W.irqB_bare ..).trans (W.inc_bare ..)

/-- Beside reports a slot that is freed leaves the table of fold slots alone. -/
theorem W.delFold_bare (w : W) (st i : Nat) : (w.delFold st i).bare = W.bare { w with col.fold := w.col.fold.del (foldKey st i) } :=
  W.foldCount_bare ..

theorem effEarlySlotExpiry_frees {w : W} {st slot : Nat} {f : Fold} (hf : w.col.fold.find (foldKey st slot) = some f)
    (hearly : f.entry = none) (hdue : f.t0 + 2 ^ 24 ≤ w.fc) :
    effEarlySlotExpiry st slot w = (w.delFold st slot).collOrphan st := by
  unfold effEarlySlotExpiry
  simp only [hf]
  exact if_pos ⟨by simp [hearly], hdue⟩

theorem earlySlotExpiry_frees {s : State} {st slot : Nat} {f : Fold} (hr : s.inReset = false)
    (hf : s.col.fold.find (foldKey st slot) = some f) (hearly : f.entry = none) (hdue : f.t0 + 2 ^ 24 ≤ s.fc) :
    ∃ t, exec (.earlySlotExpiry st slot) s = .next t ∧ t.col.fold = s.col.fold.del (foldKey st slot) ∧ t.mem = s.mem
      ∧ t.net = s.net := by
  have heff := effEarlySlotExpiry_frees (w := s.w0) hf hearly hdue
  have hkeep := ((s.w0.delFold st slot).collOrphan_bare st).trans (s.w0.delFold_bare st slot)
  generalize (s.w0.delFold st slot).collOrphan st = v at *
  exact ⟨_, run_const hr heff, congrArg Col.fold (W.col_of_bare hkeep), State.after_mem_of_no_stores (W.stores_of_bare hkeep),
    W.net_of_bare hkeep⟩

section
variable {w : W} {st e : Nat} {c : Coll} (hc : w.collAt st e = some c) (hend : c.tEnd ≤ w.fc)
include hc hend

/-- A scheduled collective out of time has no result. -/
theorem effCollTimeLimit_sched (hsched : c.sched = true) : effCollTimeLimit st e w = w.collEnd st e TIMEOUT 0 := by
  unfold effCollTimeLimit
  simp only [hc]
  exact (if_neg (Nat.not_lt.mpr hend)).trans (if_pos hsched)

/-- An arbitrated one ends by what its fold slot holds. -/
theorem effCollTimeLimit_arb {f : Fold} (hsched : c.sched = false) (hf : w.col.fold.find (foldKey st c.slot) = some f) :
    effCollTimeLimit st e w =
      if f.count = 0 then w.collEnd st e TIMEOUT 0 else w.collEnd st e (if f.mm then MISMATCH else SHORT) f.count := by
  unfold effCollTimeLimit
  simp only [hc, hf]
  exact (if_neg (Nat.not_lt.mpr hend)).trans (if_neg (by simp [hsched]))

end

/-! ### COUNT (R235) -/

theorem W.started_eq {w : W} {st e : Nat} {l : LogEnt} (hl : w.logAt st e = some l) :
    w.started st e = w.setLog st e { l with lstate := 2 } := by
  unfold W.started
  rw [hl]

/-- A group that the station does not hold, or another context's. -/
def State.groupDenied (s : State) (st gi ctx : Nat) : Bool :=
  match s.groupAt st gi with
  | none => true
  | some g => g.ctx != ctx

/-- A group that the station holds, with no fold slot for the collective. -/
def State.foldBusy (s : State) (st gi seq : Nat) : Bool :=
  match s.groupAt st gi with
  | none => false
  | some g => !s.foldRoom st g seq

theorem State.groupDenied_of {s : State} {st gi ctx : Nat} {g : GroupDef} (hg : s.groupAt st gi = some g) (hctx : g.ctx = ctx) :
    s.groupDenied st gi ctx = false := by
  simp [State.groupDenied, hg, hctx]

theorem State.foldBusy_of {s : State} {st gi seq : Nat} {g : GroupDef} (hg : s.groupAt st gi = some g)
    (hroom : s.foldRoom st g seq = true) : s.foldBusy st gi seq = false := by
  simp [State.foldBusy, hg, hroom]

/-- A COUNT's form is wrong (R235). -/
def countBad (d : List Byte) : Bool :=
  bits (le d 32 1) 2 6 != 0 || bits (le d 33 1) 5 3 != 0 || bits (le d 33 1) 0 5 < 10 || 30 < bits (le d 33 1) 0 5
    || bits (le d 34 2) 10 6 != 0 || le d 44 20 != 0 || (bits (le d 32 1) 0 2 == 0 && le d 40 4 != 0)

/-- The status of a COUNT's checks (R19). -/
def State.countStatus (s : State) (st : Nat) (l : LogEnt) : Nat :=
  firstOf [(countBad l.desc, BADOP), (s.groupDenied st (bits (le l.desc 34 2) 0 10) l.lctx, DENIED),
    (s.ctxFencedAt st l.lctx, FENCED), (s.foldBusy st (bits (le l.desc 34 2) 0 10) (le l.desc 36 4), BUSY)]

theorem countBad_eq_false {d : List Byte} (hop : bits (le d 32 1) 2 6 = 0) (htl : bits (le d 33 1) 5 3 = 0)
    (hlo : 10 ≤ bits (le d 33 1) 0 5) (hhi : bits (le d 33 1) 0 5 ≤ 30) (hgi : bits (le d 34 2) 10 6 = 0) (hrest : le d 44 20 = 0)
    (hval : bits (le d 32 1) 0 2 = 0 → le d 40 4 = 0) : countBad d = false := by
  simpa [countBad, hop, htl, hgi, hrest, Nat.not_lt.mpr hlo, Nat.not_lt.mpr hhi] using hval

theorem effCountDescriptor_opens {w : W} {st e : Nat} {l : LogEnt} {g : GroupDef} (h : w.mayStart st e 8 = some l)
    (hg : w.groupAt st (bits (le l.desc 34 2) 0 10) = some g) (hchk : w.countStatus st l = OK) : effCountDescriptor st e w =
      let cop := bits (le l.desc 32 1) 0 2
      let seq := le l.desc 36 4
      let sig := signature (0x10 + cop) (if cop = 0 then 0 else 8) 0 l.lctx g.gkey (if cop = 0 then 0 else 1) seq
      w.collOpen st e g seq
        { sched := false, streams := [], sig := sig, lsize := g.lsize, group := bits (le l.desc 34 2) 0 10, count := cop != 0,
          tEnd := w.fc + 2 ^ bits (le l.desc 33 1) 0 5 }
        { vc := 0, op := if cop = 0 then 0x31 else 0x32, addr := le l.desc 40 4,
          ext := redExt g.gkey seq cop (if cop = 0 then 0 else 8) 0 (if cop = 0 then 0 else 1) sig 1 g.lsize g.rherd g.rroot } := by
  unfold effCountDescriptor
  split
  case h_1 hnone => exact absurd (hnone.symm.trans h) (by simp)
  rename_i x hx
  obtain rfl : x = l := Option.some.inj (hx.symm.trans h)
  extract_lets d cop tl gi seq v grp bad denied busy chk
  have hok : chk = 0 := hchk
  have hgrp : grp = some g := hg
  rw [hok, hgrp]
  rfl

/-! ### COLL (R226 to R228, R234) -/

theorem le_succ (d : List Byte) (off n : Nat) : le d off (n + 1) = le d off 1 + 256 * le d (off + 1) n := by
  rw [le, le, le, ← List.tail_drop]
  cases d.drop off with
  | nil => simp [ofLE]
  | cons b bs => simp [ofLE]

/-- A COLL that names no stream (R226). -/
theorem le_no_streams {d : List Byte} {off : Nat} (h : le d off 4 = 0x00FFFFFF) :
    le d off 1 = 0xFF ∧ le d (off + 1) 1 = 0xFF ∧ le d (off + 2) 1 = 0xFF ∧ le d (off + 3) 1 = 0 := by
  have h0 := le_lt d off 1
  have h1 := le_lt d (off + 1) 1
  have h2 := le_lt d (off + 2) 1
  have h3 := le_lt d (off + 3) 1
  rw [le_succ d off 3, le_succ d (off + 1) 2, le_succ d (off + 2) 1] at h
  simp only [Nat.add_assoc, Nat.reduceAdd] at h
  omega

/-- The streams that a COLL names (R226). -/
def collStreams (d : List Byte) : List Nat := [le d 48 1, le d 49 1, le d 50 1].filter (fun x => x != 0xFF)

/-- Bytes of an arbitrated COLL's contribution and of its result (R226, R213). -/
def collLen (d : List Byte) : Nat := contribLen (le d 34 1) (le d 36 4)
def collResLen (d : List Byte) : Nat := if bit (le d 35 1) 0 then 2 * collLen d else collLen d

/-- A COLL's form is wrong, beside what its plane asks (R226, R227). -/
def collFormBad (d : List Byte) : Bool :=
  bits (le d 32 1) 1 7 != 0 || bits (le d 33 1) 3 5 != 0 || 5 < bits (le d 33 1) 0 3
    || !okType (le d 34 1) (bits (le d 33 1) 0 3) (bit (le d 35 1) 0)
    || bits (le d 35 1) 1 7 != 0 || le d 36 4 == 0 || bits (le d 40 2) 10 6 != 0 || bits (le d 42 1) 0 5 < 10
    || 30 < bits (le d 42 1) 0 5 || bits (le d 42 1) 5 3 != 0 || le d 43 1 != 0 || le d 51 1 != 0 || le d 60 4 != 0

/-- What an arbitrated COLL's plane asks, or a scheduled one's, does not hold (R227). -/
def collPlaneBad (d : List Byte) : Bool :=
  if bit (le d 32 1) 0 then le d 52 4 % 64 != 0 || le d 56 4 % 64 != 0 || 1024 < collLen d || collStreams d != []
  else le d 52 4 != 0 || le d 56 4 != 0 || collStreams d == []

/-- An arbitrated COLL's windows do not allow it. -/
def State.collMiss (s : State) (st : Nat) (l : LogEnt) : Bool :=
  bit (le l.desc 32 1) 0 && (!s.winOk st l.lctx true (le l.desc 52 4) (collLen l.desc) true false false
    || !s.winOk st l.lctx true (le l.desc 56 4) (collResLen l.desc) false true false)

/-- A stream it names is bound by another, or an arbitrated COLL has no fold slot. -/
def State.collBusy (s : State) (st : Nat) (d : List Byte) : Bool :=
  (!bit (le d 32 1) 0 && (collStreams d).any fun k => (s.collOfStream st k).isSome)
    || (bit (le d 32 1) 0 && s.foldBusy st (bits (le d 40 2) 0 10) (le d 44 4))

/-- The status of a COLL's checks (R19, R227). -/
def State.collStatus (s : State) (st : Nat) (l : LogEnt) : Nat :=
  firstOf [(collFormBad l.desc || collPlaneBad l.desc, BADOP),
    (s.groupDenied st (bits (le l.desc 40 2) 0 10) l.lctx || s.collMiss st l, DENIED),
    (s.ctxFencedAt st l.lctx, FENCED), (s.collBusy st l.desc, BUSY)]

/-- The signature of a COLL (R222). -/
def collSig (d : List Byte) (ctx gkey : Nat) : Nat :=
  signature (bits (le d 33 1) 0 3) (le d 34 1) (if bit (le d 35 1) 0 then 1 else 0) ctx gkey (le d 36 4) (le d 44 4)

/-- The contribution of an arbitrated COLL (R226, R229, R234). -/
def W.collPacket (w : W) (st : Nat) (l : LogEnt) (g : GroupDef) : Packet :=
  let d := l.desc
  { vc := 6
    op := 0x30
    addr := le d 56 4
    len := collLen d
    data := (cells64 (collLen d + 1) (w.sramRead st (le d 52 4) (collLen d))).flatMap (padCell (le d 34 1))
    pois := w.sramPoisMask st (le d 52 4) (collLen d)
    ext := redExt g.gkey (le d 44 4) (bits (le d 33 1) 0 3) (le d 34 1) (if bit (le d 35 1) 0 then 1 else 0) (le d 36 4)
      (collSig d l.lctx g.gkey) 1 g.lsize g.rherd g.rroot }

/-- The collective that a COLL opens. -/
def collOpened (d : List Byte) (ctx fc : Nat) (g : GroupDef) : Coll :=
  { sched := !bit (le d 32 1) 0
    streams := if bit (le d 32 1) 0 then [] else (collStreams d).eraseDups.map (fun k => (k, false))
    sig := collSig d ctx g.gkey
    lsize := g.lsize
    group := bits (le d 40 2) 0 10
    addr := le d 56 4
    tEnd := fc + 2 ^ bits (le d 42 1) 0 5 }

section
variable {w : W} {st e : Nat} {l : LogEnt} {g : GroupDef} (h : w.mayStart st e 7 = some l)
  (hg : w.groupAt st (bits (le l.desc 40 2) 0 10) = some g) (hchk : w.collStatus st l = OK)
include h hg hchk

/-- A COLL whose checks hold opens on its plane. -/
theorem effCollDescriptor_opens : effCollDescriptor st e w =
    if bit (le l.desc 32 1) 0 then w.collOpen st e g (le l.desc 44 4) (collOpened l.desc l.lctx w.fc g) (w.collPacket st l g)
    else { w.started st e with col.open_ := w.col.open_.put (logKey st e) (collOpened l.desc l.lctx w.fc g) } := by
  unfold effCollDescriptor
  split
  case h_1 hnone => exact absurd (hnone.symm.trans h) (by simp)
  rename_i x hx
  obtain rfl : x = l := Option.some.inj (hx.symm.trans h)
  extract_lets d arb op ty widen n gi tl seq strs named sa ra len rlen grp bad miss denied busy chk
  have hok : chk = 0 := hchk
  have hgrp : grp = some g := hg
  rw [hok, hgrp]
  rfl

end

theorem collFormBad_eq_false {d : List Byte} (hplane : bits (le d 32 1) 1 7 = 0) (hop : bits (le d 33 1) 3 5 = 0)
    (hmax : bits (le d 33 1) 0 3 ≤ 5) (hty : okType (le d 34 1) (bits (le d 33 1) 0 3) (bit (le d 35 1) 0) = true)
    (hwiden : bits (le d 35 1) 1 7 = 0) (hn : le d 36 4 ≠ 0) (hgi : bits (le d 40 2) 10 6 = 0) (hlo : 10 ≤ le d 42 1)
    (hhi : le d 42 1 ≤ 30) (h43 : le d 43 1 = 0) (h51 : le d 51 1 = 0) (h60 : le d 60 4 = 0) : collFormBad d = false := by
  have htl : bits (le d 42 1) 0 5 = le d 42 1 := bits_zero_of_lt (Nat.lt_of_le_of_lt hhi (by decide))
  have hrest : bits (le d 42 1) 5 3 = 0 := by rw [bits, Nat.div_eq_of_lt (Nat.lt_of_le_of_lt hhi (by decide))]; rfl
  simp [collFormBad, hplane, hop, hty, hwiden, hn, hgi, htl, hrest, h43, h51, h60, Nat.not_lt.mpr hmax, Nat.not_lt.mpr hlo,
    Nat.not_lt.mpr hhi]

/-- The time limit of a COLL of the right form is its whole byte. -/
theorem collOpened_tEnd {d : List Byte} (ctx fc : Nat) (g : GroupDef) (hhi : le d 42 1 ≤ 30) :
    (collOpened d ctx fc g).tEnd = fc + 2 ^ le d 42 1 :=
  congrArg (fc + 2 ^ ·) (bits_zero_of_lt (Nat.lt_of_le_of_lt hhi (by decide)))

/-- The checks of a COLL of the right form, on a group of its context, that is not fenced (R19). -/
theorem State.collStatus_ok {s : State} {st : Nat} {l : LogEnt} {g : GroupDef} (hform : collFormBad l.desc = false)
    (hplane : collPlaneBad l.desc = false) (hg : s.groupAt st (bits (le l.desc 40 2) 0 10) = some g) (hmine : g.ctx = l.lctx)
    (hmiss : s.collMiss st l = false) (hctx : s.ctxFencedAt st l.lctx = false) (hbusy : s.collBusy st l.desc = false) :
    s.collStatus st l = OK :=
  firstOf_none (by simp [hform, hplane, State.groupDenied_of hg hmine, hmiss, hctx, hbusy])

theorem State.countStatus_ok {s : State} {st : Nat} {l : LogEnt} {g : GroupDef} (hform : countBad l.desc = false)
    (hg : s.groupAt st (bits (le l.desc 34 2) 0 10) = some g) (hmine : g.ctx = l.lctx) (hctx : s.ctxFencedAt st l.lctx = false)
    (hroom : s.foldRoom st g (le l.desc 36 4) = true) : s.countStatus st l = OK :=
  firstOf_none (by simp [hform, State.groupDenied_of hg hmine, hctx, State.foldBusy_of hg hroom])

/-- The one stream of a scheduled COLL. -/
theorem collStreams_one {d : List Byte} {k : Nat} (h48 : le d 48 1 = k) (hk : k ≠ 0xFF) (h49 : le d 49 1 = 0xFF)
    (h50 : le d 50 1 = 0xFF) : collStreams d = [k] := by
  simp [collStreams, h48, h49, h50, hk]

section
variable {w : W} {st e : Nat} {l : LogEnt} {g : GroupDef} (h : w.mayStart st e 7 = some l) (hform : collFormBad l.desc = false)
  (hg : w.groupAt st (bits (le l.desc 40 2) 0 10) = some g) (hmine : g.ctx = l.lctx) (hctx : w.ctxFencedAt st l.lctx = false)
include h hform hg hmine hctx

theorem effCollDescriptor_scheduled {k : Nat} (hsched : bit (le l.desc 32 1) 0 = false) (hstream : collStreams l.desc = [k])
    (h52 : le l.desc 52 4 = 0) (h56 : le l.desc 56 4 = 0) (hfree : w.collOfStream st k = none) : effCollDescriptor st e w =
      { w.started st e with col.open_ := w.col.open_.put (logKey st e) (collOpened l.desc l.lctx w.fc g) } := by
  have hplane : collPlaneBad l.desc = false := by simp [collPlaneBad, hsched, h52, h56, hstream]
  have hmiss : w.collMiss st l = false := by simp [State.collMiss, hsched]
  have hbusy : w.collBusy st l.desc = false := by simp [State.collBusy, hsched, hstream, hfree]
  exact (effCollDescriptor_opens h hg (State.collStatus_ok hform hplane hg hmine hmiss hctx hbusy)).trans (if_neg (by simp [hsched]))

theorem effCollDescriptor_arbitrated (harb : bit (le l.desc 32 1) 0 = true) (hstream : collStreams l.desc = [])
    (hsa : le l.desc 52 4 % 64 = 0) (hra : le l.desc 56 4 % 64 = 0) (hlen : collLen l.desc ≤ 1024)
    (hsend : w.winOk st l.lctx true (le l.desc 52 4) (collLen l.desc) true false false = true)
    (hres : w.winOk st l.lctx true (le l.desc 56 4) (collResLen l.desc) false true false = true)
    (hroom : w.foldRoom st g (le l.desc 44 4) = true) :
    effCollDescriptor st e w = w.collOpen st e g (le l.desc 44 4) (collOpened l.desc l.lctx w.fc g) (w.collPacket st l g) := by
  have hplane : collPlaneBad l.desc = false := by simp [collPlaneBad, harb, hsa, hra, hstream, hlen]
  have hmiss : w.collMiss st l = false := by simp [State.collMiss, harb, hsend, hres]
  have hbusy : w.collBusy st l.desc = false := by simp [State.collBusy, harb, State.foldBusy_of hg hroom]
  exact (effCollDescriptor_opens h hg (State.collStatus_ok hform hplane hg hmine hmiss hctx hbusy)).trans (if_pos harb)

end

/-- The next state of a COLL that opens over one stream. -/
theorem collDescriptor_schedules {s : State} {st e k : Nat} {l : LogEnt} {g : GroupDef} (hr : s.inReset = false)
    (hl : s.logAt st e = some l) (hsched : bit (le l.desc 32 1) 0 = false) (hstream : collStreams l.desc = [k])
    (hhi : le l.desc 42 1 ≤ 30) (heff : effCollDescriptor st e s.w0 =
      { s.w0.started st e with col.open_ := s.col.open_.put (logKey st e) (collOpened l.desc l.lctx s.fc g) }) :
    ∃ t c, exec (.collDescriptor st e) s = .next t ∧ t.collAt st e = some c ∧ c.sched = true ∧ c.streams = [(k, false)]
      ∧ c.lsize = g.lsize ∧ c.tEnd = s.fc + 2 ^ le l.desc 42 1 ∧ t.logAt st e = some { l with lstate := 2 } ∧ t.mem = s.mem
      ∧ t.net = s.net := by
  have hstart : s.w0.started st e = s.w0.setLog st e { l with lstate := 2 } := W.started_eq hl
  rw [hstart] at heff
  refine ⟨_, collOpened l.desc l.lctx s.fc g, run_const hr heff, Tbl.find_put_self .., by simp [collOpened, hsched], ?_, rfl,
    collOpened_tEnd _ _ _ hhi, Tbl.find_put_self .., rfl, rfl⟩
  rw [collOpened, hsched, hstream]
  rfl

theorem collOpened_arbitrated {d : List Byte} (ctx fc : Nat) (g : GroupDef) (harb : bit (le d 32 1) 0 = true)
    (hhi : le d 42 1 ≤ 30) : collOpened d ctx fc g =
      { sched := false, streams := [], sig := collSig d ctx g.gkey, lsize := g.lsize, group := bits (le d 40 2) 0 10,
        addr := le d 56 4, tEnd := fc + 2 ^ le d 42 1 } := by
  rw [← collOpened_tEnd ctx fc g hhi]
  simp [collOpened, harb]

/-- Settles O40, a clause for each event and each way it can go. -/
theorem collectivesAct : Obligations.CollectivesAct := by
  refine ⟨?_, ?_, ?_, ?_, ?_, ?_, ?_, ?_, ?_, ?_, ?_, ?_, ?_⟩
  · intro s q slot c b gi g d hr hc hb hgi hg hsome hpkg hpstep hdie hdstep hactive hhere hhome hclean hmine hherd hherdMine hsize hroot
      hlive hfree hroom
    exact groupDefine_defines hr hc hb hgi hg ⟨hsome, ⟨hpkg, hpstep⟩, ⟨hdie, hdstep, hactive⟩, hhere, hhome, hclean, hmine, hherd,
      hherdMine, hsize, hroot, hlive, hfree, hroom⟩
  · intro s tine p w hr hlanes
    exact ⟨fun h => run_eq hr (W.redNext_takes hlanes h), fun h => run_eq hr (W.redNext_takes hlanes h),
      fun h => run_eq hr (W.redNext_takes hlanes h)⟩
  · intro s tine key c hr hfind hkey hdue hnone
    exact run_eq hr (effLingerExpiry_emits hfind hkey hdue hnone)
  · intro s st p w k f hr ht hctx hwin hslot
    exact run_eq hr (effResult_folds ht hctx hwin hslot)
  · intro s st p w hr ht hctx
    exact run_eq hr (effResult_fenced ht hctx)
  · intro s st slot f hr hf hearly hdue
    exact earlySlotExpiry_frees hr hf hearly hdue
  · intro s st e c f hr hc hend hsched hf hcount hmm
    exact run_eq hr ((effCollTimeLimit_arb hc hend hsched hf).trans ((if_neg hcount).trans (by rw [hmm]; rfl)))
  · intro s st e c f hr hc hend hsched hf hcount hmm
    exact run_eq hr ((effCollTimeLimit_arb hc hend hsched hf).trans ((if_neg hcount).trans (by rw [hmm]; rfl)))
  · intro s st e c f hr hc hend hsched hf hcount
    exact run_eq hr ((effCollTimeLimit_arb hc hend hsched hf).trans (if_pos hcount))
  · intro s st e c hr hc hend hsched
    exact run_eq hr (effCollTimeLimit_sched hc hend hsched)
  · rintro s st e l g cop tl seq hr h rfl rfl rfl hop htl hlo hhi hgi hrest hval hg hmine hctx hroom
    have hchk := State.countStatus_ok (countBad_eq_false hop htl hlo hhi hgi hrest hval) hg hmine hctx hroom
    exact run_eq hr (effCountDescriptor_opens (w := s.w0) h hg hchk)
  · intro s st e l g k hr h hplane hop hmax hty hwd hn hgi hlo hhi h43 h48 hk h49 h50 h51 h52 h56 h60 hg hmine hctx hfree
    have hform : collFormBad l.desc = false :=
      collFormBad_eq_false (by rw [hplane]; rfl) hop hmax (by rw [hwd]; exact hty) (by rw [hwd]; rfl) hn hgi hlo hhi h43 h51 h60
    have hsched : bit (le l.desc 32 1) 0 = false := by rw [hplane]; rfl
    have hstream := collStreams_one h48 hk h49 h50
    exact collDescriptor_schedules hr (State.mayStart_some h).1 hsched hstream hhi
      (effCollDescriptor_scheduled (w := s.w0) h hform hg hmine hctx hsched hstream h52 h56 hfree)
  · rintro s st e l g op ty wd n sa ra seq len sig hr h hplane hop rfl hmax rfl rfl hty hwd rfl hn hgi hlo hhi h43 rfl h48 rfl rfl h60
      hsa hra rfl hlen hg hmine hsend hres hctx hroom rfl
    obtain ⟨h48, h49, h50, h51⟩ := le_no_streams h48
    have harb : bit (le l.desc 32 1) 0 = true := by rw [hplane]; rfl
    have hform : collFormBad l.desc = false :=
      collFormBad_eq_false (by rw [hplane]; rfl) hop hmax hty hwd hn hgi hlo hhi h43 h51 h60
    have hstream : collStreams l.desc = [] := by simp [collStreams, h48, h49, h50]
    have heff := effCollDescriptor_arbitrated (w := s.w0) h hform hg hmine hctx harb hstream hsa hra hlen hsend hres hroom
    rw [collOpened_arbitrated l.lctx s.w0.fc g harb hhi] at heff
    exact run_eq hr heff

end Sys2Proof.Machine
end

section
/-! PROOFS. Bags at a station (R243 to R248, R255 to R258). -/

namespace Sys2Proof.Machine

/-! ### A slot is taken (R247) -/

theorem W.bagCount_bare (w : W) (st : Nat) : (w.bagCount st).bare = w.bare := (W.high_bare ..).trans (W.wr_bare ..)

/-- The bag that BAG_SLOT_ALLOCATE puts into slot `i`. -/
def State.bagNew (s : State) (st e i : Nat) (l : LogEnt) : Bag :=
  { entry := e, seq := (Tbl.get 0 s.col.bseq (bagKey st i) + 1) % 256, ctx := l.lctx, t0 := s.fc }

/-- The state with the slot's next sequence number. -/
def W.nextBseq (w : W) (st i : Nat) : W :=
  { w with col.bseq := Tbl.set 0 w.col.bseq (bagKey st i) ((Tbl.get 0 w.col.bseq (bagKey st i) + 1) % 256) }

/-- Beside registers a slot's allocation changes its sequence number, its bag and the descriptor's state. -/
theorem effBagSlotAllocate_bare {w : W} {st e i : Nat} {l : LogEnt} (h : w.mayStart st e 6 = some l)
    (hi : (List.range 64).find? (fun i => (w.bagAt st i).isNone) = some i) : (effBagSlotAllocate st e w).bare
      = (((w.nextBseq st i).setLog st e { l with lstate := 2 }).setBag st i (w.bagNew st e i l)).bare := by
  have hstart : (w.nextBseq st i).started st e = (w.nextBseq st i).setLog st e { l with lstate := 2 } :=
    W.started_eq (State.mayStart_some h).1
  unfold effBagSlotAllocate
  simp only [h, hi]
  rw [← hstart]
  exact W.bagCount_bare ..

theorem bagSlotAllocate_takes {s : State} {st e i : Nat} {l : LogEnt} (hr : s.inReset = false) (h : s.mayStart st e 6 = some l)
    (hi : (List.range 64).find? (fun i => (s.bagAt st i).isNone) = some i) :
    ∃ t, exec (.bagSlotAllocate st e) s = .next t ∧ t.bagAt st i = some (s.bagNew st e i l)
      ∧ t.logAt st e = some { l with lstate := 2 } ∧ t.mem = s.mem ∧ t.net = s.net := by
  have hbare := effBagSlotAllocate_bare (w := s.w0) h hi
  refine ⟨_, run_up _ hr, ?_, ?_, State.after_mem_of_no_stores (W.stores_of_bare hbare), W.net_of_bare hbare⟩
  · exact (congrArg (fun c => c.bag.find (bagKey st i)) (W.col_of_bare hbare)).trans (Tbl.find_put_self ..)
  · exact (congrArg (fun x => x.log.find (logKey st e)) (W.sta_of_bare hbare)).trans (Tbl.find_put_self ..)

/-! ### A list is read and its rows are asked for (R243 to R249, R260) -/

/-- The rows of a BAG's list. -/
def W.bagList (w : W) (st : Nat) (d : List Byte) : List BagRow :=
  (List.range (bits (le d 34 2) 0 9)).map (fun j => bagRow (w.sramRead st (le d 40 4 + 16 * j) 16))

/-- The lines of a row of its first row's table, their type, and the length of a gather's output. -/
def W.bagTable (w : W) (st : Nat) (d : List Byte) : Nat := (((w.bagList st d).head?).map (fun r => r.table)).getD 0
def W.bagLines (w : W) (st : Nat) (d : List Byte) : Nat := w.rd (stnB st) KSTN_PTAB_CFG.rlines (w.bagTable st d)
def W.bagType (w : W) (st : Nat) (d : List Byte) : Nat := w.rd (stnB st) KSTN_PTAB_CFG.dtype (w.bagTable st d)
def W.bagOut (w : W) (st : Nat) (d : List Byte) : Nat := outLen (w.bagLines st d) (w.bagType st d) (le d 33 1)

/-- A row of the list is of a wrong form, beyond its table, or of a table unlike the first row's (R244). -/
def W.bagRowBad (w : W) (st : Nat) (d : List Byte) (r : BagRow) : Bool :=
  !r.clean
    || w.rd (stnB st) KSTN_PTAB_ROWS_LO.trows_lo r.table + w.rd (stnB st) KSTN_PTAB_ROWS_HI.trows_hi r.table * 2 ^ 32 ≤ r.row
    || w.rd (stnB st) KSTN_PTAB_CFG.rlines r.table != w.bagLines st d || w.rd (stnB st) KSTN_PTAB_CFG.dtype r.table != w.bagType st d

/-- A BAG's form is wrong (R243, R245, R246, R260). -/
def W.bagBad (w : W) (st : Nat) (d : List Byte) : Bool :=
  bits (le d 32 1) 3 5 != 0 || bits (le d 34 2) 9 7 != 0 || bits (le d 36 1) 5 3 != 0 || le d 37 3 != 0 || le d 48 16 != 0
    || bits (le d 34 2) 0 9 == 0 || 256 < bits (le d 34 2) 0 9 || bits (le d 36 1) 0 5 < 10 || 30 < bits (le d 36 1) 0 5
    || le d 40 4 % 64 != 0 || le d 44 4 % 64 != 0 || (w.bagList st d).any (w.bagRowBad st d)
    || (if bit (le d 32 1) 0 then bits (le d 32 1) 1 2 != 0 || le d 33 1 != 0 || !(1 ≤ w.bagType st d && w.bagType st d ≤ 3)
        else !(1 ≤ le d 33 1 && le d 33 1 ≤ 3) || 4096 < w.bagOut st d)

/-- A BAG's windows do not allow it (R289). -/
def W.bagMiss (w : W) (st : Nat) (l : LogEnt) : Bool :=
  !w.winOk st l.lctx true (le l.desc 40 4) (16 * bits (le l.desc 34 2) 0 9) true false false
    || (if bit (le l.desc 32 1) 0
        then !w.winOk st l.lctx true (le l.desc 44 4) (bits (le l.desc 34 2) 0 9 * 64 * w.bagLines st l.desc) true false false
        else !w.winOk st l.lctx true (le l.desc 44 4) (w.bagOut st l.desc) false true false)

/-- A row's table is not valid, cannot be read, or is another context's (R241). -/
def W.bagRowDenied (w : W) (st ctx : Nat) (r : BagRow) : Bool :=
  w.rd (stnB st) KSTN_PTAB_CFG.tvalid r.table == 0 || w.entryBad (.pool st r.table) || !w.owns 7 st r.table ctx

/-- The status of a BAG's checks (R19, R246). -/
def W.bagStatus (w : W) (st : Nat) (l : LogEnt) : Nat :=
  firstOf [(w.bagBad st l.desc, BADOP), ((w.bagList st l.desc).any (w.bagRowDenied st l.lctx) || w.bagMiss st l, DENIED),
    (w.ctxFencedAt st l.lctx || w.fencedAll st, FENCED)]

/-- A BAG whose requests are sent. -/
def W.bagAsked (w : W) (st : Nat) (l : LogEnt) (bag : Bag) (waiting : Nat) : Bag := { bag with
  sent := true
  merge := bit (le l.desc 32 1) 0
  pop := bits (le l.desc 32 1) 1 2
  dtype := w.bagType st l.desc
  otype := le l.desc 33 1
  rlines := w.bagLines st l.desc
  pieces := bits (le l.desc 34 2) 0 9 * nSegs (w.bagLines st l.desc)
  addr := le l.desc 44 4
  waiting := waiting
  t0 := bag.t0 + 2 ^ bits (le l.desc 36 1) 0 5 }

section
variable {w : W} {st e i : Nat} {l : LogEnt} {bag : Bag} (hl : w.logAt st e = some l) (hbag : w.bagOf st e = some (i, bag))
  (hsent : bag.sent = false)
include hl hbag hsent

theorem effBagDescriptor_refused {status : Nat} (hchk : w.bagStatus st l = status) (hbad : status ≠ OK) :
    effBagDescriptor st e w = (w.winDenied st (status == DENIED && w.bagMiss st l)).bagEnd st i status := by
  subst hchk
  unfold effBagDescriptor
  simp only [hl, hbag]
  exact (if_neg (by simp [hsent])).trans (if_pos hbad)

/-- Beside packets, a BAG that passes its checks changes its bag. -/
theorem effBagDescriptor_asks (hchk : w.bagStatus st l = OK) :
    ∃ n, (effBagDescriptor st e w).noNet = (w.setBag st i (w.bagAsked st l bag n)).noNet := by
  unfold effBagDescriptor
  split
  case h_2 hnone => exact absurd hbag (hnone _ _ _ hl)
  rename_i l' i' bag' hl' hbag'
  obtain rfl : l' = l := Option.some.inj (hl'.symm.trans hl)
  obtain ⟨rfl, rfl⟩ : i' = i ∧ bag' = bag := by simpa using hbag'.symm.trans hbag
  extract_lets b d merge pop ot n tl la da rows t0 rl dt ol bad miss denied chk sets bp sl jobs v tag
  have hok : chk = OK := hchk
  rw [if_neg (by simp [hsent]), if_neg (by simp [hok])]
  refine ⟨if merge then jobs.length else 0, W.each_inv (fun u => u.noNet = v.noNet) _ _ _ rfl fun u x _ hu => ?_⟩
  extract_lets a mask src part pay pb p wt q
  split
  · exact (W.request_noNet ..).trans hu
  · exact (W.request_noNet ..).trans hu

end

/-- A list of no row is of a wrong form (R243). -/
theorem W.bagStatus_empty {w : W} {st : Nat} {l : LogEnt} (hn : bits (le l.desc 34 2) 0 9 = 0) : w.bagStatus st l = BADOP := by
  have hbad : w.bagBad st l.desc = true := by simp [W.bagBad, hn]
  rw [W.bagStatus, hbad]
  exact firstOf_cons_true (by decide) (by simp [BADOP, DENIED, FENCED, statusPrec])

theorem W.bagMiss_one {w : W} {st : Nat} {l : LogEnt} (hn : bits (le l.desc 34 2) 0 9 = 1) (hflags : le l.desc 32 1 = 0)
    (hread : w.winOk st l.lctx true (le l.desc 40 4) 16 true false false = true)
    (hwrite : w.winOk st l.lctx true (le l.desc 44 4) (w.bagOut st l.desc) false true false = true) : w.bagMiss st l = false := by
  have hmerge : bit 0 0 = false := by decide
  simp [W.bagMiss, hn, hflags, hmerge, hread, hwrite]

theorem W.bagRowDenied_eq_false {w : W} {st ctx : Nat} {row : BagRow} (hvalid : w.rd (stnB st) KSTN_PTAB_CFG.tvalid row.table ≠ 0)
    (hread : w.entryBad (.pool st row.table) = false) (hown : w.owns 7 st row.table ctx = true) :
    w.bagRowDenied st ctx row = false := by
  simp [W.bagRowDenied, hvalid, hread, hown]

section
variable {w : W} {st : Nat} {l : LogEnt} {row : BagRow} (hlist : w.bagList st l.desc = [row])
include hlist

theorem W.bagTable_one : w.bagTable st l.desc = row.table := by simp [W.bagTable, hlist]

theorem W.bagLines_one : w.bagLines st l.desc = w.rd (stnB st) KSTN_PTAB_CFG.rlines row.table := by
  rw [W.bagLines, W.bagTable_one hlist]

theorem W.bagType_one : w.bagType st l.desc = w.rd (stnB st) KSTN_PTAB_CFG.dtype row.table := by
  rw [W.bagType, W.bagTable_one hlist]

theorem W.bagOut_one : w.bagOut st l.desc
    = outLen (w.rd (stnB st) KSTN_PTAB_CFG.rlines row.table) (w.rd (stnB st) KSTN_PTAB_CFG.dtype row.table) (le l.desc 33 1) := by
  rw [W.bagOut, W.bagLines_one hlist, W.bagType_one hlist]

/-- The form of a gather of one row. -/
theorem W.bagBad_one (hn : bits (le l.desc 34 2) 0 9 = 1) (h34 : bits (le l.desc 34 2) 9 7 = 0) (hflags : le l.desc 32 1 = 0)
    (h36 : bits (le l.desc 36 1) 5 3 = 0) (h37 : le l.desc 37 3 = 0) (h48 : le l.desc 48 16 = 0)
    (hlo : 10 ≤ bits (le l.desc 36 1) 0 5) (hhi : bits (le l.desc 36 1) 0 5 ≤ 30) (hla : le l.desc 40 4 % 64 = 0)
    (hda : le l.desc 44 4 % 64 = 0) (hclean : row.clean = true)
    (hrow : row.row < w.rd (stnB st) KSTN_PTAB_ROWS_LO.trows_lo row.table + w.rd (stnB st) KSTN_PTAB_ROWS_HI.trows_hi row.table * 2 ^ 32)
    (hlo33 : 1 ≤ le l.desc 33 1) (hhi33 : le l.desc 33 1 ≤ 3) (hout : w.bagOut st l.desc ≤ 4096) : w.bagBad st l.desc = false := by
  have hmerge : bit 0 0 = false := by decide
  have hzero : bits 0 3 5 = 0 := by decide
  have hrows : w.bagRowBad st l.desc row = false := by
    simpa [W.bagRowBad, hclean, W.bagLines_one hlist, W.bagType_one hlist] using hrow
  simp [W.bagBad, hn, h34, hflags, h36, h37, h48, hla, hda, hlist, hrows, hmerge, hzero, hlo33, hhi33, Nat.not_lt.mpr hlo,
    Nat.not_lt.mpr hhi, hout]

theorem W.bagStatus_one (hbad : w.bagBad st l.desc = false) (hrow : w.bagRowDenied st l.lctx row = false)
    (hmiss : w.bagMiss st l = false) (hctx : w.ctxFencedAt st l.lctx = false) (hall : w.fencedAll st = false) :
    w.bagStatus st l = OK :=
  firstOf_none (by simp [hbad, hlist, hrow, hmiss, hctx, hall])

end

theorem W.col_of_noNet {v w : W} (h : v.noNet = w.noNet) : v.col = w.col := by have e := congrArg (fun x : W => x.col) h; exact e

theorem bagDescriptor_asks {s : State} {st e i : Nat} {l : LogEnt} {bag : Bag} (hr : s.inReset = false) (hl : s.logAt st e = some l)
    (hbag : s.bagOf st e = some (i, bag)) (hsent : bag.sent = false) (hchk : s.w0.bagStatus st l = OK) :
    ∃ t n, exec (.bagDescriptor st e) s = .next t ∧ t.bagAt st i = some (s.w0.bagAsked st l bag n) ∧ t.mem = s.mem := by
  obtain ⟨n, h⟩ := effBagDescriptor_asks (w := s.w0) hl hbag hsent hchk
  refine ⟨_, n, run_up _ hr, ?_, State.after_mem_of_no_stores (W.stores_of_noNet h)⟩
  exact (congrArg (fun c => c.bag.find (bagKey st i)) (W.col_of_noNet h)).trans (Tbl.find_put_self ..)

/-! ### Partials and the time limit (R255, R257, R265) -/

theorem effPoolPartFold_folds {w v : W} {st : Nat} {p : Packet}
    (ht : w.takeAny (uSt st) (fun x => x.op == 0x41 && w.partRoom st x) = some (p, v)) : effPoolPartFold st w = v.partFold st p := by
  unfold effPoolPartFold
  rw [ht]

/-- Nothing that waits is nothing to fold. -/
theorem W.foldWaiting_none {w : W} {st i : Nat} (hnone : w.takeAny (uSt st) (fun p => p.op == 0x41 && pxSlot p == i) = none) (n : Nat) :
    w.foldWaiting st i n = w := by
  cases n with
  | zero => rfl
  | succ n =>
    unfold W.foldWaiting
    rw [hnone]

section
variable {w : W} {st i : Nat} {b : Bag} (hb : w.bagAt st i = some b) (hsent : b.sent = true) (hdue : b.t0 ≤ w.fc)
include hb hsent hdue

theorem effBagTimeLimit_merge (hmerge : b.merge = true) : effBagTimeLimit st i w = w.bagEnd st i TIMEOUT := by
  unfold effBagTimeLimit
  simp only [hb, hmerge, if_true]
  exact if_neg (by simp [hsent, hdue])

theorem effBagTimeLimit_gather (hgather : b.merge = false)
    (hnone : w.takeAny (uSt st) (fun p => p.op == 0x41 && pxSlot p == i) = none) :
    effBagTimeLimit st i w = w.bagEnd st i (if b.folded = 0 then TIMEOUT else SHORT) := by
  unfold effBagTimeLimit
  simp only [hb, hgather, W.foldWaiting_none hnone, Bool.false_eq_true, if_false]
  exact if_neg (by simp [hsent, hdue])

end

end Sys2Proof.Machine
end

section
/-! PROOFS. Pool units and merge units (R250 to R254, R261 to R264). -/

namespace Sys2Proof.Machine

/-! ### Pool units (R252, R253) -/

theorem effPoolPart_takes {w v : W} {region inp : Nat} {p : Packet}
    (ht : w.takeBuf (uRR region) pPin 9 (fun _ => true) = some (p, inp, v)) :
    effPoolPart region w = v.regionPart (uRR region) p inp := by
  unfold effPoolPart
  rw [ht]

theorem isRouter_uRR {region : Nat} (h : region < 192) : isRouter (uRR region) = true :=
  decide_eq_true (by unfold uRR; omega)

section
variable {w : W} {u key : Nat} {c : PoolCtx} (hfind : w.col.pool.find (poolKey u key) = some c)
include hfind

/-- A slice's context that has lingered emits. -/
theorem effPoolLingerExpiry_slice (hu : isRouter u = false) (hdue : c.t0 + 2 ^ w.rd (unitB u) KMSP_POOL_CFG.plinger_log2 ≤ w.fc) :
    effPoolLingerExpiry u key w = (w.inc (unitB u) KMSP_POOL_EVT.pool_linger).poolEmit (poolKey u key) := by
  unfold effPoolLingerExpiry
  simp only [hfind, hu, Bool.false_eq_true, if_false, Option.isNone_some]
  exact if_neg (Nat.not_lt.mpr hdue)

/-- A region's context that has lingered, and for which nothing waits, emits. -/
theorem effPoolLingerExpiry_region (hu : isRouter u = true) (hdue : c.t0 + 2 ^ w.rd (rtrB u) KRTR_POOL_CFG.plinger_log2 ≤ w.fc)
    (hnone : w.takeBuf u pPin 9 (fun p => samePool p c.pkt) = none) :
    effPoolLingerExpiry u key w = (w.inc (rtrB u) KRTR_POOL_EVT.pool_linger).poolEmit (poolKey u key) := by
  unfold effPoolLingerExpiry
  simp only [hfind, hu, hnone, if_true, Bool.false_eq_true, if_false, Option.isNone_some]
  exact if_neg (Nat.not_lt.mpr hdue)

end

/-! ### Merge units (R261 to R263) -/

theorem effMergeRow_takes {w v : W} {tine inp : Nat} {p : Packet}
    (ht : w.takeBuf (uTine tine) pMin 9 (fun p => p.op == 0x42) = some (p, inp, v)) : effMergeRow tine w = v.mergeTake tine p inp := by
  unfold effMergeRow
  rw [ht]

/-- An entry whose window ends, and for whose row nothing waits, emits. -/
theorem effMergeWindowExpiry_emits {w : W} {tine key : Nat} {e : MrgEnt} (hfind : w.col.mrg.find (mrgKey tine key) = some e)
    (hopen : e.wait = false) (hdue : e.t0 + 2 ^ w.rd (rtrB (uTine tine)) KRTR_MRG_CFG.mwin_log2 ≤ w.fc)
    (hnone : w.takeBuf (uTine tine) pMin 9 (fun p => p.op == 0x42 && p.ctx == e.first.ctx && p.addr == e.first.addr) = none) :
    effMergeWindowExpiry tine key w = w.mrgEmit tine (mrgKey tine key) := by
  unfold effMergeWindowExpiry
  simp only [hfind, hnone, hopen, Bool.false_eq_true, if_false, false_or]
  exact if_neg (Nat.not_lt.mpr hdue)

theorem effMergeAnswer_answers {w v : W} {tine inp key : Nat} {p : Packet} {e : MrgEnt}
    (ht : w.takeBuf (uTine tine) pMin 3 (fun p => p.op == 0x60) = some (p, inp, v))
    (hfind : Tbl.findBy (fun k e => k / 512 == tine && e.wait && e.first.src == p.dst && e.first.tag == p.tag && e.first.ctx == p.ctx)
      v.col.mrg = some (key, e)) : effMergeAnswer tine w = v.mrgAnswer tine key p.status := by
  unfold effMergeAnswer
  simp only [ht, hfind]

end Sys2Proof.Machine
end

section
/-! PROOFS. POOL_READ and the memory controller's answers (R251, R291). -/

namespace Sys2Proof.Machine

/-! ### POOL_READ (R251) -/

/-- The status of a POOL_READ's checks (R19, R251). -/
def State.poolReadStatus (s : State) (port : Nat) (p : Packet) : Nat :=
  firstOf [(!s.poolForm port p, BADOP),
    (!mgmtPass p.src p.ctx && (maskSegs (pxMask p)).any (fun i =>
      !s.mwinOk (port / 2) p.ctx (p.addr + 256 * i) (segLen (pxRl p) i) true false false), DENIED),
    (s.pkgFenced (uMsp port) p.ctx, FENCED)]

section
variable {s : State} {port : Nat} {p : Packet}

theorem State.poolReadStatus_badop (hform : s.poolForm port p = false) : s.poolReadStatus port p = BADOP := by
  rw [State.poolReadStatus, hform]
  exact firstOf_cons_true (by decide) (by simp [BADOP, DENIED, FENCED, statusPrec])

theorem State.poolReadStatus_denied (hform : s.poolForm port p = true) (hpass : mgmtPass p.src p.ctx = false)
    (hwin : ∃ i ∈ maskSegs (pxMask p), s.mwinOk (port / 2) p.ctx (p.addr + 256 * i) (segLen (pxRl p) i) true false false = false) :
    s.poolReadStatus port p = DENIED := by
  have hany : ((maskSegs (pxMask p)).any fun i =>
      !s.mwinOk (port / 2) p.ctx (p.addr + 256 * i) (segLen (pxRl p) i) true false false) = true := by simpa using hwin
  rw [State.poolReadStatus, hform, hpass, hany, Bool.not_true, firstOf_cons_false]
  exact firstOf_cons_true (by decide) (by simp [DENIED, FENCED, statusPrec])

theorem State.poolReadStatus_ok (hform : s.poolForm port p = true) (hctx : s.pkgFenced (uMsp port) p.ctx = false)
    (hwin : ∀ i ∈ maskSegs (pxMask p), s.mwinOk (port / 2) p.ctx (p.addr + 256 * i) (segLen (pxRl p) i) true false false = true) :
    s.poolReadStatus port p = OK := by
  have hany : ((maskSegs (pxMask p)).any fun i =>
      !s.mwinOk (port / 2) p.ctx (p.addr + 256 * i) (segLen (pxRl p) i) true false false) = false := by simpa using hwin
  exact firstOf_none (by simp [hform, hctx, hany])

end

/-- A POOL_READ that a check refuses is answered with the status for all its segments, and counts (R251, R314). -/
theorem effPoolRead_refused {w : W} {port status : Nat} {p : Packet} (hreq : w.nextReq port 0x40 = some p)
    (hchk : w.poolReadStatus port p = status) (hbad : status ≠ OK) : effPoolRead port w =
      (if status = DENIED
        then ((w.takeReq port p).inc (sliceB (port / 2)) KMSP_POOL_EVT2.pool_refuse).inc (mspB port) KMSP_EVT.win_denied
        else (w.takeReq port p).inc (sliceB (port / 2)) KMSP_POOL_EVT2.pool_refuse).cmp (uMsp port) p status
          (popc (pxMask p) 16) := by
  subst hchk
  unfold effPoolRead
  simp only [hreq]
  exact if_pos hbad

theorem effPoolRead_badop {w : W} {port : Nat} {p : Packet} (hreq : w.nextReq port 0x40 = some p)
    (hform : w.poolForm port p = false) : effPoolRead port w =
      ((w.takeReq port p).inc (sliceB (port / 2)) KMSP_POOL_EVT2.pool_refuse).cmp (uMsp port) p BADOP (popc (pxMask p) 16) := by
  rw [effPoolRead_refused hreq (State.poolReadStatus_badop hform) (by decide), if_neg (by decide)]

theorem effPoolRead_denied {w : W} {port : Nat} {p : Packet} (hreq : w.nextReq port 0x40 = some p)
    (hform : w.poolForm port p = true) (hpass : mgmtPass p.src p.ctx = false)
    (hwin : ∃ i ∈ maskSegs (pxMask p), w.mwinOk (port / 2) p.ctx (p.addr + 256 * i) (segLen (pxRl p) i) true false false = false) :
    effPoolRead port w = (((w.takeReq port p).inc (sliceB (port / 2)) KMSP_POOL_EVT2.pool_refuse).inc (mspB port)
      KMSP_EVT.win_denied).cmp (uMsp port) p DENIED (popc (pxMask p) 16) := by
  rw [effPoolRead_refused hreq (State.poolReadStatus_denied hform hpass hwin) (by decide), if_pos rfl]

/-- A state without what reports, faults and the memory interface touch. -/
def W.noMsp (w : W) : W := { w.bareF with msp := {} }

theorem W.col_of_noMsp {v w : W} (h : v.noMsp = w.noMsp) : v.col = w.col := by have e := congrArg (fun x : W => x.col) h; exact e
theorem W.stores_of_noMsp {v w : W} (h : v.noMsp = w.noMsp) : v.stores = w.stores := by
  have e := congrArg (fun x : W => x.stores) h
  exact e

theorem W.openMem_noMsp (w : W) (port : Nat) (we : Bool) (lo lines : Nat) (act : MemAct) :
    (w.openMem port we lo lines act).noMsp = w.noMsp := by
  unfold W.openMem
  split
  · rfl
  · rfl

/-- The row that a POOL_READ reads. -/
def W.rowRead (w : W) (port : Nat) (p : Packet) : RowRead :=
  { pkt := p
    port := port
    segs := (maskSegs (pxMask p)).map (fun i => (i, w.memRead (loff p.addr + 256 * i) (segLen (pxRl p) i)))
    left := (maskSegs (pxMask p)).length
    bad := (maskSegs (pxMask p)).any (fun i => w.chunkPois (loff p.addr + 256 * i) (segLen (pxRl p) i) != 0) }

/-- Beside the memory interface, a POOL_READ whose lines are not busy and have no owner changes the rows that are read. -/
theorem effPoolRead_reads {w : W} {port : Nat} {p : Packet} (hreq : w.nextReq port 0x40 = some p)
    (hchk : w.poolReadStatus port p = OK)
    (hbusy : ∀ i ∈ maskSegs (pxMask p), w.lineBusy (port / 2) (loff p.addr + 256 * i) (segLen (pxRl p) i) = false)
    (hfree : ∀ i ∈ maskSegs (pxMask p), ∀ l ∈ linesOf (loff p.addr + 256 * i) (segLen (pxRl p) i), w.dirFind (port / 2) l = none) :
    ∃ key, (effPoolRead port w).noMsp = W.noMsp { w with col.rows := w.col.rows.put key (w.rowRead port p) } := by
  unfold effPoolRead
  split
  case h_1 hnone => exact absurd (hnone.symm.trans hreq) (by simp)
  rename_i q hq
  obtain rfl : q = p := Option.some.inj (hq.symm.trans hreq)
  extract_lets slice rl segs chk v at_ v1 owned key parts bad src v2
  have hok : chk = OK := hchk
  have hany : (segs.any fun i => w.lineBusy slice (at_ i) (segLen rl i)) = false := by simpa using hbusy
  have hnil : owned = [] := by
    refine List.filterMap_eq_nil_iff.mpr fun l hl => ?_
    obtain ⟨i, hi, hl⟩ := List.mem_flatMap.mp hl
    have hnone : v1.dirFind slice l = none := hfree i hi l hl
    rw [hnone]
  rw [if_neg (by simp [hok]), hany, if_neg (by simp), hnil]
  refine ⟨key, W.each_inv (fun u => u.noMsp = v2.noMsp) _ _ _ rfl fun u x _ hu => (W.openMem_noMsp ..).trans hu⟩

theorem poolRead_reads {s : State} {port : Nat} {p : Packet} (hr : s.inReset = false) (hreq : s.nextReq port 0x40 = some p)
    (hchk : s.poolReadStatus port p = OK)
    (hbusy : ∀ i ∈ maskSegs (pxMask p), s.lineBusy (port / 2) (loff p.addr + 256 * i) (segLen (pxRl p) i) = false)
    (hfree : ∀ i ∈ maskSegs (pxMask p), ∀ l ∈ linesOf (loff p.addr + 256 * i) (segLen (pxRl p) i), s.dirFind (port / 2) l = none) :
    ∃ t key, exec (.poolRead port) s = .next t ∧ t.col.rows.find key = some (s.w0.rowRead port p) ∧ t.mem = s.mem := by
  obtain ⟨key, h⟩ := effPoolRead_reads (w := s.w0) hreq hchk hbusy hfree
  refine ⟨_, key, run_up _ hr, ?_, State.after_mem_of_no_stores (W.stores_of_noMsp h)⟩
  exact (congrArg (fun c => c.rows.find key) (W.col_of_noMsp h)).trans (Tbl.find_put_self ..)

/-! ### Answers of the memory controller (R291, R308) -/

/-- No line of a request of one line is stored poisoned. -/
theorem W.storedPois_one {w : W} {lo : Nat} (h : w.memPois (lo / 64 * 64) = false) :
    (List.range 1).foldl (fun m j => if w.memPois (lo / 64 * 64 + 64 * j) then setBit m j true else m) 0 = 0 := by
  simp [h]

/-- With no line marked, no chunk of an answer is. -/
theorem chunkMarks_none (l : List Nat) (f g : Nat → Nat) (m : Nat) :
    l.foldl (fun m j => if bit 0 (f j) || bit 0 (g j) then setBit m j true else m) m = m :=
  List.foldl_fixed' (fun j => by simp [bit]) l

/-- The answer that data of no marked line give: to a READ, and to a near cache (R291, R297). -/
def MemAct.readAnswer : MemAct → Option Packet
  | .read p => some { ansTo p p.dst with
      vc := 6, op := 0x03, len := p.data.length, addr := p.addr, data := p.data, pois := p.pois
      status := if p.pois = 0 then OK else POISON }
  | .grant p st => some { ansTo p p.dst with
      vc := 6, op := 0x09, len := 64, addr := p.addr, data := p.data, pois := p.pois, aux := st
      status := if p.pois = 0 then OK else POISON }
  | _ => Option.none

/-- The answer of a request of one line, none of it marked, leaves. -/
theorem effMemoryReadResponse_answers {w : W} {port tag : Nat} {o : MemOp} {a : Packet}
    (hfind : w.msp.opens.find (port * 1024 + tag) = some o) (hread : o.we = false) (hlines : o.lines = 1)
    (hpois : w.memPois (o.loff / 64 * 64) = false) (ha : o.act.readAnswer = some a) : effMemoryReadResponse port tag 0 w =
      (W.inc { w with msp.opens := w.msp.opens.del (port * 1024 + tag) } (mspB port) KMSP_EVT.uncorr_rd 0).reply (uMsp port) a := by
  unfold effMemoryReadResponse
  split
  case h_1 hnone => exact absurd (hnone.symm.trans hfind) (by simp)
  rename_i o' ho'
  obtain rfl : o' = o := Option.some.inj (ho'.symm.trans hfind)
  extract_lets src v mem unc v' u
  have hmem : mem = 0 := by
    unfold mem
    rw [hlines]
    exact W.storedPois_one hpois
  have hunc : unc = 0 := by simp [unc, hmem]
  have hv : v' = v.inc (mspB port) KMSP_EVT.uncorr_rd 0 := by
    unfold v'
    rw [hunc]
    rfl
  rw [if_neg (by simp [hread]), hv, hunc]
  revert ha
  cases o'.act with
  | read p =>
    intro ha
    rw [← Option.some.inj ha]
    simp only [chunkMarks_none]
    rfl
  | grant p st =>
    intro ha
    rw [← Option.some.inj ha]
    simp only [Nat.or_zero]
    rfl
  | none | answer | line | row => exact nofun

end Sys2Proof.Machine
end

section
/-! PROOFS. Near-memory accumulate (R266): a row's segment is added into memory when its port issues it (assumption log row 46). -/

namespace Sys2Proof.Machine

/-! ### A write to the memory window -/

/-- A piece of a line is a store, and no other change. -/
theorem W.writePart_toState (w : W) (sram : Bool) (a : Nat) (d : List Byte) (p : Bool) :
    (w.writePart sram a d p).toState = w.toState := by
  unfold W.writePart
  dsimp only
  split
  · rfl
  · split
    · rfl
    · rfl

theorem W.memWrite_toState (w : W) (a : Nat) (d : List Byte) (pois : Nat) : (w.memWrite a d pois).toState = w.toState :=
  W.each_inv (fun v => v.toState = w.toState) _ _ _ rfl fun _ _ _ h => (W.writePart_toState ..).trans h

theorem W.writePart_cells (w : W) (m : Memory) (a : Nat) (d : List Byte) (p : Bool) :
    (m.apply (w.writePart false a d p).stores).cells = putBytes (m.apply w.stores).cells a d := by
  unfold W.writePart
  dsimp only
  split
  · rw [W.put_stores, W.put_stores, Memory.apply_append, Memory.apply_append]
    rfl
  · split
    · rw [W.put_stores, W.put_stores, Memory.apply_append, Memory.apply_append]
      rfl
    · rw [W.put_stores, Memory.apply_append]
      rfl

/-- The pieces of a write, one after another, are its bytes. -/
theorem foldl_splitLines (f : Nat) : ∀ (m : List Host.Cell) (a j : Nat) (d : List Byte), d.length < f →
    (splitLines f a j d).foldl (fun m p => putBytes m p.1 p.2.1) m = putBytes m a d := by
  induction f with
  | zero => exact fun _ _ _ _ h => absurd h (Nat.not_lt_zero _)
  | succ f ih =>
    intro m a j d hlen
    cases d with
    | nil => rfl
    | cons b d =>
      have hpos : 0 < 64 - a % 64 := Nat.sub_pos_of_lt (Nat.mod_lt _ (by decide))
      rw [splitLines, List.foldl_cons, ih _ _ _ _ (by rw [List.length_cons] at hlen; rw [List.length_drop, List.length_cons]; omega)]
      by_cases hle : 64 - a % 64 ≤ (b :: d).length
      · have h := putBytes_append m a ((b :: d).take (64 - a % 64)) ((b :: d).drop (64 - a % 64))
        rw [List.take_append_drop, List.length_take_of_le hle] at h
        exact h.symm
      · rw [List.take_of_length_le (Nat.le_of_not_le hle), List.drop_of_length_le (Nat.le_of_not_le hle)]
        rfl

/-- A write to the memory window puts its bytes at their address. -/
theorem W.memWrite_cells (w : W) (m : Memory) (a : Nat) (d : List Byte) (pois : Nat) :
    (m.apply (w.memWrite a d pois).stores).cells = putBytes (m.apply w.stores).cells a d := by
  have hparts (l : List (Nat × List Byte × Nat)) : ∀ v : W,
      (m.apply (v.each l fun w p => w.writePart false p.1 p.2.1 (bit pois p.2.2)).stores).cells
        = l.foldl (fun m p => putBytes m p.1 p.2.1) (m.apply v.stores).cells := by
    induction l with
    | nil => exact fun _ => rfl
    | cons p l ih => exact fun v => (ih _).trans (by rw [W.writePart_cells, List.foldl_cons])
  exact (hparts _ w).trans (foldl_splitLines _ _ _ _ _ (Nat.lt_succ_self _))

/-! ### The sum of a segment -/

theorem elemB_dvd (t : Nat) : elemB t ∣ 64 := by
  unfold elemB
  split
  · decide
  · decide
  · decide
  · decide
  · decide

theorem dvd_segLen (rl i : Nat) : 64 ∣ segLen rl i := by
  have h : segLen rl i = 64 * (min (4 * i + 4) rl - 4 * i) := by
    unfold segLen
    omega
  exact ⟨_, h⟩

/-- The sum of two rows of whole elements is as long as they are. -/
theorem combineRow_length {t op : Nat} {a b : List Byte} (hlen : a.length = b.length) (hdvd : elemB t ∣ b.length) :
    (combineRow t op a b).length = b.length := by
  simp [combineRow, elems, hlen, List.length_flatMap, Nat.div_mul_cancel hdvd]

/-! ### The write of a row's segment (R266) -/

theorem W.linesBad_bareF (w : W) (port n : Nat) : (w.linesBad port n).bareF = w.bareF :=
  (W.each_bareF _ _ _ fun v _ => v.uncorrAt_bareF _).trans (W.bareF_of (W.inc_bare ..))

theorem W.openMem_dir (w : W) (port : Nat) (we : Bool) (lo lines : Nat) (act : MemAct) :
    (w.openMem port we lo lines act).msp.dir = w.msp.dir := by
  unfold W.openMem
  split
  · rfl
  · rfl

/-- The write of a segment of a row that is being added. -/
def rowWrite (port addr : Nat) (d : List Byte) (bad : Bool) (key : Nat) : HeldWrite :=
  { port := port, addr := addr, data := d, poison := if bad then 15 else 0, act := .row key }

section
variable {w : W} {port addr key : Nat} {d : List Byte} {bad : Bool} {r : RowRead} (hrow : w.col.rows.find key = some r)
include hrow

/-- What is stored is added to, element by element, and the sum is written. -/
theorem W.doWrite_row : w.doWrite (rowWrite port addr d bad key) =
    ((w.linesBad port (popc (w.memPoisMask addr d.length) 4)).memWrite addr
      (combineRow (mxType r.pkt) 0 (w.memRead addr d.length) d) ((if bad then 15 else 0) ||| w.memPoisMask addr d.length)).openMem
      port true addr ((d.length + 63) / 64) (.row key) := by
  unfold W.doWrite rowWrite
  simp only [hrow]
  rfl

theorem W.doWrite_row_cells : (w.mem.apply (w.doWrite (rowWrite port addr d bad key)).stores).cells
    = putBytes w.now.cells addr (combineRow (mxType r.pkt) 0 (w.memRead addr d.length) d) := by
  rw [W.doWrite_row hrow, W.stores_of_noMsp (W.openMem_noMsp ..), W.memWrite_cells, W.stores_of_bareF (W.linesBad_bareF ..)]
  rfl

theorem W.doWrite_row_dir : (w.doWrite (rowWrite port addr d bad key)).msp.dir = w.msp.dir := by
  rw [W.doWrite_row hrow, W.openMem_dir, W.memWrite_toState, W.msp_of_bareF (W.linesBad_bareF ..)]

end

/-! ### The copies of its lines (R297, R300) -/

theorem State.dirFind_congr {v w : State} (h : v.msp.dir = w.msp.dir) (slice line : Nat) :
    v.dirFind slice line = w.dirFind slice line := by
  rw [State.dirFind, h, ← State.dirFind]

/-- Where no line has an entry, a write snoops nothing. -/
theorem W.writeSnoops_none {w : W} {port a : Nat} {d : List Byte} (dt : Option Nat) (bad : Bool)
    (h : ∀ l ∈ linesOf a d.length, w.dirFind (port / 2) l = none) : w.writeSnoops port a d dt bad = w := by
  refine W.each_inv (fun v => v = w) _ _ _ rfl fun v l hl hv => ?_
  subst hv
  rw [h l hl]

/-! ### NEAR_MEMORY_ACCUMULATE (R266) -/

/-- The status of a MERGE_ROW's checks at a memory port (R19, R266). -/
def State.mergeStatus (s : State) (port : Nat) (p : Packet) : Nat :=
  firstOf [(!s.mergeForm port p, BADOP),
    (!mgmtPass p.src p.ctx && (maskSegs (mxMask p)).any (fun i =>
      !s.mwinOk (port / 2) p.ctx (p.addr + 256 * i) (segLen (mxRl p) i) false true false), DENIED),
    (s.pkgFenced (uMsp port) p.ctx, FENCED)]

/-- A row whose segments are being added. -/
def rowAdds (port : Nat) (p : Packet) : RowRead :=
  { pkt := p, port := port, segs := [], left := (maskSegs (mxMask p)).length, bad := p.bad }

/-- The state with the row taken in and recorded under `key`. -/
def W.rowTaken (w : W) (port : Nat) (p : Packet) (key : Nat) : W :=
  { w.takeReq port p with col.rows := w.col.rows.put key (rowAdds port p) }

theorem maskSegs_one : maskSegs 1 = [0] := by decide

section
variable {s : State} {port : Nat} {p : Packet}

theorem State.mergeStatus_badop (hform : s.mergeForm port p = false) : s.mergeStatus port p = BADOP := by
  rw [State.mergeStatus, hform]
  exact firstOf_cons_true (by decide) (by simp [BADOP, DENIED, FENCED, statusPrec])

theorem State.mergeStatus_one (hform : s.mergeForm port p = true) (hmask : mxMask p = 1) (hctx : s.pkgFenced (uMsp port) p.ctx = false)
    (hwin : s.mwinOk (port / 2) p.ctx p.addr (segLen (mxRl p) 0) false true false = true) : s.mergeStatus port p = OK :=
  firstOf_none (by simp [hform, hmask, maskSegs_one, hctx, hwin])

/-- The data of a row of one segment are that segment's. -/
theorem State.mergeForm_data (hform : s.mergeForm port p = true) (hmask : mxMask p = 1) (hlen : p.data.length = p.len) :
    (p.data.take (segLen (mxRl p) 0)).length = segLen (mxRl p) 0 := by
  simp only [State.mergeForm, hmask, maskSegs_one, Bool.and_eq_true, beq_iff_eq, List.foldl_cons, List.foldl_nil] at hform
  rw [List.length_take]
  omega

end

section
variable {w : W} {port : Nat} {p : Packet} (hreq : w.nextReq port 0x42 = some p)
include hreq

theorem effNearMemoryAccumulate_refused {status : Nat} (hchk : w.mergeStatus port p = status) (hbad : status ≠ OK) :
    effNearMemoryAccumulate port w = (w.takeReq port p).memRefuse port p status := by
  subst hchk
  unfold effNearMemoryAccumulate
  simp only [hreq]
  exact if_pos hbad

/-- A row of one segment is added at once, unless the fault state holds its write (R387). -/
theorem effNearMemoryAccumulate_adds (hchk : w.mergeStatus port p = OK) (hmask : mxMask p = 1) (hfault : w.inFault = false) :
    ∃ key, effNearMemoryAccumulate port w =
      ((w.rowTaken port p key).doWrite (rowWrite port (loff p.addr) (p.data.take (segLen (mxRl p) 0)) p.bad key)).writeSnoops
        port (loff p.addr) (p.data.take (segLen (mxRl p) 0)) (some (mxType p)) p.bad := by
  unfold effNearMemoryAccumulate
  split
  case h_1 hnone => exact absurd (hnone.symm.trans hreq) (by simp)
  rename_i q hq
  obtain rfl : q = p := Option.some.inj (hq.symm.trans hreq)
  extract_lets slice rl segs v chk key src v1 offs
  have hok : chk = OK := hchk
  have hv1 : v1 = w.rowTaken port q key := rfl
  have hsegs : segs = [0] := by
    unfold segs
    rw [hmask]
    exact maskSegs_one
  have hoffs : offs = [(0, 0)] := by simp [offs, hsegs]
  have hissue (h : HeldWrite) : v1.memIssue h = v1.doWrite h := if_neg (by rw [show v1.inFault = w.inFault from rfl, hfault]; simp)
  rw [if_neg (by simp [hok]), hoffs, W.each_cons, W.each_nil]
  refine ⟨key, ?_⟩
  dsimp only
  rw [hissue]
  rfl

end

/-- The bytes that stand in memory once a row of one segment is added. -/
theorem nearMemoryAccumulate_stores {s : State} {port : Nat} {p : Packet} (hr : s.inReset = false)
    (hreq : s.nextReq port 0x42 = some p) (hchk : s.mergeStatus port p = OK) (hmask : mxMask p = 1) (hfault : s.inFault = false)
    (hdata : (p.data.take (segLen (mxRl p) 0)).length = segLen (mxRl p) 0)
    (hfree : ∀ l ∈ linesOf (loff p.addr) (segLen (mxRl p) 0), s.dirFind (port / 2) l = none) :
    ∃ t, exec (.nearMemoryAccumulate port) s = .next t ∧ t.mem.cells = putBytes s.mem.cells (loff p.addr) (combineRow (mxType p) 0
      (getBytes s.mem.cells (loff p.addr) (segLen (mxRl p) 0)) (p.data.take (segLen (mxRl p) 0))) := by
  obtain ⟨key, h⟩ := effNearMemoryAccumulate_adds (w := s.w0) hreq hchk hmask hfault
  have hrow : (s.w0.rowTaken port p key).col.rows.find key = some (rowAdds port p) := Tbl.find_put_self ..
  rw [W.writeSnoops_none] at h
  · refine ⟨_, run_const hr h, ?_⟩
    have hcells := W.doWrite_row_cells (port := port) (addr := loff p.addr) (d := p.data.take (segLen (mxRl p) 0)) (bad := p.bad) hrow
    rw [hdata] at hcells
    exact hcells
  · intro l hl
    rw [hdata] at hl
    exact (State.dirFind_congr (W.doWrite_row_dir hrow) ..).trans (hfree l hl)

theorem nearMemoryAccumulate_adds {s : State} {port : Nat} {p : Packet} (hr : s.inReset = false)
    (hreq : s.nextReq port 0x42 = some p) (hchk : s.mergeStatus port p = OK) (hmask : mxMask p = 1) (hfault : s.inFault = false)
    (hdata : (p.data.take (segLen (mxRl p) 0)).length = segLen (mxRl p) 0)
    (hfree : ∀ l ∈ linesOf (loff p.addr) (segLen (mxRl p) 0), s.dirFind (port / 2) l = none) :
    ∃ t, exec (.nearMemoryAccumulate port) s = .next t
      ∧ getBytes t.mem.cells (loff p.addr) (segLen (mxRl p) 0)
        = combineRow (mxType p) 0 (getBytes s.mem.cells (loff p.addr) (segLen (mxRl p) 0)) (p.data.take (segLen (mxRl p) 0))
      ∧ ∀ x, (x < loff p.addr ∨ loff p.addr + segLen (mxRl p) 0 ≤ x) → Tbl.get 0 t.mem.cells x = Tbl.get 0 s.mem.cells x := by
  obtain ⟨t, ht, hcells⟩ := nearMemoryAccumulate_stores hr hreq hchk hmask hfault hdata hfree
  generalize hrow : combineRow (mxType p) 0 _ _ = row at hcells ⊢
  have hlen : row.length = segLen (mxRl p) 0 := by
    rw [← hrow, combineRow_length (by rw [getBytes_length, hdata]) (by rw [hdata]; exact (elemB_dvd _).trans (dvd_segLen ..)), hdata]
  refine ⟨t, ht, ?_, fun x hx => ?_⟩
  · rw [hcells, ← hlen]
    exact getBytes_putBytes ..
  · rw [hcells]
    exact putBytes_out _ _ x (by rwa [hlen])

end Sys2Proof.Machine
end

section
/-! PROOFS. What bags, pool units and merge units do (R243 to R267). -/

namespace Sys2Proof.Machine

/-- Settles O42, a clause for each event and each way it can go. That a request of a wrong form is refused BADOP is assumption log
row 45, and that a row is added into memory when its port issues the write is row 46. -/
theorem poolsAct : Obligations.PoolsAct := by
  refine ⟨?_, ?_, ?_, ?_, ?_, ?_, ?_, ?_, ?_, ?_, ?_, ?_, ?_, ?_, ?_, ?_, ?_, ?_, ?_⟩
  · intro s st e l i hr h hi
    exact bagSlotAllocate_takes hr h hi
  · intro s st e l i bag hr hl hbag hsent hn
    exact run_eq hr (effBagDescriptor_refused (w := s.w0) hl hbag hsent (W.bagStatus_empty hn) (by decide))
  · intro s st e l i bag row hr hl hbag hsent _ hn h34 hflags h36 h37 h48 hlo hhi hla hda hrow hclean htable hlo33 hhi33 hout hvalid
      hread hown hlist hwrite hctx hall
    have hone : s.w0.bagList st l.desc = [row] := by
      rw [W.bagList, hn, hrow]
      rfl
    have hlen := W.bagOut_one (w := s.w0) hone
    have hlines := W.bagLines_one (w := s.w0) hone
    have hbad := W.bagBad_one (w := s.w0) hone hn h34 hflags h36 h37 h48 hlo hhi hla hda hclean htable hlo33 hhi33 (by rwa [hlen])
    have hmiss := W.bagMiss_one (w := s.w0) hn hflags hlist (by rwa [hlen])
    have hden := W.bagRowDenied_eq_false (w := s.w0) hvalid hread hown
    obtain ⟨t, n, ht, hb, hmem⟩ := bagDescriptor_asks hr hl hbag hsent (W.bagStatus_one hone hbad hden hmiss hctx hall)
    refine ⟨t, _, ht, hb, rfl, ?_, ?_, rfl, rfl, hmem⟩
    · rw [W.bagAsked, hflags]
      rfl
    · rw [W.bagAsked, hn, hlines, Nat.one_mul]
      rfl
  · intro s st p w hr ht
    exact run_eq hr (effPoolPartFold_folds ht)
  · intro s st i b hr hb hsent hdue hmerge
    exact run_eq hr (effBagTimeLimit_merge hb hsent hdue hmerge)
  · intro s st i b hr hb hsent hdue hgather hnone
    exact run_eq hr (effBagTimeLimit_gather hb hsent hdue hgather hnone)
  · intro s region p inp w hr ht
    exact run_eq hr (effPoolPart_takes ht)
  · intro s u key c hr hu hfind hdue
    exact run_eq hr (effPoolLingerExpiry_slice hfind hu hdue)
  · intro s region key c hr hreg hfind hdue hnone
    exact run_eq hr (effPoolLingerExpiry_region hfind (isRouter_uRR hreg) hdue hnone)
  · intro s port p hr hreq hform hpass hwin
    exact run_eq hr (effPoolRead_denied hreq hform hpass hwin)
  · intro s port p hr hreq hform
    exact run_eq hr (effPoolRead_badop hreq hform)
  · intro s port p hr hreq hform hctx hsegs
    obtain ⟨t, key, ht, hrow, hmem⟩ := poolRead_reads hr hreq (State.poolReadStatus_ok hform hctx fun i hi => (hsegs i hi).1)
      (fun i hi => (hsegs i hi).2.1) (fun i hi => (hsegs i hi).2.2)
    exact ⟨t, key, _, ht, hrow, rfl, rfl, rfl, rfl, hmem⟩
  · rintro s port tag o p unc hr hfind hread hact hclean hlines rfl hpois
    exact run_eq hr (effMemoryReadResponse_answers hfind hread hlines hpois (by rw [hact, MemAct.readAnswer, hclean]; rfl))
  · intro s port tag o p st hr hfind hread hact hclean hlines hpois
    exact run_eq hr (effMemoryReadResponse_answers hfind hread hlines hpois (by rw [hact, MemAct.readAnswer, hclean]; rfl))
  · intro s tine p inp w hr ht
    exact run_eq hr (effMergeRow_takes ht)
  · intro s tine key e hr hfind hopen hdue hnone
    exact run_eq hr (effMergeWindowExpiry_emits hfind hopen hdue hnone)
  · intro s tine p inp w key e hr ht hfind
    exact run_eq hr (effMergeAnswer_answers ht hfind)
  · intro s port p hr hreq hform
    exact run_eq hr (effNearMemoryAccumulate_refused (w := s.w0) hreq (State.mergeStatus_badop hform) (by decide))
  · intro s port p hr hreq hform hmask hctx hwin hfault _ hlen hfree
    exact nearMemoryAccumulate_adds hr hreq (State.mergeStatus_one hform hmask hctx hwin) hmask hfault
      (State.mergeForm_data hform hmask hlen) hfree

end Sys2Proof.Machine
end

section
/-! PROOFS. The memories' canonical form (R275, R292, R308): a command changes them by its stores alone. -/

namespace Sys2Proof.Machine

theorem Safe.after {s : State} (h : Safe s) (f : W → W) : Safe (s.after f) := Memory.apply_wf _ h

theorem Safe.of_runPin {s t : State} {f : W → W} (h : Safe s) (ht : runPin f s = .next t) : Safe t := by
  cases ht
  exact h.after f

/-- Held in reset or not, an effect leaves the memories canonical. -/
theorem Safe.of_run {s t : State} {f : W → W} (h : Safe s) (ht : run f s = .next t) : Safe t := by
  cases hr : s.inReset with
  | true =>
    rw [run_down f hr] at ht
    cases ht
    exact h
  | false =>
    rw [run_up f hr] at ht
    cases ht
    exact h.after f

theorem Safe.of_exec {s t : State} {c : Instr} (h : Safe s) (ht : exec c s = .next t) : Safe t := by
  by_cases hc : c.isPin
  · obtain ⟨f, hf⟩ := exec_eq_runPin_of_isPin hc
    exact h.of_runPin (hf s ▸ ht)
  · obtain ⟨f, hf⟩ := exec_eq_run_of_not_isPin hc
    exact h.of_run (hf s ▸ ht)

/-- Settles O57: a step runs the queue's front command, or the cycle's effect where the queue is empty. -/
theorem stepKeepsSafe : Obligations.StepKeepsSafe := by
  intro s t h ht
  unfold step at ht
  split at ht
  · exact h.of_runPin ht
  · next c rest _ =>
    have hrest : Safe { s with pending := rest } := h
    exact hrest.of_exec ht

end Sys2Proof.Machine
end

section
/-! PROOFS. Memory operations at their targets (R274, R277, R281 to R284, R290, R298, R304, R305). -/

namespace Sys2Proof.Machine

/-- A command whose effect changes nothing answers the state as it was. -/
theorem run_same {s : State} {f : W → W} (hr : s.inReset = false) (h : f s.w0 = s.w0) : run f s = .next s :=
  (run_up f hr).trans (congrArg _ (State.after_eq_self h))

/-! ### The next request at a memory port -/

/-- The next request of an operation is one of that operation. -/
theorem State.nextReq_op {s : State} {m op : Nat} {p : Packet} (h : s.nextReq m op = some p) : p.op = op := by
  unfold State.nextReq at h
  split at h
  · exact absurd h (by simp)
  · next q hq =>
    split at h
    · obtain rfl := Option.some.inj h
      exact beq_iff_eq.mp (List.find?_some hq :)
    · exact absurd h (by simp)

/-- A WRITE, or a CWRITE, is never deferred. -/
theorem State.deferBars_write {s : State} {m : Nat} {p : Packet} (h : p.op = 0x01 ∨ p.op = 0x0C) : s.deferBars m p = false := by
  rcases h with h | h
  · simp [State.deferBars, h]
  · simp [State.deferBars, h]

section
variable {w : W} {m op : Nat} {f : W → Packet → W} {p : Packet} (hreq : w.nextReq m op = some p)
include hreq

theorem W.serve_takes (hchk : w.memCheck m p = OK) (hbar : w.deferBars m p = false) : w.serve m op f = f (w.takeReq m p) p := by
  simp [W.serve, hreq, hchk, hbar]

theorem W.serve_waits (hchk : w.memCheck m p = OK) (hbar : w.deferBars m p = true) : w.serve m op f = w := by
  simp [W.serve, hreq, hchk, hbar]

theorem W.serve_refuses (hchk : w.memCheck m p ≠ OK) : w.serve m op f = (w.takeReq m p).memRefuse m p (w.memCheck m p) := by
  simp [W.serve, hreq, hchk]

end

/-! ### The next access at a station -/

section
variable {w v : W} {st op : Nat} {f : W → Packet → W} {p : Packet}
  (ht : w.takeAny (uSt st) (fun x => x.op == op && !w.stnWaits st x) = some (p, v))
include ht

theorem W.stnServe_takes (hchk : v.stnCheck st p = OK) : w.stnServe st op f = f v p := by
  simp [W.stnServe, ht, hchk]

theorem W.stnServe_refuses (hchk : v.stnCheck st p ≠ OK) : w.stnServe st op f
    = (v.winDenied st (v.stnCheck st p == DENIED && !toRegs p)).cmp (uSt st) p (v.stnCheck st p) := by
  simp [W.stnServe, ht, hchk]

end

/-! ### Which target a unit is -/

section
variable {w : W} {op : Nat} {mem stn : Nat → W → Packet → W}

theorem W.target_msp {m : Nat} (hm : m < 64) : w.target (uMsp m) op mem stn = w.serve m op (mem m) := by
  have hu : 0x2000 ≤ uMsp m ∧ uMsp m < 0x2040 := by unfold uMsp; omega
  rw [W.target, if_pos hu, uMsp_sub]

theorem W.target_st {st : Nat} (hst : st < 4096) : w.target (uSt st) op mem stn = w.stnServe st op (stn st) := by
  have hu := uSt_range hst
  rw [W.target, if_neg (by omega), if_pos hu, uSt_sub]

/-- The FMP and the host answer that they are no target (assumption log row 49). -/
theorem W.target_none {v : W} {u : Nat} {p : Packet} (hu : u = uFmp ∨ u = uHost) (ht : w.takeAny u (fun x => x.op == op) = some (p, v)) :
    w.target u op mem stn = v.cmp u p BADOP := by
  have hlarge : 0x2080 ≤ u := by unfold uFmp uHost at hu; omega
  rw [W.target, if_neg (by omega), if_neg (by omega), W.noTarget, if_neg (by omega), ht]

end

/-! ### The next request of a memory port, where it passes its checks -/

section
variable {s : State} {m : Nat} {p : Packet} (hr : s.inReset = false) (hm : m < 64)
include hr hm

theorem exec_read_taken (hreq : s.nextReq m 0x02 = some p) (hchk : s.memCheck m p = OK) (hbar : s.deferBars m p = false) :
    exec (.read (uMsp m)) s = .next (s.after fun w => (w.takeReq m p).readAt m p) :=
  run_eq hr ((W.target_msp hm).trans (W.serve_takes hreq hchk hbar))

theorem exec_write_taken (hreq : s.nextReq m 0x01 = some p) (hchk : s.memCheck m p = OK) :
    exec (.write (uMsp m)) s = .next (s.after fun w => (w.takeReq m p).writeAt m p) :=
  run_eq hr ((W.target_msp hm).trans (W.serve_takes hreq hchk (State.deferBars_write (.inl (State.nextReq_op hreq)))))

theorem exec_cwrite_taken (hreq : s.nextReq m 0x0C = some p) (hchk : s.memCheck m p = OK) :
    exec (.cwrite (uMsp m)) s = .next (s.after fun w => (w.takeReq m p).writeAt m p) :=
  run_eq hr ((W.target_msp hm).trans (W.serve_takes hreq hchk (State.deferBars_write (.inr (State.nextReq_op hreq)))))

theorem exec_atomic_taken (hreq : s.nextReq m 0x0A = some p) (hchk : s.memCheck m p = OK) (hbar : s.deferBars m p = false) :
    exec (.atomic (uMsp m)) s = .next (s.after fun w => (w.takeReq m p).atomicAt m p) :=
  run_eq hr ((W.target_msp hm).trans (W.serve_takes hreq hchk hbar))

end

/-- Settles O26, a clause for each operation, target and outcome. Which access of a station waits is assumption log row 50, and that the
FMP and the host are no target is row 49. -/
theorem targetsAct : Obligations.TargetsAct := by
  refine ⟨?_, ?_, ?_, ?_, ?_, ?_, ?_, ?_, ?_, ?_, ?_, ?_⟩
  · intro s m p hr hm hreq hchk hbar
    exact exec_read_taken hr hm hreq hchk hbar
  · intro s m p hr hm hreq hchk
    exact exec_write_taken hr hm hreq hchk
  · intro s m p hr hm hreq hchk
    exact exec_cwrite_taken hr hm hreq hchk
  · intro s m p hr hm hreq hchk hbar
    exact exec_atomic_taken hr hm hreq hchk hbar
  · intro s m p hr hm hchk hbar
    refine ⟨fun hreq => ?_, fun hreq => ?_⟩
    · exact run_same hr ((W.target_msp hm).trans (W.serve_waits hreq hchk hbar))
    · exact run_same hr ((W.target_msp hm).trans (W.serve_waits hreq hchk hbar))
  · intro s m p hr hm hchk
    refine ⟨fun hreq => ?_, fun hreq => ?_, fun hreq => ?_, fun hreq => ?_⟩
    · exact run_eq hr ((W.target_msp hm).trans (W.serve_refuses hreq hchk))
    · exact run_eq hr ((W.target_msp hm).trans (W.serve_refuses hreq hchk))
    · exact run_eq hr ((W.target_msp hm).trans (W.serve_refuses hreq hchk))
    · exact run_eq hr ((W.target_msp hm).trans (W.serve_refuses hreq hchk))
  · intro s st p w hr hst ht hchk
    exact run_const hr ((W.target_st hst).trans (W.stnServe_takes ht hchk))
  · intro s st p w hr hst ht hchk
    exact run_const hr ((W.target_st hst).trans (W.stnServe_takes ht hchk))
  · intro s st p w hr hst ht hchk
    exact run_const hr ((W.target_st hst).trans (W.stnServe_takes ht hchk))
  · intro s st p w hr hst ht hchk
    exact run_const hr ((W.target_st hst).trans (W.stnServe_takes ht hchk))
  · intro s st p w hr hst hchk
    refine ⟨fun ht => ?_, fun ht => ?_, fun ht => ?_, fun ht => ?_⟩
    · exact run_const hr ((W.target_st hst).trans (W.stnServe_refuses ht hchk))
    · exact run_const hr ((W.target_st hst).trans (W.stnServe_refuses ht hchk))
    · exact run_const hr ((W.target_st hst).trans (W.stnServe_refuses ht hchk))
    · exact run_const hr ((W.target_st hst).trans (W.stnServe_refuses ht hchk))
  · intro s u p w hr hu
    refine ⟨fun ht => ?_, fun ht => ?_, fun ht => ?_, fun ht => ?_⟩
    · exact run_const hr (W.target_none hu ht)
    · exact run_const hr (W.target_none hu ht)
    · exact run_const hr (W.target_none hu ht)
    · exact run_const hr (W.target_none hu ht)

end Sys2Proof.Machine
end

section
/-! PROOFS. What the directory grants (R296 to R299). -/

namespace Sys2Proof.Machine

/-! ### What the directory's operations leave as it was -/

theorem W.memFetch_dir (w : W) (port lo n : Nat) (act : Packet → MemAct) (p : Packet) :
    (w.memFetch port lo n act p).msp.dir = w.msp.dir := W.openMem_dir ..

theorem W.grant_dir (w : W) (port : Nat) (p : Packet) (st : Nat) : (w.grant port p st).msp.dir = w.msp.dir := W.memFetch_dir ..

/-- An entry granted a line is the most recent. -/
theorem W.touch_dir (w : W) (key : Nat) (e : DirEnt) :
    (w.touch key e).msp.dir = w.msp.dir.put key { e with lru := w.msp.lruSeq + 1 } := rfl

theorem W.msp_of_noNet {v w : W} (h : v.noNet = w.noNet) : v.msp = w.msp := by have e := congrArg (fun x : W => x.msp) h; exact e
theorem W.fc_of_noNet {v w : W} (h : v.noNet = w.noNet) : v.fc = w.fc := by have e := congrArg (fun x : W => x.fc) h; exact e

/-- An entry whose holders, named one by one, are being snooped. -/
def DirEnt.snooped (e : DirEnt) (n fc : Nat) (pend : Option (Nat × Packet)) : DirEnt :=
  { e with busy := true, acks := n, pend := pend, snoopT := fc, lost := false, wbWait := false, upd := false }

/-- Snoops to stations leave their packets in the net, and their entry busy. -/
theorem W.snoop_stations (w : W) (port key op : Nat) {e : DirEnt} (dsts : List Nat) (pend : Option (Nat × Packet)) (hv : e.vmode = false) :
    (w.snoop port key e op dsts pend).msp.dir = w.msp.dir.put key (e.snooped dsts.length w.fc pend)
      ∧ (w.snoop port key e op dsts pend).stores = w.stores := by
  unfold W.snoop
  extract_lets slice base regs acks v u
  have hacks : acks = dsts.length := if_neg (by simp [hv])
  have hu : u.noNet = v.noNet := by
    unfold u
    rw [if_neg (by simp [hv])]
    exact W.each_inv (fun x => x.noNet = v.noNet) _ _ _ rfl fun x _ _ h => (W.request_noNet ..).trans h
  refine ⟨?_, ?_⟩
  · rw [W.ev_msp, W.msp_of_noNet hu, ← hacks]
    rfl
  · rw [W.ev_stores, W.stores_of_noNet hu]
    rfl

/-! ### How a coherent request is decided (R297, R298) -/

section
variable {w : W} {m key : Nat} {p : Packet} {e : DirEnt}

/-- The first holder of a line has it E, or M to write it. -/
theorem W.coherent_first (hnone : w.dirFind (m / 2) (loff p.addr / 64) = none) (hway : w.freeWay (m / 2) (loff p.addr / 64) = some key) :
    w.coherent m p = (w.touch key { line := loff p.addr / 64, st := if p.op = 4 then 2 else 3, ptrs := [p.src] }).grant m p
      (if p.op = 4 then 2 else 3) := by
  simp only [W.coherent, hnone, hway]

variable (hfind : w.dirFind (m / 2) (loff p.addr / 64) = some (key, e))
include hfind

theorem W.coherent_busy (hbusy : e.busy = true) : w.coherent m p = w.defer m p := by
  simp [W.coherent, hfind, hbusy]

variable (hfree : e.busy = false)
include hfree

/-- A further reader of a shared line is a sharer of it. -/
theorem W.coherent_share (hst : e.st = 1) (hop : p.op = 4) (hv : (e.add p.src).vmode = false) :
    w.coherent m p = (w.touch key (e.add p.src)).grant m p 1 := by
  simp [W.coherent, hfind, hfree, hst, hop, hv]

/-- A reader of another station's line waits for that owner. -/
theorem W.coherent_down (hst : 2 ≤ e.st) (hop : p.op = 4) (hother : e.ptrs ≠ [p.src]) :
    w.coherent m p = w.snoop m key e 0x51 e.ptrs (some (m, p)) := by
  have hne : e.st ≠ 1 := by omega
  simp [W.coherent, hfind, hfree, hne, hop, hother]

end

/-- A new sharer, of less than five. -/
theorem DirEnt.add_pointer {e : DirEnt} {l : Nat} (hv : e.vmode = false) (hnew : e.ptrs.contains l = false) (hlen : e.ptrs.length < 4) :
    e.add l = { e with ptrs := e.ptrs ++ [l] } := by
  rw [DirEnt.add, if_neg (by simp [hv]), if_neg (by rw [hnew]; decide), if_pos hlen]

theorem State.after_msp_w0 (s : State) (f : W → W) : (s.after f).msp = (f s.w0).msp := rfl

/-- Settles O30, a clause for each case of the decision. -/
theorem directoryDecides : Obligations.DirectoryDecides := by
  refine ⟨?_, ?_, ?_, ?_⟩
  · intro s m p key hnone hway
    rw [State.after_msp_w0, W.coherent_first (w := s.w0) hnone hway, W.grant_dir, W.touch_dir, Tbl.find_put_self]
    rfl
  · intro s m p key e hfind hfree hst hop hv hnew hlen
    have hadd := DirEnt.add_pointer hv hnew hlen
    rw [State.after_msp_w0, W.coherent_share (w := s.w0) hfind hfree hst hop (by rw [hadd]; exact hv), W.grant_dir, W.touch_dir,
      Tbl.find_put_self, hadd]
    rfl
  · intro s m p key e o hfind hfree hst hptrs hother hv hop
    have hne : e.ptrs ≠ [p.src] := by simp [hptrs, hother]
    have heff := W.coherent_down (w := s.w0) hfind hfree hst hop hne
    obtain ⟨hdir, hstores⟩ := s.w0.snoop_stations m key 0x51 e.ptrs (some (m, p)) hv
    refine ⟨e.snooped e.ptrs.length s.fc (some (m, p)), ?_, rfl, by rw [hptrs]; rfl, rfl, rfl, ?_⟩
    · rw [State.after_msp_w0, heff, hdir]
      exact Tbl.find_put_self ..
    · exact State.after_mem_of_no_stores (by rw [heff, hstores]; rfl)
  · intro s m p key e hfind hbusy
    have heff := W.coherent_busy (w := s.w0) hfind hbusy
    refine ⟨?_, ?_⟩
    · rw [State.after_msp_w0, heff]
      rfl
    · rw [State.after_msp_w0, heff]
      exact Tbl.find_put_self ..

end Sys2Proof.Machine
end

section
/-! PROOFS. What a memory port stores (R282, R284, R294): a write takes effect when it is issued (assumption log row 46). -/

namespace Sys2Proof.Machine

/-! ### One write to the memory window -/

/-- From `m` to `t` bytes `d` were written at `a` of the memory window, and nothing else but poison marks. -/
def Memory.Stored (m t : Memory) (a : Nat) (d : List Byte) : Prop := t.cells = putBytes m.cells a d ∧ t.sram = m.sram

/-- The bytes stand there, and every other byte is as it was. -/
theorem Memory.Stored.reads {m t : Memory} {a n : Nat} {d : List Byte} (h : m.Stored t a d) (hn : d.length = n) :
    getBytes t.cells a n = d ∧ (∀ x, (x < a ∨ a + n ≤ x) → Tbl.get 0 t.cells x = Tbl.get 0 m.cells x) ∧ t.sram = m.sram := by
  subst hn
  obtain ⟨hcells, hsram⟩ := h
  rw [hcells]
  exact ⟨getBytes_putBytes .., fun x hx => putBytes_out _ _ x hx, hsram⟩

theorem W.writePart_sram (w : W) (m : Memory) (a : Nat) (d : List Byte) (p : Bool) :
    (m.apply (w.writePart false a d p).stores).sram = (m.apply w.stores).sram := by
  unfold W.writePart
  dsimp only
  split_ifs
  all_goals
    simp only [W.put_stores, Memory.apply_append]
    rfl

/-- A write to the memory window, with the request that it opens at the controller. -/
def W.writeOpen (w : W) (port a : Nat) (d : List Byte) (pois n : Nat) (act : MemAct) : W :=
  (w.memWrite a d pois).openMem port true a n act

theorem W.writeOpen_stored {w : W} {m : Memory} (port a : Nat) (d : List Byte) (pois n : Nat) (act : MemAct) (h : m.apply w.stores = m) :
    m.Stored (m.apply (w.writeOpen port a d pois n act).stores) a d := by
  rw [W.writeOpen, W.stores_of_noMsp (W.openMem_noMsp ..)]
  refine ⟨by rw [W.memWrite_cells, h], ?_⟩
  exact W.each_inv (fun v => (m.apply v.stores).sram = m.sram) _ _ _ (by rw [h]) fun v _ _ hv => (W.writePart_sram ..).trans hv

theorem W.writeOpen_dir (w : W) (port a : Nat) (d : List Byte) (pois n : Nat) (act : MemAct) :
    (w.writeOpen port a d pois n act).msp.dir = w.msp.dir := by
  rw [W.writeOpen, W.openMem_dir, W.memWrite_toState]

/-! ### What each kind of write does -/

theorem W.heldBytes_all {w : W} {h : HeldWrite} (hkeep : h.keep = 0) : w.heldBytes h = w.memWrite h.addr h.data h.poison := if_pos hkeep

/-- A WRITE or CWRITE writes all its bytes. -/
theorem W.doWrite_bytes (w : W) (port : Nat) {p : Packet} (hop : p.op ≠ 0x0A) : w.doWrite (heldOf port p) =
    w.writeOpen port (loff p.addr) p.data (linePois p.addr p.pois) ((loff p.addr % 64 + p.data.length + 63) / 64) (.answer p) := by
  simp only [W.doWrite, heldOf, if_neg hop]
  rw [W.heldBytes_all rfl]
  rfl

/-- What an ATOMIC writes (R282). -/
def W.atomicData (w : W) (p : Packet) : List Byte := toLE 8 (atomicNew (bits p.aux 0 4) (le (w.memRead (loff p.addr) 8) 0 8) p.data)

/-- An ATOMIC writes its new value, having counted a line that it read uncorrectable. -/
theorem W.doWrite_atomic (w : W) (port : Nat) {p : Packet} (hop : p.op = 0x0A) : ∃ n act, w.doWrite (heldOf port p) =
    (w.linesBad port n).writeOpen port (loff p.addr) (w.atomicData p) 0 1 act := by
  simp only [W.doWrite, heldOf, if_pos hop]
  exact ⟨_, _, rfl⟩

theorem W.memIssue_now {w : W} {h : HeldWrite} (hfault : w.inFault = false) : w.memIssue h = w.doWrite h :=
  if_neg (by rw [hfault]; decide)

/-! ### WRITE, CWRITE and ATOMIC at a memory port -/

theorem State.after_mem_w0 (s : State) (f : W → W) : (s.after f).mem = s.mem.apply (f s.w0).stores := rfl

/-- A WRITE or CWRITE of lines with no near copy writes its bytes. -/
theorem State.after_writeAt {s : State} {m : Nat} {p : Packet} (hop : p.op ≠ 0x0A) (hfault : s.inFault = false)
    (hfree : ∀ l ∈ linesOf (loff p.addr) p.data.length, s.dirFind (m / 2) l = none) :
    s.mem.Stored (s.after fun w => (w.takeReq m p).writeAt m p).mem (loff p.addr) p.data := by
  rw [State.after_mem_w0, W.writeAt, W.memIssue_now hfault, W.doWrite_bytes _ _ hop, W.writeSnoops_none]
  · exact W.writeOpen_stored _ _ _ _ _ _ rfl
  · exact fun l hl => (State.dirFind_congr (W.writeOpen_dir ..) ..).trans (hfree l hl)

/-- An ATOMIC of a line with no near copy writes its new value. -/
theorem State.after_atomicAt {s : State} {m : Nat} {p : Packet} (hop : p.op = 0x0A) (hfault : s.inFault = false)
    (hfree : s.dirFind (m / 2) (loff p.addr / 64) = none) :
    s.mem.Stored (s.after fun w => (w.takeReq m p).atomicAt m p).mem (loff p.addr) (s.w0.atomicData p) := by
  obtain ⟨n, act, hdo⟩ := (s.w0.takeReq m p).doWrite_atomic m hop
  have hnone : (s.w0.takeReq m p).dirFind (m / 2) (loff p.addr / 64) = none := hfree
  rw [State.after_mem_w0, W.atomicAt, hnone]
  dsimp only
  rw [W.memIssue_now hfault, hdo]
  exact W.writeOpen_stored _ _ _ _ _ _ (by rw [W.stores_of_bareF (W.linesBad_bareF ..)]; rfl)

/-- A request that passes its port's checks is of the right form. -/
theorem State.memForm_of_check {s : State} {m : Nat} {p : Packet} (h : s.memCheck m p = OK) : s.memForm p = true := by
  by_contra hform
  have hle : statusPrec (s.memCheck m p) ≤ statusPrec BADOP :=
    statusPrec_firstOf_le (c := (!s.memForm p, BADOP)) List.mem_cons_self (by simp [hform])
  rw [h] at hle
  exact absurd hle (by decide)

/-- An ATOMIC lies in one line, so one whose line has no entry need not be deferred. -/
theorem State.deferBars_atomic {s : State} {m : Nat} {p : Packet} (hop : p.op = 0x0A) (hform : s.memForm p = true)
    (hfree : s.dirFind (m / 2) (loff p.addr / 64) = none) : s.deferBars m p = false := by
  have halign : loff p.addr % 8 = 0 := by
    simp only [State.memForm, hop, Bool.and_eq_true, beq_iff_eq] at hform
    exact hform.1.1.1
  have hone : (loff p.addr % 64 + 8 + 63) / 64 = 1 := by omega
  have hbytes : opBytes p = 8 := by simp [opBytes, hop]
  have hbusy : s.lineBusy (m / 2) (loff p.addr) (opBytes p) = false := by
    simp [State.lineBusy, linesOf, hbytes, hone, hfree]
  simp [State.deferBars, State.mustDefer, hbusy, hop]

/-- Settles O55: each store is one write to the memory window, made when the port issues it (assumption log row 46). -/
theorem memoryStores : Obligations.MemoryStores := by
  refine ⟨?_, ?_⟩
  · intro s m p hr hm hchk hfault hlen hfree
    have hstored (hop : p.op ≠ 0x0A) := (State.after_writeAt hop hfault (m := m) (by rwa [hlen])).reads hlen
    refine ⟨fun hop hreq => ?_, fun hop hreq => ?_⟩
    · exact ⟨_, exec_write_taken hr hm hreq hchk, hstored (by rw [hop]; decide)⟩
    · exact ⟨_, exec_cwrite_taken hr hm hreq hchk, hstored (by rw [hop]; decide)⟩
  · intro s m p hr hm hreq hop hchk hfault hfree
    have hbar := State.deferBars_atomic hop (State.memForm_of_check hchk) hfree
    exact ⟨_, exec_atomic_taken hr hm hreq hchk hbar, (State.after_atomicAt hop hfault hfree).reads (toLE_length 8 _)⟩

end Sys2Proof.Machine
end

section
/-! PROOFS. Coherent packets at a memory port (R290, R295 to R303). -/

namespace Sys2Proof.Machine

/-! ### Write-backs (R297, R301) -/

section
variable {w : W} {m key : Nat} {p : Packet} {e : DirEnt} (hreq : w.nextReq m 0x07 = some p) (hform : w.memForm p = true)
  (hlen : p.data.length = 64)
include hreq hform hlen

/-- What a WB finds of its line decides it. -/
theorem effWb_decides : effWb m w = match w.dirFind (m / 2) (loff p.addr / 64) with
    | some (key, e) =>
      if 2 ≤ e.st && e.ptrs == [p.src] then
        if !e.busy then ((w.takeReq m p).delDir key).memIssue (heldOf m { p with aux := 0 })
        else if e.wbWait || 0 < e.acks then
          ((w.takeReq m p).setDir key { e with ptrs := [], wbWait := false, upd := true }).memIssue
            (e.snoopWrite m p.data p.bad (.answer { p with aux := 1 }))
        else (w.takeReq m p).cmp (uMsp m) p OK
      else (w.takeReq m p).cmp (uMsp m) p OK
    | none => (w.takeReq m p).cmp (uMsp m) p OK := by
  have hgood : ¬ (!(w.takeReq m p).memForm p ∨ p.data.length ≠ 64) := by
    rw [show (w.takeReq m p).memForm p = true from hform]
    simp [hlen]
  unfold effWb
  simp only [hreq]
  exact if_neg hgood

/-- Of a station that does not own the line, or whose snoop is already answered, it is ignored. -/
theorem effWb_ignored (h : ∀ key e, w.dirFind (m / 2) (loff p.addr / 64) = some (key, e) →
      e.st < 2 ∨ e.ptrs ≠ [p.src] ∨ (e.busy = true ∧ e.wbWait = false ∧ e.acks = 0)) :
    effWb m w = (w.takeReq m p).cmp (uMsp m) p OK := by
  rw [effWb_decides hreq hform hlen]
  cases hfind : w.dirFind (m / 2) (loff p.addr / 64) with
  | none => rfl
  | some x =>
    obtain ⟨key, e⟩ := x
    rcases h key e hfind with hst | hptrs | ⟨hbusy, hwait, hacks⟩
    · simp [hst]
    · simp [hptrs]
    · simp [hbusy, hwait, hacks]

variable (hfind : w.dirFind (m / 2) (loff p.addr / 64) = some (key, e)) (hst : 2 ≤ e.st) (hptrs : e.ptrs = [p.src])
include hfind hst hptrs

theorem effWb_writes (hfree : e.busy = false) :
    effWb m w = ((w.takeReq m p).delDir key).memIssue (heldOf m { p with aux := 0 }) := by
  rw [effWb_decides hreq hform hlen, hfind]
  simp [hst, hptrs, hfree]

theorem effWb_snooped (hbusy : e.busy = true) (hdue : e.wbWait = true ∨ 0 < e.acks) :
    effWb m w = ((w.takeReq m p).setDir key { e with ptrs := [], wbWait := false, upd := true }).memIssue
      (e.snoopWrite m p.data p.bad (.answer { p with aux := 1 })) := by
  rw [effWb_decides hreq hform hlen, hfind]
  simp [hst, hptrs, hbusy, hdue]

end

/-! ### Evictions (R297, R298) -/

section
variable {w : W} {m key : Nat} {p : Packet} {e : DirEnt} (hreq : w.nextReq m 0x08 = some p) (hform : w.memForm p = true)
include hreq hform

theorem effEvict_defers (hdefer : w.mustDefer m p = true) (hroom : w.deferFull m = false) :
    effEvict m w = (w.takeReq m p).defer m p := by
  simp [effEvict, hreq, hform, hdefer, hroom]

variable (hfree : w.mustDefer m p = false)
include hfree

/-- The directory without the holder that evicts the line. -/
theorem effEvict_decides : effEvict m w = (match w.dirFind (m / 2) (loff p.addr / 64) with
    | some (key, e) =>
      if e.vmode || !e.ptrs.contains p.src then w.takeReq m p
      else if e.ptrs.erase p.src == [] then (w.takeReq m p).delDir key
      else (w.takeReq m p).setDir key { e with ptrs := e.ptrs.erase p.src }
    | none => w.takeReq m p).cmp (uMsp m) p OK := by
  have hgood : ¬ !(w.takeReq m p).memForm p := by
    rw [show (w.takeReq m p).memForm p = true from hform]
    simp
  unfold effEvict
  simp only [hreq, hfree, Bool.and_false, Bool.false_eq_true, if_false]
  exact if_neg hgood

/-- An EVICT of a station that the entry does not name is ignored. -/
theorem effEvict_ignored (h : ∀ key e, w.dirFind (m / 2) (loff p.addr / 64) = some (key, e) → e.vmode = true ∨ p.src ∉ e.ptrs) :
    effEvict m w = (w.takeReq m p).cmp (uMsp m) p OK := by
  rw [effEvict_decides hreq hform hfree]
  cases hfind : w.dirFind (m / 2) (loff p.addr / 64) with
  | none => rfl
  | some x =>
    obtain ⟨key, e⟩ := x
    rcases h key e hfind with hv | hsrc
    · simp [hv]
    · simp [hsrc]

variable (hfind : w.dirFind (m / 2) (loff p.addr / 64) = some (key, e)) (hv : e.vmode = false) (hsrc : p.src ∈ e.ptrs)
include hfind hv hsrc

theorem effEvict_removes (hothers : e.ptrs.erase p.src ≠ []) :
    effEvict m w = ((w.takeReq m p).setDir key { e with ptrs := e.ptrs.erase p.src }).cmp (uMsp m) p OK := by
  rw [effEvict_decides hreq hform hfree, hfind]
  simp [hv, hsrc, hothers]

theorem effEvict_last (hlast : e.ptrs.erase p.src = []) :
    effEvict m w = ((w.takeReq m p).delDir key).cmp (uMsp m) p OK := by
  rw [effEvict_decides hreq hform hfree, hfind]
  simp [hv, hsrc, hlast]

end

/-! ### Answers of snoops (R297, R299 to R301) -/

section
variable {w v u : W} {m key : Nat} {p : Packet} {e : DirEnt} (ht : w.takeVc (uMsp m) 3 (fun p => p.op == 0x58) = some (p, v))
  (hans : v.snoopAns m p = (some key, u)) (hfind : u.msp.dir.find key = some e)
include ht hans hfind

theorem effSack_decides : effSack m w = (let wbp := bit p.aux 2 && 2 ≤ e.st && e.ptrs != []
    let e := { e with acks := e.acks - 1, wbWait := e.wbWait || wbp }
    u.setDir key (if e.st = 1 || wbp || bits p.aux 0 2 != 0 then e else { e with ptrs := [] })).dirFinish key := by
  simp only [effSack, ht, hans, hfind]

theorem effSack_shared (hst : e.st = 1) : effSack m w = (u.setDir key { e with acks := e.acks - 1 }).dirFinish key := by
  simp [effSack_decides ht hans hfind, hst]

/-- The owner's WB is in flight: the directory waits for it. -/
theorem effSack_wbp (hst : 2 ≤ e.st) (hbit : bit p.aux 2 = true) (hptrs : e.ptrs ≠ []) :
    effSack m w = (u.setDir key { e with acks := e.acks - 1, wbWait := true }).dirFinish key := by
  have hsome : (e.ptrs != []) = true := by simpa using hptrs
  simp [effSack_decides ht hans hfind, hst, hbit, hsome]

theorem effSack_gone (hst : 2 ≤ e.st) (hbit : bit p.aux 2 = false) (hstate : bits p.aux 0 2 = 0) :
    effSack m w = (u.setDir key { e with acks := e.acks - 1, ptrs := [] }).dirFinish key := by
  have hne : e.st ≠ 1 := by omega
  simp [effSack_decides ht hans hfind, hne, hbit, hstate]

theorem effSack_kept (hbit : bit p.aux 2 = false) (hstate : bits p.aux 0 2 ≠ 0) :
    effSack m w = (u.setDir key { e with acks := e.acks - 1 }).dirFinish key := by
  simp [effSack_decides ht hans hfind, hbit, hstate]

end

/-- An answer of a snoop changes its request alone. -/
theorem W.snoopAns_noNet {w v : W} {m : Nat} {p : Packet} {k : Option Nat} (h : w.snoopAns m p = (k, v)) : v.noNet = w.noNet := by
  unfold W.snoopAns at h
  split at h
  · split at h
    · obtain ⟨-, rfl⟩ := Prod.mk.inj h
      rw [apply_ite W.noNet]
      exact ite_self _
    · obtain ⟨-, rfl⟩ := Prod.mk.inj h
      rfl
  · obtain ⟨-, rfl⟩ := Prod.mk.inj h
    rfl

theorem effSdata_writes {w v : W} {m key : Nat} {p : Packet} {e : DirEnt} (hreq : w.nextReq m 0x59 = some p)
    (hans : (w.takeReq m p).snoopAns m p = (some key, v)) (hfind : v.msp.dir.find key = some e) : effSdata m w =
      (v.setDir key { e with acks := e.acks - 1, upd := true }).memIssue (e.snoopWrite m p.data p.bad (.line key)) := by
  simp only [effSdata, hreq, hans, hfind]

/-- Where nothing was written to the line since its snoops were sent, the owner's data are written whole. -/
theorem W.doWrite_snoop (w : W) {e : DirEnt} {m key : Nat} {d : List Byte} {bad : Bool} (hmask : e.wmask = 0) (hops : e.ops = [])
    (hd : d ≠ []) : w.doWrite (e.snoopWrite m d bad (.line key)) =
      w.writeOpen m (e.line * 64) d (if bad then 1 else 0) ((e.line * 64 % 64 + d.length + 63) / 64) (.line key) := by
  have hwrite : e.snoopWrite m d bad (.line key)
      = { port := m, addr := e.line * 64, data := d, poison := if bad then 1 else 0, act := .line key } := by
    simp [DirEnt.snoopWrite, hmask, hops]
  rw [hwrite]
  simp only [W.doWrite, if_neg hd]
  rw [W.heldBytes_all rfl]
  rfl

/-- The counts of a slice's entries tell nothing of the block's fault state. -/
theorem W.setDir_inFault (w : W) (key : Nat) (e : DirEnt) : (w.setDir key e).inFault = w.inFault := by
  have hkey (f : Fld) : KFLT_STATE.fstate.key fltB 0 ≠ f.key (sliceB (key / 131072)) 0 := by
    unfold Fld.key sliceB mspB fltB KFLT_STATE.fstate
    dsimp only
    omega
  have hrd : (w.setDir key e).rd fltB KFLT_STATE.fstate = w.rd fltB KFLT_STATE.fstate := by
    rw [W.setDir, W.dirCount, W.rd_wr_ne _ _ _ _ _ _ _ _ (hkey _), W.rd_wr_ne _ _ _ _ _ _ _ _ (hkey _)]
    rfl
  rw [State.inFault, State.inFault, hrd]

theorem sdata_stores {s : State} {m key : Nat} {p : Packet} {w : W} {e : DirEnt} (hr : s.inReset = false)
    (hreq : s.nextReq m 0x59 = some p) (hans : (s.w0.takeReq m p).snoopAns m p = (some key, w)) (hfind : w.msp.dir.find key = some e)
    (hmask : e.wmask = 0) (hops : e.ops = []) (hd : p.data ≠ []) (hfault : w.inFault = false) :
    ∃ t, exec (.sdata m) s = .next t ∧ s.mem.Stored t.mem (e.line * 64) p.data := by
  refine ⟨_, run_const hr (effSdata_writes (w := s.w0) hreq hans hfind), ?_⟩
  have hnow : (w.setDir key { e with acks := e.acks - 1, upd := true }).inFault = false := (W.setDir_inFault ..).trans hfault
  rw [State.after_mem, W.memIssue_now hnow, W.doWrite_snoop _ hmask hops hd]
  refine W.writeOpen_stored _ _ _ _ _ _ ?_
  have hstores : w.stores = [] := W.stores_of_noNet (W.snoopAns_noNet hans)
  change s.mem.apply w.stores = s.mem
  rw [hstores]
  rfl

/-! ### Snoops that are not answered in time (R302) -/

/-- The request is a snoop of the directory entry `key`. -/
def Req.snoops (r : Req) (key : Nat) : Bool := match r.own with
  | .snoop _ k => k == key
  | _ => false

theorem Req.not_snoops (key : Nat) : (fun r : Nat × Req => !r.2.snoops key) = fun r => match r.2.own with
    | .snoop _ k => k != key
    | _ => true := by
  funext r
  unfold Req.snoops
  cases r.2.own with
  | snoop => rfl
  | _ => rfl

/-- Answers of the entry's snoops that have arrived at a port and wait there. -/
def W.snoopsCame (w : W) (port key : Nat) : Nat :=
  (w.net.req.filter fun r => r.2.snoops key).foldl (fun n r => n + min r.2.need (w.waitAns port (r.1 % 2 ^ 20))) 0

section
variable {w : W} {slice key : Nat} {e : DirEnt} (hfind : w.msp.dir.find key = some e)
include hfind

/-- While every answer that is due has arrived, none is late. -/
theorem effSnoopTimeout_waits (hcame : e.acks ≤ w.snoopsCame (portOf (e.line * 64)) key) : effSnoopTimeout slice key w = w := by
  unfold effSnoopTimeout
  simp only [hfind]
  split
  · rfl
  · exact if_pos hcame

/-- With no answer waiting, every snoop still out counts as lost, and its request goes. -/
theorem effSnoopTimeout_loses (hslice : key / 131072 = slice) (hbusy : e.busy = true) (hacks : e.acks ≠ 0)
    (hdue : e.snoopT + 2 ^ w.rd (sliceB slice) KMSP_DIR_CFG.snp_tl_log2 ≤ w.fc)
    (hnone : ∀ ref, w.waitAns (portOf (e.line * 64)) ref = 0) : effSnoopTimeout slice key w =
      ((W.inc { w with net.req := w.net.req.filter fun r => !r.2.snoops key } (sliceB slice) KMSP_DIR_EVT2.snp_tmo e.acks).fault clCOH
        (locMsp (portOf (e.line * 64)))).snoopLost (portOf (e.line * 64)) key e.acks := by
  unfold effSnoopTimeout
  split
  case h_1 h => exact absurd (h.symm.trans hfind) (by simp)
  rename_i e' he
  obtain rfl : e' = e := Option.some.inj (he.symm.trans hfind)
  extract_lets port here mine came req src v v'
  have hhere (r : Nat × Req) : here r = 0 := hnone _
  have hcame : came = 0 := List.foldl_fixed' (fun r => by simp [hhere]) _
  have hreq : req = w.net.req.filter fun r => !r.2.snoops key := by
    have hkept : w.net.req.filter (fun r => !mine r || here r != 0) = w.net.req.filter fun r => !mine r := by simp [hhere]
    unfold req
    rw [hkept]
    refine (List.map_congr_left fun r hr => ?_).trans (List.map_id _)
    have hmine : mine r = false := by simpa using (List.mem_filter.mp hr).2
    simp [hmine]
  rw [if_neg (by simp [hslice, hbusy, hdue]), if_neg (by omega)]
  unfold v' v src
  rw [hcame, hreq]
  rfl

end

/-- Settles O29, a clause for each packet and each way it can go. That the owner's data are in memory once the port issues their write
is assumption log row 46, that a WB and an answer of its line may come in either order row 55, and the order in which requests, a
deferred EVICT among them, are served row 127. An EVICT from M, which R297 does not name, removes its station as one from S or E does. -/
theorem directoryActs : Obligations.DirectoryActs := by
  refine ⟨?_, ?_, ?_, ?_, ?_, ?_, ?_, ?_, ?_, ?_, ?_, ?_, ?_, ?_, ?_, ?_⟩
  · intro s m p hr hchk hbar
    exact ⟨fun hreq => run_eq hr (W.serve_takes hreq hchk hbar), fun hreq => run_eq hr (W.serve_takes hreq hchk hbar),
      fun hreq => run_eq hr (W.serve_takes hreq hchk hbar)⟩
  · intro s m p hr hchk
    exact ⟨fun hreq => run_eq hr (W.serve_refuses hreq hchk), fun hreq => run_eq hr (W.serve_refuses hreq hchk),
      fun hreq => run_eq hr (W.serve_refuses hreq hchk)⟩
  · intro s m p hr hchk hbar
    exact ⟨fun hreq => run_same hr (W.serve_waits hreq hchk hbar), fun hreq => run_same hr (W.serve_waits hreq hchk hbar),
      fun hreq => run_same hr (W.serve_waits hreq hchk hbar)⟩
  · intro s m p key e hr hreq hform hlen hfind hst hptrs hfree
    exact run_eq hr (effWb_writes hreq hform hlen hfind hst hptrs hfree)
  · intro s m p key e hr hreq hform hlen hfind hst hptrs hbusy hdue
    exact run_eq hr (effWb_snooped hreq hform hlen hfind hst hptrs hbusy hdue)
  · intro s m p hr hreq hform hlen h
    exact run_eq hr (effWb_ignored hreq hform hlen h)
  · rintro s m p key e _ hr hreq hform hfind hv hsrc rfl hothers hfree
    exact run_eq hr (effEvict_removes hreq hform hfree hfind hv hsrc hothers)
  · intro s m p key e hr hreq hform hfind hv hptrs hfree
    exact run_eq hr (effEvict_last hreq hform hfree hfind hv (by simp [hptrs]) (by simp [hptrs]))
  · intro s m p hr hreq hform h hfree
    exact run_eq hr (effEvict_ignored hreq hform hfree h)
  · intro s m p hr hreq hform hdefer hroom
    exact run_eq hr (effEvict_defers hreq hform hdefer hroom)
  · intro s m p w0 key w e hr ht hans hfind hst
    exact run_const hr (effSack_shared ht hans hfind hst)
  · intro s m p w0 key w e hr ht hans hfind hst
    exact ⟨fun hbit hptrs => run_const hr (effSack_wbp ht hans hfind hst hbit hptrs),
      fun hbit hstate => run_const hr (effSack_gone ht hans hfind hst hbit hstate),
      fun hbit hstate => run_const hr (effSack_kept ht hans hfind hbit hstate)⟩
  · intro s m p key w e hr hreq hans hfind
    exact run_const hr (effSdata_writes (w := s.w0) hreq hans hfind)
  · intro s m p key w e hr hreq hans hfind hmask hops hlen hfault
    have hd : p.data ≠ [] := List.ne_nil_of_length_pos (by omega)
    obtain ⟨t, ht, hstored⟩ := sdata_stores hr hreq hans hfind hmask hops hd hfault
    obtain ⟨hbytes, hframe, -⟩ := hstored.reads hlen
    exact ⟨t, ht, hbytes, hframe⟩
  · intro s slice key e hr hfind hcame
    exact run_same hr (effSnoopTimeout_waits (w := s.w0) hfind hcame)
  · intro s slice key e hr hfind hslice hbusy hacks hdue hnone
    have heff := effSnoopTimeout_loses (w := s.w0) hfind hslice hbusy hacks hdue hnone
    rw [Req.not_snoops] at heff
    exact run_eq hr heff

end Sys2Proof.Machine
end

section
/-! PROOFS. Visibility of writes (R283, R284, R292, R304). -/

namespace Sys2Proof.Machine

/-! ### WCNT (R283) -/

/-- A source's WCNT leaves, and its count begins anew. -/
theorem wcntTimer_sends {s : State} {u src : Nat} {c : Uncounted} (hr : s.inReset = false)
    (hfind : s.msp.count.find (cntKey u src) = some c) (hdue : c.fc + 64 ≤ s.fc) :
    ∃ t, exec (.wcntTimer u src) s = .next t ∧ t.msp.count.find (cntKey u src) = none ∧ t.mem = s.mem ∧ t.regs = s.regs
      ∧ ∃ b, b ∈ t.buf u pInj 3 ∧ b.pkt.op = 0x0E ∧ b.pkt.dst = src ∧ b.pkt.aux = c.n := by
  have heff : effWcntTimer u src s.w0 = W.inject { s.w0 with msp.count := s.msp.count.del (cntKey u src) } u
      { vc := 3, op := 0x0E, dst := src, src := s.epOf u, aux := c.n, refs := c.refs } := by
    unfold effWcntTimer W.wcntOut
    simp only [State.w0_toState, hfind, if_pos hdue]
  obtain ⟨-, -, hmem, b, hb, hpkt⟩ := s.after_inject _ _ _
  refine ⟨_, run_const hr heff, Tbl.find_del_self .., hmem, rfl, b, hb, ?_⟩
  rw [hpkt]
  exact ⟨rfl, rfl, rfl⟩

/-! ### MEMORY_WRITE_ACK (R292, R304) -/

section
variable {w : W} {port tag key : Nat} {o : MemOp} {p : Packet} (hfind : w.msp.opens.find (port * 1024 + tag) = some o) (hwe : o.we = true)
include hfind hwe

theorem effMemoryWriteAck_visible (hact : o.act = .answer p) (hatomic : p.op ≠ 0x0A) (hwb : p.op ≠ 0x07)
    (hlast : p.op = 0x70 → (w.msp.opens.del (port * 1024 + tag)).any (fun x => x.2.we && x.2.act == .answer p) = false) :
    effMemoryWriteAck port tag w = W.visible { w with msp.opens := w.msp.opens.del (port * 1024 + tag) } (uMsp port) p := by
  have hall : ¬ (p.op = 0x70 && (w.msp.opens.del (port * 1024 + tag)).any fun x => x.2.we && x.2.act == .answer p) = true := by
    by_cases hop : p.op = 0x70
    · simp [hlast hop]
    · simp [hop]
  unfold effMemoryWriteAck
  simp only [hfind, hwe, hact, Bool.not_true, Bool.false_eq_true, if_false, if_neg hall]

theorem effMemoryWriteAck_atomic (hact : o.act = .answer p) (hop : p.op = 0x0A) : effMemoryWriteAck port tag w =
    W.reply { w with msp.opens := w.msp.opens.del (port * 1024 + tag) } (uMsp port)
      { ansTo p p.dst with vc := 3, op := 0x0B, len := 8, data := p.data, pois := p.pois, status := if p.bad then POISON else OK } := by
  unfold effMemoryWriteAck
  simp [hfind, hwe, hact, hop]

theorem effMemoryWriteAck_line {e : DirEnt} (hact : o.act = .line key) (hdir : w.msp.dir.find key = some e) :
    effMemoryWriteAck port tag w = (W.setDir { w with msp.opens := w.msp.opens.del (port * 1024 + tag) } key
      { e with upd := false }).dirFinish key := by
  unfold effMemoryWriteAck
  simp [hfind, hwe, hact, hdir]

end

/-! ### CCINC (R284) -/

section
variable {w v : W} {st : Nat} {p : Packet} (ht : w.takeAny (uSt st) (fun x => x.op == 0x0D) = some (p, v))
include ht

theorem effCcinc_adds (hown : v.owns 5 st (p.aux % 256) p.ctx = true) : effCcinc st w = v.wr (stnB st) KSTN_CC.cc_value
    ((v.rd (stnB st) KSTN_CC.cc_value (p.aux % 256) + p.addr) % 2 ^ 32) (p.aux % 256) := by
  simp [effCcinc, ht, hown]

theorem effCcinc_denied (hown : v.owns 5 st (p.aux % 256) p.ctx = false) :
    effCcinc st w = v.inc (stnB st) KSTN_MEM_EVT2.cc_denied := by
  simp [effCcinc, ht, hown]

end

/-- Settles O27, a clause for each event. That a write is performed when it is issued, and acknowledged later, is assumption log
row 46. -/
theorem visibilityActs : Obligations.VisibilityActs := by
  refine ⟨?_, ?_, ?_, ?_, ?_, ?_, ?_⟩
  · intro s u src c hr hfind hdue
    exact wcntTimer_sends hr hfind hdue
  · intro s port tag o p hr hfind hwe hact hatomic hwb hlast
    exact run_eq hr (effMemoryWriteAck_visible hfind hwe hact hatomic hwb hlast)
  · intro s port tag o p hr hfind hwe hact hop
    exact run_eq hr (effMemoryWriteAck_atomic hfind hwe hact hop)
  · intro s port tag o key e hr hfind hwe hact hdir
    exact run_eq hr (effMemoryWriteAck_line hfind hwe hact hdir)
  · intro s st p w hr ht hown
    exact ⟨_, run_const hr (effCcinc_adds ht hown), (W.rd_wr_self ..).trans (Nat.mod_mod ..)⟩
  · intro s st p w hr ht hown
    exact run_const hr (effCcinc_denied ht hown)
  · intro s st hr
    exact run_up _ hr

end Sys2Proof.Machine
end

section
/-! PROOFS. Answers with data (R280 to R283). -/

namespace Sys2Proof.Machine

/-- An answer with data that is a unit's own: no pop's and no proxy's. -/
def State.dataNext (s : State) (u op : Nat) (p : Packet) : Bool :=
  p.op == op && !s.forPop u p && !(0x2040 ≤ u && u < 0x2080)

section
variable {w v : W} {u op ref : Nat} {p : Packet} {r : Req} {f : W → Req → Packet → W} (ht : w.takeAny u (w.dataNext u op) = some (p, v))
include ht

/-- The host gets every answer that is its own. -/
theorem W.dataAns_host (hu : u = uHost) : w.dataAns u op f = { v with boot.toHost := v.boot.toHost ++ [p] } := by
  unfold State.dataNext at ht
  unfold W.dataAns
  simp only [ht, if_pos hu]

variable (hu : u ≠ uHost) (hreq : v.reqOf u p = some (ref, r))
include hu hreq

theorem W.dataAns_settles (hlate : r.late = false) : w.dataAns u op f = f (v.delReq u ref) r p := by
  unfold State.dataNext at ht
  unfold W.dataAns
  simp only [ht, if_neg hu, hreq, hlate, Bool.false_eq_true, if_false]

/-- Of a station's request that is over, it is late (R288). -/
theorem W.dataAns_late (hst : 0x1000 ≤ u ∧ u < 0x2000) (hlate : r.late = true) :
    w.dataAns u op f = (v.delReq u ref).lateAns (u - 0x1000) r := by
  unfold State.dataNext at ht
  unfold W.dataAns
  simp only [ht, if_neg hu, hreq, hlate, if_true, if_pos hst]

end

theorem uSt_ne_uHost {st : Nat} (h : st < 4096) : uSt st ≠ uHost := by unfold uSt uHost; omega

theorem effWcnt_counts {w v : W} {st : Nat} {p : Packet} (hst : st < 4096)
    (ht : w.takeAny (uSt st) (fun p => p.op == 0x0E && !(0x2040 ≤ uSt st && uSt st < 0x2080)) = some (p, v)) :
    effWcnt (uSt st) w = v.postCount st p.aux p.refs := by
  unfold effWcnt
  simp only [ht, if_pos (uSt_range hst), uSt_sub]

/-- The host gets its data as they came, and nothing else is changed. -/
theorem rdata_toHost {s : State} {p : Packet} {w : W} (hr : s.inReset = false)
    (ht : s.w0.takeAny uHost (s.dataNext uHost 0x03) = some (p, w)) :
    ∃ t, exec (.rdata uHost) s = .next t ∧ t.boot.toHost = s.boot.toHost ++ [p] ∧ t.mem = s.mem ∧ t.regs = s.regs := by
  have hnet := W.takeAny_noNet ht
  refine ⟨_, run_const hr (W.dataAns_host ht rfl), ?_, State.after_mem_of_no_stores (W.stores_of_noNet hnet), W.regs_of_noNet hnet⟩
  rw [State.after_boot, W.boot_of_noNet hnet]
  rfl

/-- Settles O32, a clause for each kind of answer and for whom it is. -/
theorem dataAnswersAct : Obligations.DataAnswersAct := by
  refine ⟨?_, ?_, ?_, ?_, ?_⟩
  · intro s u p w ref r hr hu _ hreq hlate ht
    exact run_const hr (W.dataAns_settles (w := s.w0) ht hu hreq hlate)
  · intro s st p w ref r hr hst hreq hlate
    have hu := uSt_ne_uHost hst
    exact ⟨fun ht => run_const hr (W.dataAns_settles (w := s.w0) ht hu hreq hlate),
      fun ht => run_const hr (W.dataAns_settles (w := s.w0) ht hu hreq hlate)⟩
  · intro s st p w ref r hr hst hreq hlate ht
    have heff := W.dataAns_late (w := s.w0) (f := fun w r p => w.dataFor (uSt st) r p) ht (uSt_ne_uHost hst) hreq (uSt_range hst) hlate
    rw [uSt_sub] at heff
    exact run_const hr heff
  · intro s p w hr ht
    exact rdata_toHost hr ht
  · intro s st p w hr hst ht
    exact run_const hr (effWcnt_counts hst ht)

end Sys2Proof.Machine
end

section
/-! PROOFS. The core's memory port: requests and their time limit (R285 to R289), fences (R307), snoops (R301). -/

namespace Sys2Proof.Machine

/-! ### Requests of the core (R286 to R289) -/

section
variable {w : W} {st : Nat} {r : CoreReq} (h8 : r.op ≠ 8) (h9 : r.op ≠ 9)
include h8 h9

theorem effCoreMemoryRequest_waits (hbusy : w.coreBusy st r.tag (corePieces r).length = true) : effCoreMemoryRequest st r w = w := by
  unfold effCoreMemoryRequest
  rw [if_neg (by simp [h8, h9])]
  exact if_pos hbusy

variable (hfree : w.coreBusy st r.tag (corePieces r).length = false)
include hfree

theorem effCoreMemoryRequest_refused (hchk : w.coreCheck st r ≠ OK) :
    effCoreMemoryRequest st r w = w.coreRefuse st r.tag (w.coreCheck st r) := by
  unfold effCoreMemoryRequest
  rw [if_neg (by simp [h8, h9])]
  dsimp only
  rw [if_neg (by simp [hfree]), if_pos hchk]

variable (hchk : w.coreCheck st r = OK)
include hchk

/-- A request that waits for its answers is recorded, and its pieces leave. -/
theorem effCoreMemoryRequest_sends (hsome : corePieces r ≠ []) (hwaits : r.op = 1 → r.posted = false) : effCoreMemoryRequest st r w =
    W.each { w with sta.core := w.sta.core.put (coreKey st r.tag)
                      { op := r.op, addr := r.addr, len := coreLen r, fc := w.fc, ctx := r.ctx, need := (corePieces r).length } }
      (corePieces r) (fun w x => w.request (uSt st) (w.corePacket r x.1 x.2) (.core r.tag x.1)) := by
  have hnow : ¬ (corePieces r = [] ∨ (r.op = 1 ∧ r.posted)) := by
    rintro (h | ⟨hop, hposted⟩)
    · exact hsome h
    · simp [hwaits hop] at hposted
  unfold effCoreMemoryRequest
  rw [if_neg (by simp [h8, h9])]
  dsimp only
  rw [if_neg (by simp [hfree]), if_neg (by simp [hchk]), if_neg hnow]

/-- One that waits for none is answered at once. -/
theorem effCoreMemoryRequest_posts (hnow : corePieces r = [] ∨ (r.op = 1 ∧ r.posted = true)) : effCoreMemoryRequest st r w =
    (w.each (corePieces r) (fun w x => w.postWrite st (w.corePacket r x.1 x.2) true)).coreResp st
      { tag := r.tag, status := OK, state := 0, data := [], poison := 0 } := by
  unfold effCoreMemoryRequest
  rw [if_neg (by simp [h8, h9])]
  dsimp only
  rw [if_neg (by simp [hfree]), if_neg (by simp [hchk]), if_pos hnow]

end

/-- The packet of a READ of one piece. -/
theorem State.corePacket_read (s : State) {r : CoreReq} (hop : r.op = 0) (n : Nat) : s.corePacket r 0 n =
    { vc := 1, op := 0x02, dst := (s.dstOf r.addr).2, ctx := r.ctx, addr := r.addr, aux := n } := by
  simp [State.corePacket, hop, coreOp]

theorem effCoreMemoryRequest_read {w : W} {st : Nat} {r : CoreReq} (hop : r.op = 0) (hone : corePieces r = [(0, r.len)])
    (hfree : w.coreBusy st r.tag 1 = false) (hchk : w.coreCheck st r = OK) : effCoreMemoryRequest st r w =
      W.request { w with sta.core := w.sta.core.put (coreKey st r.tag) { op := 0, addr := r.addr, len := r.len, fc := w.fc, ctx := r.ctx } }
        (uSt st) { vc := 1, op := 0x02, dst := (w.dstOf r.addr).2, ctx := r.ctx, addr := r.addr, aux := r.len } (.core r.tag 0) := by
  have hlen : coreLen r = r.len := by simp [coreLen, hop]
  have hroom : w.coreBusy st r.tag (corePieces r).length = false := by
    rw [hone]
    exact hfree
  rw [effCoreMemoryRequest_sends (by simp [hop]) (by simp [hop]) hroom hchk (by simp [hone]) (by simp [hop]), hone, W.each_cons,
    W.each_nil]
  dsimp only
  rw [State.corePacket_read _ hop, hlen, hop]
  rfl

/-! ### Their time limit (R288) -/

/-- A request that is answered is open no more, and its answer is the last of its station's. -/
theorem W.coreDone_held (w : W) (st tag status state : Nat) (data : List Byte) (poison : Nat) :
    (w.coreDone st tag status state data poison).held = (w.stores, w.net, { w.sta with
      core := w.sta.core.del (coreKey st tag)
      resp := w.sta.resp.put st ((w.sta.resp.find st).getD [] ++ [⟨tag, status, state, data, poison⟩]) }) := by
  unfold W.coreDone
  dsimp only
  split
  · rfl
  · rfl

/-- The request is a piece of the core's request `tag`. -/
def Req.ofCore (r : Req) (tag : Nat) : Bool := match r.own with
  | .core t _ => t == tag
  | _ => false

/-- The statuses received of a request of the core. -/
def State.coreSts (s : State) (st tag : Nat) : List Nat :=
  (s.net.req.filter fun r => r.1 / 2 ^ 20 == uSt st && !r.2.late && r.2.ofCore tag).flatMap fun r => r.2.sts

theorem effRequestTimeout_held {w : W} {st tag : Nat} {c : CoreOpen} (hc : w.coreAt st tag = some c)
    (hdue : c.fc + 2 ^ w.rd (stnB st) KSTN_MEM_CFG.req_tl_log2 ≤ w.fc) : ∃ n, (effRequestTimeout st tag w).held = (w.stores, n, { w.sta with
      core := w.sta.core.del (coreKey st tag)
      resp := w.sta.resp.put st ((w.sta.resp.find st).getD [] ++ [⟨tag, worst (TIMEOUT :: w.coreSts st tag), 0, [], 0⟩]) }) := by
  unfold effRequestTimeout
  simp only [hc]
  rw [if_neg (Nat.not_lt.mpr hdue)]
  exact ⟨_, W.coreDone_held ..⟩

theorem requestTimeout_answers {s : State} {st tag : Nat} {c : CoreOpen} (hr : s.inReset = false) (hc : s.coreAt st tag = some c)
    (hdue : c.fc + 2 ^ s.rd (stnB st) KSTN_MEM_CFG.req_tl_log2 ≤ s.fc) :
    ∃ t, exec (.requestTimeout st tag) s = .next t ∧ t.coreAt st tag = none
      ∧ (t.sta.resp.find st).getD [] = (s.sta.resp.find st).getD [] ++ [CoreResp.mk tag (worst (TIMEOUT :: s.coreSts st tag)) 0 [] 0]
      ∧ t.mem = s.mem := by
  obtain ⟨n, hheld⟩ := effRequestTimeout_held (w := s.w0) hc hdue
  obtain ⟨hmem, -, hsta⟩ := State.after_held hheld
  refine ⟨_, run_const hr rfl, ?_, ?_, hmem⟩
  · rw [State.coreAt, hsta]
    exact Tbl.find_del_self ..
  · rw [hsta]
    exact Tbl.get_put_self [] ..

/-! ### Fences (R307) -/

theorem effCoreFence_taken {w : W} {st tag scope ctx : Nat} (hnone : w.coreAt st tag = none) (hheld : w.coreHeld st = false)
    (hroom : (w.sta.core.filter (fun e => e.1 / 256 == st)).length < 256) : effCoreFence st tag scope ctx w =
      W.fences { w with sta.core := w.sta.core.put (coreKey st tag)
                          { op := 8 + scope % 2, addr := 0, len := 0, fc := w.fc, ctx := ctx,
                            need := 2 ^ 20 + Tbl.get 0 w.sta.postSeq st, scope := scope % 2 } } st := by
  unfold effCoreFence
  rw [if_neg (by simp [hnone, hheld, hroom])]

/-! ### Snoops at a station (R301) -/

theorem W.takeVc_req {w v : W} {u vc : Nat} {ops : Packet → Bool} {p : Packet} (h : w.takeVc u vc ops = some (p, v)) :
    v.net.req = w.net.req := by
  unfold W.takeVc at h
  dsimp only at h
  split at h
  · exact absurd h (by simp)
  · obtain ⟨-, rfl⟩ := Prod.mk.inj (Option.some.inj h)
    rfl

theorem State.wbOut_congr {v w : State} (h : v.net.req = w.net.req) (st a : Nat) : v.wbOut st a = w.wbOut st a := by
  rw [State.wbOut, State.wbOut, h]

section
variable {w v : W} {st op i : Nat} {p : Packet} (hslot : (List.range 64).find? (fun i => (w.sta.snoops.find (snpKey st i)).isNone) = some i)
  (ht : w.takeVc (uSt st) 5 (fun p => p.op == op) = some (p, v))
include hslot ht

/-- A snoop is presented to the core, where no WB of its line is out. -/
theorem W.snpTake_presents (hwb : w.wbOut st p.addr = false) : w.snpTake st op = { v with
    sta.snoops := v.sta.snoops.put (snpKey st i) { op := op - 0x50, addr := p.addr / 64, pkt := p, fc := v.fc } } := by
  have hout : v.wbOut st p.addr = false := (State.wbOut_congr (W.takeVc_req ht) ..).trans hwb
  simp [W.snpTake, hslot, ht, hout]

/-- Where a WB of the line is out, it is the answer. -/
theorem W.snpTake_wbp (hwb : w.wbOut st p.addr = true) : w.snpTake st op = v.snpAnswer st p 4 false [] := by
  have hout : v.wbOut st p.addr = true := (State.wbOut_congr (W.takeVc_req ht) ..).trans hwb
  simp [W.snpTake, hslot, ht, hout]

end

theorem snpTake_presents {s : State} {w : W} {st op i : Nat} {p : Packet} (hr : s.inReset = false)
    (hslot : (List.range 64).find? (fun i => (s.sta.snoops.find (snpKey st i)).isNone) = some i) (hwb : s.wbOut st p.addr = false)
    (ht : s.w0.takeVc (uSt st) 5 (fun p => p.op == op) = some (p, w)) : ∃ t, run (fun w => w.snpTake st op) s = .next t
      ∧ t.sta.snoops.find (snpKey st i) = some { op := op - 0x50, addr := p.addr / 64, pkt := p, fc := s.fc }
      ∧ t.mem = s.mem ∧ t.regs = s.regs := by
  have hnet := W.takeVc_noNet ht
  refine ⟨_, run_const hr (W.snpTake_presents (w := s.w0) hslot ht hwb), ?_, State.after_mem_of_no_stores (W.stores_of_noNet hnet),
    W.regs_of_noNet hnet⟩
  rw [← show w.fc = s.fc from W.fc_of_noNet hnet]
  exact Tbl.find_put_self ..

theorem effCoreSnoopAnswer_late {w : W} {st id state : Nat} {dirty : Bool} {data : List Byte} {x : CoreSnoop}
    (hfind : w.sta.snoops.find (snpKey st id) = some x) (hlate : x.fc + 1024 < w.fc) : effCoreSnoopAnswer st id state dirty data w =
      (let w := w.inc (stnB st) KSTN_MEM_EVT2.snp_late
      W.snpAnswer { w with sta.snoops := w.sta.snoops.del (snpKey st id) } st x.pkt (state % 4) dirty data) := by
  simp only [effCoreSnoopAnswer, hfind, if_pos hlate]

theorem effCoreSnoopAnswer_timely {w : W} {st id state : Nat} {dirty : Bool} {data : List Byte} {x : CoreSnoop}
    (hfind : w.sta.snoops.find (snpKey st id) = some x) (htime : w.fc ≤ x.fc + 1024) : effCoreSnoopAnswer st id state dirty data w =
      W.snpAnswer { w with sta.snoops := w.sta.snoops.del (snpKey st id) } st x.pkt (state % 4) dirty data := by
  simp only [effCoreSnoopAnswer, hfind, if_neg (Nat.not_lt.mpr htime)]

/-! ### The time limit of a descriptor (R285, R307) -/

/-- The request is a piece of the transfer of log entry `e`. -/
def Req.ofDesc (r : Req) (e : Nat) : Bool := match r.own with
  | .desc x _ _ => x == e
  | _ => false

/-- A descriptor's posted pieces are its own no more, and the answers to its requests are late. -/
def W.xferOver (w : W) (st e : Nat) : W :=
  let posts := ((w.sta.posted.find st).getD []).map (fun (x : PostRec) => if x.desc = some e then { x with desc := none } else x)
  { w with
    net.req := w.net.req.map (fun r => if r.1 / 2 ^ 20 = uSt st ∧ r.2.ofDesc e then (r.1, { r.2 with late := true }) else r)
    sta.posted := if posts = [] then w.sta.posted else w.sta.posted.put st posts }

theorem effDescriptorTimeLimit_ends {w : W} {st e : Nat} {l : LogEnt} {j : Job} (hl : w.logAt st e = some l) (hj : w.jobAt st e = some j)
    (h3 : 3 ≤ le l.desc 0 1) (h5 : le l.desc 0 1 ≤ 5) (htl : j.tl ≠ 0) (hdue : j.t0 + 2 ^ j.tl ≤ w.fc) :
    effDescriptorTimeLimit st e w = ((w.xferOver st e).started st e).complete st e TIMEOUT j.b := by
  unfold effDescriptorTimeLimit
  simp only [hl, hj]
  rw [if_neg (by simp [h3, h5, htl, hdue])]
  rfl

/-- Settles O31, a clause for each event and each way it can go. -/
theorem corePortActs : Obligations.CorePortActs := by
  refine ⟨?_, ?_, ?_, ?_, ?_, ?_, ?_, ?_, ?_, ?_, ?_, ?_⟩
  · intro s st r hr h8 h9 hbusy
    exact run_same hr (effCoreMemoryRequest_waits h8 h9 hbusy)
  · intro s st r hr h8 h9 hfree hchk
    exact run_eq hr (effCoreMemoryRequest_refused h8 h9 hfree hchk)
  · intro s st r hr h8 h9 hfree hchk hsome hwaits
    exact run_eq hr (effCoreMemoryRequest_sends h8 h9 hfree hchk hsome hwaits)
  · intro s st r hr hop hone hfree hchk
    exact run_eq hr (effCoreMemoryRequest_read hop hone hfree hchk)
  · intro s st r hr hop hnow hfree hchk
    exact run_eq hr (effCoreMemoryRequest_posts (by simp [hop]) (by simp [hop]) hfree hchk (hnow.symm.imp id fun h => ⟨hop, h⟩))
  · intro s st tag scope ctx hr hnone hheld hroom
    exact run_eq hr (effCoreFence_taken hnone hheld hroom)
  · rintro s st tag c _ hr hc hdue rfl
    exact requestTimeout_answers hr hc hdue
  · intro s st i p w hr hslot hwb
    exact ⟨fun ht => snpTake_presents hr hslot hwb ht, fun ht => snpTake_presents hr hslot hwb ht,
      fun ht => snpTake_presents hr hslot hwb ht⟩
  · intro s st p w hr hslot hwb
    obtain ⟨i, hslot⟩ := Option.isSome_iff_exists.mp hslot
    exact ⟨fun ht => run_const hr (W.snpTake_wbp (w := s.w0) hslot ht hwb), fun ht => run_const hr (W.snpTake_wbp (w := s.w0) hslot ht hwb),
      fun ht => run_const hr (W.snpTake_wbp (w := s.w0) hslot ht hwb)⟩
  · intro s st id state dirty data x hr hfind hlate
    exact run_eq hr (effCoreSnoopAnswer_late hfind hlate)
  · intro s st id state dirty data x hr hfind htime
    exact run_eq hr (effCoreSnoopAnswer_timely hfind htime)
  · intro s st e l j hr hl hj h3 h5 htl hdue
    exact run_eq hr (effDescriptorTimeLimit_ends hl hj h3 h5 htl hdue)

end Sys2Proof.Machine
end

section
/-! PROOFS. Frames on the link (R74, R321, R323): a frame as it is sent passes the check of its CRC, and its fields stand at their places. -/

namespace Sys2Proof.Machine

/-! ### The CRC's width (R74) -/

theorem crcBits_lt (n : Nat) {c : Nat} (h : c < 2 ^ 32) : crcBits n c < 2 ^ 32 := by
  induction n generalizing c with
  | zero => exact h
  | succ n ih =>
    have hhalf : c / 2 < 2 ^ 32 := by omega
    rw [crcBits]
    split
    · exact ih (Nat.xor_lt_two_pow hhalf (by decide))
    · exact ih hhalf

theorem crcByte_lt (c : Nat) (b : Byte) : crcByte c b < 2 ^ 32 := crcBits_lt 8 (Nat.mod_lt _ (by decide))

theorem foldl_crcByte_lt (l : List Byte) {c : Nat} (h : c < 2 ^ 32) : l.foldl crcByte c < 2 ^ 32 := by
  induction l generalizing c with
  | nil => exact h
  | cons b l ih => exact ih (crcByte_lt c b)

theorem crc32_lt (l : List Byte) : crc32 l < 2 ^ 32 :=
  Nat.xor_lt_two_pow (foldl_crcByte_lt l (by decide)) (by decide)

/-! ### The parts of a frame (R321) -/

@[simp] theorem fit_length (n : Nat) (l : List Byte) : (fit n l).length = n := by
  rw [fit, List.length_append, List.length_take, List.length_replicate]
  omega

theorem patch_append {a b : List Byte} (c d : List Byte) {off : Nat} (ha : a.length = off) (hb : b.length = d.length) :
    patch (a ++ (b ++ c)) off d = a ++ (d ++ c) := by
  have hab : (a ++ b).length = off + d.length := by rw [List.length_append, ha, hb]
  rw [patch, List.take_left' ha, ← List.append_assoc a b, List.drop_left' hab, List.append_assoc]

/-- The byte of a frame's type and its marks of first and last fragment. -/
def frameKind (ftype : Nat) (sof eof : Bool) : Nat := ftype + sof.toNat * 16 + eof.toNat * 32

/-- The word of the acknowledgement: `lack`, `lnak`, and whether `lack` is valid. -/
def frameAck (lack : Nat) (nak lackV : Bool) : Nat := lack + nak.toNat * 4096 + lackV.toNat * 8192

/-- The control cell up to its CRC. -/
def frameHead (kind vc len lseq ack lcred : Nat) : List Byte :=
  toLE 1 kind ++ (toLE 1 vc ++ (toLE 1 len ++ ([0] ++ (toLE 2 lseq ++ (toLE 2 ack ++ (toLE 2 lcred ++ [0, 0]))))))

@[simp] theorem frameHead_length (kind vc len lseq ack lcred : Nat) : (frameHead kind vc len lseq ack lcred).length = 12 := by
  simp [frameHead]

theorem frameKind_bits {ftype : Nat} (sof eof : Bool) (h : ftype < 16) : frameKind ftype sof eof < 256
    ∧ bits (frameKind ftype sof eof) 0 4 = ftype ∧ bit (frameKind ftype sof eof) 4 = sof ∧ bit (frameKind ftype sof eof) 5 = eof := by
  have hsof := sof.toNat_lt
  have heof := eof.toNat_lt
  simp only [bit_eq_iff]
  unfold bits frameKind
  omega

theorem frameAck_bits {lack : Nat} (nak lackV : Bool) (h : lack < 4096) : frameAck lack nak lackV < 2 ^ 16
    ∧ bits (frameAck lack nak lackV) 0 12 = lack ∧ bit (frameAck lack nak lackV) 12 = nak ∧ bit (frameAck lack nak lackV) 13 = lackV := by
  have hnak := nak.toNat_lt
  have hlackV := lackV.toNat_lt
  simp only [bit_eq_iff]
  unfold bits frameAck
  omega

/-- A frame's head, its CRC, and its body filled to 240 bytes; the CRC is that of the frame with zeros in the CRC's place. -/
theorem frameBytes_eq (ftype vc lseq lack : Nat) (sof eof nak lackV : Bool) (lcred : Nat) (body : List Byte) :
    let h := frameHead (frameKind ftype sof eof) vc body.length lseq (frameAck lack nak lackV) lcred
    frameBytes ftype vc lseq lack sof eof nak lackV lcred body
      = h ++ (toLE 4 (crc32 (h ++ ([0, 0, 0, 0] ++ fit 240 body))) ++ fit 240 body) := by
  dsimp only
  rw [← patch_append (b := [0, 0, 0, 0]) (fit 240 body) (toLE 4 (crc32 _)) (frameHead_length ..) (toLE_length ..).symm]
  simp only [frameBytes, frameHead, frameKind, frameAck, ite_eq_toNat_mul, List.append_assoc, List.cons_append, List.nil_append]

/-- What carries its own CRC is good. -/
theorem frameOk_of_crc {h body : List Byte} (hh : h.length = 12) (hb : body.length = 240) :
    frameOk (h ++ (toLE 4 (crc32 (h ++ ([0, 0, 0, 0] ++ body))) ++ body)) = true := by
  have hcrc := crc32_lt (h ++ ([0, 0, 0, 0] ++ body))
  generalize hc : crc32 (h ++ ([0, 0, 0, 0] ++ body)) = c at hcrc ⊢
  have hlen : (h ++ (toLE 4 c ++ body)).length = 256 := by simp [hh, hb]
  rw [frameOk, patch_append (d := [0, 0, 0, 0]) _ hh (toLE_length 4 c), le_append_toLE _ hh hcrc, hlen, hc]
  simp

/-- Each field of the head stands at its place. -/
theorem frameHead_fields {kind vc len lseq ack lcred : Nat} (hkind : kind < 256) (hvc : vc < 256) (hlen : len < 256) (hlseq : lseq < 2 ^ (8 * 2))
    (hack : ack < 2 ^ (8 * 2)) (hlcred : lcred < 2 ^ (8 * 2)) (rest : List Byte) : let f := frameHead kind vc len lseq ack lcred ++ rest
    le f 0 1 = kind ∧ le f 1 1 = vc ∧ le f 2 1 = len ∧ le f 4 2 = lseq ∧ le f 6 2 = ack ∧ le f 8 2 = lcred := by
  simp only [frameHead, List.append_assoc]
  refine ⟨le_toLE_append _ hkind, le_append_toLE _ (toLE_length ..) hvc, ?_, ?_, ?_, ?_⟩
  · simp [le_append, le_toLE_append, hlen]
  · simp [le_append, le_toLE_append _ hlseq]
  · simp [le_append, le_toLE_append _ hack]
  · simp [le_append, le_toLE_append _ hlcred]

theorem fit_take {n : Nat} {l : List Byte} (h : l.length ≤ n) : (fit n l).take l.length = l := by
  rw [fit, List.take_of_length_le h, List.take_left]

/-- Settles O54: the frame is its head, its CRC and its body, each read back at its place. -/
theorem framesCheck : Obligations.FramesCheck := by
  rintro ftype vc lseq lack lcred sof eof nak lackV body hftype hvc hlseq hlack hlcred hbody f rfl
  obtain ⟨hkind, htype, hsof, heof⟩ := frameKind_bits sof eof hftype
  obtain ⟨hack, hlack', hnak, hlackV⟩ := frameAck_bits nak lackV hlack
  have hvc' : bits vc 0 4 = vc := by unfold bits; omega
  have hlseq' : bits lseq 0 12 = lseq := by unfold bits; omega
  rw [frameBytes_eq]
  obtain ⟨fkind, fvc, flen, flseq, fack, flcred⟩ := frameHead_fields hkind (vc := vc) (by omega) (len := body.length) (by omega)
    (lseq := lseq) (by omega) hack hlcred (toLE 4 (crc32 (frameHead (frameKind ftype sof eof) vc body.length lseq
      (frameAck lack nak lackV) lcred ++ ([0, 0, 0, 0] ++ fit 240 body))) ++ fit 240 body)
  refine ⟨by simp, frameOk_of_crc (frameHead_length ..) (fit_length ..), ?_⟩
  rw [fkind, fvc, flen, flseq, fack, flcred]
  refine ⟨htype, hsof, heof, hvc', rfl, hlseq', hlack', hnak, hlackV, rfl, ?_⟩
  rw [← List.append_assoc, List.drop_left' (by simp), fit_take hbody]

end Sys2Proof.Machine
end

section
/-! PROOFS. Edge ports: what the operations that their commands share leave as it was (R323 to R326). -/

namespace Sys2Proof.Machine

/-! ### What touches reports and edge ports alone -/

theorem W.stores_of_bareL {v w : W} (h : v.bareL = w.bareL) : v.stores = w.stores := by have e := congrArg (fun x : W => x.stores) h; exact e
theorem W.net_of_bareL {v w : W} (h : v.bareL = w.bareL) : v.net = w.net := by have e := congrArg (fun x : W => x.net) h; exact e
theorem W.fc_of_bareL {v w : W} (h : v.bareL = w.bareL) : v.fc = w.fc := by have e := congrArg (fun x : W => x.fc) h; exact e
theorem W.herdTime_of_bareL {v w : W} (h : v.bareL = w.bareL) : v.herdTime = w.herdTime := by
  have e := congrArg (fun x : W => x.herdTime) h; exact e

/-- An effect on reports and edge ports alone leaves the memories and the packets. -/
theorem State.after_of_bareL {s : State} {f : W → W} (h : (f s.w0).bareL = s.w0.bareL) :
    (s.after f).mem = s.mem ∧ (s.after f).net = s.net :=
  ⟨State.after_mem_of_no_stores (W.stores_of_bareL h), W.net_of_bareL h⟩

theorem State.after_const_of_bareL {s : State} {v : W} (h : v.bareL = s.w0.bareL) :
    (s.after fun _ => v).mem = s.mem ∧ (s.after fun _ => v).net = s.net := State.after_of_bareL h

theorem State.after_epS (s : State) (f : W → W) (e : Nat) : (s.after f).epS e = (f s.w0).epS e := rfl

/-! ### The link (R324) -/

theorem W.setLinkUp_bare (w : W) (e v : Nat) : (w.setLinkUp e v).bare = w.bare := by
  unfold W.setLinkUp
  split
  · rfl
  · simp

theorem W.setLinkUp_rd (w : W) (e v : Nat) {c : Nat} {g : Fld} {j : Nat} (h : g.key c j ≠ KEDG_STAT.link_up.key (epB e) 0) :
    (w.setLinkUp e v).rd c g j = w.rd c g j := by
  unfold W.setLinkUp
  split
  · rfl
  · rw [W.irqP_rd, W.rd_wr_ne _ _ _ _ _ _ _ _ h]

/-- An edge port whose link has stopped. -/
def Ep.stopped (p : Ep) : Ep := { p with
  replay := [], resend := [], cred := [], owed := [], txSeq := 0, rxSeq := 4095, rxValid := false, nak := false
  sawCred := false, asm_ := []
  redxDone := p.redxDone ++ (((p.eq.find 11).getD []).filter (fun o => o.sent != 0)).map (fun (o : EOut) => (o.peer, o.psn))
  eq := p.eq.map (fun x => (x.1, x.2.filter (fun o => o.sent == 0))) }

theorem W.linkStop_eq (w : W) (e : Nat) : w.linkStop e = (w.setLinkUp e 0).epMod e Ep.stopped := rfl

theorem W.linkStop_epS (w : W) (e : Nat) : (w.linkStop e).epS e = (w.epS e).stopped := by
  rw [W.linkStop_eq, W.epMod_epS, State.epS_congr (W.ep_of_bare (W.setLinkUp_bare ..))]

theorem W.linkStop_bareL (w : W) (e : Nat) : (w.linkStop e).bareL = w.bareL := by
  rw [W.linkStop_eq, W.epMod_bareL, W.bareL_of (W.setLinkUp_bare ..)]

theorem W.linkStop_rd (w : W) (e : Nat) {c : Nat} {g : Fld} {j : Nat} (h : g.key c j ≠ KEDG_STAT.link_up.key (epB e) 0) :
    (w.linkStop e).rd c g j = w.rd c g j := by
  rw [W.linkStop_eq, W.epMod_rd, W.setLinkUp_rd _ _ _ h]

/-- A link that has stopped holds no fragment: its receive buffers have the frames of whole packets alone (R324, R325). -/
theorem Ep.freeFrames_stopped (p : Ep) : p.stopped.freeFrames =
    (List.range 12).map (fun v => (v, 32 - (p.inq.filter (fun x => x.1 == v)).foldl (fun n x => n + x.2.1) 0)) := rfl

end Sys2Proof.Machine
end

section
/-! PROOFS. Lanes and blocks of an edge port (R315 to R320, R324, R350). -/

namespace Sys2Proof.Machine

/-! ### Lane lock (R320) -/

/-- The lane on which signal is detected is noted; one that no lane has is none. -/
def W.sigOn (w : W) (e lane : Nat) : W :=
  if lane < 5 then w.wr (epB e) KEDG_LANE.sig (setBit (w.rd (epB e) KEDG_LANE.sig) lane true) else w

theorem W.sigOn_bare (w : W) (e lane : Nat) : (w.sigOn e lane).bare = w.bare := by
  unfold W.sigOn
  split
  · rfl
  · rfl

theorem W.sigOn_lock (w : W) (e lane : Nat) : (w.sigOn e lane).rd (epB e) KEDG_STAT.lane_lock = w.rd (epB e) KEDG_STAT.lane_lock := by
  unfold W.sigOn
  split
  · exact W.rd_wr_apart _ _ _ _ _ (by decide) (by decide) (by decide)
  · rfl

/-- Lane lock is gained, and the link starts (R320, R324). -/
def W.lockGain (w : W) (e : Nat) : W :=
  (((w.wr (epB e) KEDG_STAT.lane_lock 1).inc (epB e) KEDG_STAT.relocks).linkStop e).epMod e (fun p => { p with owed := p.freeFrames })

theorem effLaneLockGain_eq (e lane : Nat) (w : W) : effLaneLockGain e lane w =
    if (w.epS e).good < 4 ∨ (w.epS e).oeReady = false ∨ w.rd (epB e) KEDG_STAT.lane_lock = 1 then w.sigOn e lane
    else (w.sigOn e lane).lockGain e := by
  rw [← w.sigOn_lock e lane, ← State.epS_congr (W.ep_of_bare (w.sigOn_bare e lane))]
  unfold effLaneLockGain
  simp only [Bool.not_eq_true']
  rfl

theorem W.lockGain_epS (w : W) (e : Nat) : (w.lockGain e).epS e = { (w.epS e).stopped with owed := (w.epS e).stopped.freeFrames } := by
  rw [W.lockGain, W.epMod_epS, W.linkStop_epS]
  rfl

theorem W.lockGain_bareL (w : W) (e : Nat) : (w.lockGain e).bareL = w.bareL := by
  rw [W.lockGain, W.epMod_bareL, W.linkStop_bareL, W.bareL_of (W.inc_bare ..), W.bareL_of (W.wr_bare ..)]

theorem W.lockGain_lock (w : W) (e : Nat) : (w.lockGain e).rd (epB e) KEDG_STAT.lane_lock = 1 := by
  rw [W.lockGain, W.epMod_rd, W.linkStop_rd _ _ (Fld.key_ne _ _ (by decide) (by decide) (by decide)),
    W.rd_inc_apart _ _ _ _ _ (by decide) (by decide) (by decide), W.rd_wr_self]
  rfl

theorem laneLockGain_gains {s : State} {e : Nat} (lane : Nat) (hr : s.inReset = false) (hgood : 4 ≤ (s.epS e).good)
    (hoe : (s.epS e).oeReady = true) (hlock : s.rd (epB e) KEDG_STAT.lane_lock ≠ 1) :
    ∃ t, exec (.laneLockGain e lane) s = .next t ∧ t.rd (epB e) KEDG_STAT.lane_lock = 1
      ∧ t.epS e = { (s.epS e).stopped with owed := (s.epS e).stopped.freeFrames } ∧ t.mem = s.mem ∧ t.net = s.net := by
  have heff := effLaneLockGain_eq e lane s.w0
  rw [State.w0_toState, if_neg (by simp [Nat.not_lt.mpr hgood, hoe, hlock])] at heff
  have hep : ((s.w0.sigOn e lane).lockGain e).epS e = { (s.epS e).stopped with owed := (s.epS e).stopped.freeFrames } := by
    rw [W.lockGain_epS, State.epS_congr (W.ep_of_bare (s.w0.sigOn_bare e lane)), State.w0_toState]
  have hlk := (s.w0.sigOn e lane).lockGain_lock e
  have hbare := ((s.w0.sigOn e lane).lockGain_bareL e).trans (W.bareL_of (s.w0.sigOn_bare e lane))
  generalize (s.w0.sigOn e lane).lockGain e = v at heff hep hlk hbare
  exact ⟨_, run_const hr heff, hlk, hep, State.after_const_of_bareL hbare⟩

/-- Where lock is not gained, the signal is noted and nothing else is changed. -/
theorem laneLockGain_waits {s : State} {e lane : Nat} (hr : s.inReset = false) (hlane : lane < 5)
    (hno : (s.epS e).good < 4 ∨ (s.epS e).oeReady = false ∨ s.rd (epB e) KEDG_STAT.lane_lock = 1) :
    exec (.laneLockGain e lane) s = .next (s.after fun w => w.wr (epB e) KEDG_LANE.sig (setBit (s.rd (epB e) KEDG_LANE.sig) lane true)) := by
  have heff := effLaneLockGain_eq e lane s.w0
  rw [State.w0_toState, if_pos hno, W.sigOn, if_pos hlane] at heff
  exact run_eq hr heff

theorem W.lockLoss_epS {w : W} {e : Nat} (h : w.rd (epB e) KEDG_STAT.lane_lock ≠ 0) :
    (w.lockLoss e).epS e = { (w.epS e).stopped with good := 0, badN := 0, rxFr := [] } := by
  rw [W.lockLoss, if_neg h, W.epMod_epS, W.linkStop_epS]
  rfl

theorem W.lockFault_unlocked {w : W} {e : Nat} (h : w.rd (epB e) KEDG_STAT.lane_lock = 0) : w.lockFault e = w := if_pos h

theorem W.lockFault_locked {w : W} {e : Nat} (h : w.rd (epB e) KEDG_STAT.lane_lock ≠ 0) : w.lockFault e =
    { (w.lockLoss e).fault clLINK (locEp e) with flt.escal := ((w.lockLoss e).fault clLINK (locEp e)).flt.escal ++ [locEp e] } := if_neg h

theorem effLaneLockLoss_blocks {w : W} {e lane : Nat} (h : 5 ≤ lane) :
    effLaneLockLoss e lane w = if 4 ≤ (w.epS e).badN then w.lockFault e else w := if_neg (Nat.not_lt.mpr h)

theorem effLaneLockLoss_signal {w : W} {e lane : Nat} (h : lane < 5) : effLaneLockLoss e lane w =
    let v := w.wr (epB e) KEDG_LANE.sig (setBit (w.rd (epB e) KEDG_LANE.sig) lane false)
    if (v.lanesUsed e).contains lane then v.lockFault e else v := if_pos h

/-- Signal is no part of the lane map. -/
theorem W.lanesUsed_wr_sig (w : W) (e v : Nat) : (w.wr (epB e) KEDG_LANE.sig v).lanesUsed e = w.lanesUsed e := by
  unfold State.lanesUsed
  dsimp only
  rw [W.rd_wr_apart _ _ _ _ _ (by decide) (by decide) (by decide), W.rd_wr_apart _ _ _ _ _ (by decide) (by decide) (by decide)]

/-- The state after a write of a lane's signal. -/
theorem State.after_wr_sig (s : State) (e v : Nat) : let t := s.after fun w => w.wr (epB e) KEDG_LANE.sig v
    t.rd (epB e) KEDG_LANE.sig = v % 2 ^ KEDG_LANE.sig.width ∧ t.ep = s.ep ∧ t.mem = s.mem ∧ t.net = s.net :=
  ⟨W.rd_wr_self .., rfl, State.after_mem_of_no_stores rfl, rfl⟩

/-! ### The optical engine (R350) -/

/-- The optical engine's readiness changes: without it no lane is enabled. -/
def W.oeSet (w : W) (e : Nat) (level : Bool) : W := w.epMod e (fun p => { p with
  oeReady := level, oeRst := false, txEn := if level then (w.lanesUsed e).foldl (fun m l => setBit m l true) 0 else 0 })

theorem effOeReadyChange_up (e : Nat) (w : W) : effOeReadyChange e true w = w.oeSet e true := rfl
theorem effOeReadyChange_down (e : Nat) (w : W) : effOeReadyChange e false w = (w.oeSet e false).lockFault e := by
  unfold effOeReadyChange
  exact if_neg (by decide)

theorem State.after_oeSet (s : State) (e : Nat) (level : Bool) : let t := s.after fun _ => s.w0.oeSet e level
    (t.epS e = { s.epS e with oeReady := level, oeRst := false,
                              txEn := if level then (s.lanesUsed e).foldl (fun m l => setBit m l true) 0 else 0 })
      ∧ t.mem = s.mem ∧ t.net = s.net :=
  ⟨by rw [State.after_epS, W.oeSet, W.epMod_epS]; rfl, State.after_const_of_bareL (W.epMod_bareL ..)⟩

/-! ### Codewords (R318) -/

theorem W.corrAt_bareF (w : W) (l : Nat) : (w.corrAt l).bareF = w.bareF := W.onError_bareF ..

theorem W.fecCount_bareF (w : W) (e n m : Nat) : (w.fecCount e n m).bareF = w.bareF := by
  rw [W.fecCount, W.each_bareF _ _ _ (fun v _ => v.uncorrAt_bareF _), W.each_bareF _ _ _ (fun v _ => v.corrAt_bareF _), W.bareF_of (W.inc_bare ..), W.bareF_of (W.inc_bare ..)]

/-- An error at a location leaves every field that begins past bit 0 of its register, but those of trace buffers. -/
theorem W.onError_rd (w : W) (l wt : Nat) {b : Nat} {f : Fld} (ho : offTrace b f) (hl : f.lsb ≠ 0) :
    (w.onError l wt).rd b f = w.rd b f := by
  unfold W.onError
  extract_lets e win fresh n t0 last src v
  have hv : v.rd b f = w.rd b f := rfl
  split
  · rfl
  · split
    · rename_i x flt _ _
      have hx : x.rd b f = w.rd b f := (W.fault_rd v clLASTING l 0 ho hl).trans hv
      clear_value x
      exact hx
    · exact hv

theorem epB_offTrace (e : Nat) {f : Fld} (hf : f.lsb < 32) : offTrace (epB e) f := by
  refine ⟨hf, .inr ?_⟩
  unfold epB
  omega

theorem W.fecCount_uncorr (w : W) (e n m : Nat) : (w.fecCount e n m).rd (epB e) KEDG_FEC.fec_uncorr
    = satAdd KEDG_FEC.fec_uncorr.width (w.rd (epB e) KEDG_FEC.fec_uncorr) m % 2 ^ KEDG_FEC.fec_uncorr.width := by
  have ho := epB_offTrace e (f := KEDG_FEC.fec_uncorr) (by decide)
  let v := (w.inc (epB e) KEDG_FEC.fec_corr n).inc (epB e) KEDG_FEC.fec_uncorr m
  have hcorr : ∀ (l : List Nat) (u : W), (u.each l (fun w _ => w.corrAt (locEp e))).rd (epB e) KEDG_FEC.fec_uncorr
      = u.rd (epB e) KEDG_FEC.fec_uncorr := fun l u =>
    W.each_inv (fun x => x.rd (epB e) KEDG_FEC.fec_uncorr = u.rd (epB e) KEDG_FEC.fec_uncorr) l _ u rfl
      (fun x _ _ hx => (x.onError_rd _ _ ho (by decide)).trans hx)
  have huncorr : ∀ (l : List Nat) (u : W), (u.each l (fun w _ => w.uncorrAt (locEp e))).rd (epB e) KEDG_FEC.fec_uncorr
      = u.rd (epB e) KEDG_FEC.fec_uncorr := fun l u =>
    W.each_inv (fun x => x.rd (epB e) KEDG_FEC.fec_uncorr = u.rd (epB e) KEDG_FEC.fec_uncorr) l _ u rfl
      (fun x _ _ hx => ((x.fault clUNCORR (locEp e)).onError_rd _ _ ho (by decide)).trans ((x.fault_rd _ _ 0 ho (by decide)).trans hx))
  rw [W.fecCount]
  rw [huncorr, hcorr, W.rd_inc_self, W.rd_inc_apart _ _ _ _ _ (by decide) (by decide) (by decide)]

/-! ### A block's header (R320) -/

/-- What a header that decoded tells an edge port. -/
def Ep.ofPeer (h : List Byte) (p : Ep) : Ep :=
  { p with good := min 4 (p.good + 1), badN := 0, peerPkg := bits (le h 9 3) 0 17, peerEp := bits (le h 9 3) 17 6 }

def Ep.markBad (b : Bool) (p : Ep) : Ep := { p with cwBad := b }

/-- The peer's identity and readiness are taken, and the link comes up where it can (R320, R324). -/
def W.peerSeen (w : W) (e : Nat) (h : List Byte) : W :=
  ((w.epMod e (Ep.ofPeer h)).wr (epB e) KEDG_STAT.peer_nready (bits (le h 8 1) 0 1)).tryLinkUp e

/-- The peer is checked against that of an open window (R345). -/
def W.peerCheck (w : W) (e pkg ep : Nat) : W :=
  match w.rd (epB e) KEDG_CW_STAT.cw_open, (w.epS e).cw.find (w.rd (epB e) KEDG_CW_STAT.cw_next) with
  | 1, some c =>
    if (c.pkg ≠ pkg ∨ c.ep ≠ ep) ∧ !(w.epS e).cwBad then
      (w.inc (epB e) KEDG_CW_EVT2.cw_peer_bad).epMod e (Ep.markBad true)
    else w
  | _, _ => w

section
variable {e : Nat} {h : List Byte}

theorem W.takeHeader_bad (w : W) (ok : Bool) (hsync : le h 0 6 ≠ 0x9E2B71C4D5A8) :
    w.takeHeader e h ok = w.epMod e (fun p => { p with good := 0, badN := min 4 (p.badN + 1) }) := if_pos hsync

variable (hsync : le h 0 6 = 0x9E2B71C4D5A8)
include hsync

theorem W.takeHeader_undecoded (w : W) :
    w.takeHeader e h false = w.epMod e (fun p => { p with good := min 4 (p.good + 1), badN := 0 }) :=
  (if_neg (not_not.mpr hsync)).trans (if_pos rfl)

/-- A header that decoded gives the peer's identity and readiness, which can bring the link up, and checks the peer of an open window. -/
theorem W.takeHeader_decoded (w : W) :
    w.takeHeader e h true = (w.peerSeen e h).peerCheck e (bits (le h 9 3) 0 17) (bits (le h 9 3) 17 6) :=
  (if_neg (not_not.mpr hsync)).trans (if_neg (by decide))

end

theorem W.peerSeen_epS (w : W) (e : Nat) (h : List Byte) : (w.peerSeen e h).epS e = (w.epS e).ofPeer h := by
  rw [W.peerSeen, State.epS_congr (W.ep_of_bare (W.tryLinkUp_bare ..)), State.epS_congr (W.wr_ep ..), W.epMod_epS]

theorem W.peerSeen_bareL (w : W) (e : Nat) (h : List Byte) : (w.peerSeen e h).bareL = w.bareL := by
  rw [W.peerSeen, W.bareL_of (W.tryLinkUp_bare ..), W.bareL_of (W.wr_bare ..), W.epMod_bareL]

theorem W.peerSeen_ready (w : W) (e : Nat) (h : List Byte) :
    (w.peerSeen e h).rd (epB e) KEDG_STAT.peer_nready = bits (le h 8 1) 0 1 := by
  rw [W.peerSeen, W.tryLinkUp_rd _ _ (Fld.key_ne _ _ (by decide) (by decide) (by decide)), W.rd_wr_self]
  exact Nat.mod_mod _ _

/-- Beside its mark that the peer of an open window is wrong, the check changes a count alone. -/
theorem W.peerCheck_keeps (w : W) (e pkg ep : Nat) : (∃ b, (w.peerCheck e pkg ep).epS e = (w.epS e).markBad b)
    ∧ (w.peerCheck e pkg ep).bareL = w.bareL
    ∧ (w.peerCheck e pkg ep).rd (epB e) KEDG_STAT.peer_nready = w.rd (epB e) KEDG_STAT.peer_nready := by
  unfold W.peerCheck
  split
  · split
    · refine ⟨⟨true, ?_⟩, ?_, ?_⟩
      · rw [W.epMod_epS, State.epS_congr (W.inc_ep ..)]
      · rw [W.epMod_bareL, W.bareL_of (W.inc_bare ..)]
      · rw [W.epMod_rd, W.rd_inc_apart _ _ _ _ _ (by decide) (by decide) (by decide)]
    · exact ⟨⟨_, rfl⟩, rfl, rfl⟩
  · exact ⟨⟨_, rfl⟩, rfl, rfl⟩

theorem W.takeHeader_keeps (w : W) (e : Nat) (h : List Byte) (ok : Bool) :
    ((w.takeHeader e h ok).epS e).rxFr = (w.epS e).rxFr ∧ (w.takeHeader e h ok).bareL = w.bareL := by
  by_cases hsync : le h 0 6 = 0x9E2B71C4D5A8
  · cases ok with
    | false =>
      rw [W.takeHeader_undecoded hsync, W.epMod_epS]
      exact ⟨rfl, W.epMod_bareL ..⟩
    | true =>
      obtain ⟨⟨b, hep⟩, hbare, -⟩ := (w.peerSeen e h).peerCheck_keeps e (bits (le h 9 3) 0 17) (bits (le h 9 3) 17 6)
      rw [W.takeHeader_decoded hsync, hep, hbare, W.peerSeen_epS, W.peerSeen_bareL]
      exact ⟨rfl, rfl⟩
  · rw [W.takeHeader_bad w ok hsync, W.epMod_epS]
    exact ⟨rfl, W.epMod_bareL ..⟩

/-! ### A block (R315 to R320) -/

/-- A block as it is received: its codewords counted and its header taken. -/
def W.headerIn (w : W) (e : Nat) (blk : RxBlock) : W :=
  (w.fecCount e blk.corr blk.uncorr).takeHeader e blk.hdr ((blk.frames.head?.map (fun f => f.2)).getD false)

/-- Its frames, each with the herd time at which its control cell came. -/
def rxFrames (t : Nat) (on : Bool) (sl : Nat) (rx : List (List (List Nat))) (blk : RxBlock) : List RxFrame :=
  (blk.frames.zip (List.range 25)).map (fun x =>
    { bytes := x.1.1, ok := x.1.2, at_ := (t + 2 ^ 64 - (rx.length - 1 - frameFc on sl rx x.2)) % 2 ^ 64 })

def Ep.addFrames (l : List RxFrame) (p : Ep) : Ep := { p with rxFr := p.rxFr ++ l }

theorem Ep.addFrames_nil (p : Ep) : p.addFrames [] = p := by rw [Ep.addFrames, List.append_nil]

theorem headD_map_eq_getD {α β : Type} (f : α → β) (d : β) (l : List α) : (l.map f).headD d = (l.head?.map f).getD d := by
  cases l with
  | nil => rfl
  | cons a l => rfl

theorem W.fecCount_epS (w : W) (e n m : Nat) : (w.fecCount e n m).epS e = w.epS e :=
  State.epS_congr (W.ep_of_bareF (w.fecCount_bareF e n m)) e

theorem W.headerIn_facts (w : W) (e : Nat) (blk : RxBlock) : ((w.headerIn e blk).epS e).rxFr = (w.epS e).rxFr
    ∧ (w.headerIn e blk).stores = w.stores ∧ (w.headerIn e blk).herdTime = w.herdTime := by
  obtain ⟨hfr, hbare⟩ := (w.fecCount e blk.corr blk.uncorr).takeHeader_keeps e blk.hdr ((blk.frames.head?.map (fun f => f.2)).getD false)
  have hfec := w.fecCount_bareF e blk.corr blk.uncorr
  refine ⟨?_, (W.stores_of_bareL hbare).trans (W.stores_of_bareF hfec), (W.herdTime_of_bareL hbare).trans (W.herdTime_of_bareF hfec)⟩
  rw [W.headerIn, hfr, W.fecCount_epS]

section
variable {w : W} {e : Nat} {rx : List (List (List Nat))} {on : Bool} {sl : Nat} {blk : RxBlock} (hon : on = (w.rd (epB e) KEDG_LANE.spare_on == 1))
  (hsl : sl = w.rd (epB e) KEDG_LANE.spare_lane) (hblk : blk = decodeBlock (rxSyms on sl rx))
include hon hsl hblk

theorem effBlockHeaderReceive_unlocked (h : w.rd (epB e) KEDG_STAT.lane_lock ≠ 1) : effBlockHeaderReceive e rx w = w.headerIn e blk := by
  subst hon hsl hblk
  exact if_pos (by simp [h])

theorem effBlockHeaderReceive_locked (h : w.rd (epB e) KEDG_STAT.lane_lock = 1) : effBlockHeaderReceive e rx w =
    (w.headerIn e blk).epMod e (Ep.addFrames (rxFrames (w.headerIn e blk).herdTime on sl rx blk)) := by
  subst hon hsl hblk
  unfold effBlockHeaderReceive
  rw [if_neg (by simp [h])]
  unfold W.headerIn rxFrames
  generalize W.takeHeader _ _ _ _ = v
  rfl

/-- A block's frames join those not taken, with lane lock; the rest is its header's work. -/
theorem effBlockHeaderReceive_facts : (effBlockHeaderReceive e rx w).epS e = ((w.headerIn e blk).epS e).addFrames
      (if w.rd (epB e) KEDG_STAT.lane_lock = 1 then rxFrames w.herdTime on sl rx blk else [])
    ∧ (effBlockHeaderReceive e rx w).stores = w.stores
    ∧ ∀ c (g : Fld), (effBlockHeaderReceive e rx w).rd c g = (w.headerIn e blk).rd c g := by
  obtain ⟨-, hstores, htime⟩ := w.headerIn_facts e blk
  by_cases h : w.rd (epB e) KEDG_STAT.lane_lock = 1
  · rw [effBlockHeaderReceive_locked hon hsl hblk h, if_pos h, W.epMod_epS, htime]
    exact ⟨rfl, hstores, fun c g => W.epMod_rd ..⟩
  · rw [effBlockHeaderReceive_unlocked hon hsl hblk h, if_neg h, Ep.addFrames_nil]
    exact ⟨rfl, hstores, fun _ _ => rfl⟩

end

section
variable {s : State} {e : Nat} {rx : List (List (List Nat))} {blk : RxBlock} (hr : s.inReset = false)
  (hblk : blk = decodeBlock (rxSyms (s.rd (epB e) KEDG_LANE.spare_on == 1) (s.rd (epB e) KEDG_LANE.spare_lane) rx))
include hr hblk

theorem blockHeaderReceive_bad (hsync : le blk.hdr 0 6 ≠ 0x9E2B71C4D5A8) : ∃ t, exec (.blockHeaderReceive e rx) s = .next t
      ∧ (t.epS e).good = 0 ∧ (t.epS e).badN = min 4 ((s.epS e).badN + 1) ∧ (t.epS e).peerPkg = (s.epS e).peerPkg ∧ t.mem = s.mem := by
  obtain ⟨hep, hstores, -⟩ := effBlockHeaderReceive_facts (w := s.w0) rfl rfl hblk
  rw [W.headerIn, W.takeHeader_bad _ _ hsync, W.epMod_epS, W.fecCount_epS] at hep
  refine ⟨_, run_up _ hr, ?_, ?_, ?_, State.after_mem_of_no_stores hstores⟩
  · rw [State.after_epS, hep]; rfl
  · rw [State.after_epS, hep]; rfl
  · rw [State.after_epS, hep]; rfl

theorem blockHeaderReceive_good (hsync : le blk.hdr 0 6 = 0x9E2B71C4D5A8) : ∃ t, exec (.blockHeaderReceive e rx) s = .next t
      ∧ (t.epS e).good = min 4 ((s.epS e).good + 1) ∧ (t.epS e).badN = 0 ∧ t.mem = s.mem
      ∧ ((blk.frames.map (fun f => f.2)).headD false = true →
        (t.epS e).peerPkg = bits (le blk.hdr 9 3) 0 17 ∧ (t.epS e).peerEp = bits (le blk.hdr 9 3) 17 6
          ∧ t.rd (epB e) KEDG_STAT.peer_nready = bits (le blk.hdr 8 1) 0 1)
      ∧ ((blk.frames.map (fun f => f.2)).headD false = false → (t.epS e).peerPkg = (s.epS e).peerPkg ∧ (t.epS e).peerEp = (s.epS e).peerEp) := by
  obtain ⟨hep, hstores, hrd⟩ := effBlockHeaderReceive_facts (w := s.w0) rfl rfl hblk
  have hmem := State.after_mem_of_no_stores hstores
  have hfec := s.w0.fecCount_epS e blk.corr blk.uncorr
  rw [headD_map_eq_getD]
  rw [W.headerIn] at hep hrd
  rw [← State.after_epS] at hep
  cases hok : (blk.frames.head?.map (fun f => f.2)).getD false with
  | false =>
    rw [hok, W.takeHeader_undecoded hsync, W.epMod_epS, hfec] at hep
    exact ⟨_, run_up _ hr, by rw [hep]; rfl, by rw [hep]; rfl, hmem, fun h => absurd h (by decide), fun _ => ⟨by rw [hep]; rfl, by rw [hep]; rfl⟩⟩
  | true =>
    obtain ⟨⟨b, hcheck⟩, -, hready⟩ := ((s.w0.fecCount e blk.corr blk.uncorr).peerSeen e blk.hdr).peerCheck_keeps e
      (bits (le blk.hdr 9 3) 0 17) (bits (le blk.hdr 9 3) 17 6)
    rw [hok, W.takeHeader_decoded hsync] at hep hrd
    rw [W.peerSeen_ready, ← hrd] at hready
    rw [hcheck, W.peerSeen_epS, hfec] at hep
    exact ⟨_, run_up _ hr, by rw [hep]; rfl, by rw [hep]; rfl, hmem, fun _ => ⟨by rw [hep]; rfl, by rw [hep]; rfl, hready⟩,
      fun h => absurd h (by decide)⟩

end

/-- Settles O43, a clause for each change of the lanes and each kind of block. -/
theorem lanesLock : Obligations.LanesLock := by
  refine ⟨?_, ?_, ?_, ?_, ?_, ?_, ?_, ?_, ?_, ?_, ?_, ?_, ?_, ?_⟩
  · intro s e lane hr _ hgood hoe hlock
    obtain ⟨t, hex, hlk, hep, hmem, hnet⟩ := laneLockGain_gains lane hr hgood hoe hlock
    rw [Ep.freeFrames_stopped] at hep
    exact ⟨t, hex, hlk, by rw [hep], by rw [hep]; rfl, by rw [hep]; rfl, by rw [hep]; rfl, by rw [hep]; rfl, by rw [hep]; rfl,
      by rw [hep]; rfl, by rw [hep]; rfl, hmem, hnet⟩
  · intro s e lane hr _ hlane hno
    exact ⟨_, laneLockGain_waits hr hlane hno, s.after_wr_sig e _⟩
  · intro s e lane hr hlane hbad hlock
    exact run_eq hr ((effLaneLockLoss_blocks hlane).trans ((if_pos hbad).trans (W.lockFault_locked hlock)))
  · intro s e lane hr hlane hno
    refine run_same hr ((effLaneLockLoss_blocks hlane).trans ?_)
    split
    · rename_i hbad
      exact W.lockFault_unlocked (hno.resolve_left (Nat.not_lt.mpr hbad))
    · rfl
  · intro s e lane hr _ hlane hout
    have heff := effLaneLockLoss_signal (w := s.w0) (e := e) hlane
    dsimp only at heff
    rw [W.lanesUsed_wr_sig, if_neg (by simpa using hout)] at heff
    exact ⟨_, run_const hr heff, s.after_wr_sig e _⟩
  · intro s e lane hr _ hlane hin
    have heff := effLaneLockLoss_signal (w := s.w0) (e := e) hlane
    dsimp only at heff
    rw [W.lanesUsed_wr_sig, if_pos (by exact hin)] at heff
    exact run_eq hr heff
  · intro s e hlock
    have hep := W.lockLoss_epS (w := s.w0) hlock
    rw [State.after_epS, hep]
    exact ⟨rfl, rfl, rfl, rfl, rfl, rfl⟩
  · intro s e hr
    obtain ⟨hep, hmem, hnet⟩ := s.after_oeSet e true
    exact ⟨_, run_const hr (effOeReadyChange_up e s.w0), by rw [hep], by rw [hep], by rw [hep]; rfl, hmem, hnet⟩
  · intro s e hr hlock
    obtain ⟨hep, hmem, hnet⟩ := s.after_oeSet e false
    have heff := (effOeReadyChange_down e s.w0).trans (W.lockFault_unlocked hlock)
    exact ⟨_, run_const hr heff, by rw [hep], by rw [hep]; rfl, hmem, hnet⟩
  · intro s e hr
    exact run_eq hr (effOeReadyChange_down e s.w0)
  · intro s e rx blk hr hblk hsync
    exact blockHeaderReceive_bad hr hblk hsync
  · intro s e rx blk hr _ hblk hsync
    exact blockHeaderReceive_good hr hblk hsync
  · intro s e rx on sl blk hr hon hsl hblk
    obtain ⟨hep, -, -⟩ := effBlockHeaderReceive_facts (w := s.w0) hon hsl hblk
    obtain ⟨hfr, -, -⟩ := s.w0.headerIn_facts e blk
    refine ⟨_, run_up _ hr, ?_, fun hlock => State.after_congr (effBlockHeaderReceive_unlocked (w := s.w0) hon hsl hblk hlock)⟩
    rw [State.after_epS, hep, Ep.addFrames, hfr]
    rfl
  · intro s e n m _
    exact s.w0.fecCount_uncorr e n m

end Sys2Proof.Machine
end

section
/-! PROOFS. Frames: what an edge port sends at a frame boundary (R322 to R326, R328, R345, R350). -/

namespace Sys2Proof.Machine

/-! ### The source of the next frame (R326) -/

theorem effFrameBoundary_off {w : W} {e : Nat} (h : (w.epS e).oeReady = false ∨ (w.epS e).txEn = 0) : effFrameBoundary e w = w := by
  unfold effFrameBoundary
  rw [if_pos (by simpa using h)]

/-- Sequenced frames may be sent: the link is up, no window spans, and neither fault nor hold stops them. -/
theorem State.seqOk_clear {s : State} {e : Nat} (h : s.seqOk e = true) : s.edgeFault = false ∧ s.edgeHold = false ∧ (s.epS e).cwPhase = 0 := by
  unfold State.seqOk at h
  simp only [Bool.and_eq_true, Bool.not_eq_true', beq_iff_eq] at h
  obtain ⟨⟨⟨-, hphase⟩, hfault⟩, hhold⟩ := h
  exact ⟨hfault, hhold, hphase⟩

/-- The sources of R326 by which the high-priority VCs are served first: the VC whose turn it is. -/
def State.hpVc (s : State) (e : Nat) : Option Nat :=
  [0, 1, 2, 3, 4, 6, 7, 8, 9].find? (fun vc =>
    bit (s.rdOld (epB e) KRTR_QUOTA.hp_mask) vc && s.fragOk e vc && !s.qMasked (epB e) (s.arb (uEp e) 1 0) 0 vc s.herdTime)

section
variable {w : W} {e : Nat} (hoe : (w.epS e).oeReady = true) (htx : (w.epS e).txEn ≠ 0)
include hoe htx

theorem effFrameBoundary_fault (hfault : w.edgeFault = true) :
    effFrameBoundary e w = w.sendFrame e 0 0 (w.epS e).txSeq false false [] := by
  unfold effFrameBoundary
  rw [if_neg (by simp [hoe, htx])]
  dsimp only
  rw [if_pos hfault]

variable (hfault : w.edgeFault = false)
include hfault

theorem effFrameBoundary_time (htime : w.herdTime / 2 ^ w.rd (epB e) KEDG_TIME_CFG.tw_log2 ≠ (w.epS e).timeFc) :
    let mlk := w.rd hrdB KHRD_STATUS.state == 2 && w.rd hrdB KHRD_STATUS.free_run == 0
    effFrameBoundary e w =
      (w.epMod e (fun p => { p with timeFc := w.herdTime / 2 ^ w.rd (epB e) KEDG_TIME_CFG.tw_log2 })).sendFrame e 3 0 (w.epS e).txSeq false false
        (toLE 8 (w.herdTime + w.rd (epB e) KEDG_TIME_CFG.tx_lat) ++ toLE 8 (w.epS e).peerTx ++ toLE 8 (w.epS e).peerRecv
          ++ toLE 1 (if mlk then 1 else 0)
          ++ toLE 1 (if mlk then min 255 (w.rd (epB (w.rd hrdB KHRD_STATUS.ref_port)) KEDG_TIME_STAT.thops + 1) else 255)) := by
  unfold effFrameBoundary
  rw [if_neg (by simp [hoe, htx])]
  dsimp only
  rw [if_neg (by simp [hfault]), if_pos htime]
  rfl

variable (htime : w.herdTime / 2 ^ w.rd (epB e) KEDG_TIME_CFG.tw_log2 = (w.epS e).timeFc) (hhold : w.edgeHold = false)
include htime hhold

theorem effFrameBoundary_circuit {c : CwEnt} (hphase : (w.epS e).cwPhase = 2)
    (hcw : (w.epS e).cw.find (w.rd (epB e) KEDG_CW_STAT.cw_next) = some c) (hopen : c.tOpen + 8 ≤ w.herdTime)
    (hclose : w.herdTime + 8 < c.tClose) (htxq : (w.epS e).txq ≠ []) (hstate : w.rd hrdB KHRD_STATUS.state = 2)
    (hfree : w.rd hrdB KHRD_STATUS.free_run = 0) : effFrameBoundary e w =
      ((w.epMod e (fun p => { p with txq := p.txq.drop 3 })).wr (epB e) KEDG_CW_STAT.cw_txq
        ((w.epS e).txq.length - ((w.epS e).txq.take 3).length)).sendFrame e 4 0 (w.epS e).txSeq false false
          (((w.epS e).txq.take 3).flatMap Cell.bytes) := by
  unfold effFrameBoundary
  rw [if_neg (by simp [hoe, htx])]
  dsimp only
  rw [if_neg (by simp [hfault]), if_neg (not_not.mpr htime), if_neg (by simp [hhold]), if_pos (by simp [hphase]), hcw]
  dsimp only
  rw [if_pos ⟨hphase, hopen, hclose, htxq, hstate, hfree⟩]

variable (hphase : (w.epS e).cwPhase = 0) (hseq : w.seqOk e = true)
include hphase hseq

theorem effFrameBoundary_resend {f : EFrame} {rest : List EFrame} (hres : (w.epS e).resend = f :: rest) : effFrameBoundary e w =
    (w.sendFrame e f.ftype f.vc f.lseq f.sof f.eof f.body).epMod e (fun p => { p with resend := rest }) := by
  unfold effFrameBoundary
  rw [if_neg (by simp [hoe, htx])]
  dsimp only
  rw [if_neg (by simp [hfault]), if_neg (not_not.mpr htime), if_neg (by simp [hhold]), if_neg (by simp [hphase]),
    if_neg (by simp [hseq]), hres]

theorem effFrameBoundary_hp {vc : Nat} (hres : (w.epS e).resend = []) (hvc : w.hpVc e = some vc) : effFrameBoundary e w =
    (w.sendFrag e vc).setArb (uEp e) 1 0 (w.countGrant (epB e) (w.arb (uEp e) 1 0) 0 vc w.herdTime) := by
  unfold State.hpVc at hvc
  unfold effFrameBoundary
  rw [if_neg (by simp [hoe, htx])]
  dsimp only
  rw [if_neg (by simp [hfault]), if_neg (not_not.mpr htime), if_neg (by simp [hhold]), if_neg (by simp [hphase]),
    if_neg (by simp [hseq]), hres]
  dsimp only
  rw [hvc]

theorem effFrameBoundary_ack (hres : (w.epS e).resend = []) (hvc : w.hpVc e = none) (hack : w.fragOk e 10 = true) :
    effFrameBoundary e w = w.sendFrag e 10 := by
  unfold State.hpVc at hvc
  unfold effFrameBoundary
  rw [if_neg (by simp [hoe, htx])]
  dsimp only
  rw [if_neg (by simp [hfault]), if_neg (not_not.mpr htime), if_neg (by simp [hhold]), if_neg (by simp [hphase]),
    if_neg (by simp [hseq]), hres]
  dsimp only
  rw [hvc]
  dsimp only
  rw [if_pos hack]

end

/-! ### A fragment (R321, R323, R325) -/

/-- The sender's side of the link: the next sequence number, the frames not acknowledged, the credits. -/
def Ep.sender (p : Ep) : Nat × List EFrame × Tbl Nat := (p.txSeq, p.replay, p.cred)

theorem W.putFrame_sender (w : W) (e : Nat) (f : List Byte) : ((w.putFrame e f).epS e).sender = (w.epS e).sender := by
  rw [W.putFrame, W.epMod_epS]
  split
  · rfl
  · rfl

/-- Reports beside, a frame is an entry in the block that is being sent, with the control cell's credits and `lnak` gone. -/
theorem W.sendFrame_sender (w : W) (e ftype vc lseq : Nat) (sof eof : Bool) (body : List Byte) :
    ((w.sendFrame e ftype vc lseq sof eof body).epS e).sender = (w.epS e).sender := by
  unfold W.sendFrame
  extract_lets p u
  split
  rename_i cv cn _
  extract_lets f v v1
  have hv : (v.epS e).sender = (w.epS e).sender := by
    rw [W.putFrame_sender, W.epMod_epS]
    rfl
  have hv1 : v1.epS e = v.epS e := State.epS_congr (W.wr_ep ..) e
  clear_value v1
  split
  · rw [State.epS_congr (W.ev_ep ..), hv]
  · split
    · rw [State.epS_congr (W.ev_ep ..), hv1, hv]
    · rw [hv1, hv]

theorem W.ite_inc_epS (w : W) (c : Prop) [Decidable c] (b : Nat) (f : Fld) (k i e : Nat) :
    (if c then w.inc b f k i else w).epS e = w.epS e := by
  split
  · exact State.epS_congr (W.inc_ep ..) e
  · rfl

/-- A fragment has the next sequence number, is kept until it is acknowledged, and takes a credit of its VC. -/
theorem W.sendFrag_sender {w : W} {e vc : Nat} {o : EOut} {l : List EOut} (ho : (w.epS e).eq.find vc = some (o :: l)) :
    let body := (o.bytes.drop o.sent).take 240
    let p := w.epS e
    ((w.sendFrag e vc).epS e).sender = ((p.txSeq + 1) % 4096,
      p.replay ++ [{ lseq := p.txSeq, ftype := if vc = 10 then 2 else if vc = 11 then 5 else 1, vc := vc, sof := o.sent == 0,
                     eof := decide (o.bytes.length ≤ o.sent + body.length), body := body }],
      Tbl.set 0 p.cred vc (Tbl.get 0 p.cred vc - 1)) := by
  unfold W.sendFrag
  simp only [ho]
  generalize hu : W.sendFrame w e _ vc _ _ _ _ = u
  have hsend : (u.epS e).sender = (w.epS e).sender := by rw [← hu, W.sendFrame_sender]
  rw [W.epMod_epS, W.ite_inc_epS]
  obtain ⟨hseq, hreplay, hcred⟩ : (u.epS e).txSeq = _ ∧ (u.epS e).replay = _ ∧ (u.epS e).cred = _ := by
    simpa only [Ep.sender, Prod.mk.injEq] using hsend
  simp only [Ep.sender, hseq, hreplay, hcred]

end Sys2Proof.Machine
end

section
/-! PROOFS. Frames received: control cells, fragments in and out of sequence, circuit cells (R322 to R325, R346). -/

namespace Sys2Proof.Machine

/-! ### The control cell (R323 to R325) -/

/-- An edge port after a control cell: what it tells, and `lnak` starts a resend of what is left. -/
def Ep.controlled (f : List Byte) (p : Ep) : Ep :=
  if bit (le f 6 2) 12 ∧ (p.heard f).replay ≠ [] then { p.heard f with resend := (p.heard f).replay } else p.heard f

theorem W.takeControl_epS (w : W) (e : Nat) (f : List Byte) : (w.takeControl e f).epS e = (w.epS e).controlled f := by
  rw [W.takeControl_eq]
  dsimp only
  rw [State.epS_congr (W.ep_of_bare (W.tryLinkUp_bare ..)), Ep.controlled]
  split
  case isTrue h =>
    rw [W.epMod_epS] at h
    rw [if_pos h, W.epMod_epS, State.epS_congr (W.inc_ep ..), W.epMod_epS]
  case isFalse h =>
    rw [W.epMod_epS] at h
    rw [if_neg h, W.epMod_epS]

/-- The receiver's side of an edge port, and its circuit's. -/
def Ep.receiver (p : Ep) : List RxFrame × Nat × Tbl (List Byte × Nat) × List (Nat × Nat × List Byte) × Nat × Bool × List Cell :=
  (p.rxFr, p.rxSeq, p.asm_, p.inq, p.cwPhase, p.cwBad, p.rxq)

theorem Ep.heard_receiver (f : List Byte) (p : Ep) : (p.heard f).receiver = p.receiver := by
  unfold Ep.heard
  dsimp only
  split
  · rfl
  · rfl

/-- A control cell is for the sender's side. -/
theorem Ep.controlled_receiver (f : List Byte) (p : Ep) : (p.controlled f).receiver = p.receiver := by
  unfold Ep.controlled
  split
  · exact p.heard_receiver f
  · exact p.heard_receiver f

theorem Ep.heard_replay (f : List Byte) (p : Ep) : (p.heard f).replay =
    if bit (le f 6 2) 13 then p.replay.filter (fun x => !notEarlier (bits (le f 6 2) 0 12) x.lseq 12) else p.replay := by
  unfold Ep.heard
  dsimp only
  split
  · rfl
  · rfl

theorem Ep.heard_cred (f : List Byte) (p : Ep) : Tbl.get 0 (p.heard f).cred (bits (le f 8 2) 0 4)
    = Tbl.get 0 p.cred (bits (le f 8 2) 0 4) + bits (le f 8 2) 4 4 := by
  unfold Ep.heard
  dsimp only
  rw [Tbl.get_set_self]
  split
  · rfl
  · rfl

theorem Ep.controlled_of_no_nak {f : List Byte} (p : Ep) (h : bit (le f 6 2) 12 = false) : p.controlled f = p.heard f :=
  if_neg (by simp [h])

theorem Ep.controlled_of_nak {f : List Byte} {p : Ep} (h : bit (le f 6 2) 12 = true) (hr : (p.heard f).replay ≠ []) :
    p.controlled f = { p.heard f with resend := (p.heard f).replay } := if_pos ⟨h, hr⟩

/-! ### Frames taken (R322, R323) -/

section
variable {w : W} {e : Nat} {f : RxFrame} (hf : w.nextFrame e (fun f => !(f.good && (f.type == 3 || f.type == 4))) = some f)
include hf

theorem effDataFrame_bad (h : f.good = false ∨ 5 < f.type) : effDataFrame e w = (w.dropFrame e).inc (epB e) KEDG_LINK.crc_bad := by
  unfold effDataFrame
  rw [hf]
  dsimp only
  rw [if_pos (by simpa using h)]

variable (hgood : f.good = true)
include hgood

theorem effDataFrame_idle (h : f.type = 0) : effDataFrame e w = (w.dropFrame e).takeControl e f.bytes := by
  unfold effDataFrame
  rw [hf]
  dsimp only
  rw [if_neg (by simp [hgood, h]), if_pos h, if_pos h]

variable (h : f.type = 1 ∨ f.type = 2 ∨ f.type = 5)
include h

/-- A sequenced frame that is good: in sequence it is accepted, and out of sequence `lnak` is set. -/
theorem effDataFrame_sequenced : effDataFrame e w =
    if bits (le f.bytes 4 2) 0 12 = ((w.epS e).rxSeq + 1) % 4096 then (w.frameIn e f.bytes).acceptFrame e f.bytes
    else (w.frameIn e f.bytes).epMod e (fun p => { p with nak := true }) := by
  have h0 : f.type ≠ 0 := by omega
  have h5 : ¬ 5 < f.type := by omega
  have hseq : ((w.frameIn e f.bytes).epS e).rxSeq = (w.epS e).rxSeq := by
    rw [W.frameIn, W.takeControl_epS, W.util, State.epS_congr (W.wr_ep ..), W.dropFrame, W.epMod_epS]
    exact congrArg (fun x => x.2.1) (Ep.controlled_receiver ..)
  unfold effDataFrame
  rw [hf]
  dsimp only
  rw [if_neg (by simp [hgood, h5]), if_neg h0, if_neg h0, ← W.frameIn, hseq, ite_not]

end

theorem W.frameIn_receiver (w : W) (e : Nat) (f : List Byte) : ((w.frameIn e f).epS e).receiver =
    { w.epS e with rxFr := (w.epS e).rxFr.drop 1 }.receiver := by
  rw [W.frameIn, W.takeControl_epS, W.util, State.epS_congr (W.wr_ep ..), W.dropFrame, W.epMod_epS]
  exact Ep.controlled_receiver ..

theorem dataFrame_discards {s : State} {e : Nat} {f : RxFrame} (hr : s.inReset = false)
    (hf : s.nextFrame e (fun f => !(f.good && (f.type == 3 || f.type == 4))) = some f) (hgood : f.good = true)
    (htype : f.type = 1 ∨ f.type = 2 ∨ f.type = 5) (hseq : bits (le f.bytes 4 2) 0 12 ≠ ((s.epS e).rxSeq + 1) % 4096) :
    ∃ t, exec (.dataFrame e) s = .next t ∧ (t.epS e).nak = true ∧ (t.epS e).inq = (s.epS e).inq ∧ (t.epS e).asm_ = (s.epS e).asm_
      ∧ (t.epS e).rxSeq = (s.epS e).rxSeq ∧ (t.epS e).rxFr = (s.epS e).rxFr.drop 1 ∧ t.mem = s.mem ∧ t.net = s.net := by
  have heff := effDataFrame_sequenced (w := s.w0) hf hgood htype
  rw [State.w0_toState, if_neg hseq] at heff
  have hrx := s.w0.frameIn_receiver e f.bytes
  have hbare := s.w0.frameIn_bareL e f.bytes
  generalize s.w0.frameIn e f.bytes = v at heff hrx hbare
  simp only [Ep.receiver, Prod.mk.injEq] at hrx
  obtain ⟨hfr, hrxSeq, hasm, hinq, -⟩ := hrx
  refine ⟨_, run_const hr heff, ?_, ?_, ?_, ?_, ?_, State.after_const_of_bareL ((v.epMod_bareL ..).trans hbare)⟩
  · rw [State.after_epS, W.epMod_epS]
  · rw [State.after_epS, W.epMod_epS]; exact hinq
  · rw [State.after_epS, W.epMod_epS]; exact hasm
  · rw [State.after_epS, W.epMod_epS]; exact hrxSeq
  · rw [State.after_epS, W.epMod_epS]; exact hfr

/-! ### Fragments (R323, R325) -/

theorem W.acceptFrame_last {w : W} {e vc n : Nat} {f old : List Byte} (hvc : vc = bits (le f 1 1) 0 4) (heof : bit (le f 0 1) 5 = true)
    (hold : bit (le f 0 1) 4 = true ∧ old = [] ∧ n = 0 ∨ bit (le f 0 1) 4 = false ∧ (w.epS e).asm_.find vc = some (old, n)) :
    let p := (w.acceptFrame e f).epS e
    p.inq = (w.epS e).inq ++ [(vc, n + 1, old ++ (f.drop 16).take (le f 2 1))] ∧ p.rxSeq = bits (le f 4 2) 0 12 ∧ p.rxValid = true
      ∧ p.asm_ = (w.epS e).asm_.del vc := by
  subst hvc
  rw [W.acceptFrame, W.epMod_epS]
  rcases hold with ⟨hsof, rfl, rfl⟩ | ⟨hsof, hasm⟩
  · simp only [hsof, heof, Bool.not_true, Bool.false_eq_true, false_and, if_false, if_true]
    simp
  · have hget : Tbl.get ([], 0) (w.epS e).asm_ (bits (le f 1 1) 0 4) = (old, n) := by rw [Tbl.get, hasm]; rfl
    simp [hsof, heof, hasm, hget]

theorem W.acceptFrame_first {w : W} {e vc : Nat} {f : List Byte} (hvc : vc = bits (le f 1 1) 0 4) (heof : bit (le f 0 1) 5 = false)
    (hsof : bit (le f 0 1) 4 = true) (hroom : (w.epS e).heldFrames vc < 31) (hasm : (w.epS e).asm_.find vc = none) :
    (w.acceptFrame e f).epS e = { w.epS e with
      rxSeq := bits (le f 4 2) 0 12, rxValid := true, owed := Tbl.set 0 (w.epS e).owed vc (Tbl.get 0 (w.epS e).owed vc)
      asm_ := (w.epS e).asm_.put vc ((f.drop 16).take (le f 2 1), 1) } := by
  subst hvc
  have hget : Tbl.get ([], 0) (w.epS e).asm_ (bits (le f 1 1) 0 4) = ([], 0) := by rw [Tbl.get, hasm]; rfl
  have hfits : ¬ 32 ≤ (w.epS e).heldFrames (bits (le f 1 1) 0 4) + 1 := by omega
  rw [W.acceptFrame, W.epMod_epS]
  simp [hsof, heof, hget, hfits]

/-! ### Circuit frames (R346) -/

/-- A cell enters the circuit buffer, where there is room. -/
def W.circCell (w : W) (e : Nat) (c : Cell) : W :=
  if (w.epS e).rxq.length < 1024 then w.epMod e (fun p => { p with rxq := p.rxq ++ [c] }) else w.inc (epB e) KEDG_CW_EVT2.cw_overrun

theorem W.each_circCell {α : Type} (e : Nat) (cell : α → Cell) (l : List α) (w : W) (h : (w.epS e).rxq.length + l.length ≤ 1024) :
    (w.each l (fun w i => w.circCell e (cell i))).epS e = { w.epS e with rxq := (w.epS e).rxq ++ l.map cell }
      ∧ (w.each l (fun w i => w.circCell e (cell i))).bareL = w.bareL := by
  induction l generalizing w with
  | nil => exact ⟨by simp [W.each_nil], rfl⟩
  | cons a l ih =>
    have hroom : (w.epS e).rxq.length < 1024 := by simp only [List.length_cons] at h; omega
    have hcell : w.circCell e (cell a) = w.epMod e (fun p => { p with rxq := p.rxq ++ [cell a] }) := if_pos hroom
    obtain ⟨hep, hbare⟩ := ih (w.circCell e (cell a)) (by
      rw [hcell, W.epMod_epS]
      simp only [List.length_append, List.length_cons, List.length_nil] at h ⊢
      omega)
    rw [W.each_cons, hep, hbare, hcell, W.epMod_epS]
    exact ⟨by simp, W.epMod_bareL ..⟩

section
variable {w : W} {e : Nat} {x : RxFrame} (hx : w.nextFrame e (fun f => f.good && f.type == 4) = some x)
include hx

theorem effCircFrame_closed (h : (w.epS e).cwBad = true ∨ (w.epS e).cwPhase ≠ 2) : effCircFrame e w = w.frameIn e x.bytes := by
  have hrx := w.frameIn_receiver e x.bytes
  simp only [Ep.receiver, Prod.mk.injEq] at hrx
  obtain ⟨-, -, -, -, hphase, hbad, -⟩ := hrx
  unfold effCircFrame
  rw [hx]
  dsimp only
  rw [← W.frameIn, if_pos (by rw [hphase, hbad]; exact h)]

theorem effCircFrame_open (hbad : (w.epS e).cwBad = false) (hphase : (w.epS e).cwPhase = 2) : let v := w.frameIn e x.bytes
    let u := v.each (List.range (min 3 (le x.bytes 2 1 / 76))) (fun w i => w.circCell e (cellOf ((x.bytes.drop (16 + 76 * i)).take 76)))
    effCircFrame e w = u.wr (epB e) KEDG_CW_STAT.cw_rxq (u.epS e).rxq.length := by
  have hrx := w.frameIn_receiver e x.bytes
  simp only [Ep.receiver, Prod.mk.injEq] at hrx
  obtain ⟨-, -, -, -, hphase', hbad', -⟩ := hrx
  unfold effCircFrame
  rw [hx]
  dsimp only
  rw [← W.frameIn, if_neg (by rw [hphase', hbad']; simp [hbad, hphase])]
  rfl

end

theorem circFrame_fills {s : State} {e : Nat} {x : RxFrame} (hr : s.inReset = false)
    (hx : s.nextFrame e (fun f => f.good && f.type == 4) = some x) (hbad : (s.epS e).cwBad = false) (hphase : (s.epS e).cwPhase = 2)
    (hroom : (s.epS e).rxq.length + min 3 (le x.bytes 2 1 / 76) ≤ 1024) : ∃ t, exec (.circFrame e) s = .next t
      ∧ (t.epS e).rxq = (s.epS e).rxq ++ (List.range (min 3 (le x.bytes 2 1 / 76))).map (fun i => cellOf ((x.bytes.drop (16 + 76 * i)).take 76))
      ∧ (t.epS e).rxFr = (s.epS e).rxFr.drop 1 ∧ t.mem = s.mem ∧ t.net = s.net := by
  have heff := effCircFrame_open (w := s.w0) hx hbad hphase
  have hrx := s.w0.frameIn_receiver e x.bytes
  have hbare := s.w0.frameIn_bareL e x.bytes
  dsimp only at heff
  generalize s.w0.frameIn e x.bytes = v at heff hrx hbare
  simp only [Ep.receiver, Prod.mk.injEq] at hrx
  obtain ⟨hfr, -, -, -, -, -, hrxq⟩ := hrx
  obtain ⟨hep, hbare'⟩ := v.each_circCell e (fun i => cellOf ((x.bytes.drop (16 + 76 * i)).take 76)) (List.range (min 3 (le x.bytes 2 1 / 76)))
    (by rw [hrxq, List.length_range]; exact hroom)
  generalize v.each (List.range (min 3 (le x.bytes 2 1 / 76))) _ = u at heff hep hbare'
  refine ⟨_, run_const hr heff, ?_, ?_, State.after_const_of_bareL ((W.bareL_of (W.wr_bare ..)).trans (hbare'.trans hbare))⟩
  · rw [State.after_epS, State.epS_congr (W.wr_ep ..), hep, hrxq]
    rfl
  · rw [State.after_epS, State.epS_congr (W.wr_ep ..), hep]
    exact hfr

/-- Settles O44, a clause for each source of a frame and each kind of frame received. -/
theorem framesAct : Obligations.FramesAct := by
  refine ⟨?_, ?_, ?_, ?_, ?_, ?_, ?_, ?_, ?_, ?_, ?_, ?_, ?_, ?_, ?_, ?_, ?_, ?_⟩
  · intro s e hr h
    exact run_same hr (effFrameBoundary_off (w := s.w0) h)
  · intro s e hr hoe htx hfault
    exact run_eq hr (effFrameBoundary_fault (w := s.w0) hoe htx hfault)
  · rintro s e _ _ _ hr hoe htx hfault rfl htime rfl rfl
    exact run_eq hr (effFrameBoundary_time (w := s.w0) hoe htx hfault htime)
  · intro s e c hr hoe htx hfault hhold htime hphase hcw hopen hclose htxq hstate hfree
    exact run_eq hr (effFrameBoundary_circuit (w := s.w0) hoe htx hfault htime hhold hphase hcw hopen hclose htxq hstate hfree)
  · intro s e f rest hr hoe htx htime hseq hres
    obtain ⟨hfault, hhold, hphase⟩ := State.seqOk_clear hseq
    exact run_eq hr (effFrameBoundary_resend (w := s.w0) hoe htx hfault htime hhold hphase hseq hres)
  · rintro s e _ hr hoe htx htime hseq hres rfl
    obtain ⟨hfault, hhold, hphase⟩ := State.seqOk_clear hseq
    exact ⟨fun vc hvc => run_eq hr (effFrameBoundary_hp (w := s.w0) hoe htx hfault htime hhold hphase hseq hres hvc),
      fun hvc hack => run_eq hr (effFrameBoundary_ack (w := s.w0) hoe htx hfault htime hhold hphase hseq hres hvc hack)⟩
  · rintro s e vc o l _ ho rfl
    have h := W.sendFrag_sender (w := s.w0) ho
    simp only [Ep.sender, Prod.mk.injEq] at h
    obtain ⟨hseq, hreplay, hcred⟩ := h
    refine ⟨hseq, hreplay, ?_⟩
    rw [State.after_epS, hcred, Tbl.get_set_self]
    rfl
  · intro s e hr hf
    refine run_same hr ?_
    unfold effDataFrame
    rw [State.w0_toState, hf]
  · intro s e f hr hf h
    exact run_eq hr (effDataFrame_bad (w := s.w0) hf h)
  · intro s e f hr hf hgood htype
    exact run_eq hr (effDataFrame_idle (w := s.w0) hf hgood htype)
  · intro s e f hr hf hgood htype hseq
    exact run_eq hr ((effDataFrame_sequenced (w := s.w0) hf hgood htype).trans (if_pos hseq))
  · intro s e f hr hf hgood htype hseq
    exact dataFrame_discards hr hf hgood htype hseq
  · intro s e f vc old n hvc heof hold
    exact W.acceptFrame_last (w := s.w0) hvc heof hold
  · intro s e f vc hvc heof hsof hroom hasm
    exact W.acceptFrame_first (w := s.w0) hvc heof hsof hroom hasm
  · intro s e f hnak
    rw [State.after_epS, W.takeControl_epS, Ep.controlled_of_no_nak _ hnak]
    exact ⟨Ep.heard_replay .., Ep.heard_cred ..⟩
  · intro s e f hnak hack hrep
    have hheard : ((s.epS e).heard f).replay = (s.epS e).replay := by rw [Ep.heard_replay, hack]; rfl
    rw [State.after_epS, W.takeControl_epS, State.w0_toState, Ep.controlled_of_nak hnak (by rw [hheard]; exact hrep), ← hheard]
  · intro s e x hr hx hbad hphase hroom
    exact circFrame_fills hr hx hbad hphase hroom
  · intro s e x hr hx h
    exact run_eq hr (effCircFrame_closed (w := s.w0) hx h)

end Sys2Proof.Machine
end

section
/-! PROOFS. Edge packets: sending across, and what arrives (R331 to R334, R336, R339, R341, R343). -/

namespace Sys2Proof.Machine

/-! ### Sending across (R331 to R333, R343) -/

section
variable {w v : W} {e : Nat} {p : Packet} {rest : List Packet} (hwait : w.edgeWaiting e = p :: rest)
  (ht : w.takeVc (uEp e) p.vc (fun q => q == p) = some (p, v))
include hwait ht

theorem effEdgePacketSend_goes {u : W} (hgo : w.edgeGo v e p = some u) : effEdgePacketSend e w = u := by
  rw [effEdgePacketSend, hwait, W.edgeTry, if_neg (by simp), ht]
  dsimp only
  rw [hgo]

end

/-- Packets of the peers that already wait stay where they are. -/
theorem W.edgeTry_behind {w : W} {e peer : Nat} (l : List Packet) (h : ∀ q ∈ l, crossOp q.op = true ∧ (w.crossDst q).1 = peer) :
    w.edgeTry e l [peer] [] = w := by
  induction l with
  | nil => rfl
  | cons q l ih =>
    obtain ⟨hop, hdst⟩ := h q List.mem_cons_self
    rw [W.edgeTry, if_pos (by simp [hop, hdst])]
    exact ih (fun x hx => h x (List.mem_cons_of_mem _ hx))

theorem effEdgePacketSend_waits {w v : W} {e : Nat} {p : Packet} {rest : List Packet} (hwait : w.edgeWaiting e = p :: rest)
    (ht : w.takeVc (uEp e) p.vc (fun q => q == p) = some (p, v)) (hgo : w.edgeGo v e p = none) (haside : w.setAside e p = false)
    (hrest : ∀ q ∈ rest, crossOp q.op = true ∧ (w.crossDst q).1 = (w.crossDst p).1) : effEdgePacketSend e w = w := by
  rw [effEdgePacketSend, hwait, W.edgeTry, if_neg (by simp), ht]
  dsimp only
  rw [hgo]
  dsimp only
  rw [if_neg (by simp [haside])]
  exact W.edgeTry_behind rest hrest

theorem W.edgeGo_refused {w v : W} {e : Nat} {p : Packet} (hop : crossOp p.op = false) : w.edgeGo v e p = some (v.cmp (uEp e) p BADOP) := by
  rw [W.edgeGo, if_pos (by simp [hop])]

theorem W.edgeGo_aside {w v : W} {e : Nat} {p : Packet} (hop : crossOp p.op = true) (haside : w.setAside e p = true)
    (hroom : (w.epS e).shaped.foldl (fun n x => n + x.size) 0 + p.size ≤ 256 * 1024) : w.edgeGo v e p =
      some ((v.inc (epB e) KEDG_RATE_CNT.shp_held 1 ((w.rateEnt e p.ctx false).getD 0)).epMod e (fun x => { x with shaped := x.shaped ++ [p] })) := by
  rw [W.edgeGo, if_neg (by simp [hop]), if_pos haside, if_pos hroom]

theorem W.edgeGo_crosses {w v : W} {e : Nat} {p : Packet} (hop : crossOp p.op = true) (haside : w.setAside e p = false) : w.edgeGo v e p =
    (if shapedVc p.vc then v.takeTokens e p false else v).sendNew e (w.crossDst p).1 (w.crossDst p).2.1 (w.crossDst p).2.2 := by
  rw [W.edgeGo, if_neg (by simp [hop]), if_neg (by simp [haside])]

/-! ### Tokens and packets are no part of the checks at arrival -/

/-- A state without its edge ports. -/
def W.noEp (w : W) : W := { w with ep := [] }

theorem W.epMod_noEp (w : W) (e : Nat) (f : Ep → Ep) : (w.epMod e f).noEp = w.noEp := rfl

theorem W.takeTokens_noEp (w : W) (e : Nat) (p : Packet) (pol : Bool) : (w.takeTokens e p pol).noEp = w.noEp := by
  unfold W.takeTokens
  split
  · rfl
  · exact W.epMod_noEp ..

def Ep.withBucket (b : Tbl (Nat × Nat)) (p : Ep) : Ep := { p with bucket := b }

/-- Tokens change the buckets alone. -/
theorem W.takeTokens_epS (w : W) (e : Nat) (p : Packet) (pol : Bool) : ∃ b, (w.takeTokens e p pol).epS e = (w.epS e).withBucket b := by
  unfold W.takeTokens
  split
  · exact ⟨_, rfl⟩
  · exact ⟨_, W.epMod_epS ..⟩

theorem W.takeTokens_none {w : W} {e : Nat} {p : Packet} {pol : Bool} (h : w.rateEnt e p.ctx pol = none) : w.takeTokens e p pol = w := by
  rw [W.takeTokens, h]

theorem State.rateOk_none {s : State} {e : Nat} {p : Packet} {pol : Bool} (h : s.rateEnt e p.ctx pol = none) : s.rateOk e p pol = true := by
  rw [State.rateOk, h]

theorem State.rateOk_congr {v w : W} {e : Nat} (h : v.noEp = w.noEp) (hb : (v.epS e).bucket = (w.epS e).bucket) (p : Packet) (pol : Bool) :
    v.rateOk e p pol = w.rateOk e p pol := by
  have hregs : v.regs = w.regs := by have x := congrArg (fun x : W => x.regs) h; exact x
  have hfc : v.fc = w.fc := by have x := congrArg (fun x : W => x.fc) h; exact x
  unfold State.rateOk State.rateEnt State.tokens State.rd
  rw [hregs, hfc, hb]

theorem W.crossBad_of_noEp {v w : W} (h : v.noEp = w.noEp) (x : EHdr) (p : Packet) : v.crossBad x p = w.crossBad x p := by
  have e := congrArg (fun y : W => y.crossBad x p) h
  exact e

theorem W.pkgFenced_of_noEp {v w : W} (h : v.noEp = w.noEp) (u ctx : Nat) : v.pkgFenced u ctx = w.pkgFenced u ctx := by
  have e := congrArg (fun y : W => y.pkgFenced u ctx) h
  exact e

/-! ### What becomes of a packet in its turn (R334, R341, R343) -/

section
variable {w : W} {e peer : Nat} {c : Conn} {h : EHdr} {p : Packet}

theorem W.crossIn_untrusted (hvc : 10 ≤ p.vc) : w.crossIn e peer c h p = some (w.fault clARB (locEp e)) := if_pos hvc

variable (hvc : p.vc < 10)
include hvc

theorem W.crossIn_policed (hrate : w.rateOk e p true = false) : w.crossIn e peer c h p = some
    (let v := ((w.inc (epB e) KEDG_RATE_CNT.pol_drop 1 ((w.rateEnt e p.ctx true).getD 0)).ev (uEp e) 0x64 1 p.ctx).traceEp e 5 p.ctx peer h.psn
     if wantsAns p ∨ p.op = 0x20 then v.cmpAcross e peer p DROPPED else v) := by
  rw [W.crossIn, if_neg (by omega), if_pos (by simp [hrate])]

variable (hrate : w.rateOk e p true = true)
include hrate

theorem W.crossIn_bad (hbad : w.crossBad h p = true) : w.crossIn e peer c h p = some
    (if crossTold h p then (w.takeTokens e p true).cmpAcross e peer p BADOP else w.takeTokens e p true) := by
  rw [W.crossIn, if_neg (by omega), if_neg (by simp [hrate])]
  dsimp only
  rw [if_pos ((W.crossBad_of_noEp (w.takeTokens_noEp ..) ..).trans hbad)]

variable (hbad : w.crossBad h p = false)
include hbad

theorem W.crossIn_fenced (hfence : w.pkgFenced (uEp e) p.ctx = true) (hprox : proxied p.op = true) (hreply : crossReply h p = false) :
    w.crossIn e peer c h p = some ((w.takeTokens e p true).cmpAcross e peer p FENCED) := by
  rw [W.crossIn, if_neg (by omega), if_neg (by simp [hrate])]
  dsimp only
  rw [W.crossBad_of_noEp (w.takeTokens_noEp ..), W.pkgFenced_of_noEp (w.takeTokens_noEp ..), if_neg (by simp [hbad]),
    if_pos (by simp [hfence, hprox, hreply])]

/-- A message whose predecessor has not been delivered, and that takes no proxy, is held. -/
theorem W.crossIn_holds (hprox : proxied p.op = false) (hop : p.op = 0x22) (hcpv : h.cpv = true) (hpred : c.delivered h.cpred = false)
    (hroom : ((w.takeTokens e p true).epS e).reordLines + (p.size + 63) / 64 ≤ 4096) : w.crossIn e peer c h p = some
      (let v := (w.takeTokens e p true).epMod e (fun x => { x with conns := x.conns.modify peer (fun c => { c with
          held := c.held ++ [{ psn := h.psn, cpred := h.cpred, pkt := p, sep := h.sep, proxy := none }] }) })
       v.wr (epB e) KEDG_REORD.reord_lines (v.epS e).reordLines) := by
  rw [W.crossIn, if_neg (by omega), if_neg (by simp [hrate])]
  dsimp only
  rw [W.crossBad_of_noEp (w.takeTokens_noEp ..), if_neg (by simp [hbad]), if_neg (by simp [hprox]),
    if_neg (by simp [Nat.not_lt.mpr hroom]), if_neg (by simp [hprox])]
  dsimp only
  rw [if_pos (by simp [hop, hcpv, hpred])]

variable (hfence : w.pkgFenced (uEp e) p.ctx = false) (hprox : proxied p.op = true) (hreply : crossReply h p = false)
include hfence hprox hreply

/-- Where no proxy is free, a packet that takes one is dropped. -/
theorem W.crossIn_dropped (hfree : (w.epS e).proxies.free 16384 = none) : w.crossIn e peer c h p = none := by
  obtain ⟨b, hep⟩ := w.takeTokens_epS e p true
  have hnone : (w.takeTokens e p true).takeProxy e h p = none := by
    unfold W.takeProxy
    rw [hep, Ep.withBucket, hfree]
  rw [W.crossIn, if_neg (by omega), if_neg (by simp [hrate])]
  dsimp only
  rw [W.crossBad_of_noEp (w.takeTokens_noEp ..), W.pkgFenced_of_noEp (w.takeTokens_noEp ..), if_neg (by simp [hbad]),
    if_neg (by simp [hfence]), hnone]
  simp only [hprox, hreply, Bool.not_false, and_self, if_true, Option.map_none, ite_self]

end

end Sys2Proof.Machine
end

section
/-! PROOFS. Arrivals in a connection (R333, R334, R339) and the proxies of what crosses (R334, R335). -/

namespace Sys2Proof.Machine

/-! ### A packet taken from the receive buffer -/

/-- A packet leaves the receive buffer, and its frames are owed as credits. -/
def Ep.took (x : Nat × Nat × List Byte) (p : Ep) : Ep :=
  { p with inq := p.inq.erase x, owed := Tbl.set 0 p.owed x.1 (Tbl.get 0 p.owed x.1 + x.2.1) }

/-- A packet of a connection has come: the time of its last arrival, and of its last use. -/
def Ep.arrived (peer fc : Nat) (p : Ep) : Ep :=
  { p with conns := p.conns.modify peer (fun c => { c with lastArr := fc, used := fc }) }

theorem W.takeEdge_epS (w : W) (e : Nat) (x : Nat × Nat × List Byte) : (w.takeEdge e x).epS e = (w.epS e).took x := W.epMod_epS ..

theorem Tbl.find_modify_self {α : Type} {t : Tbl α} {k : Nat} {v : α} (f : α → α) (h : t.find k = some v) :
    (t.modify k f).find k = some (f v) := by
  rw [Tbl.modify, h]
  exact Tbl.find_put_self ..

/-! ### The rules of R339 -/

section
variable {w : W} {e : Nat} {x : Nat × Nat × List Byte} {h : EHdr} (hx : (w.epS e).inq.find? (fun x => decide (x.1 < 10)) = some x)
  (hh : h = ehdrOf x.2.2)
include hx hh

theorem effEdgePacketReceive_unknown (hc : (w.epS e).conns.find h.spkg = none) (hsyn : h.syn = false) :
    effEdgePacketReceive e w = (w.takeEdge e x).sendAck e h.spkg h.sep h.inc true 0 [] := by
  subst hh
  have hnone : (((w.takeEdge e x).epS e).conns.find (ehdrOf x.2.2).spkg).filter (fun c => c.recv) = none := by
    rw [W.takeEdge_epS, Ep.took, hc]
    rfl
  unfold effEdgePacketReceive
  rw [hx]
  dsimp only
  rw [hnone, if_pos (by simp [hsyn])]

variable {c : Conn} (hc : (w.epS e).conns.find h.spkg = some c) (hrecv : c.recv = true)
include hc hrecv

/-- In a connection whose receive half is open, and that the packet does not open anew, the rules of R339 apply in their order. -/
theorem effEdgePacketReceive_known (hold : c.rinc = h.inc ∨ h.syn = false) : effEdgePacketReceive e w =
    let p := crossRead (pktOf (x.2.2.drop 24))
    let v := (w.takeEdge e x).epMod e (Ep.arrived h.spkg w.fc)
    if !h.syn ∧ c.rinc ≠ h.inc then v.inc (epB e) KEDG_XEVT3.rx_stale
    else if notEarlier c.cum h.psn 24 ∨ c.got.contains h.psn then (v.inc (epB e) KEDG_XEVT2.rx_dup).ackNow e h.spkg
    else if 2 ^ 22 < (h.psn + 2 ^ 24 - c.cum) % 2 ^ 24 ∨ 4 < (Conn.ranges { c with got := h.psn :: c.got }).length
        then v.inc (epB e) KEDG_XEVT2.rx_window
    else
      let gap := h.psn ≠ (c.cum + 1) % 2 ^ 24 ∧ c.got = []
      match v.crossIn e h.spkg c h p with
      | none => v.inc (epB e) KEDG_REORD.reord_drop
      | some w =>
        let w := w.epMod e (fun x => { x with conns := x.conns.modify h.spkg (fun c =>
          Conn.advance 4096 { c with got := h.psn :: c.got, ackDue := true }) })
        if gap then w.ackNow e h.spkg else w := by
  subst hh
  have hfind : ((w.takeEdge e x).epS e).conns.find (ehdrOf x.2.2).spkg = some c := by
    rw [W.takeEdge_epS, Ep.took, hc]
  have hopen : (((w.takeEdge e x).epS e).conns.find (ehdrOf x.2.2).spkg).filter (fun c => c.recv) = some c := by
    rw [hfind]
    simp [hrecv]
  have hfresh : ((ehdrOf x.2.2).syn && (c.rinc != (ehdrOf x.2.2).inc)) = false := by
    rcases hold with h | h
    · simp [h]
    · simp [h]
  unfold effEdgePacketReceive
  rw [hx]
  dsimp only
  rw [hopen]
  dsimp only
  rw [hfresh, if_neg (by simp), if_neg (by decide)]
  dsimp only
  rw [hfind]
  rfl

theorem effEdgePacketReceive_stale (hinc : c.rinc ≠ h.inc) (hsyn : h.syn = false) : effEdgePacketReceive e w =
    ((w.takeEdge e x).epMod e (Ep.arrived h.spkg w.fc)).inc (epB e) KEDG_XEVT3.rx_stale :=
  (effEdgePacketReceive_known hx hh hc hrecv (.inr hsyn)).trans (if_pos (by simp [hsyn, hinc]))

variable (hinc : c.rinc = h.inc)
include hinc

theorem effEdgePacketReceive_dup (hdup : notEarlier c.cum h.psn 24 = true ∨ c.got.contains h.psn = true) : effEdgePacketReceive e w =
    (((w.takeEdge e x).epMod e (Ep.arrived h.spkg w.fc)).inc (epB e) KEDG_XEVT2.rx_dup).ackNow e h.spkg :=
  (effEdgePacketReceive_known hx hh hc hrecv (.inl hinc)).trans ((if_neg (by simp [hinc])).trans (if_pos hdup))

variable (hnew : notEarlier c.cum h.psn 24 = false) (hgot : c.got.contains h.psn = false)
include hnew hgot

theorem effEdgePacketReceive_outside
    (hout : 2 ^ 22 < (h.psn + 2 ^ 24 - c.cum) % 2 ^ 24 ∨ 4 < (Conn.ranges { c with got := h.psn :: c.got }).length) :
    effEdgePacketReceive e w = ((w.takeEdge e x).epMod e (Ep.arrived h.spkg w.fc)).inc (epB e) KEDG_XEVT2.rx_window :=
  (effEdgePacketReceive_known hx hh hc hrecv (.inl hinc)).trans
    ((if_neg (by simp [hinc])).trans ((if_neg (by rw [hnew, hgot]; decide)).trans (if_pos hout)))

end

/-! ### The next packet in order (R334, R339) -/

/-- The PSN that follows `cum` is new, within the window, and alone above `cum`. -/
theorem next_in_window {c : Conn} (hcum : c.cum < 2 ^ 24) (hgot : c.got = []) : notEarlier c.cum ((c.cum + 1) % 2 ^ 24) 24 = false
    ∧ ¬ (2 ^ 22 < ((c.cum + 1) % 2 ^ 24 + 2 ^ 24 - c.cum) % 2 ^ 24
      ∨ 4 < (Conn.ranges { c with got := (c.cum + 1) % 2 ^ 24 :: c.got }).length) := by
  refine ⟨?_, ?_⟩
  · unfold notEarlier
    rw [decide_eq_false_iff_not]
    omega
  · rintro (h | h)
    · omega
    · rw [hgot] at h
      simp [Conn.ranges, pairRuns] at h

theorem Conn.advance_nil (n : Nat) {c : Conn} (h : c.got = []) : Conn.advance n c = c := by
  cases n with
  | zero => rfl
  | succ n => rw [Conn.advance, if_neg (by simp [h])]

/-- With one PSN above `cum`, the next, and nothing held, `cum` advances over it (R339). -/
theorem Conn.advance_one {n : Nat} {c : Conn} (hn : n ≠ 0) (hgot : c.got = [(c.cum + 1) % 2 ^ 24]) (hheld : c.held = []) :
    Conn.advance n c = { c with cum := (c.cum + 1) % 2 ^ 24, got := [] } := by
  obtain ⟨n, rfl⟩ := Nat.exists_eq_succ_of_ne_zero hn
  rw [Conn.advance, if_pos (by simp [hgot, hheld]), Conn.advance_nil _ (by simp [hgot]), hgot]
  simp

/-! ### Proxies (R334, R335) -/

theorem W.deliverIn_ep (w : W) (e : Nat) (h : EHdr) (p : Packet) (t : Option Nat) : (w.deliverIn e h p t).ep = w.ep := by
  unfold W.deliverIn
  dsimp only
  split
  · rfl
  · split
    · rfl
    · rfl

/-- The entry that a packet from another package takes. -/
def proxyOf (h : EHdr) (p : Packet) (fc : Nat) : Proxy :=
  { spkg := h.spkg, sep := h.sep, src := p.src, tag := p.tag, ack := p.ack, op := p.op, ctx := p.ctx, fc := fc,
    lines := if p.op = 0x20 then msgLines (p.len - 16) else 0 }

def Ep.putProxy (i : Nat) (q : Proxy) (p : Ep) : Ep := { p with proxies := p.proxies.put i q }

theorem W.takeProxy_takes {w : W} {e i : Nat} (h : EHdr) (p : Packet) (hfree : (w.epS e).proxies.free 16384 = some i) :
    ∃ t v, w.takeProxy e h p = some (t, v) ∧ v.epS e = (w.epS e).putProxy i (proxyOf h p w.fc) := by
  unfold W.takeProxy
  rw [hfree]
  exact ⟨_, _, rfl, (State.epS_congr (W.wr_ep ..) e).trans (W.epMod_epS ..)⟩

theorem W.fc_of_noEp {v w : W} (h : v.noEp = w.noEp) : v.fc = w.fc := by have e := congrArg (fun x : W => x.fc) h; exact e

theorem W.takeTokens_fc (w : W) (e : Nat) (p : Packet) (pol : Bool) : (w.takeTokens e p pol).fc = w.fc := W.fc_of_noEp (w.takeTokens_noEp ..)

/-- A packet in its turn that takes a proxy is delivered with it. -/
theorem W.crossIn_proxied {w : W} {e peer i : Nat} {c : Conn} {h : EHdr} {p : Packet} (hvc : p.vc < 10) (hrate : w.rateOk e p true = true)
    (hbad : w.crossBad h p = false) (hfence : w.pkgFenced (uEp e) p.ctx = false) (hcpv : h.cpv = false) (hprox : proxied p.op = true)
    (hreply : crossReply h p = false) (hfree : (w.epS e).proxies.free 16384 = some i) :
    ∃ v b, w.crossIn e peer c h p = some v ∧ v.epS e = ((w.epS e).withBucket b).putProxy i (proxyOf h p w.fc) := by
  obtain ⟨b, hep⟩ := w.takeTokens_epS e p true
  obtain ⟨t, v, htake, hv⟩ := W.takeProxy_takes (w := w.takeTokens e p true) h p (by rw [hep]; exact hfree)
  rw [hep, W.takeTokens_fc] at hv
  refine ⟨v.deliverIn e h p (some t), b, ?_, (State.epS_congr (W.deliverIn_ep ..) e).trans hv⟩
  rw [W.crossIn, if_neg (by omega), if_neg (by simp [hrate])]
  dsimp only
  rw [W.crossBad_of_noEp (w.takeTokens_noEp ..), W.pkgFenced_of_noEp (w.takeTokens_noEp ..), if_neg (by simp [hbad]),
    if_neg (by simp [hfence]), if_neg (by simp [hcpv]), htake]
  simp [hprox, hreply, hcpv]

theorem edgePacketReceive_proxies {s : State} {e i : Nat} {x : Nat × Nat × List Byte} {h : EHdr} {p : Packet} {c : Conn} (hr : s.inReset = false)
    (hx : (s.epS e).inq.find? (fun x => decide (x.1 < 10)) = some x) (hh : h = ehdrOf x.2.2) (hp : p = crossRead (pktOf (x.2.2.drop 24)))
    (hc : (s.epS e).conns.find h.spkg = some c) (hrecv : c.recv = true) (hinc : c.rinc = h.inc) (hpsn : h.psn = (c.cum + 1) % 2 ^ 24)
    (hcum : c.cum < 2 ^ 24) (hgot : c.got = []) (hheld : c.held = []) (hvc : p.vc < 10) (hrate : s.rateOk e p true = true)
    (hbad : s.crossBad h p = false) (hfence : s.pkgFenced (uEp e) p.ctx = false) (hcpv : h.cpv = false) (hprox : proxied p.op = true)
    (hreply : crossReply h p = false) (hfree : (s.epS e).proxies.free 16384 = some i) :
    ∃ t d, exec (.edgePacketReceive e) s = .next t ∧ (t.epS e).proxies.find i = some (proxyOf h p s.fc) ∧ (t.epS e).conns.find h.spkg = some d
      ∧ d.cum = h.psn ∧ d.got = [] ∧ d.ackDue = true ∧ d.outst = c.outst ∧ (t.epS e).inq = (s.epS e).inq.erase x := by
  obtain ⟨hnew, hin⟩ := next_in_window hcum hgot
  have heff := effEdgePacketReceive_known (w := s.w0) hx hh hc hrecv (.inl hinc)
  rw [← hp] at heff
  have hv : ((s.w0.takeEdge e x).epMod e (Ep.arrived h.spkg s.fc)).epS e = ((s.epS e).took x).arrived h.spkg s.fc := by
    rw [W.epMod_epS, W.takeEdge_epS, State.w0_toState]
  have hnoEp : ((s.w0.takeEdge e x).epMod e (Ep.arrived h.spkg s.fc)).noEp = s.w0.noEp := by
    rw [W.epMod_noEp, W.takeEdge, W.epMod_noEp]
  have hfc := W.fc_of_noEp hnoEp
  dsimp only at heff
  rw [State.w0_toState] at heff
  generalize (s.w0.takeEdge e x).epMod e (Ep.arrived h.spkg s.fc) = v at heff hv hnoEp hfc
  obtain ⟨u, b, hcross, hu⟩ := W.crossIn_proxied (w := v) (peer := h.spkg) (c := c) hvc
    ((State.rateOk_congr hnoEp (by rw [hv]; rfl) p true).trans hrate) ((W.crossBad_of_noEp hnoEp h p).trans hbad)
    ((W.pkgFenced_of_noEp hnoEp (uEp e) p.ctx).trans hfence) hcpv hprox hreply (by rw [hv]; exact hfree)
  rw [hcross, if_neg (by simp [hinc]), if_neg (by rw [hpsn, hnew, hgot]; simp), if_neg (by rw [hpsn]; exact hin)] at heff
  dsimp only at heff
  rw [if_neg (by simp [hpsn])] at heff
  rw [hv, hfc] at hu
  obtain ⟨d, hd, hdcum, hdgot, hdheld, hdout⟩ : ∃ d, (u.epS e).conns.find h.spkg = some d ∧ d.cum = c.cum ∧ d.got = c.got ∧ d.held = c.held
      ∧ d.outst = c.outst := by
    rw [hu]
    exact ⟨_, Tbl.find_modify_self _ hc, rfl, rfl, rfl, rfl⟩
  refine ⟨_, _, run_const hr heff, ?_, by rw [State.after_epS, W.epMod_epS]; exact Tbl.find_modify_self _ hd, ?_⟩
  · rw [State.after_epS, W.epMod_epS, hu]
    exact Tbl.find_put_self ..
  · rw [Conn.advance_one (c := { d with got := h.psn :: d.got, ackDue := true }) (by decide) (by rw [hpsn, hdcum, hdgot, hgot])
      (hdheld.trans hheld)]
    refine ⟨by rw [hdcum, hpsn], rfl, rfl, hdout, ?_⟩
    rw [State.after_epS, W.epMod_epS, hu]
    rfl

/-- An edge port without a proxy: its use count has risen. -/
def Ep.dropProxy (i : Nat) (p : Ep) : Ep :=
  { p with proxies := p.proxies.del i, useCnt := Tbl.set 0 p.useCnt i ((Tbl.get 0 p.useCnt i + 1) % 4) }

theorem W.freeProxy_epS (w : W) (e i : Nat) : (w.freeProxy e i).epS e = (w.epS e).dropProxy i := by
  unfold W.freeProxy
  dsimp only
  rw [State.epS_congr (W.wr_ep ..), W.epMod_epS]
  rfl

/-- The answer to a proxied packet as it goes back to the sender (R335). -/
def W.proxyBack (w : W) (e : Nat) (x : Proxy) (p : Packet) : Packet :=
  { p with tag := x.tag, src := w.epOf (uEp e), hops := 0, hopPtr := 0, hop := 0, gen := 0, ans := x.op }

section
variable {w v : W} {e : Nat} {p : Packet} (ht : w.takeAny (uEp e) (fun p => proxyAns p && !w.staleFirst p) = some (p, v))
include ht

theorem effProxyAnswer_refund (href : 2 ^ 19 ≤ p.ref) : effProxyAnswer e w = v.spnRefund e p := by
  unfold effProxyAnswer
  rw [ht]
  exact if_pos href

variable (href : p.ref < 2 ^ 19)
include href

theorem effProxyAnswer_none (hlive : v.proxyLive e p.tag = false) : effProxyAnswer e w = v.inc (epB e) KEDG_PROXY.proxy_expire := by
  unfold effProxyAnswer
  rw [ht]
  dsimp only
  rw [if_neg (Nat.not_le.mpr href), if_pos (by simp [hlive])]

variable (hlive : v.proxyLive e p.tag = true) {i : Nat} (hi : i = p.tag % 2 ^ 14) {x : Proxy} (hx : (v.epS e).proxies.find i = some x)
include hlive hi hx

/-- An answer frees its proxy; whether one goes back, and which, depends on the packet that took it. -/
theorem effProxyAnswer_frees : effProxyAnswer e w =
    let u := v.freeProxy e i
    let a := u.proxyBack e x p
    let ok := p.op ≠ 0x60 ∨ p.status = OK
    if x.ack then u.answerAcross e x.spkg x.src a
    else if x.op = 0x01 ∨ x.op = 0x0C then
      if ok then u.answerAcross e x.spkg x.src { a with op := 0x0E, vc := 3, aux := 1, status := 0, data := [], len := 0 }
      else u.answerAcross e x.spkg x.src a
    else if x.op = 0x20 then (if ok then u else u.answerAcross e x.spkg x.src a)
    else if x.op = 0x40 ∧ ok then u
    else u.answerAcross e x.spkg x.src a := by
  subst hi
  unfold effProxyAnswer
  rw [ht]
  dsimp only
  rw [if_neg (Nat.not_le.mpr href), if_neg (by simp [hlive]), hx]
  rfl

theorem effProxyAnswer_back (hback : x.ack = true ∨ (p.op = 0x60 ∧ p.status ≠ OK) ∨ ([0x01, 0x0C, 0x20, 0x40].contains x.op = false)) :
    effProxyAnswer e w = (v.freeProxy e i).answerAcross e x.spkg x.src ((v.freeProxy e i).proxyBack e x p) := by
  rw [effProxyAnswer_frees ht href hlive hi hx]
  dsimp only
  rcases hback with hack | ⟨hop, hst⟩ | hother
  · rw [if_pos hack]
  · simp only [hop, hst, ne_eq, not_true_eq_false, or_self, and_false, if_false, ite_self]
  · simp only [List.contains_cons, List.contains_nil, Bool.or_eq_false_iff, beq_eq_false_iff_ne] at hother
    obtain ⟨h1, hC, h20, h40, -⟩ := hother
    simp only [h1, hC, h20, h40, or_self, false_and, if_false, ite_self]

variable (hack : x.ack = false) (hst : p.status = OK)
include hack hst

/-- A sender of a posted write hears that it is done. -/
theorem effProxyAnswer_posted (hpost : x.op = 0x01 ∨ x.op = 0x0C) : effProxyAnswer e w = (v.freeProxy e i).answerAcross e x.spkg x.src
    { (v.freeProxy e i).proxyBack e x p with op := 0x0E, vc := 3, aux := 1, status := 0, data := [], len := 0 } := by
  rw [effProxyAnswer_frees ht href hlive hi hx]
  dsimp only
  rw [if_neg (by simp [hack]), if_pos hpost, if_pos (.inr hst)]

/-- A sender of a message or of a pool request hears nothing of an OK. -/
theorem effProxyAnswer_silent (hpost : x.op = 0x20 ∨ x.op = 0x40) : effProxyAnswer e w = v.freeProxy e i := by
  rw [effProxyAnswer_frees ht href hlive hi hx]
  dsimp only
  rw [if_neg (by simp [hack]), if_neg (by omega)]
  rcases hpost with h | h
  · rw [if_pos h, if_pos (.inr hst)]
  · rw [if_neg (by omega), if_pos ⟨h, .inr hst⟩]

end

theorem proxyExpiry_frees {s : State} {e i : Nat} {x : Proxy} (hr : s.inReset = false) (hx : (s.epS e).proxies.find i = some x)
    (hdue : x.fc + 2 ^ 22 ≤ s.fc) (hfault : s.edgeFault = false) (hans : s.answerWaits e (s.proxyTag e i) = false) :
    ∃ t, exec (.proxyExpiry e i) s = .next t ∧ t.epS e = (s.epS e).dropProxy i ∧ t.mem = s.mem := by
  have heff : effProxyExpiry e i s.w0 = (s.w0.freeProxy e i).inc (epB e) KEDG_PROXY.proxy_expire := by
    unfold effProxyExpiry
    rw [State.w0_toState, hx]
    exact if_pos ⟨hdue, by simp [hfault], by simp [hans]⟩
  refine ⟨_, run_const hr heff, ?_, State.after_mem_of_no_stores rfl⟩
  rw [State.after_epS, State.epS_congr (W.inc_ep ..), W.freeProxy_epS, State.w0_toState]

theorem effProxyExpiry_waits {w : W} {e i : Nat} (h : ∀ x, (w.epS e).proxies.find i = some x →
    w.fc < x.fc + 2 ^ 22 ∨ w.edgeFault = true ∨ w.answerWaits e (w.proxyTag e i) = true) : effProxyExpiry e i w = w := by
  unfold effProxyExpiry
  split
  · rfl
  · rename_i x hx
    refine if_neg ?_
    rintro ⟨hdue, hfault, hans⟩
    rcases h x hx with h | h | h
    · omega
    · simp [h] at hfault
    · simp [h] at hans

/-- Settles O45, a clause for each thing that a packet at the egress, an arrival and an answer to a proxied packet can do. -/
theorem edgePacketsAct : Obligations.EdgePacketsAct := by
  refine ⟨?_, ?_, ?_, ?_, ?_, ?_, ?_, ?_, ?_, ?_, ?_, ?_, ?_, ?_, ?_, ?_, ?_, ?_⟩
  · intro s e p rest w u hr hwait ht hop haside hnew
    exact run_const hr (effEdgePacketSend_goes (w := s.w0) hwait ht ((W.edgeGo_crosses (w := s.w0) hop haside).trans hnew))
  · intro s e p rest w hr hwait ht hop
    exact run_const hr (effEdgePacketSend_goes (w := s.w0) hwait ht (W.edgeGo_refused hop))
  · intro s e p rest w hr hwait ht hop haside hroom
    exact run_const hr (effEdgePacketSend_goes (w := s.w0) hwait ht (W.edgeGo_aside hop haside hroom))
  · intro s e p rest w hr hwait ht hgo haside hrest
    exact run_same hr (effEdgePacketSend_waits hwait ht hgo haside hrest)
  · intro s e x hr hx hc hsyn
    exact run_eq hr (effEdgePacketReceive_unknown (w := s.w0) hx rfl hc hsyn)
  · rintro s e x h p c i _ hr hx hh hp hc hrecv hinc hpsn hcum hgot hheld hvc hrate hbad hfence hcpv hprox hreply hfree rfl
    exact edgePacketReceive_proxies hr hx hh hp hc hrecv hinc hpsn hcum hgot hheld hvc hrate hbad hfence hcpv hprox hreply hfree
  · intro s e x h c hr hx hh hc hrecv hinc hdup
    exact run_eq hr (effEdgePacketReceive_dup (w := s.w0) hx hh hc hrecv hinc hdup)
  · intro s e x h c hr hx hh hc hrecv hinc hsyn
    exact run_eq hr (effEdgePacketReceive_stale (w := s.w0) hx hh hc hrecv hinc hsyn)
  · intro s e x h c hr hx hh hc hrecv hinc hnew hgot hout
    exact run_eq hr (effEdgePacketReceive_outside (w := s.w0) hx hh hc hrecv hinc hnew hgot hout)
  · intro s e peer c h p hvc
    exact ⟨fun hrate => W.crossIn_policed hvc hrate, fun hrate hbad => W.crossIn_bad hvc hrate hbad⟩
  · intro s e peer c h p hvc
    exact W.crossIn_untrusted hvc
  · intro s e peer c h p hvc hent hbad
    have hrate : s.w0.rateOk e p true = true := State.rateOk_none hent
    have htok : s.w0.takeTokens e p true = s.w0 := W.takeTokens_none hent
    refine ⟨fun hfence hprox hreply => ?_, fun hop hcpv hpred hroom => ?_, fun hprox hreply hfence hfree => ?_⟩
    · rw [W.crossIn_fenced hvc hrate hbad hfence hprox hreply, htok]
    · refine ⟨_, W.crossIn_holds hvc hrate hbad (by rw [hop]; decide) hop hcpv hpred (by rw [htok]; exact hroom), ?_⟩
      rw [htok, State.epS_congr (W.wr_ep ..), W.epMod_epS]
      rfl
    · exact W.crossIn_dropped hvc hrate hbad hfence hprox hreply hfree
  · intro s e p w i x hr ht href hlive hi hx hback
    exact run_const hr (effProxyAnswer_back (w := s.w0) ht href hlive hi hx hback)
  · intro s e p w i x hr ht href hlive hi hx hack hop hst
    exact ⟨fun h => run_const hr (effProxyAnswer_posted (w := s.w0) ht href hlive hi hx hack hst h),
      fun h => run_const hr (effProxyAnswer_silent (w := s.w0) ht href hlive hi hx hack hst h)⟩
  · intro s e p w hr ht href hlive
    exact run_const hr (effProxyAnswer_none (w := s.w0) ht href hlive)
  · intro s e p w hr ht href
    exact run_const hr (effProxyAnswer_refund (w := s.w0) ht href)
  · intro s e i x hr hx hdue hfault hans
    obtain ⟨t, hex, hep, hmem⟩ := proxyExpiry_frees hr hx hdue hfault hans
    exact ⟨t, hex, by rw [hep]; rfl, by rw [hep]; rfl, hmem⟩
  · intro s e i hr h
    exact run_same hr (effProxyExpiry_waits (w := s.w0) h)

end Sys2Proof.Machine
end

section
/-! PROOFS. Acknowledgement, retransmission and the spread over paths (R336 to R338, R340, R342, R343). -/

namespace Sys2Proof.Machine

/-! ### An ACK that arrives (R338, R340) -/

/-- A send half that an ACK has settled: its entry, and none of the copies of what is `done` that waited at the egress. -/
def Ep.settled (peer : Nat) (c : Conn) (done : List EPkt) (p : Ep) : Ep :=
  { p with
    conns := p.conns.put peer c
    eq := p.eq.filterMap (fun q =>
      let l := q.2.filter (fun o => !(o.vc < 10 && o.peer == peer && o.sent == 0 && done.any (fun d => d.hdr.psn == o.psn)))
      if l = [] then none else some (q.1, l)) }

/-- A connection entry that an ACK of `scum` has left with the packets `l`. -/
def Conn.ackedBy (scum fc : Nat) (l : List EPkt) (c : Conn) : Conn := { c with outst := l, acked := true, scum := scum, used := fc }

/-- A connection entry with the fields that an ACK's settling gives, whatever round trips were sampled. -/
def Ep.Settled (peer scum : Nat) (outst : List EPkt) (p : Ep) : Prop :=
  ∃ d, p.conns.find peer = some d ∧ d.outst = outst ∧ d.acked = true ∧ d.scum = scum

section
variable {w : W} {e : Nat} {x : Nat × Nat × List Byte} {h : EHdr} {r : List Byte}
  (hx : (w.epS e).inq.find? (fun x => x.1 == 10) = some x) (hh : h = ehdrOf x.2.2) (hr : r = x.2.2.drop 24)
include hx hh hr

/-- An ACK that is for no send half of its incarnation is taken alone. -/
theorem effAckPacket_foreign (hno : ∀ c, (w.epS e).conns.find h.spkg = some c → bits (le r 0 4) 0 17 ≠ w.pkgNum ∨ c.send = false
    ∨ bits (le r 0 4) 17 4 ≠ c.inc) : effAckPacket e w = w.takeEdge e x := by
  subst hh hr
  have hconns : ((w.takeEdge e x).epS e).conns = (w.epS e).conns := by rw [W.takeEdge_epS, Ep.took]
  have hpkg : (w.takeEdge e x).pkgNum = w.pkgNum := rfl
  unfold effAckPacket
  rw [hx]
  dsimp only
  rw [hconns]
  split
  · rfl
  · rename_i c hc
    refine if_pos ?_
    simpa [hpkg] using hno c hc

variable {c : Conn} (hc : (w.epS e).conns.find h.spkg = some c) (hnum : bits (le r 0 4) 0 17 = w.pkgNum) (hsend : c.send = true)
  (hinc : bits (le r 0 4) 17 4 = c.inc)
include hc hnum hsend hinc

theorem effAckPacket_rst (hrst : bit (le r 0 4) 21 = true) : effAckPacket e w = (w.takeEdge e x).closeSend e h.spkg ABORTED false := by
  subst hh hr
  have hfind : ((w.takeEdge e x).epS e).conns.find (ehdrOf x.2.2).spkg = some c := by rw [W.takeEdge_epS, Ep.took, hc]
  have hpkg : (w.takeEdge e x).pkgNum = w.pkgNum := rfl
  unfold effAckPacket
  rw [hx]
  dsimp only
  rw [hfind]
  dsimp only
  rw [if_neg (by simp [hpkg, hnum, hsend, hinc]), if_pos hrst]

variable (hrst : bit (le r 0 4) 21 = false)
include hrst

theorem effAckPacket_covers (hall : ∀ o ∈ c.outst, 0 < o.sends ∧ ackCovers r o.hdr.psn = true) : effAckPacket e w =
    ((w.takeEdge e x).epMod e (Ep.settled h.spkg (c.ackedBy (bits (le r 4 4) 0 24) w.fc [])
      c.outst)).each c.outst (fun w o => if o.sends = 1 ∧ !o.hdr.rtx then w.rttSample e h.spkg o.path (w.fc - o.lastFc) else w) := by
  subst hh hr
  have hfind : ((w.takeEdge e x).epS e).conns.find (ehdrOf x.2.2).spkg = some c := by rw [W.takeEdge_epS, Ep.took, hc]
  have hpkg : (w.takeEdge e x).pkgNum = w.pkgNum := rfl
  have hfc : (w.takeEdge e x).fc = w.fc := rfl
  have hdone : c.outst.filter (fun o => decide (0 < o.sends) && ackCovers (x.2.2.drop 24) o.hdr.psn) = c.outst :=
    List.filter_eq_self.2 (fun o ho => by simp [hall o ho])
  have hrest : c.outst.filter (fun o => !(decide (0 < o.sends) && ackCovers (x.2.2.drop 24) o.hdr.psn)) = [] :=
    List.filter_eq_nil_iff.2 (fun o ho => by simp [hall o ho])
  unfold effAckPacket
  rw [hx]
  dsimp only
  rw [hfind]
  dsimp only
  rw [if_neg (by simp [hpkg, hnum, hsend, hinc]), if_neg (by simp [hrst]), hdone, hrest]
  simp only [List.map_nil, List.filter_nil, W.each_nil]
  generalize w.takeEdge e x = v at hfc
  rw [hfc]
  rfl

theorem effAckPacket_passes (hnone : ∀ o ∈ c.outst, ackCovers r o.hdr.psn = false ∧ o.passed < 3) : effAckPacket e w =
    (w.takeEdge e x).epMod e (Ep.settled h.spkg (c.ackedBy (bits (le r 4 4) 0 24) w.fc c.outst) []) := by
  subst hh hr
  have hfind : ((w.takeEdge e x).epS e).conns.find (ehdrOf x.2.2).spkg = some c := by rw [W.takeEdge_epS, Ep.took, hc]
  have hpkg : (w.takeEdge e x).pkgNum = w.pkgNum := rfl
  have hdone : c.outst.filter (fun o => decide (0 < o.sends) && ackCovers (x.2.2.drop 24) o.hdr.psn) = [] :=
    List.filter_eq_nil_iff.2 (fun o ho => by simp [hnone o ho])
  have hrest : c.outst.filter (fun o => !(decide (0 < o.sends) && ackCovers (x.2.2.drop 24) o.hdr.psn)) = c.outst :=
    List.filter_eq_self.2 (fun o ho => by simp [hnone o ho])
  have hearly : ∀ p q r : EPkt → Bool, c.outst.filter (fun o => decide (3 ≤ o.passed) && p o && q o && r o) = [] :=
    fun p q r => List.filter_eq_nil_iff.2 (fun o ho => by simp [Nat.not_le.2 (hnone o ho).2])
  unfold effAckPacket
  rw [hx]
  dsimp only
  rw [hfind]
  dsimp only
  rw [if_neg (by simp [hpkg, hnum, hsend, hinc]), if_neg (by simp [hrst]), hdone, hrest]
  simp only [List.filter_nil, List.length_nil, Nat.add_zero, List.map_id', W.each_nil, hearly]
  rfl

end

/-! ### Round-trip samples (R337, R340) -/

/-- A connection entry after a round trip of `v`. -/
def Conn.sampled (v : Nat) (c : Conn) : Conn :=
  { c with rtt := match c.rtt with
    | none => some (v, v / 2)
    | some (s, d) => some ((7 * s + v) / 8, (3 * d + (if s < v then v - s else s - v)) / 4) }

/-- An edge port after a round trip of `v` to a peer over a path, whose smoothed time is then `sr`. -/
def Ep.sampled (peer path v sr : Nat) (p : Ep) : Ep :=
  { p with conns := p.conns.modify peer (Conn.sampled v), prtt := p.prtt.put path sr, pfail := p.pfail.del path }

/-- A sample changes the connection's entry, the path's, and registers. -/
theorem W.rttSample_bare (w : W) (e peer path v : Nat) : ∃ sr, (w.rttSample e peer path v).bare = (w.epMod e (Ep.sampled peer path v sr)).bare := by
  unfold W.rttSample
  dsimp only
  rw [W.each_bare _ _ _ (fun _ _ => W.wr_bare ..), W.wr_bare, W.wr_bare]
  exact ⟨_, rfl⟩

theorem Ep.Settled.sampled {p : Ep} {peer scum : Nat} {l : List EPkt} (h : p.Settled peer scum l) (path v sr : Nat) :
    (p.sampled peer path v sr).Settled peer scum l := by
  obtain ⟨d, hd, hout, hacked, hscum⟩ := h
  exact ⟨_, Tbl.find_modify_self _ hd, hout, hacked, hscum⟩

/-- Samples to a peer keep what an ACK settled, the packets that wait, and all that is no edge port or report. -/
theorem W.each_rttSample {w : W} {e peer scum : Nat} {l : List EPkt} (h : (w.epS e).Settled peer scum l) (done : List EPkt)
    (p : EPkt → Prop) [DecidablePred p] (v : W → EPkt → Nat) :
    let u := w.each done (fun w o => if p o then w.rttSample e peer o.path (v w o) else w)
    (u.epS e).Settled peer scum l ∧ (u.epS e).inq = (w.epS e).inq ∧ u.bareL = w.bareL := by
  refine W.each_inv (fun u => (u.epS e).Settled peer scum l ∧ (u.epS e).inq = (w.epS e).inq ∧ u.bareL = w.bareL) _ _ _ ⟨h, rfl, rfl⟩ ?_
  rintro u o - ⟨hset, hinq, hbare⟩
  split
  · obtain ⟨sr, hs⟩ := u.rttSample_bare e peer o.path (v u o)
    rw [State.epS_congr (W.ep_of_bare hs), W.epMod_epS, W.bareL_of hs, W.epMod_bareL]
    exact ⟨hset.sampled .., hinq, hbare⟩
  · exact ⟨hset, hinq, hbare⟩

theorem ackPacket_covers {s : State} {e : Nat} {x : Nat × Nat × List Byte} {c : Conn} {h : EHdr} {r : List Byte} (hr : s.inReset = false)
    (hx : (s.epS e).inq.find? (fun x => x.1 == 10) = some x) (hh : h = ehdrOf x.2.2) (hrec : r = x.2.2.drop 24)
    (hc : (s.epS e).conns.find h.spkg = some c) (hnum : bits (le r 0 4) 0 17 = s.pkgNum) (hsend : c.send = true)
    (hinc : bits (le r 0 4) 17 4 = c.inc) (hrst : bit (le r 0 4) 21 = false)
    (hall : ∀ o ∈ c.outst, 0 < o.sends ∧ ackCovers r o.hdr.psn = true) :
    ∃ t d, exec (.ackPacket e) s = .next t ∧ (t.epS e).conns.find h.spkg = some d ∧ d.outst = [] ∧ d.acked = true
      ∧ d.scum = bits (le r 4 4) 0 24 ∧ (t.epS e).inq = (s.epS e).inq.erase x ∧ t.mem = s.mem := by
  have hep : (((s.w0.takeEdge e x).epMod e (Ep.settled h.spkg (c.ackedBy (bits (le r 4 4) 0 24) s.w0.fc []) c.outst)).epS e).Settled h.spkg
      (bits (le r 4 4) 0 24) [] := by
    rw [W.epMod_epS]
    exact ⟨_, Tbl.find_put_self .., rfl, rfl, rfl⟩
  have hkeep := W.each_rttSample hep c.outst (fun o => o.sends = 1 ∧ (!o.hdr.rtx) = true) (fun w o => w.fc - o.lastFc)
  dsimp only at hkeep
  rw [← effAckPacket_covers (w := s.w0) hx hh hrec hc hnum hsend hinc hrst hall, W.epMod_epS, W.takeEdge_epS, W.epMod_bareL, W.takeEdge,
    W.epMod_bareL] at hkeep
  obtain ⟨⟨d, hd, hout, hacked, hscum⟩, hinq, hbare⟩ := hkeep
  exact ⟨_, d, run_up _ hr, hd, hout, hacked, hscum, hinq, (State.after_of_bareL hbare).1⟩

theorem ackPacket_passes {s : State} {e : Nat} {x : Nat × Nat × List Byte} {c : Conn} {h : EHdr} {r : List Byte} (hr : s.inReset = false)
    (hx : (s.epS e).inq.find? (fun x => x.1 == 10) = some x) (hh : h = ehdrOf x.2.2) (hrec : r = x.2.2.drop 24)
    (hc : (s.epS e).conns.find h.spkg = some c) (hnum : bits (le r 0 4) 0 17 = s.pkgNum) (hsend : c.send = true)
    (hinc : bits (le r 0 4) 17 4 = c.inc) (hrst : bit (le r 0 4) 21 = false)
    (hnone : ∀ o ∈ c.outst, ackCovers r o.hdr.psn = false ∧ o.passed < 3) :
    ∃ t d, exec (.ackPacket e) s = .next t ∧ (t.epS e).conns.find h.spkg = some d ∧ d.outst = c.outst ∧ d.acked = true := by
  refine ⟨_, c.ackedBy (bits (le r 4 4) 0 24) s.fc c.outst,
    run_const hr (effAckPacket_passes (w := s.w0) hx hh hrec hc hnum hsend hinc hrst hnone), ?_, rfl, rfl⟩
  rw [State.after_epS, W.epMod_epS]
  exact Tbl.find_put_self ..

/-! ### The timers of acknowledgement and retransmission (R338, R340, R342) -/

/-- A connection entry whose acknowledgement goes at `fc`. -/
def Conn.ackedAt (fc : Nat) (c : Conn) : Conn := { c with ackFc := fc, ackDue := false }

/-- An edge port that queues a packet at the egress of a VC code. -/
def Ep.queue (vc : Nat) (o : EOut) (p : Ep) : Ep := { p with eq := p.eq.put vc ((p.eq.find vc).getD [] ++ [o]) }

/-- An acknowledgement is a packet at the egress, and the time and the flag in its connection's entry. -/
theorem W.ackNow_epS {w : W} {e peer : Nat} {c : Conn} (hc : (w.epS e).conns.find peer = some c) : ∃ o, o.peer = peer ∧
    (w.ackNow e peer).epS e = { (w.epS e).queue 10 o with conns := (w.epS e).conns.modify peer (Conn.ackedAt w.fc) } := by
  unfold W.ackNow W.sendAck
  rw [hc]
  dsimp only
  rw [if_neg (by decide), W.epMod_epS, W.egress, W.epMod_epS]
  exact ⟨_, rfl, rfl⟩

theorem W.ackNow_bareL (w : W) (e peer : Nat) : (w.ackNow e peer).bareL = w.bareL := by
  unfold W.ackNow W.sendAck
  split
  · rfl
  · rw [if_neg (by decide), W.epMod_bareL, W.egress, W.epMod_bareL]

theorem ackTimer_sends {s : State} {e peer : Nat} {c : Conn} (hr : s.inReset = false) (hc : (s.epS e).conns.find peer = some c)
    (hdue : c.ackDue = true) (hfc : c.ackFc + 2 ^ s.rd (epB e) KEDG_XPORT.ack_log2 ≤ s.fc) (hfault : s.edgeFault = false) :
    ∃ t, exec (.ackTimer e peer) s = .next t ∧ (t.epS e).conns.find peer = some { c with ackFc := s.fc, ackDue := false }
      ∧ (∃ o, (t.epS e).eq.find 10 = some (((s.epS e).eq.find 10).getD [] ++ [o]) ∧ o.peer = peer) ∧ t.mem = s.mem ∧ t.net = s.net := by
  have heff : effAckTimer e peer s.w0 = s.w0.ackNow e peer := by
    unfold effAckTimer
    rw [State.w0_toState, hc]
    exact if_pos ⟨hdue, hfc, by simp [hfault]⟩
  obtain ⟨o, hpeer, hep⟩ := W.ackNow_epS (w := s.w0) hc
  have hbare := s.w0.ackNow_bareL e peer
  generalize s.w0.ackNow e peer = v at heff hep hbare
  obtain ⟨hmem, hnet⟩ := State.after_const_of_bareL hbare
  refine ⟨_, run_const hr heff, ?_, ⟨o, ?_, hpeer⟩, hmem, hnet⟩
  · rw [State.after_epS, hep]
    exact Tbl.find_modify_self _ hc
  · rw [State.after_epS, hep]
    exact Tbl.find_put_self ..

/-- An edge port on which a path has failed `n` times in a row. -/
def Ep.failed (path n : Nat) (p : Ep) : Ep := { p with pfail := Tbl.set 0 p.pfail path n }

/-- An edge port on which a path is suspended until `t`. -/
def Ep.suspend (path t : Nat) (p : Ep) : Ep := { p with pfail := Tbl.set 0 p.pfail path 0, psusp := p.psusp.put path t }

theorem effRtoExpiry_waits {w : W} {e peer psn : Nat}
    (h : ∀ c o, (w.epS e).conns.find peer = some c → c.outst.find? (fun o => o.hdr.psn == psn) = some o →
      w.edgeFault = true ∨ (w.epS e).queued peer psn = true ∨ w.fc < o.lastFc + c.rto ∨ w.ackWaits e peer c.inc psn = true) :
    effRtoExpiry e peer psn w = w := by
  unfold effRtoExpiry
  dsimp only
  split
  · rfl
  · rename_i hfault
    split
    · rfl
    · rename_i c hc
      split
      · rfl
      · rename_i o ho
        exact if_pos ((h c o hc ho).resolve_left hfault)

section
variable {w : W} {e peer psn : Nat} {c : Conn} {o : EPkt} (hfault : w.edgeFault = false) (hc : (w.epS e).conns.find peer = some c)
  (ho : c.outst.find? (fun o => o.hdr.psn == psn) = some o) (hq : (w.epS e).queued peer psn = false) (hrto : o.lastFc + c.rto ≤ w.fc)
  (hack : w.ackWaits e peer c.inc psn = false)
include hfault hc ho hq hrto hack

/-- Below `path_fail` failures, the failure of the path is counted, and the packet's sends decide (R337, R340). -/
theorem effRtoExpiry_counts (hn : Tbl.get 0 (w.epS e).pfail o.path + 1 < w.rd (epB e) KEDG_XPORT.path_fail) : effRtoExpiry e peer psn w =
    let v := w.epMod e (fun p => p.failed o.path (Tbl.get 0 p.pfail o.path + 1))
    if w.rd (epB e) KEDG_XPORT.rtx_max + 1 ≤ o.sends then (v.closeSend e peer TIMEOUT false).traceEp e 3 o.pkt.ctx peer psn
    else v.retransmit e peer o false := by
  unfold effRtoExpiry
  dsimp only
  rw [if_neg (by simp [hfault]), hc]
  dsimp only
  rw [ho]
  dsimp only
  rw [if_neg (by simp [hq, hack, Nat.not_lt.2 hrto])]
  simp only [if_neg (Nat.not_le.2 hn)]
  rfl

/-- At `path_fail` failures, the path is suspended (R337). -/
theorem effRtoExpiry_suspends (hn : w.rd (epB e) KEDG_XPORT.path_fail ≤ Tbl.get 0 (w.epS e).pfail o.path + 1)
    (hsends : o.sends < w.rd (epB e) KEDG_XPORT.rtx_max + 1) : effRtoExpiry e peer psn w =
    ((w.epMod e (Ep.suspend o.path (w.fc + 2 ^ 20))).wr (epB e) KEDG_PATH.suspended 1 o.path).retransmit e peer o false := by
  unfold effRtoExpiry
  dsimp only
  rw [if_neg (by simp [hfault]), hc]
  dsimp only
  rw [ho]
  dsimp only
  rw [if_neg (by simp [hq, hack, Nat.not_lt.2 hrto])]
  simp only [if_pos hn]
  rw [if_neg ?_]
  · rfl
  · rw [W.rd_wr_apart _ _ _ _ _ (by decide) (by decide) (by decide), W.epMod_rd]
    omega

end

/-! ### Paths (R336, R337) -/

/-- An edge port whose path has returned without samples. -/
def Ep.pathBack (path : Nat) (p : Ep) : Ep := { p with psusp := p.psusp.del path, prtt := p.prtt.del path }

/-- A path's registers without samples, at full weight. -/
def W.pathFresh (w : W) (e path : Nat) : W :=
  (((w.wr (epB e) KEDG_PATH.suspended 0 path).wr (epB e) KEDG_PATH.weight 256 path).wr (epB e) KEDG_PATH.samples 0 path).wr (epB e)
    KEDG_PATH.srtt 0 path

theorem W.pathFresh_bare (w : W) (e path : Nat) : (w.pathFresh e path).bare = w.bare := by
  rw [W.pathFresh, W.wr_bare, W.wr_bare, W.wr_bare, W.wr_bare]

theorem W.pathFresh_rd (w : W) (e path : Nat) : (w.pathFresh e path).rd (epB e) KEDG_PATH.suspended path = 0
    ∧ (w.pathFresh e path).rd (epB e) KEDG_PATH.weight path = 256 ∧ (w.pathFresh e path).rd (epB e) KEDG_PATH.samples path = 0
    ∧ (w.pathFresh e path).rd (epB e) KEDG_PATH.srtt path = 0 := by
  unfold W.pathFresh
  refine ⟨?_, ?_, ?_, W.rd_wr_self ..⟩
  · rw [W.rd_wr_apart _ _ _ _ _ (by decide) (by decide) (by decide), W.rd_wr_apart _ _ _ _ _ (by decide) (by decide) (by decide),
      W.rd_wr_apart _ _ _ _ _ (by decide) (by decide) (by decide)]
    exact W.rd_wr_self ..
  · rw [W.rd_wr_apart _ _ _ _ _ (by decide) (by decide) (by decide), W.rd_wr_apart _ _ _ _ _ (by decide) (by decide) (by decide)]
    exact W.rd_wr_self ..
  · rw [W.rd_wr_apart _ _ _ _ _ (by decide) (by decide) (by decide)]
    exact W.rd_wr_self ..

theorem effPathSuspendEnd_returns {w : W} {e path t0 : Nat} (hsusp : (w.epS e).psusp.find path = some t0) (hdue : t0 ≤ w.fc) :
    effPathSuspendEnd e path w = (w.pathFresh e path).epMod e (Ep.pathBack path) := by
  unfold effPathSuspendEnd
  rw [hsusp]
  exact if_neg (Nat.not_lt.2 hdue)

theorem pathSuspendEnd_returns {s : State} {e path t0 : Nat} (hr : s.inReset = false) (hsusp : (s.epS e).psusp.find path = some t0)
    (hdue : t0 ≤ s.fc) : ∃ t, exec (.pathSuspendEnd e path) s = .next t ∧ t.rd (epB e) KEDG_PATH.suspended path = 0
      ∧ t.rd (epB e) KEDG_PATH.weight path = 256 ∧ t.rd (epB e) KEDG_PATH.samples path = 0 ∧ t.rd (epB e) KEDG_PATH.srtt path = 0
      ∧ (t.epS e).psusp = (s.epS e).psusp.del path ∧ (t.epS e).prtt = (s.epS e).prtt.del path ∧ t.mem = s.mem ∧ t.net = s.net := by
  have heff := effPathSuspendEnd_returns (w := s.w0) hsusp hdue
  obtain ⟨hsus, hwt, hsam, hsrtt⟩ := s.w0.pathFresh_rd e path
  have hbare := s.w0.pathFresh_bare e path
  generalize s.w0.pathFresh e path = v at heff hsus hwt hsam hsrtt hbare
  have hep : v.epS e = s.epS e := State.epS_congr (W.ep_of_bare hbare) e
  obtain ⟨hmem, hnet⟩ := State.after_const_of_bareL (s := s) ((W.epMod_bareL v e (Ep.pathBack path)).trans (W.bareL_of hbare))
  refine ⟨_, run_const hr heff, ?_, ?_, ?_, ?_, ?_, ?_, hmem, hnet⟩
  · rw [State.after_rd, W.epMod_rd, hsus]
  · rw [State.after_rd, W.epMod_rd, hwt]
  · rw [State.after_rd, W.epMod_rd, hsam]
  · rw [State.after_rd, W.epMod_rd, hsrtt]
  · rw [State.after_epS, W.epMod_epS, hep, Ep.pathBack]
  · rw [State.after_epS, W.epMod_epS, hep, Ep.pathBack]

/-- What a choice among candidates gives is one of them. -/
theorem foldl_choice_mem (f : Option Nat → Nat → Option Nat) (hnone : ∀ p, f none p = some p)
    (hsome : ∀ q p, f (some q) p = some p ∨ f (some q) p = some q) {l : List Nat} (hl : l ≠ []) : (l.foldl f none).getD 0 ∈ l := by
  obtain ⟨a, t, rfl⟩ := List.exists_cons_of_ne_nil hl
  have hmem : ∃ q ∈ a :: t, t.foldl f (some a) = some q := by
    refine List.foldlRecOn (motive := fun m => ∃ q ∈ a :: t, m = some q) t f ⟨a, List.mem_cons_self, rfl⟩ ?_
    rintro _ ⟨q, hq, rfl⟩ p hp
    rcases hsome q p with h | h
    · exact ⟨p, List.mem_cons_of_mem _ hp, h⟩
    · exact ⟨q, hq, h⟩
  obtain ⟨q, hq, hfold⟩ := hmem
  rw [List.foldl_cons, hnone, hfold]
  exact hq

/-- Labels of paths that are not suspended. -/
def State.livePaths (s : State) (e : Nat) (labels : List Nat) : List Nat :=
  labels.filter (fun p => s.rd (epB e) KEDG_PATH.suspended p == 0)

theorem State.mem_livePaths {s : State} {e p : Nat} {labels : List Nat} :
    p ∈ s.livePaths e labels ↔ p ∈ labels ∧ s.rd (epB e) KEDG_PATH.suspended p = 0 := by simp [State.livePaths]

/-- The labels that a pick leaves in view: without `skip`, where it is not the only one. -/
def apartFrom (skip : Option Nat) (l : List Nat) : List Nat :=
  match skip with
  | some k => if l.any (fun p => p != k) then l.filter (fun p => p != k) else l
  | none => l

theorem apartFrom_subset (skip : Option Nat) (l : List Nat) : apartFrom skip l ⊆ l := by
  unfold apartFrom
  split
  · split
    · exact List.filter_subset_self ..
    · exact List.Subset.refl l
  · exact List.Subset.refl l

theorem apartFrom_ne_nil (skip : Option Nat) {l : List Nat} (h : l ≠ []) : apartFrom skip l ≠ [] := by
  unfold apartFrom
  split
  · rename_i k
    split
    · rename_i hany
      obtain ⟨p, hp, hpk⟩ := List.any_eq_true.1 hany
      exact List.ne_nil_of_mem (List.mem_filter.2 ⟨hp, hpk⟩)
    · exact h
  · exact h

theorem apartFrom_skips {k : Nat} {l : List Nat} (h : ∃ p ∈ l, p ≠ k) : k ∉ apartFrom (some k) l := by
  obtain ⟨p, hp, hpk⟩ := h
  have hany : l.any (fun p => p != k) = true := List.any_eq_true.2 ⟨p, hp, by simp [hpk]⟩
  rw [apartFrom, if_pos hany]
  simp

/-- The suspended paths of a set return, where it has no other. -/
def W.pathsRevived (w : W) (e : Nat) (labels : List Nat) : W :=
  if w.livePaths e labels = [] then w.each labels (fun w p => (w.wr (epB e) KEDG_PATH.suspended 0 p).epMod e (fun x => { x with
    psusp := x.psusp.del p })) else w

/-- The fields of an edge port's window stand below the end of the register space. -/
theorem epB_off_lt {e : Nat} {f : Fld} (he : e < 64) (hf : f.off < 2 ^ 16) : epB e + f.off < 2 ^ 26 := by
  unfold epB
  omega

/-- A path that is not suspended stays so while paths of its port return. -/
theorem W.rd_wr_suspended {w : W} {e : Nat} (he : e < 64) (i : Nat) {j : Nat} (h : w.rd (epB e) KEDG_PATH.suspended j = 0) :
    (w.wr (epB e) KEDG_PATH.suspended 0 i).rd (epB e) KEDG_PATH.suspended j = 0 := by
  by_cases hij : i = j
  · rw [hij]
    exact W.rd_wr_val _ _ _ _ _ _ rfl
  · have hb := epB_off_lt (f := KEDG_PATH.suspended) he (by decide)
    rw [W.rd_wr_other _ _ _ _ _ _ _ (by decide) (by decide) hb hb (.inr (.inr hij)), h]

theorem W.pathsRevived_live {w : W} {e : Nat} {labels : List Nat} (he : e < 64) (h : labels ≠ []) :
    (w.pathsRevived e labels).livePaths e labels ≠ [] := by
  unfold W.pathsRevived
  split
  · obtain ⟨a, t, rfl⟩ := List.exists_cons_of_ne_nil h
    refine List.ne_nil_of_mem (a := a) (State.mem_livePaths.2 ⟨List.mem_cons_self, ?_⟩)
    rw [W.each_cons]
    refine W.each_inv (fun v => v.rd (epB e) KEDG_PATH.suspended a = 0) _ _ _ ?_ ?_
    · rw [W.epMod_rd]
      exact W.rd_wr_val _ _ _ _ _ _ rfl
    · intro v p _ hv
      rw [W.epMod_rd, W.rd_wr_suspended he p hv]
  · assumption

/-- A pick is one of the paths in view. -/
theorem W.pickPath_mem {w : W} {e : Nat} {skip : Option Nat} (he : e < 64) (h : w.sprayLabels e ≠ []) :
    (w.pickPath e skip).1 ∈ apartFrom skip ((w.pathsRevived e (w.sprayLabels e)).livePaths e (w.sprayLabels e)) := by
  unfold W.pickPath
  dsimp only
  rw [if_neg h]
  dsimp only
  refine foldl_choice_mem _ (fun _ => rfl) (fun _ _ => ite_eq_or_eq _ _ _) (apartFrom_ne_nil _ (W.pathsRevived_live he h))

theorem pickPath_picks {s : State} {e : Nat} {skip : Option Nat} (he : e < 64) (h : s.sprayLabels e ≠ []) :
    (s.w0.pickPath e skip).1 ∈ s.sprayLabels e
      ∧ ((∃ p ∈ s.sprayLabels e, s.rd (epB e) KEDG_PATH.suspended p = 0) → s.rd (epB e) KEDG_PATH.suspended (s.w0.pickPath e skip).1 = 0)
      ∧ (∀ k, skip = some k → (∃ p ∈ s.sprayLabels e, p ≠ k ∧ s.rd (epB e) KEDG_PATH.suspended p = 0) →
        (s.w0.pickPath e skip).1 ≠ k) := by
  have hmem := W.pickPath_mem (w := s.w0) (skip := skip) he h
  have hsame : (∃ p ∈ s.sprayLabels e, s.rd (epB e) KEDG_PATH.suspended p = 0) → s.w0.pathsRevived e (s.sprayLabels e) = s.w0 := by
    rintro ⟨p, hp, hlive⟩
    exact if_neg (List.ne_nil_of_mem (State.mem_livePaths.2 ⟨hp, hlive⟩))
  refine ⟨(State.mem_livePaths.1 (apartFrom_subset _ _ hmem)).1, fun hex => ?_, ?_⟩
  · have hin := apartFrom_subset _ _ hmem
    rw [State.w0_toState, hsame hex] at hin
    exact (State.mem_livePaths.1 hin).2
  · rintro k rfl ⟨p, hp, hpk, hlive⟩ hk
    rw [State.w0_toState, hsame ⟨p, hp, hlive⟩, hk] at hmem
    exact apartFrom_skips ⟨p, State.mem_livePaths.2 ⟨hp, hlive⟩, hpk⟩ hmem

/-! ### Packets set aside (R343) -/

theorem effShapingRelease_first {w u : W} {e : Nat} {p : Packet} {rest : List Packet} (hs : (w.epS e).shaped = p :: rest)
    (hrate : w.rateOk e p false = true) (hsend : ((w.takeTokens e p false).epMod e (fun x => { x with shaped := x.shaped.erase p })).sendNew e
      (w.crossDst p).1 (w.crossDst p).2.1 (w.crossDst p).2.2 = some u) : effShapingRelease e w = u := by
  rw [effShapingRelease, hs, W.shapeTry, if_neg (by simp [hrate])]
  dsimp only
  rw [hsend]

/-- Packets whose tokens do not suffice stay. -/
theorem W.shapeTry_short {w : W} {e : Nat} (l : List Packet) (h : ∀ p ∈ l, w.rateOk e p false = false) (ctxs : List Nat) :
    w.shapeTry e l ctxs = w := by
  induction l generalizing ctxs with
  | nil => rfl
  | cons p l ih =>
    rw [W.shapeTry, if_pos (.inr (by simp [h p List.mem_cons_self]))]
    exact ih (fun q hq => h q (List.mem_cons_of_mem _ hq)) _

/-- Settles O46, a clause for each thing that an ACK, the timers, the paths and the shaping store can do. -/
theorem transportAct : Obligations.TransportAct := by
  refine ⟨?_, ?_, ?_, ?_, ?_, ?_, ?_, ?_, ?_, ?_, ?_, ?_, ?_⟩
  · intro s e x c h r hr hx hh hrec hc hnum hsend hinc hrst
    exact run_eq hr (effAckPacket_rst (w := s.w0) hx hh hrec hc hnum hsend hinc hrst)
  · intro s e x h r hr hx hh hrec hno
    exact run_eq hr (effAckPacket_foreign (w := s.w0) hx hh hrec hno)
  · intro s e x c h r hr hx hh hrec hc hnum hsend hinc hrst hall
    exact ackPacket_covers hr hx hh hrec hc hnum hsend hinc hrst hall
  · intro s e x c h r hr hx hh hrec hc hnum hsend hinc hrst hnone
    exact ackPacket_passes hr hx hh hrec hc hnum hsend hinc hrst hnone
  · intro s e peer c hr hc hdue hfc hfault
    exact ackTimer_sends hr hc hdue hfc hfault
  · intro s e peer psn c o hr hfault hc ho hq hrto hack hn hsends
    exact run_eq hr ((effRtoExpiry_counts (w := s.w0) hfault hc ho hq hrto hack hn).trans (if_neg (Nat.not_le.2 hsends)))
  · intro s e peer psn c o hr hfault hc ho hq hrto hack hn hsends
    exact run_eq hr (effRtoExpiry_suspends (w := s.w0) hfault hc ho hq hrto hack hn hsends)
  · intro s e peer psn c o hr hfault hc ho hq hrto hack hn hsends
    exact run_eq hr ((effRtoExpiry_counts (w := s.w0) hfault hc ho hq hrto hack hn).trans (if_pos hsends))
  · intro s e peer psn hr h
    exact run_same hr (effRtoExpiry_waits h)
  · intro s e path t0 hr _ hsusp hdue
    exact pathSuspendEnd_returns hr hsusp hdue
  · intro s e skip he h
    exact pickPath_picks he h
  · intro s e p rest u hr hs hrate hsend
    exact run_const hr (effShapingRelease_first (w := s.w0) hs hrate hsend)
  · intro s e hr h
    exact run_same hr (W.shapeTry_short _ h [])

end Sys2Proof.Machine
end

section
/-! PROOFS. Circuit windows (R344, R345) and spine slots (R194, R196, R347 to R349) of an edge port. -/

namespace Sys2Proof.Machine

/-! ### Circuit windows (R344, R345) -/

/-- An edge port in a phase of a circuit window. -/
def Ep.inPhase (n : Nat) (p : Ep) : Ep := { p with cwPhase := n }

/-- An edge port whose circuit window is open; `bad`: the peer is not the one it names. -/
def Ep.windowOpen (bad : Bool) (p : Ep) : Ep := { p with cwPhase := 2, cwBad := bad }

/-- An edge port whose circuit window `i` has ended. -/
def Ep.windowEnd (i : Nat) (p : Ep) : Ep := { p with cw := p.cw.del i, cwPhase := 0, cwBad := false }

/-- An edge port whose link starts: its free frames are owed as credits (R324). -/
def Ep.linkStart (p : Ep) : Ep := { p with owed := p.freeFrames }

theorem circuitSpanBegin_begins {s : State} {e i : Nat} {c : CwEnt} (hr : s.inReset = false) (hcw : (s.epS e).nextCw = some (i, c)) (hi : i < 256)
    (hphase : (s.epS e).cwPhase = 0) (hlead : c.tOpen ≤ s.herdTime + s.rd (epB e) KEDG_CW_CFG.cw_lead) :
    ∃ t, exec (.circuitSpanBegin e) s = .next t ∧ (t.epS e).cwPhase = 1 ∧ t.rd (epB e) KEDG_STAT.cw_span = 1
      ∧ t.rd (epB e) KEDG_CW_STAT.cw_next = i ∧ (t.epS e).cw = (s.epS e).cw ∧ t.mem = s.mem ∧ t.net = s.net := by
  have heff : effCircuitSpanBegin e s.w0 =
      ((s.w0.wr (epB e) KEDG_STAT.cw_span 1).wr (epB e) KEDG_CW_STAT.cw_next i).epMod e (Ep.inPhase 1) := by
    unfold effCircuitSpanBegin
    rw [State.w0_toState, hcw]
    exact if_neg (by simp [hphase, Nat.not_lt.2 hlead])
  obtain ⟨hmem, hnet⟩ := State.after_const_of_bareL (s := s)
    (v := ((s.w0.wr (epB e) KEDG_STAT.cw_span 1).wr (epB e) KEDG_CW_STAT.cw_next i).epMod e (Ep.inPhase 1)) rfl
  refine ⟨_, run_const hr heff, ?_, ?_, ?_, ?_, hmem, hnet⟩
  · rw [State.after_epS, W.epMod_epS, Ep.inPhase]
  · rw [State.after_rd, W.epMod_rd, W.rd_wr_apart _ _ _ _ _ (by decide) (by decide) (by decide)]
    exact W.rd_wr_self ..
  · rw [State.after_rd, W.epMod_rd]
    exact W.rd_wr_val _ _ _ _ _ _ (Nat.mod_eq_of_lt hi)
  · rw [State.after_epS, W.epMod_epS]
    rfl

theorem effCircuitSpanBegin_waits {w : W} {e : Nat}
    (h : ∀ i c, (w.epS e).nextCw = some (i, c) → (w.epS e).cwPhase ≠ 0 ∨ w.herdTime + w.rd (epB e) KEDG_CW_CFG.cw_lead < c.tOpen) :
    effCircuitSpanBegin e w = w := by
  unfold effCircuitSpanBegin
  split
  · rfl
  · rename_i i c hcw
    exact if_pos (h i c hcw)

theorem effCircuitOpen_opens {w v : W} {e : Nat} {c : CwEnt} (hcw : (w.epS e).cw.find (w.rd (epB e) KEDG_CW_STAT.cw_next) = some c)
    (hphase : (w.epS e).cwPhase = 1) (hopen : c.tOpen ≤ w.herdTime) (hv : v = (w.wr (epB e) KEDG_CW_STAT.cw_open 1).linkStop e) :
    effCircuitOpen e w = (if (v.epS e).peerPkg ≠ c.pkg ∨ (v.epS e).peerEp ≠ c.ep then v.inc (epB e) KEDG_CW_EVT2.cw_peer_bad else v).epMod e
      (Ep.windowOpen (decide ((v.epS e).peerPkg ≠ c.pkg ∨ (v.epS e).peerEp ≠ c.ep))) := by
  unfold effCircuitOpen
  rw [hcw]
  dsimp only
  rw [if_neg (by simp [hphase, Nat.not_lt.2 hopen]), ← hv]
  rfl

theorem effCircuitClose_closes {w v : W} {e i : Nat} {c : CwEnt} (hi : i = w.rd (epB e) KEDG_CW_STAT.cw_next)
    (hcw : (w.epS e).cw.find i = some c) (hphase : (w.epS e).cwPhase = 2) (hclose : c.tClose ≤ w.herdTime)
    (hv : v = ((w.wr (epB e) KEDG_CW_STAT.cw_open 0).wr (epB e) KEDG_STAT.cw_span 0).epMod e (Ep.windowEnd i)) :
    ∃ u : W, u.bare = v.bare ∧ effCircuitClose e w = (u.linkStop e).epMod e Ep.linkStart := by
  subst hi
  unfold effCircuitClose
  dsimp only
  rw [hcw]
  dsimp only
  rw [if_neg (by simp [hphase, Nat.not_lt.2 hclose])]
  refine ⟨_, ?_, rfl⟩
  split
  · rw [hv, W.wr_bare]
    rfl
  · rw [hv]
    rfl

section
variable {s : State} {e : Nat} {c : CwEnt} (hr : s.inReset = false)
include hr

theorem circuitOpen_opens (hcw : (s.epS e).cw.find (s.rd (epB e) KEDG_CW_STAT.cw_next) = some c) (hphase : (s.epS e).cwPhase = 1)
    (hopen : c.tOpen ≤ s.herdTime) : ∃ t, exec (.circuitOpen e) s = .next t
      ∧ t.epS e = (s.epS e).stopped.windowOpen (decide ((s.epS e).peerPkg ≠ c.pkg ∨ (s.epS e).peerEp ≠ c.ep))
      ∧ t.mem = s.mem ∧ t.net = s.net := by
  have hstop : ((s.w0.wr (epB e) KEDG_CW_STAT.cw_open 1).linkStop e).epS e = (s.epS e).stopped := by
    rw [W.linkStop_epS, State.epS_congr (W.wr_ep ..), State.w0_toState]
  have hbare := (W.linkStop_bareL (s.w0.wr (epB e) KEDG_CW_STAT.cw_open 1) e).trans (W.bareL_of (W.wr_bare ..))
  have heff := effCircuitOpen_opens (w := s.w0) hcw hphase hopen rfl
  generalize (s.w0.wr (epB e) KEDG_CW_STAT.cw_open 1).linkStop e = v at heff hstop hbare
  have hcount : ∀ (P : Prop) [Decidable P], (if P then v.inc (epB e) KEDG_CW_EVT2.cw_peer_bad else v).bare = v.bare := by
    intro P _
    split
    · exact W.inc_bare ..
    · rfl
  refine ⟨_, run_const hr heff, ?_, State.after_const_of_bareL ?_⟩
  · rw [State.after_epS, W.epMod_epS, State.epS_congr (W.ep_of_bare (hcount _)), hstop]
    rfl
  · rw [W.epMod_bareL, W.bareL_of (hcount _), hbare]

theorem circuitClose_closes {i : Nat} (hi : i = s.rd (epB e) KEDG_CW_STAT.cw_next) (hcw : (s.epS e).cw.find i = some c)
    (hphase : (s.epS e).cwPhase = 2) (hclose : c.tClose ≤ s.herdTime) : ∃ t, exec (.circuitClose e) s = .next t
      ∧ t.epS e = ((s.epS e).windowEnd i).stopped.linkStart ∧ t.mem = s.mem ∧ t.net = s.net := by
  obtain ⟨u, hu, heff⟩ := effCircuitClose_closes (w := s.w0) hi hcw hphase hclose rfl
  refine ⟨_, run_const hr heff, ?_, State.after_const_of_bareL ?_⟩
  · rw [State.after_epS, W.epMod_epS, W.linkStop_epS, State.epS_congr (W.ep_of_bare hu), W.epMod_epS, State.epS_congr (W.wr_ep ..),
      State.epS_congr (W.wr_ep ..), State.w0_toState]
  · rw [W.epMod_bareL, W.linkStop_bareL, W.bareL_of hu]
    rfl

end

theorem effCircuitOpen_waits {w : W} {e : Nat} (h : ∀ c, (w.epS e).cw.find (w.rd (epB e) KEDG_CW_STAT.cw_next) = some c →
    (w.epS e).cwPhase = 1 → w.herdTime < c.tOpen) : effCircuitOpen e w = w := by
  unfold effCircuitOpen
  split
  · rfl
  · rename_i c hc
    exact if_pos (not_or_of_imp (h c hc))

theorem effCircuitClose_waits {w : W} {e : Nat} (h : ∀ c, (w.epS e).cw.find (w.rd (epB e) KEDG_CW_STAT.cw_next) = some c →
    (w.epS e).cwPhase = 2 → w.herdTime < c.tClose) : effCircuitClose e w = w := by
  unfold effCircuitClose
  dsimp only
  split
  · rfl
  · rename_i c hc
    exact if_pos (not_or_of_imp (h c hc))

/-! ### Messages to spine slots (R194, R347) -/

theorem State.after_spnS (s : State) (f : W → W) (e k : Nat) : (s.after f).spnS e k = (f s.w0).spnS e k := rfl

theorem W.setSpn_spnS (w : W) (e k : Nat) (v : Spn) : (w.setSpn e k v).spnS e k = v := by
  rw [State.spnS, W.setSpn, W.epMod_epS]
  exact Tbl.get_set_self ..

/-- A message that a ring would refuse is none to a spine slot either (R194, R347). -/
def spnMalformed (p : Packet) : Bool :=
  15 < p.aux || 64 < hdLines p.data || p.len != 16 + hdBlen p.data || hdLines p.data == 0 || hdBlen p.data < 33 || 4080 < hdBlen p.data

theorem spnMalformed_iff (p : Packet) : spnMalformed p = true ↔
    15 < p.aux ∨ 64 < hdLines p.data ∨ p.len ≠ 16 + hdBlen p.data ∨ hdLines p.data = 0 ∨ hdBlen p.data < 33 ∨ 4080 < hdBlen p.data := by
  simp [spnMalformed, or_assoc]

/-- A message to a spine slot that is not enabled, or from a sender without a slot of it. -/
def State.spnDenied (s : State) (e k : Nat) (p : Packet) : Bool :=
  !decide (k < 16 ∧ s.rd (epB e) KEDG_SPN_CFG.spn_en k = 1) || (s.spnSlotOf e k (hdPkg p.data) (hdSrc p.data) (hdChan p.data)).isNone

/-- A message that a spine slot takes goes to the egress as one REDX packet (R347). -/
def W.spnTake (w : W) (e j : Nat) (p : Packet) : W :=
  w.egress e 11 { vc := 11, bytes := EHdr.bytes { dpkg := 0, dep := 0, spkg := w.pkgNum, sep := e } ++ p.data.drop 16,
                  peer := j, psn := hdLines p.data, ctx := p.ctx }

section
variable {w v : W} {e : Nat} {p : Packet} (ht : w.takeAny (uEp e) (fun p => (p.op == 0x20 || p.op == 0x22) && p.addr == 0) = some (p, v))
include ht

/-- The checks of a message to a spine slot decide what becomes of it. -/
theorem effSpineSlotMessage_checked {k st : Nat} (hop : p.op = 0x20) (hk : k = p.aux % 256)
    (hst : firstOf [(spnMalformed p, BADOP), (v.spnDenied e k p, DENIED)] = st) : effSpineSlotMessage e w =
    if st ≠ OK then v.cmp (uEp e) p st (msgLines (p.len - 16)) else
    let u := v.spnTake e (k * 16 + (v.spnSlotOf e k (hdPkg p.data) (hdSrc p.data) (hdChan p.data)).getD 0) p
    if p.ack then u.cmp (uEp e) p OK else u := by
  subst hk hst
  unfold effSpineSlotMessage
  dsimp only
  rw [ht]
  dsimp only
  rw [if_neg (by omega)]
  rfl

theorem effSpineSlotMessage_malformed (hop : p.op = 0x20) (hbad : spnMalformed p = true) :
    effSpineSlotMessage e w = v.cmp (uEp e) p BADOP (msgLines (p.len - 16)) := by
  have hst : firstOf [(spnMalformed p, BADOP), (v.spnDenied e (p.aux % 256) p, DENIED)] = BADOP := by
    rw [hbad]
    exact firstOf_cons_true (by decide) (by simp [BADOP, DENIED, statusPrec])
  exact (effSpineSlotMessage_checked ht hop rfl hst).trans (if_pos (by decide))

variable {k : Nat} (hop : p.op = 0x20) (hk : k = p.aux % 256) (hform : spnMalformed p = false)
include hop hk hform

theorem effSpineSlotMessage_denied (hdeny : v.spnDenied e k p = true) :
    effSpineSlotMessage e w = v.cmp (uEp e) p DENIED (msgLines (p.len - 16)) := by
  have hst : firstOf [(spnMalformed p, BADOP), (v.spnDenied e k p, DENIED)] = DENIED := by
    rw [hform, hdeny]
    rfl
  exact (effSpineSlotMessage_checked ht hop hk hst).trans (if_pos (by decide))

theorem effSpineSlotMessage_taken {i : Nat} (hlt : k < 16) (hen : v.rd (epB e) KEDG_SPN_CFG.spn_en k = 1)
    (hslot : v.spnSlotOf e k (hdPkg p.data) (hdSrc p.data) (hdChan p.data) = some i) : effSpineSlotMessage e w =
    if p.ack then (v.spnTake e (k * 16 + i) p).cmp (uEp e) p OK else v.spnTake e (k * 16 + i) p := by
  have hst : firstOf [(spnMalformed p, BADOP), (v.spnDenied e k p, DENIED)] = OK := by
    rw [hform, State.spnDenied, hslot, decide_eq_true ⟨hlt, hen⟩]
    rfl
  rw [effSpineSlotMessage_checked ht hop hk hst, if_neg (by decide), hslot]
  rfl

end

theorem effSpineSlotMessage_resync {w v : W} {e i k : Nat} {p : Packet}
    (ht : w.takeAny (uEp e) (fun p => (p.op == 0x20 || p.op == 0x22) && p.addr == 0) = some (p, v)) (hop : p.op = 0x22) (hk : k = p.aux % 256)
    (hlt : k < 16) (hen : v.rd (epB e) KEDG_SPN_CFG.spn_en k = 1)
    (hslot : v.spnSlotOf e k (hdPkg p.data) (hdSrc p.data) (hdChan p.data) = some i) : effSpineSlotMessage e w =
    let u := (v.wr (epB e) KEDG_SPN_SLOT2.s_pend 0 (k * 16 + i)).setSpn e k { v.spnS e k with pendT := (v.spnS e k).pendT.del (k * 16 + i) }
    u.spnCredit e p.ctx (u.rd (epB e) KEDG_SPN_SLOT2.s_share (k * 16 + i) - (u.epS e).spnPlaced (k * 16 + i)) true
      (hdPkg p.data) (hdSrc p.data) (hdChan p.data) := by
  subst hk
  unfold effSpineSlotMessage
  dsimp only
  rw [ht]
  dsimp only
  rw [if_pos hop, hslot]
  dsimp only
  rw [if_pos ⟨hlt, hen⟩]

/-! ### Lines popped from a spine slot (R196, R347) -/

/-- Below 8 lines, what is popped joins the pending return. -/
theorem W.spnPop_pends {w : W} {e j m : Nat} (h : w.rd (epB e) KEDG_SPN_SLOT2.s_pend j + m < 8) :
    (w.spnPop e (j, m)).rd (epB e) KEDG_SPN_SLOT2.s_pend j = w.rd (epB e) KEDG_SPN_SLOT2.s_pend j + m := by
  have hinc : (w.inc (epB e) KEDG_SPN_SLOT2.s_pend m j).rd (epB e) KEDG_SPN_SLOT2.s_pend j = w.rd (epB e) KEDG_SPN_SLOT2.s_pend j + m := by
    rw [W.rd_inc_self]
    have hw : KEDG_SPN_SLOT2.s_pend.width = 15 := rfl
    rw [hw, satAdd]
    omega
  have hkeep : ∀ (P : Prop) [Decidable P] (v : W) (k : Nat) (x : Spn), (if P then v else v.setSpn e k x).rd (epB e) KEDG_SPN_SLOT2.s_pend j
      = v.rd (epB e) KEDG_SPN_SLOT2.s_pend j := by
    intro P _ v k x
    split
    · rfl
    · rfl
  unfold W.spnPop
  dsimp only
  rw [if_neg (by rw [hkeep, hinc]; omega), hkeep, hinc]

/-! ### Results and credits of a spine slot (R348, R349) -/

theorem W.takeEdge_spnS (w : W) (e : Nat) (x : Nat × Nat × List Byte) (k : Nat) : (w.takeEdge e x).spnS e k = w.spnS e k := by
  rw [State.spnS, State.spnS, W.takeEdge_epS, Ep.took]

section
variable {w : W} {e : Nat}

theorem effRedxResult_result {x : Nat × Nat × List Byte} (ht : w.takeAny (uEp e) (fun p => p.op == 0x21 && p.ext == []) = none)
    (hx : (w.epS e).inq.find? (fun x => x.1 == 11) = some x) :
    effRedxResult e w = (w.spnResultIn e x).each (List.range 16) (fun w k => w.spnTrySend e k) := by
  unfold effRedxResult
  rw [ht]
  dsimp only
  rw [hx]

theorem effRedxResult_credit {v : W} {p : Packet} {k : Nat} (ht : w.takeAny (uEp e) (fun p => p.op == 0x21 && p.ext == []) = some (p, v))
    (hx : (v.epS e).inq.find? (fun x => x.1 == 11) = none) (hk : k = p.tag % 256) (hlt : k < 16) : effRedxResult e w =
    (v.setSpn e k (spnCreditIn (v.spnS e k) (if v.rd (epB e) KEDG_SPN_CFG.res_herd k = 1 then v.rd (epB e) KEDG_SPN_CFG.members k else 1)
      p.src p.aux (bit p.tag 8))).each (List.range 16) (fun w k => w.spnTrySend e k) := by
  subst hk
  have hinq : ∀ x, ((v.setSpn e (p.tag % 256) x).epS e).inq = (v.epS e).inq := by
    intro x
    rw [W.setSpn, W.epMod_epS]
  unfold effRedxResult
  rw [ht]
  dsimp only
  rw [if_neg (Nat.not_le.2 hlt), hinq, hx]

variable {x : Nat × Nat × List Byte} {k : Nat} (hk : k = bits (le (x.2.2.drop 24) 11 1) 0 4)
include hk

theorem W.spnResultIn_joins (hen : w.rd (epB e) KEDG_SPN_CFG.spn_en k ≠ 0)
    (hroom : spnHeldLines (w.spnS e k) + msgLines (x.2.2.drop 24).length ≤ 64) : w.spnResultIn e x =
    (w.takeEdge e x).setSpn e k { w.spnS e k with results := (w.spnS e k).results ++ [x.2.2.drop 24] } := by
  have hspn := w.takeEdge_spnS e x k
  have hrd : (w.takeEdge e x).rd (epB e) KEDG_SPN_CFG.spn_en k = w.rd (epB e) KEDG_SPN_CFG.spn_en k := rfl
  unfold W.spnResultIn
  dsimp only
  rw [← hk, hspn, hrd]
  exact if_neg (by omega)

theorem W.spnResultIn_drops (hno : w.rd (epB e) KEDG_SPN_CFG.spn_en k = 0 ∨ 64 < spnHeldLines (w.spnS e k) + msgLines (x.2.2.drop 24).length) :
    w.spnResultIn e x = (w.takeEdge e x).inc (epB e) KEDG_SPN_EVT.redx_drop 1 k := by
  have hspn := w.takeEdge_spnS e x k
  have hrd : (w.takeEdge e x).rd (epB e) KEDG_SPN_CFG.spn_en k = w.rd (epB e) KEDG_SPN_CFG.spn_en k := rfl
  unfold W.spnResultIn
  dsimp only
  rw [← hk, hspn, hrd]
  exact if_pos hno

end

/-- A returned result leaves the receive buffer, whether it joins the results held or not. -/
theorem W.spnResultIn_inq (w : W) (e : Nat) (x : Nat × Nat × List Byte) : ((w.spnResultIn e x).epS e).inq = (w.epS e).inq.erase x := by
  by_cases h : w.rd (epB e) KEDG_SPN_CFG.spn_en (bits (le (x.2.2.drop 24) 11 1) 0 4) = 0
      ∨ 64 < spnHeldLines (w.spnS e (bits (le (x.2.2.drop 24) 11 1) 0 4)) + msgLines (x.2.2.drop 24).length
  · rw [W.spnResultIn_drops rfl h, State.epS_congr (W.inc_ep ..), W.takeEdge_epS, Ep.took]
  · rw [not_or, Nat.not_lt] at h
    obtain ⟨hen, hroom⟩ := h
    rw [W.spnResultIn_joins rfl hen hroom, W.setSpn, W.epMod_epS, W.takeEdge_epS]
    rfl

/-- Settles O47, a clause for each step of a circuit window and each thing that a spine slot's messages, results and credits can do. -/
theorem windowsAndSlotsAct : Obligations.WindowsAndSlotsAct := by
  refine ⟨?_, ?_, ?_, ?_, ?_, ?_, ?_, ?_, ?_, ?_, ?_, ?_, ?_⟩
  · intro s e i c hr _ hcw hi hphase hlead
    exact circuitSpanBegin_begins hr hcw hi hphase hlead
  · intro s e hr h
    exact run_same hr (effCircuitSpanBegin_waits h)
  · intro s e c hr hcw hphase hopen
    obtain ⟨t, hex, hep, hmem, hnet⟩ := circuitOpen_opens hr hcw hphase hopen
    exact ⟨t, hex, by rw [hep]; rfl, by rw [hep]; rfl, by rw [hep]; rfl, hmem, hnet⟩
  · intro s e c i hr hi hcw hphase hclose
    obtain ⟨t, hex, hep, hmem, hnet⟩ := circuitClose_closes hr hi hcw hphase hclose
    refine ⟨t, hex, by rw [hep]; rfl, by rw [hep]; rfl, by rw [hep]; rfl, by rw [hep]; rfl, ?_, hmem, hnet⟩
    rw [hep, Ep.linkStart, Ep.freeFrames_stopped]
    rfl
  · intro s e hr h
    exact ⟨run_same hr (effCircuitOpen_waits fun c hc => (h c hc).1), run_same hr (effCircuitClose_waits fun c hc => (h c hc).2)⟩
  · intro s e p w hr ht hop haux hm hm64 hlen hb hb4080 hdeny
    have hform : spnMalformed p = false := by
      rw [← Bool.not_eq_true, spnMalformed_iff]
      omega
    have hk : p.aux % 256 = p.aux := Nat.mod_eq_of_lt (by omega)
    refine run_const hr (effSpineSlotMessage_denied (w := s.w0) ht hop hk.symm hform ?_)
    simpa [State.spnDenied, show p.aux < 16 by omega] using hdeny
  · intro s e p w hr ht hop hbad
    exact run_const hr (effSpineSlotMessage_malformed (w := s.w0) ht hop ((spnMalformed_iff p).2 hbad))
  · intro s e p w i m v hr ht hop haux hm hm1 hm64 hlen hb hb4080 hen hslot hv
    have hform : spnMalformed p = false := by
      rw [← Bool.not_eq_true, spnMalformed_iff]
      omega
    have hk : p.aux % 256 = p.aux := Nat.mod_eq_of_lt (by omega)
    subst hm hv
    exact run_const hr (effSpineSlotMessage_taken (w := s.w0) ht hop hk.symm hform (by omega) hen hslot)
  · intro s e p w i k hr ht hop hk hlt hen hslot
    exact run_const hr (effSpineSlotMessage_resync (w := s.w0) ht hop hk hlt hen hslot)
  · intro s e j m _ _ h
    rw [State.after_rd]
    exact W.spnPop_pends h
  · intro s e x hr ht hx
    exact run_eq hr (effRedxResult_result (w := s.w0) ht hx)
  · intro s e p w k hr ht hx hk hlt
    exact run_const hr (effRedxResult_credit (w := s.w0) ht hx hk hlt)
  · intro s e x k hk
    refine ⟨fun hen hroom => ?_, fun hno => State.after_congr (W.spnResultIn_drops (w := s.w0) hk hno), s.w0.spnResultIn_inq e x⟩
    rw [State.after_spnS, W.spnResultIn_joins (w := s.w0) hk hen hroom, W.setSpn_spnS]
    rfl

end Sys2Proof.Machine
end

section
/-! PROOFS. Interrupt controllers: coalescing timers, claims, completions, ends of interrupt and software sources (R356 to R371). -/

namespace Sys2Proof.Machine

/-! ### Sources and stacks of a state -/

theorem State.after_irq1 (s : State) (f : W → W) (k : Nat) : (s.after f).irq1 k = (f s.w0).toState.irq1 k := rfl
theorem State.after_stkOf (s : State) (f : W → W) (tgt : Nat) : (s.after f).stkOf tgt = (f s.w0).stkOf tgt := rfl

/-- The running part of a source is read from the table of sources alone. -/
theorem State.irq1_congr {s t : State} (h : t.irq.src = s.irq.src) (k : Nat) : t.irq1 k = s.irq1 k := by rw [State.irq1, h, State.irq1]

@[simp] theorem W.irqSet_irq1_self (w : W) (k : Nat) (i : IrqSrc) : (w.irqSet k i).toState.irq1 k = i := Tbl.get_set_self ..
theorem W.irqSet_irq1_ne (w : W) {k j : Nat} (i : IrqSrc) (h : j ≠ k) : (w.irqSet k i).toState.irq1 j = w.toState.irq1 j :=
  Tbl.get_set_ne _ _ _ _ h
@[simp] theorem W.irqSet_stk (w : W) (k : Nat) (i : IrqSrc) : (w.irqSet k i).irq.stk = w.irq.stk := rfl
@[simp] theorem W.irqSet_stkOf (w : W) (k : Nat) (i : IrqSrc) (tgt : Nat) : (w.irqSet k i).stkOf tgt = w.stkOf tgt := rfl

/-! ### Completion (R359) -/

theorem W.irqComplete_active (w : W) (k : Nat) : ((w.irqComplete k).toState.irq1 k).active = false := by simp [W.irqComplete]
theorem W.irqComplete_doneFc (w : W) (k : Nat) : ((w.irqComplete k).toState.irq1 k).doneFc = w.fc + 1 := by simp [W.irqComplete]
theorem W.irqComplete_irq1_ne (w : W) {k j : Nat} (h : j ≠ k) : (w.irqComplete k).toState.irq1 j = w.toState.irq1 j :=
  W.irqSet_irq1_ne _ _ h
@[simp] theorem W.irqComplete_stk (w : W) (k : Nat) : (w.irqComplete k).irq.stk = w.irq.stk := rfl
@[simp] theorem W.irqComplete_stkOf (w : W) (k tgt : Nat) : (w.irqComplete k).stkOf tgt = w.stkOf tgt := rfl
@[simp] theorem W.irqComplete_regs (w : W) (k : Nat) : (w.irqComplete k).regs = w.regs := rfl
@[simp] theorem W.irqComplete_stores (w : W) (k : Nat) : (w.irqComplete k).stores = w.stores := rfl

/-! ### Coalescing timers (R356) -/

theorem effCoalesceTimerExpiry_expires {w : W} {k : Nat} (hedge : srcLevel k = false) (hpend : (w.toState.irq1 k).pending = false)
    (hev : (w.toState.irq1 k).events ≠ 0) (hctime : w.srcCtime k ≠ 0)
    (hdue : w.srcCtime k * 64 ≤ since w.herdTime (w.toState.irq1 k).tstart) :
    effCoalesceTimerExpiry k w = w.irqSet k { w.toState.irq1 k with pending := true, pendFc := w.fc + 1 } :=
  if_neg (by simp [hedge, hpend, hev, hctime, Nat.not_lt.2 hdue])

/-! ### Claims (R357, R367, R371) -/

/-- The stack entry that a claim of a shared source pushes. -/
def State.claimEnt (s : State) (k : Nat) : StkEnt := ⟨srcOrig k, if srcOrig k = 2 then srcUnit k else 0, srcNum k, s.srcPrio k⟩

/-- An entry goes on top of a target's stack. -/
def W.pushStack (w : W) (tgt : Nat) (e : StkEnt) : W := { w with irq.stk := w.irq.stk.put (w.stkKey tgt) (e :: w.stkOf tgt) }

/-- Source `k` becomes active at a target: what it reports is taken, and a shared source stands on the target's stack. -/
def W.claim (w : W) (tgt k : Nat) : W :=
  let v := w.irqSet k (claimed (w.toState.irq1 k) (srcLevel k) (w.srcTarget k) (w.srcCcount k) w.herdTime w.fc)
  if srcOrig k = 1 then v else v.pushStack tgt (w.claimEnt k)

/-- The word that a target's claim of source `k` reads. -/
def State.claimRead (s : State) (tgt k : Nat) : Nat :=
  claimWord (srcNum k) (srcOrig k) (s.srcPrio k) (reported (s.irq1 k) (srcLevel k) s.fc)
    (if tgt = 5000 ∨ tgt = 5001 then (if srcOrig k = 2 then srcUnit k else 0) else 0)

theorem effIrqClaim_none {w : W} {tgt : Nat} (hok : targetOk tgt = true) (h : w.irqWinner tgt = none) :
    effIrqClaim tgt w = w.out (claimAddr tgt) 0 := by
  simp only [effIrqClaim, hok, h]
  rfl

theorem effIrqClaim_some {w : W} {tgt k : Nat} (hok : targetOk tgt = true) (h : w.irqWinner tgt = some k) :
    effIrqClaim tgt w = (w.claim tgt k).out (claimAddr tgt) (w.claimRead tgt k) := by
  simp only [effIrqClaim, hok, h]
  rfl

theorem W.claim_of_bank (w : W) (tgt : Nat) {k : Nat} (h : srcOrig k = 1) : w.claim tgt k =
    w.irqSet k (claimed (w.toState.irq1 k) (srcLevel k) (w.srcTarget k) (w.srcCcount k) w.herdTime w.fc) := if_pos h

theorem W.claim_of_shared (w : W) (tgt : Nat) {k : Nat} (h : srcOrig k ≠ 1) : w.claim tgt k =
    (w.irqSet k (claimed (w.toState.irq1 k) (srcLevel k) (w.srcTarget k) (w.srcCcount k) w.herdTime w.fc)).pushStack tgt (w.claimEnt k) :=
  if_neg h

theorem W.claim_irq1_self (w : W) (tgt k : Nat) : (w.claim tgt k).toState.irq1 k =
    claimed (w.toState.irq1 k) (srcLevel k) (w.srcTarget k) (w.srcCcount k) w.herdTime w.fc := by
  by_cases h : srcOrig k = 1
  · rw [W.claim_of_bank w tgt h, W.irqSet_irq1_self]
  · rw [W.claim_of_shared w tgt h]
    exact W.irqSet_irq1_self ..

theorem W.claim_stk_of_bank (w : W) (tgt : Nat) {k : Nat} (h : srcOrig k = 1) : (w.claim tgt k).irq.stk = w.irq.stk := by
  rw [W.claim_of_bank w tgt h, W.irqSet_stk]

theorem W.claim_stk_of_shared (w : W) (tgt : Nat) {k : Nat} (h : srcOrig k ≠ 1) :
    (w.claim tgt k).irq.stk.find (w.stkKey tgt) = some (w.claimEnt k :: w.stkOf tgt) := by
  rw [W.claim_of_shared w tgt h]
  exact Tbl.find_put_self ..

@[simp] theorem W.claim_regs (w : W) (tgt k : Nat) : (w.claim tgt k).regs = w.regs := by
  unfold W.claim
  dsimp only
  split <;> rfl
@[simp] theorem W.claim_stores (w : W) (tgt k : Nat) : (w.claim tgt k).stores = w.stores := by
  unfold W.claim
  dsimp only
  split <;> rfl

/-- What a read of address `a` that returns `v` leaves in the state. -/
theorem State.after_out (s : State) (v : W) (a x : Nat) : let t := s.after fun _ => v.out a x
    Tbl.get 0 t.sta.regOut a = x ∧ t.irq = v.irq ∧ t.regs = v.regs ∧ (v.stores = [] → t.mem = s.mem) :=
  ⟨Tbl.get_set_self 0 v.sta.regOut a x, rfl, rfl, fun h => State.after_mem_of_no_stores h⟩

section
variable {s : State} {tgt : Nat} (hr : s.inReset = false) (hok : targetOk tgt = true)
include hr hok

theorem irqClaim_reads_zero (hw : s.irqWinner tgt = none) :
    ∃ t, exec (.irqClaim tgt) s = .next t ∧ Tbl.get 0 t.sta.regOut (claimAddr tgt) = 0 ∧ t.irq = s.irq ∧ t.regs = s.regs
      ∧ t.mem = s.mem := by
  obtain ⟨hread, hirq, hregs, hmem⟩ := s.after_out s.w0 (claimAddr tgt) 0
  exact ⟨_, run_const hr (effIrqClaim_none (w := s.w0) hok hw), hread, hirq, hregs, hmem s.w0_stores⟩

theorem irqClaim_claims {k : Nat} (hw : s.irqWinner tgt = some k) :
    ∃ t, exec (.irqClaim tgt) s = .next t
      ∧ t.irq1 k = claimed (s.irq1 k) (srcLevel k) (s.srcTarget k) (s.srcCcount k) s.herdTime s.fc
      ∧ Tbl.get 0 t.sta.regOut (claimAddr tgt) = s.claimRead tgt k
      ∧ (srcOrig k ≠ 1 → t.irq.stk.find (s.stkKey tgt) = some (s.claimEnt k :: s.stkOf tgt))
      ∧ (srcOrig k = 1 → t.irq.stk = s.irq.stk) ∧ t.regs = s.regs ∧ t.mem = s.mem := by
  obtain ⟨hread, hirq, hregs, hmem⟩ := s.after_out (s.w0.claim tgt k) (claimAddr tgt) (s.claimRead tgt k)
  refine ⟨_, run_const hr (effIrqClaim_some (w := s.w0) hok hw), ?_, hread, fun h => ?_, fun h => ?_, ?_, ?_⟩
  · exact (State.irq1_congr (congrArg Irq.src hirq) k).trans (W.claim_irq1_self ..)
  · exact (congrArg (fun i : Irq => i.stk.find (s.stkKey tgt)) hirq).trans (s.w0.claim_stk_of_shared tgt h)
  · exact (congrArg Irq.stk hirq).trans (s.w0.claim_stk_of_bank tgt h)
  · exact hregs.trans (W.claim_regs ..)
  · exact hmem (W.claim_stores ..)
end

/-! ### Completions by the core (R359, R362) -/

theorem effIrqDone_active {w : W} {st n : Nat} (hn : n < 32) (h : (w.toState.irq1 (bankSrc st n)).active = true) :
    effIrqDone st n w = w.irqComplete (bankSrc st n) := by
  rw [effIrqDone, Nat.mod_eq_of_lt hn, if_pos h]

theorem effIrqDone_inactive {w : W} {st n : Nat} (hn : n < 32) (h : (w.toState.irq1 (bankSrc st n)).active = false) :
    effIrqDone st n w = w.inc (stnB st) KSTN_IRQ_EVT.done_bad := by
  rw [effIrqDone, Nat.mod_eq_of_lt hn, if_neg (by simp [h])]

theorem irqDone_completes {s : State} {st n : Nat} (hr : s.inReset = false) (hn : n < 32) (h : (s.irq1 (bankSrc st n)).active = true) :
    ∃ t, exec (.irqDone st n) s = .next t ∧ (t.irq1 (bankSrc st n)).active = false ∧ (t.irq1 (bankSrc st n)).doneFc = s.fc + 1
      ∧ (∀ k, k ≠ bankSrc st n → t.irq1 k = s.irq1 k) ∧ t.irq.stk = s.irq.stk ∧ t.regs = s.regs ∧ t.mem = s.mem :=
  ⟨_, run_const hr (effIrqDone_active (w := s.w0) hn h), s.w0.irqComplete_active _, s.w0.irqComplete_doneFc _,
    fun _ hk => s.w0.irqComplete_irq1_ne hk, s.w0.irqComplete_stk _, s.w0.irqComplete_regs _,
    State.after_mem_of_no_stores (s.w0.irqComplete_stores _)⟩

/-! ### End of interrupt (R368) -/

/-- An end-of-interrupt write of a target names this entry: a region is compared where the FMP or the host names one. -/
def StkEnt.Named (e : StkEnt) (tgt orig reg num : Nat) : Prop :=
  e.orig = orig ∧ e.num = num ∧ (orig = 2 → tgt = 5000 ∨ tgt = 5001 → e.reg = reg)

/-- It does not name the entry: an origin, a number or a region that counts differs. -/
theorem StkEnt.not_named_iff {e : StkEnt} {tgt orig reg num : Nat} : ¬ e.Named tgt orig reg num ↔
    e.orig ≠ orig ∨ e.num ≠ num ∨ (orig = 2 ∧ (tgt = 5000 ∨ tgt = 5001) ∧ e.reg ≠ reg) := by
  simp only [StkEnt.Named, not_and_or, Classical.not_imp]

/-- The model compares an entry's region with the one written, or with itself at a core. -/
theorem StkEnt.named_iff_compared {e : StkEnt} {tgt orig reg num : Nat} : e.Named tgt orig reg num ↔
    e.orig = orig ∧ e.num = num ∧ (orig ≠ 2 ∨ e.reg = if tgt = 5000 ∨ tgt = 5001 then reg else e.reg) := by
  unfold StkEnt.Named
  by_cases h : tgt = 5000 ∨ tgt = 5001
  · simp only [h, forall_const, if_true, ne_eq, imp_iff_not_or]
  · simp [h]

/-- The targets with the FMP's or the host's number are those from 5000 on. -/
theorem targetOk_ge {tgt : Nat} (h : targetOk tgt = true) : 5000 ≤ tgt ↔ tgt = 5000 ∨ tgt = 5001 := by
  simp only [targetOk, Bool.or_eq_true, decide_eq_true_eq, beq_iff_eq] at h
  omega

section
variable {w : W} {tgt orig reg num : Nat} (hok : targetOk tgt = true)
include hok

theorem effEndOfInterrupt_named {e : StkEnt} {rest : List StkEnt} (hstk : w.stkOf tgt = e :: rest) (h : e.Named tgt orig reg num) :
    effEndOfInterrupt tgt orig reg num w = w.popStack tgt := by
  simp only [effEndOfInterrupt, hok, hstk]
  exact if_pos (StkEnt.named_iff_compared.1 h)

theorem effEndOfInterrupt_unnamed (h : ∀ e rest, w.stkOf tgt = e :: rest → ¬ e.Named tgt orig reg num) :
    effEndOfInterrupt tgt orig reg num w = w.eoiBad tgt := by
  cases hstk : w.stkOf tgt with
  | nil =>
    simp only [effEndOfInterrupt, hok, hstk]
    rfl
  | cons e rest =>
    simp only [effEndOfInterrupt, hok, hstk]
    exact if_neg fun hm => h e rest hstk (StkEnt.named_iff_compared.2 hm)
end

/-- A target's stack becomes `rest`; an empty stack has no entry in the table. -/
def W.setStack (w : W) (tgt : Nat) (rest : List StkEnt) : W :=
  { w with irq.stk := if rest = [] then w.irq.stk.del (w.stkKey tgt) else w.irq.stk.put (w.stkKey tgt) rest }

theorem W.setStack_stkOf (w : W) (tgt : Nat) (rest : List StkEnt) : (w.setStack tgt rest).stkOf tgt = rest := by
  change ((if rest = [] then w.irq.stk.del (w.stkKey tgt) else w.irq.stk.put (w.stkKey tgt) rest).find (w.stkKey tgt)).getD [] = rest
  split
  · rename_i h
    rw [Tbl.find_del_self, h]
    rfl
  · rw [Tbl.find_put_self]
    rfl

theorem W.popStack_cons {w : W} {tgt : Nat} {e : StkEnt} {rest : List StkEnt} (h : w.stkOf tgt = e :: rest) :
    w.popStack tgt = (w.setStack tgt rest).irqComplete e.src := by
  simp only [W.popStack, h]
  rfl

theorem endOfInterrupt_pops {s : State} {tgt orig reg num : Nat} {e : StkEnt} {rest : List StkEnt} (hr : s.inReset = false)
    (hok : targetOk tgt = true) (hstk : s.stkOf tgt = e :: rest) (h : e.Named tgt orig reg num) :
    ∃ t, exec (.endOfInterrupt tgt orig reg num) s = .next t ∧ t.stkOf tgt = rest ∧ (t.irq1 e.src).active = false
      ∧ (∀ k, k ≠ e.src → t.irq1 k = s.irq1 k) ∧ t.regs = s.regs ∧ t.mem = s.mem := by
  have heff : effEndOfInterrupt tgt orig reg num s.w0 = (s.w0.setStack tgt rest).irqComplete e.src :=
    (effEndOfInterrupt_named (w := s.w0) hok hstk h).trans (W.popStack_cons hstk)
  refine ⟨_, run_const hr heff, ?_, W.irqComplete_active .., fun k hk => ?_, rfl, State.after_mem_of_no_stores rfl⟩
  · rw [State.after_stkOf, W.irqComplete_stkOf, W.setStack_stkOf]
  · rw [State.after_irq1, W.irqComplete_irq1_ne _ hk]
    exact State.irq1_congr (s := s) rfl k

theorem endOfInterrupt_counts {s : State} {tgt orig reg num : Nat} (hr : s.inReset = false) (hok : targetOk tgt = true)
    (h : ∀ e rest, s.stkOf tgt = e :: rest → ¬ e.Named tgt orig reg num) :
    exec (.endOfInterrupt tgt orig reg num) s = .next (s.after fun w => w.eoiBad tgt) :=
  run_eq hr (effEndOfInterrupt_unnamed (w := s.w0) hok h)

/-! ### What a write that names no entry counts, and that it changes nothing else (R368) -/

theorem W.eoiBad_fmp (w : W) : w.eoiBad 5000 = w.inc intPB KINT_PEVT.eoi_bad_fmp := rfl
theorem W.eoiBad_host (w : W) : w.eoiBad 5001 = w.inc intPB KINT_PEVT.eoi_bad_host := rfl
theorem W.eoiBad_core (w : W) {tgt : Nat} (hfmp : tgt ≠ 5000) (hhost : tgt ≠ 5001) :
    w.eoiBad tgt = w.inc (stnB tgt) KSTN_IRQ_EVT.eoi_bad := (if_neg hfmp).trans (if_neg hhost)

theorem W.eoiBad_frame (w : W) (tgt : Nat) : w.eoiBad tgt = { w with regs := (w.eoiBad tgt).regs, evNow := (w.eoiBad tgt).evNow } := by
  unfold W.eoiBad
  split
  · rfl
  · split <;> rfl

@[simp] theorem W.eoiBad_irq (w : W) (tgt : Nat) : (w.eoiBad tgt).irq = w.irq := by rw [W.eoiBad_frame]

theorem State.after_eoiBad (s : State) (tgt : Nat) : let t := s.after fun w => w.eoiBad tgt
    t = { s with regs := t.regs, evNow := t.evNow } :=
  State.after_congr (g := fun w => { w with regs := (s.w0.eoiBad tgt).regs, evNow := (s.w0.eoiBad tgt).evNow }) (s.w0.eoiBad_frame tgt)

/-! ### The two statements -/

/-- Settles O48: the top entry decides, by whether the write names it. -/
theorem endOfInterrupt : Obligations.EndOfInterrupt := by
  refine ⟨?_, ?_⟩
  · intro s tgt orig reg num e rest hr hok hstk horig hnum hreg
    obtain ⟨t, hex, hpop, hdone, hothers, hregs, -⟩ := endOfInterrupt_pops hr hok hstk ⟨horig, hnum, hreg⟩
    exact ⟨t, hex, hpop, hdone, hothers, hregs⟩
  · intro s tgt orig reg num hr hok h
    refine ⟨_, endOfInterrupt_counts hr hok fun e rest hstk => StkEnt.not_named_iff.2 (h e rest hstk),
      s.w0.eoiBad_irq tgt, s.after_eoiBad tgt, ?_, ?_, ?_⟩
    · rintro rfl
      exact W.rd_inc_self ..
    · rintro rfl
      exact W.rd_inc_self ..
    · intro hfmp hhost
      rw [State.after_rd, W.eoiBad_core _ hfmp hhost]
      exact W.rd_inc_self ..

/-- Settles O24, a clause for each thing that a timer, a claim, a completion, an end of interrupt and a software source can do. -/
theorem interruptsAct : Obligations.InterruptsAct := by
  refine ⟨?_, ?_, ?_, ?_, ?_, ?_, ?_, ?_, ?_, ?_, ?_⟩
  · intro s k hr hedge hpend hev hctime hdue
    exact run_eq hr (effCoalesceTimerExpiry_expires (w := s.w0) hedge hpend hev hctime hdue)
  · intro s tgt hr hok hw
    exact irqClaim_reads_zero hr hok hw
  · intro s tgt k hr hok hw
    obtain ⟨t, hex, hsrc, hread, hshared, hbank, hregs, hmem⟩ := irqClaim_claims hr hok hw
    exact ⟨t, hex, by rw [hsrc]; rfl, by rw [hsrc]; rfl, by rw [hsrc]; rfl, hread, hshared, hbank, hregs, hmem⟩
  · intro s st n hr hn h
    exact irqDone_completes hr hn h
  · intro s st n hr hn h
    exact run_eq hr (effIrqDone_inactive (w := s.w0) hn h)
  · intro s tgt e rest hr hok hstk
    exact endOfInterrupt_pops hr hok hstk ⟨rfl, rfl, fun _ _ => rfl⟩
  · intro s tgt orig reg num hr hok h
    refine endOfInterrupt_counts hr hok fun e rest hstk => StkEnt.not_named_iff.2 ?_
    rw [← targetOk_ge hok]
    exact h e rest hstk
  · intro s st mask hr
    exact run_up (effIrqSet st mask) hr
  · intro s st mask hr h
    have hnone : (List.range 8).filter (fun n => bit mask (24 + n)) = [] := by simpa using h
    exact run_same hr (by rw [effIrqSet, hnone, W.each_nil])
  · intro s ctrl mask hr hc
    exact run_eq hr (if_pos hc)
  · intro s mask hr
    exact run_eq hr (if_neg (by decide))

end Sys2Proof.Machine
end

section
/-! PROOFS. Fences of stations (R404, R405, R407, R408). -/

namespace Sys2Proof.Machine

section
variable {s : State} {q slot st : Nat} {c : Cmd}

/-! ### STATION_FENCE (R404, R405) -/

/-- A STATION_FENCE of one context whose checks hold sets its flag and ends what is open of it. -/
theorem effStationFenceCtx_fences (hc : s.cmdAt q slot 0x0050 = some c) (hone : c.fenceEvery = false) (hst : st = s.phys c.fenceL)
    (hl : c.fenceL < s.nStations) (hctx : c.ctx ≠ 0) (hruns : s.fenceRuns c.fenceL false = false)
    (hmoves : s.spareMoves c.fenceL = false) (hwalk : s.rd (stnB st) KSTN_FENCE.walk ≠ 1)
    (hopen : Tbl.get false s.sta.fctx (st * 4096 + c.ctx) = false) :
    effStationFenceCtx q slot s.w0
      = ((W.endWork { s.w0 with sta.fctx := s.sta.fctx.put (st * 4096 + c.ctx) true } st (fun x => x == c.ctx) FENCED true).cmdStage
          q slot 1).fencePoll := by
  subst hst
  have hok : firstOf [(s.nStations ≤ c.fenceL || c.ctx == 0, BADOP),
      (s.fenceRuns c.fenceL false || s.spareMoves c.fenceL || s.rd (stnB (s.phys c.fenceL)) KSTN_FENCE.walk == 1, BUSY),
      (Tbl.get false s.sta.fctx (s.phys c.fenceL * 4096 + c.ctx), ALREADY)] = OK :=
    firstOf_none (by simp [hl, hctx, hruns, hmoves, hwalk, hopen])
  unfold effStationFenceCtx
  simp only [State.w0_toState, hc, hone]
  exact if_neg (not_not.mpr hok)

/-- A STATION_FENCE for every context whose checks hold fences the station. -/
theorem effStationFenceAll_fences (hc : s.cmdAt q slot 0x0050 = some c) (hall : c.fenceEvery = true) (hl : c.fenceL < s.nStations)
    (hruns : s.fenceRuns c.fenceL true = false) (hmoves : s.spareMoves c.fenceL = false)
    (hwalk : s.rd (stnB (s.phys c.fenceL)) KSTN_FENCE.walk ≠ 1) (hopen : s.fencedAll (s.phys c.fenceL) = false) :
    effStationFenceAll q slot s.w0 = ((s.w0.fenceAll (s.phys c.fenceL)).cmdStage q slot 1).fencePoll := by
  have hok : firstOf [(decide (s.nStations ≤ c.fenceL), BADOP),
      (s.fenceRuns c.fenceL true || s.spareMoves c.fenceL || s.rd (stnB (s.phys c.fenceL)) KSTN_FENCE.walk == 1, BUSY),
      (s.fencedAll (s.phys c.fenceL), ALREADY)] = OK :=
    firstOf_none (by simp [hl, hruns, hmoves, hwalk, hopen])
  unfold effStationFenceAll
  simp only [State.w0_toState, hc, hall]
  exact if_neg (not_not.mpr hok)

/-! ### STATION_UNFENCE (R408) -/

/-- A STATION_UNFENCE of one context whose checks hold clears its flag and ends OK. -/
theorem stationUnfenceCtx_clears (hr : s.inReset = false) (hc : s.Runs q slot 0x0051 c) (hone : c.fenceEvery = false)
    (hst : st = s.phys c.fenceL) (hl : c.fenceL < s.nStations) (hctx : c.ctx ≠ 0) (hruns : s.fenceRuns c.fenceL false = false)
    (hmoves : s.spareMoves c.fenceL = false) (hwalk : s.rd (stnB st) KSTN_FENCE.walk ≠ 1)
    (hfenced : Tbl.get false s.sta.fctx (st * 4096 + c.ctx) = true) :
    ∃ t, exec (.stationUnfenceCtx q slot) s = .next t ∧ Answered s t q c OK []
      ∧ t.sta.fctx = s.sta.fctx.del (st * 4096 + c.ctx) ∧ t.mem = s.mem ∧ t.net = s.net := by
  subst hst
  obtain ⟨hrun, hcmd⟩ := hc
  have hok : firstOf [(s.nStations ≤ c.fenceL || c.ctx == 0, BADOP),
      (s.fenceRuns c.fenceL false || s.spareMoves c.fenceL || s.rd (stnB (s.phys c.fenceL)) KSTN_FENCE.walk == 1, BUSY),
      (!Tbl.get false s.sta.fctx (s.phys c.fenceL * 4096 + c.ctx), ALREADY)] = OK :=
    firstOf_none (by simp [hl, hctx, hruns, hmoves, hwalk, hfenced])
  obtain ⟨v, hv⟩ : ∃ v : W, v = { s.w0 with sta.fctx := s.sta.fctx.del (s.phys c.fenceL * 4096 + c.ctx) } := ⟨_, rfl⟩
  have heff : effStationUnfenceCtx q slot s.w0 = v.answer q slot OK := by
    unfold effStationUnfenceCtx
    simp only [State.w0_toState, hrun, hone]
    rw [hv]
    exact if_neg (not_not.mpr hok)
  obtain ⟨hans, hmem, hnet, -⟩ := State.after_answer_of (v := v) (st := OK) (rd := []) hcmd (State.miomusUp_of_cmdAt hrun)
    (by rw [hv]; rfl) (by rw [hv]; rfl) (by rw [hv]; rfl)
  have hsta : (v.answer q slot OK).sta.fctx = s.sta.fctx.del (s.phys c.fenceL * 4096 + c.ctx) := by rw [W.answer_sta, hv]
  exact ⟨_, run_const hr heff, hans, hsta, hmem, hnet.trans (by rw [hv]; rfl)⟩

/-- A STATION_UNFENCE for every context whose checks hold starts the station again. -/
theorem effStationUnfenceAll_restarts (hc : s.cmdAt q slot 0x0051 = some c) (hall : c.fenceEvery = true) (hst : st = s.phys c.fenceL)
    (hl : c.fenceL < s.nStations) (hruns : s.fenceRuns c.fenceL false = false) (hmoves : s.spareMoves c.fenceL = false)
    (hwalk : s.rd (stnB st) KSTN_FENCE.walk ≠ 1) (hfenced : s.fencedAll st = true) :
    effStationUnfenceAll q slot s.w0 =
      let w := (s.w0.wr (stnB st) KSTN_FENCE.fenced_all 0).setSink st false
      (W.restart { w with sta.coreRst := w.sta.coreRst.del st } st).answer q slot OK := by
  subst hst
  have hok : firstOf [(decide (s.nStations ≤ c.fenceL), BADOP),
      (s.fenceRuns c.fenceL false || s.spareMoves c.fenceL || s.rd (stnB (s.phys c.fenceL)) KSTN_FENCE.walk == 1, BUSY),
      (!s.fencedAll (s.phys c.fenceL), ALREADY)] = OK :=
    firstOf_none (by simp [hl, hruns, hmoves, hwalk, hfenced])
  unfold effStationUnfenceAll
  simp only [State.w0_toState, hc, hall]
  exact if_neg (not_not.mpr hok)

end

/-! ### Directory walks (R407) -/

/-- A walk for a station that bears no logical number ends at its slice. -/
theorem W.walkStep_unnumbered {w : W} {slice : Nat} {x : Nat × Nat} (hx : w.msp.walks.find? (fun x => x.1 == slice) = some x)
    (hst : x.2 < 65536) (hnone : w.logi x.2 = none) : w.walkStep slice = w.walkDone x := by
  unfold W.walkStep
  rw [hx]
  dsimp only
  rw [if_pos hst, hnone]

/-- Settles O13, a clause for each command and one for a walk. -/
theorem stationFencesAct : Obligations.StationFencesAct := by
  unfold Obligations.StationFencesAct
  refine ⟨?fenceCtx, ?fenceAll, ?unfenceCtx, ?unfenceAll, ?walk⟩
  case fenceCtx =>
    intro s q slot c st hr hc hone hst hl hctx hruns hmoves hwalk hopen
    exact run_eq hr (effStationFenceCtx_fences hc.1 hone hst hl hctx hruns hmoves hwalk hopen)
  case fenceAll =>
    intro s q slot c hr hc hall hl hruns hmoves hwalk hopen
    exact run_eq hr (effStationFenceAll_fences hc.1 hall hl hruns hmoves hwalk hopen)
  case unfenceCtx =>
    intro s q slot c st hr hc hone hst hl hctx hruns hmoves hwalk hfenced
    exact stationUnfenceCtx_clears hr hc hone hst hl hctx hruns hmoves hwalk hfenced
  case unfenceAll =>
    intro s q slot c hr hc hall hl hruns hmoves hwalk hfenced
    exact run_eq hr (effStationUnfenceAll_restarts hc.1 hall rfl hl hruns hmoves hwalk hfenced)
  case walk =>
    intro s slice x hr hx hst hnone
    exact run_eq hr (congrArg W.fencePoll (W.walkStep_unnumbered (w := s.w0) hx hst hnone))

end Sys2Proof.Machine
end

section
/-! PROOFS. The sticky bits and the collector's flags (R382 to R384, R386): what a fault sets and what a clearing write leaves. -/

namespace Sys2Proof.Machine

/-! ### Bits -/

theorem bit_setBit_self (n i : Nat) (b : Bool) : bit (setBit n i b) i = b := by
  have hbase : bit (n - if bit n i then 2 ^ i else 0) i = false := by
    cases h : bit n i
    · simpa using h
    · rw [bit_eq_testBit] at h
      have hadd : 2 ^ i + (n - 2 ^ i) = n := Nat.add_sub_cancel' (Nat.ge_two_pow_of_testBit h)
      have hflip := Nat.testBit_two_pow_add_eq (n - 2 ^ i) i
      rw [hadd, h] at hflip
      rw [if_pos rfl, bit_eq_testBit]
      simpa using hflip.symm
  unfold setBit
  generalize n - (if bit n i then 2 ^ i else 0) = m at hbase ⊢
  cases b
  · exact hbase
  · rw [bit_eq_testBit] at hbase ⊢
    rw [if_pos rfl, Nat.add_comm, Nat.testBit_two_pow_add_eq, hbase, Bool.not_false]

/-- Taking away the bits that a mask names clears these and no other. -/
theorem testBit_sub_and (n m i : Nat) : (n - (n &&& m)).testBit i = (n.testBit i && !m.testBit i) := by
  induction i generalizing n m with
  | zero =>
    have hle : n &&& m ≤ n := Nat.and_le_left
    have hodd : (n &&& m) % 2 = 1 ↔ n % 2 = 1 ∧ m % 2 = 1 := Nat.and_mod_two_eq_one
    simp only [Nat.testBit_zero]
    rw [Bool.eq_iff_iff]
    simp only [decide_eq_true_eq, Bool.and_eq_true, Bool.not_eq_true', decide_eq_false_iff_not]
    omega
  | succ i ih =>
    have hle : n &&& m ≤ n := Nat.and_le_left
    have hodd : (n &&& m) % 2 = 1 ↔ n % 2 = 1 ∧ m % 2 = 1 := Nat.and_mod_two_eq_one
    have hhalf : (n - (n &&& m)) / 2 = n / 2 - (n / 2 &&& m / 2) := by
      rw [← Nat.and_div_two]
      omega
    rw [Nat.testBit_succ, hhalf, ih, Nat.testBit_succ, Nat.testBit_succ]

/-! ### Sticky bits (R383) -/

/-- Sticky bit `b` of group `g` is set. -/
def State.hasSticky (s : State) (g b : Nat) : Prop := bit (s.rd fltB (KFLT_STICKY.sticky.at g)) b = true

theorem State.hasSticky_congr {v w : State} (h : v.regs = w.regs) (g b : Nat) : v.hasSticky g b ↔ w.hasSticky g b := by
  rw [State.hasSticky, State.hasSticky, State.rd_congr h]

theorem W.sticky_hasSticky (w : W) (g : Nat) {b : Nat} (hb : b < 32) : (w.sticky g b).hasSticky g b := by
  rw [State.hasSticky, W.sticky, W.rd_flag_self, bit_eq_testBit, Nat.testBit_mod_two_pow, Nat.testBit_or,
    Nat.testBit_two_pow_self, Bool.or_true, Bool.and_true]
  exact decide_eq_true hb

theorem W.sticky_hasSticky_of_ne (w : W) {g h : Nat} (k b : Nat) (hne : g ≠ h) (hset : w.hasSticky h b) : (w.sticky g k).hasSticky h b := by
  rw [State.hasSticky, W.sticky, W.rd_flag_ne _ _ _ _ _ _ _ _ (sticky_key_inj hne)]
  exact hset

/-- The fault state is no sticky bit's register. -/
theorem fstate_key_ne_sticky (g : Nat) : KFLT_STATE.fstate.key fltB 0 ≠ (KFLT_STICKY.sticky.at g).key fltB 0 := by
  simp only [Fld.key, Fld.at, KFLT_STICKY.sticky, KFLT_STATE.fstate]
  omega

theorem W.sticky_fstate (w : W) (g b : Nat) : (w.sticky g b).rd fltB KFLT_STATE.fstate = w.rd fltB KFLT_STATE.fstate :=
  W.rd_flag_ne _ _ _ _ _ _ _ _ (fstate_key_ne_sticky g)

/-! ### A fault event (R383, R386, R389) -/

/-- A fault at a location of groups 0 to 11 sets the location's bit. -/
theorem W.fault_sets_location (w : W) (c : Nat) {l : Nat} (hl : l < 384) : (w.fault c l).hasSticky (l / 32) (l % 32) := by
  have hne : 12 ≠ l / 32 := by omega
  refine (State.hasSticky_congr (W.fault_regs ..) ..).mpr (W.sticky_hasSticky_of_ne _ _ _ hne ?_)
  exact W.sticky_hasSticky _ _ (Nat.mod_lt _ (by decide))

/-- A fault does not itself change the fault state. -/
theorem W.fault_fstate (w : W) (c l : Nat) : (w.fault c l).rd fltB KFLT_STATE.fstate = w.rd fltB KFLT_STATE.fstate := by
  rw [State.rd_congr (W.fault_regs w c l), W.sticky_fstate, W.sticky_fstate, W.traceFlt_rd _ _ _ _ _ _ ⟨by decide, by decide⟩]

/-- When the block enters FAULT after a fatal fault (R386): in the next fc, where it is out of the fault state and no entry waits. -/
def State.entryAfter (s : State) : Option Nat :=
  if s.rd fltB KFLT_STATE.fstate = 0 ∧ s.flt.entryFc = none then some (s.fc + 1) else s.flt.entryFc

theorem State.entryAfter_congr {v w : State} (hstate : v.rd fltB KFLT_STATE.fstate = w.rd fltB KFLT_STATE.fstate)
    (hentry : v.flt.entryFc = w.flt.entryFc) (hfc : v.fc = w.fc) : v.entryAfter = w.entryAfter := by
  rw [State.entryAfter, State.entryAfter, hstate, hentry, hfc]

theorem W.setClass_flt_of_fatal (w : W) {c : Nat} (hc : fatalClass c = true) :
    (w.setClass c).flt = { w.flt with lastFatal := w.herdTime, entryFc := w.entryAfter } := by
  have hentry : (w.sticky 12 c).entryAfter = w.entryAfter := State.entryAfter_congr (w.sticky_fstate 12 c) rfl rfl
  rw [← hentry]
  unfold W.setClass
  dsimp only
  rw [if_neg (by simp [hc])]
  split
  · rename_i h
    have hnow : (w.sticky 12 c).entryAfter = some (w.fc + 1) := if_pos ⟨h.1, Option.isNone_iff_eq_none.mp h.2⟩
    rw [hnow]
    rfl
  · rename_i h
    have hlater : (w.sticky 12 c).entryAfter = w.flt.entryFc := if_neg fun hg => h ⟨hg.1, Option.isNone_iff_eq_none.mpr hg.2⟩
    rw [hlater]
    rfl

theorem W.fault_flt_of_fatal (w : W) {c : Nat} (l : Nat) (hc : fatalClass c = true) :
    (w.fault c l).flt = { w.flt with lastFatal := w.herdTime, entryFc := w.entryAfter } := by
  have hstate : ((w.traceFlt l c).sticky (l / 32) (l % 32)).rd fltB KFLT_STATE.fstate = w.rd fltB KFLT_STATE.fstate := by
    rw [W.sticky_fstate, W.traceFlt_rd _ _ _ _ _ _ ⟨by decide, by decide⟩]
  have hflt : ((w.traceFlt l c).sticky (l / 32) (l % 32)).flt = w.flt := by simp
  have hentry : ((w.traceFlt l c).sticky (l / 32) (l % 32)).entryAfter = w.entryAfter :=
    State.entryAfter_congr hstate (congrArg Flt.entryFc hflt) (by simp)
  rw [W.fault, W.setClass_flt_of_fatal _ hc, hflt, hentry, W.sticky_herdTime, W.traceFlt_herdTime]

theorem W.fault_flt_of_not_fatal (w : W) {c : Nat} (l : Nat) (hc : fatalClass c = false) : (w.fault c l).flt = w.flt := by
  unfold W.fault W.setClass
  simp [hc]

/-- What a fatal fault sets, and what it leaves. -/
theorem W.fault_fatal_facts (w : W) {c l : Nat} (hc : fatalClass c = true) (hl : l < 384) : let v := w.fault c l
    v.rd fltB KFLT_STATE.fstate = w.rd fltB KFLT_STATE.fstate ∧ v.flt = { w.flt with lastFatal := w.herdTime, entryFc := w.entryAfter }
      ∧ v.hasClass c ∧ v.hasSticky (l / 32) (l % 32) ∧ v.stores = w.stores ∧ v.net = w.net ∧ v.plt = w.plt := by
  have hlt : c < 32 := by
    simp only [fatalClass, Bool.and_eq_true, decide_eq_true_eq] at hc
    omega
  exact ⟨w.fault_fstate c l, w.fault_flt_of_fatal l hc, w.fault_sets l hlt, w.fault_sets_location c hl, W.fault_stores ..,
    W.fault_net .., W.fault_plt ..⟩

/-! ### Clearing (R383, R384) -/

/-- A state without the window counts of its locations. -/
def W.noLoc (w : W) : W := { w with flt.loc := [] }

theorem W.clearSticky_noLoc (w : W) (g m : Nat) :
    (w.clearSticky g m).noLoc = (w.clearW1c fltB (KFLT_STICKY.sticky.at g) m).noLoc := by
  unfold W.clearSticky
  extract_lets old v left
  split
  · exact W.each_inv (fun u => u.noLoc = v.noLoc) _ _ v rfl fun _ _ _ h => h
  · rfl

theorem W.regs_of_noLoc {v w : W} (h : v.noLoc = w.noLoc) : v.regs = w.regs := by have e := congrArg (fun x : W => x.regs) h; exact e
theorem W.stores_of_noLoc {v w : W} (h : v.noLoc = w.noLoc) : v.stores = w.stores := by
  have e := congrArg (fun x : W => x.stores) h; exact e
theorem W.net_of_noLoc {v w : W} (h : v.noLoc = w.noLoc) : v.net = w.net := by have e := congrArg (fun x : W => x.net) h; exact e
theorem W.present_of_noLoc {v w : W} (h : v.noLoc = w.noLoc) : v.flt.present = w.flt.present := by
  have e := congrArg (fun x : W => x.flt.present) h; exact e

/-- The bits that the mask names go, but those that an event of this fc set (R16). -/
theorem W.clearSticky_bit (w : W) (g m : Nat) {b : Nat} (hb : b < 32) :
    bit ((w.clearSticky g m).rd fltB (KFLT_STICKY.sticky.at g)) b
      = (bit (w.rd fltB (KFLT_STICKY.sticky.at g)) b && !bit m b || bit (w.evSince fltB (KFLT_STICKY.sticky.at g)) b && bit m b) := by
  have hwidth : b < (KFLT_STICKY.sticky.at g).width := hb
  rw [State.rd_congr (W.regs_of_noLoc (w.clearSticky_noLoc g m)), W.rd_clearW1c_self]
  simp only [bit_eq_testBit, Nat.testBit_mod_two_pow, Nat.testBit_or, Nat.testBit_and, testBit_sub_and, hwidth, decide_true, Bool.true_and]

theorem W.clearSticky_rd_ne (w : W) (g m : Nat) {f : Fld} (h : f.key fltB 0 ≠ (KFLT_STICKY.sticky.at g).key fltB 0) :
    (w.clearSticky g m).rd fltB f = w.rd fltB f := by
  rw [State.rd_congr (W.regs_of_noLoc (w.clearSticky_noLoc g m)), W.clearW1c, W.rd_wr_ne _ _ _ _ _ _ _ _ h]

end Sys2Proof.Machine
end

section
/-! PROOFS. The fault collector and the fault state (R379 to R392, R411). -/

namespace Sys2Proof.Machine

/-! ### Reports of fatal classes (R382, R386) -/

theorem fatalClass_of_isCondition {c : Nat} (h : isCondition c = true) : fatalClass c = true := by
  simp only [isCondition, Bool.or_eq_true, beq_iff_eq, clTREE, clGOV, clCOLLECTOR] at h
  rcases h with (rfl | rfl) | rfl
  · rfl
  · rfl
  · rfl

/-- The report of a condition makes it present. -/
def W.reported (w : W) (cls : Nat) : W := if isCondition cls then w.setPresent cls true else w

theorem W.setPresent_fstate (w : W) (cls : Nat) (on : Bool) :
    (w.setPresent cls on).rd fltB KFLT_STATE.fstate = w.rd fltB KFLT_STATE.fstate := W.rd_wr_ne _ _ _ _ _ _ _ _ (by decide)

theorem W.setPresent_present (w : W) (cls : Nat) (on : Bool) : bit (w.setPresent cls on).flt.present cls = on := bit_setBit_self ..

theorem W.setPresent_fatalNow (w : W) (cls : Nat) (on : Bool) :
    (w.setPresent cls on).rd fltB KFLT_STATE.fatal_now = if (w.setPresent cls on).flt.present = 0 then 0 else 1 := by
  refine W.rd_wr_val _ _ _ _ _ _ (Nat.mod_eq_of_lt ?_)
  split
  · decide
  · decide

theorem W.reported_facts (w : W) (cls : Nat) : let v := w.reported cls
    v.bareF = w.bareF ∧ v.entryAfter = w.entryAfter ∧ v.rd fltB KFLT_STATE.fstate = w.rd fltB KFLT_STATE.fstate
      ∧ (isCondition cls = true → bit v.flt.present cls = true) ∧ (isCondition cls = false → v.flt.present = w.flt.present) := by
  unfold W.reported
  split
  · rename_i h
    have hstate := w.setPresent_fstate cls true
    exact ⟨rfl, State.entryAfter_congr hstate rfl rfl, hstate, fun _ => w.setPresent_present cls true,
      fun hn => absurd (h.symm.trans hn) (by decide)⟩
  · rename_i h
    exact ⟨rfl, rfl, rfl, fun hy => absurd hy h, fun _ => rfl⟩

theorem effFaultEntry_reports {w : W} {cls loc : Nat} (hc : fatalClass cls = true) (hl : loc < 384) :
    effFaultEntry cls loc true w = (w.reported cls).fault cls loc := by
  have hgo : ¬ ((!fatalClass cls) = true ∨ 384 ≤ loc) := by simp [hc, hl]
  unfold effFaultEntry W.reported
  rw [if_neg hgo, apply_ite (fun v : W => v.fault cls loc)]
  rfl

theorem effFaultEntry_ends {w : W} {cls loc : Nat} (hc : isCondition cls = true) (hl : loc < 384) :
    effFaultEntry cls loc false w = w.setPresent cls false := by
  have hgo : ¬ ((!fatalClass cls) = true ∨ 384 ≤ loc) := by simp [fatalClass_of_isCondition hc, hl]
  unfold effFaultEntry
  rw [if_neg hgo, if_pos hc]
  rfl

theorem faultEntry_reports {s : State} {cls loc : Nat} (hr : s.inReset = false) (hc : fatalClass cls = true) (hl : loc < 384) :
    ∃ t, exec (.faultEntry cls loc true) s = .next t ∧ t.rd fltB KFLT_STATE.fstate = s.rd fltB KFLT_STATE.fstate
      ∧ t.flt.entryFc = s.entryAfter ∧ t.flt.lastFatal = s.herdTime ∧ t.hasClass cls ∧ t.hasSticky (loc / 32) (loc % 32)
      ∧ (isCondition cls = true → bit t.flt.present cls = true) ∧ (isCondition cls = false → t.flt.present = s.flt.present)
      ∧ t.mem = s.mem ∧ t.net = s.net ∧ t.plt = s.plt := by
  have heff := effFaultEntry_reports (w := s.w0) hc hl
  obtain ⟨hbare, hentry, hstate, hon, hoff⟩ := s.w0.reported_facts cls
  generalize s.w0.reported cls = u at *
  obtain ⟨hstate', hflt, hclass, hloc, hstores, hnet, hplt⟩ := u.fault_fatal_facts hc hl
  generalize u.fault cls loc = v at *
  refine ⟨_, run_const hr heff, hstate'.trans hstate, ?_, ?_, hclass, hloc, ?_, ?_,
    State.after_mem_of_no_stores (hstores.trans (W.stores_of_bareF hbare)), hnet.trans (W.net_of_bareF hbare),
    hplt.trans (W.plt_of_bareF hbare)⟩
  · rw [State.after_flt, hflt]
    exact hentry
  · rw [State.after_flt, hflt]
    exact W.herdTime_of_bareF hbare
  · rw [State.after_flt, hflt]
    exact hon
  · rw [State.after_flt, hflt]
    exact hoff

/-- FORCED stands in group 11 at the fault collector (assumption log row 116). -/
theorem injFatal_forces {s : State} (hr : s.inReset = false) :
    ∃ t, exec .injFatal s = .next t ∧ t.flt.entryFc = s.entryAfter ∧ t.flt.lastFatal = s.herdTime ∧ t.hasClass clFORCED
      ∧ t.hasSticky 11 7 ∧ t.mem = s.mem ∧ t.net = s.net := by
  obtain ⟨-, hflt, hclass, hloc, hstores, hnet, -⟩ := s.w0.fault_fatal_facts (c := clFORCED) (l := locPkg 7) rfl (by decide)
  have heff : effInjFatal s.w0 = s.w0.fault clFORCED (locPkg 7) := rfl
  generalize s.w0.fault clFORCED (locPkg 7) = v at *
  refine ⟨_, run_const hr heff, ?_, ?_, hclass, hloc, State.after_mem_of_no_stores hstores, hnet⟩
  · rw [State.after_flt, hflt]
    rfl
  · rw [State.after_flt, hflt]
    rfl

/-! ### Entry, quiet time and release (R386, R389) -/

theorem W.wr_fstate (w : W) (v : Nat) (hv : v < 4) : (w.wr fltB KFLT_STATE.fstate v).rd fltB KFLT_STATE.fstate = v :=
  W.rd_wr_val _ _ _ _ _ _ (Nat.mod_eq_of_lt hv)

theorem W.enterFault_fstate (w : W) : w.enterFault.rd fltB KFLT_STATE.fstate = 1 := w.wr_fstate 1 (by decide)

/-- Where a fatal fault waits for its entry, the cycle's end enters FAULT. -/
theorem W.advance_enters {w : W} (hwait : w.flt.entryFc.isSome = true) (hstate : w.rd fltB KFLT_STATE.fstate = 0) :
    w.advance.rd fltB KFLT_STATE.fstate = 1 ∧ w.advance.flt.entryPeriod = true ∧ w.advance.flt.entered = w.fc + 1
      ∧ w.advance.flt.entryFc = none := by
  have hbare := w.irqRecount_bare
  have hwait' : w.irqRecount.flt.entryFc.isSome = true := by rw [W.flt_of_bare hbare, hwait]
  have hstate' : w.irqRecount.rd fltB KFLT_STATE.fstate = 0 := (State.rd_congr w.irqRecount_regs ..).trans hstate
  rw [← W.fc_of_bare hbare]
  unfold W.advance
  dsimp only
  generalize w.irqRecount = v at *
  rw [if_pos]
  · refine ⟨W.enterFault_fstate .., rfl, ?_, rfl⟩
    cases v.isPaused
    · rfl
    · rfl
  · cases v.isPaused
    · exact ⟨hwait', hstate'⟩
    · exact ⟨hwait', hstate'⟩

/-- Release where no write is held issues none. -/
theorem W.release_of_no_held {w : W} (h : w.msp.held = []) : w.release =
    { w.wr fltB KFLT_STATE.fstate 0 with
      msp.held := [], flt.entryPeriod := false, ep := w.ep.map (fun e => (e.1, e.2.shift (w.fc - w.flt.entered))) } := by
  unfold W.release
  rw [h]
  rfl

/-- The block is in FAULT, no condition is present, and the quiet time is over. -/
structure State.QuietOver (s : State) : Prop where
  inFault : s.rd fltB KFLT_STATE.fstate = 1
  noCondition : s.flt.present = 0
  quiet : 20000000 ≤ since s.herdTime s.flt.lastFatal

section
variable {s : State} (hq : s.QuietOver)
include hq

theorem State.QuietOver.passes : ¬ (s.rd fltB KFLT_STATE.fstate ≠ 1 ∨ s.flt.present ≠ 0 ∨ since s.herdTime s.flt.lastFatal < 20000000) := by
  obtain ⟨hstate, hnone, hquiet⟩ := hq
  rintro (h | h | h)
  · exact h hstate
  · exact h hnone
  · omega

/-- The ninth recovery in the window latches the block. -/
theorem quietTimerExpiry_latches (hr : s.inReset = false) (hwin : 8 ≤ s.rcWin) :
    ∃ t, exec .quietTimerExpiry s = .next t ∧ t.rd fltB KFLT_STATE.fstate = 2 ∧ t.flt = s.flt ∧ t.mem = s.mem ∧ t.net = s.net := by
  have heff : effQuietTimerExpiry s.w0 = s.w0.wr fltB KFLT_STATE.fstate 2 := (if_neg hq.passes).trans (if_pos hwin)
  exact ⟨_, run_const hr heff, s.w0.wr_fstate 2 (by decide), rfl, rfl, rfl⟩

/-- The block is released and the recovery counted and stamped. -/
theorem effQuietTimerExpiry_recovers (hwin : s.rcWin < 8) :
    effQuietTimerExpiry s.w0 = { s.w0.release.inc fltB KFLT_RCV.recoveries with
      flt.stamps := s.flt.stamps.filter (fun x => since s.herdTime x < 2000000000) ++ [s.herdTime] } :=
  (if_neg hq.passes).trans (if_neg (Nat.not_le.mpr hwin))

theorem quietTimerExpiry_releases (hr : s.inReset = false) (hwin : s.rcWin < 8) (hheld : s.msp.held = []) :
    ∃ t, exec .quietTimerExpiry s = .next t ∧ t.rd fltB KFLT_STATE.fstate = 0 ∧ t.flt.entryPeriod = false
      ∧ t.flt.stamps = s.flt.stamps.filter (fun x => since s.herdTime x < 2000000000) ++ [s.herdTime]
      ∧ t.mem = s.mem ∧ t.net = s.net := by
  have heff := effQuietTimerExpiry_recovers hq hwin
  rw [W.release_of_no_held hheld] at heff
  refine ⟨_, run_const hr heff, ?_, rfl, rfl, rfl, rfl⟩
  refine (W.rd_inc_ne _ _ _ _ _ _ _ _ (by decide)).trans ?_
  exact s.w0.wr_fstate 0 (by decide)

end

/-! ### STOT (R391) -/

theorem stotToggle_toggles {s : State} (hr : s.inReset = false) (hdue : s.fc % 2000000 = 0) (honce : s.flt.stotFc ≠ s.fc + 1)
    (hrun : s.stotRun = true) (hentry : s.flt.entryFc = none) (hbit : s.rd fltB KFLT_STOT.stot ≤ 1) :
    ∃ t, exec .stotToggle s = .next t ∧ t.rd fltB KFLT_STOT.stot = 1 - s.rd fltB KFLT_STOT.stot ∧ t.flt.stotFc = s.fc + 1
      ∧ t.mem = s.mem ∧ t.net = s.net := by
  have hgo : ¬ (s.fc % 2000000 ≠ 0 ∨ s.flt.stotFc = s.fc + 1 ∨ (!s.stotRun) = true ∨ s.flt.entryFc.isSome = true) := by
    simp [hdue, honce, hrun, hentry]
  have heff : effStotToggle s.w0 = { s.w0.wr fltB KFLT_STOT.stot (1 - s.rd fltB KFLT_STOT.stot) with flt.stotFc := s.fc + 1 } :=
    if_neg hgo
  have hsmall : 1 - s.rd fltB KFLT_STOT.stot < 2 ^ 1 := by omega
  exact ⟨_, run_const hr heff, W.rd_wr_val _ _ _ _ _ _ (Nat.mod_eq_of_lt hsmall), rfl, rfl, rfl⟩

/-! ### Error windows (R384, R385) -/

/-- The first error of a window that leaves its location's count within `lt_count` starts the window. -/
theorem W.onError_starts {w : W} {src wt : Nat} (hl : (Tbl.get {} w.flt.loc src).lasting = false) (hn : (Tbl.get {} w.flt.loc src).n = 0)
    (hwt : wt ≤ 255) (hc : wt ≤ w.rd fltB KFLT_CFG.lt_count) :
    Tbl.get {} (w.onError src wt).flt.loc src = { n := wt, t0 := w.herdTime, lasting := false } := by
  unfold W.onError
  extract_lets e win fresh n t0 last src' v
  have hfresh : fresh := Or.inl hn
  have hcount : n = wt := by simp [n, hfresh, hwt]
  have hstart : t0 = w.herdTime := if_pos hfresh
  have hlast : last = false := decide_eq_false (by omega)
  rw [if_neg (by simp [e, hl]), hlast, if_neg (by decide)]
  simp [v, hcount, hstart, hlast]

/-- An error within the window that takes its location's count above `lt_count` makes the location lasting: a fault of class LASTING
there, of which Miomus is told. -/
theorem W.onError_of_window {w : W} {src wt : Nat} {e : LocWin} (he : Tbl.get {} w.flt.loc src = e) (hl : e.lasting = false)
    (hn : e.n ≠ 0) (hwin : since w.herdTime e.t0 < w.rd fltB KFLT_CFG.lt_win * 2000) (hmax : e.n + wt ≤ 255)
    (hc : w.rd fltB KFLT_CFG.lt_count < e.n + wt) :
    w.onError src wt =
      let v := W.fault { w with flt.loc := Tbl.set {} w.flt.loc src { n := e.n + wt, t0 := e.t0, lasting := true } } clLASTING src
      { v with flt.escal := w.flt.escal ++ [src] } := by
  have hfresh : ¬ (e.n = 0 ∨ w.rd fltB KFLT_CFG.lt_win * 2000 ≤ since w.herdTime e.t0) := not_or.mpr ⟨hn, Nat.not_le.mpr hwin⟩
  unfold W.onError
  simp only [he, hl, if_neg hfresh, Nat.min_eq_right hmax, hc, decide_true, if_true, Bool.false_eq_true, if_false]

theorem W.onError_lasts {w : W} {src wt : Nat} (hsrc : src < 384) (hl : (Tbl.get {} w.flt.loc src).lasting = false)
    (hn : (Tbl.get {} w.flt.loc src).n ≠ 0) (hwin : since w.herdTime (Tbl.get {} w.flt.loc src).t0 < w.rd fltB KFLT_CFG.lt_win * 2000)
    (hmax : (Tbl.get {} w.flt.loc src).n + wt ≤ 255) (hc : w.rd fltB KFLT_CFG.lt_count < (Tbl.get {} w.flt.loc src).n + wt) :
    let t := w.onError src wt
    (Tbl.get {} t.flt.loc src).lasting = true ∧ t.hasSticky (src / 32) (src % 32) ∧ t.hasClass clLASTING
      ∧ t.flt.escal = w.flt.escal ++ [src] := by
  rw [W.onError_of_window rfl hl hn hwin hmax hc]
  generalize hv : { w with flt.loc := Tbl.set {} w.flt.loc src _ } = v
  have hflt : (v.fault clLASTING src).flt = v.flt := v.fault_flt_of_not_fatal src rfl
  have hloc := v.fault_sets_location clLASTING hsrc
  have hclass := v.fault_sets (c := clLASTING) src (by decide)
  generalize v.fault clLASTING src = u at *
  refine ⟨?_, hloc, hclass, rfl⟩
  dsimp only
  rw [hflt, ← hv]
  simp

/-! ### Clearing by Miomus (R383, R389, R390) -/

theorem stickyClearWrite_clears {s : State} {grp mask : Nat} (hr : s.inReset = false) (hg : grp < 32) :
    ∃ t, exec (.stickyClearWrite grp mask) s = .next t
      ∧ (∀ b, b < 32 → bit (t.rd fltB (KFLT_STICKY.sticky.at grp)) b
          = (bit (s.rd fltB (KFLT_STICKY.sticky.at grp)) b && !bit mask b
            || bit (s.evSince fltB (KFLT_STICKY.sticky.at grp)) b && bit mask b))
      ∧ (∀ g, g < 32 → g ≠ grp → t.rd fltB (KFLT_STICKY.sticky.at g) = s.rd fltB (KFLT_STICKY.sticky.at g))
      ∧ t.mem = s.mem ∧ t.net = s.net := by
  have heff : effStickyClearWrite grp mask s.w0 = s.w0.clearSticky grp mask := if_pos hg
  have hkeep := s.w0.clearSticky_noLoc grp mask
  exact ⟨_, run_const hr heff, fun b hb => W.clearSticky_bit s.w0 grp mask hb,
    fun g _ hne => W.clearSticky_rd_ne s.w0 grp mask (sticky_key_inj hne.symm),
    State.after_mem_of_no_stores (W.stores_of_noLoc hkeep), W.net_of_noLoc hkeep⟩

/-- The groups that a FAULT_CLEAR names are cleared, one after the other. -/
def W.clearNamed (w : W) (c : Cmd) (n : Nat) : W :=
  w.each (List.range n) (fun w i => w.clearSticky (bits (le c.bytes (24 + 8 * i) 4) 0 5) (le c.bytes (28 + 8 * i) 4))

theorem W.clearNamed_facts (w : W) (c : Cmd) (n : Nat) :
    (w.clearNamed c n).rd fltB KFLT_STATE.fstate = w.rd fltB KFLT_STATE.fstate ∧ (w.clearNamed c n).flt.present = w.flt.present := by
  refine W.each_inv (fun v => v.rd fltB KFLT_STATE.fstate = w.rd fltB KFLT_STATE.fstate ∧ v.flt.present = w.flt.present) _ _ w ⟨rfl, rfl⟩ ?_
  rintro v i - ⟨hstate, hpresent⟩
  exact ⟨(W.clearSticky_rd_ne _ _ _ (fstate_key_ne_sticky _)).trans hstate,
    (W.present_of_noLoc (v.clearSticky_noLoc ..)).trans hpresent⟩

/-- The status of a FAULT_CLEAR whose groups are cleared (R389, R390). -/
def State.clearStatus (s : State) (unlatch : Bool) : Nat :=
  if !unlatch then OK else if !(s.rd fltB KFLT_STATE.fstate == 2) then ALREADY else if s.flt.present ≠ 0 then BUSY else OK

/-- The end of a FAULT_CLEAR whose groups are cleared. -/
def W.endClear (w : W) (q slot : Nat) (unlatch : Bool) : W :=
  let v : W := if unlatch && w.clearStatus unlatch == OK then { w.release with flt.stamps := [] } else w
  v.answer q slot (w.clearStatus unlatch) (toLE 4 v.fltGroups)

theorem effFaultClear_clears {w : W} {q slot n : Nat} {c : Cmd} (hc : w.cmdAt q slot 0x0081 = some c) (hn : n = bits (le c.bytes 17 1) 0 3)
    (hmax : n ≤ 5) : effFaultClear q slot w = (w.clearNamed c n).endClear q slot (bit (le c.bytes 16 1) 0) := by
  subst hn
  unfold effFaultClear
  rw [hc]
  exact if_neg (Nat.not_lt.mpr hmax)

/-- A FAULT_CLEAR that does not release the block ends with status `st`. -/
structure State.ClearEnds (s : State) (unlatch : Bool) (st : Nat) : Prop where
  plain : unlatch = false → st = OK
  notLatched : unlatch = true → s.rd fltB KFLT_STATE.fstate ≠ 2 → st = ALREADY
  condition : unlatch = true → s.rd fltB KFLT_STATE.fstate = 2 → s.flt.present ≠ 0 → st = BUSY
  stays : unlatch = true → s.rd fltB KFLT_STATE.fstate = 2 → s.flt.present ≠ 0

/-- Its status is `st`, which is OK only where `unlatch` is not set. -/
theorem State.ClearEnds.status {s : State} {unlatch : Bool} {st : Nat} (h : s.ClearEnds unlatch st) :
    s.clearStatus unlatch = st ∧ (unlatch && st == OK) = false := by
  unfold State.clearStatus
  cases unlatch
  · exact ⟨(h.plain rfl).symm, rfl⟩
  · by_cases hlatched : s.rd fltB KFLT_STATE.fstate = 2
    · have hpresent := h.stays rfl hlatched
      rw [h.condition rfl hlatched hpresent]
      exact ⟨by simp [hlatched, hpresent], rfl⟩
    · rw [h.notLatched rfl hlatched]
      exact ⟨by simp [hlatched], rfl⟩

theorem W.endClear_answers {w : W} {unlatch : Bool} {st : Nat} (h : w.ClearEnds unlatch st) (q slot : Nat) :
    w.endClear q slot unlatch = w.answer q slot st (toLE 4 w.fltGroups) := by
  obtain ⟨hst, hstays⟩ := h.status
  rw [W.endClear, hst, hstays]
  rfl

theorem W.endClear_releases {w : W} (hlatched : w.rd fltB KFLT_STATE.fstate = 2) (hnone : w.flt.present = 0) (q slot : Nat) :
    w.endClear q slot true = W.answer { w.release with flt.stamps := [] } q slot OK (toLE 4 w.release.fltGroups) := by
  have hst : w.clearStatus true = OK := by simp [State.clearStatus, hlatched, hnone]
  rw [W.endClear, hst]
  rfl

section
variable {s : State} {q slot : Nat} {c : Cmd} (hr : s.inReset = false) (hc : s.Runs q slot 0x0081 c)
include hr hc

/-- A FAULT_CLEAR that ends on the state as it was. -/
theorem faultClear_answers {st : Nat} (heff : effFaultClear q slot s.w0 = s.w0.answer q slot st (toLE 4 s.fltGroups)) :
    ∃ t, exec (.faultClear q slot) s = .next t ∧ Answered s t q c st (toLE 4 s.fltGroups) ∧ t.mem = s.mem ∧ t.net = s.net
      ∧ t.flt = s.flt := by
  obtain ⟨hans, hmem, hnet, -⟩ := State.after_answer_of (v := s.w0) (st := st) (rd := toLE 4 s.fltGroups) hc.2
    (State.miomusUp_of_cmdAt hc.1) rfl rfl rfl
  exact ⟨_, run_const hr heff, hans, hmem, hnet, W.answer_flt ..⟩

theorem faultClear_tooMany (hn : 5 < bits (le c.bytes 17 1) 0 3) :
    ∃ t, exec (.faultClear q slot) s = .next t ∧ Answered s t q c BADOP (toLE 4 s.fltGroups) ∧ t.mem = s.mem ∧ t.net = s.net
      ∧ t.flt = s.flt := by
  refine faultClear_answers hr hc ?_
  unfold effFaultClear
  simp only [State.w0_toState, hc.1]
  exact if_pos hn

theorem faultClear_none (hn : bits (le c.bytes 17 1) 0 3 = 0) (hplain : bit (le c.bytes 16 1) 0 = false) :
    ∃ t, exec (.faultClear q slot) s = .next t ∧ Answered s t q c OK (toLE 4 s.fltGroups) ∧ t.mem = s.mem ∧ t.net = s.net
      ∧ t.flt = s.flt := by
  refine faultClear_answers hr hc ?_
  rw [effFaultClear_clears (w := s.w0) hc.1 hn.symm (by decide), hplain]
  rfl

theorem faultClear_ends {n st : Nat} (hn : n = bits (le c.bytes 17 1) 0 3) (hmax : n ≤ 5)
    (hend : s.ClearEnds (bit (le c.bytes 16 1) 0) st) :
    exec (.faultClear q slot) s = .next (s.after fun w =>
      (w.clearNamed c n).answer q slot st (toLE 4 (w.clearNamed c n).fltGroups)) := by
  obtain ⟨hstate, hpresent⟩ := s.w0.clearNamed_facts c n
  obtain ⟨hplain, hnot, hcond, hstays⟩ := hend
  refine run_eq hr ((effFaultClear_clears (w := s.w0) hc.1 hn hmax).trans (W.endClear_answers ?_ q slot))
  exact ⟨hplain, by rw [hstate]; exact hnot, by rw [hstate, hpresent]; exact hcond, by rw [hstate, hpresent]; exact hstays⟩

theorem faultClear_unlatches {n : Nat} (hn : n = bits (le c.bytes 17 1) 0 3) (hmax : n ≤ 5) (hun : bit (le c.bytes 16 1) 0 = true)
    (hlatched : s.rd fltB KFLT_STATE.fstate = 2) (hnone : s.flt.present = 0) :
    exec (.faultClear q slot) s = .next (s.after fun w =>
      W.answer { (w.clearNamed c n).release with flt.stamps := [] } q slot OK (toLE 4 (w.clearNamed c n).release.fltGroups)) := by
  obtain ⟨hstate, hpresent⟩ := s.w0.clearNamed_facts c n
  refine run_eq hr ((effFaultClear_clears (w := s.w0) hc.1 hn hmax).trans ?_)
  rw [hun]
  exact W.endClear_releases (hstate.trans hlatched) (hpresent.trans hnone) q slot

end

/-- Settles O22, a clause for each event and each way it can go. That FORCED stands at group 11 bit 7 is assumption log row 116. -/
theorem faultsAct : Obligations.FaultsAct := by
  unfold Obligations.FaultsAct
  refine ⟨?report, ?ends, ?enters, ?latches, ?recovers, ?releases, ?stot, ?forced, ?corr, ?uncorr, ?starts, ?lasts, ?w1c, ?tooMany,
    ?none, ?clears, ?unlatches⟩
  case report => exact fun s cls loc hr hc hl => faultEntry_reports hr hc hl
  case ends =>
    intro s cls loc hr hc hl
    exact ⟨_, run_const hr (effFaultEntry_ends (w := s.w0) hc hl), s.w0.setPresent_present cls false, rfl,
      s.w0.setPresent_fatalNow cls false, s.w0.setPresent_fstate cls false, rfl, rfl, rfl, rfl⟩
  case enters => exact fun s hwait hstate => W.advance_enters (w := s.w0) hwait hstate
  case latches => exact fun s hr h1 h2 h3 hwin => quietTimerExpiry_latches ⟨h1, h2, h3⟩ hr hwin
  case recovers => exact fun s hr h1 h2 h3 hwin => run_eq hr (effQuietTimerExpiry_recovers ⟨h1, h2, h3⟩ hwin)
  case releases => exact fun s hr h1 h2 h3 hwin hheld => quietTimerExpiry_releases ⟨h1, h2, h3⟩ hr hwin hheld
  case stot => exact fun s hr hdue honce hrun hentry hbit => stotToggle_toggles hr hdue honce hrun hentry hbit
  case forced => exact fun s hr => injFatal_forces hr
  case corr => exact fun s src hr hs => run_eq hr (if_pos hs)
  case uncorr => exact fun s src hr hs => run_eq hr (if_pos hs)
  case starts => exact fun s src wt _ hl hn hwt hc => W.onError_starts (w := s.w0) hl hn hwt hc
  case lasts => exact fun s src wt hs hl hn hwin hmax hc => W.onError_lasts (w := s.w0) hs hl hn hwin hmax hc
  case w1c => exact fun s grp mask hr hg => stickyClearWrite_clears hr hg
  case tooMany => exact fun s q slot c hr hc hn => faultClear_tooMany hr hc hn
  case none => exact fun s q slot c hr hc hn hplain => faultClear_none hr hc hn hplain
  case clears =>
    intro s q slot c n st hr hc hn hmax hplain hnot hcond hstays
    exact faultClear_ends hr hc hn hmax
      { plain := hplain, notLatched := hnot, condition := hcond, stays := fun hu hl hp => hstays hu hl hp }
  case unlatches =>
    intro s q slot c n hr hc hn hmax hun hlatched hnone
    exact faultClear_unlatches hr hc hn hmax hun hlatched hnone

end Sys2Proof.Machine
end

section
/-! PROOFS. Resets, the clock and the test access port (R433, R440 to R442, R476, R477): the cold state, the state that a warm reset
leaves, and what a block held in reset takes. -/

namespace Sys2Proof.Machine

/-! ### What each reset leaves -/

/-- What BLOCK_RESET and HRST_N leave (R435, R441), as a record: the registers are those that the warm reset has written. -/
def State.warmed (s : State) : State :=
  { s.cold with
    fc := s.fc
    herdTime := s.herdTime
    regs := s.w0.warm.regs
    boot := { s.cold.boot with
      sitesLeft := (List.range s.fuse.cdSites).filter (fun x => !s.powered x)
      pdNext := s.fc + 4000000 } }

theorem W.eq_of_noRegs {v w : W} (h : v.noRegs = w.noRegs) : v = { w with regs := v.regs } := by
  have e := congrArg (fun x : W => { x with regs := v.regs }) h
  exact e

theorem State.w0_warm (s : State) : s.w0.warm = s.warmed.w0 := W.eq_of_noRegs s.w0.warm_noRegs

/-- An effect that stores nothing and keeps the memories and the queue leaves the state it computes. -/
theorem State.after_eq {s t : State} {f : W → W} (h : f s.w0 = t.w0) (hmem : t.mem = s.mem) (hq : t.pending = s.pending) :
    s.after f = t := by
  rw [State.w0] at h
  rw [State.after, h, ← hmem, ← hq]
  rfl

theorem exec_porstNAssert_eq (s : State) : exec .porstNAssert s = .next { s.cold with boot := { s.cold.boot with porstN := false } } := rfl

theorem exec_pwrgdInFall_eq (s : State) :
    exec .pwrgdInFall s = .next { s.cold with boot := { s.cold.boot with pwrgd := false, clk := false } } := rfl

theorem exec_hrstNAssert_eq {s : State} {n : Nat} (hlong : 2000 ≤ n) (hp : s.boot.porstN = true) (hg : s.boot.pwrgd = true) :
    exec (.hrstNAssert n) s = .next { s.warmed with boot := { s.warmed.boot with hrstN := false } } := by
  have heff : effHrstNAssert n s.w0 = { s.w0.warm with boot := { s.w0.warm.boot with hrstN := false } } := by
    simp [effHrstNAssert, hlong, hp, hg]
  rw [State.w0_warm] at heff
  exact congrArg _ (State.after_eq heff rfl rfl)

theorem exec_blockReset_eq {s : State} {q slot : Nat} (hr : s.inReset = false) (hreq : s.boot.rstReq = true) (hq : q < 4)
    (hop : le (s.slotBytes q slot) 0 2 = 0x61) : exec (.blockReset q slot) s = .next s.warmed := by
  have heff : effBlockReset q slot s.w0 = s.w0.warm := if_pos ⟨hreq, hq, hop⟩
  exact (run_up _ hr).trans (congrArg _ (State.after_eq (heff.trans s.w0_warm) rfl rfl))

theorem exec_hrstNRelease_eq {s : State} (hlow : s.boot.hrstN = false) :
    exec .hrstNRelease s = .next { s with boot.hrstN := true, boot.pdNext := s.fc + 4000000 } := by
  have heff : effHrstNRelease s.w0 = State.w0 { s with boot.hrstN := true, boot.pdNext := s.fc + 4000000 } :=
    if_neg (by simp [hlow])
  exact congrArg _ (State.after_eq heff rfl rfl)

/-- A block with the host's reset, or its power, low is in reset. -/
theorem State.inReset_of_pwrgd {s : State} (h : s.boot.pwrgd = false) : s.inReset = true := by simp [State.inReset, h]
theorem State.inReset_of_hrstN {s : State} (h : s.boot.hrstN = false) : s.inReset = true := by simp [State.inReset, h]

/-! ### The obligations -/

/-- Settles O3, a clause for each pin. That memories keep their content is assumption log row 6, and that `pdNext` is set at the
release of HRST_N is row 9. -/
theorem resetPinsAct : Obligations.ResetPinsAct := by
  unfold Obligations.ResetPinsAct
  refine ⟨?porstLow, ?porstHigh, ?powerFalls, ?hrstLow, ?hrstHigh, ?clockLocks, ?testReset⟩
  case porstLow =>
    intro s
    exact ⟨_, exec_porstNAssert_eq s, rfl, rfl, rfl, rfl, rfl, rfl, rfl, rfl, rfl, rfl, rfl, rfl, rfl, rfl, rfl, rfl, rfl, rfl, rfl⟩
  case porstHigh => exact fun s => rfl
  case powerFalls =>
    intro s
    exact ⟨_, exec_pwrgdInFall_eq s, State.inReset_of_pwrgd rfl, rfl, rfl, rfl, rfl, rfl, rfl, rfl, rfl, rfl⟩
  case hrstLow =>
    intro s n hlong hp hg
    exact ⟨_, exec_hrstNAssert_eq hlong hp hg, State.inReset_of_hrstN rfl, rfl, rfl, rfl, rfl, rfl, rfl, rfl, rfl, rfl, rfl⟩
  case hrstHigh => exact fun s hlow => exec_hrstNRelease_eq hlow
  case clockLocks => exact fun s => rfl
  case testReset => exact fun s => rfl

/-- Settles O4: the state is the warm one. That memories keep their content is assumption log row 6. -/
theorem blockResetActs : Obligations.BlockResetActs := by
  unfold Obligations.BlockResetActs
  intro s q slot hr hreq hq hop
  exact ⟨_, exec_blockReset_eq hr hreq hq hop, rfl, rfl, rfl, rfl, rfl, rfl, rfl, rfl, rfl, rfl, rfl, rfl⟩

/-- Settles O58: every command but the pins' runs under `run`, which keeps the state of a block in reset (assumption log row 11). -/
theorem resetHolds : Obligations.ResetHolds := by
  unfold Obligations.ResetHolds
  intro c s hpin hreset
  obtain ⟨f, hf⟩ := exec_eq_run_of_not_isPin hpin
  rw [hf s, run_down f hreset]

/-- Settles O50: each field of the register is cut out of the sum that `State.idcode` is. -/
theorem idcodeReads : Obligations.IdcodeReads := by
  unfold Obligations.IdcodeReads
  intro s hmfr
  unfold State.idcode bits
  omega

end Sys2Proof.Machine
end

section
/-! PROOFS. Power, proof and sleep of die sites (R442, R444, R448, R449). -/

namespace Sys2Proof.Machine

/-! ### What the steps of a site do -/

section
variable {w : W} {site : Nat}

theorem effPdGoodRise_powers (hon : w.rd gblB KGBL_SITE.pon site ≠ 0) (hoff : w.powered site = false) :
    effPdGoodRise site w = ({ w.wr gblB KGBL_SITE.pgood 1 site with boot.pdT := w.boot.pdT.del site } : W).powerPoll :=
  if_neg (by simp [hon, hoff])

/-- A site without `pd_good` 2^22 fc after its `pd_on` has failed; no die substitution waits for it. -/
theorem effPdGoodTimeout_fails {t0 : Nat} (hfind : w.boot.pdT.find site = some t0) (hoff : w.powered site = false)
    (hlate : t0 + 2 ^ 22 ≤ w.fc) (hspare : w.flt.spare = none) :
    effPdGoodTimeout site w = ({ w.siteFail site with boot.pdT := w.boot.pdT.del site } : W).powerPoll := by
  have hgo : ¬ (w.powered site = true ∨ w.fc < t0 + 2 ^ 22) := not_or.mpr ⟨by simp [hoff], Nat.not_lt.mpr hlate⟩
  have hspare' : (w.siteFail site).flt.spare = none := hspare
  simp only [effPdGoodTimeout, hfind, hgo, hspare', if_false]

/-- Whatever proof finds, the management port is ready in the end: in proof hold it answers too (R442, R445). -/
theorem effProofEnd_ready (recs : List ProofRec) (ptime : Nat) (hstage : w.rd gblB KGBL_BOOT.stage = 2) :
    (effProofEnd recs ptime w).rd gblB KGBL_BOOT.mp_ready = 1 := by
  unfold effProofEnd
  rw [if_neg (by simp [hstage])]
  exact W.rd_wr_self ..

theorem effSleepRequest_asks (hon : w.powered site = true) (hnew : w.rd gblB KGBL_SITE.slp_req site ≠ 1) :
    effSleepRequest site w
      = (w.wr gblB KGBL_SITE.slp_req 1 site).wr gblB KGBL_SITE.slp_wait (if w.sleepReady site then 0 else 1) site :=
  if_neg (by simp [hon, hnew])

theorem effBondRetrainEnd_ends (hack : w.rd gblB KGBL_SITE.slp_ack site ≠ 0) (hreq : w.rd gblB KGBL_SITE.slp_req site ≠ 1) :
    effBondRetrainEnd site w = (w.siteSinks site false).wr gblB KGBL_SITE.slp_ack 0 site :=
  if_neg (by simp [hack, hreq])

/-- Sinks are registers alone. -/
theorem W.siteSinks_noRegs (w : W) (site : Nat) (on : Bool) : (w.siteSinks site on).noRegs = w.noRegs :=
  W.each_inv (fun v => v.noRegs = w.noRegs) _ _ _ rfl fun _ _ _ h => h

theorem W.siteSinks_irq (w : W) (site : Nat) (on : Bool) : (w.siteSinks site on).irq = w.irq := by
  have e := congrArg (fun x : W => x.irq) (w.siteSinks_noRegs site on)
  exact e

/-- The interrupt state of a site goes from its banks and stacks into retention (R373). -/
def W.retain (w : W) (site : Nat) : W :=
  { w with
    irq.src := w.irq.src.filter (fun e => !siteSrc site e.1)
    irq.stk := w.irq.stk.filter (fun e => !siteStk site e.1)
    irq.saved := w.irq.saved.put site (w.irq.src.filter (fun e => siteSrc site e.1), w.irq.stk.filter (fun e => siteStk site e.1)) }

theorem effSleepSave_retains (hreq : w.rd gblB KGBL_SITE.slp_req site ≠ 0) (hack : w.rd gblB KGBL_SITE.slp_ack site ≠ 1)
    (hready : w.sleepReady site = true) : effSleepSave site w
      = (((w.siteSinks site true).retain site).wr gblB KGBL_SITE.slp_wait 0 site).wr gblB KGBL_SITE.slp_ack 1 site := by
  unfold effSleepSave
  rw [if_neg (by simp [hreq, hack, hready])]
  dsimp only
  rw [List.partition_eq_filter_filter, List.partition_eq_filter_filter]
  rfl

/-- The save acknowledges the sleep; in retention stand the sources and stacks that the site had. -/
theorem effSleepSave_saves (hreq : w.rd gblB KGBL_SITE.slp_req site ≠ 0) (hack : w.rd gblB KGBL_SITE.slp_ack site ≠ 1)
    (hready : w.sleepReady site = true) : (effSleepSave site w).rd gblB KGBL_SITE.slp_ack site = 1
      ∧ (effSleepSave site w).irq.saved.find site
        = some (w.irq.src.filter (fun e => siteSrc site e.1), w.irq.stk.filter (fun e => siteStk site e.1)) := by
  have hirq := w.siteSinks_irq site true
  rw [effSleepSave_retains hreq hack hready]
  generalize w.siteSinks site true = v at hirq
  rw [← hirq]
  exact ⟨W.rd_wr_self .., Tbl.find_put_self ..⟩

/-- The interrupt state comes back from retention, whose entry is given up. -/
def W.unretain (w : W) (site : Nat) (src : List (Nat × IrqSrc)) (stk : List (Nat × List StkEnt)) : W :=
  (W.each { w with irq.saved := w.irq.saved.del site } src (fun w e => w.irqSet e.1 (w.woken e.1 e.2))).each stk
    (fun w e => { w with irq.stk := w.irq.stk.put e.1 e.2 })

theorem W.unretain_facts (w : W) (site : Nat) (src : List (Nat × IrqSrc)) (stk : List (Nat × List StkEnt)) : let v := w.unretain site src stk
    v.regs = w.regs ∧ v.irq.saved = w.irq.saved.del site := by
  refine W.each_inv (fun v => v.regs = w.regs ∧ v.irq.saved = w.irq.saved.del site) _ _ _ ?_ fun _ _ _ h => h
  exact W.each_inv (fun v => v.regs = w.regs ∧ v.irq.saved = w.irq.saved.del site) _ _ _ ⟨rfl, rfl⟩ fun _ _ _ h => h

/-- The request of a site and its wait are over. -/
def W.unasked (w : W) (site : Nat) : W := (w.wr gblB KGBL_SITE.slp_req 0 site).wr gblB KGBL_SITE.slp_wait 0 site

theorem W.unasked_slpReq (w : W) (site : Nat) : (w.unasked site).rd gblB KGBL_SITE.slp_req site = 0 := by
  rw [W.unasked, W.rd_wr_ne _ _ _ _ _ _ _ _ (Fld.key_ne _ _ (by decide) (by decide) (by decide)), W.rd_wr_self]
  rfl

theorem effWakeRequest_cases (hreq : w.rd gblB KGBL_SITE.slp_req site ≠ 0) : effWakeRequest site w =
    match w.irq.saved.find site with
    | none => w.unasked site
    | some x => (w.unasked site).unretain site x.1 x.2 := by
  unfold effWakeRequest
  rw [if_neg hreq]
  dsimp only [W.wr_irq]
  rcases w.irq.saved.find site with _ | ⟨src, stk⟩
  · rfl
  · rfl

/-- A wake ends the request and leaves nothing in retention, whether or not the save was made. -/
theorem effWakeRequest_wakes (hreq : w.rd gblB KGBL_SITE.slp_req site ≠ 0) :
    (effWakeRequest site w).rd gblB KGBL_SITE.slp_req site = 0 ∧ (effWakeRequest site w).irq.saved.find site = none := by
  have hlow := w.unasked_slpReq site
  rw [effWakeRequest_cases hreq]
  cases hsaved : w.irq.saved.find site with
  | none => exact ⟨hlow, hsaved⟩
  | some x =>
    obtain ⟨hregs, hgone⟩ := (w.unasked site).unretain_facts site x.1 x.2
    dsimp only
    rw [State.rd_congr hregs, hgone]
    exact ⟨hlow, Tbl.find_del_self ..⟩

end

/-! ### The obligation -/

/-- Settles O5, a clause for each event. That `slp_wait` is fixed at the request and a wake restores at once is assumption log
row 119. -/
theorem sitePowerActs : Obligations.SitePowerActs := by
  unfold Obligations.SitePowerActs
  refine ⟨?powers, ?fails, ?proved, ?asks, ?saves, ?wakes, ?retrained⟩
  case powers => exact fun s site hr hon hoff => run_eq hr (effPdGoodRise_powers (w := s.w0) hon hoff)
  case fails =>
    exact fun s site t0 hr hfind hoff hlate hspare => run_eq hr (effPdGoodTimeout_fails (w := s.w0) hfind hoff hlate hspare)
  case proved => exact fun s recs ptime hr hstage => ⟨_, run_up _ hr, effProofEnd_ready (w := s.w0) recs ptime hstage⟩
  case asks => exact fun s site hr hon hnew => run_eq hr (effSleepRequest_asks (w := s.w0) hon hnew)
  case saves =>
    intro s site hr hreq hack hready
    exact ⟨_, run_up _ hr, effSleepSave_saves (w := s.w0) hreq hack hready⟩
  case wakes => exact fun s site hr hreq => ⟨_, run_up _ hr, effWakeRequest_wakes (w := s.w0) hreq⟩
  case retrained => exact fun s site hr hack hreq => run_eq hr (effBondRetrainEnd_ends (w := s.w0) hack hreq)

end Sys2Proof.Machine
end

section
/-! PROOFS. What the management port takes (R451, R462 to R465, R478): test access, posted commands, fetch and the host's packets. -/

namespace Sys2Proof.Machine

/-! ### Test access and the tail register -/

/-- An access through KDBG leaves it busy, be it a read or a write. -/
theorem effKdbgUpdate_busy {w : W} {dr : Nat} (hen : w.fuse.dbgEn = true) (hfree : w.boot.kdbgBusy = false) :
    (effKdbgUpdate dr w).boot.kdbgBusy = true := by
  simp only [effKdbgUpdate, hen, hfree, Bool.not_true, Bool.false_eq_true, if_false]
  split
  · rfl
  · rfl

theorem effCtailWrite_posts {w : W} {q : Nat} (val : Nat) {who : Who} (hp : who.priv = true) (hq : q < 4) :
    (effCtailWrite q val who w).rd (cmdB q) KCMD_QTAIL.ctail = val % 128 := by
  unfold effCtailWrite
  rw [if_neg (by simp [hp, hq])]
  exact W.rd_wr_val _ _ _ _ _ _ (Nat.mod_mod _ _)

/-! ### Fetch -/

theorem W.advanceHead_facts (w : W) (q : Nat) : (w.advanceHead q).boot = w.boot ∧ (w.advanceHead q).fc = w.fc
    ∧ (w.advanceHead q).rd fltB KFLT_STATE.fstate = w.rd fltB KFLT_STATE.fstate := by
  have hkey (f : Fld) (hf : f.lsb < 32) (hoff : f.off < 0x100) (hq : f.off ≠ 0) (v : W) (x : Nat) :
      (v.wr (cmdB q) f x).rd fltB KFLT_STATE.fstate = v.rd fltB KFLT_STATE.fstate := by
    refine W.rd_wr_ne _ _ _ _ _ _ _ _ ?_
    simp only [Fld.key, KFLT_STATE.fstate, cmdB, fltB]
    omega
  unfold W.advanceHead
  dsimp only
  split
  · exact ⟨rfl, rfl, (hkey _ (by decide) (by decide) (by decide) _ _).trans (hkey _ (by decide) (by decide) (by decide) _ _)⟩
  · exact ⟨rfl, rfl, hkey _ (by decide) (by decide) (by decide) _ _⟩

/-- The state of the block's collector stands in no command queue's registers. -/
theorem W.inc_running_fstate (w : W) (q : Nat) :
    (w.inc (cmdB q) KCMD_QHEAD.running).rd fltB KFLT_STATE.fstate = w.rd fltB KFLT_STATE.fstate := by
  refine W.rd_inc_ne _ _ _ _ _ _ _ _ ?_
  simp only [Fld.key, KFLT_STATE.fstate, KCMD_QHEAD.running]
  omega

/-- A command that is no copy, passes the first checks and is no BLOCK_RESET runs, outside proof hold (R462 to R464). -/
theorem W.startCmd_runs {w : W} {q : Nat} {bs : List Byte} (h ph : Nat) (hclean : cmdClean bs = true) (hop : le bs 0 2 ≠ 0x61)
    (hnew : ∀ r ∈ w.recsOf q, r.tag ≠ le bs 2 2) (hhold : w.rd fltB KFLT_STATE.fstate ≠ 3) :
    (w.startCmd q h ph bs).boot.cmds = w.boot.cmds ++ [{ q := q, slot := h, bytes := bs, fc := w.fc }] := by
  have htrace := w.traceCmd_boot 1 (le bs 0 2) (le bs 2 2) 0 q
  have hfc := w.traceCmd_fc 1 (le bs 0 2) (le bs 2 2) 0 q
  have hstate := w.traceCmd_rd 1 (le bs 0 2) (le bs 2 2) 0 q fltB KFLT_STATE.fstate 0 ⟨by decide, by decide⟩
  unfold W.startCmd
  dsimp only
  generalize w.traceCmd 1 (le bs 0 2) (le bs 2 2) 0 q = v at *
  have hrecs : v.recsOf q = w.recsOf q := by rw [State.recsOf, htrace]; rfl
  have hcopy : (v.recsOf q).find? (fun r => r.tag == le bs 2 2 && r.opcode == le bs 0 2) = none := by
    rw [hrecs]
    exact List.find?_eq_none.mpr fun r hr => by simp [hnew r hr]
  have htwice : (v.recsOf q).any (fun r => r.tag == le bs 2 2) = false := by
    rw [hrecs]
    exact List.any_eq_false.mpr fun r hr => by simp [hnew r hr]
  have hout (u : W) (hu : u.regs = (v.inc (cmdB q) KCMD_QHEAD.running).regs) : u.rd fltB KFLT_STATE.fstate ≠ 3 := by
    rw [State.rd_congr hu, W.inc_running_fstate, hstate]
    exact hhold
  rw [hcopy, htwice, hclean]
  simp only [Bool.not_true, Bool.false_eq_true, if_false, Bool.or_self]
  rw [if_neg, if_neg hop]
  · rw [← htrace, ← hfc]
    rfl
  · simp only [Bool.and_eq_true, decide_eq_true_eq, not_and]
    exact fun hs => absurd hs (hout _ rfl)

theorem effCommandFetch_fetches {w : W} {q : Nat} (hready : w.rd gblB KGBL_BOOT.mp_ready ≠ 0) (hen : w.rd (cmdB q) KCMD_QCFG.qen ≠ 0)
    (hposted : w.rd (cmdB q) KCMD_QHEAD.chead ≠ w.rd (cmdB q) KCMD_QTAIL.ctail) (hroom : w.rd (cmdB q) KCMD_QHEAD.running < 8)
    (hup : w.miomusUp = true) (hq : q < 4) :
    effCommandFetch q w = (w.advanceHead q).startCmd q (w.rd (cmdB q) KCMD_QHEAD.chead) (w.rd (cmdB q) KCMD_QHEAD.cphase)
      (w.slotBytes q (w.rd (cmdB q) KCMD_QHEAD.chead)) :=
  if_neg (by simp [hready, hen, hposted, Nat.not_le.mpr hroom, hup, Nat.not_le.mpr hq])

/-- The fetched command runs if it passes the checks that `W.startCmd` makes. -/
theorem effCommandFetch_runs {w : W} {q h : Nat} {bs : List Byte} (hh : h = w.rd (cmdB q) KCMD_QHEAD.chead) (hbs : bs = w.slotBytes q h)
    (hready : w.rd gblB KGBL_BOOT.mp_ready ≠ 0) (hen : w.rd (cmdB q) KCMD_QCFG.qen ≠ 0) (hposted : h ≠ w.rd (cmdB q) KCMD_QTAIL.ctail)
    (hroom : w.rd (cmdB q) KCMD_QHEAD.running < 8) (hup : w.miomusUp = true) (hq : q < 4) (hhold : w.rd fltB KFLT_STATE.fstate ≠ 3)
    (hclean : cmdClean bs = true) (hop : le bs 0 2 ≠ 0x61) (hnew : ∀ r ∈ w.recsOf q, r.tag ≠ le bs 2 2) :
    (effCommandFetch q w).boot.cmds = w.boot.cmds ++ [{ q := q, slot := h, bytes := bs, fc := w.fc }] := by
  subst hh
  obtain ⟨hboot, hfc, hstate⟩ := w.advanceHead_facts q
  rw [effCommandFetch_fetches hready hen hposted hroom hup hq, ← hbs, ← hboot, ← hfc]
  refine W.startCmd_runs _ _ hclean hop ?_ (hstate ▸ hhold)
  rw [State.recsOf, hboot]
  exact hnew

/-! ### The obligation -/

/-- Settles O6, a clause for each input. That the host's VC has room for 64 beats is assumption log row 16. -/
theorem managementInputs : Obligations.ManagementInputs := by
  unfold Obligations.ManagementInputs
  refine ⟨?testAccess, ?tail, ?fetch, ?host⟩
  case testAccess => exact fun s dr hr hen hfree => ⟨_, run_up _ hr, effKdbgUpdate_busy (w := s.w0) hen hfree⟩
  case tail => exact fun s q val who hr hp hq => ⟨_, run_up _ hr, effCtailWrite_posts (w := s.w0) val hp hq⟩
  case fetch =>
    intro s q hr hq hready hen hposted hroom hup hhold hclean hop hnew
    exact ⟨_, run_up _ hr, effCommandFetch_runs (w := s.w0) rfl rfl hready hen hposted hroom hup hq hhold hclean hop hnew⟩
  case host =>
    intro s p hr hready hroom hok
    refine run_eq hr ((if_neg ?_).trans (if_neg (by simp [hok])))
    exact not_or.mpr ⟨hready, Nat.not_le.mpr hroom⟩

end Sys2Proof.Machine
end

section
/-! PROOFS. Commands that report (R465), and the settings of the host: PAUSE_SET (R467), PATCH_LOAD (R457, R458), CIRCUIT_TABLE (R344). -/

namespace Sys2Proof.Machine

/-! ### Reports -/

/-- A command whose whole effect is its answer leaves everything but commands and reports. -/
theorem run_answers {s : State} {q slot op st : Nat} {rd : List Byte} {c : Cmd} {f : W → W} (hr : s.inReset = false)
    (hc : s.Runs q slot op c) (heff : f s.w0 = s.w0.answer q slot st rd) :
    ∃ t, run f s = .next t ∧ Answered s t q c st rd ∧ t.mem = s.mem ∧ t.herdTime = s.herdTime ∧ t.net = s.net ∧ t.plt = s.plt
      ∧ t.cx = s.cx ∧ t.flt = s.flt := by
  obtain ⟨hans, hmem, hnet, hplt, -⟩ := State.after_answer_of (v := s.w0) (st := st) (rd := rd) hc.2 (State.miomusUp_of_cmdAt hc.1)
    rfl rfl rfl
  exact ⟨_, run_const hr heff, hans, hmem, W.answer_herdTime .., hnet, hplt, W.answer_cx .., W.answer_flt ..⟩

/-- Settles O7: each report is an answer and no more. -/
theorem reportsAnswer : Obligations.ReportsAnswer := by
  unfold Obligations.ReportsAnswer
  refine ⟨?identify, ?proofReport, ?herdStatus, ?faultRead⟩
  case identify =>
    intro s q slot c hr hc
    exact run_answers hr hc (by rw [effIdentify, State.w0_toState, hc.1])
  case proofReport =>
    intro s q slot c hr hc
    exact run_answers hr hc (by rw [effProofReport, State.w0_toState, hc.1])
  case herdStatus =>
    intro s q slot c hr hc
    exact run_answers hr hc (by rw [effHerdStatus, State.w0_toState, hc.1])
  case faultRead =>
    intro s q slot c hr hc
    exact run_answers hr hc (by rw [effFaultRead, State.w0_toState, hc.1])

/-! ### PAUSE_SET -/

/-- The registers of the pause that PAUSE_SET writes (R467). -/
def W.pauseSet (w : W) (c : Cmd) : W :=
  if bit (le c.bytes 17 1) 7 then
    (w.wr hrdB KPLT_PAUSE.host_q (bits (le c.bytes 16 1) 0 7)).wr hrdB KPLT_PAUSE.thr_q (bits (le c.bytes 17 1) 0 7)
  else w.wr hrdB KPLT_PAUSE.host_q (bits (le c.bytes 16 1) 0 7)

theorem bits_mod_width (n lo w : Nat) : bits n lo w % 2 ^ w = bits n lo w := Nat.mod_mod _ _

theorem W.pauseSet_noRegs (w : W) (c : Cmd) : (w.pauseSet c).noRegs = w.noRegs := by
  unfold W.pauseSet
  split
  · rfl
  · rfl

theorem W.pauseSet_hostQ (w : W) (c : Cmd) : (w.pauseSet c).rd hrdB KPLT_PAUSE.host_q = bits (le c.bytes 16 1) 0 7 := by
  unfold W.pauseSet
  split
  · rw [W.rd_wr_ne _ _ _ _ _ _ _ _ (by decide)]
    exact W.rd_wr_val _ _ _ _ _ _ (bits_mod_width ..)
  · exact W.rd_wr_val _ _ _ _ _ _ (bits_mod_width ..)

theorem W.pauseSet_thrQ (w : W) (c : Cmd) : (w.pauseSet c).rd hrdB KPLT_PAUSE.thr_q
    = if bit (le c.bytes 17 1) 7 then bits (le c.bytes 17 1) 0 7 else w.rd hrdB KPLT_PAUSE.thr_q := by
  unfold W.pauseSet
  split
  · exact W.rd_wr_val _ _ _ _ _ _ (bits_mod_width ..)
  · exact W.rd_wr_ne _ _ _ _ _ _ _ _ (by decide)

theorem W.pauseSet_qNow (w : W) (c : Cmd) : (w.pauseSet c).rd hrdB KPLT_PAUSE.q_now = w.rd hrdB KPLT_PAUSE.q_now := by
  unfold W.pauseSet
  split
  · rw [W.rd_wr_ne _ _ _ _ _ _ _ _ (by decide), W.rd_wr_ne _ _ _ _ _ _ _ _ (by decide)]
  · exact W.rd_wr_ne _ _ _ _ _ _ _ _ (by decide)

theorem effPauseSet_sets {w : W} {q slot : Nat} {c : Cmd} (hc : w.cmdAt q slot 0x0023 = some c) (hh : bits (le c.bytes 16 1) 0 7 ≤ 64)
    (ht : bit (le c.bytes 17 1) 7 = true → bits (le c.bytes 17 1) 0 7 ≤ 64) :
    effPauseSet q slot w = (w.pauseSet c).answer q slot OK (toLE 1 (w.rd hrdB KPLT_PAUSE.q_now)) := by
  have hgo : ¬ (64 < bits (le c.bytes 16 1) 0 7 ∨ bit (le c.bytes 17 1) 7 = true ∧ 64 < bits (le c.bytes 17 1) 0 7) := by
    rintro (h | ⟨hv, h⟩)
    · omega
    · exact absurd (ht hv) (Nat.not_le.mpr h)
  rw [← W.pauseSet_qNow w c]
  unfold effPauseSet
  rw [hc]
  dsimp only
  rw [if_neg hgo]
  rfl

/-- A field of the pause is no queue's count of running commands: that stands at offset 8 of a window of 256 bytes. -/
theorem pause_key_ne_running {f : Fld} (hoff : f.off = 0x1010) (hlsb : f.lsb < 32) (q : Nat) :
    f.key hrdB 0 ≠ KCMD_QHEAD.running.key (cmdB q) 0 := by
  simp only [Fld.key, KCMD_QHEAD.running, hoff, hrdB, cmdB]
  omega

theorem pauseSet_sets {s : State} {q slot : Nat} {c : Cmd} (hr : s.inReset = false) (hc : s.Runs q slot 0x0023 c)
    (hh : bits (le c.bytes 16 1) 0 7 ≤ 64) (ht : bit (le c.bytes 17 1) 7 = true → bits (le c.bytes 17 1) 0 7 ≤ 64) :
    ∃ t, exec (.pauseSet q slot) s = .next t ∧ Answered s t q c OK (toLE 1 (s.rd hrdB KPLT_PAUSE.q_now))
      ∧ t.rd hrdB KPLT_PAUSE.host_q = bits (le c.bytes 16 1) 0 7
      ∧ t.rd hrdB KPLT_PAUSE.thr_q
        = (if bit (le c.bytes 17 1) 7 then bits (le c.bytes 17 1) 0 7 else s.rd hrdB KPLT_PAUSE.thr_q)
      ∧ t.mem = s.mem ∧ t.plt = s.plt ∧ t.net = s.net := by
  have heff := effPauseSet_sets (w := s.w0) hc.1 hh ht
  have hframe := W.eq_of_noRegs (s.w0.pauseSet_noRegs c)
  have hhost := s.w0.pauseSet_hostQ c
  have hthr := s.w0.pauseSet_thrQ c
  generalize s.w0.pauseSet c = v at *
  obtain ⟨hans, hmem, hnet, hplt, -⟩ := State.after_answer_of (v := v) (st := OK) (rd := toLE 1 (s.rd hrdB KPLT_PAUSE.q_now)) hc.2
    (State.miomusUp_of_cmdAt hc.1) (by rw [hframe]; rfl) (by rw [hframe]; rfl) (by rw [hframe]; rfl)
  refine ⟨_, run_const hr heff, hans, ?_, ?_, hmem, hplt.trans (by rw [hframe]; rfl), hnet.trans (by rw [hframe]; rfl)⟩
  · exact (W.answer_rd _ _ _ _ _ _ _ _ ⟨by decide, by decide⟩ (pause_key_ne_running rfl (by decide) q)).trans hhost
  · exact (W.answer_rd _ _ _ _ _ _ _ _ ⟨by decide, by decide⟩ (pause_key_ne_running rfl (by decide) q)).trans hthr

/-! ### PATCH_LOAD -/

theorem W.answer_patch (w : W) (q slot st : Nat) (rd : List Byte) : (w.answer q slot st rd).boot.patch = w.boot.patch := by
  unfold W.answer W.answerAt
  split
  · unfold W.replyTo
    split
    · rfl
    · refine W.each_inv (fun v => v.boot.patch = w.boot.patch) _ _ _ rfl fun v sl _ h => ?_
      rw [W.putReply_boot]
      exact h
  · split
    · rfl
    · rfl

/-- The image that a PATCH_LOAD names passes the checks of R457, R458 and R513. -/
structure State.PatchOk (s : State) (a n : Nat) (b : List Byte) : Prop where
  big : 256 ≤ n
  small : n ≤ 256 + 131072
  range : s.rangeOk a n = true
  fused : s.fuse.keyHash ≠ 0
  unpatched : s.boot.patch = none
  image : b = getBytes s.mem.cells (loff a) n
  read : s.w0.imageStatus (loff a) n = OK
  form : patchForm b n = true
  signed : s.patchSigned b = true

/-- The image `b` is the loaded patch, with its number and state shown (R479). -/
def W.patched (w : W) (b : List Byte) : W :=
  { (w.wr gblB KGBL_PATCH.pstate 2).wr gblB KGBL_PATCH.psv (le b 6 2) with boot := { w.boot with patch := some b } }

theorem effPatchLoad_loads {s : State} {q slot : Nat} {c : Cmd} {b : List Byte} (hc : s.cmdAt q slot 0x0003 = some c)
    (hok : s.PatchOk (le c.bytes 16 8) (le c.bytes 24 4) b) :
    effPatchLoad q slot s.w0 = (s.w0.patched b).answer q slot OK (toLE 2 (le b 6 2)) := by
  obtain ⟨hbig, hsmall, hrange, hfused, hnone, rfl, hread, hform, hsigned⟩ := hok
  have hearly : firstOf [(!(256 ≤ le c.bytes 24 4 && le c.bytes 24 4 ≤ 256 + 131072) || !s.rangeOk (le c.bytes 16 8) (le c.bytes 24 4), BADOP),
      (s.fuse.keyHash == 0, DENIED), (s.boot.patch.isSome, ALREADY)] = OK :=
    firstOf_none (by simp [hbig, hsmall, hrange, hfused, hnone])
  have hlate : firstOf [(!patchForm (getBytes s.mem.cells (loff (le c.bytes 16 8)) (le c.bytes 24 4)) (le c.bytes 24 4), BADOP),
      (!s.patchSigned (getBytes s.mem.cells (loff (le c.bytes 16 8)) (le c.bytes 24 4)), DENIED),
      (s.boot.patch.isSome, ALREADY)] = OK := firstOf_none (by simp [hform, hsigned, hnone])
  unfold effPatchLoad
  rw [State.w0_toState, hc]
  refine (if_neg ?_).trans ((if_neg (not_not.mpr hread)).trans (if_neg (not_not.mpr hlate)))
  rw [hearly]
  decide

theorem patchLoad_loads {s : State} {q slot : Nat} {c : Cmd} {b : List Byte} (hr : s.inReset = false) (hc : s.Runs q slot 0x0003 c)
    (hok : s.PatchOk (le c.bytes 16 8) (le c.bytes 24 4) b) :
    ∃ t, exec (.patchLoad q slot) s = .next t ∧ Answered s t q c OK (toLE 2 (le b 6 2)) ∧ t.boot.patch = some b
      ∧ t.rd gblB KGBL_PATCH.pstate = 2 ∧ t.rd gblB KGBL_PATCH.psv = le b 6 2
      ∧ t.mem = s.mem ∧ t.net = s.net ∧ t.plt = s.plt ∧ t.cx = s.cx := by
  have hpsv : (s.w0.patched b).rd gblB KGBL_PATCH.psv = le b 6 2 := W.rd_wr_val _ _ _ _ _ _ (Nat.mod_eq_of_lt (le_lt b 6 2))
  have hstate : (s.w0.patched b).rd gblB KGBL_PATCH.pstate = 2 :=
    (W.rd_wr_ne _ _ _ _ _ _ _ _ (by decide)).trans (W.rd_wr_self ..)
  -- commands and records are those of `s` with the patch in place
  obtain ⟨hans, hmem, hnet, hplt, hrd⟩ := State.after_answer_of (s := { s with boot := { s.boot with patch := some b } })
    (v := s.w0.patched b) (st := OK) (rd := toLE 2 (le b 6 2)) hc.2 (State.miomusUp_of_cmdAt hc.1) rfl rfl rfl
  exact ⟨_, run_const hr (effPatchLoad_loads hc.1 hok), hans, W.answer_patch ..,
    (hrd _ (by unfold offTrace; decide) (by decide)).trans hstate, (hrd _ (by unfold offTrace; decide) (by decide)).trans hpsv,
    hmem, hnet, hplt, W.answer_cx ..⟩

/-! ### CIRCUIT_TABLE -/

/-- The entry that a CIRCUIT_TABLE carries (R344). -/
def Cmd.window (c : Cmd) : CwEnt :=
  CwEnt.mk (le c.bytes 32 8) (le c.bytes 40 8) (bits (le c.bytes 48 4) 0 17) (bits (le c.bytes 48 4) 17 6)

/-- The window that `c` carries for entry `i` of edge port `e` passes the checks of R344, and the entry is not in its span. -/
structure State.WindowOk (s : State) (c : Cmd) (e i lead : Nat) : Prop where
  port : e = bits (le c.bytes 16 1) 0 6
  entry : i = le c.bytes 17 1
  lead_eq : lead = s.rd (epB e) KEDG_CW_CFG.cw_lead
  present : e < s.fuse.edgePorts
  reserved : bits (le c.bytes 48 4) 24 8 = 0
  tail : le c.bytes 52 12 = 0
  long : 4096 ≤ since (le c.bytes 40 8) (le c.bytes 32 8)
  short : since (le c.bytes 40 8) (le c.bytes 32 8) ≤ 2 ^ 32
  apart : ∀ x ∈ (s.epS e).cw, x.1 ≠ i → closer c.window x.2 (lead + 2048) = false
  idle : ∀ x ∈ (s.epS e).cw, x.1 = i → s.herdTime + lead < x.2.tOpen ∨ x.2.tClose ≤ s.herdTime

/-- The table after it. -/
def State.windowsAfter (s : State) (c : Cmd) (e i : Nat) : Tbl CwEnt :=
  if bit (le c.bytes 48 4) 23 then (s.epS e).cw.put i c.window else (s.epS e).cw.del i

theorem effCircuitTable_writes {s : State} {q slot e i lead : Nat} {c : Cmd} (hc : s.cmdAt q slot 0x0090 = some c)
    (hok : s.WindowOk c e i lead) : effCircuitTable q slot s.w0
      = (s.w0.setEp e { s.epS e with cw := s.windowsAfter c e i }).answer q slot OK := by
  obtain ⟨rfl, rfl, rfl, hpresent, hres, htail, hlong, hshort, hapart, hidle⟩ := hok
  unfold effCircuitTable
  rw [State.w0_toState, hc]
  refine if_neg (not_not.mpr (firstOf_none ?_))
  have hothers : ((s.epS (bits (le c.bytes 16 1) 0 6)).cw.filter (fun x => x.1 != le c.bytes 17 1)).any
      (fun x => closer c.window x.2 (s.rd (epB (bits (le c.bytes 16 1) 0 6)) KEDG_CW_CFG.cw_lead + 2048)) = false := by
    refine List.any_eq_false.mpr fun x hx => ?_
    obtain ⟨hmem, hne⟩ := List.mem_filter.mp hx
    simp [hapart x hmem (by simpa using hne)]
  refine List.forall_mem_cons.mpr ⟨?_, List.forall_mem_cons.mpr ⟨?_, by simp⟩⟩
  · simp only [Cmd.window] at hothers
    rw [decide_eq_true hshort]
    simp [hpresent, hres, htail, hlong, hothers]
  · dsimp only
    split
    · rename_i x hfind
      have hspan := hidle (_, x) (Tbl.mem_of_find hfind) rfl
      simp only [Bool.and_eq_false_iff, decide_eq_false_iff_not]
      dsimp only at hspan
      omega
    · rfl

theorem circuitTable_writes {s : State} {q slot e i lead : Nat} {c : Cmd} (hr : s.inReset = false) (hc : s.Runs q slot 0x0090 c)
    (hok : s.WindowOk c e i lead) :
    ∃ t, exec (.circuitTable q slot) s = .next t ∧ Answered s t q c OK [] ∧ (t.epS e).cw = s.windowsAfter c e i
      ∧ t.mem = s.mem ∧ t.net = s.net ∧ t.plt = s.plt := by
  obtain ⟨hans, hmem, hnet, hplt, -⟩ := State.after_answer_of (v := s.w0.setEp e { s.epS e with cw := s.windowsAfter c e i })
    (st := OK) (rd := []) hc.2 (State.miomusUp_of_cmdAt hc.1) rfl rfl rfl
  refine ⟨_, run_const hr (effCircuitTable_writes hc.1 hok), hans, ?_, hmem, hnet, hplt⟩
  have hep := W.answer_ep (s.w0.setEp e { s.epS e with cw := s.windowsAfter c e i }) q slot OK []
  refine congrArg Ep.cw ((State.epS_congr hep e).trans (Tbl.get_set_self ..))

/-! ### The obligation -/

/-- Settles O8, a clause for each setting. That an entry is checked whether or not it is valid is assumption log row 17. -/
theorem settingsAnswer : Obligations.SettingsAnswer := by
  unfold Obligations.SettingsAnswer
  refine ⟨?pause, ?patch, ?circuit⟩
  case pause =>
    intro s q slot c hr hc hh ht
    obtain ⟨t, hexec, hans, hhost, hthr, hrest⟩ := pauseSet_sets hr hc hh ht
    exact ⟨t, hexec, hans, hhost, fun hv => hthr.trans (if_pos hv), fun hv => hthr.trans (if_neg (by simp [hv])), hrest⟩
  case patch =>
    intro s q slot c hr hc hbig hsmall hrange hfused hnone hread hform hsigned
    exact patchLoad_loads hr hc
      { big := hbig, small := hsmall, range := hrange, fused := hfused, unpatched := hnone, image := rfl, read := hread, form := hform,
        signed := hsigned }
  case circuit =>
    rintro s q slot c e i word lead hr hc he hi rfl hlead hpresent hres htail hlong hshort hapart hidle
    exact circuitTable_writes hr hc
      { port := he, entry := hi, lead_eq := hlead, present := hpresent, reserved := hres, tail := htail, long := hlong, short := hshort,
        apart := hapart, idle := hidle }

end Sys2Proof.Machine
end

section
/-! PROOFS. The governor (R470 to R474): the lend duty of a block, the steps of the target, and the monitor. -/

namespace Sys2Proof.Machine

/-! ### The block's start and the target's step -/

/-- In a block's first fc the lend duty is set, and once only (R472). -/
theorem effBlockStart_sets {w : W} (hrun : w.isPaused = false) (hnew : w.plt.blockDone = false) (hfirst : w.slotIdx % 64 = 0) :
    let v := effBlockStart w
    v.plt.duty = w.lendDuty ∧ v.plt.blockDone = true ∧ v.plt.pT = w.plt.pT ∧ v.stores = w.stores ∧ v.net = w.net ∧ v.flt = w.flt := by
  unfold effBlockStart
  rw [if_neg (by simp [hrun, hnew, hfirst])]
  dsimp only
  split
  · exact ⟨rfl, rfl, rfl, rfl, rfl, rfl⟩
  · exact ⟨rfl, rfl, rfl, rfl, rfl, rfl⟩

/-- Every 125 fc the target makes its step, and the ballast fills the draw up to it (R470, R471). -/
theorem effTargetStep_steps {w : W} (hdue : w.plt.govFc + 125 ≤ w.fc) : effTargetStep w =
    W.estimate { w with plt.pT := stepToward w.plt.pT w.demand, plt.govFc := w.fc } := by
  unfold effTargetStep
  rw [if_neg (Nat.not_lt.mpr hdue)]

/-! ### The monitor (R474) -/

/-- What the monitor finds in the draws of a microsecond. -/
def State.govFinds (s : State) (d : Draws) : Bool :=
  d.differs || (match s.plt.monLast with
    | some x => jumps x d.measured
    | none => false)

theorem State.govFinds_of_jump {s : State} {d : Draws} {x : Nat} (hlast : s.plt.monLast = some x) (hjump : jumps x d.measured = true) :
    s.govFinds d = true := by simp [State.govFinds, hlast, hjump]

theorem State.govFinds_nothing {s : State} {d : Draws} (hsame : d.differs = false)
    (hcalm : ∀ x, s.plt.monLast = some x → jumps x d.measured = false) : s.govFinds d = false := by
  cases hlast : s.plt.monLast with
  | none => simp [State.govFinds, hsame, hlast]
  | some x => simp [State.govFinds, hsame, hlast, hcalm x hlast]

/-- The monitor has looked at this fc. -/
def W.monitored (w : W) (d : Draws) : W := { w with plt.monLast := some d.measured, plt.monFc := w.fc + 1 }

theorem effGovMonitor_looks {w : W} {d : Draws} (hdue : w.fc % 2000 = 0) (honce : w.plt.monFc ≠ w.fc + 1) : effGovMonitor d w =
    if w.govFinds d then ((w.monitored d).setPresent clGOV true).fault clGOV (locPkg 6)
    else if bit w.flt.present clGOV then (w.monitored d).setPresent clGOV false else w.monitored d := by
  unfold effGovMonitor
  rw [if_neg (by simp [hdue, honce])]
  rfl

theorem W.setPresent_rest (w : W) (cls : Nat) (on : Bool) : let v := w.setPresent cls on
    v.herdTime = w.herdTime ∧ v.plt = w.plt ∧ v.net = w.net ∧ v.stores = w.stores := ⟨rfl, rfl, rfl, rfl⟩

/-- The fault of a condition: the condition is present, the quiet time starts anew, and the plates stay. -/
theorem W.conditionFault_facts (w : W) {cls loc : Nat} (hc : isCondition cls = true) (hl : loc < 384) :
    let v := (w.setPresent cls true).fault cls loc
    bit v.flt.present cls = true ∧ v.flt.lastFatal = w.herdTime ∧ v.plt = w.plt ∧ v.stores = w.stores := by
  have hset := w.setPresent_present cls true
  obtain ⟨htime, hplt, -, hstores⟩ := w.setPresent_rest cls true
  generalize w.setPresent cls true = u at *
  obtain ⟨-, hflt, -, -, hstores', -, hplt'⟩ := u.fault_fatal_facts (fatalClass_of_isCondition hc) hl
  dsimp only
  rw [hflt]
  exact ⟨hset, htime, hplt'.trans hplt, hstores'.trans hstores⟩

section
variable {w : W} {d : Draws} (hdue : w.fc % 2000 = 0) (honce : w.plt.monFc ≠ w.fc + 1)
include hdue honce

/-- A finding makes GOV present, with its fault. -/
theorem effGovMonitor_raises (hfound : w.govFinds d = true) : ∃ v, effGovMonitor d w = v ∧ bit v.flt.present clGOV = true
    ∧ v.flt.lastFatal = w.herdTime ∧ v.plt = (w.monitored d).plt ∧ v.stores = w.stores :=
  ⟨_, (effGovMonitor_looks hdue honce).trans (if_pos hfound), (w.monitored d).conditionFault_facts rfl (by decide)⟩

/-- Where it finds nothing, GOV is taken back. -/
theorem effGovMonitor_withdraws (hnone : w.govFinds d = false) : ∃ v, effGovMonitor d w = v ∧ bit v.flt.present clGOV = false
    ∧ v.plt = (w.monitored d).plt ∧ v.net = w.net ∧ v.stores = w.stores := by
  have heff := (effGovMonitor_looks hdue honce).trans (if_neg (Bool.eq_false_iff.mp hnone))
  cases hbit : bit w.flt.present clGOV with
  | true =>
    exact ⟨_, heff.trans (if_pos hbit), (w.monitored d).setPresent_present clGOV false, ((w.monitored d).setPresent_rest clGOV false).2⟩
  | false => exact ⟨_, heff.trans (if_neg (Bool.eq_false_iff.mp hbit)), hbit, rfl, rfl, rfl⟩

end

theorem govMonitor_raises {s : State} {d : Draws} (hr : s.inReset = false) (hdue : s.fc % 2000 = 0) (honce : s.plt.monFc ≠ s.fc + 1)
    (hfound : s.govFinds d = true) : ∃ t, exec (.govMonitor d) s = .next t ∧ bit t.flt.present clGOV = true
      ∧ t.flt.lastFatal = s.herdTime ∧ t.plt.monLast = some d.measured ∧ t.plt.monFc = s.fc + 1 ∧ t.mem = s.mem := by
  obtain ⟨v, heff, hset, htime, hplt, hstores⟩ := effGovMonitor_raises (w := s.w0) hdue honce hfound
  exact ⟨_, run_const hr heff, hset, htime, congrArg Plt.monLast hplt, congrArg Plt.monFc hplt, State.after_mem_of_no_stores hstores⟩

/-! ### The obligation -/

/-- Settles O23, a clause for each event; a difference and a jump are the two things that the monitor finds. -/
theorem governorActs : Obligations.GovernorActs := by
  unfold Obligations.GovernorActs
  refine ⟨?starts, ?steps, ?differs, ?jumps, ?calm⟩
  case starts =>
    intro s hr hrun hnew hfirst
    have hsets := effBlockStart_sets (w := s.w0) hrun hnew hfirst
    generalize heff : effBlockStart s.w0 = v at hsets
    obtain ⟨hduty, hdone, hpT, hstores, hnet, hflt⟩ := hsets
    exact ⟨_, run_const hr heff, hduty, hdone, hpT, State.after_mem_of_no_stores hstores, hnet, hflt⟩
  case steps => exact fun s hr hdue => ⟨_, run_const hr (effTargetStep_steps (w := s.w0) hdue), rfl, rfl, rfl, rfl, rfl⟩
  case differs => exact fun s d hr hdue honce hdiff => govMonitor_raises hr hdue honce (by simp [State.govFinds, hdiff])
  case jumps => exact fun s d x hr hdue honce hlast hjump => govMonitor_raises hr hdue honce (State.govFinds_of_jump hlast hjump)
  case calm =>
    intro s d hr hdue honce hsame hcalm
    obtain ⟨v, heff, hset, hplt, hnet, hstores⟩ :=
      effGovMonitor_withdraws (w := s.w0) hdue honce (State.govFinds_nothing hsame hcalm)
    exact ⟨_, run_const hr heff, hset, congrArg Plt.monLast hplt, State.after_mem_of_no_stores hstores, hnet⟩

end Sys2Proof.Machine
end

section
/-! PROOFS. The life of a context (R415 to R423): its creation, fence and drain, removal, unbinding and quarantine. -/

namespace Sys2Proof.Machine

/-! ### Creation (R417, R418) -/

/-- The commands of contexts run where no FUNC_REINIT of F4 does (R435). -/
theorem State.ctxCmd_of_idle {s : State} (h : s.cx.reinit = none) (q slot op : Nat) : s.ctxCmd q slot op = s.cmdAt q slot op := by
  simp [State.ctxCmd, h]

/-- The image of a CTX_CREATE passes its checks: `a` is its address, `h` its header, `n` the number of its grants and `gs` these. -/
structure State.ImageOk (s : State) (c : Cmd) (a : Nat) (h : List Byte) (n : Nat) (gs : List GrantEnt) : Prop where
  address : a = le c.bytes 16 8
  header : h = getBytes s.mem.cells (loff a) 32
  number : n = bits (le h 4 2) 0 10
  grants : gs = (cut32 n (getBytes s.mem.cells (loff a + 32) (32 * n))).map grantOf
  range : s.rangeOk a 32 = true
  rangeAll : s.rangeOk a (32 + 32 * n) = true
  named : c.ctx ≠ 0
  free : s.ctxAt c.ctx = none
  room : s.liveCount < 256
  read : s.w0.imageStatus (loff a) (32 + 32 * n) = OK
  ofCtx : bits (le h 0 2) 0 12 = c.ctx
  reserved0 : bits (le h 0 2) 12 3 = 0
  reserved4 : bits (le h 4 2) 10 6 = 0
  reserved6 : le h 6 26 = 0
  some : 1 ≤ n
  formed : ∀ g ∈ gs, s.grantOk (bit (le h 0 2) 15) g = true
  remoteLanes : bit (le h 0 2) 15 = true → le h 2 2 = 0
  unbound : ∀ g ∈ gs, s.grantTaken g = false
  lanesFree : ∀ e ∈ s.cx.ctx, e.2.lanes &&& le h 2 2 = 0

/-- The context that the image makes. -/
def createdCtx (h : List Byte) (gs : List GrantEnt) : Ctx :=
  { state := 1, remote := bit (le h 0 2) 15, lanes := le h 2 2,
    grants := gs.map (fun g => { kind := g.kind, unit := g.unit, first := g.first, num := g.num }) }

theorem effCtxCreate_creates {s : State} {q slot a n : Nat} {c : Cmd} {h : List Byte} {gs : List GrantEnt}
    (hidle : s.cx.reinit = none) (hc : s.cmdAt q slot 0x0040 = some c) (hok : s.ImageOk c a h n gs) :
    effCtxCreate q slot s.w0 = ((s.w0.setCtx c.ctx (createdCtx h gs)).each gs
      (fun w g => w.each g.idx (fun w i => w.startObj c.ctx g i))).answer q slot OK := by
  have hearly : firstOf [(c.ctx == 0, BADOP), ((s.ctxAt c.ctx).isSome || 256 ≤ s.liveCount, BUSY)] = OK :=
    firstOf_none (by simp [hok.named, hok.free, hok.room])
  have hform : (bits (le h 0 2) 0 12 == c.ctx && bits (le h 0 2) 12 3 == 0 && bits (le h 4 2) 10 6 == 0 && le h 6 26 == 0
      && 1 ≤ n && gs.all (s.grantOk (bit (le h 0 2) 15)) && !(bit (le h 0 2) 15 && le h 2 2 != 0)) = true := by
    have hall : gs.all (s.grantOk (bit (le h 0 2) 15)) = true := List.all_eq_true.mpr hok.formed
    have hlanes : (bit (le h 0 2) 15 && le h 2 2 != 0) = false := by
      cases hremote : bit (le h 0 2) 15 with
      | false => rfl
      | true => simp [hok.remoteLanes hremote]
    simp [hok.ofCtx, hok.reserved0, hok.reserved4, hok.reserved6, hok.some, hall, hlanes]
  have hbusy : (OK == BUSY || gs.any s.grantTaken || s.cx.ctx.any (fun e => e.2.lanes &&& le h 2 2 != 0)) = false := by
    have htaken : gs.any s.grantTaken = false := List.any_eq_false.mpr fun g hg => by simp [hok.unbound g hg]
    have hlanes : s.cx.ctx.any (fun e => e.2.lanes &&& le h 2 2 != 0) = false :=
      List.any_eq_false.mpr fun e he => by simp [hok.lanesFree e he]
    rw [htaken, hlanes]
    rfl
  obtain ⟨rfl, rfl, rfl, rfl, hrange, hrangeAll, -, -, -, hread, -⟩ := hok
  unfold effCtxCreate
  rw [State.w0_toState, State.ctxCmd_of_idle hidle, hc]
  refine (if_neg ?_).trans ((if_neg ?_).trans ((if_neg ?_).trans ((if_neg (not_not.mpr hread)).trans (if_neg (not_not.mpr ?_)))))
  · simp [hrange]
  · rw [Bool.not_eq_true', Bool.not_eq_false]
    exact hrangeAll
  · exact fun hbad => hbad.1 hearly
  · refine firstOf_none (List.forall_mem_cons.mpr ⟨?_, List.forall_mem_cons.mpr ⟨?_, by simp⟩⟩)
    · exact congrArg Bool.not hform
    · rw [← hearly] at hbusy
      exact hbusy

/-! ### Acceptance (R415, R424) -/

theorem W.ctxCommand_accepts {w : W} {q slot op kind : Nat} {c : Cmd} {x : Ctx} (hidle : w.cx.reinit = none)
    (hc : w.cmdAt q slot op = some c) (hnamed : c.ctx ≠ 0) (hx : w.ctxAt c.ctx = some x) (hstart : w.ctxStart c.ctx kind = OK) :
    w.ctxCommand q slot op kind
      = ((w.setCtx c.ctx { x with waits := x.waits ++ [(q, slot, kind)] }).cmdStage q slot 1).ctxAccept c.ctx kind := by
  unfold W.ctxCommand
  rw [State.ctxCmd_of_idle hidle, hc]
  dsimp only
  rw [if_neg hnamed, hstart, if_neg (by simp), hx]

theorem State.ctxStart_live {s : State} {ctx : Nat} {x : Ctx} (kind : Nat) (hx : s.ctxAt ctx = some x) (hlive : x.state = 1)
    (hroom : s.drainSlots.length < 4) : s.ctxStart ctx kind = OK := by
  simp [State.ctxStart, hx, hlive, Nat.not_le.mpr hroom]

theorem State.ctxStart_fenced {s : State} {ctx kind : Nat} {x : Ctx} (hx : s.ctxAt ctx = some x) (hfenced : x.state = 3)
    (hkind : kind ≠ 0) : s.ctxStart ctx kind = OK := by
  simp [State.ctxStart, hx, hfenced, hkind]

/-! ### Drain, removal, unbinding and quarantine (R415, R421 to R423) -/

theorem W.each_herdTime {α : Type} {l : List α} {f : W → α → W} {w : W} (h : ∀ v a, (f v a).herdTime = v.herdTime) :
    (w.each l f).herdTime = w.herdTime := W.each_inv (fun v => v.herdTime = w.herdTime) l f w rfl fun v a _ hv => (h v a).trans hv

/-- Unbinding takes no time: it changes registers, bindings, herds and groups. -/
theorem W.unbindAll_herdTime (w : W) (ctx : Nat) : (w.unbindAll ctx).herdTime = w.herdTime := by
  unfold W.unbindAll
  extract_lets mine windows sta unbound grants revoked herds released
  have hwindows : windows.herdTime = w.herdTime := by
    refine W.each_herdTime fun v k => ?_
    split
    · rfl
    · rfl
  have hrevoked : revoked.herdTime = windows.herdTime := by
    refine (W.each_herdTime fun v g => W.each_herdTime fun u i => ?_).trans (rfl : unbound.herdTime = windows.herdTime)
    split
    · exact W.each_herdTime fun _ _ => rfl
    · split
      · rfl
      · rfl
  have hreleased : released.herdTime = revoked.herdTime :=
    W.each_herdTime fun v herd => W.herdTime_of_noNet (v.setHerd_facts herd none).2
  have hgroups := W.each_herdTime (l := (released.col.grp.filter (fun e => e.2.ctx == ctx)).map (fun e => e.1))
    (f := fun w g => w.releaseGroup g) (w := released) fun _ _ => rfl
  exact hgroups.trans (hreleased.trans (hrevoked.trans hwindows))

theorem W.keepFrz_noNet (w : W) : w.keepFrz.noNet = w.noNet := by
  unfold W.keepFrz
  rw [apply_ite W.noNet]
  exact ite_self _

/-- Lifting a fence leaves the stations and stores nothing. -/
theorem W.liftFence_facts (w : W) (ctx : Nat) : (w.liftFence ctx).sta = w.sta ∧ (w.liftFence ctx).stores = w.stores := by
  have hsta : w.keepFrz.sta = w.sta := by
    have e := congrArg (fun x : W => x.sta) w.keepFrz_noNet
    exact e
  have hstores : w.keepFrz.stores = w.stores := W.stores_of_noNet w.keepFrz_noNet
  exact ⟨hsta, hstores⟩

section
variable {w : W} {ctx : Nat} {x : Ctx} (hx : w.ctxAt ctx = some x)
include hx

theorem effDrainEnd_ends (hstate : x.state = 2) (hdone : w.drained ctx = true) (hup : w.miomusUp = true) :
    effDrainEnd ctx w = w.drainEnded ctx := by
  unfold effDrainEnd
  rw [hx]
  exact if_pos ⟨hstate, hdone, hup⟩

theorem effDrainForcedEnd_forces (hstate : x.state = 2) (hlate : x.t0 + 400000 ≤ w.fc) (hleft : w.drained ctx = false) :
    effDrainForcedEnd ctx w = let v := (w.forceDrain ctx).inc gblB KGBL_CTX_CNT.drain_forced
      if v.miomusUp then v.drainEnded ctx else v := by
  unfold effDrainForcedEnd
  rw [hx]
  exact if_neg (by simp [hstate, Nat.not_lt.mpr hlate, hleft])

section
variable (hwait : x.unbind = false) (hdone : w.removed ctx = true)
include hwait hdone

theorem effRemovalEnd_live (hstate : x.state = 4) (hkeep : x.dpend = false) : effRemovalEnd ctx w
    = ((w.liftFence ctx).setCtx ctx { x with state := 1, guilty := false }).ctxReply ctx 1 OK := by
  unfold effRemovalEnd
  rw [hx]
  dsimp only
  rw [if_neg (by simp [hstate, hwait, hdone]), if_neg (by simp [hstate]), if_neg (by simp [hkeep])]

theorem effRemovalEnd_destroyed (hstate : x.state = 5) : effRemovalEnd ctx w = w.setCtx ctx { x with unbind := true } := by
  unfold effRemovalEnd
  rw [hx]
  dsimp only
  rw [if_neg (by simp [hstate, hwait, hdone]), if_pos hstate]

theorem effRemovalEnd_destroyPends (hstate : x.state = 4) (hdestroy : x.dpend = true) : effRemovalEnd ctx w
    = (w.setCtx ctx { x with state := 5, dpend := false, unbind := true }).ctxReply ctx 1 OK := by
  unfold effRemovalEnd
  rw [hx]
  dsimp only
  rw [if_neg (by simp [hstate, hwait, hdone]), if_neg (by simp [hstate]), if_pos hdestroy]

end

theorem effUnbindingEnd_quarantines (hstate : x.state = 5) (hready : x.unbind = true) (hup : w.miomusUp = true) : effUnbindingEnd ctx w
    = ((w.unbindAll ctx).setCtx ctx { x with state := 6, tq := (w.unbindAll ctx).herdTime, lanes := 0, grants := [] }).ctxReply ctx 2 OK := by
  unfold effUnbindingEnd
  rw [hx, W.unbindAll_herdTime]
  exact if_neg (by simp [hstate, hready, hup])

theorem effQuarantineEnd_frees (hstate : x.state = 6) (hover : 2 ^ 21 ≤ since w.herdTime x.tq) :
    effQuarantineEnd ctx w = { w.liftFence ctx with cx.ctx := w.cx.ctx.del ctx } := by
  unfold effQuarantineEnd
  rw [hx]
  exact if_pos ⟨hstate, hover⟩

end

/-! ### The obligation -/

/-- Settles O16, a clause for each step of the life. That a drain begins at acceptance and the fence of a destroyed context is lifted
at the end of its quarantine is assumption log row 75. -/
theorem contextsAct : Obligations.ContextsAct := by
  unfold Obligations.ContextsAct
  refine ⟨?creates, ?fences, ?resets, ?destroys, ?drained, ?forced, ?live, ?destroyed, ?destroyPends, ?unbound, ?free⟩
  case creates =>
    intro s q slot c a h n gs hr hidle hc ha hh hn hgs hrange hrangeAll hnamed hfree hroom hread hctx hres0 hres4 hres6 hsome hformed
      hremote hunbound hlanes
    exact run_eq hr (effCtxCreate_creates hidle hc.1
      { address := ha, header := hh, number := hn, grants := hgs, range := hrange, rangeAll := hrangeAll, named := hnamed, free := hfree,
        room := hroom, read := hread, ofCtx := hctx, reserved0 := hres0, reserved4 := hres4, reserved6 := hres6, some := hsome,
        formed := hformed, remoteLanes := hremote, unbound := hunbound, lanesFree := hlanes })
  case fences =>
    intro s q slot c x hr hidle hc hnamed hx hstate hroom
    exact run_eq hr (W.ctxCommand_accepts (w := s.w0) hidle hc.1 hnamed hx (State.ctxStart_live 0 hx hstate hroom))
  case resets =>
    intro s q slot c x hr hidle hc hnamed hx hstate
    exact run_eq hr (W.ctxCommand_accepts (w := s.w0) hidle hc.1 hnamed hx (State.ctxStart_fenced hx hstate (by decide)))
  case destroys =>
    intro s q slot c x hr hidle hc hnamed hx hstate
    exact run_eq hr (W.ctxCommand_accepts (w := s.w0) hidle hc.1 hnamed hx (State.ctxStart_fenced hx hstate (by decide)))
  case drained => exact fun s ctx x hr hx hstate hdone hup => run_eq hr (effDrainEnd_ends (w := s.w0) hx hstate hdone hup)
  case forced =>
    exact fun s ctx x hr hx hstate hlate hleft => run_eq hr (effDrainForcedEnd_forces (w := s.w0) hx hstate hlate hleft)
  case live =>
    exact fun s ctx x hr hx hstate hwait hdone hkeep => run_eq hr (effRemovalEnd_live (w := s.w0) hx hwait hdone hstate hkeep)
  case destroyed =>
    intro s ctx x hr hx hstate hwait hdone
    exact ⟨_, run_const hr (effRemovalEnd_destroyed (w := s.w0) hx hwait hdone hstate), Tbl.find_put_self .., rfl⟩
  case destroyPends =>
    intro s ctx x hr hx hstate hwait hdone hdestroy
    exact run_eq hr (effRemovalEnd_destroyPends (w := s.w0) hx hwait hdone hstate hdestroy)
  case unbound =>
    intro s ctx x hr hx hstate hready hup
    have heff := effUnbindingEnd_quarantines (w := s.w0) hx hstate hready hup
    rw [State.w0] at heff
    exact run_eq hr heff
  case free =>
    intro s ctx x hr hx hstate hover
    obtain ⟨hsta, hstores⟩ := s.w0.liftFence_facts ctx
    exact ⟨_, run_const hr (effQuarantineEnd_frees (w := s.w0) hx hstate hover), Tbl.find_del_self ..,
      State.after_mem_of_no_stores hstores, hsta⟩

end Sys2Proof.Machine
end

section
/-! PROOFS. Observability (R495 to R497): a trace buffer that taps the command queues records the reply of the TRACE_ARM that armed
it. -/

namespace Sys2Proof.Machine

/-- A TRACE_ARM of buffer 0 with trigger mode 2, no dump address. -/
def armTapped : Cmd :=
  { q := 0, slot := 0, fc := 0,
    bytes := toLE 2 0x72 ++ List.replicate 14 0 ++ toLE 4 0 ++ toLE 4 2 ++ List.replicate 40 0 }

/-- It runs after reset, with its record in slot 0 of queue 0; buffer 0 taps the command queues (kind 2 of R495). -/
def tappedState : State :=
  { (State.reset.w0.wr obsB (KOBS_TRC_SRC.tkind.at 0) 2).toState with
    boot.cmds := [armTapped]
    boot.recsQ := [(0, [{ tag := 0, opcode := 0x72, reply := none, slots := [0] }])] }

/-- Refutes O21: its clause of TRACE_ARM says that the armed buffer is empty, with `tcount` 0. TRACE_ARM completes in the step that
arms the buffer, and its reply is an event of the command queues: the buffer that taps these holds the reply's record already, and
`tcount` is 1. The clause lacks the premise that the buffer's tap is of another kind. -/
theorem not_observationsAct : ¬ Obligations.ObservationsAct := by
  unfold Obligations.ObservationsAct
  rintro ⟨-, -, -, -, -, -, -, -, harm, -⟩
  have hr : tappedState.inReset = false := by decide +kernel
  have hruns : tappedState.Runs 0 0 0x0072 armTapped := ⟨by decide +kernel, by decide +kernel⟩
  obtain ⟨t, hexec, -, -, -, hcount, -⟩ := harm tappedState 0 0 armTapped 0 2 hr hruns (by decide +kernel) (by decide +kernel)
    (by decide) (by decide) (by decide) (by decide) (by decide +kernel) (fun h => absurd (by decide +kernel) h)
  obtain rfl : tappedState.after (effTraceArm 0 0) = t := Host.Outcome.next.inj ((run_up _ hr).symm.trans hexec)
  have hone : (tappedState.after (effTraceArm 0 0)).rd obsB (KOBS_TRC_STAT.tcount.at 0) = 1 := by decide +kernel
  exact absurd (hone.symm.trans hcount) (by decide)

end Sys2Proof.Machine
end
